-- ==== Sys2Proof/Word.lean ====
section
/-! DEFINITION. The words of the module: bytes, the widths its registers have, and the sparse table that holds
its memories and its numbered units. -/

namespace Sys2Proof

abbrev Byte := BitVec 8
abbrev W16 := BitVec 16
abbrev W32 := BitVec 32
abbrev W64 := BitVec 64

/-- A table from numbers to values, kept as a list of entries with rising keys. A key that is not listed holds the
table's default, which the reader names; `Tbl.put` never lists an entry equal to that default. -/
abbrev Tbl (α : Type) := List (Nat × α)

end Sys2Proof
end

