-- ==== Sys2Proof/Syntax.lean ====
section
/-! DEFINITION. The commands of the module: one constructor per row of spec/opcode_table.json, in the table's order,
with the operands the row's rule names. A row that is an event of the physics (a sensor reading, a failed part, a
timer that runs out) carries what was observed. -/

namespace Sys2Proof

abbrev VatId := Fin 32
abbrev TileId := Fin 1024
abbrev CtxId := Fin 64
abbrev DieId := Fin 8
/-- A compute-die half: its compute port, its cream die and its Separator engine share the number (R19). -/
abbrev HalfId := Fin 16
abbrev PortId := Fin 53
abbrev StackId := Fin 32
abbrev PseudoId := Fin 2048
abbrev LinkId := Fin 64
abbrev PkgId := Fin 64
abbrev CageId := Fin 20
abbrev FieldId := Fin 30
abbrev QpId := Fin 1024
abbrev RingId := Fin 131072
abbrev RegNo := BitVec 5

/-- A Tiryn cell (R197): a 64-bit header and a 64-byte payload, byte 0 least significant (R6). -/
structure Cell where
  hdr : W64
  payload : BitVec 512
deriving DecidableEq, Repr

/-- Who writes a register (R152). -/
inductive Writer where
  | kcp (slot : Fin 8)
  | remote (pkg : PkgId) (slot : Fin 8)
  | firmware
  | monitor
deriving DecidableEq, Repr

/-- Where a KCP request came from: a session of this package, or a head package and its session slot (R448). -/
inductive KcpSrc where
  | session (slot : Fin 8)
  | forwarded (pkg : PkgId) (slot : Fin 8)
deriving DecidableEq, Repr

/-- What the ECC decoder found in the word that a step read (R169, R316). -/
inductive Ecc where
  | clean
  | corrected (lane : Nat)
  | uncorrectable
deriving DecidableEq, Repr

/-- One SRAM that keeps retention of its own: the tile stores of a vat, or a cream die (R173, R174). -/
inductive Sram where
  | tileStores (v : VatId)
  | cream (c : HalfId)
deriving DecidableEq, Repr

/-- The AMO operations of the RV64A extension, LR and SC among them (R70). -/
inductive AmoOp where
  | lr | sc | swap | add | xor | and | or | min | max | minu | maxu
deriving DecidableEq, Repr

/-- The three CSR actions; the immediate forms carry the same action (R542). -/
inductive CsrOp where
  | write | setBits | clearBits
deriving DecidableEq, Repr

/-- One wavelength of the Churn: the table entries of the modulator that writes it and of the drop filter that takes it
(R264). -/
structure Wavelength where
  modulator : RingId
  filter : RingId
deriving DecidableEq, Repr

/-- The causes that put a ring in FAULT (R262, R278). -/
inductive RingCause where
  | heater | monitor | acquisition
deriving DecidableEq, Repr

/-- A monitor dip of a full acquisition: its code, and the tone amplitudes seen there (R271). -/
structure Dip where
  code : Nat
  amps : List Nat
deriving DecidableEq, Repr

/-- What a training of a link measured (R332 to R334). -/
structure TrainObs where
  usable : Byte
  peerPkg : BitVec 6
  peerLink : BitVec 6
  peerSerial : BitVec 128
  rttNs : W16
deriving DecidableEq, Repr

/-- What an acceptance of a laser module found (R355): the first failed step, if any, and the tap powers in 0.01 dBm. -/
structure AcceptObs where
  failedStep : Option (Fin 6)
  powers : List Int
  serial : BitVec 128
deriving DecidableEq, Repr

/-- A regulated rail of R395, or the 6.0 V bus. -/
inductive Rail where
  | vat (v : VatId) | ret (v : VatId) | cd (d : DieId) | cream (c : HalfId)
  | hbm (s : StackId) | vddq (s : StackId) | churn | iod | bus6
deriving DecidableEq, Repr

/-- A region of the thermal controller (R411). -/
inductive Region where
  | vat (v : VatId) | cream (c : HalfId) | field (f : FieldId) | stack (s : StackId) | cage (m : CageId)
deriving DecidableEq, Repr

/-- One sensor reading in °C. -/
structure Reading where
  region : Region
  sensor : Fin 8
  value : Int
deriving DecidableEq, Repr

/-- The reset units that a command can name (R477). -/
inductive ResetKind where
  | vat (v : VatId) | die (d : DieId) | compute | management
deriving DecidableEq, Repr

/-- The physical outcomes that a bring-up step brings (R493): which parts failed it. -/
structure StepObs where
  refValid : Bool
  flashError : Bool
  failedStacks : List Nat
  columnFails : List (Nat × List Nat)
  seamLost : List Nat
  controlLost : List Nat
  bundlesLost : List (Nat × Nat)
  creamFails : List Nat
  mcbOk : Bool
deriving DecidableEq, Repr

/-- A part that had not finished its work at a step's bound (R494). -/
inductive Part where
  | vat (v : VatId) | die (d : DieId) | cream (c : HalfId) | stack (s : StackId) | cage (m : CageId) | ring (e : RingId)
deriving DecidableEq, Repr

/-- The frames the network layer answers or discards (R425). -/
inductive NetFrame where
  | arp | neighbourDiscovery | icmpEcho | icmp6Echo | other
deriving DecidableEq, Repr

/-- The reasons for a controller handover (R514). -/
inductive HandoverSource where
  | selfDiagnosis | watchdog | host
deriving DecidableEq, Repr

/-- The peer's parameters of a queue pair, as RoCEv2 requires (R444). -/
structure QpPeer where
  gid : BitVec 128
  qpn : BitVec 24
  psn : BitVec 24
deriving DecidableEq, Repr

inductive Instr where
  -- power, reset and pins
  | powerApplied (refValid : Bool)
  | undervoltageTrip
  | overvoltageTrip
  | inputRestart (refValid : Bool)
  | resetNAssert
  | resetNRelease
  | lugPairLoss (pairB : Bool)
  | lugClampRecompute (centivolts : W16)
  | leakDetect
  | i2cStatusWrite (bytes : List Byte)
  | buttonRelease (heldMs : Nat)
  | identifyExpire
  | buttonHold10s
  | standbyEntered
  | exitStandby
  | ident (on : Bool)
  | faultClr
  | lockMon
  | registerWrite (w : Writer) (addr : BitVec 46) (wide : Bool) (value : W64)
  -- the sequencer
  | seqBaseInstruction (v : VatId)
  | seqLoad (v : VatId) (rd rs1 : RegNo) (imm : BitVec 12) (size : BitVec 2) (zeroExt : Bool)
  | seqStore (v : VatId) (rs1 rs2 : RegNo) (imm : BitVec 12) (size : BitVec 2)
  | seqAmo (v : VatId) (op : AmoOp) (dbl : Bool) (rd rs1 rs2 : RegNo)
  | fence (v : VatId)
  | csrAccess (v : VatId) (op : CsrOp) (immForm : Bool) (csr : BitVec 12) (rd rs1 : RegNo)
  | tgrp (v : VatId) (rd rs1 rs2 : RegNo)
  | trun (v : VatId) (rs1 rs2 : RegNo)
  | trunRetire (v : VatId)
  | tileStart (v : VatId) (t : TileId)
  | bundleIssue (v : VatId) (t : TileId) (ecc : Ecc)
  | vectorResultLand (v : VatId) (t : TileId)
  | macResultLand (v : VatId) (t : TileId)
  | tileIdle (v : VatId) (t : TileId)
  | twait (v : VatId) (rd rs1 : RegNo)
  | twaitComplete (v : VatId)
  | tstat (v : VatId) (rd rs1 : RegNo)
  | ldlgo (v : VatId) (rs1 rs2 : RegNo)
  | ladleIssue (v : VatId) (k : Fin 8)
  | ldltake (v : VatId) (rd rs1 : RegNo)
  | ldltakeComplete (v : VatId)
  | ldlres (v : VatId) (rs1 rs2 : RegNo)
  | ldlstop (v : VatId) (rs1 : RegNo)
  | ffence (v : VatId) (rd rs1 : RegNo)
  | ffenceComplete (v : VatId)
  | boundary (v : VatId) (id : BitVec 12)
  | boundaryRetire (v : VatId)
  | swapComplete (v : VatId)
  | amoaddF32 (v : VatId) (rd rs1 rs2 : RegNo)
  | amoaddBf2 (v : VatId) (rd rs1 rs2 : RegNo)
  | amominF32 (v : VatId) (rd rs1 rs2 : RegNo)
  | amomaxF32 (v : VatId) (rd rs1 rs2 : RegNo)
  | amocasD (v : VatId) (rd rs1 rs2 : RegNo)
  | ecall (v : VatId)
  | ebreak (v : VatId)
  | swapArm (v : VatId)
  | vatGate (v : VatId)
  | gatedBankStop (v : VatId)
  | columnFault (v : VatId) (col : Fin 33)
  -- cultures
  | cultureLoad (src : KcpSrc) (req : W32) (image : W64) (shift : Byte) (targets : List (Byte × Byte))
  | loadCheckComplete (load : Nat)
  | loadStreamComplete (load : Nat)
  -- tile stores and cream dies
  | tilestoreCellService (v : VatId) (t : TileId) (ecc : Ecc)
  | creamBankAccess (c : HalfId) (bank : Byte) (ecc : Ecc)
  | sramScrubRead (u : Sram) (ecc : Ecc)
  | tilestoreRetentionEnter (v : VatId)
  | creamRetentionEnter (c : HalfId)
  | sramWakeComplete (u : Sram)
  | creamWakeTimeout (c : HalfId)
  | creamThrottleSample (c : HalfId)
  | crmCtrlWrite (c : HalfId) (value : W32)
  -- the memory fabric
  | ld (cell : Cell)
  | st (cell : Cell)
  | std (cell : Cell)
  | atom (cell : Cell)
  | msg (cell : Cell)
  | msgd (cell : Cell)
  | data (cell : Cell)
  | ack (cell : Cell)
  | sour (cell : Cell)
  | nackBusy (cell : Cell)
  | nackRefused (cell : Cell)
  | badCell (cell : Cell)
  | busyRetry (port : PortId) (tag : W16)
  | xoff (hop : Nat) (cls : BitVec 2) (response : Bool)
  | xon (hop : Nat) (cls : BitVec 2) (response : Bool)
  | keepalive (port : PortId) (fromPkg : PkgId) (target : PortId)
  | opTimeout (port : PortId) (tag : W16)
  | darkNotice (source dark : PortId)
  -- the Churn crossbar
  | frameBoundary (steps : List (Nat × Int)) (skews : List (Fin 9 × Int))
  | guardStart
  | cellCrcFail (w : Wavelength)
  | resendRequest (w : Wavelength)
  | flexRequest (c : CtxId)
  | retuneSettleTimeout (p : HalfId) (j : Fin 16) (ring : RingId)
  | chnFlexRelease (mask : W32)
  | signalBundleFail (c : HalfId) (g : Fin 10)
  | controlBundleFail (c : HalfId)
  | seamGroupFail (d : DieId)
  -- ring control
  | pilotWindowEnd (e : RingId) (amps : List Nat)
  | misframe (e : RingId) (cells : Nat)
  | ringHold (e : RingId)
  | ringFault (e : RingId) (cause : RingCause)
  | acquisitionComplete (e : RingId) (dips : List Dip)
  | tableHashCompute
  | tempEstimate (f : FieldId)
  -- the Separator
  | sepDoorbell (c : CtxId)
  | sepJobStart (s : HalfId)
  | sepWeightMsg (s : HalfId) (fromPort : PortId) (codes : List Byte)
  | sepReloadComplete (s : HalfId)
  | sepJobEnd (s : HalfId)
  | sepCalPass (s : HalfId) (residuals : List (Nat × Int))
  -- HBM
  | refreshWindow (s : StackId)
  | hbmRequestService (p : PseudoId) (index : Nat) (holdNs : Nat) (ecc : Ecc)
  | hbmScrubRead (p : PseudoId) (ecc : Ecc)
  | hbmTempSample (s : StackId)
  | selfRefreshEnter (s : StackId)
  -- pod links
  | linkTrainingStart (l : LinkId)
  | linkTrainingEnd (l : LinkId) (obs : TrainObs)
  | linkTrainingTimeout (l : LinkId)
  | linkGroupReceive (l : LinkId) (seq : BitVec 12) (crcOk : Bool) (cells : List Cell)
  | linkAck (l : LinkId) (seq : BitVec 12)
  | linkNak (l : LinkId) (seq : BitVec 12)
  | linkIdleWindow (l : LinkId)
  | laneLossOfSignal (l : LinkId) (lane : Fin 8)
  | fastRetrainEnd (l : LinkId) (obs : Option TrainObs)
  | linkDown (l : LinkId)
  | linkRetryTimer (l : LinkId)
  | lnkRetrain (mask : W64)
  | linkStateNotice (pkg : PkgId) (widths : List Byte)
  | linkStateNoticeSend (hub : Fin 4)
  | noticeExpire (pkg : PkgId)
  | transitCell (l : LinkId) (cell : Cell)
  | reassemblyTimeout (hub : Fin 4) (pkg : PkgId) (c : CtxId) (tag : W16)
  -- light supply
  | cagePresence (m : CageId)
  | acceptanceComplete (m : CageId) (obs : AcceptObs)
  | cageExtract (m : CageId)
  | linePowerSample (m : CageId) (powers : List Int)
  | laserTelemetry (m : CageId) (answered : Bool) (temp : Int) (faultFlag : Bool)
  | scheduledSwapDue (sector : HalfId)
  | swapBegin (sector : HalfId)
  | swapTargetVerified (sector : HalfId)
  | swapVerifyTimeout (sector : HalfId)
  | crossfadeEnd (sector : HalfId)
  | swapConfirm (sector : HalfId)
  | latchRelease (m : CageId)
  | latchClose (m : CageId)
  | lasSectorDark (sector : HalfId)
  -- clocks
  | refLost (byFrequency : Bool)
  | refRestored
  | revertLocked
  | dieClockLoss (d : Fin 9)
  | fieldPllFail (f : FieldId)
  | vatFreqStep (v : VatId)
  | droopDetect (v : VatId) (eighths : Fin 5)
  | fallbackRelease (v : VatId)
  -- power and thermal
  | railFault (r : Rail) (millivolts : Nat)
  | irDropCheck (losses : List (VatId × Nat))
  | energySample (centivolts : W16) (ampsA ampsB : BitVec 9)
  | powerCompare
  | graceExpire
  | lugOvercurrent (pairB : Bool)
  | releaseStep
  | powerLimit (src : KcpSrc) (req : W32) (watts : W32)
  | thermalSample (readings : List Reading)
  | thermTripRecord
  | sensorSelfCheck (failing : List (Region × Fin 8))
  | thermalLevelDecay
  -- host port
  | ethLinkTrain (signal : Byte)
  | ethRetry (signal : Byte)
  | ethLaneChange (lane : Fin 8) (usable : Bool)
  | networkFrame (kind : NetFrame)
  | rdmaWrite (q : QpId) (psn : BitVec 24) (rkey : W32) (va : W64) (bytes : List Byte) (ce : Bool)
  | rdmaRead (q : QpId) (psn : BitVec 24) (rkey : W32) (va : W64) (length : Nat) (ce : Bool)
  | send (q : QpId) (psn : BitVec 24) (bytes : List Byte) (ce : Bool)
  | roceUnsupportedOp (q : QpId) (psn : BitVec 24)
  | cnpReceived (q : QpId)
  | cnpRateRecover (q : QpId)
  -- KCP records and commands
  | helloH (body : List Byte)
  | finishH (session : W32) (sig : List Byte)
  | dataRecord (record : List Byte)
  | close (session : W32) (reason : Byte)
  | sessionIdleTimeout (slot : Fin 8)
  | identity (src : KcpSrc) (req : W32)
  | attest (src : KcpSrc) (req : W32) (nonce : BitVec 512)
  | ctxCreate (src : KcpSrc) (req : W32) (c : Byte) (group : W16) (seed : W64)
  | ctxLaunch (src : KcpSrc) (req : W32) (c : Byte)
  | ctxPause (src : KcpSrc) (req : W32) (c : Byte)
  | ctxDestroy (src : KcpSrc) (req : W32) (c : Byte)
  | segMap (src : KcpSrc) (req : W32) (c : Byte) (seg : W16) (entry : BitVec 128)
  | qpCreate (src : KcpSrc) (req : W32) (q : W16) (c : Byte) (rkey : W32) (credit slotSize : W16) (slots : W32)
      (ringBase : W64) (peer : QpPeer)
  | qpDestroy (src : KcpSrc) (req : W32) (q : W16)
  | regRead (src : KcpSrc) (req : W32) (reads : List (W64 × Byte))
  | regWrite (src : KcpSrc) (req : W32) (addr : W64) (width : Byte) (value : W64)
  | errRead (src : KcpSrc) (req : W32) (first : W64) (maxCount : W16)
  | dumpRead (src : KcpSrc) (req : W32) (offset length : W32)
  | routeWrite (src : KcpSrc) (req : W32) (d j : Byte) (value : W32)
  | notifySubscribe (src : KcpSrc) (req : W32) (mask : Byte)
  | notifyAck (src : KcpSrc) (req : W32) (seq : W32)
  | notifyResend
  | kcpForwardArrive (pkg : PkgId) (slot : Fin 8) (message : List Byte)
  | forwardReply (pkg : PkgId) (slot : Fin 8) (message : List Byte)
  | forwardTimeout (slot : Fin 8) (req : W32)
  -- contexts and resets
  | drainComplete (c : CtxId)
  | ctxEnded (c : CtxId)
  | faultStopQuiet (c : CtxId)
  | contextReset (c : CtxId)
  | contextResetComplete (c : CtxId)
  | abort (cell : Cell)
  | abortFilterExpire (pkg : PkgId) (c : CtxId)
  | abortHoldRelease (c : CtxId)
  | vatHang (v : VatId)
  | replayStart (v : VatId)
  | vatReset (v : VatId)
  | dieReset (d : DieId)
  | computeReset
  | mgmtReset
  | resetDone (k : ResetKind) (obs : StepObs)
  | handlingOverrun (seq : W64)
  | dump
  | dumpEntryRead (bytes : List Byte)
  | dumpReadTimeout
  | dumpDone
  | dumpRelease
  -- bring-up, firmware and trust
  | bringUpStepEnd (obs : StepObs)
  | bringUpStepBound (unfinished : List Part)
  | katRunComplete (v : VatId) (signature : W64) (columnFails : List Nat)
  | svnRaised
  | enterRecovery
  | fwBegin (src : KcpSrc) (req : W32) (kind : Byte) (total : W32)
  | fwWrite (src : KcpSrc) (req : W32) (offset : W32) (bytes : List Byte)
  | fwCommit (src : KcpSrc) (req : W32) (hash : BitVec 512)
  | fwUpdated
  | journalWrite
  | mcWatchdogExpire
  | mcHandover (source : HandoverSource)
  | handoverTakeover
  | overlapEnd
  | mcRetake
  | mcSelftestFail (mcB : Bool) (test : Nat)
  -- the UART monitor
  | uartBreak
  | monLineTooLong
  | monHelp
  | monId
  | monTime
  | monTemp
  | monPwr
  | monLanes
  | monRings (entry : Option Nat)
  | monLaser
  | monCtx
  | monErr (seq : Option Nat) (n : Option Nat)
  | monLog (n : Nat)
  | monLogFollow
  | peek (addr : W64) (wide : Bool)
  | poke (addr : W64) (wide : Bool) (value : W64)
  | monDump
  | monDumpInfo
  | monDumpRead (offset length : Nat)
  | monCtxPause (n : Nat)
  | monCtxLaunch (n : Nat)
  | monCtxDestroy (n : Nat)
  | unlock
  | unlockResponse (key sig : List Byte)
  | unlockEnd
  | unlockIdleTimeout
  | unlockLockoutExpire
  -- JTAG
  | bypass
  | idcode
  | samplePreload
  | extest
  -- rows the table lists last
  | buttonPress
  | buttonHold3s
  | ringHoldEnd (e : RingId)
  | mcaSelftestPass
  | keepaliveSend (port : PortId) (toPkg : PkgId) (toPort : PortId)
  | pfcPauseFrame (priorities : Byte)
  | monSyntaxError
  | logFollowKeypress
deriving DecidableEq, Repr

end Sys2Proof
end

