-- ==== Sys2Proof/Machine/Aes.lean ====
section
/-! DEFINITION. AES-256 in Galois/Counter Mode (R438). -/

namespace Sys2Proof.Machine

/-- The AES substitution box. -/
def aesSbox : List Nat :=
  [
    0x63, 0x7c, 0x77, 0x7b, 0xf2, 0x6b, 0x6f, 0xc5, 0x30, 0x01, 0x67, 0x2b, 0xfe, 0xd7, 0xab, 0x76,
    0xca, 0x82, 0xc9, 0x7d, 0xfa, 0x59, 0x47, 0xf0, 0xad, 0xd4, 0xa2, 0xaf, 0x9c, 0xa4, 0x72, 0xc0,
    0xb7, 0xfd, 0x93, 0x26, 0x36, 0x3f, 0xf7, 0xcc, 0x34, 0xa5, 0xe5, 0xf1, 0x71, 0xd8, 0x31, 0x15,
    0x04, 0xc7, 0x23, 0xc3, 0x18, 0x96, 0x05, 0x9a, 0x07, 0x12, 0x80, 0xe2, 0xeb, 0x27, 0xb2, 0x75] ++
  [
    0x09, 0x83, 0x2c, 0x1a, 0x1b, 0x6e, 0x5a, 0xa0, 0x52, 0x3b, 0xd6, 0xb3, 0x29, 0xe3, 0x2f, 0x84,
    0x53, 0xd1, 0x00, 0xed, 0x20, 0xfc, 0xb1, 0x5b, 0x6a, 0xcb, 0xbe, 0x39, 0x4a, 0x4c, 0x58, 0xcf,
    0xd0, 0xef, 0xaa, 0xfb, 0x43, 0x4d, 0x33, 0x85, 0x45, 0xf9, 0x02, 0x7f, 0x50, 0x3c, 0x9f, 0xa8,
    0x51, 0xa3, 0x40, 0x8f, 0x92, 0x9d, 0x38, 0xf5, 0xbc, 0xb6, 0xda, 0x21, 0x10, 0xff, 0xf3, 0xd2] ++
  [
    0xcd, 0x0c, 0x13, 0xec, 0x5f, 0x97, 0x44, 0x17, 0xc4, 0xa7, 0x7e, 0x3d, 0x64, 0x5d, 0x19, 0x73,
    0x60, 0x81, 0x4f, 0xdc, 0x22, 0x2a, 0x90, 0x88, 0x46, 0xee, 0xb8, 0x14, 0xde, 0x5e, 0x0b, 0xdb,
    0xe0, 0x32, 0x3a, 0x0a, 0x49, 0x06, 0x24, 0x5c, 0xc2, 0xd3, 0xac, 0x62, 0x91, 0x95, 0xe4, 0x79,
    0xe7, 0xc8, 0x37, 0x6d, 0x8d, 0xd5, 0x4e, 0xa9, 0x6c, 0x56, 0xf4, 0xea, 0x65, 0x7a, 0xae, 0x08] ++
  [
    0xba, 0x78, 0x25, 0x2e, 0x1c, 0xa6, 0xb4, 0xc6, 0xe8, 0xdd, 0x74, 0x1f, 0x4b, 0xbd, 0x8b, 0x8a,
    0x70, 0x3e, 0xb5, 0x66, 0x48, 0x03, 0xf6, 0x0e, 0x61, 0x35, 0x57, 0xb9, 0x86, 0xc1, 0x1d, 0x9e,
    0xe1, 0xf8, 0x98, 0x11, 0x69, 0xd9, 0x8e, 0x94, 0x9b, 0x1e, 0x87, 0xe9, 0xce, 0x55, 0x28, 0xdf,
    0x8c, 0xa1, 0x89, 0x0d, 0xbf, 0xe6, 0x42, 0x68, 0x41, 0x99, 0x2d, 0x0f, 0xb0, 0x54, 0xbb, 0x16]

def subByte (b : Byte) : Byte := BitVec.ofNat 8 (aesSbox.getD b.toNat 0)

/-- Multiplication by x in the AES field. -/
def xtime (b : Byte) : Byte := (b <<< 1) ^^^ (if b.getLsbD 7 then 0x1B else 0)

/-- Round keys: 60 words of four bytes, newest first. -/
def aesExpand : Nat → Nat → Byte → List (List Byte) → List (List Byte)
  | 0, _, _, ws => ws
  | k + 1, i, rcon, ws =>
    let t := ws.headD []
    let t' := if i % 8 = 0 then
        match t.map subByte with
        | [a, b, c, d] => [b ^^^ rcon, c, d, a]
        | u => u
      else if i % 8 = 4 then t.map subByte else t
    let w := List.zipWith (· ^^^ ·) (ws.getD 7 []) t'
    aesExpand k (i + 1) (if i % 8 = 0 then xtime rcon else rcon) (w :: ws)

/-- The fifteen 16-byte round keys of a 32-byte key. -/
def aesKeys (key : List Byte) : List (List Byte) :=
  chunks 16 15 (aesExpand 52 8 1 (chunks 4 8 key).reverse).reverse.flatten

/-- ShiftRows on a column-major state. -/
def shiftRows (st : List Byte) : List Byte :=
  (List.range 16).map fun i => st.getD ((i + 4 * (i % 4)) % 16) 0

def mixColumn : List Byte → List Byte
  | [a, b, c, d] =>
    let f (x y z w : Byte) : Byte := xtime x ^^^ (xtime y ^^^ y) ^^^ z ^^^ w
    [f a b c d, f b c d a, f c d a b, f d a b c]
  | st => st

def aesRounds : List (List Byte) → List Byte → List Byte
  | [], st => st
  | [k], st => List.zipWith (· ^^^ ·) (shiftRows (st.map subByte)) k
  | k :: ks, st =>
    aesRounds ks (List.zipWith (· ^^^ ·) ((chunks 4 4 (shiftRows (st.map subByte))).flatMap mixColumn) k)

/-- AES-256 of one 16-byte block. -/
def aesBlock (keys : List (List Byte)) (b : List Byte) : List Byte :=
  aesRounds (keys.drop 1) (List.zipWith (· ^^^ ·) b (keys.headD []))

/-- The product in GHASH's field, bit 127 of a word being the coefficient of 1. -/
def ghashMul (x y : BitVec 128) : BitVec 128 :=
  ((List.range 128).foldl (fun (z, v) i =>
    ((if x.getLsbD (127 - i) then z ^^^ v else z),
     (if v.getLsbD 0 then (v >>> 1) ^^^ (0xE1#128 <<< 120) else v >>> 1))) ((0 : BitVec 128), y)).1

def ghash (h : BitVec 128) (data : List Byte) : BitVec 128 :=
  (chunks 16 ((data.length + 15) / 16) data).foldl (fun y b => ghashMul (y ^^^ BitVec.ofNat 128 (beNat b)) h) 0

def padBlock (m : List Byte) : List Byte := m ++ List.replicate ((16 - m.length % 16) % 16) 0

/-- The key stream from counter block `iv` and count `c` on. -/
def gcmStream (keys : List (List Byte)) (iv : List Byte) : Nat → Nat → List Byte
  | 0, _ => []
  | n + 1, c => aesBlock keys (iv ++ beBytes 4 c) ++ gcmStream keys iv n (c + 1)

def gcmTag (keys : List (List Byte)) (iv aad cipher : List Byte) : List Byte :=
  let h := BitVec.ofNat 128 (beNat (aesBlock keys (List.replicate 16 0)))
  let s := ghash h (padBlock aad ++ padBlock cipher ++ beBytes 8 (8 * aad.length) ++ beBytes 8 (8 * cipher.length))
  List.zipWith (· ^^^ ·) (beBytes 16 s.toNat) (aesBlock keys (iv ++ [0, 0, 0, 1]))

def gcmCrypt (keys : List (List Byte)) (iv m : List Byte) : List Byte :=
  List.zipWith (· ^^^ ·) m (gcmStream keys iv ((m.length + 15) / 16) 2)

/-- Ciphertext followed by its 16-byte tag. -/
def gcmSeal (key iv aad m : List Byte) : List Byte :=
  let keys := aesKeys key
  let c := gcmCrypt keys iv m
  c ++ gcmTag keys iv aad c

/-- The plaintext, where the tag at the end of the bytes is right. -/
def gcmOpen (key iv aad sealed : List Byte) : Option (List Byte) :=
  if sealed.length < 16 then none
  else
    let keys := aesKeys key
    let c := sealed.take (sealed.length - 16)
    if gcmTag keys iv aad c = sealed.drop (sealed.length - 16) then some (gcmCrypt keys iv c) else none

end Sys2Proof.Machine
end

