-- ==== Sys2Proof/Machine/Bits.lean ====
section
/-! DEFINITION. Bit fields of numbers, and the other small arithmetic that every chapter uses. -/

namespace Sys2Proof.Machine

/-- Bits [lo + n - 1 : lo] of a number. -/
def bitsAt (x lo n : Nat) : Nat := x / 2 ^ lo % 2 ^ n

/-- The number with bits [lo + n - 1 : lo] replaced by v. -/
def withBits (x lo n v : Nat) : Nat := x - bitsAt x lo n * 2 ^ lo + v % 2 ^ n * 2 ^ lo

/-- Bit i of a number. -/
def bitAt (x i : Nat) : Bool := x / 2 ^ i % 2 == 1

/-- The number with bit i set or cleared. -/
def withBit (x i : Nat) (b : Bool) : Nat := withBits x i 1 b.toNat

/-- The two's complement reading of the low n bits. -/
def signed (n x : Nat) : Int :=
  if x % 2 ^ n < 2 ^ (n - 1) then (x % 2 ^ n : Nat) else (x % 2 ^ n : Nat) - (2 ^ n : Nat)

/-- The n-bit two's complement pattern of an integer. -/
def unsigned (n : Nat) (x : Int) : Nat := (x % (2 ^ n : Nat)).toNat

def clampNat (lo hi x : Nat) : Nat := max lo (min hi x)

/-- A counter of its width plus n. -/
def bump {w : Nat} (c : BitVec w) (n : Nat := 1) : BitVec w := c + BitVec.ofNat w n

/-- A bit mask of the numbers below n that satisfy f. -/
def maskOf (n : Nat) (f : Nat → Bool) : Nat := (List.range n).foldl (fun m i => if f i then m + 2 ^ i else m) 0

/-- The number of ones in the low n bits. -/
def popcount (n x : Nat) : Nat := ((List.range n).filter (bitAt x)).length

/-- A bit vector with bit i set or cleared. -/
def bvSet {w : Nat} (x : BitVec w) (i : Nat) (b : Bool) : BitVec w :=
  if b then x ||| (1 <<< i : BitVec w) else x &&& ~~~(1 <<< i : BitVec w)

/-- Fields packed into a word: (position, width, value) each. -/
def packBits (fs : List (Nat × Nat × Nat)) : Nat := fs.foldl (fun a (lo, n, v) => a + v % 2 ^ n * 2 ^ lo) 0

end Sys2Proof.Machine
end

