-- ==== Sys2Proof/Machine/State.lean ====
section
/-! DEFINITION. The state of the module as plain data. Every field's default is its value at reset: before input
power is applied (R387), with every register at the Reset column of its table (R11). Where the spec gives no reset
value the assumption log names the one used. Registers that only report other state are computed where they are
read (Registers.lean). -/

namespace Sys2Proof.Machine

/-! ## Outcomes -/

/-- No command of this block stops the machine: every failure the spec describes is a status, a record or a reset.
The one constructor is unused; it would be safe, since it stops where the hardware goes on. -/
inductive Fault where
  /-- Raised by nothing. -/
  | none
deriving DecidableEq, Repr

/-- The refusals. -/
inductive Refusal where
  /-- Raised by exec's arm of a command that has no meaning yet; safe, since it stops where the hardware goes on. -/
  | notModelled (mnemonic : String)
deriving DecidableEq, Repr

/-! ## Names shared by the chapters -/

/-- The ordering variant, fixed in fuses (R1, R2). -/
inductive Variant where
  | a | b | c
deriving DecidableEq, Repr

/-- The six states of a context (R457). -/
inductive CtxLife where
  | free | loaded | running | paused | draining | faulted
deriving DecidableEq, Repr

/-- Causes of a SOUR completion: the codes of R226. -/
inductive SourCause where
  | unmapped | segment | dark | timeout | unreachable | target | window
deriving DecidableEq, Repr

/-- The completion status of an operation (R218), with the bucket of R219 for a performed one. -/
inductive Status where
  | ok (bucket : BitVec 3)
  | refusedCapacity
  | refusedQuota
  | sour (cause : SourCause)
deriving DecidableEq, Repr

/-- What a local address names (R186). -/
inductive Where where
  | hbm
  | cream (c off : Nat)
  | tile (v t off : Nat)
  | register (off : Nat)
  | unmapped
deriving DecidableEq, Repr

/-- The severities of R480. -/
inductive Severity where
  | info | corrected | context | unit | package | fatal
deriving DecidableEq, Repr

/-- The ACTION field of R480. -/
inductive Action where
  | none | faultStop | contextReset | vatReset | dieReset | computeReset | halt
deriving DecidableEq, Repr

/-- An error record (R480); `details` are its four 64-bit words. -/
structure ErrRec where
  seq : W64 := 0
  time : W64 := 0
  code : W16 := 0
  severity : Severity := .info
  nested : Bool := false
  ctxValid : Bool := false
  action : Action := .none
  remote : Bool := false
  unit : W16 := 0
  ctx : BitVec 6 := 0
  pkg : BitVec 6 := 0
  parent : W64 := 0
  details : List W64 := []
deriving DecidableEq, Repr

/-- What a handling acts on (R484). -/
inductive Scope where
  | ctx (c : Nat)          -- a fault stop of context c
  | ctxReset (c : Nat)     -- a context reset of c: c and its vat
  | vat (v : Nat)          -- a vat reset of v with its replays
  | die (d : Nat)
  | compute
deriving DecidableEq, Repr

/-- Work that a record calls for, done before the command that wrote the record ends. -/
inductive Todo where
  | faultStop (c : Nat)
  | ctxReset (c : Nat)
  /-- A vat reset; `hang` for one of R474, whose suspects stay. -/
  | vat (v : Nat) (hang : Bool)
  | die (d : Nat)
  | compute
  | mgmt
  /-- A halt by escalation (kind 1) or of a PACKAGE record (kind 2). -/
  | halt (kind : Nat) (seq : W64)
deriving DecidableEq, Repr

/-- A handling in progress: its scope and the SEQ of the record that called for it (R484). -/
structure Handling where
  scope : Scope
  seq : W64
deriving DecidableEq, Repr

/-! ## Chapter 1: board, fuses and FRU -/

/-- Input power and the carrier's pins (R24 to R37). -/
structure Board where
  /-- Input power is in range and applied. -/
  inputOn : Bool := false
  /-- An under- or overvoltage trip waits for its restart condition (R27). -/
  tripWait : Bool := false
  /-- The package rails of R395 are up. -/
  rails : Bool := false
  resetN : Bool := true
  leakN : Bool := true
  pwrOk : Bool := false
  /-- LAS_12V is switched on (R419). -/
  las12v : Bool := false
  /-- Signal bundles in service per compute port, bit g (R20); counted in MC_PORT_WIDTH. -/
  bundles : Tbl (BitVec 10) := []
  /-- Signal bundles lost for good per compute port (R21). -/
  bundlesLost : Tbl (BitVec 10) := []
deriving DecidableEq, Repr

/-- The inventory registers of R23 and why parts are out of service. -/
structure Inventory where
  vatMap : W32 := 0
  cdMap : BitVec 8 := 0
  creamMap : W16 := 0
  iod : Bool := false
  stackMap : W32 := 0
  /-- MC_CAGE_MAP presence bits: LMk at bit k, LSj at bit 16 + j. -/
  cages : BitVec 20 := 0
  /-- Vats retired for good: KAT, columns, rail faults, TSV loss (R40, R397, R398, R497). -/
  vatRetired : W32 := 0
  /-- Vats out of service under R41 until their die's next self-test. -/
  vatColumn : W32 := 0
  /-- Dies retired with the persistence of R478. -/
  dieRetired : BitVec 8 := 0
  /-- Dies retired because their laser sector went dark (R366, R367). -/
  dieDarkSector : BitVec 8 := 0
  creamRetired : W16 := 0
  stackRetired : W32 := 0
  /-- Dies now in a die reset or compute reset. -/
  dieInReset : BitVec 8 := 0
deriving DecidableEq, Repr

/-- What is fixed in fuses (R2, R396, R500, R501, R507). -/
structure Fuses where
  variant : Variant := .a
  vendorKeyHash : BitVec 512 := 0
  svnMin : BitVec 7 := 0
  secret : BitVec 528 := 0
  /-- Fused deviation of vat v's voltage curve from the nominal one of R396, in mV. -/
  vfTrim : Tbl Int := []
deriving DecidableEq, Repr

/-- The commissioned powers of a cage, with the module serial they belong to (R356). -/
structure Commission where
  serial : BitVec 128 := 0
  powers : List Int := []
deriving DecidableEq, Repr

/-- The carrier FRU EEPROM (R36, R185, R356, R419, R426, R437). -/
structure Fru where
  serial : BitVec 128 := 0
  pkgId : BitVec 6 := 0
  mac : BitVec 48 := 0
  vlan : BitVec 12 := 0
  ip4 : W32 := 0
  ip4Prefix : Byte := 0
  ip4Gateway : W32 := 0
  ip6 : BitVec 128 := 0
  ip6Prefix : Byte := 0
  ip6Gateway : BitVec 128 := 0
  /-- SHA-512 of each host key, at most eight entries. -/
  hostKeys : List (BitVec 512) := []
  commissioned : Tbl Commission := []
  tripCopy : Option ErrRec := Option.none
deriving DecidableEq, Repr

/-! ## Chapter 2: vats, planes and tiles -/

/-- VAT_STATE.RUN (R82). -/
inductive RunState where
  | reset | idle | run | swap | gated | retired
deriving DecidableEq, Repr

/-- Counters of one ladle's registers (R83). -/
structure LdlCount where
  squash : W32 := 0
  deferDrop : W32 := 0
deriving DecidableEq, Repr

/-- The state a vat's spine, clock and rails keep (R80 to R85, R378 to R383, R393, R398, R407 to R409, R473). -/
structure Vat where
  run : RunState := .reset
  /-- Physical plane now active (VAT_STATE.PLANE). -/
  plane : Bool := false
  skip : BitVec 6 := 32
  exhausted : Bool := false
  arm : Bool := false
  slice : W16 := 0
  sliceHeld : Option W16 := Option.none
  sliceCount : Nat := 0
  wdogMs : BitVec 14 := 100
  boundaryCnt : W64 := 0
  lastBoundaryId : BitVec 12 := 0
  lastBoundaryCtx : BitVec 6 := 0
  lastBoundaryTime : W64 := 0
  cycles : W64 := 0
  /-- Vat cycles of the present nanosecond not yet counted, in fortieths. -/
  cycleFrac : Nat := 0
  stretchCnt : W64 := 0
  swapCnt : W32 := 0
  fault : BitVec 4 := 0
  causeCode : Byte := 0
  causeCtx : BitVec 6 := 0
  tval : W64 := 0
  ldl : Tbl LdlCount := []
  /-- The tile-store banks of a GATED vat run alone at 0.8 GHz (R85). -/
  banksOn : Bool := false
  tsRetained : Bool := false
  tsWaking : Bool := false
  /-- A launch or reset waits for the wake of R85 to end. -/
  wakeThen : Option RunState := Option.none
  scrubAt : Nat := 0
  failedCols : List Nat := []
  /-- Suspects still to be tried, the one being replayed, and those that passed (R473 to R475). -/
  suspects : List Nat := []
  replaying : Option Nat := Option.none
  passed : List Nat := []
  katRuns : Nat := 0
  /-- Times of rail faults, newest first (R397). -/
  railFaults : List W64 := []
  -- clock
  fixed : Bool := false
  fixedHeld : Option Bool := Option.none
  freq : Option (BitVec 7) := Option.none     -- none: the variant ceiling, its reset value
  freqHeld : Option (BitVec 7) := Option.none
  freqNow : BitVec 7 := 0
  fallbackCap : Option (BitVec 7) := Option.none
  fallbackCnt : W32 := 0
  fixedOvrCnt : W32 := 0
  overridden : Bool := false
  /-- Cycle of the last stretch (R380), and the time of the last STRETCH_FALLBACK record (R381). -/
  lastStretch : Option W64 := Option.none
  fallbackRecTime : Option W64 := Option.none
  irCap : BitVec 7 := 0
  -- ramp governor, in mA
  ballast : Nat := 0
  /-- How often a swap or a vat reset has made the tiles' registers and accumulators undefined (R67, R475); the model's own, log 7. -/
  epoch : Nat := 0
  rampHold : W64 := 0
  /-- GALS: the vat cycle that each island of the active plane may issue in without a further stall check (R154). -/
  cleared : Tbl Nat := []
deriving DecidableEq, Repr

/-- A group handle's rectangle (R71). -/
structure Group where
  row : Nat := 0
  col : Nat := 0
  rows : Nat := 0
  cols : Nat := 0
deriving DecidableEq, Repr

/-- One iteration that a ladle has issued or is to issue (R74 to R78). -/
structure LadleIter where
  /-- Its number along the chain from LDLGO. -/
  n : Nat
  /-- Its number among all iterations of the ladle, by which its operations know it. -/
  id : Nat
  /-- Its descriptor, and its index within that entry of the descriptor. -/
  desc : Nat
  j : Nat
  store : Bool := false
  /-- Cells issued so far, and cells that have not completed. -/
  sent : Nat := 0
  cellsLeft : Nat := 0
  /-- Cells still to be read from the tile store (store ladles). -/
  readsLeft : Nat := 0
  worst : Status := .ok 0
  /-- Address and tag of the cell that gave the worst status, for the record of R226. -/
  badAddr : W64 := 0
  badTag : W16 := 0
deriving DecidableEq, Repr

/-- A ladle's chain position in one plane (R63, R74 to R78). -/
structure Ladle where
  running : Bool := false
  /-- The descriptor to issue next, if the chain has not ended, and its iteration index. -/
  next : Option Nat := Option.none
  nextJ : Nat := 0
  /-- Iterations issued, and taken since LDLGO (T). -/
  issued : Nat := 0
  taken : Nat := 0
  /-- The pending branch: its descriptor and the number of its last iteration. -/
  branch : Option (Nat × Nat) := Option.none
  /-- A held outcome (R78). -/
  held : Option Bool := Option.none
  iters : List LadleIter := []
  nextId : Nat := 0
deriving DecidableEq, Repr

/-- What a sequencer instruction that has not retired waits for (R61, R65, R71, R76, R77, R79). -/
inductive Blocked where
  | trun (handle entry : Nat) (count : W32)
  | twait (handle : Nat) (rd : RegNo)
  /-- `released`: it has released a store iteration and waits for its cells to be read out. -/
  | ldltake (k : Nat) (rd : RegNo) (released : Bool)
  | ffence (mask : BitVec 9) (rd : RegNo)
  | boundary (id : BitVec 12)
deriving DecidableEq, Repr

/-- A boundary or launch checkpoint (R65). -/
structure Checkpoint where
  id : BitVec 12 := 0
  pc : W64 := 0
  x : Tbl W64 := []
  ladles : Tbl Ladle := []
  groups : Tbl Group := []
  nb : Nat := 0
deriving DecidableEq, Repr

/-- One configuration plane of a vat, with the spine's copy of its context's state (R63). -/
structure Plane where
  ctx : Option Nat := Option.none
  /-- Tile parameter words: key 64t + word; word w lies at byte 4w of R60. -/
  params : Tbl W32 := []
  /-- Bundles: key 240t + i (R59). -/
  bundles : Tbl (BitVec 128) := []
  /-- Route words: key 32t + k, and phase words by tile (R54, R58). -/
  routes : Tbl W32 := []
  phase : Tbl W32 := []
  /-- Descriptors (R73) and their COUNT (R128). -/
  desc : Tbl (BitVec 512) := []
  descCount : Nat := 0
  entry : W64 := 0
  initSp : W64 := 0
  gals : Bool := false
  /-- Where the culture's code lies in sequencer memory, and its length (R129). -/
  codeAt : Nat := 0
  codeLen : Nat := 0
  -- the sequencer
  seqMem : Tbl Byte := []
  pc : W64 := 0
  x : Tbl W64 := []
  /-- Registers that wait for an outstanding load or atomic (R69). -/
  busy : BitVec 32 := 0
  /-- The LR reservation: address and width in bytes. -/
  resv : Option (W64 × Nat) := Option.none
  minstret : W64 := 0
  vbnd : BitVec 12 := 0
  blocked : Option Blocked := Option.none
  /-- Set while the context may issue: cleared by a drain, an end or a fault stop. -/
  issuing : Bool := false
  ladles : Tbl Ladle := []
  groups : Tbl Group := []
  /-- Handles whose group had a tile flag newly set since its TRUN (R121). -/
  newFlags : BitVec 16 := 0
  /-- Draws each tile's generator has made since the last reseed (R110). -/
  draws : Tbl Nat := []
  nb : Nat := 0
  ckpt : Option Checkpoint := Option.none
  /-- An OK_DELAYED completion since the last FFENCE, per ladle and for the sequencer at bit 8 (R71, R79). -/
  delayed : BitVec 9 := 0
deriving DecidableEq, Repr

/-- The special tag of an EXACT entry (R114). -/
inductive AccTag where
  | none | posInf | negInf | nan
deriving DecidableEq, Repr

/-- A vector result on its way to the register file (R539). `land` is the vat cycle of its write. -/
structure VecPending where
  land : Nat
  /-- Registers written, with the mask of the bytes written. -/
  writes : List (Nat × BitVec 1024 × BitVec 1024)
  flags : BitVec 9
deriving DecidableEq, Repr

/-- The operands of one MAC repeat, whose products land 4 cycles after issue (R46). -/
structure MacPending where
  land : Nat
  set : Nat
  zero : Bool
  /-- The tile parameters' word 0. -/
  mode : W32
  a : BitVec 512
  /-- The B operand; for T2 its whole group of 320 bytes (R93). -/
  b : BitVec 2560
  /-- T2: the repeat within its group of ten. -/
  step : Nat
  /-- The E8M0 scales of the repeat's K-block, byte m for row m and byte n for column n (R98). -/
  sa : BitVec 128
  sb : BitVec 256
deriving DecidableEq, Repr

/-- A drain in progress (R46, R116): its set, its mode, the register of drain cycle 0, and the cycles done, of `total`. -/
structure Drain where
  set : Nat
  mode : Nat
  areg : Nat
  done : Nat
  total : Nat
deriving DecidableEq, Repr

/-- A 64-byte word on its way into a tile: incoming link 0 N, 1 E, 2 S, 3 W, and the vat cycle in which it arrives. -/
structure LinkWord where
  link : Nat
  cycle : Nat
  word : BitVec 512
deriving DecidableEq, Repr

/-- One tile (R59 to R61, R84). -/
structure Tile where
  busy : Bool := false
  /-- All bundles of the program have issued; results may still be landing. -/
  issuedAll : Bool := false
  ctx : BitVec 6 := 0
  entry : Nat := 0
  bundle : Nat := 0
  rep : Nat := 0
  iter : Nat := 0
  itersLeft : Nat := 0
  handle : Nat := 0
  /-- Vat cycle of the next bundle. -/
  cycle : Nat := 0
  /-- The start command is under way: entry and iterations, with the cycle at which it arrives. -/
  startAt : Option (Nat × Nat × Nat × Nat) := Option.none
  /-- Registers and accumulator entries written since the vat's epoch began; the others hold the epoch's free values. -/
  regs : Tbl (Option (BitVec 1024)) := []
  acc : Tbl (Option (BitVec 128)) := []
  tags : Tbl (Option AccTag) := []
  vec : List VecPending := []
  mac : List MacPending := []
  drains : List Drain := []
  /-- The block scales of the K-block under way (R98). -/
  scA : BitVec 128 := 0
  scB : BitVec 256 := 0
  links : List LinkWord := []
  /-- GALS queues into this tile, by incoming link (R153). -/
  queues : Tbl (List (BitVec 512)) := []
  xflags0 : BitVec 9 := 0
  xflags1 : BitVec 9 := 0
  phOvr : Bool := false
  /-- Current this tile's program adds to the vat's model, in mA (R407). -/
  peakMa : Nat := 0
deriving DecidableEq, Repr

/-! ## Chapter 4: loads and what the controller keeps of a culture -/

/-- One FLEX plan record (R240). -/
structure FlexPlan where
  trigger : BitVec 12
  isDefault : Bool
  count : List Nat
deriving DecidableEq, Repr

/-- One SEPW matrix (R132). -/
structure SepMatrix where
  id : W32
  codes : List Byte
deriving DecidableEq, Repr

/-- A load result (R138). -/
structure LoadResult where
  code : Byte := 0
  sect : Byte := 0xFF
  item : W16 := 0xFFFF
  pos : W16 := 0xFFFF
  byte : W64 := 0xFFFFFFFFFFFFFFFF
deriving DecidableEq, Repr

/-- A target of a culture load in progress, with its result once it has one. -/
structure LoadTarget where
  vat : Nat
  ctx : Nat
  plane : Bool
  result : Option LoadResult := Option.none
deriving DecidableEq, Repr

/-- A culture load in CHECK or STREAM (R134 to R142). -/
structure Load where
  id : Nat
  src : KcpSrc
  req : W32
  image : W64
  shift : Nat
  streaming : Bool := false
  digest : BitVec 512 := 0
  targets : List LoadTarget
deriving DecidableEq, Repr

/-! ## Chapter 16: contexts -/

/-- One context (R454 to R475, R491), with the measurement of R144. -/
structure Ctx where
  state : CtxLife := .free
  group : W16 := 0
  seed : W64 := 0
  noreplay : Bool := false
  weight : BitVec 4 := 8
  vat : BitVec 5 := 0
  plane : Bool := false
  resident : Bool := false
  suspect : Bool := false
  replaying : Bool := false
  stopping : Bool := false
  /-- A context reset is in progress. -/
  resetting : Bool := false
  /-- Destroys that wait for the reset to end, with the request that each one answers. -/
  destroyAfter : List (Option (KcpSrc × W32)) := []
  /-- An ECALL with a0 = 0 ended the run, and its operations complete (R460). -/
  ending : Bool := false
  /-- Draining: a BOUNDARY has retired since the pause (R459). -/
  drained : Bool := false
  lastSeq : W64 := 0
  lastCode : W16 := 0
  /-- RESET and GROUP_ABORT sent for the present fault (R469). -/
  resetSent : Bool := false
  abortSent : Bool := false
  /-- New requests to other packages are held (R471). -/
  remoteHold : Bool := false
  /-- Commands held during a replay (R490): pause or launch. -/
  heldPause : Bool := false
  heldLaunch : Bool := false
  digest : BitVec 512 := 0
  shift : BitVec 4 := 0
  galsBit : Bool := false
  commitTime : W64 := 0
  plans : List FlexPlan := []
  matrices : List SepMatrix := []
  sepRing : BitVec 27 := 0
deriving DecidableEq, Repr

/-! ## Chapters 5 and 10: SRAM and HBM -/

/-- CRM_STATE.MODE (R184). -/
inductive CreamMode where
  | reset | active | retention | retired
deriving DecidableEq, Repr

/-- A cream die (R165 to R184). -/
structure Cream where
  mode : CreamMode := .reset
  waking : Bool := false
  level : BitVec 2 := 0
  /-- Whether BENEATH, and whether OWN, raised the present level (R178). -/
  byBeneath : Bool := false
  byOwn : Bool := false
  retEn : Bool := false
  retIdle : W16 := 100
  own : Byte := 0
  beneath : Byte := 0
  throttleNs : W64 := 0
  ce : W32 := 0
  ue : W32 := 0
  tsCe : W32 := 0
  tsUe : W32 := 0
  lastUe : W64 := 0
  scrubPass : W32 := 0
  wakeCnt : W32 := 0
  scrubAt : Nat := 0
deriving DecidableEq, Repr

/-- HBM_STACK.STATE (R325). -/
inductive StackMode where
  | reset | training | run | selfRefresh | retired
deriving DecidableEq, Repr

/-- An HBM stack's own state. -/
structure Stack where
  mode : StackMode := .reset
  level : BitVec 2 := 0
  temp : Byte := 0
  ce : W32 := 0
  ue : W32 := 0
  /-- A field level of R416 that lowers the rate: 0 none, 1 half, 2 quarter. -/
  fieldLevel : BitVec 2 := 0
  /-- The scrub period this stack applies (R313). -/
  scrubHours : Byte := 12
deriving DecidableEq, Repr

/-- A correction that the controller attributes to a die (R317). -/
structure DieHit where
  die : Nat
  addr : Nat
  time : W64
deriving DecidableEq, Repr

/-- A pseudo-channel controller's marks, histories and scrub position (R314 to R319). -/
structure Pseudo where
  markDie : BitVec 4 := 0
  marked : Bool := false
  exhausted : Bool := false
  hits : List DieHit := []
  ceSince : Nat := 0
  ceRecTime : Option W64 := Option.none
  scrubAt : Nat := 0
  sweep : Nat := 0
  /-- Cells held in the atomic buffer, by address, newest first. -/
  buffer : List (Nat × BitVec 512) := []
deriving DecidableEq, Repr

structure Hbm where
  salt : BitVec 19 := 0
  /-- The salt's owning unit runs: from the end of training until power-on reset (R195). -/
  running : Bool := false
  scrubHours : Byte := 12
  scrubHeld : Option Byte := Option.none
  ce : W64 := 0
  ue : W64 := 0
  lastUe : W64 := 0
  scrubPass : W32 := 0
  hot : W32 := 0
  throttleNs : W64 := 0
  stackTbl : Tbl Stack := []
  pcs : Tbl Pseudo := []
deriving DecidableEq, Repr

/-! ## Chapter 6: the fabric -/

/-- What an outstanding operation was issued for, and where its result goes. -/
inductive Issuer where
  | seqLoad (v : Nat) (plane : Bool) (rd : RegNo) (offset : Nat) (size : Nat) (zeroExt : Bool)
  | seqStore (v : Nat) (plane : Bool)
  | seqAtom (v : Nat) (plane : Bool) (rd : RegNo) (dbl : Bool)
  | ladleLoad (v : Nat) (plane : Bool) (k : Nat) (iter : Nat) (ts : List Nat)
  | ladleStore (v : Nat) (plane : Bool) (k : Nat) (iter : Nat)
  | rdmaWrite (q : Nat) (msgId : Nat)
  | rdmaRead (q : Nat) (msgId : Nat) (first : Nat)
  | forward (slot : Nat) (req : W32)
  | controller
deriving DecidableEq, Repr

/-- An outstanding operation of a source port (R203 to R208, R218 to R225). -/
structure Op where
  port : Nat
  tag : W16
  ctx : Nat
  issuer : Issuer
  /-- The fabric address, or the context address of a failed translation. -/
  addr : W64
  /-- Every request cell of the operation, for a resend (R208). -/
  cells : List Cell
  /-- Response cells received, by index, with their status. -/
  got : List (Nat × Status) := []
  /-- Cells that a store ladle has read out of its tile store so far. -/
  data : List (Nat × BitVec 512) := []
  expect : Nat := 1
  voided : Bool := false
  retried : Bool := false
  backoffUs : Nat := 1
  /-- It waits out the back-off of R208. -/
  waiting : Bool := false
  /-- A ladle store whose cells are still being read out of the tile store (R77). -/
  reading : Bool := false
  issuedAt : W64 := 0
  /-- When the target last answered or sent a keepalive (R223). -/
  heard : W64 := 0
deriving DecidableEq, Repr

/-- A request held by a target: its head cell and its data cells by fragment, with when it arrived. -/
structure TReq where
  head : Cell
  frags : List (Nat × BitVec 512) := []
  arrived : W64 := 0
  /-- 32-byte words served so far by a tile store (R157); at a cream die, the mask of cells served. -/
  words : Nat := 0
  /-- It waited for a wake or a rate limit (R220). -/
  held : Bool := false
  /-- An uncorrectable word has been met. -/
  failed : Bool := false
deriving DecidableEq, Repr

/-- A ladle fill or a Separator result on its way into a tile store: its offset in the tile, its data, the operation's
source port, tag and cell index, and the words written so far (R157). -/
structure TResp where
  off : Nat
  data : BitVec 512
  port : Nat
  tag : W16
  index : Nat
  ok : Bool
  words : Nat := 0
deriving DecidableEq, Repr

/-- A message delivered to a mailbox and not yet taken by its unit (R201, R207). -/
structure Mail where
  port : Nat
  mailbox : W32
  pkg : Nat
  sport : Nat
  bytes : List Byte
deriving DecidableEq, Repr

/-- A message being assembled at a target port or a hub (R207, R346). -/
structure Assembly where
  port : Nat
  pkg : Nat
  ctx : Nat
  sport : Nat
  tag : W16
  head : Option Cell := Option.none
  frags : List (Nat × BitVec 512) := []
  /-- It was answered NACK_BUSY, and its cells are discarded (R207). -/
  refused : Bool := false
deriving DecidableEq, Repr

structure Fabric where
  pkgId : BitVec 6 := 0
  podBound : BitVec 9 := 250
  latLocal : W16 := 2000
  latPod : W16 := 8000
  rxQuota : BitVec 14 := 0
  dark : BitVec 53 := 0
  /-- What each source port knows of dark ports, from the notices of R222. -/
  noticed : Tbl (BitVec 53) := []
  sourCnt : W64 := 0
  timeoutCnt : W64 := 0
  refusedCnt : W64 := 0
  busyRetryCnt : W64 := 0
  lateCnt : W32 := 0
  dropCnt : W32 := 0
  seg : Tbl (BitVec 128) := []
  /-- Every byte of HBM, cream SRAM and tile stores, by local address; an unlisted byte reads 0. -/
  mem : Tbl Byte := []
  /-- 8-byte lanes that hold an uncorrectable error, by address divided by 8. -/
  bad : Tbl Bool := []
  /-- Cells on the Churn or a link that have not arrived. -/
  flight : List Cell := []
  ops : List Op := []
  /-- Tags withheld from reuse: source port, tag and the time at which it may be used again (R208, R225). -/
  withheld : List (Nat × W16 × W64) := []
  nextTag : Tbl W16 := []
  asm : List Assembly := []
  /-- Fabric-side queues of tiles, by 1024v + t (R157). -/
  tileReq : Tbl (List TReq) := []
  tileResp : Tbl (List TResp) := []
  /-- Whether a tile's arbiter serves its response queue next. -/
  tileTurn : Tbl Bool := []
  creamQ : Tbl (List TReq) := []
  hbmQ : Tbl (List TReq) := []
  /-- Stopped classes: hop, class, response side (R215). -/
  stopped : List (Nat × Nat × Bool) := []
  mail : List Mail := []
  badRecTime : Option W64 := Option.none
  badSince : Nat := 0
  /-- Purge filters of R470, by package and context. -/
  filters : List (Nat × Nat) := []
  /-- Remote requests held at their source under R471. -/
  held : List Cell := []
  /-- Keepalive symbols sent: source port, package and port told. -/
  keepalives : List (Nat × Nat × Nat) := []
deriving DecidableEq, Repr

/-! ## Chapters 7 and 8: the Churn and its rings -/

/-- A flex request at the controller (R241 to R246). -/
structure FlexReq where
  ctx : Nat
  port : Nat
  plan : FlexPlan
  waited : Nat := 0
  /-- The frame at whose boundary it is first evaluated. -/
  first : Nat := 0
  fitted : Bool := false
deriving DecidableEq, Repr

/-- A granted row whose moved wavelengths are being retuned (R247, R248). -/
structure Retune where
  port : Nat
  row : List Nat
  moved : Nat
  req : FlexReq
  bucket : BitVec 3
deriving DecidableEq, Repr

/-- CHN_PORT.STATE (R259). -/
inductive PortMode where
  | dark | lit | narrow | retired
deriving DecidableEq, Repr

structure Port where
  mode : PortMode := .dark
  txLit : BitVec 9 := 0
  rxLit : BitVec 9 := 0
  txSpare : BitVec 6 := 0
  rxSpare : BitVec 6 := 0
  /-- Flex transmit wavelengths in service (R239). -/
  flexTx : Nat := 0
deriving DecidableEq, Repr

/-- CHN_FLEX_STATUS of a port (R259). -/
structure FlexOutcome where
  outcome : BitVec 2 := 0
  bucket : BitVec 3 := 0
  ctx : BitVec 6 := 0
  trigger : BitVec 12 := 0
  fitted : Bool := false
  frame : W32 := 0
deriving DecidableEq, Repr

structure Churn where
  guard : Bool := false
  running : Bool := false
  flexWait : BitVec 6 := 8
  flexWaitHeld : Option (BitVec 6) := Option.none
  retuneCnt : W64 := 0
  grantCnt : W32 := 0
  refuseCnt : W32 := 0
  retuneFailCnt : W32 := 0
  resendCnt : W64 := 0
  ports : Tbl Port := []
  rows : Tbl (List Nat) := []
  owners : Tbl (Option Nat) := []
  outcomes : Tbl FlexOutcome := []
  colLimit : Tbl Nat := []
  /-- Flex requests sent by a spine that have not reached the controller. -/
  sent : List FlexReq := []
  pending : List FlexReq := []
  retunes : List Retune := []
  /-- Ports whose row is released, and those that rise to the default (R244). -/
  releasing : BitVec 16 := 0
  rising : BitVec 16 := 0
  /-- Ports that go dark at the next boundary, and that relight there (R255, R257). -/
  darkNext : BitVec 53 := 0
  relightNext : BitVec 53 := 0
  /-- Lane maps to rebuild at the next boundary (R252). -/
  rebuild : BitVec 16 := 0
  /-- CRC failures in a row of a cell, by its wavelength's modulator (R231). -/
  fails : Tbl Nat := []
  /-- Wavelengths that R231 took out of service, modulator and drop filter, and when each was replaced last (R280). -/
  failed : List (Nat × Nat) := []
  returned : Tbl W64 := []
  /-- The spare in use for a lost wavelength, both by channel slot (R250). -/
  spareOf : Tbl Nat := []
  /-- The row entry that a lost flex wavelength was taken from, by channel slot; 0 is the parked ones (R248). -/
  flexHome : Tbl Nat := []
  /-- Wavelengths shed for want of lanes, per port: transmit and receive (R252). -/
  shedTx : Tbl Nat := []
  shedRx : Tbl Nat := []
  severed : List (Nat × Nat) := []
deriving DecidableEq, Repr

/-- The states of a ring's loop (R262). -/
inductive RingState where
  | unpop | cold | acquire | verify | locked | hold | fault | retired
deriving DecidableEq, Repr

/-- Where a ring is in the sequences of R271 and R276. -/
inductive RingStep where
  | none | coldReset | settle (frames : Nat) | raise | acquiring (frames : Nat) | relockWindow | fullAcquisition
  | suspended
deriving DecidableEq, Repr

/-- A ring control table entry (R266) with its loop's history (R276, R277, R284). -/
structure Ring where
  dac : W16 := 0
  chan : BitVec 5 := 0
  kind : BitVec 3 := 0
  state : RingState := .unpop
  pilot : BitVec 5 := 0
  nbr : W32 := 0
  coef : BitVec 128 := 0
  calCount : W16 := 0
  lastCalFrame : BitVec 48 := 0
  lockDac : W16 := 0
  /-- Where its heater is parked when it is COLD or RETIRED (R279). -/
  park : W16 := 0
  lockTemp : Int := 0
  step : RingStep := .none
  mislocks : List W64 := []
  /-- An immediate window of R280 runs. -/
  verifying : Bool := false
deriving DecidableEq, Repr

/-- A field's ring-based temperature estimate (R284, R285). -/
structure FieldEst where
  temp : W16 := 0
  valid : Bool := false
  slope : W16 := 0
  rings : W16 := 0
deriving DecidableEq, Repr

structure Rings where
  built : Bool := false
  table : Tbl Ring := []
  calCnt : W64 := 0
  lastCal : W64 := 0
  mislockCnt : W64 := 0
  faultCnt : W32 := 0
  misframeCnt : W32 := 0
  hashSeq : W32 := 0
  hash : BitVec 512 := 0
  est : Tbl FieldEst := []
deriving DecidableEq, Repr

/-! ## Chapter 9: the Separator -/

/-- SEP_STATE.STATE (R306). -/
inductive SepMode where
  | idle | run | reload | cal
deriving DecidableEq, Repr

/-- The job an engine runs: descriptor words, and what its end writes (R290 to R295). -/
structure SepJob where
  ctx : Nat
  index : W32
  desc : BitVec 512
  start : W64 := 0
  reloaded : Bool := false
  degraded : Bool := false
  /-- The row masks in effect since it began, newest first (R302). -/
  masks : List W64 := []
deriving DecidableEq, Repr

structure Engine where
  mode : SepMode := .idle
  matCtx : BitVec 6 := 0
  matId : W32 := 0
  matValid : Bool := false
  runCtx : BitVec 6 := 0
  jobCnt : W64 := 0
  vecCnt : W64 := 0
  lastCal : W64 := 0
  rowMasked : W64 := 0
  rowRetired : W64 := 0
  reloadCnt : W32 := 0
  calCnt : W32 := 0
  /-- Masked weights, as 64 row + column (R303). -/
  weightMasked : List Nat := []
  /-- Weight codes in effect, and codes that take effect at the next boundary. -/
  weights : Tbl Byte := []
  incoming : Option (List Byte) := Option.none
  settling : Bool := false
  /-- The matrix that a reload brings: its context and id. -/
  want : Option (Nat × W32) := Option.none
  /-- Posted jobs per context: the TAIL last reported. -/
  posted : Tbl (Option W32) := []
  lastServed : Nat := 63
  job : Option SepJob := Option.none
deriving DecidableEq, Repr

/-! ## Chapter 11: pod links -/

inductive LinkMode where
  | down | training | up | retrain | miscabled | disabled
deriving DecidableEq, Repr

structure Link where
  mode : LinkMode := .down
  width : BitVec 4 := 0
  lanes : Byte := 0
  peerPkg : BitVec 6 := 0
  peerLink : BitVec 6 := 0
  peerSerial : BitVec 128 := 0
  miscable : BitVec 2 := 0
  rtt : W16 := 0
  crcErr : W32 := 0
  replays : W32 := 0
  trains : W32 := 0
  downs : W32 := 0
  laneMask : Byte := 0xFF
  disable : Bool := false
  laneHeld : Option Byte := Option.none
  disableHeld : Option Bool := Option.none
  /-- A receive lane is unusable: light, rings or signal (R335, R359). -/
  laneLost : Byte := 0
  everUp : Bool := false
  txSeq : BitVec 12 := 0
  rxSeq : BitVec 12 := 0
  /-- Groups sent and not acknowledged, oldest first (R330). -/
  replay : List (BitVec 12 × List Cell) := []
  /-- The group named by the last NAK, and how many NAKs in a row have named it. -/
  failSeq : BitVec 12 := 0
  failRun : Nat := 0
  /-- Cells that wait for replay space, for XON or for the link to come up again. -/
  queue : List Cell := []
deriving DecidableEq, Repr

structure Links where
  autoWiden : Bool := true
  transitDrop : W32 := 0
  reorderBusy : W32 := 0
  links : Tbl Link := []
  /-- Route words without EFF: key 16 D + j (R338). -/
  routes : Tbl W32 := []
  /-- Entries already reported as mismatched (R338). -/
  mismatched : List Nat := []
  /-- The last link-state notice of each package (R341). -/
  notices : Tbl (List Byte) := []
  /-- The deficit of each route entry in the round robin of R340. -/
  credit : Tbl Int := []
  transitRecTime : Option W64 := Option.none
  transitSince : Nat := 0
deriving DecidableEq, Repr

/-! ## Chapter 12: light supply -/

inductive CageMode where
  | empty | accepting | rejected | active | standby | out | released
deriving DecidableEq, Repr

structure Cage where
  mode : CageMode := .empty
  level : Nat := 0
  latchOpen : Bool := false
  worstLine : Nat := 0
  worstDelta : Int := 0
  temp : Byte := 0
  missed : Nat := 0
  lit : Bool := false
  expedite : Bool := false
  /-- Tap samples per line, newest first, at most ten (R358). -/
  taps : Tbl (List Int) := []
  /-- Mean tap power and commissioned power per line, in 0.01 dBm. -/
  line : Tbl Int := []
  ref : Tbl Int := []
  /-- Lines whose lanes are dropped under R359. -/
  lowLines : W32 := 0
  serial : BitVec 128 := 0
deriving DecidableEq, Repr

/-- The kinds of swap, in order of priority (R361). -/
inductive SwapKind where
  | emergency | expedited | scheduled | ret
deriving DecidableEq, Repr

/-- A queued swap: its sector, its kind and the source it is to replace. -/
structure SwapReq where
  sector : Nat
  kind : SwapKind
  source : Nat
  /-- A scheduled swap waits for SCHED_DELAY. -/
  due : Bool := true
deriving DecidableEq, Repr

inductive SwapPhase where
  | verifying | armed | crossfade | confirming
deriving DecidableEq, Repr

/-- A swap under way on a sector (R362). -/
structure Swap where
  kind : SwapKind
  source : Nat
  target : Nat
  phase : SwapPhase
deriving DecidableEq, Repr

structure Sector where
  source : Option Nat := Option.none
  swap : Option Swap := Option.none
deriving DecidableEq, Repr

structure Light where
  autoReturn : Bool := true
  schedDelay : Byte := 10
  swapCnt : W32 := 0
  emergCnt : W32 := 0
  dark : BitVec 16 := 0
  /-- Dark sectors that take an accepted source at the next boundary (R367). -/
  relight : Tbl (Option Nat) := []
  sectors : Tbl Sector := []
  cages : Tbl Cage := []
  queue : List SwapReq := []
  /-- Sectors whose swap found no eligible target (R365). -/
  noSpare : BitVec 16 := 0
deriving DecidableEq, Repr

/-! ## Chapter 13: clocks and time -/

inductive RefSource where
  | refclk | holdover | reverting
deriving DecidableEq, Repr

structure Clock where
  locked : Bool := false
  source : RefSource := .refclk
  refValid : Bool := false
  holdoverCnt : W32 := 0
  holdoverNs : W64 := 0
  holdoverFrom : W64 := 0
  dieLock : BitVec 9 := 0
  dieLossCnt : W32 := 0
  /-- Times of each die's clock losses, newest first (R377). -/
  dieLosses : Tbl (List W64) := []
  startedOnHoldover : Bool := false
  holdoverSeen : Bool := false
  /-- The time counter (R387). -/
  now : W64 := 0
  skewCnt : W32 := 0
  skewMax : W16 := 0
  skewRecTime : Tbl W64 := []
  /-- Failed PLLs per Churn field: bit 0 the first, bit 1 the second, bit 2 which is active. -/
  plls : Tbl (BitVec 3) := []
deriving DecidableEq, Repr

/-! ## Chapter 14: power and thermal -/

inductive PwrState where
  | normal | grace | enforce | release
deriving DecidableEq, Repr

structure Power where
  energy : W64 := 0
  /-- Energy below 1 mJ, in units of 100 nJ. -/
  energyFrac : Nat := 0
  nowW : W16 := 0
  volts : W16 := 0
  ampsA : BitVec 9 := 0
  ampsB : BitVec 9 := 0
  /-- PWR_LIMIT; none is the variant ceiling, its reset value. -/
  limit : Option W16 := Option.none
  grace : Byte := 20
  state : PwrState := .normal
  lugA : Bool := false
  lugB : Bool := false
  /-- The single-lug clamp in force, in W (R26). -/
  lugClamp : Option Nat := Option.none
  cap : BitVec 7 := 0
  throttleCnt : W32 := 0
  enforceCnt : W32 := 0
  enforceNs : W64 := 0
  /-- 10 µs samples in units of 0.01 W, newest first, at most 100. -/
  samples : List Nat := []
  /-- Comparisons in a row at or below 97 % of the limit (R405). -/
  belowRun : Nat := 0
  /-- When NORMAL was entered after a RELEASE (R405). -/
  normalSince : Option W64 := Option.none
  /-- PWR_ENFORCE or PWR_LIMIT_UNREACHED has been written for this ENFORCE. -/
  enforceDone : Bool := false
  unreached : Bool := false
  badRails : List Rail := []
deriving DecidableEq, Repr

/-- One sensor (R411, R412). -/
structure Sensor where
  value : Int := 0
  broken : Bool := false
  /-- Samples in a row at or above the critical temperature. -/
  critRun : Nat := 0
  /-- A first sample has been read. -/
  seen : Bool := false
deriving DecidableEq, Repr

structure Thermal where
  trip : Bool := false
  source : BitVec 3 := 0
  region : BitVec 12 := 0
  tripTemp : Int := 0
  brokenCnt : W32 := 0
  disagree : BitVec 30 := 0
  disagreeRec : Tbl W64 := []
  sensors : Tbl Sensor := []
  /-- Levels of vats and of Churn fields (R415). -/
  vatLevel : Tbl Nat := []
  fieldLevel : Tbl Nat := []
  fieldCrit : Tbl Nat := []
  /-- Regions reported blind, by region number (R413). -/
  blind : List Nat := []
deriving DecidableEq, Repr

/-! ## Chapter 15: host port and KCP -/

inductive EthMode where
  | down | training | up
deriving DecidableEq, Repr

inductive QpState where
  | free | ready | error
deriving DecidableEq, Repr

/-- An RDMA message of a queue pair that waits for its cells (R430, R433). -/
structure QpMsg where
  id : Nat
  psn : BitVec 24
  isRead : Bool
  isSend : Bool
  length : Nat
  addr : W64
  /-- Cells of the message that have not completed. -/
  left : Nat
  issued : Bool
  data : List Byte
  /-- Cells read so far, and the statuses and addresses of failed ones, by cell index. -/
  got : List (Nat × BitVec 512)
  fails : List (Nat × Status × W64)
  /-- READ response packets already sent. -/
  sent : Nat
  worst : Status
deriving DecidableEq, Repr

structure Qp where
  state : QpState := .free
  ctx : BitVec 6 := 0
  lastStatus : BitVec 3 := 0
  lastCause : BitVec 4 := 0
  lastBucket : BitVec 3 := 0
  delayedCnt : W32 := 0
  refusedCnt : W32 := 0
  rkey : W32 := 0
  credit : W16 := 256
  slotSize : W16 := 0
  slots : W32 := 0
  ringBase : W64 := 0
  peer : QpPeer := { gid := 0, qpn := 0, psn := 0 }
  sendSeq : W64 := 0
  nextMsg : Nat := 0
  msgs : List QpMsg := []
  /-- Halvings of the send rate in force (R427). -/
  rateShift : Nat := 0
  cnpTime : Option W64 := Option.none
deriving DecidableEq, Repr

/-- What the host port sends. -/
inductive HostTx where
  /-- A KCP record: the bytes of one UDP datagram on port 49320 (R435). -/
  | kcp (record : List Byte)
  | rdmaAck (q : Nat) (psn : BitVec 24)
  | rdmaRead (q : Nat) (psn : BitVec 24) (bytes : List Byte)
  | nakInvalid (q : Nat) (psn : BitVec 24)
  | nakAccess (q : Nat) (psn : BitVec 24)
  | nakOperational (q : Nat) (psn : BitVec 24)
  | nakRnr (q : Nat) (psn : BitVec 24) (timer : BitVec 5)
  | cnp (q : Nat)
  | net (kind : NetFrame)
deriving DecidableEq, Repr

structure Ethernet where
  mode : EthMode := .down
  /-- Training follows a change of lanes or of MODE on a port that was UP. -/
  retraining : Bool := false
  speed : BitVec 2 := 0
  /-- Lanes with receive signal, and lanes that R359 or R366 declares unusable. -/
  signal : Byte := 0
  lightLost : Byte := 0
  cfg : W32 := 0x0E330800
  mac : BitVec 48 := 0
  rxDrop : W64 := 0
  pfcRx : W32 := 0
  cnpRx : W32 := 0
  cnpTx : W32 := 0
  paused : Byte := 0
  qps : Tbl Qp := []
  tx : List HostTx := []
deriving DecidableEq, Repr

/-- A message kept for duplicates, and where it goes (R442). -/
structure KcpReply where
  opcode : W16
  flags : Byte
  req : W32
  status : W16
  payload : List Byte
  /-- The TARGET byte: the package that answered. -/
  target : Byte
deriving DecidableEq, Repr

/-- A KCP session (R437 to R442). -/
structure Session where
  isOpen : Bool := false
  /-- HELLO_D has been sent and FINISH_H is awaited. -/
  handshake : Bool := false
  id : W32 := 0
  recordMax : W16 := 0
  hostKey : List Byte := []
  hostEph : List Byte := []
  hostNonce : List Byte := []
  devNonce : List Byte := []
  devScalar : Nat := 0
  h1 : BitVec 512 := 0
  devSig : List Byte := []
  keyH2d : BitVec 256 := 0
  ivH2d : BitVec 96 := 0
  keyD2h : BitVec 256 := 0
  ivD2h : BitVec 96 := 0
  /-- The highest SEQ accepted, if any, and which of the 1,024 below it have been seen. -/
  rxTop : Option W64 := Option.none
  rxSeen : List W64 := []
  txSeq : W64 := 0
  running : List W32 := []
  replies : List KcpReply := []
  subs : BitVec 4 := 0
  /-- Subscriptions at other packages held for this session (R450). -/
  remoteSubs : List Nat := []
deriving DecidableEq, Repr

/-- A pending notification (R446). -/
structure Notification where
  seq : W32
  opcode : W16
  payload : List Byte
deriving DecidableEq, Repr

/-- A request that this package forwarded as head and that has no reply yet (R448). -/
structure Forward where
  slot : Nat
  req : W32
  op : W16
  target : Nat
deriving DecidableEq, Repr

/-- What this package keeps for a head package's session slot (R448, R450). -/
structure RemoteSlot where
  replies : List KcpReply := []
  running : List W32 := []
  subs : BitVec 4 := 0
deriving DecidableEq, Repr

structure Kcp where
  sessions : Tbl Session := []
  nextSession : W32 := 1
  idleTimeout : Byte := 60
  fwdTimeout : Byte := 30
  authFail : W32 := 0
  notifyDrop : W32 := 0
  notifySeq : W32 := 0
  dupCnt : W32 := 0
  fwdCnt : W64 := 0
  tagFail : W32 := 0
  pending : List Notification := []
  /-- HELLO_H records answered in the present second of the time counter (R437). -/
  helloSecond : Nat := 0
  helloCount : Nat := 0
  forwards : List Forward := []
  remote : Tbl RemoteSlot := []
deriving DecidableEq, Repr

/-! ## Chapter 16: errors, resets and the dump -/

/-- The dump being taken or held (R486 to R489). -/
structure Dump where
  busy : Bool := false
  valid : Bool := false
  truncated : Bool := false
  trigger : Byte := 0
  time : W64 := 0
  endTime : W64 := 0
  triggerSeq : W64 := 0
  entries : Nat := 0
  unreadable : Nat := 0
  skipped : Nat := 0
  size : W64 := 0
  bytes : List Byte := []
  /-- The error ring as at the trigger. -/
  ring : Tbl ErrRec := []
  /-- Position in the plan of R487: unit numbers still to read, each with the entries it has left. -/
  plan : List (W16 × Nat) := []
  misses : Nat := 0
deriving DecidableEq, Repr

structure Errors where
  cfgRefused : Bool := false
  overflow : Bool := false
  halt : Bool := false
  haltKind : BitVec 2 := 0
  seqNext : W64 := 0
  overflowCnt : W32 := 0
  nestedCnt : W32 := 0
  vatResets : W16 := 0
  dieResets : W16 := 0
  computeResets : W16 := 0
  mgmtResets : W16 := 0
  ring : Tbl ErrRec := []
  handlings : List Handling := []
  /-- Resets in progress, with when each began. -/
  resets : List (ResetKind × W64) := []
  /-- Work that records of the present command have called for; empty between commands. -/
  todo : List Todo := []
  dump : Dump := {}
  faultCnt : W32 := 0
  hangCnt : W32 := 0
  replayCnt : W32 := 0
  abortTx : W32 := 0
  abortRx : W32 := 0
  ctxResetCnt : W32 := 0
  purgeCnt : W64 := 0
deriving DecidableEq, Repr

/-! ## Chapter 17: boot and trust -/

inductive McState where
  | booting | ready | recovery | fatal | standby
deriving DecidableEq, Repr

/-- The staging buffer of R505. -/
structure Staging where
  isCfg : Bool
  total : Nat
  bytes : Tbl Byte := []
deriving DecidableEq, Repr

structure Mc where
  step : BitVec 4 := 0
  state : McState := .booting
  recoveryCause : BitVec 3 := 0
  readyTime : W64 := 0
  stepEnd : Tbl W64 := []
  stepStart : W64 := 0
  owner : Bool := false
  overlap : Bool := false
  mcbReady : Bool := false
  mcaReady : Bool := false
  retake : Bool := false
  handover : Bool := false
  handoverCnt : W32 := 0
  retakeCnt : W32 := 0
  journalTime : W64 := 0
  /-- What the journal holds that a handover loads: sessions with their caches, what is forwarded and kept for other
  heads, and the command number. -/
  journalSessions : Tbl Session := []
  journalForwards : List Forward := []
  journalRemote : Tbl RemoteSlot := []
  journalCmd : W32 := 0
  enterRecovery : Bool := false
  fwVersion : W64 := 0
  katFail : W32 := 0
  fwVerified : Bool := false
  cfgValid : Bool := false
  idKeyReady : Bool := false
  certMatch : Bool := false
  svn : BitVec 7 := 0
  raiseSvn : Bool := false
  quoteCnt : W32 := 0
  fwMeasure : BitVec 512 := 0
  cfgMeasure : BitVec 512 := 0
  idKey : List Byte := []
  idScalar : Nat := 0
  /-- The configuration record applied (256 bytes), for a management reset (R502). -/
  cfgRecord : List Byte := []
  cmdSeq : W32 := 0
  /-- The carrier flash; an unlisted byte reads 0xFF (R498). -/
  flash : Tbl Byte := []
  staging : Option Staging := Option.none
  /-- FW_COMMIT is programming: who asked, and the kind (R506). -/
  committing : Option (KcpSrc × W32 × Bool) := Option.none
  /-- Who the culture of step 7 has passed or retired: vats whose run has ended. -/
  katDone : W32 := 0
  mgmtReset : Bool := false
  /-- Vat, die and compute resets requested before READY are held (R517). -/
  heldResets : List ResetKind := []
deriving DecidableEq, Repr

/-! ## Chapter 18: service -/

/-- The JTAG instruction (R526). -/
inductive JtagIr where
  | bypass | idcode | samplePreload | extest
deriving DecidableEq, Repr

/-- One line or prompt that the monitor prints (R528). The spec fixes `ok`, `err:` and the prompts; a command's own
output is a list of named values, whose text layout the spec leaves open. -/
inductive MonLine where
  | field (name : String) (value : Nat)
  | text (t : String)
  | bytes (b : List Byte)
  | ok
  | err (reason : String)
  | prompt
deriving DecidableEq, Repr

structure Service where
  btnDown : Bool := false
  hold3 : Bool := false
  hold10 : Bool := false
  identTimer : Bool := false
  identCtl : Bool := false
  standby : Bool := false
  draining : Bool := false
  unlocked : Bool := false
  lockout : Bool := false
  cntIdentify : Byte := 0
  cntQuiesce : Byte := 0
  cntStandby : Byte := 0
  cntIgnored : Byte := 0
  lastPress : W64 := 0
  unlockCnt : W16 := 0
  failCnt : W16 := 0
  failTimes : List W64 := []
  baud : BitVec 22 := 115200
  /-- A record of severity UNIT has been written since the last FAULT_CLR. -/
  unitRecord : Bool := false
  challenge : Option (List Byte × W64) := Option.none
  out : List MonLine := []
  following : Bool := false
  ir : JtagIr := .idcode
  /-- The data register the TAP shifts, and whether EXTEST drives the pins. -/
  dr : W32 := 0
  extestDrives : Bool := false
deriving DecidableEq, Repr

/-! ## The whole module -/

structure State where
  board : Board := {}
  inv : Inventory := {}
  fuses : Fuses := {}
  fru : Fru := {}
  clk : Clock := {}
  vats : Tbl Vat := []
  /-- Planes by 2v + plane. -/
  planes : Tbl Plane := []
  /-- Tiles by 1024v + t. -/
  tiles : Tbl Tile := []
  loads : List Load := []
  /-- The model's own: the number of the next load (log 78). -/
  nextLoad : Nat := 0
  ctxs : Tbl Ctx := []
  creams : Tbl Cream := []
  hbm : Hbm := {}
  fab : Fabric := {}
  churn : Churn := {}
  rings : Rings := {}
  sepPeriod : BitVec 17 := 1000
  engines : Tbl Engine := []
  lnk : Links := {}
  las : Light := {}
  pwr : Power := {}
  thm : Thermal := {}
  eth : Ethernet := {}
  kcp : Kcp := {}
  err : Errors := {}
  mc : Mc := {}
  svc : Service := {}
  /-- The model's own: how many free values have been taken (log 8). No statement rests on it. -/
  free : Nat := 0
  /-- The commands that wait, first in, first out; the model's own, log 78. -/
  pending : List Instr := []
deriving DecidableEq, Repr

/-- The module before input power is applied: every register at its Reset column (R11), no command waiting. -/
def State.reset : State := {}

end Sys2Proof.Machine
end

