-- ==== Sys2Proof/Machine/Tbl.lean ====
section
/-! DEFINITION. Reading and writing the sparse tables that hold the module's memories and numbered units. -/

namespace Sys2Proof

/-- The value at key k; d is the table's default. -/
def Tbl.look {α : Type} (d : α) : Tbl α → Nat → α
  | [], _ => d
  | (j, x) :: t, k => if j = k then x else Tbl.look d t k

/-- Lists v at key k, in the order of the keys. -/
def Tbl.list {α : Type} : Tbl α → Nat → α → Tbl α
  | [], k, v => [(k, v)]
  | (j, x) :: t, k, v => if k < j then (k, v) :: (j, x) :: t else if k = j then (k, v) :: t else (j, x) :: Tbl.list t k v

/-- Lists v at key k; a value equal to the default d is left out instead, so equal tables are equal lists. -/
def Tbl.put {α : Type} [DecidableEq α] (d : α) (t : Tbl α) (k : Nat) (v : α) : Tbl α :=
  if v = d then t.filter (fun e => !(e.1 == k)) else Tbl.list t k v

/-- Rewrites the value at key k. -/
def Tbl.upd {α : Type} [DecidableEq α] (d : α) (t : Tbl α) (k : Nat) (f : α → α) : Tbl α :=
  Tbl.put d t k (f (Tbl.look d t k))

/-- Rewrites every listed value; an entry that becomes the default is removed. -/
def Tbl.mapVals {α : Type} [DecidableEq α] (d : α) (f : Nat → α → α) (t : Tbl α) : Tbl α :=
  t.foldr (fun e r => Tbl.put d r e.1 (f e.1 e.2)) []

/-- The canonical form: keys above `lo` rise strictly, and no entry equals the default. -/
def Tbl.wfFrom {α : Type} [DecidableEq α] (d : α) : Option Nat → Tbl α → Bool
  | _, [] => true
  | lo, (j, x) :: t =>
    (match lo with | none => true | some i => decide (i < j)) && decide (x ≠ d) && Tbl.wfFrom d (some j) t

def Tbl.wf {α : Type} [DecidableEq α] (d : α) (t : Tbl α) : Bool := Tbl.wfFrom d none t

end Sys2Proof
end

