-- ==== Sys2Proof/Machine/Ops.lean ====
section
/-! DEFINITION. The named reads and writes of the state: the numbered units, memory, free values, and the tests that
every chapter makes of the inventory. -/

namespace Sys2Proof.Machine

/-! ## Numbered units -/

def State.vat (s : State) (v : Nat) : Vat := Tbl.look {} s.vats v
def State.onVat (s : State) (v : Nat) (f : Vat → Vat) : State := { s with vats := Tbl.upd {} s.vats v f }

/-- Plane p = 2v + plane of vat v. -/
def State.plane (s : State) (p : Nat) : Plane := Tbl.look {} s.planes p
def State.onPlane (s : State) (p : Nat) (f : Plane → Plane) : State := { s with planes := Tbl.upd {} s.planes p f }

/-- Tile t of vat v. -/
def State.tile (s : State) (v t : Nat) : Tile := Tbl.look {} s.tiles (1024 * v + t)
def State.onTile (s : State) (v t : Nat) (f : Tile → Tile) : State :=
  { s with tiles := Tbl.upd {} s.tiles (1024 * v + t) f }

def State.ctx (s : State) (c : Nat) : Ctx := Tbl.look {} s.ctxs c
def State.onCtx (s : State) (c : Nat) (f : Ctx → Ctx) : State := { s with ctxs := Tbl.upd {} s.ctxs c f }

def State.cream (s : State) (c : Nat) : Cream := Tbl.look {} s.creams c
def State.onCream (s : State) (c : Nat) (f : Cream → Cream) : State := { s with creams := Tbl.upd {} s.creams c f }

def State.engine (s : State) (e : Nat) : Engine := Tbl.look {} s.engines e
def State.onEngine (s : State) (e : Nat) (f : Engine → Engine) : State := { s with engines := Tbl.upd {} s.engines e f }

def State.port (s : State) (p : Nat) : Port := Tbl.look {} s.churn.ports p
def State.onPort (s : State) (p : Nat) (f : Port → Port) : State :=
  { s with churn := { s.churn with ports := Tbl.upd {} s.churn.ports p f } }

def State.ring (s : State) (e : Nat) : Ring := Tbl.look {} s.rings.table e
def State.onRing (s : State) (e : Nat) (f : Ring → Ring) : State :=
  { s with rings := { s.rings with table := Tbl.upd {} s.rings.table e f } }

def State.stack (s : State) (k : Nat) : Stack := Tbl.look {} s.hbm.stackTbl k
def State.onStack (s : State) (k : Nat) (f : Stack → Stack) : State :=
  { s with hbm := { s.hbm with stackTbl := Tbl.upd {} s.hbm.stackTbl k f } }

def State.pseudo (s : State) (p : Nat) : Pseudo := Tbl.look {} s.hbm.pcs p
def State.onPseudo (s : State) (p : Nat) (f : Pseudo → Pseudo) : State :=
  { s with hbm := { s.hbm with pcs := Tbl.upd {} s.hbm.pcs p f } }

def State.link (s : State) (l : Nat) : Link := Tbl.look {} s.lnk.links l
def State.onLink (s : State) (l : Nat) (f : Link → Link) : State :=
  { s with lnk := { s.lnk with links := Tbl.upd {} s.lnk.links l f } }

def State.cage (s : State) (m : Nat) : Cage := Tbl.look {} s.las.cages m
def State.onCage (s : State) (m : Nat) (f : Cage → Cage) : State :=
  { s with las := { s.las with cages := Tbl.upd {} s.las.cages m f } }

def State.sector (s : State) (j : Nat) : Sector := Tbl.look {} s.las.sectors j
def State.onSector (s : State) (j : Nat) (f : Sector → Sector) : State :=
  { s with las := { s.las with sectors := Tbl.upd {} s.las.sectors j f } }

def State.qp (s : State) (q : Nat) : Qp := Tbl.look {} s.eth.qps q
def State.onQp (s : State) (q : Nat) (f : Qp → Qp) : State :=
  { s with eth := { s.eth with qps := Tbl.upd {} s.eth.qps q f } }

def State.session (s : State) (k : Nat) : Session := Tbl.look {} s.kcp.sessions k
def State.onSession (s : State) (k : Nat) (f : Session → Session) : State :=
  { s with kcp := { s.kcp with sessions := Tbl.upd {} s.kcp.sessions k f } }

def Plane.ladle (p : Plane) (k : Nat) : Ladle := Tbl.look {} p.ladles k
def Plane.onLadle (p : Plane) (k : Nat) (f : Ladle → Ladle) : Plane := { p with ladles := Tbl.upd {} p.ladles k f }

/-! ## Time and free values -/

/-- The time counter (R387). -/
def State.time (s : State) : Nat := s.clk.now.toNat

/-- The present count of free values, and the state in which it has advanced. -/
def State.takeFree (s : State) : Nat × State := (s.free, { s with free := s.free + 1 })

/-! ## Unit ids (R482) -/

def unitOf (kind index : Nat) : W16 := BitVec.ofNat 16 (4096 * kind + index)

def unitPackage : W16 := unitOf 0 0
def unitVat (v : Nat) : W16 := unitOf 1 v
def unitDie (d : Nat) : W16 := unitOf 2 d
def unitCream (c : Nat) : W16 := unitOf 3 c
def unitPort (p : Nat) : W16 := unitOf 4 p
def unitStack (k : Nat) : W16 := unitOf 5 k
def unitLink (l : Nat) : W16 := unitOf 6 l
def unitCage (m : Nat) : W16 := unitOf 7 m
def unitEngine (e : Nat) : W16 := unitOf 8 e
def unitField (f : Nat) : W16 := unitOf 9 f
def unitHost : W16 := unitOf 10 0
def unitMc (mcB : Bool) : W16 := unitOf 11 mcB.toNat
def unitRail (r : Nat) : W16 := unitOf 12 r
def unitThermal (r : Nat) : W16 := unitOf 13 r
def unitClock : W16 := unitOf 14 0
def unitContexts : W16 := unitOf 15 0

/-! ## Positions (R16, R17, R19) -/

/-- The compute port, which is also the cream die, of vat v. -/
def vatPort (v : Nat) : Nat := v / 2
def vatDie (v : Nat) : Nat := v / 4
def dieVats (d : Nat) : List Nat := [4 * d, 4 * d + 1, 4 * d + 2, 4 * d + 3]
def diePorts (d : Nat) : List Nat := [2 * d, 2 * d + 1]

/-- The Churn field (5 × row + column) beneath half p of a compute die (R17). -/
def halfField (p : Nat) : Nat := 5 * (1 + p / 2 / 2) + (1 + 2 * (p / 2 % 2) + p % 2)

/-- The Churn field of HBM stack k (R16). -/
def stackField (k : Nat) : Nat := (if k < 16 then 0 else 25) + 1 + k % 16 / 4

/-! ## Inventory (R23) -/

def State.vatIn (s : State) (v : Nat) : Bool := s.inv.vatMap.getLsbD v
def State.dieIn (s : State) (d : Nat) : Bool := s.inv.cdMap.getLsbD d
def State.creamIn (s : State) (c : Nat) : Bool := s.inv.creamMap.getLsbD c
def State.stackIn (s : State) (k : Nat) : Bool := s.inv.stackMap.getLsbD k
def State.isDark (s : State) (p : Nat) : Bool := s.fab.dark.getLsbD p

/-- A pair of ports that has lost every wavelength in one direction (R254). -/
def State.severedPair (s : State) (a b : Nat) : Bool := s.churn.severed.contains (a, b) || s.churn.severed.contains (b, a)

/-- Variant ceilings of R1: the clock in 25 MHz units, the package power in W. -/
def Variant.ceiling : Variant → Nat
  | .a => 80
  | .b => 72
  | .c => 60

def Variant.watts : Variant → Nat
  | .a => 14000
  | .b => 11500
  | .c => 9000

def Variant.code : Variant → Nat
  | .a => 0
  | .b => 1
  | .c => 2

/-! ## Contexts -/

/-- Contexts that hold a plane of vat v. -/
def State.residents (s : State) (v : Nat) : List Nat :=
  (List.range 64).filter fun c => (s.ctx c).resident && (s.ctx c).vat.toNat == v

/-- The plane number of a resident context. -/
def State.ctxPlane (s : State) (c : Nat) : Nat := 2 * (s.ctx c).vat.toNat + (s.ctx c).plane.toNat

/-- The plane now active in vat v. -/
def State.activePlane (s : State) (v : Nat) : Nat := 2 * v + (s.vat v).plane.toNat

/-- The context in the active plane of vat v. -/
def State.activeCtx (s : State) (v : Nat) : Option Nat := (s.plane (s.activePlane v)).ctx

def State.isActive (s : State) (c : Nat) : Bool := (s.ctx c).resident && s.activePlane (s.ctx c).vat.toNat == s.ctxPlane c

/-- A context runs while it is RUNNING or DRAINING (R191). -/
def CtxLife.runs : CtxLife → Bool
  | .running | .draining => true
  | _ => false

def CtxLife.code : CtxLife → Nat
  | .free => 0
  | .loaded => 1
  | .running => 2
  | .paused => 3
  | .draining => 4
  | .faulted => 5

/-! ## Memory (R6, R186): every byte by its local address -/

def Memory.wf (m : Tbl Byte) : Bool := Tbl.wf 0 m

def State.byteAt (s : State) (a : Nat) : Byte := Tbl.look 0 s.fab.mem a

def State.setByte (s : State) (a : Nat) (b : Byte) : State :=
  { s with fab := { s.fab with mem := Tbl.put 0 s.fab.mem a b } }

/-- The n bytes from an address on. -/
def State.bytesAt (s : State) (a n : Nat) : List Byte := (List.range n).map fun i => s.byteAt (a + i)

/-- Stores bytes from an address on. -/
def State.setBytes (s : State) (a : Nat) : List Byte → State
  | [] => s
  | b :: bs => (s.setByte a b).setBytes (a + 1) bs

/-- Stores the bytes of a list whose mask bit is set. -/
def State.setMasked (s : State) (a mask : Nat) : List Byte → State
  | [] => s
  | b :: bs => (if mask % 2 = 1 then s.setByte a b else s).setMasked (a + 1) (mask / 2) bs

/-- A 64-byte cell of memory. -/
def State.cellAt (s : State) (a : Nat) : BitVec 512 := BitVec.ofNat 512 (leNat (s.bytesAt a 64))

def State.setCell (s : State) (a : Nat) (c : BitVec 512) : State := s.setBytes a (leBytes 64 c.toNat)

/-- An n-byte little-endian word of memory. -/
def State.wordAt (s : State) (a n : Nat) : Nat := leNat (s.bytesAt a n)

/-- Every listed byte of a range, removed: the range reads 0. -/
def State.clearRange (s : State) (lo n : Nat) : State :=
  { s with fab := { s.fab with mem := s.fab.mem.filter (fun e => !(decide (lo ≤ e.1 ∧ e.1 < lo + n))),
                               bad := s.fab.bad.filter (fun e => !(decide (lo ≤ 8 * e.1 ∧ 8 * e.1 < lo + n))) } }

/-- Base addresses of the local map. -/
def creamBase (c : Nat) : Nat := 0x020000000000 + c * 0x80000000
def tileBase (v t : Nat) : Nat := 0x030000000000 + v * 0x20000000 + t * 0x80000

/-- What a local address names (R186). -/
def regionOf (a : Nat) : Where :=
  if a < 2 ^ 41 then .hbm
  else if 0x020000000000 ≤ a ∧ a < 0x020800000000 then .cream ((a - 0x020000000000) / 0x80000000) (a % 0x80000000)
  else if 0x030000000000 ≤ a ∧ a < 0x030400000000 then
    .tile ((a - 0x030000000000) / 0x20000000) (a / 0x80000 % 1024) (a % 0x80000)
  else if 0x3F0000000000 ≤ a ∧ a < 0x400000000000 then .register (a - 0x3F0000000000)
  else .unmapped

/-- The least size of a rounding that x needs, as a count of whole units of n. -/
def ceilDiv (x n : Nat) : Nat := (x + n - 1) / n

/-- Cells that n bytes from address a touch. -/
def cellSpan (a n : Nat) : Nat := if n = 0 then 0 else (a + n - 1) / 64 - a / 64 + 1

end Sys2Proof.Machine
end

