-- ==== Sys2Proof/Machine/Cells.lean ====
section
/-! DEFINITION. Tiryn cells (R197 to R203), the routing table's weights (R338 to R340) and the sending of a cell. -/

namespace Sys2Proof

open Machine

/-! ## Header and payload -/

def Cell.at (c : Cell) (lo n : Nat) : Nat := bitsAt c.hdr.toNat lo n
def Cell.dpkg (c : Cell) : Nat := Cell.at c 58 6
def Cell.dport (c : Cell) : Nat := Cell.at c 52 6
def Cell.spkg (c : Cell) : Nat := Cell.at c 46 6
def Cell.sport (c : Cell) : Nat := Cell.at c 40 6
def Cell.opc (c : Cell) : Nat := Cell.at c 35 5
def Cell.cls (c : Cell) : Nat := Cell.at c 33 2
def Cell.cellCtx (c : Cell) : Nat := Cell.at c 27 6
def Cell.tag (c : Cell) : Nat := Cell.at c 11 16
def Cell.frag (c : Cell) : Nat := Cell.at c 0 11

/-- Payload bytes off to off + n - 1 as a number. -/
def Cell.pay (c : Cell) (off n : Nat) : Nat := bitsAt c.payload.toNat (8 * off) (8 * n)

/-- The cell with another DPORT (R198). -/
def Cell.withDport (c : Cell) (p : Nat) : Cell := { c with hdr := BitVec.ofNat 64 (withBits c.hdr.toNat 52 6 p) }

/-- The cell with another tag. -/
def Cell.withTag (c : Cell) (t : Nat) : Cell := { c with hdr := BitVec.ofNat 64 (withBits c.hdr.toNat 11 16 t) }

end Sys2Proof

namespace Sys2Proof.Machine

/-- Opcodes of R200. -/
def opIDLE : Nat := 0x00
def opLD : Nat := 0x01
def opST : Nat := 0x02
def opSTD : Nat := 0x03
def opATOM : Nat := 0x04
def opMSG : Nat := 0x05
def opMSGD : Nat := 0x06
def opDATA : Nat := 0x08
def opACK : Nat := 0x09
def opSOUR : Nat := 0x0A
def opNACKBUSY : Nat := 0x0B
def opNACKREFUSED : Nat := 0x0C
def opABORT : Nat := 0x10

/-- Whether R200 lists an opcode. -/
def opListed (o : Nat) : Bool := o ≤ 6 || (8 ≤ o && o ≤ 12) || o == 16

/-- A response answers a request; C0 notices and requests do not. -/
def opIsResponse (o : Nat) : Bool := 8 ≤ o && o ≤ 12

/-- A request cell, head or data. -/
def opIsRequest (o : Nat) : Bool := 1 ≤ o && o ≤ 6

/-- A header of R197 from its fields, DPKG first. -/
def mkHdr (dpkg dport spkg sport op cls ctx tag frag : Nat) : W64 :=
  BitVec.ofNat 64 (packBits [(58, 6, dpkg), (52, 6, dport), (46, 6, spkg), (40, 6, sport), (35, 5, op), (33, 2, cls),
    (27, 6, ctx), (11, 16, tag), (0, 11, frag)])

/-- The codes of R226 as they stand in LAST_CAUSE, and in FRAG[7:4] of the model's SOUR cells (log 12). -/
def SourCause.code : SourCause → Nat
  | .unmapped => 1
  | .segment => 2
  | .dark => 3
  | .timeout => 4
  | .unreachable => 5
  | .target => 6
  | .window => 10

def causeOfCode : Nat → SourCause
  | 1 => .unmapped
  | 2 => .segment
  | 3 => .dark
  | 4 => .timeout
  | 5 => .unreachable
  | 10 => .window
  | _ => .target

/-- The record code of a SOUR cause (R226). -/
def SourCause.record (c : SourCause) : W16 := BitVec.ofNat 16 (0x0A00 + c.code)

/-- The sour pattern of R221. -/
def sourWord : W64 := 0x7FF85A5A7FF85A5A
def sourCell : BitVec 512 := BitVec.ofNat 512 ((List.range 8).foldl (fun a i => a + sourWord.toNat * 2 ^ (64 * i)) 0)

/-- A response of opcode op to a request cell: its index, its reason or cause, its DELAY and its payload (R199). -/
def respond (req : Cell) (op index reason delay : Nat) (payload : BitVec 512) : Cell :=
  { hdr := mkHdr req.spkg req.sport req.dpkg req.dport op req.cls req.cellCtx req.tag
      (packBits [(0, 2, index), (4, 4, reason), (8, 3, delay)]),
    payload := payload }

def sourAnswer (req : Cell) (index : Nat) (cause : SourCause) : Cell := respond req opSOUR index cause.code 0 sourCell

/-- Whether a request cell heads its request. -/
def opIsHead (o : Nat) : Bool := o == opLD || o == opST || o == opATOM || o == opMSG

/-- The SOUR answers of a whole request: one per cell of a load, one otherwise (R200). -/
def sourAnswers (req : Cell) (cause : SourCause) : List Cell :=
  (List.range (if req.opc = opLD then clampNat 1 4 (req.pay 8 1) else 1)).map fun i => sourAnswer req i cause

/-! ## Routes -/

/-- Width that package `via` last reported for its widest direct link to package d (R341). -/
def State.reported (s : State) (via d : Nat) : Nat :=
  bitsAt ((Tbl.look [] s.lnk.notices via).getD (d / 2) 0).toNat (4 * (d % 2)) 4

def State.route (s : State) (d j : Nat) : Nat := (Tbl.look 0 s.lnk.routes (16 * d + j)).toNat

def routeLink (w : Nat) : Nat := bitsAt w 0 6
def routeVia (w : Nat) : Nat := bitsAt w 6 6
def routeTier (w : Nat) : Nat := bitsAt w 12 1
def routeWeight (w : Nat) : Nat := bitsAt w 16 4

/-- The effective weight of entry (d, j) (R338, R339). -/
def State.routeEff (s : State) (d j : Nat) : Nat :=
  let w := s.route d j
  let l := s.link (routeLink w)
  if d = s.fab.pkgId.toNat then 0
  else if l.mode = .up ∧ l.peerPkg.toNat = routeVia w then
    if routeVia w = d then routeWeight w * l.width.toNat
    else routeWeight w * min l.width.toNat (s.reported (routeVia w) d)
  else 0

/-- The entries of d's active tier (R340). -/
def State.activeEntries (s : State) (d : Nat) : List Nat :=
  let live := (List.range 16).filter fun j => 0 < s.routeEff d j
  let t0 := live.filter fun j => routeTier (s.route d j) == 0
  if t0.isEmpty then live else t0

/-- The tier-0 direct entries that may carry transit cells to d (R342). -/
def State.transitEntries (s : State) (d : Nat) : List Nat :=
  (List.range 16).filter fun j =>
    0 < s.routeEff d j && routeTier (s.route d j) == 0 && routeVia (s.route d j) == d

/-- LNK_REACH: destinations with an active tier, and the module itself. -/
def State.reach (s : State) (d : Nat) : Bool := d == s.fab.pkgId.toNat || !(s.activeEntries d).isEmpty

/-- One turn of the deficit round robin of R340 over some entries of d: every entry earns its EFF, and the entry with
the greatest deficit, lowest number first, pays for the cell. -/
def State.spray (s : State) (d : Nat) (js : List Nat) : Option Nat × State :=
  let total : Nat := (js.map (s.routeEff d)).foldl (· + ·) 0
  let cr := js.foldl (fun t j => Tbl.upd 0 t (16 * d + j) (· + (s.routeEff d j : Int))) s.lnk.credit
  let best := js.foldl (fun (b : Option Nat) j => match b with
    | none => some j
    | some i => if Tbl.look 0 cr (16 * d + i) < Tbl.look 0 cr (16 * d + j) then some j else some i) none
  match best with
  | none => (none, s)
  | some j => (some j, { s with lnk := { s.lnk with credit := Tbl.upd 0 cr (16 * d + j) (· - (total : Int)) } })

/-! ## Sending -/

/-- Whether flow control stops a cell at a hop: port p of the Churn, or 64 + L for link L (R215). -/
def State.stoppedAt (s : State) (hop : Nat) (c : Cell) : Bool :=
  c.cls != 0 && s.fab.stopped.contains (hop, c.cls, opIsResponse c.opc)

def idleCell : Cell := { hdr := 0, payload := 0 }

/-- Puts a cell into the next group of a link, or into its queue while the class is stopped or the replay buffer is
full (R329, R330). -/
def State.sendLink (s : State) (l : Nat) (c : Cell) : State :=
  s.onLink l fun k =>
    if k.mode = .up ∧ k.replay.length < 1024 ∧ !(s.stoppedAt (64 + l) c) then
      { k with txSeq := k.txSeq + 1, replay := k.replay ++ [(k.txSeq, c :: List.replicate 7 idleCell)] }
    else { k with queue := k.queue ++ [c] }

def State.fly (s : State) (c : Cell) : State := { s with fab := { s.fab with flight := s.fab.flight ++ [c] } }

/-- Sends a cell: over the Churn within the package, over the active tier to another package. A remote request of a
context under R471 is held, and so is a cell whose class is stopped. Without a path a request is answered SOUR
UNREACHABLE by the hub (R222, R340); a response or notice is lost. -/
def State.launch (s : State) (c : Cell) : State :=
  let own := s.fab.pkgId.toNat
  if c.dpkg = own then
    if s.stoppedAt c.dport c then { s with fab := { s.fab with held := s.fab.held ++ [c] } } else s.fly c
  else if opIsRequest c.opc && c.cls != 0 && c.spkg == own && (s.ctx c.cellCtx).remoteHold then
    { s with fab := { s.fab with held := s.fab.held ++ [c] } }
  else
    match s.spray c.dpkg (s.activeEntries c.dpkg) with
    | (some j, s1) => s1.sendLink (routeLink (s.route c.dpkg j)) c
    | (none, s1) => if opIsHead c.opc then (sourAnswers c .unreachable).foldl State.fly s1 else s1

def State.launchAll (s : State) (cs : List Cell) : State := cs.foldl State.launch s

/-- Sends every held cell again; those that are still stopped go back. -/
def State.relaunch (s : State) : State :=
  State.launchAll { s with fab := { s.fab with held := [] } } s.fab.held

/-- Sends again what waits at a link whose buffer or class has come free. -/
def State.drainLink (s : State) (l : Nat) : State :=
  (s.link l).queue.foldl (fun a c => a.sendLink l c) (s.onLink l fun k => { k with queue := [] })

/-! ## Tags (R203, R225) -/

/-- The first tag from t on that neither an outstanding operation nor a withheld one of the port uses. -/
def tagFrom (s : State) (port : Nat) : Nat → W16 → W16
  | 0, t => t
  | fuel + 1, t =>
    if s.fab.ops.any (fun o => o.port == port && o.tag == t) ||
        s.fab.withheld.any (fun w => w.1 == port && w.2.1 == t && decide (s.clk.now < w.2.2))
    then tagFrom s port fuel (t + 1) else t

def State.takeTag (s : State) (port : Nat) : W16 × State :=
  let t := tagFrom s port 65536 (Tbl.look 0 s.fab.nextTag port)
  (t, { s with fab := { s.fab with nextTag := Tbl.put 0 s.fab.nextTag port (t + 1) } })

/-- The bound that applies to a target package (R223). -/
def State.boundNs (s : State) (dpkg : Nat) : Nat := if dpkg = s.fab.pkgId.toNat then 25000 else 1000 * s.fab.podBound.toNat

/-- Withholds a tag of a port for four times the bound that applies to its target (R208, R225). -/
def State.withhold (s : State) (port : Nat) (tag : W16) (dpkg : Nat) : State :=
  { s with fab := { s.fab with withheld := s.fab.withheld.filter (fun w => decide (s.clk.now < w.2.2)) ++
    [(port, tag, s.clk.now + BitVec.ofNat 64 (4 * s.boundNs dpkg))] } }

def Op.dpkg (o : Op) : Nat := (o.cells.head?.map Cell.dpkg).getD 0

/-- The cells of a message of class C0 from port 52 to a mailbox (R201, R348). -/
def msgCells (own dpkg dport tag mailbox : Nat) (m : List Byte) : List Cell :=
  let h (op frag : Nat) := mkHdr dpkg dport own 52 op 0 0 tag frag
  { hdr := h opMSG 0, payload := BitVec.ofNat 512 (mailbox + m.length * 2 ^ 32) } ::
    (chunks 64 ((m.length + 63) / 64) m).zipIdx.map fun (b, i) =>
      { hdr := h opMSGD (i + 1), payload := BitVec.ofNat 512 (leNat b) }

/-- Sends a message from the management controller's port, as an operation that its answer completes. -/
def State.sendMsg (s : State) (issuer : Issuer) (dpkg dport mailbox : Nat) (m : List Byte) : State :=
  let (t, s1) := s.takeTag 52
  let cells := msgCells s.fab.pkgId.toNat dpkg dport t.toNat mailbox m
  let op : Op := { port := 52, tag := t, ctx := 0, issuer := issuer, addr := 0, cells := cells, issuedAt := s.clk.now,
                   heard := s.clk.now }
  { s1 with fab := { s1.fab with ops := s1.fab.ops ++ [op] } }.launchAll cells

end Sys2Proof.Machine
end

