-- ==== Sys2Proof/Machine/Records.lean ====
section
/-! DEFINITION. Sealed messages, notifications and error records (R438, R441, R446, R480 to R484). -/

namespace Sys2Proof.Machine

/-! ## What leaves by the host port -/

/-- Sends by the host port, which carries nothing while it is not UP (R424). -/
def State.hostSend (s : State) (x : HostTx) : State :=
  if s.eth.mode = .up then { s with eth := { s.eth with tx := s.eth.tx ++ [x] } } else s

/-- The header of R436. -/
def recordHeader (type : Nat) (session : W32) (seq : Nat) : List Byte :=
  [BitVec.ofNat 8 type, 1, 0, 0] ++ beBytes 4 session.toNat ++ beBytes 8 seq

/-- The nonce of R438: the IV XOR the sequence number. -/
def gcmNonce (iv : BitVec 96) (seq : Nat) : List Byte := beBytes 12 (iv ^^^ BitVec.ofNat 96 seq).toNat

/-- A message of R441. -/
def kcpMessage (op : W16) (flags target : Nat) (req : W32) (status : W16) (payload : List Byte) : List Byte :=
  beBytes 2 op.toNat ++ [BitVec.ofNat 8 flags, BitVec.ofNat 8 target] ++ beBytes 4 req.toNat ++
    beBytes 2 status.toNat ++ [0, 0] ++ beBytes 4 payload.length ++ payload

/-- Seals a message into session slot k's next DATA record and sends it. A session whose SEQ would reach 2^48 is
closed instead (R439). -/
def State.sealTo (s : State) (k : Nat) (m : List Byte) : State :=
  let n := s.session k
  if !n.isOpen then s
  else if 2 ^ 48 ≤ n.txSeq.toNat then s.onSession k fun n => { n with isOpen := false }
  else
    let h := recordHeader 4 n.id n.txSeq.toNat
    let r := h ++ gcmSeal (beBytes 32 n.keyD2h.toNat) (gcmNonce n.ivD2h n.txSeq.toNat) h m
    (s.onSession k fun n => { n with txSeq := n.txSeq + 1 }).hostSend (.kcp r)

/-- The forwarding head of R448. -/
def forwardHead (pkg slot : Nat) : List Byte := [BitVec.ofNat 8 pkg, BitVec.ofNat 8 slot, 0, 0, 0, 0, 0, 0]

/-! ## Notifications -/

def State.notifyMessage (s : State) (n : Notification) : List Byte :=
  kcpMessage n.opcode 2 s.fab.pkgId.toNat n.seq 0 n.payload

/-- Sends a notification to every session subscribed to its kind, here and at heads that subscribed (R446, R450). -/
def State.sendNotification (s : State) (n : Notification) : State :=
  let kind := n.opcode.toNat - 0x80
  let m := s.notifyMessage n
  let s1 := (List.range 8).foldl (fun a k => if (a.session k).subs.getLsbD kind then a.sealTo k m else a) s
  s1.kcp.remote.foldl (fun a (key, r) =>
    if r.subs.getLsbD kind then a.sendMsg .controller (key / 8) 63 0x700 (forwardHead (key / 8) (key % 8) ++ m) else a) s1

/-- Adds a notification to the pending ones; at 256 the oldest goes. The Bool says that one was dropped. -/
def State.addNotification (s : State) (opcode : W16) (payload : List Byte) : Bool × State :=
  let n : Notification := { seq := s.kcp.notifySeq, opcode := opcode, payload := payload }
  let full := 256 ≤ s.kcp.pending.length
  let kept := if full then s.kcp.pending.drop 1 else s.kcp.pending
  let s1 := { s with kcp := { s.kcp with notifySeq := bump s.kcp.notifySeq, pending := kept ++ [n],
                                         notifyDrop := if full then bump s.kcp.notifyDrop else s.kcp.notifyDrop } }
  (full, s1.sendNotification n)

/-! ## Error records -/

def Severity.code : Severity → Nat
  | .info => 0
  | .corrected => 1
  | .context => 2
  | .unit => 3
  | .package => 4
  | .fatal => 5

def Action.code : Action → Nat
  | .none => 0
  | .faultStop => 1
  | .contextReset => 2
  | .vatReset => 3
  | .dieReset => 4
  | .computeReset => 5
  | .halt => 6

/-- The 64 bytes of a record (R480). -/
def ErrRec.bytes (r : ErrRec) : List Byte :=
  leBytes 8 r.seq.toNat ++ leBytes 8 r.time.toNat ++ leBytes 2 r.code.toNat ++ leBytes 1 r.severity.code ++
  leBytes 1 (packBits [(0, 1, r.nested.toNat), (1, 1, r.ctxValid.toNat), (2, 3, r.action.code), (5, 1, r.remote.toNat)]) ++
  leBytes 2 r.unit.toNat ++ leBytes 1 r.ctx.toNat ++ leBytes 1 r.pkg.toNat ++ leBytes 8 r.parent.toNat ++
  (List.range 4).flatMap fun i => leBytes 8 (r.details.getD i 0).toNat

/-- Puts a record into the ring under the next sequence number (R483). -/
def State.pushRecord (s : State) (r : ErrRec) : State :=
  let n := s.err.seqNext.toNat
  let full := 4096 ≤ n
  { s with err := { s.err with
      ring := Tbl.put {} s.err.ring (n % 4096) { r with seq := s.err.seqNext, time := s.clk.now, pkg := s.fab.pkgId },
      seqNext := bump s.err.seqNext,
      overflow := s.err.overflow || full,
      overflowCnt := if full then bump s.err.overflowCnt else s.err.overflowCnt,
      nestedCnt := if r.nested then bump s.err.nestedCnt else s.err.nestedCnt } }

/-- An INFO or CORRECTED record outside any handling, which does nothing but enter the ring. -/
def State.note (s : State) (code : W16) (sev : Severity) (unit : W16) (details : List W64 := [])
    (ctx : Option Nat := Option.none) : State :=
  s.pushRecord { code := code, severity := sev, unit := unit, details := details,
                 ctxValid := ctx.isSome, ctx := BitVec.ofNat 6 (ctx.getD 0) }

/-- Raises a notification; a dropped one leaves an INFO record KCP_NOTIFY_DROP (R446). -/
def State.notify (s : State) (opcode : W16) (payload : List Byte) : State :=
  match s.addNotification opcode payload with
  | (true, s1) => s1.note 0x0702 .info (unitMc s.mc.owner)
  | (false, s1) => s1

/-- A SERVICE notification (R447). -/
def State.notifyService (s : State) (reason : Nat) : State :=
  s.notify 0x0083 (beBytes 1 reason ++ List.replicate 7 0 ++ beBytes 8 s.time)

/-- Whether unit u or context c lies within the scope of a handling (R484). -/
def State.inScope (s : State) (sc : Scope) (u : W16) (c : Option Nat) : Bool :=
  let kind := u.toNat / 4096
  let ix := u.toNat % 4096
  let vatOf (c : Nat) : Option Nat := if (s.ctx c).resident then some (s.ctx c).vat.toNat else Option.none
  match sc with
  | .ctx d => c == some d
  | .ctxReset d => c == some d || (kind == 1 && some ix == vatOf d)
  | .vat v => (kind == 1 && ix == v) || c.any (fun d => vatOf d == some v)
  | .die n => (kind == 2 && ix == n) || (kind == 3 && ix / 2 == n) || (kind == 1 && ix / 4 == n) ||
      c.any (fun d => (vatOf d).any (fun v => v / 4 == n))
  | .compute => kind == 1 || kind == 2 || kind == 3 || c.isSome

/-- Whether one scope lies within another. -/
def State.scopeWithin (s : State) (outer inner : Scope) : Bool :=
  match inner with
  | .ctx c => s.inScope outer 0 (some c)
  | .ctxReset c => s.inScope outer 0 (some c)
  | .vat v => s.inScope outer (unitVat v) Option.none
  | .die d => s.inScope outer (unitDie d) Option.none
  | .compute => outer == .compute

/-- The next larger action (R484); `none` is the halt. -/
def State.escalated (s : State) : Scope → Option Scope
  | .ctx c => some (.ctxReset c)
  | .ctxReset c => some (.vat (s.ctx c).vat.toNat)
  | .vat _ => some .compute
  | .die _ => some .compute
  | .compute => Option.none

def Scope.action : Scope → Action
  | .ctx _ => .faultStop
  | .ctxReset _ => .contextReset
  | .vat _ => .vatReset
  | .die _ => .dieReset
  | .compute => .computeReset

def Scope.todo : Scope → Todo
  | .ctx c => .faultStop c
  | .ctxReset c => .ctxReset c
  | .vat v => .vat v false
  | .die d => .die d
  | .compute => .compute

/-- Queues the work that a record calls for, and starts its handling. -/
def State.begin (s : State) (sc : Scope) (t : Todo) (seq : W64) : State :=
  { s with err := { s.err with handlings := { scope := sc, seq := seq } :: s.err.handlings, todo := s.err.todo ++ [t] } }

/-- The FAULT notification of a record of severity CONTEXT or above (R447, R481), and what a record leaves in its
context and in LED_FAULT. -/
def State.announce (s : State) (r : ErrRec) : State :=
  if r.severity.code < 2 then s
  else
    let s1 := if r.ctxValid then s.onCtx r.ctx.toNat fun c => { c with lastSeq := s.err.seqNext, lastCode := r.code } else s
    let s2 := if 3 ≤ r.severity.code then { s1 with svc := { s1.svc with unitRecord := true } } else s1
    let r' := { r with seq := s.err.seqNext, time := s.clk.now, pkg := s.fab.pkgId }
    (s2.pushRecord r).notify 0x0081 r'.bytes

/-- Writes a record. `start` is the handling it calls for. `designed` marks a designed outcome of a handling, which is
nested and escalates nothing. Any other record of severity CONTEXT or above that falls within a handling in progress
is nested and escalates (R484). A PACKAGE record, and an escalation past a compute reset, halt (R481, R485). -/
def State.record (s : State) (code : W16) (sev : Severity) (unit : W16) (ctx : Option Nat := Option.none)
    (details : List W64 := []) (start : Option Scope := Option.none) (designed : Bool := false)
    (remote : Bool := false) (todo : Option Todo := Option.none) : State :=
  let seq := s.err.seqNext
  let hit := if 2 ≤ sev.code || designed then
      s.err.handlings.find? fun h => s.inScope h.scope unit ctx || start.any (s.scopeWithin h.scope)
    else Option.none
  let base : ErrRec := { code := code, severity := sev, unit := unit, ctxValid := ctx.isSome,
                         ctx := BitVec.ofNat 6 (ctx.getD 0), details := details, remote := remote }
  let put (r : ErrRec) (s : State) : State := if 2 ≤ sev.code then s.announce r else s.pushRecord r
  match hit with
  | some h =>
    if designed then
      let s1 := put { base with nested := true, parent := h.seq,
                                action := (start.map Scope.action).getD .none } s
      match start with
      | some sc => s1.begin sc (todo.getD sc.todo) seq
      | Option.none => s1
    else
      match s.escalated h.scope with
      | some sc => (put { base with nested := true, parent := h.seq, action := sc.action } s).begin sc sc.todo seq
      | Option.none =>
        let s1 := put { base with nested := true, parent := h.seq, action := .halt } s
        { s1 with err := { s1.err with todo := s1.err.todo ++ [.halt 1 seq] } }
  | Option.none =>
    match sev with
    | .package =>
      let s1 := put { base with action := .halt } s
      { s1 with err := { s1.err with todo := s1.err.todo ++ [.halt 2 seq] } }
    | _ =>
      match start with
      | some sc => (put { base with action := sc.action } s).begin sc (todo.getD sc.todo) seq
      | Option.none => put base s

/-- Answers a KCP request: the reply is kept for duplicates, and sealed into its session or sent to its head (R442,
R448). -/
def State.reply (s : State) (src : KcpSrc) (req : W32) (opcode : W16) (status : Nat) (payload : List Byte)
    (more : Bool := false) : State :=
  let flags := 1 + 4 * more.toNat
  let m := kcpMessage opcode flags s.fab.pkgId.toNat req (BitVec.ofNat 16 status) payload
  let r : KcpReply := { opcode := opcode, flags := BitVec.ofNat 8 flags, req := req, status := BitVec.ofNat 16 status,
                        payload := payload, target := s.fab.pkgId.zeroExtend 8 }
  match src with
  | .session k =>
    (s.onSession k.val fun n =>
      { n with running := n.running.filter (· ≠ req), replies := (r :: n.replies).take 64 }).sealTo k.val m
  | .forwarded p k =>
    let s1 := { s with kcp := { s.kcp with remote := Tbl.upd {} s.kcp.remote (8 * p.val + k.val) fun n =>
      { n with running := n.running.filter (· ≠ req), replies := (r :: n.replies).take 64 } } }
    s1.sendMsg .controller p.val 63 0x700 (forwardHead p.val k.val ++ m)

/-- The statuses of R443. -/
def stOK : Nat := 0
def stBadMessage : Nat := 1
def stUnknownOp : Nat := 2
def stBusy : Nat := 3
def stState : Nat := 4
def stRefused : Nat := 5
def stRange : Nat := 6
def stUnreachable : Nat := 7
def stTimeout : Nat := 8
def stResults : Nat := 9

/-- Ends the handlings of a scope and of every scope within it. -/
def State.endHandling (s : State) (sc : Scope) : State :=
  { s with err := { s.err with handlings := s.err.handlings.filter fun h => !(h.scope == sc || s.scopeWithin sc h.scope) } }

/-- A context faults (R462): nothing for one that is FREE or already FAULTED; otherwise it becomes FAULTED and
STOPPING, the record is written, and the fault stop of R463 is called for. -/
def State.ctxFault (s : State) (c : Nat) (code : W16) (unit : W16) (details : List W64 := [])
    (sev : Severity := .context) (designed : Bool := false) (remote : Bool := false)
    (start : Option Scope := Option.none) : State :=
  match (s.ctx c).state with
  | .free => s
  | .faulted =>
    -- a record within a handling of the context escalates it; a quiet context faults no further
    if (s.ctx c).stopping && !designed then
      s.record code sev unit (some c) details Option.none designed remote
    else s
  | _ =>
    let s1 := s.onCtx c fun x => { x with state := .faulted, stopping := true, drained := false, ending := false }
    let s2 := { s1 with err := { s1.err with faultCnt := bump s1.err.faultCnt } }
    s2.record code sev unit (some c) details (some (start.getD (.ctx c))) designed remote

end Sys2Proof.Machine
end

