-- ==== Sys2Proof/Machine/VatOps.lean ====
section
/-! DEFINITION. What the resets and the context commands do inside a vat, a load, a Churn port, a Separator engine and
a queue pair: squashes, swaps, stops, releases and aborts. -/

namespace Sys2Proof.Machine

/-! ## Ladles -/

/-- Squashes a ladle's untaken load iterations: it resumes from its take point (R66, R78). -/
def Ladle.squash (l : Ladle) : Ladle :=
  match l.iters.find? (fun i => !i.store && l.taken ≤ i.n) with
  | none => l
  | some i =>
    { l with next := some i.desc, nextJ := i.j, issued := i.n,
             iters := l.iters.filter (fun x => x.store || x.n < l.taken),
             branch := match l.branch with
               | some (d, last) => if i.n ≤ last then none else some (d, last)
               | none => none }

/-- Untaken load iterations of a ladle, and those of them that met a deferred fault. -/
def Ladle.untaken (l : Ladle) : List LadleIter := l.iters.filter fun i => !i.store && l.taken ≤ i.n

def Status.failed : Status → Bool
  | .ok _ => false
  | _ => true

/-- Voids the operations of ladle k of plane p whose iteration ids satisfy f; their responses are discarded (R78). -/
def State.voidOps (s : State) (p k : Nat) (f : Nat → Bool) : State :=
  { s with fab := { s.fab with ops := s.fab.ops.map fun o => match o.issuer with
    | .ladleLoad v b j i _ => if 2 * v + b.toNat == p && j == k && f i then { o with voided := true } else o
    | _ => o } }

/-- Squashes ladle k of plane p, and counts the event and the deferred faults that it drops (R83). -/
def State.squashLadle (s : State) (p k : Nat) : State :=
  let l := (s.plane p).ladle k
  let lost := l.untaken
  if lost.isEmpty then s
  else
    let s1 := (s.voidOps p k fun i => lost.any fun x => x.id == i).onPlane p fun q => q.onLadle k Ladle.squash
    s1.onVat (p / 2) fun v => { v with ldl := Tbl.upd {} v.ldl k fun n =>
      { n with squash := bump n.squash, deferDrop := bump n.deferDrop (lost.filter fun i => i.worst.failed).length } }

def State.squashPlane (s : State) (p : Nat) : State := (List.range 8).foldl (fun a k => a.squashLadle p k) s

/-! ## Tiles -/

/-- Tiles of vat v that run or have been sent a start. -/
def State.busyTiles (s : State) (v : Nat) : List Nat :=
  (List.range 1024).filter fun t => (s.tile v t).busy || (s.tile v t).startAt.isSome

/-- Current that running tiles of a vat draw, in mA (R407). -/
def State.modelled (s : State) (v : Nat) : Nat :=
  (s.busyTiles v).foldl (fun a t => a + (s.tile v t).peakMa) 0

/-- Stops every running tile of vat v; a ballast equal to its current takes its place (R410). -/
def State.stopTiles (s : State) (v : Nat) : State :=
  let amps := s.modelled v
  let s1 := (s.busyTiles v).foldl (fun a t => a.onTile v t fun x =>
    { x with busy := false, startAt := none, issuedAll := false, vec := [], mac := [], drains := [], links := [], queues := [],
             itersLeft := 0, peakMa := 0 }) s
  s1.onVat v fun x => { x with ballast := x.ballast + amps }

/-! ## Planes and swaps -/

/-- Launched and not paused, and not held back by a replay of the other context (R64, R475). -/
def State.eligible (s : State) (c : Nat) : Bool :=
  (s.ctx c).state.runs &&
    (match (s.vat (s.ctx c).vat.toNat).replaying with
     | none => (s.vat (s.ctx c).vat.toNat).suspects.isEmpty
     | some r => r == c)

def State.shadowPlane (s : State) (v : Nat) : Nat := 2 * v + (!(s.vat v).plane).toNat
def State.shadowCtx (s : State) (v : Nat) : Option Nat := (s.plane (s.shadowPlane v)).ctx

/-- VAT_STATE.RUN between IDLE and RUN follows the contexts; every other state stays (R85). -/
def State.refreshRun (s : State) (v : Nat) : State :=
  s.onVat v fun x => { x with run := match x.run with
    | .idle => if (s.residents v).any fun c => (s.ctx c).state.runs then .run else .idle
    | .run => if (s.residents v).any fun c => (s.ctx c).state.runs then .run else .idle
    | r => r }

/-- The start of a swap (R66): the outgoing plane's untaken load iterations are squashed, the planes exchange, and the
tiles' registers, accumulators and link words become undefined (R67). SWAP_COMPLETE ends it. -/
def State.swapStart (s : State) (v : Nat) : State :=
  let s1 := (s.squashPlane (s.activePlane v)).stopTiles v
  let wipe (t : Tile) : Tile := { t with regs := [], acc := [], tags := [], links := [], queues := [] }
  let s2 : State := { s1 with tiles := Tbl.mapVals {} (fun k t => if k / 1024 = v then wipe t else t) s1.tiles }
  s2.onVat v fun x => { x with run := .swap, plane := !x.plane, arm := false, sliceCount := 0, epoch := x.epoch + 1 }

/-- A swap where the shadow context is eligible. -/
def State.swapIfEligible (s : State) (v : Nat) : State :=
  match s.shadowCtx v with
  | some c => if s.eligible c && (s.vat v).run != .swap then s.swapStart v else s
  | none => s

/-- The swap of R64 when a context ends, faults or is paused: at once, if it was active. -/
def State.swapAway (s : State) (c : Nat) : State :=
  if s.isActive c then s.swapIfEligible (s.ctx c).vat.toNat else s

/-- Empties the plane of context c: it holds no culture and the context is resident nowhere. -/
def State.emptyPlane (s : State) (c : Nat) : State :=
  if (s.ctx c).resident then
    let v := (s.ctx c).vat.toNat
    let s1 := (s.onPlane (s.ctxPlane c) fun _ => {}).onCtx c fun x =>
      { x with resident := false, digest := 0, shift := 0, galsBit := false, commitTime := 0, plans := [], matrices := [] }
    if s.isActive c then s1 else s1.onVat v fun x => { x with arm := false }
  else s

/-! ## Flex ownership (R243, R256) -/

/-- A request is refused: it completes REFUSED_CAPACITY (R242). -/
def State.flexRefuse (s : State) (r : FlexReq) : State :=
  let out : FlexOutcome := { outcome := 3, bucket := 0, ctx := BitVec.ofNat 6 r.ctx, trigger := r.plan.trigger,
                             fitted := r.fitted, frame := BitVec.ofNat 32 (s.time / 10240) }
  let s1 := { s with churn := { s.churn with refuseCnt := bump s.churn.refuseCnt,
                                             outcomes := Tbl.put {} s.churn.outcomes r.port out } }
  s1.note 0x0C01 .info (unitPort r.port) [BitVec.ofNat 64 r.ctx, r.plan.trigger.zeroExtend 64] (some r.ctx)

/-- Refuses the pending requests that satisfy f, those still on their way included. -/
def State.flexRefuseAll (s : State) (f : FlexReq → Bool) : State :=
  let gone := s.churn.pending.filter f ++ s.churn.sent.filter f
  gone.foldl State.flexRefuse
    { s with churn := { s.churn with pending := s.churn.pending.filter (!f ·), sent := s.churn.sent.filter (!f ·) } }

/-- Releases port p: its row falls to the release value at the next boundary (R244). -/
def State.flexRelease (s : State) (p : Nat) : State :=
  { s with churn := { s.churn with owners := Tbl.put none s.churn.owners p none,
                                   releasing := bvSet s.churn.releasing p true } }

/-- Releases what context c owns. -/
def State.flexReleaseCtx (s : State) (c : Nat) : State :=
  (List.range 16).foldl (fun a p => if Tbl.look none s.churn.owners p == some c then a.flexRelease p else a) s

/-- Takes out the queued requests and partial messages of some targets. Requests of other packages, and with `all` every
request, are answered SOUR DARK; what this package's own ports had sent completes by the dark notice (R186, R222). -/
def State.failRequests (s : State) (tile cream hbm : Nat → Bool) (asm : Assembly → Bool) (all : Bool) : State :=
  let own := s.fab.pkgId.toNat
  let pick (q : Tbl (List TReq)) (f : Nat → Bool) : List Cell := (q.filter fun e => f e.1).flatMap fun e => e.2.map TReq.head
  let heads := pick s.fab.tileReq tile ++ pick s.fab.creamQ cream ++ pick s.fab.hbmQ hbm ++
    (s.fab.asm.filter asm).filterMap Assembly.head
  let rest (q : Tbl (List TReq)) (f : Nat → Bool) : Tbl (List TReq) := q.filter fun e => !f e.1
  let s1 := { s with fab := { s.fab with tileReq := rest s.fab.tileReq tile, creamQ := rest s.fab.creamQ cream,
                                         hbmQ := rest s.fab.hbmQ hbm, asm := s.fab.asm.filter fun a => !asm a } }
  (heads.filter fun c => all || Cell.spkg c != own).foldl (fun a c => a.launchAll (sourAnswers c .dark)) s1

/-- What waits at compute port p. -/
def State.failPort (s : State) (p : Nat) : State :=
  let s1 := s.failRequests (fun k => vatPort (k / 1024) == p) (· == p) (fun _ => false) (fun a => a.port == p) false
  { s1 with fab := { s1.fab with tileResp := s1.fab.tileResp.filter fun e => vatPort (e.1 / 1024) != p } }

/-- A compute port goes dark (R255, R256). -/
def State.darkPort (s : State) (p : Nat) : State :=
  if s.isDark p then s
  else
    let s1 := (((s.failPort p).flexRelease p).flexRefuseAll fun r => r.port == p).onPort p fun x => { x with mode := .dark }
    let s2 := { s1 with fab := { s1.fab with dark := bvSet s1.fab.dark p true },
                        churn := { s1.churn with darkNext := bvSet s1.churn.darkNext p true,
                                                 relightNext := bvSet s1.churn.relightNext p false } }
    s2.note 0x0C05 .info (unitPort p)

/-! ## Separator jobs (R304) -/

/-- Removes context c's jobs from every engine: a running job stops without STATUS or DONE. -/
def State.removeJobs (s : State) (c : Nat) : State :=
  (List.range 16).foldl (fun a e =>
    if (Tbl.look none (a.engine e).posted c).isSome || (a.engine e).job.any (fun j => j.ctx == c) then
      a.onEngine e fun x =>
        { x with posted := Tbl.put none x.posted c none,
                 job := x.job.filter (fun j => j.ctx != c),
                 mode := if x.job.any (fun j => j.ctx == c) && x.mode == .run then .idle else x.mode }
    else a) s

/-! ## Queue pairs (R429, R433) -/

/-- The queue pairs of context c enter the error state. -/
def State.qpsError (s : State) (c : Nat) : State :=
  let fail (_ : Nat) (x : Qp) : Qp := if x.state = .ready ∧ x.ctx.toNat = c then { x with state := .error } else x
  { s with eth := { s.eth with qps := Tbl.mapVals {} fail s.eth.qps } }

/-- Destroys a queue pair; its requests in flight are answered with a NAK for a remote access error (R451). -/
def State.qpDestroyed (s : State) (q : Nat) : State :=
  let x := s.qp q
  let s1 := x.msgs.foldl (fun a m => a.hostSend (.nakAccess q m.psn)) s
  let drop (o : Op) : Bool := match o.issuer with
    | .rdmaWrite r _ => r == q
    | .rdmaRead r _ _ => r == q
    | _ => false
  let s2 := { s1 with fab := { s1.fab with ops := s1.fab.ops.map fun o => if drop o then { o with voided := true } else o } }
  s2.onQp q fun y => { ({} : Qp) with refusedCnt := y.refusedCnt, delayedCnt := y.delayedCnt }

def State.qpsDestroy (s : State) (c : Nat) : State :=
  s.eth.qps.foldl (fun a (q, x) => if x.state ≠ .free ∧ x.ctx.toNat = c then a.qpDestroyed q else a) s

/-! ## Culture loads (R138, R142) -/

def LoadResult.wire (r : LoadResult) : List Byte :=
  [r.code, r.sect] ++ beBytes 2 r.item.toNat ++ beBytes 2 r.pos.toNat ++ [0, 0] ++ beBytes 8 r.byte.toNat

def LoadResult.words (r : LoadResult) : List W64 :=
  [BitVec.ofNat 64 (packBits [(0, 8, r.code.toNat), (8, 8, r.sect.toNat), (16, 16, r.item.toNat), (32, 16, r.pos.toNat)]),
   r.byte]

/-- CULTURE_REFUSED for one target (R138). -/
def State.noteRefused (s : State) (t : LoadTarget) (r : LoadResult) : State :=
  s.note 0x0909 .info (unitVat t.vat) ([BitVec.ofNat 64 t.vat, BitVec.ofNat 64 t.ctx] ++ r.words) (some t.ctx)

/-- Gives every target without a result that satisfies f the result r; with `rec`, each writes CULTURE_REFUSED. -/
def State.failTargets (s : State) (id : Nat) (f : LoadTarget → Bool) (r : LoadResult) : State :=
  match s.loads.find? fun l => l.id == id with
  | none => s
  | some l =>
    let hit (t : LoadTarget) : Bool := t.result.isNone && f t
    let s1 := (l.targets.filter hit).foldl (fun a t => a.noteRefused t r) s
    { s1 with loads := s1.loads.map fun x => if x.id = id then
        { x with targets := x.targets.map fun t => if hit t then { t with result := some r } else t } else x }

/-- Answers and forgets every load whose targets all have results (R444). -/
def State.finishLoads (s : State) : State :=
  let ended (l : Load) : Bool := l.targets.all fun t => t.result.isSome
  let s1 := { s with loads := s.loads.filter fun l => !ended l }
  (s.loads.filter ended).foldl (fun a l =>
    let rs := l.targets.map fun t => t.result.getD {}
    let allOk := rs.all fun r => r.code == 0
    a.reply l.src l.req 0x0010 (if allOk then stOK else stResults) (rs.flatMap LoadResult.wire)) s1

/-- Aborts the targets of loads in progress that satisfy f (R142). -/
def State.abortLoads (s : State) (f : LoadTarget → Bool) : State :=
  (s.loads.foldl (fun a l => a.failTargets l.id f { code := 17 }) s).finishLoads

/-! ## Purging a context's cells (R465, R470) -/

/-- A request cell of package p's context c. -/
def cellOf (p c : Nat) (x : Cell) : Bool := opIsRequest x.opc && x.cls != 0 && x.spkg == p && x.cellCtx == c

/-- Discards every queued request cell of package p's context c; the count goes to CTX_PURGE_CNT. -/
def State.purge (s : State) (p c : Nat) : State :=
  let f := cellOf p c
  let gone (q : Tbl (List TReq)) : Nat :=
    q.foldl (fun n (_, l) => n + (l.filter fun r => f r.head).foldl (fun m r => m + 1 + r.frags.length) 0) 0
  let keep (q : Tbl (List TReq)) : Tbl (List TReq) := Tbl.mapVals [] (fun _ l => l.filter fun r => !f r.head) q
  let thin (_ : Nat) (l : Link) : Link := { l with queue := l.queue.filter fun x => !f x }
  let mine (a : Assembly) : Bool := a.pkg == p && a.ctx == c
  let inAsm := (s.fab.asm.filter mine).foldl (fun n a => n + a.frags.length + (if a.head.isSome then 1 else 0)) 0
  let inLinks := s.lnk.links.foldl (fun n (_, l) => n + (l.queue.filter f).length) 0
  let n := gone s.fab.tileReq + gone s.fab.creamQ + gone s.fab.hbmQ + inAsm + inLinks +
    (s.fab.flight.filter f).length + (s.fab.held.filter f).length
  { s with
    fab := { s.fab with tileReq := keep s.fab.tileReq, creamQ := keep s.fab.creamQ, hbmQ := keep s.fab.hbmQ,
                        asm := s.fab.asm.filter (fun a => !mine a), flight := s.fab.flight.filter (fun x => !f x),
                        held := s.fab.held.filter (fun x => !f x) },
    lnk := { s.lnk with links := Tbl.mapVals {} thin s.lnk.links },
    err := { s.err with purgeCnt := bump s.err.purgeCnt n } }

/-- Removes a context's outstanding operations: their tags are withheld and late responses find none (R465, R225). -/
def State.dropOps (s : State) (f : Op → Bool) : State :=
  (s.fab.ops.filter f).foldl (fun a o => a.withhold o.port o.tag o.dpkg)
    { s with fab := { s.fab with ops := s.fab.ops.filter (fun o => !f o) } }

/-- Forgets the store-ladle reads of context c that its tile stores have not served: they were never issued (R77). -/
def State.dropReads (s : State) (c : Nat) : State :=
  let mine := s.fab.ops.filter fun o => o.ctx == c && o.reading
  let isRead (x : Cell) : Bool := mine.any fun o => o.port == Cell.sport x && o.tag.toNat == Cell.tag x
  let keep (_ : Nat) (l : List TReq) : List TReq := l.filter fun r => !(Cell.opc r.head == opLD && isRead r.head)
  { s with fab := { s.fab with ops := s.fab.ops.filter (fun o => !(o.ctx == c && o.reading)),
                               tileReq := Tbl.mapVals [] keep s.fab.tileReq } }

end Sys2Proof.Machine
end

