-- ==== Sys2Proof/Machine/Resets.lean ====
section
/-! DEFINITION. Fault stops, context resets, the reset units and the halt (R463 to R489), and the work list that
every command empties before it ends. -/

namespace Sys2Proof.Machine

/-! ## ABORT cells (R467 to R469) -/

/-- Sends ABORT of a kind (1 RESET, 2 GROUP_ABORT) for context c to every other package in reach (R468). -/
def State.sendAbort (s : State) (c kind : Nat) (seq : W64) (code : W16) : State :=
  let own := s.fab.pkgId.toNat
  let pay := packBits [(0, 16, (s.ctx c).group.toNat), (16, 8, c), (24, 8, kind), (64, 64, seq.toNat), (128, 16, code.toNat),
    (192, 64, s.time)]
  let dst := (List.range 64).filter fun d => d != own && s.reach d
  let s1 := dst.foldl (fun a d => a.launch { hdr := mkHdr d 52 own 52 opABORT 0 0 0 0, payload := BitVec.ofNat 512 pay }) s
  { s1.onCtx c (fun x => { x with remoteHold := true }) with
    err := { s1.err with abortTx := bump s1.err.abortTx dst.length } }

/-- RESET, once per fault (R469). -/
def State.sendReset (s : State) (c : Nat) : State :=
  if (s.ctx c).resetSent then s
  else (s.sendAbort c 1 (s.ctx c).lastSeq (s.ctx c).lastCode).onCtx c fun x => { x with resetSent := true }

/-- GROUP_ABORT, once per fault, where the context has a group (R469). -/
def State.sendGroupAbort (s : State) (c : Nat) : State :=
  if (s.ctx c).group = 0 ∨ (s.ctx c).abortSent then s
  else (s.sendAbort c 2 (s.ctx c).lastSeq (s.ctx c).lastCode).onCtx c fun x => { x with abortSent := true }

/-! ## Fault stop and context reset -/

/-- Halts a context's sequencer, ladles, tiles and Separator jobs, and swaps it out (R463, up to 2 µs). -/
def State.stopWork (s : State) (c : Nat) : State :=
  let s := s.dropReads c
  let s1 := if (s.ctx c).resident then
      let p := s.ctxPlane c
      let s1 := (s.squashPlane p).onPlane p fun q =>
        { q with issuing := false, blocked := none,
                 ladles := q.ladles.map fun (k, l) => (k, { l with running := false, held := none }) }
      if s.isActive c then s1.stopTiles (s.ctx c).vat.toNat else s1
    else s
  ((s1.removeJobs c).swapAway c).refreshRun (s.ctx c).vat.toNat

/-- The work of a fault stop (R463). Operations already issued go on to complete. -/
def State.faultStop (s : State) (c : Nat) : State :=
  ((((s.stopWork c).flexReleaseCtx c).qpsError c).flexRefuseAll fun r => r.ctx == c).sendGroupAbort c

/-- The work of a context reset (R465): the fault stop's, RESET to the peers, and every unperformed cell discarded. -/
def State.ctxReset (s : State) (c : Nat) : State :=
  let s1 := ((s.stopWork c).flexReleaseCtx c).flexRefuseAll fun r => r.ctx == c
  let s2 := (s1.qpsError c).sendReset c
  let s2 := if (s.ctx c).state = .faulted then s2.sendGroupAbort c else s2
  let s3 := (s2.purge s.fab.pkgId.toNat c).dropOps fun o => o.ctx == c && o.port != 52
  s3.onCtx c fun x => { x with stopping := true, resetting := true, suspect := false, replaying := false }

/-- What CTX_DESTROY leaves (R461). -/
def State.freeCtx (s : State) (c : Nat) : State :=
  let s1 := (((s.emptyPlane c).qpsDestroy c).abortLoads fun t => t.ctx == c).flexReleaseCtx c
  let s2 := s1.onCtx c fun x =>
    { ({} : Ctx) with weight := x.weight, lastSeq := x.lastSeq, lastCode := x.lastCode, remoteHold := x.remoteHold }
  let inv (e : BitVec 128) : BitVec 128 := bvSet e 104 false
  { s2 with fab := { s2.fab with seg := Tbl.mapVals 0 (fun i e => if i / 512 = c then inv e else e) s2.fab.seg } }

/-! ## Vat, die and compute resets (R477) -/

/-- The spine, ladles, tiles and switch boxes of a vat as a reset leaves them. `flags` says whether the tiles' sticky
flags are restored (R81, R121). -/
def State.wipeVat (s : State) (v : Nat) (flags : Bool) : State :=
  let wipe (t : Tile) : Tile :=
    { ({} : Tile) with xflags0 := if flags then 0 else t.xflags0, xflags1 := if flags then 0 else t.xflags1 }
  let quiet (p : Plane) : Plane :=
    { p with issuing := false, blocked := none, busy := 0, resv := none, ladles := [], groups := [], newFlags := 0, delayed := 0 }
  let s1 : State := { s with
    tiles := Tbl.mapVals {} (fun k t => if k / 1024 = v then wipe t else t) s.tiles,
    planes := Tbl.mapVals {} (fun k p => if k / 2 = v then quiet p else p) s.planes }
  let mine (x : Cell) : Bool := x.spkg == s.fab.pkgId.toNat && (s.residents v).contains x.cellCtx
  let keep (k : Nat) (l : List TReq) : List TReq := if k / 1024 = v then l.filter fun r => !mine r.head else l
  let s2 := { s1 with fab := { s1.fab with tileReq := Tbl.mapVals [] keep s1.fab.tileReq } }
  s2.onVat v fun x =>
    { x with run := .reset, arm := false, sliceCount := 0, fault := 0, causeCode := 0, causeCtx := 0, tval := 0,
             lastBoundaryId := 0, lastBoundaryCtx := 0, lastBoundaryTime := 0, epoch := x.epoch + 1, wakeThen := none,
             freqNow := 0, fallbackCap := none, lastStretch := none }

/-- Takes over the resets and handlings that lie within a scope (R479). -/
def State.takeOver (s : State) (f : ResetKind → Bool) : State :=
  { s with err := { s.err with resets := s.err.resets.filter fun r => !f r.1 } }

def State.startReset (s : State) (k : ResetKind) : State :=
  { s with err := { s.err with resets := s.err.resets ++ [(k, s.clk.now)] } }

/-- The work of a vat reset. After a hang the RUNNING and DRAINING contexts become suspects and keep their state, the
active one first (R473 to R475); otherwise both residents fault with CTX_UNIT_LOST. -/
def State.vatReset (s : State) (v : Nat) (hang : Bool) : State :=
  if hang then
    let run := (s.residents v).filter fun c => (s.ctx c).state.runs
    let order := run.filter s.isActive ++ run.filter fun c => !s.isActive c
    let s1 := order.foldl (fun (a : State) c =>
      let b := (((a.removeJobs c).sendReset c).purge a.fab.pkgId.toNat c).dropOps fun o => o.ctx == c && o.port != 52
      b.onCtx c fun x => { x with suspect := true }) s
    let s2 := (s1.stopTiles v).wipeVat v false
    ((s2.abortLoads fun t => t.vat == v).onVat v fun x =>
      { x with suspects := order, replaying := none, passed := [] }).startReset (.vat (Fin.ofNat 32 v))
  else
    let s1 := (s.residents v).foldl (fun a c =>
      (a.ctxFault c 0x0805 (unitVat v) [] .context true).removeJobs c) s
    let s2 := ((s1.stopTiles v).wipeVat v true).abortLoads fun t => t.vat == v
    ((s2.takeOver fun k => k == .vat (Fin.ofNat 32 v)).onVat v fun x =>
      { x with suspects := [], replaying := none, passed := [] }).startReset (.vat (Fin.ofNat 32 v))

/-- One die's vats, cream dies and ports as a die or compute reset leaves them: SRAM cleared (R181), every register of
the vats and every register but the counters of the cream dies restored (R81, R183), the planes lost. -/
def State.wipeDie (s : State) (d : Nat) : State :=
  let s1 := (dieVats d).foldl (fun (a : State) v =>
    let b := ((a.stopTiles v).wipeVat v true).clearRange (tileBase v 0) 0x20000000
    let lost (p : Plane) : Plane := { ({} : Plane) with ctx := p.ctx }
    let b1 : State := { b with planes := Tbl.mapVals {} (fun k p => if k / 2 = v then lost p else p) b.planes }
    b1.onVat v fun x =>
      { ({} : Vat) with plane := x.plane, skip := x.skip, exhausted := x.exhausted, epoch := x.epoch, irCap := x.irCap,
                        railFaults := x.railFaults, failedCols := x.failedCols }) s
  let s2 := (diePorts d).foldl (fun (a : State) c =>
    ((a.clearRange (creamBase c) 0x80000000).onCream c fun x =>
      { x with mode := if x.mode == .retired then .retired else .reset, waking := false, level := 0, retEn := false,
               retIdle := 100 }).darkPort c) s1
  { s2 with inv := { s2.inv with dieInReset := bvSet s2.inv.dieInReset d true },
            mc := { s2.mc with katDone := (dieVats d).foldl (fun m v => bvSet m v false) s2.mc.katDone } }

/-- Every context of some vats faults with CTX_UNIT_LOST and takes a context reset (R464, R477). -/
def State.loseContexts (s : State) (vs : List Nat) : State :=
  vs.foldl (fun a v => (a.residents v).foldl (fun b c =>
    b.ctxFault c 0x0805 (unitDie (v / 4)) [] .context true false (some (.ctxReset c))) a) s

/-- Sensors of a die forget that they were broken (R412). -/
def State.mendSensors (s : State) (f : Nat → Bool) : State :=
  let mend (k : Nat) (x : Sensor) : Sensor := if f k then { x with broken := false } else x
  { s with thm := { s.thm with sensors := Tbl.mapVals {} mend s.thm.sensors } }

/-- The number of a thermal region: vat v, 32 + c for a cream die, 48 + f for a Churn field, 78 + s for a stack and
110 + m for a laser cage (log 21). -/
def regionNum : Region → Nat
  | .vat v => v.val
  | .cream c => 32 + c.val
  | .field f => 48 + f.val
  | .stack k => 78 + k.val
  | .cage m => 110 + m.val

/-- Whether a sensor (8 × region + sensor) lies on die d. -/
def sensorOnDie (d k : Nat) : Bool := (k / 8 < 32 && k / 8 / 4 == d) || (32 ≤ k / 8 && k / 8 < 48 && (k / 8 - 32) / 2 == d)

/-- The work of a die reset (R477). -/
def State.dieReset (s : State) (d : Nat) : State :=
  let s1 := s.loseContexts (dieVats d)
  let s2 := ((s1.abortLoads fun t => t.vat / 4 == d).wipeDie d).mendSensors (sensorOnDie d)
  (s2.takeOver fun k => match k with
    | .vat v => v.val / 4 == d
    | .die e => e.val == d
    | _ => false).startReset (.die (Fin.ofNat 8 d))

/-- The work of a compute reset: every die, every context; dies retired for no persistent cause return (R477, R478,
R367). -/
def State.computeReset (s : State) : State :=
  let s1 := s.loseContexts (List.range 32)
  let s2 := ((List.range 8).foldl (fun a d => a.wipeDie d) (s1.abortLoads fun _ => true)).mendSensors fun k => k / 8 < 48
  (s2.takeOver fun k => match k with
    | .management => false
    | _ => true).startReset .compute

/-! ## Power: rails and PWR_OK -/

/-- The package rails go: everything they feed stops and loses its contents (R27, R34, R419). -/
def State.dropRails (s : State) : State :=
  let vatOff (_ : Nat) (v : Vat) : Vat := { v with run := .reset, freqNow := 0, ballast := 0, banksOn := false }
  let creamOff (_ : Nat) (c : Cream) : Cream := { c with mode := .reset, waking := false }
  let stackOff (_ : Nat) (x : Stack) : Stack := { x with mode := .reset }
  let ringOff (_ : Nat) (r : Ring) : Ring := { r with state := .cold, step := .none }
  let linkOff (_ : Nat) (l : Link) : Link := { l with mode := .down, width := 0, lanes := 0, replay := [], queue := [] }
  { s with
    board := { s.board with rails := false, pwrOk := false, bundles := [] },
    vats := Tbl.mapVals {} vatOff s.vats,
    planes := [], tiles := [], loads := [],
    creams := Tbl.mapVals {} creamOff s.creams,
    hbm := { s.hbm with running := false, pcs := [], stackTbl := Tbl.mapVals {} stackOff s.hbm.stackTbl },
    fab := { s.fab with mem := [], bad := [], flight := [], ops := [], asm := [], tileReq := [], tileResp := [], creamQ := [],
                        hbmQ := [], held := [], stopped := [] },
    churn := { s.churn with running := false, sent := [], pending := [], retunes := [] },
    rings := { s.rings with table := Tbl.mapVals {} ringOff s.rings.table },
    engines := [],
    lnk := { s.lnk with links := Tbl.mapVals {} linkOff s.lnk.links },
    eth := { s.eth with mode := .down, speed := 0 } }

/-- What survives a power-on reset while input power stays: the time counter with its block, PWR_ENERGY, a latched
trip, the board's pins, the fuses, the FRU and the flash (R34, R387, R394, R399, R422). -/
def State.powerOnReset (s : State) : State :=
  { ({} : State) with
    board := { s.board with rails := false, pwrOk := false, bundles := [], bundlesLost := [] },
    inv := { cages := s.inv.cages },
    fuses := s.fuses,
    fru := s.fru,
    clk := { now := s.clk.now, startedOnHoldover := s.clk.startedOnHoldover, holdoverSeen := s.clk.holdoverSeen,
             skewCnt := s.clk.skewCnt, skewMax := s.clk.skewMax, locked := s.clk.locked, source := s.clk.source,
             refValid := s.clk.refValid, holdoverFrom := s.clk.holdoverFrom },
    pwr := { energy := s.pwr.energy, energyFrac := s.pwr.energyFrac, lugA := s.pwr.lugA, lugB := s.pwr.lugB,
             volts := s.pwr.volts },
    thm := { trip := s.thm.trip, source := s.thm.source, region := s.thm.region, tripTemp := s.thm.tripTemp },
    mc := { flash := s.mc.flash },
    svc := { btnDown := s.svc.btnDown, ir := s.svc.ir, dr := s.svc.dr, extestDrives := s.svc.extestDrives },
    free := s.free,
    pending := s.pending }

/-! ## Management reset (R349, R440, R453, R477) -/

/-- A CLOSE record and the end of a session. -/
def State.closeSession (s : State) (k reason : Nat) : State :=
  let n := s.session k
  if n.isOpen || n.handshake then
    (s.hostSend (.kcp (recordHeader 5 n.id n.txSeq.toNat ++ [BitVec.ofNat 8 reason]))).onSession k fun _ => {}
  else s

/-- A link enters DOWN from UP or RETRAIN (R336): unacknowledged requests of class C1 and C2 are answered SOUR
UNREACHABLE, one per tag; responses and C0 cells go over the remaining paths. -/
def State.linkFall (s : State) (l : Nat) : State :=
  let k := s.link l
  let cells := (k.replay.flatMap Prod.snd ++ k.queue).filter fun c => c.opc != opIDLE
  let s1 := s.onLink l fun x => { x with mode := .down, width := 0, lanes := 0, replay := [], queue := [], downs := bump x.downs }
  let heads := cells.filter fun c => opIsRequest c.opc && c.cls != 0
  let once := heads.foldl (fun (seen : List Cell) c =>
    if seen.any fun d => d.spkg == c.spkg && d.sport == c.sport && d.tag == c.tag then seen else seen ++ [c]) []
  let s2 := once.foldl (fun a c => a.launchAll (sourAnswers c .unreachable)) s1
  (cells.filter fun c => !(opIsRequest c.opc && c.cls != 0)).foldl State.launch s2

/-- Ends an unlock, and a challenge that waits for its answer (R533). -/
def State.lockMonitor (s : State) : State := { s with svc := { s.svc with unlocked := false, challenge := none } }

/-- The work of a management reset: every session closes with reason RESET, every link goes down and trains, the routing
table is cleared and LNK and KCP_CFG return to their reset values. Before READY, bring-up restarts at step 2 (R517). -/
def State.mgmtResetWork (s : State) : State :=
  let s1 := (List.range 8).foldl (fun a k => a.closeSession k 5) s
  let fall (a : State) (l : Nat) : State :=
    if (a.link l).mode = .up ∨ (a.link l).mode = .retrain then (a.linkFall l).record 0x0F03 .unit (unitLink l) else a
  let s2 := (List.range 64).foldl fall s1
  let trains (l : Nat) : Link := { ({} : Link) with laneLost := (s.link l).laneLost, mode := .training, trains := 1 }
  let lit := (List.range 64).filter fun l => s.mc.stepEnd.any (fun e => e.1 == 5) && !s.las.dark.getLsbD (l / 4)
  { s2.lockMonitor with
    lnk := { links := lit.map fun l => (l, trains l), routes := [], autoWiden := true },
    kcp := { s2.kcp with idleTimeout := 60, fwdTimeout := 30, sessions := [], forwards := [] },
    mc := { s2.mc with mgmtReset := true, staging := none, committing := none, handover := false, overlap := false, retake := false,
                       step := if 2 ≤ s.mc.step.toNat ∧ s.mc.step.toNat ≤ 7 then 2 else s.mc.step },
    err := { s2.err with resets := (s2.err.resets.filter fun r => r.1 != .management) ++ [(.management, s.clk.now)] } }

/-! ## Halt (R485) and the start of a dump (R486) -/

/-- The units of a dump in the order of R487, each with its entries: the error ring, 63 records to an entry; the
register blocks; the two planes of each spine; the tiles of each vat, 120 to an entry; the queue heads; the cream dies
(log 40). -/
def dumpPlan : List (W16 × Nat) :=
  [(unitContexts, 66), (unitMc false, 1), (unitContexts, 2), (unitPackage, 1), (unitOf 9 0, 10), (unitPackage, 16), (unitOf 6 0, 9),
    (unitOf 7 0, 1), (unitClock, 1), (unitOf 12 0, 1), (unitOf 13 0, 1)] ++
  (List.range 32).map (fun v => (unitVat v, 2)) ++ (List.range 32).map (fun v => (unitVat v, 9)) ++
  (List.range 53).map (fun p => (unitPort p, 1)) ++ (List.range 32).map (fun k => (unitStack k, 1)) ++
  (List.range 4).map (fun h => (unitPort (48 + h), 1)) ++ (List.range 16).map fun c => (unitCream c, 1)

/-- Takes a dump unless one is held, which leaves an INFO record of size 0. -/
def State.dumpStart (s : State) (trigger : Nat) (seq : W64) : State :=
  if s.err.dump.valid || s.err.dump.busy then s.note 0x0908 .info (unitMc s.mc.owner) [0, 0, 0]
  else { s with err := { s.err with dump := { busy := true, trigger := BitVec.ofNat 8 trigger, time := s.clk.now,
                                              triggerSeq := seq, size := 64, ring := s.err.ring, plan := dumpPlan } } }

/-- A halt: every root stops, every context not FAULTED faults with CTX_UNIT_LOST, a dump is taken, HALT is written
and the state reads FATAL. Kind 1 is an escalation, kind 2 a PACKAGE record. -/
def State.haltWork (s : State) (kind : Nat) (seq : W64) : State :=
  let s1 := { s with err := { s.err with handlings := { scope := .compute, seq := seq } :: s.err.handlings } }
  let s2 := (List.range 64).foldl (fun a c => a.ctxFault c 0x0805 unitPackage [] .context true) s1
  let s3 := (List.range 32).foldl (fun a v => (a.stopTiles v).onVat v fun x => { x with freqNow := 0 }) s2
  let s4 := s3.dumpStart kind seq
  let sev : Severity := if kind = 2 then .package else .fatal
  let s5 := s4.announce { code := 0x0907, severity := sev, unit := unitPackage, action := .halt }
  { s5 with err := { s5.err with halt := true, haltKind := BitVec.ofNat 2 kind,
                                 resets := s5.err.resets.filter fun r => r.1 == .management,
                                 handlings := s5.err.handlings.filter fun h => h.scope != .compute },
            mc := { s5.mc with state := .fatal } }

/-! ## The work list -/

def State.doTodo (s : State) : Todo → State
  | .faultStop c => s.faultStop c
  | .ctxReset c => s.ctxReset c
  | .vat v hang => s.vatReset v hang
  | .die d => s.dieReset d
  | .compute => s.computeReset
  | .mgmt => s.mgmtResetWork
  | .halt kind seq => s.haltWork kind seq

/-- Does the work that the records of this command called for, oldest first. -/
def State.drainTodo : Nat → State → State
  | 0, s => s
  | fuel + 1, s =>
    match s.err.todo with
    | [] => s
    | t :: ts => State.drainTodo fuel (State.doTodo { s with err := { s.err with todo := ts } } t)

/-- The end of every command that may write a record of severity CONTEXT or above. -/
def State.finish (s : State) : State := State.drainTodo 400 s

end Sys2Proof.Machine
end

