-- ==== Sys2Proof/Machine/EthLink.lean ====
section
/-! DEFINITION. The host port's lanes, training and network layer (R423 to R425). -/

namespace Sys2Proof.Machine

/-- Lanes with a received signal that R359 and R366 leave usable. -/
def Ethernet.usable (e : Ethernet) : Byte := e.signal &&& ~~~e.lightLost

/-- ETH_CFG.MODE: 0 AUTO, 1 FORCE_1600, 2 FORCE_800; 3 acts as 0. -/
def Ethernet.cfgMode (e : Ethernet) : Nat := if bitsAt e.cfg.toNat 0 2 = 3 then 0 else bitsAt e.cfg.toNat 0 2

/-- The speed that MODE and the usable lanes allow: 1 is 1.6 Tb/s, 2 is 800 Gb/s, 0 is none. -/
def Ethernet.wanted (e : Ethernet) : Nat :=
  let low := bitsAt e.usable.toNat 0 4 == 15
  if e.cfgMode ≠ 2 ∧ e.usable = 255 then 1
  else if e.cfgMode ≠ 1 ∧ low then 2
  else 0

/-- The port can run: the package has its rails and the I/O die its clock. -/
def State.ethAlive (s : State) : Bool := s.board.rails && s.clk.dieLock.getLsbD 8

/-- Loss of the link. -/
def State.ethFall (s : State) : State :=
  { s with eth := { s.eth with mode := .down, speed := 0, retraining := false } }.record 0x0601 .unit unitHost

/-- The port after a change of lanes or of MODE (R424): it narrows, widens, falls, or starts to train. -/
def State.ethSettle (s : State) : State :=
  if !s.ethAlive then s
  else match s.eth.mode with
    | .up =>
      let w := s.eth.wanted
      if w = s.eth.speed.toNat then s
      else if w = 0 then s.ethFall
      else
        let s1 := { s with eth := { s.eth with mode := .training, speed := 0, retraining := true } }
        if w = 2 then s1.note 0x0603 .corrected unitHost [s.eth.usable.zeroExtend 64] else s1
    | .down => if s.eth.wanted = 0 then s else { s with eth := { s.eth with mode := .training } }
    | .training => s

/-- Training ends, with the lanes that have signal. -/
def State.ethTrained (s : State) (signal : Byte) : State :=
  if !s.ethAlive ∨ s.eth.mode = .up then s
  else
    let s1 := { s with eth := { s.eth with signal := signal } }
    match s1.eth.wanted with
    | 0 => if s.eth.retraining then s1.ethFall else { s1 with eth := { s1.eth with mode := .down, speed := 0 } }
    | w => { s1 with eth := { s1.eth with mode := .up, speed := BitVec.ofNat 2 w, retraining := false } }.note 0x0602 .info unitHost
        [BitVec.ofNat 64 w, s1.eth.usable.zeroExtend 64]

def execEthLinkTrain (signal : Byte) (s : State) : Host.Outcome State Fault Refusal := .next (s.ethTrained signal).finish

/-- The retry of a DOWN port starts its training. -/
def execEthRetry (signal : Byte) (s : State) : Host.Outcome State Fault Refusal :=
  .next (if s.eth.mode = .down then { s with eth := { s.eth with signal := signal } }.ethSettle else s)

def execEthLaneChange (lane : Fin 8) (usable : Bool) (s : State) : Host.Outcome State Fault Refusal :=
  .next ({ s with eth := { s.eth with signal := bvSet s.eth.signal lane.val usable } }.ethSettle).finish

/-- A host lane loses or regains its light (R359, R366). -/
def State.ethLight (s : State) (lane : Nat) (lost : Bool) : State :=
  { s with eth := { s.eth with lightLost := bvSet s.eth.lightLost lane lost } }.ethSettle

/-- An inbound frame of the network layer is answered; one that is not accepted is discarded (R425). -/
def execNetworkFrame (kind : NetFrame) (s : State) : Host.Outcome State Fault Refusal :=
  .next (if s.eth.mode = .up then
    match kind with
    | .other => { s with eth := { s.eth with rxDrop := bump s.eth.rxDrop } }
    | k => s.hostSend (.net k)
  else s)

/-- A priority flow control frame pauses the priorities it names among those of PFC_EN (R425). -/
def execPfcPauseFrame (priorities : Byte) (s : State) : Host.Outcome State Fault Refusal :=
  .next (if s.eth.mode = .up then
    { s with eth := { s.eth with pfcRx := bump s.eth.pfcRx,
                                 paused := priorities &&& BitVec.ofNat 8 (bitsAt s.eth.cfg.toNat 8 8) } }
  else s)

end Sys2Proof.Machine
end

