-- ==== Sys2Proof/Config.lean ====
section
/-! DEFINITION. The free values: what the spec leaves open and the model does not choose. Nothing is known of any of
them, so what is proved holds whatever they are. -/

namespace Sys2Proof.Config

/-- Codes of records that the spec writes without listing a code, by event (log 23). -/
opaque unlistedCode : Nat → W16

/-- HEAD of a receive ring that lies in another package, as a SEND finds it (log 27). -/
opaque remoteHead : Nat → W64

/-- Request messages that all source ports of a destination port may share beyond two each (R207, log 17). -/
opaque sharedAssemblies : Nat

/-- Which value within the bound of R48 a device returns, by operation and input bits (R541, log 9). -/
opaque vectorChoice : Nat → W32 → Nat

/-- What a register, an accumulator entry and its tag hold once a swap or reset has made them undefined, by the count of
such events, vat, tile and register or entry (R67, log 7). -/
opaque tileRegister : Nat → Nat → Nat → Nat → BitVec 1024
opaque accumulator : Nat → Nat → Nat → Nat → BitVec 128
opaque accumulatorTag : Nat → Nat → Nat → Nat → Nat

/-- The peak current in mA that a culture load computes for a tile program from its parameter word and bundles (R407, log 10). -/
opaque programPeak : W32 → List (BitVec 128) → Nat

/-- What bring-up measures of the rings, by build and entry: heater code, park code, and the neighbour and coefficient words
(R266, R270, R279, log 11). -/
opaque ringCode : Nat → Nat → W16
opaque ringPark : Nat → Nat → W16
opaque ringNbr : Nat → Nat → W32
opaque ringCoef : Nat → Nat → BitVec 128

/-- Measured codes per kelvin of a field, in sixteenths (R284, log 11). -/
opaque ringSlope : Nat → Nat → W16

/-- Whether a temperature estimate between two codes takes the upper one (R284 states no rounding, log 11). -/
opaque estimateUp : Nat → Bool

/-- The Separator: what bias and noise add to the rounded ideal code of a row, by job, vector and row (R297); which of a job's
row masks held for a vector (R302); the times of a job that integrates nothing (R294); the transmission a reload's pass
measures of a faulty weight ring, in 1/62000 (R303); and the cause of the SOUR that answers a stray weight message (R289); log 13. -/
opaque sepNoise : Nat → Nat → Nat → Int
opaque sepPhase : Nat → Nat → Nat
opaque sepTime : Nat → W64
opaque sepResidual : Nat → Nat → Int
opaque sepStray : Nat

/-- What the module draws for a session, a signature, a queue pair and a monitor challenge (R437, R444, R532, log 14). -/
opaque ephemeral : Nat → Nat
opaque nonce : Nat → BitVec 256
opaque signSecret : Nat → Nat
opaque startPsn : Nat → BitVec 24
opaque challenge : Nat → BitVec 256

/-- What the firmware image and the module's wiring fix and the spec does not state: the signature that the known-answer run of
a vat is compared with (R496), the scan-network address of a dump entry (R488), and the cause that a refused configuration
record carries (R506); logs 15 and 43. -/
opaque katSignature : Nat → W64
opaque scanAddress : Nat → W32
opaque recordCause : BitVec 8

/-- Readings that only show a quantity outside the commands, by the time: the rail current of vat v and, while its root stands, its
rail voltage in mV (R421); the sampling point that a phase detector has chosen, by vat, tile and receiver (R84); the offset of
the reference (R393); the FEC codewords corrected or not, and the pause frames sent (R452); and the lines of the firmware's text
log (R530); log 16. -/
opaque railAmps : Nat → W64 → BitVec 9
opaque railMillivolts : Nat → W64 → BitVec 10
opaque autoPhase : Nat → Nat → Bool → W64 → BitVec 3
opaque refOffset : W64 → W16
opaque fecCount : Bool → W64 → W64
opaque pfcSent : W64 → W32
opaque logText : W64 → List String

end Sys2Proof.Config
end

