-- ==== Sys2Proof/Machine/Operands.lean ====
section
/-! DEFINITION. The number formats of R86 to R96: the value of an element, the packing of elements into bytes, and
the geometry of a MAC operand (R43, R91). -/

namespace Sys2Proof.Machine

/-- The value of an element: (-1)^neg · man · 2^exp, an infinity, or a NaN. -/
inductive Num where
  | fin (neg : Bool) (man : Nat) (exp : Int)
  | inf (neg : Bool)
  | nan (signalling : Bool)
deriving DecidableEq, Repr

def Num.zero : Num := .fin false 0 0

def Num.isZero : Num → Bool
  | .fin _ 0 _ => true
  | _ => false

def Num.isNan : Num → Bool
  | .nan _ => true
  | _ => false

/-- Exponent bits, significand bits and bias of format codes 0 to 9 (R86). -/
structure Layout where
  expBits : Nat
  sigBits : Nat
  bias : Nat
deriving DecidableEq, Repr

def layout : Nat → Layout
  | 0 => ⟨11, 52, 1023⟩
  | 1 => ⟨8, 23, 127⟩
  | 2 => ⟨8, 10, 127⟩
  | 3 => ⟨8, 7, 127⟩
  | 4 => ⟨5, 10, 15⟩
  | 5 => ⟨4, 3, 7⟩
  | 6 => ⟨5, 2, 15⟩
  | 7 => ⟨3, 2, 3⟩
  | 8 => ⟨2, 3, 1⟩
  | _ => ⟨2, 1, 1⟩

/-- Bits that an element occupies in storage (R86, R88, R90). -/
def elemBits : Nat → Nat
  | 0 => 64
  | 1 | 2 => 32
  | 3 | 4 => 16
  | 7 | 8 => 6
  | 9 | 11 => 4
  | _ => 8

/-- Codes whose all-ones exponent holds infinity and NaN (R87). -/
def ieeeLike (code : Nat) : Bool := code ≤ 4 || code == 6

/-- The magnitude bits of a format's largest finite value (R86). -/
def maxMag (code : Nat) : Nat :=
  let l := layout code
  if ieeeLike code then (2 ^ l.expBits - 1) * 2 ^ l.sigBits - 1
  else if code = 5 then 0x7E else 2 ^ (l.expBits + l.sigBits) - 1

/-- The value of a float element, E8M10 without its low container bits (R87, R88). -/
def decodeFloat (code x : Nat) : Num :=
  let l := layout code
  let x := if code = 2 then x / 2 ^ 13 else x
  let f := x % 2 ^ l.sigBits
  let e := x / 2 ^ l.sigBits % 2 ^ l.expBits
  let neg := bitAt x (l.expBits + l.sigBits)
  if ieeeLike code && e + 1 == 2 ^ l.expBits then
    if f = 0 then .inf neg else .nan (!bitAt f (l.sigBits - 1))
  else if code = 5 ∧ x % 128 = 0x7F then .nan false
  else if e = 0 then .fin neg f (1 - l.bias - l.sigBits)
  else .fin neg (2 ^ l.sigBits + f) (e - l.bias - l.sigBits)

/-- The 24-bit significand of T[f], the FP32 value nearest 2^(f/8) (R94). -/
def log8Table : Nat → Nat
  | 0 => 0x800000
  | 1 => 0x8B95C2
  | 2 => 0x9837F0
  | 3 => 0xA5FED7
  | 4 => 0xB504F3
  | 5 => 0xC5672A
  | 6 => 0xD744FD
  | _ => 0xEAC0C7

/-- The magnitude T[f] · 2^i of the exponent code s = 8i + f (R94). -/
def log8Mag (s : Int) : Nat × Int := (log8Table (s % 8).toNat, s / 8 - 23)

/-- The value of a LOG8 code (R94). -/
def decodeLog8 (x : Nat) : Num :=
  let k := x % 128
  if k = 0 then (if bitAt x 7 then .nan false else .zero)
  else
    let (m, e) := log8Mag (k - 64)
    .fin (bitAt x 7) m e

/-- The product of two LOG8 codes (R95). -/
def log8Product (a b : Nat) : Num :=
  if a % 256 = 0x80 ∨ b % 256 = 0x80 then .nan false
  else if a % 128 = 0 ∨ b % 128 = 0 then .zero
  else
    let (m, e) := log8Mag ((a % 128 : Nat) + (b % 128 : Nat) - 128)
    .fin (bitAt a 7 != bitAt b 7) m e

def numOfInt (x : Int) (exp : Int := 0) : Num := .fin (decide (x < 0)) x.natAbs exp

/-- The value of an element of format codes 0 to 12. -/
def decodeElem (code x : Nat) : Num :=
  if code = 10 then numOfInt (signed 8 x)
  else if code = 11 then numOfInt (signed 4 x)
  else if code = 12 then decodeLog8 x
  else decodeFloat code x

/-- Element i of a packed little-endian stream (R90). -/
def elemAt (code stream i : Nat) : Nat := bitsAt stream (elemBits code * i) (elemBits code)

/-- The five trits of a T2 byte, as 0, 1 and -1, and whether the byte is invalid (R92). -/
def tritsOf (b : Nat) : List Int × Bool :=
  if 242 < b then ([0, 0, 0, 0, 0], true)
  else ((List.range 5).map fun i => match b / 3 ^ i % 3 with
    | 0 => 0
    | 1 => 1
    | _ => -1, false)

/-- The factor 2^(X - 127) of an E8M0 byte, or none for its NaN (R96). -/
def e8m0 (x : Nat) : Option Int := if x = 0xFF then none else some (x - 127)

/-- The MAC geometry M, N, K of a pair of operand formats (R43). -/
def macGeometry (fmtA fmtB : Nat) : Nat × Nat × Nat :=
  if fmtB = 13 then (16, 32, 4)
  else match fmtA with
    | 0 => (4, 4, 1)
    | 1 => (8, 8, 1)
    | 2 => (8, 16, 1)
    | 3 | 4 => (16, 16, 1)
    | 7 | 8 | 9 | 11 => (16, 32, 2)
    | _ => (16, 32, 1)

/-- The operand sizes a and b in bytes (R91). For T2 the B operand is taken in groups of 320 bytes. -/
def macSizes (fmtA fmtB : Nat) : Nat × Nat :=
  if fmtB = 13 then (64, 32)
  else match fmtA with
    | 0 | 1 | 3 | 4 => (32, 32)
    | 2 => (32, 64)
    | 7 | 8 => (24, 48)
    | _ => (16, 32)

/-- Repeats in a K-block (R98). -/
def kBlockRepeats (fmtA fmtB : Nat) : Nat :=
  if fmtB = 13 then 40 else 32 / (macGeometry fmtA fmtB).2.2

end Sys2Proof.Machine
end

