-- ==== Sys2Proof/Machine/Flags.lean ====
section
/-! DEFINITION. The sticky exception flags of R119, rounding into every format (R103 to R109, R537), and the exact
sums, products and comparisons that the units round (R89, R111). -/

namespace Sys2Proof.Machine

abbrev Flags := BitVec 9

def fNV : Flags := 1
def fDZ : Flags := 2
def fOF : Flags := 4
def fUF : Flags := 8
def fNX : Flags := 16
def fSAT : Flags := 32
def fT2INV : Flags := 64
def fXLOSS : Flags := 128
def fMXNAN : Flags := 256

def flagIf (b : Bool) (f : Flags) : Flags := if b then f else 0

/-- The rounding modes of R108; `stoch r` carries the lane's draw. -/
inductive Rnd where
  | rne
  | rtz
  | stoch (r : Nat)
deriving DecidableEq, Repr

/-- Rounds man · 2^exp to a multiple of 2^e (R108, R109): the multiple, and whether it is inexact. -/
def roundGrid (m : Rnd) (man : Nat) (exp e : Int) : Nat × Bool :=
  if e ≤ exp then (man * 2 ^ (exp - e).toNat, false)
  else
    let sh := (e - exp).toNat
    let q := man / 2 ^ sh
    let r := man % 2 ^ sh
    let up := match m with
      | .rne => decide (2 ^ sh < 2 * r) || (decide (2 * r = 2 ^ sh) && q % 2 == 1)
      | .rtz => false
      | .stoch d => decide (d < r * 2 ^ 32 / 2 ^ sh)
    (q + up.toNat, decide (r ≠ 0))

/-- ⌊log2⌋ of a nonzero man · 2^exp. -/
def log2Of (man : Nat) (exp : Int) : Int := Nat.log2 man + exp

/-- The produced NaN of a float format (R89). -/
def nanBits (code : Nat) : Nat :=
  let l := layout code
  if code = 5 ∨ code = 6 then 0x7F else (2 ^ l.expBits - 1) * 2 ^ l.sigBits + 2 ^ (l.sigBits - 1)

def infBits (code : Nat) : Nat := (2 ^ (layout code).expBits - 1) * 2 ^ (layout code).sigBits

/-- A magnitude pattern with its sign, in its container (R88). -/
def signedBits (code : Nat) (neg : Bool) (mag : Nat) : Nat :=
  let l := layout code
  (mag + neg.toNat * 2 ^ (l.expBits + l.sigBits)) * (if code = 2 then 2 ^ 13 else 1)

/-- Whether a format saturates under the NOSAT given (R103). -/
def saturates (code : Nat) (nosat : Bool) : Bool := (7 ≤ code && code ≤ 9) || ((code == 5 || code == 6) && !nosat)

/-- The exponent of the unit in the last place of man · 2^exp in a format. -/
def unitExp (code : Nat) (man : Nat) (exp : Int) : Int :=
  let l := layout code
  max (log2Of man exp) (1 - l.bias) - l.sigBits

/-- A value in a float format with its flags (R103, R104, R120). -/
def toFloat (code : Nat) (nosat : Bool) (m : Rnd) : Num → Nat × Flags
  | .nan sig => if 7 ≤ code then (0, fNV) else (signedBits code false (nanBits code), flagIf sig fNV)
  | .inf neg =>
    if saturates code nosat then (signedBits code neg (maxMag code), fSAT)
    else if code = 5 then (0x7F, fNV)
    else (signedBits code neg (infBits code), 0)
  | .fin neg 0 _ => (signedBits code neg 0, 0)
  | .fin neg man exp =>
    let l := layout code
    let e := unitExp code man exp
    let (n, inexact) := roundGrid m man exp e
    let mag := ((e + l.sigBits + l.bias) * 2 ^ l.sigBits + n - 2 ^ l.sigBits : Int).toNat
    if maxMag code < mag then
      if saturates code nosat then (signedBits code neg (maxMag code), fSAT ||| fNX)
      else if m = .rtz then (signedBits code neg (maxMag code), fOF ||| fNX)
      else if code = 5 then (0x7F, fOF ||| fNX)
      else (signedBits code neg (infBits code), fOF ||| fNX)
    else
      (signedBits code neg mag, flagIf inexact fNX ||| flagIf (inexact && decide (log2Of man exp < 1 - l.bias)) fUF)

/-- A value in an integer of w bits, clamped (R103, R107): `clip` is set with NX by a clamp of a finite value, and
alone by an infinity. -/
def toInteger (w : Nat) (clip : Flags) (m : Rnd) : Num → Int × Flags
  | .nan _ => (0, fNV)
  | .inf neg => (if neg then -(2 ^ (w - 1) : Nat) else (2 ^ (w - 1) - 1 : Nat), clip)
  | .fin neg man exp =>
    let (n, inexact) := roundGrid m man exp 0
    let lim := if neg then 2 ^ (w - 1) else 2 ^ (w - 1) - 1
    let x : Nat := min n lim
    (if neg then -(x : Int) else x, if lim < n then clip ||| fNX else flagIf inexact fNX)

/-- The order of two magnitudes m · 2^e. -/
def cmpMag (a b : Nat × Int) : Ordering :=
  let e := min a.2 b.2
  compare (a.1 * 2 ^ (a.2 - e).toNat) (b.1 * 2 ^ (b.2 - e).toNat)

/-- The 24-bit significand of the FP32 value nearest 2^((f + 0.5)/8). -/
def log8Half : Nat → Nat
  | 0 => 0x85AAC3
  | 1 => 0x91C3D3
  | 2 => 0x9EF532
  | 3 => 0xAD583F
  | 4 => 0xBD08A4
  | 5 => 0xCE248C
  | 6 => 0xE0CCDF
  | _ => 0xF5257D

/-- The value of LOG8 code k, 0 for k = 0 and 2^8 for k = 128. -/
def log8Value (k : Nat) : Nat × Int := if k = 0 then (0, 0) else log8Mag (k - 64)

/-- The threshold between codes k and k + 1 (R104, R105). -/
def log8Threshold (k : Nat) : Nat × Int :=
  if k = 0 then ((log8Mag (-63)).1, (log8Mag (-63)).2 - 1)
  else (log8Half (((k : Int) - 64) % 8).toNat, ((k : Int) - 64) / 8 - 23)

/-- The LOG8 magnitude code of a nonzero magnitude, 128 for one beyond the range (R105, R109, R537). -/
def log8Code (m : Rnd) (x : Nat × Int) : Nat :=
  let below := ((List.range 128).filter fun k => cmpMag (log8Threshold k) x == .lt).length
  let floor := ((List.range 129).filter fun k => cmpMag (log8Value k) x != .gt).length - 1
  match m with
  | .rne => if below < 128 ∧ below % 2 = 1 ∧ cmpMag (log8Threshold below) x = .eq then below + 1 else below
  | .rtz => floor
  | .stoch r =>
    if 128 ≤ floor then 128
    else
      let e := min x.2 (min (log8Value floor).2 (log8Value (floor + 1)).2)
      let at' (y : Nat × Int) : Nat := y.1 * 2 ^ (y.2 - e).toNat
      let lo := at' (log8Value floor)
      if r < (at' x - lo) * 2 ^ 32 / (at' (log8Value (floor + 1)) - lo) then floor + 1 else floor

/-- A value in LOG8 (R103, R105, R120). -/
def toLog8 (nosat : Bool) (m : Rnd) : Num → Nat × Flags
  | .nan sig => (0x80, flagIf sig fNV)
  | .inf neg => if nosat then (0x80, fNV) else (0x7F + neg.toNat * 128, fSAT)
  | .fin _ 0 _ => (0, 0)
  | .fin neg man exp =>
    let k := log8Code m (man, exp)
    let beyond := cmpMag (log8Value 127) (man, exp) == .lt
    if 128 ≤ k ∨ (m = .rtz ∧ beyond) then
      if !nosat then (0x7F + neg.toNat * 128, fSAT ||| fNX)
      else if m = .rtz then (0x7F + neg.toNat * 128, fOF ||| fNX)
      else (0x80, fOF ||| fNX)
    else
      let inexact := cmpMag (log8Value k) (man, exp) != .eq
      (if k = 0 then 0 else k + neg.toNat * 128,
       flagIf inexact fNX ||| flagIf (inexact && cmpMag (man, exp) (log8Value 1) == .lt) fUF)

/-- The conversion into format codes 0 to 12 (R103). -/
def toElem (code : Nat) (nosat : Bool) (m : Rnd) (x : Num) : Nat × Flags :=
  if code = 10 then let (n, f) := toInteger 8 fSAT m x; (unsigned 8 n, f)
  else if code = 11 then let (n, f) := toInteger 4 fSAT m x; (unsigned 4 n, f)
  else if code = 12 then toLog8 nosat m x
  else toFloat code nosat m x

/-! ## Exact arithmetic -/

def Num.neg : Num → Num
  | .fin n m e => .fin (!n) m e
  | .inf n => .inf (!n)
  | .nan s => .nan s

/-- The exact product; a NaN that it generates is quiet (R89, R120). -/
def Num.mul (a b : Num) : Num × Flags :=
  match a, b with
  | .nan s, .nan t => (.nan false, flagIf (s || t) fNV)
  | .nan s, _ => (.nan false, flagIf s fNV)
  | _, .nan t => (.nan false, flagIf t fNV)
  | .inf x, .inf y => (.inf (x != y), 0)
  | .inf x, .fin y m _ => if m = 0 then (.nan false, fNV) else (.inf (x != y), 0)
  | .fin x m _, .inf y => if m = 0 then (.nan false, fNV) else (.inf (x != y), 0)
  | .fin x m e, .fin y n d => (.fin (x != y) (m * n) (e + d), 0)

/-- A finite value times 2^k. -/
def Num.scale (k : Int) : Num → Num
  | .fin n m e => .fin n m (e + k)
  | x => x

def Num.expOf : Num → Int
  | .fin _ _ e => e
  | _ => 0

/-- A finite value as a multiple of 2^e, for e no greater than its own exponent. -/
def Num.units (e : Int) : Num → Int
  | .fin n m x => (if n then -1 else 1) * ((m * 2 ^ (x - e).toNat : Nat) : Int)
  | _ => 0

def Num.isNeg : Num → Bool
  | .fin n _ _ => n
  | .inf n => n
  | .nan _ => false

/-- The exact sum of several terms (R111). -/
def sumNums (ts : List Num) : Num × Flags :=
  if ts.any Num.isNan then (.nan false, flagIf (ts.contains (.nan true)) fNV)
  else if ts.contains (.inf false) ∧ ts.contains (.inf true) then (.nan false, fNV)
  else if ts.contains (.inf false) then (.inf false, 0)
  else if ts.contains (.inf true) then (.inf true, 0)
  else
    let e := ts.foldl (fun a t => min a t.expOf) 0
    let n := ts.foldl (fun a t => a + t.units e) (0 : Int)
    if n = 0 then (.fin (!ts.isEmpty && ts.all Num.isNeg) 0 0, 0) else (numOfInt n e, 0)

/-- The order of two values that are no NaN, with -0 below +0 where `zeros` holds. -/
def Num.less (zeros : Bool) (a b : Num) : Bool :=
  match a, b with
  | .inf x, .inf y => x && !y
  | .inf x, _ => x
  | _, .inf y => !y
  | .fin x m e, .fin y n d =>
    let f := min e d
    let p := (Num.fin x m e).units f
    let q := (Num.fin y n d).units f
    decide (p < q) || (zeros && decide (m = 0 ∧ n = 0) && x && !y)
  | _, _ => false

/-- IEEE minimumNumber and maximumNumber (R48, R202). -/
def Num.minMax (hi : Bool) (a b : Num) : Num × Flags :=
  let nv := flagIf (a == .nan true || b == .nan true) fNV
  if a.isNan then (if b.isNan then .nan false else b, nv)
  else if b.isNan then (a, nv)
  else if hi then (if a.less true b then b else a, nv)
  else (if b.less true a then b else a, nv)

/-- Rounds to FP32 (code 1) or FP64 (code 0). -/
def toFp32 (m : Rnd) (x : Num) : Nat × Flags := toFloat 1 true m x

def ofFp32 (x : Nat) : Num := decodeFloat 1 x

end Sys2Proof.Machine
end

