-- ==== Sys2Proof/Machine/Issue.lean ====
section
/-! DEFINITION. Issuing operations: translation of context addresses (R189 to R193), the HBM interleave (R194), the
owning port of an address (R198), the cells of each request (R201) and the status of a completion (R218, R219). -/

namespace Sys2Proof.Machine

/-! ## Translation (R189, R193) -/

/-- Bits of the rights in a segment entry (R190). -/
def rightR : Nat := 105
def rightW : Nat := 106
def rightA : Nat := 107
def rightH : Nat := 108

def State.segEntry (s : State) (i : Nat) : Nat := (Tbl.look 0 s.fab.seg i).toNat

/-- The fabric address of a context address, or none where translation fails with cause SEGMENT. -/
def State.translate (s : State) (ctx ca right : Nat) (host : Bool := false) : Option Nat :=
  let e := s.segEntry (512 * ctx + bitsAt ca 39 9)
  let off := bitsAt ca 0 39
  if 2 ^ 48 ≤ ca then none
  else if !bitAt e 104 || !bitAt e right || (host && !bitAt e rightH) then none
  else if bitsAt e 64 39 < off then none
  else some (bitsAt e 0 64 + off)

/-! ## Fabric addresses (R185, R186) and the interleave (R194) -/

def faPkg (fa : Nat) : Nat := bitsAt fa 54 6
def faLocal (fa : Nat) : Nat := bitsAt fa 0 46
def faRes0 (fa : Nat) : Bool := bitsAt fa 46 8 != 0 || bitsAt fa 60 4 != 0

/-- An 11-bit rotation to the left. -/
def rotl11 (x r : Nat) : Nat := (x * 2 ^ r + x / 2 ^ (11 - r)) % 2 ^ 11

/-- The pseudo-channel number h of an HBM address under a salt. -/
def hbmPseudo (salt : BitVec 19) (a : Nat) : Nat :=
  let g := bitsAt a 8 33
  let r1 := bitsAt salt.toNat 0 4 % 11
  let r2 := bitsAt salt.toNat 4 4 % 11
  bitsAt g 0 11 ^^^ rotl11 (bitsAt g 11 11) r1 ^^^ rotl11 (bitsAt g 22 11) r2 ^^^ bitsAt salt.toNat 8 11

def hbmStack (p : Nat) : Nat := p % 32

/-- The granule within its pseudo-channel. -/
def hbmIndex (a : Nat) : Nat := bitsAt a 19 22

/-- The HBM address of a granule of pseudo-channel p: the inverse of the interleave. -/
def hbmAddress (salt : BitVec 19) (p index : Nat) : Nat :=
  let u := bitsAt index 0 11
  let w := bitsAt index 11 11
  let r1 := bitsAt salt.toNat 0 4 % 11
  let r2 := bitsAt salt.toNat 4 4 % 11
  let low := p ^^^ rotl11 u r1 ^^^ rotl11 w r2 ^^^ bitsAt salt.toNat 8 11
  (index * 2048 + low) * 256

/-- The port that owns a local address (R198). -/
def State.portOf (s : State) (a : Nat) : Option Nat :=
  match regionOf a with
  | .hbm => some (16 + hbmStack (hbmPseudo s.hbm.salt a))
  | .cream c _ => some c
  | .tile v _ _ => some (vatPort v)
  | .register _ => some 52
  | .unmapped => none

/-- Why an operation on a local address of this package is answered SOUR, if it is (R186, R188, R202). -/
def State.targetDown (s : State) (a : Nat) : Option SourCause :=
  match regionOf a with
  | .hbm => if s.stackIn (hbmStack (hbmPseudo s.hbm.salt a)) then none else some .dark
  | .cream c _ =>
    if !s.creamIn c || s.inv.dieInReset.getLsbD (c / 2) || (s.cream c).mode == .retired || (s.cream c).mode == .reset
    then some .dark else none
  | .tile v _ _ => if !s.vatIn v || s.inv.dieInReset.getLsbD (v / 4) then some .dark else none
  | .register _ => some .unmapped
  | .unmapped => some .unmapped

/-! ## Statuses (R218, R219) -/

/-- The bucket of a hold or excess latency in ns. -/
def bucketOf (ns : Nat) : BitVec 3 :=
  if ns = 0 then 0 else if ns ≤ 1000 then 1 else if ns ≤ 4000 then 2 else if ns ≤ 16000 then 3 else if ns ≤ 64000 then 4
  else if ns ≤ 256000 then 5 else if ns ≤ 1000000 then 6 else 7

def Status.rank : Status → Nat
  | .ok b => b.toNat
  | .refusedCapacity => 8
  | .refusedQuota => 9
  | .sour _ => 10

/-- The worse of two statuses (R204). -/
def Status.worst (a b : Status) : Status := if a.rank < b.rank then b else a

/-- The completion status as the records of R226 carry it (log 26). -/
def Status.code : Status → Nat
  | .ok 0 => 0
  | .ok _ => 1
  | .refusedCapacity => 2
  | .refusedQuota => 3
  | .sour _ => 4

def Status.delayed : Status → Bool
  | .ok b => b != 0
  | _ => false

/-- The record code of a failed status (R226). -/
def Status.record : Status → W16
  | .sour c => c.record
  | _ => 0x0A07

/-- The details of R226: the address, the tag, the issuing unit and the completion status. -/
def failDetails (addr : W64) (tag : W16) (unit : W16) (st : Status) : List W64 :=
  [addr, tag.zeroExtend 64, unit.zeroExtend 64, BitVec.ofNat 64 st.code]

def State.countSour (s : State) (st : Status) : State :=
  match st with
  | .sour c =>
    let timeouts := if c = .timeout then bump s.fab.timeoutCnt else s.fab.timeoutCnt
    { s with fab := { s.fab with sourCnt := bump s.fab.sourCnt, timeoutCnt := timeouts } }
  | _ => s

/-- The status of an operation whose responses are all in: the worst of them, and for a performed one the greater of
their DELAY and the bucket of the excess latency. -/
def State.opStatus (s : State) (o : Op) : Status :=
  let worst : Status := o.got.foldl (fun (a : Status) g => a.worst g.2) (Status.ok 0)
  match worst with
  | .ok b =>
    let nominal := if o.dpkg = s.fab.pkgId.toNat then s.fab.latLocal.toNat else s.fab.latPod.toNat
    let late := bucketOf ((s.clk.now - o.issuedAt).toNat - nominal)
    let most := if b < late then late else b
    .ok (if o.retried ∧ most = 0 then 1 else most)
  | x => x

/-! ## Request cells (R201) -/

def ldCells (own dpkg dport port cls ctx tag fa count : Nat) : List Cell :=
  [{ hdr := mkHdr dpkg dport own port opLD cls ctx tag 0, payload := BitVec.ofNat 512 (packBits [(0, 64, fa), (64, 8, count)]) }]

/-- A store of consecutive cells, each with its byte mask. -/
def stCells (own dpkg dport port cls ctx tag fa : Nat) (cells : List (Nat × BitVec 512)) : List Cell :=
  let masks := cells.zipIdx.map fun ((m, _), i) => (128 + 64 * i, 64, m)
  { hdr := mkHdr dpkg dport own port opST cls ctx tag 0,
    payload := BitVec.ofNat 512 (packBits ([(0, 64, fa), (64, 8, cells.length)] ++ masks)) } ::
  cells.zipIdx.map fun ((_, d), i) => { hdr := mkHdr dpkg dport own port opSTD cls ctx tag (i + 1), payload := d }

def atomCells (own dpkg dport port cls ctx tag fa asub operand compare : Nat) : List Cell :=
  [{ hdr := mkHdr dpkg dport own port opATOM cls ctx tag 0,
     payload := BitVec.ofNat 512 (packBits [(0, 64, fa), (64, 8, asub), (128, 64, operand), (192, 64, compare)]) }]

def fullMask : Nat := 2 ^ 64 - 1

/-! ## Sending an operation -/

/-- Why an operation on a fabric address fails at its issuer, and otherwise the destination port for its cells (R185,
R186, R198, R222). -/
def State.routeOf (s : State) (port fa : Nat) : Except SourCause Nat :=
  if faRes0 fa then .error .unmapped
  else if faPkg fa = s.fab.pkgId.toNat then
    match regionOf (faLocal fa), s.portOf (faLocal fa) with
    | .register _, _ => .error .unmapped
    | _, some q => if (Tbl.look 0 s.fab.noticed port).getLsbD q || s.severedPair port q then .error .dark else .ok q
    | _, none => .error .unmapped
  else .ok 63

/-- Sends an operation under a fresh tag. `build` makes its cells from the destination package and port and the tag.
An operation that fails at the issuer is not sent: the cause comes back. -/
def State.sendOp (s : State) (port ctx : Nat) (issuer : Issuer) (fa expect : Nat) (build : Nat → Nat → Nat → List Cell) :
    Option SourCause × State :=
  match s.routeOf port fa with
  | .error c => (some c, s)
  | .ok q =>
    let (t, s1) := s.takeTag port
    let cells := build (faPkg fa) q t.toNat
    let o : Op := { port := port, tag := t, ctx := ctx, issuer := issuer, addr := BitVec.ofNat 64 fa, cells := cells,
                    expect := expect, issuedAt := s.clk.now, heard := s.clk.now }
    (none, State.launchAll { s1 with fab := { s1.fab with ops := s1.fab.ops ++ [o] } } cells)

/-- Groups consecutive cells of one 256-byte granule (R208): each cell is its index and its fabric address. -/
def groupCells (cells : List (Nat × Nat)) : List (List (Nat × Nat)) :=
  cells.foldl (fun gs c => match gs.getLast?.bind List.getLast? with
    | some (_, a) => if c.2 = a + 64 ∧ c.2 / 256 = a / 256 then gs.dropLast ++ [(gs.getLast?.getD []) ++ [c]] else gs ++ [[c]]
    | none => gs ++ [[c]]) []

/-! ## Traps of the sequencer (R72) -/

/-- A trap in plane p of a vat: VAT_FAULT, SEQ_CAUSE and SEQ_TVAL take it, and its context faults with the record
given. Nothing for a context that is FREE or FAULTED. -/
def State.trap (s : State) (p cause : Nat) (tval : W64) (code : W16 := 0x0801) (details : List W64 := []) : State :=
  let v := p / 2
  match (s.plane p).ctx with
  | none => s
  | some c =>
    if (s.ctx c).state = .free ∨ (s.ctx c).state = .faulted then s
    else
      let bits : BitVec 4 := 2 ||| (if cause = 26 then 1 else 0) ||| (if cause = 28 then 4 else 0)
      let ds := if code = 0x0801 then [BitVec.ofNat 64 cause, (s.plane p).pc, tval] else details
      (s.onVat v fun x => { x with fault := x.fault ||| bits, causeCode := BitVec.ofNat 8 cause,
                                   causeCtx := BitVec.ofNat 6 c, tval := tval }).ctxFault c code (unitVat v) ds

/-! ## Completions at the sequencer and the ladles (R69, R76, R77) -/

/-- Writes an integer register; x0 stays 0. -/
def Plane.setX (p : Plane) (rd : RegNo) (x : W64) : Plane := if rd = 0 then p else { p with x := Tbl.put 0 p.x rd.toNat x }

def Plane.getX (p : Plane) (r : RegNo) : W64 := if r = 0 then 0 else Tbl.look 0 p.x r.toNat

def planeIx (v : Nat) (b : Bool) : Nat := 2 * v + b.toNat

/-- An n-byte value taken from a register or a cell, extended to 64 bits. -/
def extendTo64 (n : Nat) (zeroExt : Bool) (x : Nat) : W64 :=
  if zeroExt then BitVec.ofNat 64 (x % 2 ^ (8 * n)) else BitVec.ofNat 64 (unsigned 64 (signed (8 * n) x))

/-- Notes an OK_DELAYED completion of unit u of plane p: ladle 0 to 7, or 8 the sequencer (R71). -/
def State.noteDelayed (s : State) (p u : Nat) (st : Status) : State :=
  if st.delayed then s.onPlane p fun x => { x with delayed := bvSet x.delayed u true } else s

/-- A sequencer access completes; `data` is the cell or old value that came back. -/
def State.seqDone (s : State) (p : Nat) (st : Status) (rd : Option RegNo) (value : W64) (addr : W64) (tag : W16)
    (isLoad : Bool) : State :=
  let s1 := match rd with
    | some r => s.onPlane p fun x => { (if st.failed then x else x.setX r value) with busy := bvSet x.busy r.toNat false }
    | none => s
  if st.failed then
    s1.trap p (if isLoad then 5 else 27) addr st.record (failDetails addr tag (unitVat (p / 2)) st)
  else s1.noteDelayed p 8 st

/-- Cells of a load iteration complete; the worst status and its address stay with the iteration until it is taken. -/
def State.ladleCells (s : State) (p k iter n : Nat) (st : Status) (addr : W64) (tag : W16) : State :=
  let step (i : LadleIter) : LadleIter :=
    if i.id = iter then
      { i with cellsLeft := i.cellsLeft - n, worst := i.worst.worst st,
               badAddr := if i.worst.rank < st.rank then addr else i.badAddr,
               badTag := if i.worst.rank < st.rank then tag else i.badTag }
    else i
  s.onPlane p fun x => x.onLadle k fun l => { l with iters := l.iters.map step }

/-- Cells of a store iteration complete: a failure faults the context at once (R77), and an acknowledged iteration is
forgotten. -/
def State.ladleStored (s : State) (p k iter n : Nat) (st : Status) (addr : W64) (tag : W16) : State :=
  let s1 := ((s.ladleCells p k iter n st addr tag).noteDelayed p k st).onPlane p fun x => x.onLadle k fun l =>
    { l with iters := l.iters.filter fun i => !(i.store && i.id == iter && i.cellsLeft == 0) }
  if st.failed then s1.trap p 27 addr st.record (failDetails addr tag (unitVat (p / 2)) st) else s1

end Sys2Proof.Machine
end

