-- ==== Sys2Proof/Machine/Banks.lean ====
section
/-! DEFINITION. What the banks and the HBM controllers do with a word: atomics (R162, R163, R202), ECC of the SRAMs
(R169, R170) and of HBM (R316 to R318), and the atomic buffer (R314). -/

namespace Sys2Proof.Machine

/-! ## Atomics -/

def fp32Add (a b : Nat) : Nat := (toFp32 .rne (sumNums [ofFp32 a, ofFp32 b]).1).1

/-- One half of a bf16x2 add. -/
def bf16Add (a b : Nat) : Nat := (toFloat 3 true .rne (sumNums [decodeFloat 3 a, decodeFloat 3 b]).1).1

def fp32MinMax (hi : Bool) (a b : Nat) : Nat := (toFp32 .rne (Num.minMax hi (ofFp32 a) (ofFp32 b)).1).1

/-- Bytes of the operand of an ASUB code (R202). -/
def atomWidth (asub : Nat) : Nat := if asub = 1 ∨ asub = 5 ∨ asub = 6 then 8 else 4

/-- The new value of a word (R162, R163, R202); old, operand and compare have the operand's width. -/
def atomNew (asub old operand compare : Nat) : Nat :=
  match asub with
  | 0 => (old + operand) % 2 ^ 32
  | 1 => (old + operand) % 2 ^ 64
  | 2 => fp32Add old operand
  | 3 => bf16Add (bitsAt old 0 16) (bitsAt operand 0 16) + bf16Add (bitsAt old 16 16) (bitsAt operand 16 16) * 2 ^ 16
  | 4 => operand
  | 5 => operand
  | 6 => if old = compare then operand else old
  | 7 => if signed 32 operand < signed 32 old then operand else old
  | 8 => if signed 32 old < signed 32 operand then operand else old
  | 9 => fp32MinMax false old operand
  | _ => fp32MinMax true old operand

/-- A 64-byte cell with the n-byte word at an offset replaced. -/
def putWord (c : BitVec 512) (off n v : Nat) : BitVec 512 := BitVec.ofNat 512 (withBits c.toNat (8 * off) (8 * n) v)

def getWord (c : BitVec 512) (off n : Nat) : Nat := bitsAt c.toNat (8 * off) (8 * n)

/-- A cell with the bytes of a mask replaced. -/
def mergeCell (old new : BitVec 512) (mask : Nat) : BitVec 512 :=
  BitVec.ofNat 512 (leNat ((List.range 64).map fun i => BitVec.ofNat 8
    (bitsAt (if bitAt mask i then new.toNat else old.toNat) (8 * i) 8)))

/-! ## ECC of the SRAMs (R169, R170) -/

/-- Whether an 8-byte lane of a range holds an uncorrectable error. -/
def State.badIn (s : State) (a n : Nat) : Bool := s.fab.bad.any fun e => decide (a ≤ 8 * e.1 ∧ 8 * e.1 < a + n)

def State.setBad (s : State) (a : Nat) : State :=
  { s with fab := { s.fab with bad := Tbl.put false s.fab.bad (a / 8) true } }

/-- A full-word write clears the error (R170). -/
def State.clearBad (s : State) (a n : Nat) : State :=
  { s with fab := { s.fab with bad := s.fab.bad.filter fun e => !(decide (a ≤ 8 * e.1 ∧ 8 * e.1 < a + n)) } }

/-- Sides that CRM_UE names (log 28). -/
def sideTile : W64 := 0
def sideFabric : W64 := 1
def sideScrub : W64 := 2

/-- The cream die that counts an SRAM address's errors, whether the address is a tile store's, and its unit (R184). -/
def sramOwner (a : Nat) : Nat × Bool × W16 :=
  match regionOf a with
  | .tile v _ _ => (vatPort v, true, unitVat v)
  | .cream c _ => (c, false, unitCream c)
  | _ => (0, false, unitPackage)

/-- CRM_CE: a corrected lane. -/
def State.sramCorrected (s : State) (a lane : Nat) : State :=
  let (c, ts, u) := sramOwner a
  (s.onCream c fun x => if ts then { x with tsCe := bump x.tsCe } else { x with ce := bump x.ce }).note 0x6001 .corrected u
    [BitVec.ofNat 64 a, BitVec.ofNat 64 lane]

/-- CRM_UE: an uncorrectable lane, met by a side. -/
def State.sramUncorrectable (s : State) (a : Nat) (side : W64) : State :=
  let (c, ts, u) := sramOwner a
  (s.onCream c fun x =>
    { (if ts then { x with tsUe := bump x.tsUe } else { x with ue := bump x.ue }) with lastUe := BitVec.ofNat 64 a }).note
    0x6002 .info u [BitVec.ofNat 64 a, side]

/-- A read of n bytes of SRAM, with what its decoder finds: whether it is usable, and the state with the records. An
error once found stays until a full write. -/
def State.sramRead (s : State) (a n : Nat) (ecc : Ecc) (side : W64) : Bool × State :=
  if s.badIn a n then (false, s.sramUncorrectable a side)
  else match ecc with
    | .clean => (true, s)
    | .corrected lane => (true, s.sramCorrected a lane)
    | .uncorrectable => (false, (s.setBad a).sramUncorrectable a side)

/-! ## HBM (R314 to R318) -/

/-- A cell of HBM as its controller reads it: from the atomic buffer, else from the stack. -/
def State.hbmCell (s : State) (p a : Nat) : BitVec 512 :=
  ((s.pseudo p).buffer.lookup a).getD (s.cellAt a)

/-- A cell written: into the buffer where it is held there. -/
def State.setHbmCell (s : State) (p a : Nat) (c : BitVec 512) : State :=
  if ((s.pseudo p).buffer.lookup a).isSome then
    s.onPseudo p fun x => { x with buffer := x.buffer.map fun e => if e.1 = a then (a, c) else e }
  else s.setCell a c

/-- Takes a cell into the buffer of 32; the oldest one goes back (R314). -/
def State.bufferCell (s : State) (p a : Nat) : State :=
  let b := (s.pseudo p).buffer
  if (b.lookup a).isSome then s
  else
    let back := b.drop 31
    let s1 := back.foldl (fun st e => st.setCell e.1 e.2) s
    s1.onPseudo p fun x => { x with buffer := (a, s.cellAt a) :: b.take 31 }

/-- Writes the buffer of a pseudo-channel back. -/
def State.flushBuffer (s : State) (p : Nat) : State :=
  ((s.pseudo p).buffer.foldl (fun st e => st.setCell e.1 e.2) s).onPseudo p fun x => { x with buffer := [] }

/-- HBM_CE: at most one record per pseudo-channel per second, with the count since the last (R316). -/
def State.noteHbmCe (s : State) (p : Nat) : State :=
  let x := s.pseudo p
  let due := match x.ceRecTime with
    | none => true
    | some t => decide (t.toNat + 1000000000 ≤ s.time)
  let n := x.ceSince + 1
  if due then
    (s.onPseudo p fun y => { y with ceSince := 0, ceRecTime := some s.clk.now }).note 0x0B01 .corrected (unitStack (hbmStack p))
      [BitVec.ofNat 64 p, BitVec.ofNat 64 n]
  else s.onPseudo p fun y => { y with ceSince := n }

/-- Distinct cells that a die has corrected within 3,600 s (R317). -/
def dieCells (hits : List DieHit) (die now : Nat) : Nat :=
  ((hits.filter fun h => h.die == die && decide (now ≤ h.time.toNat + 3600 * 10 ^ 9)).map DieHit.addr).eraseDups.length

/-- Marks a die that has reached the threshold, or writes HBM_MARK_EXHAUSTED for a second one. -/
def State.markDie (s : State) (p die : Nat) : State :=
  let x := s.pseudo p
  if dieCells x.hits die s.time < 8 then s
  else if !x.marked then
    (s.onPseudo p fun y => { y with marked := true, markDie := BitVec.ofNat 4 die }).note 0x0B03 .corrected
      (unitStack (hbmStack p)) [BitVec.ofNat 64 p, BitVec.ofNat 64 die]
  else if x.markDie.toNat = die ∨ x.exhausted then s
  else (s.onPseudo p fun y => { y with exhausted := true }).record 0x0B04 .unit (unitStack (hbmStack p)) none
    [BitVec.ofNat 64 p, BitVec.ofNat 64 die]

/-- A correction attributed to a die. -/
def State.hbmCorrected (s : State) (p a die : Nat) : State :=
  let s1 := { s with hbm := { s.hbm with ce := bump s.hbm.ce } }.onStack (hbmStack p) fun x => { x with ce := bump x.ce }
  let s2 := s1.onPseudo p fun x =>
    { x with hits := { die := die, addr := a, time := s.clk.now } ::
      x.hits.filter fun h => decide (s.time ≤ h.time.toNat + 3600 * 10 ^ 9) }
  ((s2.noteHbmCe p).markDie p die)

/-- HBM_UE (R318, R319). -/
def State.hbmUncorrectable (s : State) (p a : Nat) (scrub : Bool) : State :=
  let s1 := { s with hbm := { s.hbm with ue := bump s.hbm.ue, lastUe := BitVec.ofNat 64 a } }.onStack (hbmStack p) fun x =>
    { x with ue := bump x.ue }
  s1.note 0x0B02 .info (unitStack (hbmStack p)) [BitVec.ofNat 64 a, BitVec.ofNat 64 scrub.toNat]

/-- A read of one cell of HBM, with what the decoder finds. -/
def State.hbmRead (s : State) (p a : Nat) (ecc : Ecc) (scrub : Bool) : Bool × State :=
  if s.badIn a 64 then (false, s.hbmUncorrectable p a scrub)
  else match ecc with
    | .clean => (true, s)
    | .corrected die => (true, s.hbmCorrected p a (die % 16))
    | .uncorrectable => (false, (s.setBad a).hbmUncorrectable p a scrub)

/-! ## Memory as the controller reads it -/

/-- A 64-byte cell at a local address, with the HBM atomic buffers seen. -/
def State.localCell (s : State) (a : Nat) : BitVec 512 :=
  match regionOf a with
  | .hbm => s.hbmCell (hbmPseudo s.hbm.salt a) a
  | _ => s.cellAt a

/-- n bytes from a local address on. -/
def State.localBytes (s : State) (a n : Nat) : List Byte :=
  ((List.range (cellSpan a n)).flatMap fun i => leBytes 64 (s.localCell (64 * (a / 64 + i))).toNat).drop (a % 64) |>.take n

/-- Stores a cell at a local address, into a buffer that holds it. -/
def State.setLocalCell (s : State) (a : Nat) (c : BitVec 512) : State :=
  match regionOf a with
  | .hbm => s.setHbmCell (hbmPseudo s.hbm.salt a) a c
  | _ => s.setCell a c

end Sys2Proof.Machine
end

