-- ==== Sys2Proof/Machine/Rdma.lean ====
section
/-! DEFINITION. The RDMA responder: queue pairs, their messages and what the host is answered (R427 to R434). -/

namespace Sys2Proof.Machine

/-! ## Messages as cells -/

/-- The mask and data of cell i of a message stored at address a (R205, R429). -/
def messageCell (a : Nat) (bytes : List Byte) (i : Nat) : Nat × BitVec 512 :=
  let byteOf (j : Nat) : Option Byte :=
    if 64 * i + j < a % 64 then none else bytes[64 * i + j - a % 64]?
  (maskOf 64 fun j => (byteOf j).isSome,
   BitVec.ofNat 512 (leNat ((List.range 64).map fun j => (byteOf j).getD 0)))

/-- Bytes o to o + n - 1 of a message read from address a, out of the cells that came back. -/
def cellsBytes (a : Nat) (got : List (Nat × BitVec 512)) (o n : Nat) : List Byte :=
  (List.range n).map fun k =>
    let x := a % 64 + o + k
    BitVec.ofNat 8 (bitsAt ((got.lookup (x / 64)).getD 0).toNat (8 * (x % 64)) 8)

def packetBytes (m : QpMsg) (k : Nat) : Nat := min 4096 (m.length - 4096 * k)
def packetCount (m : QpMsg) : Nat := max 1 (ceilDiv m.length 4096)

/-- The cell indices of READ response packet k. -/
def packetCells (m : QpMsg) (k : Nat) : List Nat :=
  let a := m.addr.toNat % 64 + 4096 * k
  (List.range (cellSpan a (packetBytes m k))).map fun i => a / 64 + i

/-! ## Answers and outcomes (R433, R434) -/

def State.onMsg (s : State) (q id : Nat) (f : QpMsg → QpMsg) : State :=
  s.onQp q fun x => { x with msgs := x.msgs.map fun m => if m.id = id then f m else m }

/-- One cell of a message completes; a cell that came back is kept for a READ. -/
def State.rdmaCell (s : State) (q id i : Nat) (st : Status) (addr : W64) (data : Option (BitVec 512)) : State :=
  s.onMsg q id fun m => { m with
    left := m.left - 1, worst := m.worst.worst st,
    got := match data with
      | some d => if st.failed then m.got else m.got ++ [(i, d)]
      | none => m.got,
    fails := if st.failed then m.fails ++ [(i, st, addr)] else m.fails }

/-- The final outcome of an operation in ETH_QP_STAT. -/
def Qp.outcome (x : Qp) (st : Status) : Qp :=
  let cause : BitVec 4 := match st with
    | .sour c => BitVec.ofNat 4 c.code
    | _ => 0
  let bucket : BitVec 3 := match st with
    | .ok b => b
    | _ => 0
  { x with lastStatus := BitVec.ofNat 3 st.code, lastCause := cause, lastBucket := bucket,
           delayedCnt := if st.delayed then bump x.delayedCnt else x.delayedCnt }

/-- A failed operation: the NAK of R433, the error state, and RDMA_FAIL. -/
def State.rdmaFails (s : State) (q : Nat) (psn : BitVec 24) (st : Status) (addr : W64) : State :=
  let nak := if st = .sour .segment then HostTx.nakAccess q psn else HostTx.nakOperational q psn
  let c := (s.qp q).ctx
  ((s.hostSend nak).onQp q fun x => { x.outcome st with state := .error, msgs := [] }).note 0x0604 .info unitHost
    [BitVec.ofNat 64 q, c.zeroExtend 64, addr, st.record.zeroExtend 64] (some c.toNat)

/-- A NAK that answers the form of a request, not its cells (R428, R429, R431). -/
def State.rdmaNak (s : State) (q : Nat) (x : HostTx) : State :=
  (s.hostSend x).onQp q fun y => { y with state := .error, msgs := [] }

/-- REFUSED_CAPACITY: an RNR NAK with the timer of ETH_CFG (R432). -/
def State.rdmaRefuse (s : State) (q : Nat) (psn : BitVec 24) : State :=
  (s.hostSend (.nakRnr q psn (s.eth.cfg.extractLsb' 24 5))).onQp q fun x =>
    { x.outcome .refusedCapacity with refusedCnt := bump x.refusedCnt }

/-- The next READ response packet, where its cells have completed. -/
def State.rdmaPacket (s : State) (q : Nat) (m : QpMsg) : Option State :=
  let cells := packetCells m m.sent
  let psn := m.psn + BitVec.ofNat 24 m.sent
  match m.fails.find? fun f => cells.contains f.1 with
  | some (_, st, addr) => some (s.rdmaFails q psn st addr)
  | none =>
    if cells.all fun i => (m.got.lookup i).isSome then
      some ((s.hostSend (.rdmaRead q psn (cellsBytes m.addr.toNat m.got (4096 * m.sent) (packetBytes m m.sent)))).onMsg q m.id
        fun x => { x with sent := x.sent + 1 })
    else none

/-- Drops a finished message with its outcome. -/
def State.rdmaDone (s : State) (q : Nat) (m : QpMsg) : State :=
  s.onQp q fun x => { x.outcome m.worst with msgs := x.msgs.filter fun y => y.id != m.id }

/-- What the oldest message of a pair can do now: a READ sends packets, a finished message is answered. Answers leave in
the order of the requests. -/
def State.rdmaHead (s : State) (q : Nat) : Option State :=
  match (s.qp q).msgs with
  | [] => none
  | m :: _ =>
    if !m.issued then none
    else if m.isRead then
      if m.sent < packetCount m then s.rdmaPacket q m else some (s.rdmaDone q m)
    else if m.left = 0 then
      match m.fails with
      | (_, st, addr) :: _ => some (s.rdmaFails q m.psn st addr)
      | [] => some ((s.hostSend (.rdmaAck q m.psn)).rdmaDone q m)
    else none

/-! ## Issue -/

/-- Sends the cells of a message (R429, R430): C2, from the I/O port. -/
def State.rdmaIssue (s : State) (q : Nat) (m : QpMsg) : State :=
  let ctx := (s.qp q).ctx.toNat
  let a := m.addr.toNat
  let cells := (List.range (cellSpan a m.length)).map fun i =>
    (i, 64 * (a / 64 + i), s.translate ctx (64 * (a / 64 + i)) (if m.isRead then rightR else rightW) true)
  let s1 := s.onMsg q m.id fun x => { x with issued := true }
  let s2 := (cells.filter fun c => c.2.2.isNone).foldl (fun st c =>
    (st.countSour (.sour .segment)).rdmaCell q m.id c.1 (.sour .segment) (BitVec.ofNat 64 c.2.1) none) s1
  let good := cells.filterMap fun c => c.2.2.map fun fa => (c.1, fa)
  (groupCells good).foldl (fun st g =>
    let first := (g.head?.map Prod.fst).getD 0
    let fa := (g.head?.map Prod.snd).getD 0
    let own := st.fab.pkgId.toNat
    let (bad, st1) := if m.isRead then
        st.sendOp 52 ctx (.rdmaRead q m.id first) fa g.length fun d p t => ldCells own d p 52 2 ctx t fa g.length
      else
        st.sendOp 52 ctx (.rdmaWrite q m.id) fa 1 fun d p t =>
          stCells own d p 52 2 ctx t fa (g.map fun c => messageCell a m.data c.1)
    match bad with
    | some c => g.foldl (fun u e => u.rdmaCell q m.id e.1 (.sour c) (BitVec.ofNat 64 e.2) none) (st1.countSour (.sour c))
    | none => st1) s2

/-- The first message that may be issued: a WRITE at once, a READ or SEND once every earlier WRITE and SEND is
acknowledged (R430). -/
def nextIssue : List QpMsg → Option QpMsg
  | [] => none
  | m :: ms =>
    if !m.issued then some m
    else if m.isRead then nextIssue ms
    else (ms.find? fun x => !x.issued && !x.isRead && !x.isSend)

/-- Issues and answers whatever the pair's messages allow. -/
def State.rdmaPump : Nat → Nat → State → State
  | 0, _, s => s
  | fuel + 1, q, s =>
    match nextIssue (s.qp q).msgs with
    | some m => State.rdmaPump fuel q (s.rdmaIssue q m)
    | none =>
      match s.rdmaHead q with
      | some s1 => State.rdmaPump fuel q s1
      | none => s

def State.pump (s : State) (q : Nat) : State :=
  State.rdmaPump ((s.qp q).msgs.foldl (fun n m => n + 3 + packetCount m) 1) q s

/-! ## Requests -/

/-- A packet marked CE is answered with a congestion notification, at most one per pair per 50 µs (R427). -/
def State.markCe (s : State) (q : Nat) (ce : Bool) : State :=
  let x := s.qp q
  let due := match x.cnpTime with
    | none => true
    | some t => decide (t.toNat + 50000 ≤ s.time)
  if ce && due && x.state != .free then
    let s1 := (s.hostSend (.cnp q)).onQp q fun y => { y with cnpTime := some s.clk.now }
    { s1 with eth := { s1.eth with cnpTx := bump s1.eth.cnpTx } }
  else s

/-- Takes a request of a READY pair: refused beyond the pair's CREDIT (R432), otherwise queued and pumped. -/
def State.takeMsg (s : State) (q : Nat) (m : QpMsg) : State :=
  let x := s.qp q
  let out := x.msgs.foldl (fun n y => n + y.left) 0
  if x.credit.toNat < out + m.left then s.rdmaRefuse q m.psn
  else (s.onQp q fun y => { y with nextMsg := y.nextMsg + 1, msgs := y.msgs ++ [{ m with id := y.nextMsg }] }).pump q

def newMsg (psn : BitVec 24) (isRead isSend : Bool) (addr : W64) (length : Nat) (data : List Byte) : QpMsg :=
  { id := 0, psn := psn, isRead := isRead, isSend := isSend, length := length, addr := addr,
    left := cellSpan addr.toNat length, issued := false, data := data, got := [], fails := [], sent := 0, worst := .ok 0 }

/-- A request that needs a READY pair, of at most 1 GiB (R428). -/
def State.rdmaRequest (s : State) (q : Nat) (psn : BitVec 24) (length : Nat) (ce : Bool) (f : State → State) : State :=
  let s1 := s.markCe q ce
  if (s1.qp q).state = .ready ∧ s1.eth.mode = .up then
    if 2 ^ 30 < length then s1.rdmaNak q (.nakInvalid q psn) else f s1
  else s1

def execRdmaWrite (q : QpId) (psn : BitVec 24) (rkey : W32) (va : W64) (bytes : List Byte) (ce : Bool) (s : State) :
    Host.Outcome State Fault Refusal :=
  .next (s.rdmaRequest q.val psn bytes.length ce fun s =>
    if (s.qp q.val).rkey = rkey then s.takeMsg q.val (newMsg psn false false va bytes.length bytes)
    else s.rdmaNak q.val (.nakAccess q.val psn))

def execRdmaRead (q : QpId) (psn : BitVec 24) (rkey : W32) (va : W64) (length : Nat) (ce : Bool) (s : State) :
    Host.Outcome State Fault Refusal :=
  .next (s.rdmaRequest q.val psn length ce fun s =>
    if (s.qp q.val).rkey ≠ rkey then s.rdmaNak q.val (.nakAccess q.val psn)
    else if 16 ≤ ((s.qp q.val).msgs.filter QpMsg.isRead).length then s.rdmaNak q.val (.nakInvalid q.val psn)
    else s.takeMsg q.val (newMsg psn true false va length []))

/-- HEAD of a pair's receive ring (R431): none where its address does not translate. -/
def State.ringHead (s : State) (q : Nat) : Option Nat × State :=
  let x := s.qp q
  match s.translate x.ctx.toNat x.ringBase.toNat rightR true with
  | none => (none, s)
  | some fa =>
    if faPkg fa = s.fab.pkgId.toNat then (some (leNat (s.localBytes (faLocal fa) 8)), s)
    else
      let (n, s1) := s.takeFree
      (some (Config.remoteHead n).toNat, s1)

/-- A SEND goes into slot n of the ring; the ring is full while n - HEAD slots reach SLOTS (R431, R432). -/
def State.takeSend (s : State) (q : Nat) (psn : BitVec 24) (bytes : List Byte) : State :=
  let x := s.qp q
  let slot := 64 * x.slotSize.toNat
  if slot < bytes.length + 16 then s.rdmaNak q (.nakInvalid q psn)
  else
    let n := x.sendSeq.toNat
    let (head, s1) := s.ringHead q
    if head.any fun h => h + x.slots.toNat ≤ n then s1.rdmaRefuse q psn
    else
      let at' := x.ringBase + BitVec.ofNat 64 (64 + slot * (if x.slots = 0 then 0 else n % x.slots.toNat))
      let m := leBytes 8 bytes.length ++ leBytes 8 n ++ bytes
      let s2 := s1.takeMsg q (newMsg psn false true at' m.length m)
      if (s2.qp q).nextMsg = x.nextMsg then s2 else s2.onQp q fun y => { y with sendSeq := bump y.sendSeq }

def execSend (q : QpId) (psn : BitVec 24) (bytes : List Byte) (ce : Bool) (s : State) : Host.Outcome State Fault Refusal :=
  .next (s.rdmaRequest q.val psn bytes.length ce fun s => s.takeSend q.val psn bytes)

def execRoceUnsupportedOp (q : QpId) (psn : BitVec 24) (s : State) : Host.Outcome State Fault Refusal :=
  .next (if (s.qp q.val).state = .ready ∧ s.eth.mode = .up then s.rdmaNak q.val (.nakInvalid q.val psn) else s)

/-! ## Congestion (R427) -/

def execCnpReceived (q : QpId) (s : State) : Host.Outcome State Fault Refusal :=
  .next ({ s with eth := { s.eth with cnpRx := bump s.eth.cnpRx } }.onQp q.val fun x => { x with rateShift := x.rateShift + 1 })

def execCnpRateRecover (q : QpId) (s : State) : Host.Outcome State Fault Refusal :=
  .next (s.onQp q.val fun x => { x with rateShift := x.rateShift - 1 })

end Sys2Proof.Machine
end

