-- ==== Sys2Proof/Machine/Fabric.lean ====
section
/-! DEFINITION. The memory fabric: completions at the issuer (R203 to R208, R218 to R226) and the arrival of requests
at their targets (R200 to R207, R216, R222). -/

namespace Sys2Proof.Machine

/-! ## Completions -/

/-- Whether an offset of tile t lies in the window that context c's plane gives it (R53). -/
def State.inWindow (s : State) (c t off n : Nat) : Bool :=
  let w := (Tbl.look 0 (s.plane (s.ctxPlane c)).params (64 * t + 1)).toNat
  let base := bitsAt w 0 4 * 0x8000
  base ≤ off && off + n ≤ base + bitsAt w 4 5 * 0x8000

/-- Removes an operation; one that ended by TIMEOUT, DARK or UNREACHABLE keeps its tag from reuse (R225). -/
def State.endOp (s : State) (o : Op) : State :=
  let s1 := { s with fab := { s.fab with ops := s.fab.ops.filter fun x => !(x.port == o.port && x.tag == o.tag) } }
  if o.got.any fun g => g.2 == .sour .timeout || g.2 == .sour .dark || g.2 == .sour .unreachable
  then s1.withhold o.port o.tag o.dpkg else s1

def State.setOp (s : State) (o : Op) : State :=
  { s with fab := { s.fab with ops := s.fab.ops.map fun x => if x.port == o.port && x.tag == o.tag then o else x } }

/-- Answers a request that this package forwarded and whose message failed (R449). -/
def State.forwardFails (s : State) (slot : Nat) (req : W32) (status : Nat) : State :=
  match s.kcp.forwards.find? fun f => f.slot == slot && f.req == req with
  | none => s
  | some f =>
    { s with kcp := { s.kcp with forwards := s.kcp.forwards.filter fun x => !(x.slot == slot && x.req == req) } }.reply
      (.session (Fin.ofNat 8 slot)) req f.op status []

/-- The one result of an operation whose responses are all in. -/
def State.finishOp (s : State) (o : Op) (data : BitVec 512) : State :=
  let st := s.opStatus o
  let s1 := (s.endOp o).countSour st
  match o.issuer with
  | .seqLoad v b rd off size z =>
    s1.seqDone (planeIx v b) st (some rd) (extendTo64 size z (bitsAt data.toNat (8 * off) (8 * size))) o.addr o.tag true
  | .seqStore v b => s1.seqDone (planeIx v b) st none 0 o.addr o.tag false
  | .seqAtom v b rd dbl =>
    s1.seqDone (planeIx v b) st (some rd) (extendTo64 (if dbl then 8 else 4) false data.toNat) o.addr o.tag false
  | .ladleLoad _ _ _ _ _ => s1
  | .ladleStore v b k iter => s1.ladleStored (planeIx v b) k iter (o.cells.length - 1) st o.addr o.tag
  | .rdmaWrite q id =>
    ((List.range (o.cells.length - 1)).foldl (fun a i => a.rdmaCell q id i st o.addr none) s1).pump q
  | .rdmaRead q _ _ => s1.pump q
  | .forward slot req => if st.failed then s1.forwardFails slot req stUnreachable else s1
  | .controller => s1

/-- A response cell for index i of an outstanding operation arrives (R204): a ladle's cell goes to its tile's response
queue, with the sour pattern for a failed one (R221). -/
def State.takeResponse (s : State) (o : Op) (i : Nat) (st : Status) (data : BitVec 512) : State :=
  let late := bucketOf ((s.clk.now - o.issuedAt).toNat -
    (if o.dpkg = s.fab.pkgId.toNat then s.fab.latLocal.toNat else s.fab.latPod.toNat))
  let own : Status := match st with
    | .ok b => .ok (if b < late then late else b)
    | x => x
  match o.issuer with
  | .ladleLoad v b k iter ts =>
    let at' := ts.getD i 0 % 0x20000000
    let t := at' / 0x80000
    let c := ((s.plane (planeIx v b)).ctx).getD 0
    let own := if s.inWindow c t (at' % 0x80000) 64 then own else .sour .window
    let o1 := { o with got := o.got ++ [(i, own)], heard := s.clk.now }
    let s1 := (s.setOp o1).countSour own
    if o.voided then (if o1.expect ≤ o1.got.length then s1.endOp o1 else s1)
    else if own = .sour .window ∨ own = .refusedCapacity ∨ own = .refusedQuota then
      let s2 := s1.ladleCells (planeIx v b) k iter 1 own (o.addr + BitVec.ofNat 64 (64 * i)) o.tag
      if o1.expect ≤ o1.got.length && !((Tbl.look [] s2.fab.tileResp (1024 * v + t)).any fun r => r.port == o.port && r.tag == o.tag)
      then s2.endOp o1 else s2
    else
      let r : TResp := { off := at' % 0x80000, data := if own.failed then sourCell else data, port := o.port, tag := o.tag,
                         index := i, ok := !own.failed }
      { s1 with fab := { s1.fab with tileResp := Tbl.upd [] s1.fab.tileResp (1024 * v + t) (· ++ [r]) } }
  | .rdmaRead q id first =>
    let o1 := { o with got := o.got ++ [(i, own)], heard := s.clk.now }
    let s1 := ((s.setOp o1).countSour own).rdmaCell q id (first + i) own (o.addr + BitVec.ofNat 64 (64 * i)) (some data)
    if o1.expect ≤ o1.got.length then (s1.endOp o1).pump q else s1
  | _ =>
    let o1 := { o with got := o.got ++ [(i, st)], heard := s.clk.now }
    if o.voided then s.endOp o1 else s.finishOp o1 data

/-- An operation that gets no further answer: every cell that has none completes with the status given. -/
def State.failOp (s : State) (o : Op) (st : Status) : State :=
  let rest := (List.range o.expect).filter fun i => !(o.got.any fun g => g.1 == i)
  rest.foldl (fun a i => match a.fab.ops.find? fun x => x.port == o.port && x.tag == o.tag with
    | some x => a.takeResponse x i st sourCell
    | none => a) s

/-- The operation that a response answers: the port and tag of its destination. -/
def State.opOf (s : State) (port tag : Nat) : Option Op :=
  s.fab.ops.find? fun o => o.port == port && o.tag.toNat == tag

/-- A response that no outstanding operation awaits is discarded and counted (R225). -/
def State.lateResponse (s : State) : State := { s with fab := { s.fab with lateCnt := bump s.fab.lateCnt } }

def State.landed (s : State) (c : Cell) : State := { s with fab := { s.fab with flight := s.fab.flight.erase c } }

/-- A response with its status arrives at its issuer. A store, atomic or message has one answer; a load one per cell. -/
def State.response (s : State) (c : Cell) (st : Status) : State :=
  let s1 := s.landed c
  match s1.opOf (Cell.dport c) (Cell.tag c) with
  | none => s1.lateResponse
  | some o =>
    let i := bitsAt (Cell.frag c) 0 2
    if o.waiting ∨ o.reading ∨ o.got.any (fun g => g.1 == i) ∨ o.expect ≤ i then s1.lateResponse
    else (s1.takeResponse o i st c.payload).finish

/-- The cell counts as an arrival of opcode `op` at this package. -/
def State.isMine (s : State) (c : Cell) (op : Nat) : Bool :=
  Cell.opc c == op && Cell.cls c != 3 && Cell.dpkg c == s.fab.pkgId.toNat

def execData (cell : Cell) (s : State) : Host.Outcome State Fault Refusal :=
  .next (if s.isMine cell opDATA then s.response cell (.ok (BitVec.ofNat 3 (bitsAt (Cell.frag cell) 8 3))) else s)

def execAck (cell : Cell) (s : State) : Host.Outcome State Fault Refusal :=
  .next (if s.isMine cell opACK then s.response cell (.ok (BitVec.ofNat 3 (bitsAt (Cell.frag cell) 8 3))) else s)

def execSour (cell : Cell) (s : State) : Host.Outcome State Fault Refusal :=
  .next (if s.isMine cell opSOUR then s.response cell (.sour (causeOfCode (bitsAt (Cell.frag cell) 4 4))) else s)

/-- A refusal completes the whole operation (R218). -/
def State.refused (s : State) (c : Cell) : State :=
  let s1 := s.landed c
  let st : Status := if bitsAt (Cell.frag c) 4 4 = 2 then .refusedQuota else .refusedCapacity
  match s1.opOf (Cell.dport c) (Cell.tag c) with
  | none => s1.lateResponse
  | some o => ({ s1 with fab := { s1.fab with refusedCnt := bump s1.fab.refusedCnt } }.failOp o st).finish

def execNackRefused (cell : Cell) (s : State) : Host.Outcome State Fault Refusal :=
  .next (if s.isMine cell opNACKREFUSED then s.refused cell else s)

/-! ## NACK_BUSY and its resend (R208) -/

/-- The issuer waits out its back-off of 1 µs, doubling to at most 8 µs. -/
def State.nackedBusy (s : State) (c : Cell) : State :=
  let s1 := s.landed c
  match s1.opOf (Cell.dport c) (Cell.tag c) with
  | none => s1.lateResponse
  | some o => s1.setOp { o with waiting := true, heard := s.clk.now }

def execNackBusy (cell : Cell) (s : State) : Host.Outcome State Fault Refusal :=
  .next (if s.isMine cell opNACKBUSY then s.nackedBusy cell else s)

/-- The back-off ends: the whole message goes again under a new tag, and the old one is withheld. -/
def State.resendBusy (s : State) (port : Nat) (tag : W16) : State :=
  match s.opOf port tag.toNat with
  | none => s
  | some o =>
    if !o.waiting then s
    else
      let s1 := s.withhold port tag o.dpkg
      let (t, s2) := s1.takeTag port
      let cells := o.cells.map fun c => Cell.withTag c t.toNat
      let o1 := { o with tag := t, cells := cells, waiting := false, retried := true, backoffUs := min 8 (2 * o.backoffUs),
                         heard := s.clk.now }
      { s2 with fab := { s2.fab with ops := s2.fab.ops.map (fun (x : Op) => if x.port == port && x.tag == tag then o1 else x),
                                     busyRetryCnt := bump s2.fab.busyRetryCnt } }.launchAll cells

def execBusyRetry (port : PortId) (tag : W16) (s : State) : Host.Outcome State Fault Refusal :=
  .next (s.resendBusy port.val tag)

/-! ## Silence, darkness and flow control (R215, R222, R223) -/

/-- The silence of an operation's target has lasted the bound that applies to it. -/
def State.silent (s : State) (o : Op) : Bool := decide (o.heard.toNat + s.boundNs o.dpkg ≤ s.time)

def execOpTimeout (port : PortId) (tag : W16) (s : State) : Host.Outcome State Fault Refusal :=
  .next (match s.opOf port.val tag.toNat with
    | some o => if s.silent o then (s.failOp o (.sour .timeout)).finish else s
    | none => s)

def execKeepalive (port : PortId) (fromPkg : PkgId) (target : PortId) (s : State) : Host.Outcome State Fault Refusal :=
  let own := s.fab.pkgId.toNat
  let near (o : Op) : Bool := o.port == port.val && o.dpkg == fromPkg.val &&
    (fromPkg.val != own || (o.cells.head?.map Cell.dport).getD 0 == target.val)
  .next { s with fab := { s.fab with
    ops := s.fab.ops.map (fun o => if near o then { o with heard := s.clk.now } else o),
    keepalives := if fromPkg.val = own then s.fab.keepalives.erase (target.val, own, port.val) else s.fab.keepalives } }

/-- Request cells that port p holds from a source port of a package. -/
def State.holdsFrom (s : State) (p pkg sport : Nat) : Bool :=
  let hit (c : Cell) : Bool := Cell.spkg c == pkg && Cell.sport c == sport
  let queued (q : Tbl (List TReq)) (f : Nat → Bool) : Bool := q.any fun e => f e.1 && e.2.any fun r => hit r.head
  queued s.fab.tileReq (fun k => vatPort (k / 1024) == p) || queued s.fab.creamQ (· == p) ||
    queued s.fab.hbmQ (fun k => 16 + hbmStack k == p) ||
    s.fab.asm.any fun a => a.port == p && a.pkg == pkg && a.sport == sport

def execKeepaliveSend (port : PortId) (toPkg : PkgId) (toPort : PortId) (s : State) : Host.Outcome State Fault Refusal :=
  .next (if s.holdsFrom port.val toPkg.val toPort.val then
    { s with fab := { s.fab with keepalives := s.fab.keepalives ++ [(port.val, toPkg.val, toPort.val)] } }
  else s)

/-- The notice of R222 at a source port mirrors whether the port is dark; what is outstanding toward a dark port
completes SOUR DARK. -/
def State.darkNotice (s : State) (source dark : Nat) : State :=
  let now := s.isDark dark
  let s1 := { s with fab := { s.fab with noticed := Tbl.upd 0 s.fab.noticed source fun m => bvSet m dark now } }
  if now then
    ((s1.fab.ops.filter fun o => o.port == source && o.dpkg == s.fab.pkgId.toNat &&
      (o.cells.head?.map Cell.dport).getD 0 == dark).foldl (fun a o => a.failOp o (.sour .dark)) s1).finish
  else s1

def execDarkNotice (source dark : PortId) (s : State) : Host.Outcome State Fault Refusal :=
  .next (s.darkNotice source.val dark.val)

def execXoff (hop : Nat) (cls : BitVec 2) (response : Bool) (s : State) : Host.Outcome State Fault Refusal :=
  let k := (hop, cls.toNat, response)
  .next (if cls = 0 ∨ s.fab.stopped.contains k then s else { s with fab := { s.fab with stopped := s.fab.stopped ++ [k] } })

def execXon (hop : Nat) (cls : BitVec 2) (response : Bool) (s : State) : Host.Outcome State Fault Refusal :=
  let s1 := { s with fab := { s.fab with stopped := s.fab.stopped.filter fun k => k != (hop, cls.toNat, response) } }
  .next (if 64 ≤ hop then s1.drainLink (hop - 64) else s1.relaunch)

/-! ## Arrival of requests -/

/-- Discards a cell that no hop may forward (R200). -/
def State.dropBad (s : State) (c : Cell) : State :=
  let s1 := s.landed c
  let n := s1.fab.badSince + 1
  let due := match s1.fab.badRecTime with
    | none => true
    | some t => decide (t.toNat + 1000000 ≤ s.time)
  let s2 := { s1 with fab := { s1.fab with dropCnt := bump s1.fab.dropCnt, badSince := if due then 0 else n,
                                           badRecTime := if due then some s.clk.now else s1.fab.badRecTime } }
  if due then s2.note 0x0A09 .info unitPackage [BitVec.ofNat 64 n] else s2

def execBadCell (cell : Cell) (s : State) : Host.Outcome State Fault Refusal :=
  .next (if opListed (Cell.opc cell) && Cell.cls cell != 3 then s else s.dropBad cell)

/-- Request cells of a remote context in this package's hubs and service queues (R216). -/
def State.quotaUse (s : State) (pkg ctx : Nat) : Nat :=
  let mine (c : Cell) : Bool := Cell.spkg c == pkg && Cell.cellCtx c == ctx
  let count (q : Tbl (List TReq)) : Nat := q.foldl (fun n e =>
    (e.2.filter fun r => mine r.head).foldl (fun m r => m + 1 + r.frags.length) n) 0
  count s.fab.tileReq + count s.fab.creamQ + count s.fab.hbmQ +
    (s.fab.asm.filter fun a => a.pkg == pkg && a.ctx == ctx).foldl
      (fun n a => n + a.frags.length + (if a.head.isSome then 1 else 0)) 0

def State.overQuota (s : State) (c : Cell) : Bool :=
  Cell.spkg c != s.fab.pkgId.toNat && Cell.cls c != 0 && s.fab.rxQuota != 0 &&
    s.fab.rxQuota.toNat ≤ s.quotaUse (Cell.spkg c) (Cell.cellCtx c)

def State.filtered (s : State) (c : Cell) : Bool :=
  Cell.cls c != 0 && s.fab.filters.contains (Cell.spkg c, Cell.cellCtx c)

/-- Whether the form of a request is sound (R201, R202). -/
def soundRequest (c : Cell) : Bool :=
  let a := Cell.pay c 0 8
  if Cell.opc c = opATOM then Cell.pay c 8 1 ≤ 10 && a % atomWidth (Cell.pay c 8 1) == 0
  else
    let n := Cell.pay c 8 1
    1 ≤ n && n ≤ 4 && a % 64 == 0 && a / 256 == (a + 64 * n - 1) / 256

/-- Why a request is answered SOUR on arrival (R53, R186, R202). -/
def State.refuseCause (s : State) (c : Cell) : Option SourCause :=
  let a := Cell.pay c 0 8
  let loc := faLocal a
  if faRes0 a || faPkg a != s.fab.pkgId.toNat || !soundRequest c then some .unmapped
  else match s.targetDown loc with
    | some x => some x
    | none =>
      match regionOf loc with
      | .tile v t off =>
        let x := Cell.cellCtx c
        let n := if Cell.opc c = opATOM then 8 else 64 * Cell.pay c 8 1
        if Cell.spkg c == s.fab.pkgId.toNat && Cell.sport c != 52 && Cell.cls c != 0 && (s.ctx x).resident &&
          (s.ctx x).vat.toNat == v && !s.inWindow x t off n then some .window else none
      | _ => none

/-- Answers a whole request SOUR: once per cell of a load, once otherwise. -/
def State.answerSour (s : State) (c : Cell) (cause : SourCause) : State :=
  s.launchAll (sourAnswers c cause)

/-- A request reaches a retained SRAM, a sleeping bank or a stack in self-refresh (R85, R175, R323): the state after, and
whether the request is held for it. -/
def State.touch (s : State) (a : Nat) : Bool × State :=
  match regionOf a with
  | .tile v _ _ =>
    let x := s.vat v
    if x.run = .gated then (x.tsRetained || x.tsWaking,
      s.onVat v fun x => { x with banksOn := true, tsWaking := x.tsWaking || x.tsRetained })
    else (x.tsRetained || x.tsWaking, s.onVat v fun x => { x with tsWaking := x.tsWaking || x.tsRetained })
  | .cream c _ =>
    let x := s.cream c
    let sleeps := x.mode = .retention
    (decide sleeps || x.level != 0,
     if sleeps ∧ !x.waking then s.onCream c fun x => { x with waking := true, wakeCnt := bump x.wakeCnt } else s)
  | .hbm =>
    let k := hbmStack (hbmPseudo s.hbm.salt a)
    (false, if (s.stack k).mode = .selfRefresh then s.onStack k fun x => { x with mode := .run } else s)
  | _ => (false, s)

def reqCells (q : List TReq) : Nat := q.foldl (fun n r => n + 1 + r.frags.length) 0

/-- Whether the target's queue has room for a request (R157, R167, R310). -/
def State.roomAt (s : State) (a n : Nat) : Bool :=
  match regionOf a with
  | .tile v t _ => reqCells (Tbl.look [] s.fab.tileReq (1024 * v + t)) + n ≤ 64
  | .cream c _ => reqCells (Tbl.look [] s.fab.creamQ c) + n ≤ 512
  | .hbm => reqCells (Tbl.look [] s.fab.hbmQ (hbmPseudo s.hbm.salt a)) + n ≤ 256
  | _ => true

/-- Puts a request into the queue of its target. -/
def State.enqueue (s : State) (a : Nat) (r : TReq) : State :=
  let (held, s1) := s.touch a
  let r1 := { r with held := held, arrived := s.clk.now }
  let add (q : Tbl (List TReq)) (k : Nat) : Tbl (List TReq) := Tbl.upd [] q k (· ++ [r1])
  match regionOf a with
  | .tile v t _ => { s1 with fab := { s1.fab with tileReq := add s1.fab.tileReq (1024 * v + t) } }
  | .cream c _ => { s1 with fab := { s1.fab with creamQ := add s1.fab.creamQ c } }
  | .hbm => { s1 with fab := { s1.fab with hbmQ := add s1.fab.hbmQ (hbmPseudo s1.hbm.salt a) } }
  | _ => s1

/-- A complete request at its target: refused for quota, answered SOUR, or queued. -/
def State.accept (s : State) (head : Cell) (frags : List (Nat × BitVec 512)) : State :=
  match s.refuseCause head with
  | some cause => s.answerSour head cause
  | none => s.enqueue (faLocal (Cell.pay head 0 8)) { head := head, frags := frags }

/-- A single-cell request arrives. A full queue holds it upstream, which drops nothing (R158). -/
def State.arrive (s : State) (c : Cell) : State :=
  let s1 := s.landed c
  if s1.filtered c then s1
  else if s1.overQuota c then s1.launch (respond c opNACKREFUSED 0 2 0 0)
  else if (s1.refuseCause c).isNone && !s1.roomAt (faLocal (Cell.pay c 0 8)) 1 then s1.fly c
  else s1.accept c []

def execLd (cell : Cell) (s : State) : Host.Outcome State Fault Refusal :=
  .next (if s.isMine cell opLD then s.arrive cell else s)

def execAtom (cell : Cell) (s : State) : Host.Outcome State Fault Refusal :=
  .next (if s.isMine cell opATOM then s.arrive cell else s)

/-! ## Messages of several cells (R205, R207) -/

def Assembly.of (a : Assembly) (c : Cell) : Bool :=
  a.port == Cell.dport c && a.pkg == Cell.spkg c && a.ctx == Cell.cellCtx c && a.sport == Cell.sport c && a.tag.toNat == Cell.tag c

/-- Whether a new message from a source port finds space at its destination port. -/
def State.asmRoom (s : State) (c : Cell) : Bool :=
  let here := s.fab.asm.filter fun a => a.port == Cell.dport c && !a.refused
  let same (a : Assembly) : Bool := a.pkg == Cell.spkg c && a.sport == Cell.sport c
  let beyond := here.foldl (fun (acc : Nat × List (Nat × Nat)) a =>
    let k := (a.pkg, a.sport)
    if 2 ≤ (acc.2.filter (· == k)).length then (acc.1 + 1, acc.2) else (acc.1, k :: acc.2)) (0, [])
  (here.filter same).length < 2 || beyond.1 < Config.sharedAssemblies

/-- Data cells that a head announces. -/
def fragCount (head : Cell) : Nat :=
  if Cell.opc head = opMSG then ceilDiv (Cell.pay head 4 4) 64 else clampNat 1 4 (Cell.pay head 8 1)

def Assembly.complete (a : Assembly) : Bool :=
  match a.head with
  | none => false
  | some h => (List.range (fragCount h)).all fun i => (a.frags.lookup (i + 1)).isSome

/-- A weight message for an engine that does not come from this package's port 52 (R289). -/
def State.strayWeights (s : State) (h : Cell) : Bool :=
  decide (Cell.dport h < 16) && Cell.pay h 0 4 == 0xE00 && !(Cell.sport h == 52 && Cell.spkg h == s.fab.pkgId.toNat)

/-- Delivers a message to its mailbox and acknowledges it. -/
def State.deliver (s : State) (h : Cell) (frags : List (Nat × BitVec 512)) : State :=
  if s.isDark (Cell.dport h) then s.launch (sourAnswer h 0 .dark)
  else if s.strayWeights h then s.launch (sourAnswer h 0 (causeOfCode Config.sepStray))
  else
    let bytes := ((List.range (fragCount h)).flatMap fun i => leBytes 64 ((frags.lookup (i + 1)).getD 0).toNat).take (Cell.pay h 4 4)
    let m : Mail := { port := Cell.dport h, mailbox := BitVec.ofNat 32 (Cell.pay h 0 4), pkg := Cell.spkg h, sport := Cell.sport h,
                      bytes := bytes }
    { s with fab := { s.fab with mail := s.fab.mail ++ [m] } }.launch (respond h opACK 0 0 0 0)

/-- A message whose cells are all in leaves its assembly and is performed or delivered. -/
def State.assembled (s : State) (a : Assembly) : State :=
  let s1 := { s with fab := { s.fab with asm := s.fab.asm.filter fun x => !(x == a) } }
  match a.head with
  | none => s
  | some h => if a.refused then s1 else if Cell.opc h = opMSG then s1.deliver h a.frags else s1.accept h a.frags

/-- Whether a complete message must wait upstream for its target's queue (R158). -/
def State.asmHeld (s : State) (a : Assembly) : Bool :=
  match a.head with
  | none => false
  | some h => !a.refused && Cell.opc h != opMSG && (s.refuseCause h).isNone &&
      !s.roomAt (faLocal (Cell.pay h 0 8)) (1 + a.frags.length)

/-- Stores an assembly, and acts on it once it is complete. -/
def State.keepAsm (s : State) (c : Cell) (a : Assembly) : State :=
  if a.complete && s.asmHeld a then s.fly c
  else
    let s1 := { s with fab := { s.fab with asm := s.fab.asm.filter (fun x => !x.of c) ++ [a] } }
    if a.complete then s1.assembled a else s1

/-- One cell of a message joins its assembly; the first that finds no space is answered NACK_BUSY, and the message's
other cells are discarded (R207). -/
def State.assemble (s : State) (c : Cell) : State :=
  let s1 := s.landed c
  let isHead := Cell.opc c == opST || Cell.opc c == opMSG
  let add (a : Assembly) : Assembly :=
    if isHead then { a with head := some c } else { a with frags := (Cell.frag c, c.payload) :: a.frags.filter fun f => f.1 != Cell.frag c }
  let fresh : Assembly := { port := Cell.dport c, pkg := Cell.spkg c, ctx := Cell.cellCtx c, sport := Cell.sport c,
                            tag := BitVec.ofNat 16 (Cell.tag c) }
  if s1.filtered c then s1
  else match s1.fab.asm.find? fun a => a.of c with
    | some a => s1.keepAsm c (add a)
    | none =>
      if s1.overQuota c then (s1.keepAsm c { add fresh with refused := true }).launch (respond c opNACKREFUSED 0 2 0 0)
      else if s1.asmRoom c then s1.keepAsm c (add fresh)
      else (s1.keepAsm c { add fresh with refused := true }).launch (respond c opNACKBUSY 0 0 0 0)

def execSt (cell : Cell) (s : State) : Host.Outcome State Fault Refusal :=
  .next (if s.isMine cell opST then s.assemble cell else s)

def execStd (cell : Cell) (s : State) : Host.Outcome State Fault Refusal :=
  .next (if s.isMine cell opSTD then s.assemble cell else s)

def execMsg (cell : Cell) (s : State) : Host.Outcome State Fault Refusal :=
  .next (if s.isMine cell opMSG then s.assemble cell else s)

def execMsgd (cell : Cell) (s : State) : Host.Outcome State Fault Refusal :=
  .next (if s.isMine cell opMSGD then s.assemble cell else s)

end Sys2Proof.Machine
end

