-- ==== Sys2Proof/Machine/Links.lean ====
section
/-! DEFINITION. Pod links: training, replay, routing, transit and reassembly (R326 to R351). -/

namespace Sys2Proof.Machine

def allLinks : List Nat := List.range 64

/-! ## Width and identity (R333, R334) -/

/-- The largest of 8, 6, 4, 2 and 1 that does not exceed a number of lanes; 0 for none. -/
def widthOf (lanes : Nat) : Nat := if 8 ≤ lanes then 8 else if 6 ≤ lanes then 6 else if 4 ≤ lanes then 4 else if 2 ≤ lanes then 2 else lanes

/-- The lowest n of the set bits of a mask. -/
def lowestLanes (mask n : Nat) : Nat :=
  ((List.range 8).foldl (fun (acc : Nat × Nat) i => if bitAt mask i && decide (acc.2 < n) then (acc.1 + 2 ^ i, acc.2 + 1) else acc) (0, 0)).1

/-- Usable lanes: those that passed at both ends, less those masked or lost here. -/
def Link.usable (k : Link) (obs : TrainObs) : Nat := (obs.usable &&& k.laneMask &&& ~~~k.laneLost).toNat

/-- The link with what a training found: identity, round trip, width and lanes. -/
def Link.learned (k : Link) (obs : TrainObs) : Link :=
  let u := k.usable obs
  let w := widthOf (popcount 8 u)
  { k with peerPkg := obs.peerPkg, peerLink := obs.peerLink, peerSerial := obs.peerSerial, rtt := obs.rttNs,
           width := BitVec.ofNat 4 w, lanes := BitVec.ofNat 8 (lowestLanes u w) }

/-- Links that report the same peer package as link l with another serial number. -/
def State.conflicts (s : State) (l : Nat) (obs : TrainObs) : List Nat :=
  allLinks.filter fun k => k != l && (s.link k).peerPkg == obs.peerPkg && (s.link k).peerSerial != obs.peerSerial &&
    ((s.link k).mode == .up || (s.link k).mode == .retrain || (s.link k).mode == .miscabled)

/-- Why a link is held MISCABLED: 1 SELF, 2 ID_CONFLICT, 3 TOO_LONG; 0 for no reason. -/
def State.miscableOf (s : State) (l : Nat) (obs : TrainObs) : Nat :=
  if obs.peerPkg = s.fab.pkgId then 1 else if !(s.conflicts l obs).isEmpty then 2 else if 1400 < obs.rttNs.toNat then 3 else 0

/-! ## Leaving UP (R335, R336) -/

/-- Cells that wait at a link go to the other paths while any has weight (R350). -/
def State.respray (s : State) (l : Nat) : State :=
  let q := (s.link l).queue
  let moves (c : Cell) : Bool := !(s.activeEntries (Cell.dpkg c)).isEmpty
  (q.filter moves).foldl State.launch (s.onLink l fun k => { k with queue := q.filter fun c => !moves c })

/-- A fast retrain of an UP link. -/
def State.fastRetrain (s : State) (l : Nat) : State :=
  if (s.link l).mode = .up then
    let s1 := s.onLink l fun k => { k with mode := .retrain, trains := bump k.trains, failRun := 0 }
    s1.respray l
  else s

/-- LINK_DOWN: a link that is not up goes to DOWN; one that was up is emptied first. -/
def State.linkToDown (s : State) (l : Nat) : State :=
  let s1 := match (s.link l).mode with
    | .up | .retrain => s.linkFall l
    | _ => s.onLink l fun k => { k with mode := .down, width := 0, lanes := 0, downs := bump k.downs }
  s1.record 0x0F03 .unit (unitLink l) none [BitVec.ofNat 64 l]

/-- A link leaves UP or RETRAIN for a state other than DOWN, with the emptying of R336. -/
def State.linkHold (s : State) (l : Nat) (m : LinkMode) : State :=
  match (s.link l).mode with
  | .up | .retrain => (s.linkFall l).onLink l fun k => { k with mode := m, downs := k.downs - 1 }
  | _ => s.onLink l fun k => { k with mode := m, width := 0, lanes := 0 }

def State.linkMiscabled (s : State) (l cause : Nat) : State :=
  ((s.linkHold l .miscabled).onLink l fun k => { k with miscable := BitVec.ofNat 2 cause }).record 0x0F05 .unit (unitLink l) none
    [BitVec.ofNat 64 cause, BitVec.ofNat 64 l]

/-- Full training starts from DOWN and MISCABLED (R337). -/
def State.linkTrain (s : State) (l : Nat) : State :=
  match (s.link l).mode with
  | .down | .miscabled => s.onLink l fun k => { k with mode := .training, trains := bump k.trains, miscable := 0 }
  | _ => s

def execLinkTrainingStart (l : LinkId) (s : State) : Host.Outcome State Fault Refusal := .next (s.linkTrain l.val)

/-! ## The routing table (R338, R344) -/

def routeWord (link via tier weight : Nat) : W32 := BitVec.ofNat 32 (packBits [(0, 6, link), (6, 6, via), (12, 1, tier), (16, 4, weight)])

def State.setRoute (s : State) (d j : Nat) (w : W32) : State :=
  { s with lnk := { s.lnk with routes := Tbl.put 0 s.lnk.routes (16 * d + j) w } }

/-- ROUTE_MISMATCH, once for an entry whose link has come up to another peer than VIA. -/
def State.checkRoute (s : State) (d j : Nat) : State :=
  let w := s.route d j
  let k := s.link (routeLink w)
  let bad := decide (routeWeight w ≠ 0) && k.mode == .up && k.peerPkg.toNat != routeVia w
  let key := 16 * d + j
  if bad && !s.lnk.mismatched.contains key then
    { s with lnk := { s.lnk with mismatched := s.lnk.mismatched ++ [key] } }.note 0x0F06 .info (unitLink (routeLink w))
      [BitVec.ofNat 64 d, BitVec.ofNat 64 j]
  else if !bad then { s with lnk := { s.lnk with mismatched := s.lnk.mismatched.filter (· ≠ key) } }
  else s

def routeKeys : List (Nat × Nat) := (List.range 64).flatMap fun d => (List.range 16).map fun j => (d, j)

/-- The lowest slot of D that is free. -/
def State.freeSlot (s : State) (d : Nat) : Option Nat := (List.range 16).find? fun j => routeWeight (s.route d j) == 0

def State.fillSlot (s : State) (d : Nat) (w : W32) : State :=
  match s.freeSlot d with
  | some j => s.setRoute d j w
  | none => s

/-- The entries that firmware writes when link l first comes up to its peer. -/
def State.routeFill (s : State) (l : Nat) : State :=
  let m := (s.link l).peerPkg.toNat
  let s1 := s.fillSlot m (routeWord l m 0 8)
  let low := (allLinks.find? fun k => (s.link k).mode == .up && (s.link k).peerPkg.toNat == m).getD l
  let known := routeKeys.any fun (d, j) => routeWeight (s.route d j) != 0 && routeVia (s.route d j) == m && routeTier (s.route d j) == 1
  if known then s1
  else (List.range 64).foldl (fun a d => if d = m then a else a.fillSlot d (routeWord low m 1 8)) s1

/-- The peer of a link has changed: its entries are cleared (R344). -/
def State.peerChanged (s : State) (l old : Nat) : State :=
  let clear (a : State) (e : Nat × Nat) : State :=
    if routeWeight (a.route e.1 e.2) != 0 && routeLink (a.route e.1 e.2) == l then a.setRoute e.1 e.2 0 else a
  (routeKeys.foldl clear s).note 0x0F08 .info (unitLink l)
    [BitVec.ofNat 64 l, BitVec.ofNat 64 old, (s.link l).peerPkg.zeroExtend 64]

/-! ## Training ends (R332 to R335) -/

/-- A link is UP: its weights, notices and cells follow. `old` is the peer it had before. -/
def State.linkUp (s : State) (l old : Nat) : State :=
  let k := s.link l
  let changed := k.everUp && k.peerPkg.toNat != old
  let s1 := s.onLink l fun k => { k with mode := .up, miscable := 0, everUp := true }
  let s2 := if changed then (s1.peerChanged l old).routeFill l else if k.everUp then s1 else s1.routeFill l
  let s3 := (routeKeys.filter fun e => routeLink (s2.route e.1 e.2) == l).foldl (fun a e => a.checkRoute e.1 e.2) s2
  s3.drainLink l

/-- LINK_NARROW. -/
def State.linkNarrow (s : State) (l : Nat) : State :=
  s.note 0x0F02 .corrected (unitLink l) [BitVec.ofNat 64 l, (s.link l).lanes.zeroExtend 64]

/-- Full training ends with what it measured. -/
def State.trainingEnds (s : State) (l : Nat) (obs : TrainObs) : State :=
  let k := s.link l
  if k.mode ≠ .training then s
  else
    let old := k.peerPkg.toNat
    let s1 := s.onLink l fun k => k.learned obs
    if (s1.link l).width = 0 then s1.linkToDown l
    else match s.miscableOf l obs with
      | 0 =>
        let s2 := (s1.onLink l fun k => { k with txSeq := 0, rxSeq := 0, failRun := 0 }).linkUp l old
        let s3 := s2.note 0x0F01 .info (unitLink l)
          [BitVec.ofNat 64 l, (s1.link l).width.zeroExtend 64, obs.peerPkg.zeroExtend 64, obs.peerLink.zeroExtend 64]
        if (s1.link l).width.toNat < 8 then s3.linkNarrow l else s3
      | c =>
        let s2 := s1.linkMiscabled l c
        if c = 2 then (s.conflicts l obs).foldl (fun a k => if (a.link k).mode = .miscabled then a else a.linkMiscabled k 2) s2 else s2

def execLinkTrainingEnd (l : LinkId) (obs : TrainObs) (s : State) : Host.Outcome State Fault Refusal :=
  .next (s.trainingEnds l.val obs).finish

/-- Five seconds have passed: DOWN. -/
def execLinkTrainingTimeout (l : LinkId) (s : State) : Host.Outcome State Fault Refusal :=
  .next (if (s.link l.val).mode = .training then (s.linkToDown l.val).finish else s)

/-- A fast retrain ends; none says that it was not up at 500 µs. -/
def State.retrainEnds (s : State) (l : Nat) (obs : Option TrainObs) : State :=
  let k := s.link l
  if k.mode ≠ .retrain then s
  else match obs with
    | none => s.linkToDown l
    | some o =>
      let k1 := k.learned o
      if k1.width = 0 then s.linkToDown l
      else match s.miscableOf l o with
        | 0 =>
          let s1 := ((s.onLink l fun _ => k1).linkUp l k.peerPkg.toNat).note 0x0F04 .info (unitLink l) [BitVec.ofNat 64 l]
          if k1.width.toNat < k.width.toNat then s1.linkNarrow l else s1
        | c => (s.onLink l fun _ => { k1 with width := k.width }).linkMiscabled l c

def execFastRetrainEnd (l : LinkId) (obs : Option TrainObs) (s : State) : Host.Outcome State Fault Refusal :=
  .next (s.retrainEnds l.val obs).finish

def execLinkDown (l : LinkId) (s : State) : Host.Outcome State Fault Refusal :=
  .next (match (s.link l.val).mode with
    | .up | .retrain => (s.linkToDown l.val).finish
    | _ => s)

/-- The 60 s timer of R337. -/
def State.retryLink (s : State) (l : Nat) : State :=
  match (s.link l).mode with
  | .down | .miscabled => s.linkTrain l
  | .up => if s.lnk.autoWiden && decide ((s.link l).width.toNat < 8) then s.fastRetrain l else s
  | _ => s

def execLinkRetryTimer (l : LinkId) (s : State) : Host.Outcome State Fault Refusal := .next (s.retryLink l.val)

/-- A write to LNK_RETRAIN (R335, R337). -/
def State.lnkRetrain (s : State) (mask : Nat) : State :=
  (allLinks.filter (bitAt mask)).foldl (fun a l => (a.fastRetrain l).linkTrain l) s

def execLnkRetrain (mask : W64) (s : State) : Host.Outcome State Fault Refusal := .next (s.lnkRetrain mask.toNat)

def execLaneLossOfSignal (l : LinkId) (lane : Fin 8) (s : State) : Host.Outcome State Fault Refusal :=
  .next (if (s.link l.val).lanes.getLsbD lane.val then s.fastRetrain l.val else s)

/-- A lane has lost its rings or its light, or has them back (R278, R359). -/
def State.setLaneLost (s : State) (l lane : Nat) (lost : Bool) : State :=
  let s1 := s.onLink l fun k => { k with laneLost := bvSet k.laneLost lane lost }
  if lost && (s.link l).lanes.getLsbD lane then s1.fastRetrain l else s1

/-! ## LNK_CFG (R331, R350, R351) -/

/-- LANE_MASK and DISABLE take effect on a link. -/
def State.applyLnkCfg (s : State) (l : Nat) (mask : Byte) (disable : Bool) : State :=
  let old := s.link l
  let s1 := s.onLink l fun k => { k with laneMask := mask, disable := disable, laneHeld := none, disableHeld := none }
  if disable ∨ mask = 0 then (if old.mode = .disabled then s1 else s1.linkHold l .disabled)
  else if old.mode = .disabled then (s1.onLink l fun k => { k with mode := .down }).linkTrain l
  else if mask ≠ old.laneMask then s1.fastRetrain l
  else s1

/-- A write to LNK_CFG: held while the link is UP or RETRAIN, applied at once otherwise. -/
def State.writeLnkCfg (s : State) (l : Nat) (value : Nat) : State :=
  let mask : Byte := BitVec.ofNat 8 (bitsAt value 0 8)
  let disable := bitAt value 8
  match (s.link l).mode with
  | .up | .retrain => s.onLink l fun k =>
    { k with laneHeld := if mask = k.laneMask then none else some mask,
             disableHeld := if disable = k.disable then none else some disable }
  | _ => s.applyLnkCfg l mask disable

/-- The start of an idle window: the link's held fields take effect. -/
def execLinkIdleWindow (l : LinkId) (s : State) : Host.Outcome State Fault Refusal :=
  .next (let k := s.link l.val
    if k.mode = .up ∧ (k.laneHeld.isSome ∨ k.disableHeld.isSome) then
      s.applyLnkCfg l.val (k.laneHeld.getD k.laneMask) (k.disableHeld.getD k.disable)
    else s)

/-! ## Transit (R342) -/

/-- TRANSIT_DROP, at most once per millisecond, with the count since the last. -/
def State.transitDrop (s : State) : State :=
  let n := s.lnk.transitSince + 1
  let due := s.lnk.transitRecTime.all fun t => decide (t.toNat + 1000000 ≤ s.time)
  let s1 := { s with lnk := { s.lnk with transitDrop := bump s.lnk.transitDrop, transitSince := if due then 0 else n,
                                         transitRecTime := if due then some s.clk.now else s.lnk.transitRecTime } }
  if due then s1.note 0x0F07 .info unitPackage [BitVec.ofNat 64 n] else s1

/-- A cell in transit goes on over a tier-0 direct entry. Without one a request's head is answered SOUR UNREACHABLE and
its data cells go with it; any other cell is discarded. -/
def State.transit (s : State) (c : Cell) : State :=
  match s.spray (Cell.dpkg c) (s.transitEntries (Cell.dpkg c)) with
  | (some j, s1) => s1.sendLink (routeLink (s.route (Cell.dpkg c) j)) c
  | (none, s1) =>
    if opIsRequest (Cell.opc c) && Cell.cls c != 0 then
      if opIsHead (Cell.opc c) then s1.launchAll (sourAnswers c .unreachable) else s1
    else s1.transitDrop

def execTransitCell (l : LinkId) (cell : Cell) (s : State) : Host.Outcome State Fault Refusal :=
  .next (if (s.link l.val).mode = .up ∧ Cell.dpkg cell ≠ s.fab.pkgId.toNat ∧ opListed (Cell.opc cell) then s.transit cell else s)

/-! ## Arrival at a hub (R345, R346) -/

def hubOf (l : Nat) : Nat := l / 16

/-- The port that a head from another package goes to; none answers SOUR UNMAPPED. -/
def State.hubPort (s : State) (hub : Nat) (c : Cell) : Option Nat :=
  if Cell.opc c = opMSG then
    (if Cell.pay c 0 4 = 0x700 then some 52 else if Cell.pay c 0 4 = 0xF00 then some (48 + hub) else none)
  else if faRes0 (Cell.pay c 0 8) || faPkg (Cell.pay c 0 8) != s.fab.pkgId.toNat then none
  else match regionOf (faLocal (Cell.pay c 0 8)) with
    | .register _ => none
    | _ => s.portOf (faLocal (Cell.pay c 0 8))

/-- Cells of a class that a hub holds from one package, and those it holds beyond the guaranteed 64 of each package. -/
def State.hubUse (s : State) (hub pkg : Nat) (c0 : Bool) : Nat × Nat :=
  let here := s.fab.asm.filter fun a => a.port == 64 + hub && a.head.isNone && !a.refused &&
    ((a.ctx == 64) == c0)
  let of (p : Nat) : Nat := (here.filter fun a => a.pkg == p).foldl (fun n a => n + a.frags.length) 0
  (of pkg, (List.range 64).foldl (fun n p => n + (of p - 64)) 0)

/-- Whether a hub has space for one more cell of a package. -/
def State.hubRoom (s : State) (hub : Nat) (c : Cell) : Bool :=
  Cell.cls c == 0 || (let u := s.hubUse hub (Cell.spkg c) false
    decide (u.1 < 64) || decide (u.2 < 8192))

/-- The entry of a message at a hub. A C0 message has no context; 64 stands for none. -/
def hubEntry (hub : Nat) (c : Cell) : Assembly :=
  { port := 64 + hub, pkg := Cell.spkg c, ctx := if Cell.cls c = 0 then 64 else Cell.cellCtx c, sport := Cell.sport c,
    tag := BitVec.ofNat 16 (Cell.tag c) }

/-- Whether an entry at any hub is of the same message. -/
def sameMessage (a b : Assembly) : Bool :=
  decide (64 ≤ a.port) && a.pkg == b.pkg && a.ctx == b.ctx && a.sport == b.sport && a.tag == b.tag

/-- Once the head and all its data cells have passed, the message's entry goes. -/
def State.hubTidy (s : State) (e : Assembly) : State :=
  { s with fab := { s.fab with asm := s.fab.asm.filter fun a => !(sameMessage a e && a.complete) } }

/-- A head: the message's port is known; what the hubs hold of it follows. -/
def State.hubHead (s : State) (hub : Nat) (c : Cell) : State :=
  let e := hubEntry hub c
  match s.fab.asm.find? fun a => sameMessage a e && a.refused with
  | some _ => s
  | none =>
    match s.hubPort hub c with
    | none => s.launchAll (sourAnswers c .unmapped)
    | some p =>
      let mine := s.fab.asm.filter fun a => sameMessage a e
      let frags := mine.flatMap Assembly.frags
      let op := if Cell.opc c = opMSG then opMSGD else opSTD
      let data := frags.map fun f =>
        ({ hdr := mkHdr (Cell.dpkg c) p (Cell.spkg c) (Cell.sport c) op (Cell.cls c) (Cell.cellCtx c) (Cell.tag c) f.1, payload := f.2 } : Cell)
      let head := Cell.withDport c p
      let s1 := { s with fab := { s.fab with asm := s.fab.asm.filter (fun a => !sameMessage a e) ++
        [{ e with head := some head, frags := frags }] } }
      ((head :: data).foldl State.fly s1).hubTidy e

/-- A data cell: it follows its head, or waits for it. Without space the message is refused and its issuer told once. -/
def State.hubData (s : State) (hub : Nat) (c : Cell) : State :=
  let e := hubEntry hub c
  let frag := (Cell.frag c, c.payload)
  match s.fab.asm.find? fun a => sameMessage a e && (a.refused || a.head.isSome) with
  | some a =>
    if a.refused then s
    else
      let p := (a.head.map Cell.dport).getD 63
      let s1 := { s with fab := { s.fab with asm := s.fab.asm.map fun x => if x == a then { x with frags := frag :: x.frags } else x } }
      (s1.fly (Cell.withDport c p)).hubTidy e
  | none =>
    if s.hubRoom hub c then
      match s.fab.asm.find? fun a => sameMessage a e && a.port == 64 + hub with
      | some a => { s with fab := { s.fab with asm := s.fab.asm.map fun x => if x == a then { x with frags := frag :: x.frags } else x } }
      | none => { s with fab := { s.fab with asm := s.fab.asm ++ [{ e with frags := [frag] }] } }
    else
      { s with lnk := { s.lnk with reorderBusy := bump s.lnk.reorderBusy },
               fab := { s.fab with asm := s.fab.asm.filter (fun a => !sameMessage a e) ++ [{ e with refused := true }] } }.launch
        (respond c opNACKBUSY 0 0 0 0)

/-- A cell leaves a link at its hub. -/
def State.hubArrive (s : State) (l : Nat) (c : Cell) : State :=
  let o := Cell.opc c
  if !opListed o || Cell.cls c = 3 then s.dropBad c
  else if o = opIDLE then s
  else if Cell.dpkg c ≠ s.fab.pkgId.toNat then s.transit c
  else if opIsRequest o && s.filtered c then s
  else if o = opLD ∨ o = opATOM then
    match s.hubPort (hubOf l) c with
    | some p => if s.severedPair (48 + hubOf l) p then s.launchAll (sourAnswers c .dark) else s.fly (Cell.withDport c p)
    | none => s.launchAll (sourAnswers c .unmapped)
  else if o = opST ∨ o = opMSG then s.hubHead (hubOf l) c
  else if o = opSTD ∨ o = opMSGD then s.hubData (hubOf l) c
  else if o = opABORT then s.fly (Cell.withDport c 52)
  else s.fly c

/-- A partial message that a hub holds is discarded. -/
def execReassemblyTimeout (hub : Fin 4) (pkg : PkgId) (c : CtxId) (tag : W16) (s : State) : Host.Outcome State Fault Refusal :=
  let gone (a : Assembly) : Bool := a.port == 64 + hub.val && a.pkg == pkg.val && (a.ctx == c.val || a.ctx == 64) && a.tag == tag
  .next { s with fab := { s.fab with asm := s.fab.asm.filter fun a => !gone a } }

/-! ## Groups (R329, R330) -/

/-- A group arrives: in order, its cells reach the hub; one that failed its CRC, and every one out of order, is discarded. -/
def State.groupIn (s : State) (l : Nat) (seq : BitVec 12) (crcOk : Bool) (cells : List Cell) : State :=
  let k := s.link l
  if k.mode ≠ .up then s
  else if !crcOk then s.onLink l fun k => { k with crcErr := bump k.crcErr }
  else if seq ≠ k.rxSeq then s
  else cells.foldl (fun a c => a.hubArrive l c) (s.onLink l fun k => { k with rxSeq := k.rxSeq + 1 })

def execLinkGroupReceive (l : LinkId) (seq : BitVec 12) (crcOk : Bool) (cells : List Cell) (s : State) :
    Host.Outcome State Fault Refusal := .next (s.groupIn l.val seq crcOk cells)

/-- A cumulative acknowledgement frees the replay buffer up to a group. -/
def State.groupsAcked (s : State) (l : Nat) (seq : BitVec 12) : State :=
  let k := s.link l
  if k.replay.any fun e => e.1 == seq then
    let rest := (k.replay.dropWhile fun e => e.1 != seq).drop 1
    (s.onLink l fun k => { k with replay := rest, failRun := 0 }).drainLink l
  else s

def execLinkAck (l : LinkId) (seq : BitVec 12) (s : State) : Host.Outcome State Fault Refusal := .next (s.groupsAcked l.val seq)

/-- A NAK: the sender replays from the group named; when its eighth replay has failed too, a fast retrain starts. -/
def State.groupNaked (s : State) (l : Nat) (seq : BitVec 12) : State :=
  let k := s.link l
  if k.mode = .up ∧ k.replay.any (fun e => e.1 == seq) then
    let run := if k.failSeq = seq ∧ k.failRun ≠ 0 then k.failRun + 1 else 1
    if 9 ≤ run then s.fastRetrain l
    else s.onLink l fun k => { k with replays := bump k.replays, failSeq := seq, failRun := run }
  else s

def execLinkNak (l : LinkId) (seq : BitVec 12) (s : State) : Host.Outcome State Fault Refusal := .next (s.groupNaked l.val seq)

/-! ## Link-state notices (R341) -/

/-- Width of this package's widest UP direct link to a package. -/
def State.widest (s : State) (d : Nat) : Nat :=
  allLinks.foldl (fun m l => if (s.link l).mode == .up && (s.link l).peerPkg.toNat == d then max m (s.link l).width.toNat else m) 0

def State.noticeBytes (s : State) : List Byte :=
  (List.range 32).map fun i => BitVec.ofNat 8 (s.widest (2 * i) + 16 * s.widest (2 * i + 1))

/-- A hub sends its notice over one of its UP links to each peer it has. -/
def State.sendNotices (s : State) (hub : Nat) : State :=
  let ls := (List.range 16).map (16 * hub + ·) |>.filter fun l => (s.link l).mode == .up
  let firsts := ls.filter fun l => !(ls.any fun k => decide (k < l) && (s.link k).peerPkg == (s.link l).peerPkg)
  let one (a : State) (l : Nat) : State :=
    let (t, a1) := a.takeTag (48 + hub)
    let cells := (msgCells a.fab.pkgId.toNat (s.link l).peerPkg.toNat 63 t.toNat 0xF00 s.noticeBytes).map fun c =>
      ({ c with hdr := BitVec.ofNat 64 (withBits c.hdr.toNat 40 6 (48 + hub)) } : Cell)
    let o : Op := { port := 48 + hub, tag := t, ctx := 0, issuer := .controller, addr := 0, cells := cells, issuedAt := a.clk.now,
                    heard := a.clk.now }
    cells.foldl (fun b c => b.sendLink l c) { a1 with fab := { a1.fab with ops := a1.fab.ops ++ [o] } }
  firsts.foldl one s

def execLinkStateNoticeSend (hub : Fin 4) (s : State) : Host.Outcome State Fault Refusal := .next (s.sendNotices hub.val)

/-- A notice of a package is taken from its mailbox; EFF follows. -/
def execLinkStateNotice (pkg : PkgId) (widths : List Byte) (s : State) : Host.Outcome State Fault Refusal :=
  .next { s with lnk := { s.lnk with notices := Tbl.put [] s.lnk.notices pkg.val widths },
                 fab := { s.fab with mail := s.fab.mail.filter fun m => !(m.mailbox == 0xF00 && m.pkg == pkg.val) } }

/-- The last notice of a package is older than 3 s: it counts as all zero. -/
def execNoticeExpire (pkg : PkgId) (s : State) : Host.Outcome State Fault Refusal :=
  .next { s with lnk := { s.lnk with notices := Tbl.put [] s.lnk.notices pkg.val [] } }

end Sys2Proof.Machine
end

