-- ==== Sys2Proof/Machine/Clocks.lean ====
section
/-! DEFINITION. Clocks and time (R370 to R394). -/

namespace Sys2Proof.Machine

/-! ## Caps of a vat's root (R378, R415 to R417) -/

/-- The cap of a thermal level, rounded down to a step (R415). -/
def levelCap (ceiling level : Nat) : Nat :=
  match level with
  | 0 => 0
  | 1 => ceiling * 7 / 8
  | 2 => ceiling * 3 / 4
  | 3 => ceiling * 5 / 8
  | _ => 32

/-- The lower of two caps, where 0 is no cap. -/
def capMin (a b : Nat) : Nat := if a = 0 then b else if b = 0 then a else min a b

def State.fieldLevel (s : State) (f : Nat) : Nat := Tbl.look 0 s.thm.fieldLevel f
def State.vatLevel (s : State) (v : Nat) : Nat := Tbl.look 0 s.thm.vatLevel v

/-- Broken sensors of a region (R413). -/
def State.brokenIn (s : State) (r : Nat) : Nat := ((List.range 8).filter fun k => (Tbl.look {} s.thm.sensors (8 * r + k)).broken).length

/-- A field's broken sensors, an invalid ring estimate counting as one (R414). -/
def State.fieldBroken (s : State) (f : Nat) : Nat :=
  s.brokenIn (48 + f) + (if (Tbl.look {} s.rings.est f).valid then 0 else 1)

/-- The level at which a field acts on its dependants: 4 while two of its sensors are broken (R413, R416). -/
def State.fieldLevelEff (s : State) (f : Nat) : Nat := if 2 ≤ s.fieldBroken f then 4 else s.fieldLevel f

/-- The highest level of a column-0 field (R416). -/
def State.col0Level (s : State) : Nat := [0, 5, 10, 15, 20, 25].foldl (fun m f => max m (s.fieldLevelEff f)) 0

/-- The thermal cap of vat v (R413, R416, R417). -/
def State.thermalCap (s : State) (v : Nat) : Nat :=
  let ceil := s.fuses.variant.ceiling
  let blind := if 2 ≤ s.brokenIn v then 32 else 0
  capMin (capMin (levelCap ceil (s.vatLevel v)) (levelCap ceil (s.fieldLevelEff (halfField (vatPort v)))))
    (capMin (levelCap ceil s.col0Level) blind)

def State.fallbackCap (s : State) (v : Nat) : Nat := (s.vat v).fallbackCap.elim 0 BitVec.toNat

/-- The frequency that the caps allow (R378), never below 0.8 GHz. -/
def State.capped (s : State) (v : Nat) (withFallback : Bool) : Nat :=
  let c := capMin (capMin s.pwr.cap.toNat (s.thermalCap v)) (s.vat v).irCap.toNat
  let c := if withFallback then capMin c (s.fallbackCap v) else c
  max 32 (capMin c s.fuses.variant.ceiling)

/-- CLK_VAT_CTRL.FREQ in effect. -/
def State.fixedFreq (s : State) (v : Nat) : Nat := (s.vat v).freq.elim s.fuses.variant.ceiling BitVec.toNat

/-- Where the root is heading: the highest step under the caps, or FREQ in fixed mode unless a cap is below it
(R378, R383). -/
def State.rootTarget (s : State) (v : Nat) : Nat :=
  if (s.vat v).fixed then min (s.fixedFreq v) (s.capped v true) else s.capped v true

/-- The binding cap: 0 none, 1 power, 2 thermal, 3 IR-drop, 4 fallback (CLK_VAT_STATUS.CAP_SRC). -/
def State.capSource (s : State) (v : Nat) : Nat :=
  let lim := if (s.vat v).fixed then s.fixedFreq v else s.fuses.variant.ceiling
  let t := s.capped v true
  if lim ≤ t then 0
  else if s.pwr.cap.toNat = t then 1
  else if s.thermalCap v = t then 2
  else if (s.vat v).irCap.toNat = t then 3
  else 4

/-- A vat's root runs unless the vat is gated without bank activity, in reset or out of service (R370, R393). -/
def Vat.rootRuns (v : Vat) : Bool :=
  match v.run with
  | .idle | .run | .swap => true
  | .gated => v.banksOn
  | _ => false

/-- The start of an override of fixed mode, counted and recorded once (R383). -/
def State.noteOverride (s : State) (v : Nat) : State :=
  let x := s.vat v
  let now := x.fixed && decide (s.capped v false < s.fixedFreq v)
  if now && !x.overridden then
    (s.onVat v fun x => { x with overridden := true, fixedOvrCnt := bump x.fixedOvrCnt }).note 0x0206 .info unitClock
      [BitVec.ofNat 64 v, BitVec.ofNat 64 (s.capSource v)]
  else if !now && x.overridden then s.onVat v fun x => { x with overridden := false }
  else s

/-- The frequency after one step toward the target (R378). A root that runs the banks of a gated vat alone is at
0.8 GHz (R85). -/
def State.stepFreq (s : State) (v : Nat) : Nat :=
  let x := s.vat v
  if !x.rootRuns then 0
  else if x.run = .gated then 32
  else
    let cur := max 32 x.freqNow.toNat
    let t := s.rootTarget v
    if cur < t then cur + 1 else if t < cur then cur - 1 else cur

def execVatFreqStep (v : VatId) (s : State) : Host.Outcome State Fault Refusal :=
  .next ((s.onVat v.val fun x => { x with freqNow := BitVec.ofNat 7 (s.stepFreq v.val) }).noteOverride v.val)

/-- STRETCH_FALLBACK, at most once per vat per second, with the count (R381). -/
def State.noteFallback (s : State) (v : Nat) : State :=
  let x := s.vat v
  if x.fallbackRecTime.all fun t => t.toNat + 1000000000 ≤ s.time then
    (s.onVat v fun x => { x with fallbackRecTime := some s.clk.now }).note 0x0205 .info unitClock
      [BitVec.ofNat 64 v, x.fallbackCnt.zeroExtend 64]
  else s

/-- A detector fires (R379 to R381): outside the mask the next period stretches by `eighths` of 1 to 4 eighths; within
the 1,023 cycles after a stretch the root falls back. A fallback already in force is not lowered again. -/
def State.droop (s : State) (v : Nat) : State :=
  let x := s.vat v
  if !x.rootRuns then s
  else if x.lastStretch.all fun c => c.toNat + 1023 < x.cycles.toNat then
    s.onVat v fun x => { x with stretchCnt := bump x.stretchCnt, lastStretch := some x.cycles }
  else
    let low := max 32 (ceilDiv (15 * x.freqNow.toNat) 16)
    let cap := x.fallbackCap.getD (BitVec.ofNat 7 low)
    (s.onVat v fun x =>
      { x with fallbackCap := some cap, fallbackCnt := bump x.fallbackCnt,
               freqNow := if x.fallbackCap.isNone then BitVec.ofNat 7 (min x.freqNow.toNat low) else x.freqNow }).noteFallback v

def execDroopDetect (v : VatId) (_eighths : Fin 5) (s : State) : Host.Outcome State Fault Refusal :=
  .next (s.droop v.val)

/-- The 100 µs hold ends; VAT_FREQ_STEP then returns the root step by step (R381). -/
def execFallbackRelease (v : VatId) (s : State) : Host.Outcome State Fault Refusal :=
  .next (s.onVat v.val fun x => { x with fallbackCap := none })

/-! ## Reference and holdover (R372 to R375) -/

/-- The time the loop has spent in the present holdover. -/
def State.holdoverSpan (s : State) : Nat :=
  if s.clk.source = .holdover then s.time - s.clk.holdoverFrom.toNat else 0

/-- The loop switches to the holdover oscillator (R372); a loss while it is there already changes nothing but
REF_VALID. -/
def State.loseRef (s : State) (byFrequency : Bool) : State :=
  let c := s.clk
  if c.source = .holdover then { s with clk := { c with refValid := false } }
  else
    let s1 := { s with clk := { c with source := .holdover, refValid := false, holdoverCnt := bump c.holdoverCnt,
                                       holdoverFrom := c.now, holdoverSeen := true } }
    s1.note 0x0201 .corrected unitClock [BitVec.ofNat 64 byFrequency.toNat]

def execRefLost (byFrequency : Bool) (s : State) : Host.Outcome State Fault Refusal := .next (s.loseRef byFrequency)

/-- The reference has been valid for 1 s: REVERTING (R374). -/
def execRefRestored (s : State) : Host.Outcome State Fault Refusal :=
  .next (if s.clk.source = .holdover then
    { s with clk := { s.clk with source := .reverting, refValid := true,
                                 holdoverFrom := BitVec.ofNat 64 s.holdoverSpan } }
  else s)

/-- The loop is locked to the reference: REF_RESTORED carries the duration of the holdover (R374). -/
def execRevertLocked (s : State) : Host.Outcome State Fault Refusal :=
  .next (if s.clk.source = .reverting then
    { s with clk := { s.clk with source := .refclk } }.note 0x0202 .info unitClock [s.clk.holdoverFrom]
  else s)

/-! ## Die loops (R376, R377) -/

/-- Losses of one clock within the last 3,600 s, this one included. -/
def State.recentLosses (s : State) (d : Nat) : List W64 :=
  s.clk.now :: (Tbl.look [] s.clk.dieLosses d).filter fun t => s.time < t.toNat + 3600000000000

/-- A compute die retires: its vats and cream dies leave service (R23, R168, R478). -/
def State.retireDie (s : State) (d : Nat) : State :=
  let clear (m : W32) : W32 := (dieVats d).foldl (fun m v => bvSet m v false) m
  let s1 := (dieVats d).foldl (fun (a : State) v => a.onVat v fun x => { x with run := .retired }) s
  let s2 := (diePorts d).foldl (fun (a : State) c =>
    (a.onCream c fun x => { x with mode := .retired }).onPort c fun x => { x with mode := .retired }) s1
  { s2 with inv := { s2.inv with
      vatMap := clear s2.inv.vatMap, cdMap := bvSet s2.inv.cdMap d false,
      creamMap := (diePorts d).foldl (fun m c => bvSet m c false) s2.inv.creamMap } }

/-- Retires a die for a cause that persists (R478), with the die reset's effects (R18, R21). Cause numbers are those
of log 22. -/
def State.retireDieFor (s : State) (d cause : Nat) (code : W16) (details : List W64) : State :=
  let s1 := s.record code .unit (unitDie d) none (details ++ [BitVec.ofNat 64 cause]) (some (.die d))
  let s2 := s1.finish.retireDie d
  (((s2.takeOver fun k => k == .die (Fin.ofNat 8 d)).endHandling (.die d)).abortLoads fun t => t.vat / 4 == d)
    |> fun a => { a with inv := { a.inv with dieRetired := bvSet a.inv.dieRetired d true,
                                             dieInReset := bvSet a.inv.dieInReset d false } }

/-- Clock loss of a compute die: a die reset, or retirement at the third within 3,600 s; a compute reset in progress
goes on with it (R377, R392). Of the I/O die: its host port falls silent. -/
def State.clockLoss (s : State) (d : Nat) : State :=
  let c := s.clk
  let recent := s.recentLosses d
  let s1 := { s with clk := { c with dieLock := bvSet c.dieLock d false, dieLossCnt := bump c.dieLossCnt,
                                     dieLosses := Tbl.put [] c.dieLosses d recent } }
  if d = 8 then
    let s2 := (s1.record 0x0204 .unit unitHost none [8, 0]).finish
    { s2 with eth := { s2.eth with mode := .down, speed := 0 } }
  else if 3 ≤ recent.length then
    (s1.retireDieFor d 3 0x0204 [BitVec.ofNat 64 d, 1]).finish
  else if s1.err.resets.any (fun r => r.1 == .compute) then
    s1.announce { code := 0x0204, severity := .unit, unit := unitDie d, details := [BitVec.ofNat 64 d, 0], action := .dieReset,
                    nested := true, parent := (s1.err.handlings.head?.map fun h => h.seq).getD 0 }
  else (s1.record 0x0204 .unit (unitDie d) none [BitVec.ofNat 64 d, 0] (some (.die d))).finish

def execDieClockLoss (d : Fin 9) (s : State) : Host.Outcome State Fault Refusal := .next (s.clockLoss d.val)

/-- A field's active PLL fails: the other takes over, or the loss of both is a PACKAGE error (R376, R377). -/
def State.pllFail (s : State) (f : Nat) : State :=
  let p := Tbl.look 0 s.clk.plls f
  let active := p.getLsbD 2
  let other := p.getLsbD (if active then 0 else 1)
  let p1 := bvSet p (if active then 1 else 0) true
  if other then
    ({ s with clk := { s.clk with plls := Tbl.put 0 s.clk.plls f p1 } }.record (Config.unlistedCode 1) .package (unitField f) none
      [BitVec.ofNat 64 f, 1]).finish
  else
    { s with clk := { s.clk with plls := Tbl.put 0 s.clk.plls f (bvSet p1 2 (!active)) } }.note (Config.unlistedCode 0) .corrected (unitField f)
      [BitVec.ofNat 64 f, 0]

def execFieldPllFail (f : FieldId) (s : State) : Host.Outcome State Fault Refusal := .next (s.pllFail f.val)

end Sys2Proof.Machine
end

