-- ==== Sys2Proof/Machine/Power.lean ====
section
/-! DEFINITION. Power: input, rails, the limit and its enforcement (R24 to R27, R395 to R410, R421). -/

namespace Sys2Proof.Machine

/-! ## The effective limit (R26, R401) -/

/-- PWR_LIMIT in effect. -/
def State.pwrLimit (s : State) : Nat := s.pwr.limit.elim s.fuses.variant.watts BitVec.toNat

def State.effLimit (s : State) : Nat :=
  let l := min s.pwrLimit s.fuses.variant.watts
  s.pwr.lugClamp.elim l (min l)

/-- 0 LIMIT, 1 CEILING, 2 LUG (PWR_LIMIT_EFF, THROTTLE_REQUEST). A limit at the ceiling counts as CEILING (log 24). -/
def State.limitSource (s : State) : Nat :=
  if s.pwr.lugClamp.any fun c => c < min s.pwrLimit s.fuses.variant.watts then 2
  else if s.pwrLimit < s.fuses.variant.watts then 0 else 1

/-- The value that a write of PWR_LIMIT leaves (R3, R401). -/
def State.clampLimit (s : State) (w : Nat) : W16 := BitVec.ofNat 16 (clampNat 3000 s.fuses.variant.watts w)

/-! ## Means (R399) -/

/-- Power samples are in 0.01 W; a mean above `limit` W, over at most n samples. -/
def meanAbove (samples : List Nat) (n limit percent : Nat) : Bool :=
  let l := samples.take n
  decide (limit * percent * l.length < l.foldl (· + ·) 0)

def meanWatts (samples : List Nat) (n : Nat) : Nat :=
  let l := samples.take n
  if l.isEmpty then 0 else l.foldl (· + ·) 0 / (100 * l.length)

/-- One 10 µs measurement: volts in 0.01 V and the amperes of both pairs. Energy is kept below 1 mJ in units of
100 nJ, the product of 0.01 W and 10 µs. -/
def State.sampleEnergy (s : State) (cv : W16) (a b : BitVec 9) : State :=
  let p := cv.toNat * (a.toNat + b.toNat)
  let e := s.pwr.energyFrac + p
  let l := (p :: s.pwr.samples).take 100
  { s with pwr := { s.pwr with energy := bump s.pwr.energy (e / 10000), energyFrac := e % 10000, samples := l,
                               nowW := BitVec.ofNat 16 (meanWatts l 100), volts := cv, ampsA := a, ampsB := b } }

def execEnergySample (centivolts : W16) (ampsA ampsB : BitVec 9) (s : State) : Host.Outcome State Fault Refusal :=
  .next (s.sampleEnergy centivolts ampsA ampsB)

/-! ## Grace, enforcement and release (R402 to R405) -/

/-- Lowers the power cap one step, to the floor of 0.8 GHz. -/
def State.lowerCap (s : State) : State :=
  let c := if s.pwr.cap = 0 then s.fuses.variant.ceiling else s.pwr.cap.toNat
  { s with pwr := { s.pwr with cap := BitVec.ofNat 7 (max 32 (c - 1)) } }

/-- One 100 µs decision in ENFORCE: lower, record that lowering ended, or record that the floor was not enough. -/
def State.enforceStep (s : State) : State :=
  if meanAbove s.pwr.samples 10 s.effLimit 100 then
    if s.pwr.cap = 32 then
      if s.pwr.unreached then s
      else ({ s with pwr := { s.pwr with unreached := true } }.record 0x0405 .unit (unitRail 0)).finish
    else s.lowerCap
  else if s.pwr.enforceDone then s
  else { s with pwr := { s.pwr with enforceDone := true } }.note 0x0404 .corrected (unitRail 0)
    [BitVec.ofNat 64 s.effLimit, s.pwr.cap.zeroExtend 64]

/-- Entry into ENFORCE, with its first step. -/
def State.enterEnforce (s : State) : State :=
  { s with pwr := { s.pwr with state := .enforce, enforceCnt := bump s.pwr.enforceCnt, enforceDone := false,
                               unreached := false, belowRun := 0 } }.enforceStep

/-- A grace begins (R402). -/
def State.enterGrace (s : State) : State :=
  let e := BitVec.ofNat 64 (s.time + 1000000 * s.pwr.grace.toNat)
  let s1 := { s with pwr := { s.pwr with state := .grace, throttleCnt := bump s.pwr.throttleCnt } }
  s1.notify 0x0080 (beBytes 4 s.effLimit ++ beBytes 4 (meanWatts s.pwr.samples 100) ++ beBytes 1 s.limitSource ++
    List.replicate 7 0 ++ beBytes 8 e.toNat)

/-- The 100 µs comparison (R402, R404, R405). -/
def State.comparePower (s : State) : State :=
  let above := meanAbove s.pwr.samples 100 s.effLimit 100
  let run := if meanAbove s.pwr.samples 100 s.effLimit 97 then 0 else s.pwr.belowRun + 1
  match s.pwr.state with
  | .normal =>
    if above && s.pwr.normalSince.all (fun t => t.toNat + 1000000000 ≤ s.time) then s.enterGrace else s
  | .grace =>
    if above then s
    else { s with pwr := { s.pwr with state := .normal, normalSince := some s.clk.now } }.note 0x0403 .info (unitRail 0)
  | .enforce =>
    let s1 := { s with pwr := { s.pwr with belowRun := run } }.enforceStep
    if 100 ≤ run then { s1 with pwr := { s1.pwr with state := .release } } else s1
  | .release => if above then s.enterEnforce else s

def execPowerCompare (s : State) : Host.Outcome State Fault Refusal := .next s.comparePower

/-- The grace ends with the mean still above the limit (R402); in any other state nothing ends. -/
def execGraceExpire (s : State) : Host.Outcome State Fault Refusal :=
  .next (if s.pwr.state = .grace then s.enterEnforce else s)

/-- A lug pair above 190 A for 1 ms cuts the grace short (R403). -/
def execLugOvercurrent (_pairB : Bool) (s : State) : Host.Outcome State Fault Refusal :=
  .next (if s.pwr.state = .enforce then s else s.enterEnforce)

/-- One step up per millisecond in RELEASE; NORMAL when no cap remains (R405). -/
def State.raiseCap (s : State) : State :=
  let c := s.pwr.cap.toNat + 1
  if s.pwr.cap = 0 ∨ s.fuses.variant.ceiling ≤ c then
    { s with pwr := { s.pwr with cap := 0, state := .normal, normalSince := some s.clk.now } }
  else { s with pwr := { s.pwr with cap := BitVec.ofNat 7 c } }

def execReleaseStep (s : State) : Host.Outcome State Fault Refusal :=
  .next (if s.pwr.state = .release then s.raiseCap else s)

/-- POWER_LIMIT (R401, R444): sets PWR_LIMIT, clamped, and answers PWR_LIMIT_EFF in the byte order of R6. -/
def State.setLimit (s : State) (w : Nat) : State := { s with pwr := { s.pwr with limit := some (s.clampLimit w) } }

/-- PWR_LIMIT_EFF as it reads. -/
def State.limitEffWord (s : State) : Nat := packBits [(0, 16, s.effLimit), (16, 2, s.limitSource)]

def execPowerLimit (src : KcpSrc) (req : W32) (watts : W32) (s : State) : Host.Outcome State Fault Refusal :=
  let s1 := s.setLimit watts.toNat
  .next (s1.reply src req 0x0030 stOK (leBytes 4 s1.limitEffWord))

/-! ## Lug pairs (R26) -/

/-- The clamp that 190 A on one pair allows at the measured input voltage, in W. The laser converter's share is ahead
of the package measurement (R24), so it is taken from the input limit at its 380 W maximum (log 25). -/
def lugClampWatts (centivolts : Nat) : Nat := 190 * centivolts / 100 - 380

def State.lugLost (s : State) (pairB : Bool) : State :=
  let p := if pairB then { s.pwr with lugB := false } else { s.pwr with lugA := false }
  let one := p.lugA != p.lugB
  let s1 := { s with pwr := { p with lugClamp := if one then some (lugClampWatts p.volts.toNat) else p.lugClamp } }
  s1.note (Config.unlistedCode 2) .corrected (unitRail 0) [BitVec.ofNat 64 pairB.toNat]

def execLugPairLoss (pairB : Bool) (s : State) : Host.Outcome State Fault Refusal := .next (s.lugLost pairB)

/-- Every 1 ms the clamp follows the measured input voltage while one pair alone is present (R26). -/
def execLugClampRecompute (centivolts : W16) (s : State) : Host.Outcome State Fault Refusal :=
  .next { s with pwr := { s.pwr with volts := centivolts, lugClamp :=
    if s.pwr.lugA != s.pwr.lugB then some (lugClampWatts centivolts.toNat) else none } }

/-! ## Rails (R395 to R398) -/

/-- A rail's index in unit kind 12 (log 21): the order of R395's table. -/
def railNum : Rail → Nat
  | .vat v => v.val
  | .ret v => 32 + v.val
  | .cd d => 64 + d.val
  | .cream c => 72 + c.val
  | .churn => 88
  | .hbm k => 89 + k.val
  | .vddq k => 121 + k.val
  | .iod => 153
  | .bus6 => 154

/-- UNIT_RETIRED for a unit, with its cause (log 22). -/
def State.noteRetired (s : State) (unit : W16) (cause : Nat) : State :=
  s.record 0x0904 .unit unit none [unit.zeroExtend 64, BitVec.ofNat 64 cause]

/-- A vat leaves service: its contexts fault with CTX_UNIT_LOST, loads to it abort, its map bit clears (R23, R40). -/
def State.dropVat (s : State) (v : Nat) : State :=
  let s1 := (s.residents v).foldl (fun a c => a.ctxFault c 0x0805 (unitVat v) [] .context true) s
  let s2 := ((s1.stopTiles v).abortLoads fun t => t.vat == v).onVat v fun x => { x with run := .retired, freqNow := 0, ballast := 0 }
  { s2 with inv := { s2.inv with vatMap := bvSet s2.inv.vatMap v false } }.failRequests (fun k => k / 1024 == v)
    (fun _ => false) (fun _ => false) (fun _ => false) true

/-- A vat is retired for good. -/
def State.retireVat (s : State) (v cause : Nat) : State :=
  let s1 := (s.noteRetired (unitVat v) cause).dropVat v
  { s1 with inv := { s1.inv with vatRetired := bvSet s1.inv.vatRetired v true } }

/-- A cream die is retired (R168). -/
def State.retireCream (s : State) (c cause : Nat) : State :=
  let s1 := (s.noteRetired (unitCream c) cause).onCream c fun x => { x with mode := .retired, waking := false }
  { s1 with inv := { s1.inv with creamMap := bvSet s1.inv.creamMap c false,
                                 creamRetired := bvSet s1.inv.creamRetired c true } }.failRequests
    (fun _ => false) (· == c) (fun _ => false) (fun _ => false) true

/-- An HBM stack is retired (R322). -/
def State.retireStack (s : State) (k cause : Nat) : State :=
  let s1 := (s.noteRetired (unitStack k) cause).onStack k fun x => { x with mode := .retired }
  { s1 with inv := { s1.inv with stackMap := bvSet s1.inv.stackMap k false,
                                 stackRetired := bvSet s1.inv.stackRetired k true } }.failRequests
    (fun _ => false) (fun _ => false) (fun h => h % 32 == k) (fun a => a.port == 16 + k) true

/-- Calls for a halt of a kind, with the SEQ of the record that triggers it (R485). -/
def State.haltSoon (s : State) (kind : Nat) (seq : W64) : State :=
  { s with err := { s.err with todo := s.err.todo ++ [.halt kind seq] } }

/-- Rail faults of vat v within the last 3,600 s, this one included. -/
def State.recentRailFaults (s : State) (v : Nat) : List W64 :=
  s.clk.now :: (s.vat v).railFaults.filter fun t => s.time < t.toNat + 3600000000000

/-- A rail out of regulation (R397). -/
def State.railOut (s : State) (r : Rail) (mv : Nat) : State :=
  let s0 := { s with board := { s.board with pwrOk := false }, pwr := { s.pwr with badRails := r :: s.pwr.badRails } }
  let det := [BitVec.ofNat 64 (railNum r), BitVec.ofNat 64 mv]
  let plain (a : State) (start : Option Scope) : State := a.record 0x0401 .unit (unitRail (railNum r)) none det start
  let vatRail (v : Nat) : State :=
    let l := s0.recentRailFaults v
    let s1 := s0.onVat v fun x => { x with railFaults := l }
    if 3 ≤ l.length then (plain s1 none).retireVat v 4 else plain s1 (some (.vat v))
  (match r with
   | .vat v => vatRail v.val
   | .ret v => vatRail v.val
   | .cd d => plain s0 (some (.die d.val))
   | .cream c => (plain s0 none).retireCream c.val 4
   | .hbm k => (plain s0 none).retireStack k.val 4
   | .vddq k => (plain s0 none).retireStack k.val 4
   | .churn | .iod | .bus6 => (plain s0 none).haltSoon 2 s0.err.seqNext).finish

def execRailFault (r : Rail) (millivolts : Nat) (s : State) : Host.Outcome State Fault Refusal := .next (s.railOut r millivolts)

/-- The IR-drop cap of a TSV loss in tenths of a percent; `none` retires the vat (R398). -/
def irCapOf (loss : Nat) : Option Nat :=
  if loss ≤ 50 then some 0 else if loss ≤ 100 then some 64 else if loss ≤ 200 then some 48 else none

/-- A measured loss lowers the cap at once; `raise` (a compute reset) also raises it. Each change writes
PWR_TSV_CAP. -/
def State.irDrop (s : State) (v loss : Nat) (raise : Bool) : State :=
  match irCapOf loss with
  | none => s.retireVat v 5
  | some c =>
    let old := (s.vat v).irCap.toNat
    let new := if raise then c else capMin old c
    if new = old then s
    else (s.onVat v fun x => { x with irCap := BitVec.ofNat 7 new }).note 0x0402 .corrected (unitVat v)
      [BitVec.ofNat 64 v, BitVec.ofNat 64 loss, BitVec.ofNat 64 new]

/-- Losses are in tenths of a percent. Caps rise only in a compute reset (R398). -/
def execIrDropCheck (losses : List (VatId × Nat)) (s : State) : Host.Outcome State Fault Refusal :=
  let raise := s.err.resets.any fun r => r.1 == .compute
  .next ((losses.foldl (fun a (v, l) => if a.vatIn v.val then a.irDrop v.val l raise else a) s).finish)

/-! ## Input power and reset pins (R24, R27, R34, R387) -/

/-- Everything the loss of power takes: what remains is in fuses, in the FRU and in the flash (R27). -/
def State.powerLost (s : State) : State :=
  { ({} : State) with
    board := { resetN := s.board.resetN, leakN := s.board.leakN },
    inv := { cages := s.inv.cages },
    fuses := s.fuses, fru := s.fru,
    mc := { flash := s.mc.flash },
    svc := { btnDown := s.svc.btnDown },
    free := s.free, pending := s.pending }

/-- Input power comes into range: the clock unit locks, on the reference or on the holdover oscillator, and the time
counter starts at 0 (R375, R387); bring-up step 1 runs unless RESET_N is low. -/
def State.powerOn (s : State) (refValid : Bool) : State :=
  let s0 := s.powerLost
  let s1 : State := { s0 with
    board := { s0.board with inputOn := true, las12v := true },
    clk := { locked := true, source := if refValid then .refclk else .holdover, refValid := refValid,
             startedOnHoldover := !refValid, holdoverSeen := !refValid, holdoverCnt := if refValid then 0 else 1 },
    pwr := { lugA := true, lugB := true },
    mc := { s0.mc with step := if s0.board.resetN then 1 else 0 } }
  if refValid then s1 else s1.note 0x0203 .corrected unitClock

def execPowerApplied (refValid : Bool) (s : State) : Host.Outcome State Fault Refusal := .next (s.powerOn refValid)

/-- A trip of R27 waits for the restart condition. -/
def State.inputTrip (s : State) : State :=
  let s1 := s.powerLost
  { s1 with board := { s1.board with tripWait := true } }

def execUndervoltageTrip (s : State) : Host.Outcome State Fault Refusal := .next s.inputTrip
def execOvervoltageTrip (s : State) : Host.Outcome State Fault Refusal := .next s.inputTrip

/-- The restart condition of R27: power-on, if a trip waits for it. -/
def execInputRestart (refValid : Bool) (s : State) : Host.Outcome State Fault Refusal :=
  .next (if s.board.tripWait then s.powerOn refValid else s)

/-- RESET_N low for 10 µs: the power-on reset, held until it rises (R34). -/
def execResetNAssert (s : State) : Host.Outcome State Fault Refusal :=
  let s1 := s.powerOnReset
  .next { s1 with board := { s1.board with resetN := false }, mc := { s1.mc with step := 0 } }

/-- RESET_N rises: bring-up starts at step 1. A latched trip keeps the rails off (R34, R419). -/
def execResetNRelease (s : State) : Host.Outcome State Fault Refusal :=
  .next { s with board := { s.board with resetN := true },
                 mc := if s.board.inputOn && !s.board.resetN && !s.thm.trip then { s.mc with step := 1, stepStart := s.clk.now }
                   else s.mc }

/-! ## Management I2C (R36) -/

/-- A write to the status target is acknowledged and discarded. -/
def execI2cStatusWrite (_bytes : List Byte) (s : State) : Host.Outcome State Fault Refusal := .next s

end Sys2Proof.Machine
end

