-- ==== Sys2Proof/Machine/Thermal.lean ====
section
/-! DEFINITION. Sensors, thermal levels, throttling and the latched shutdown (R35, R177, R178, R312, R320, R411 to
R419, R422). -/

namespace Sys2Proof.Machine

/-! ## Regions (R411) -/

/-- Sensors of a region by its number (log 21). -/
def sensorCount (r : Nat) : Nat :=
  if r < 48 then 8
  else if r < 78 then (if [0, 5, 20, 25].contains (r - 48) then 3 else 2)
  else if r < 110 then 4 else 1

/-- Throttle threshold; the cream value is that of OWN (R177, R413). -/
def threshold (r : Nat) : Int := if 48 ≤ r ∧ r < 78 then 85 else if 110 ≤ r then 75 else 95

/-- Critical temperature; a laser cage has none. -/
def critical (r : Nat) : Option Int :=
  if r < 48 then some 110 else if r < 78 then some 100 else if r < 110 then some 105 else none

/-- The trip source of a region and its index within it (THM_STATUS). -/
def tripSource (r : Nat) : Nat × Nat :=
  if r < 32 then (1, r) else if r < 48 then (4, r - 32) else if r < 78 then (2, r - 48) else (3, r - 78)

def State.sensor (s : State) (r k : Nat) : Sensor := Tbl.look {} s.thm.sensors (8 * r + k)

/-- A sensor's value: a broken one reports its threshold plus 1 °C (R412). -/
def State.sensorValue (s : State) (r k : Nat) : Int := if (s.sensor r k).broken then threshold r + 1 else (s.sensor r k).value

/-- The hottest value of a region. -/
def State.hottest (s : State) (r : Nat) : Int :=
  (List.range (sensorCount r)).foldl (fun m k => max m (s.sensorValue r k)) (s.sensorValue r 0)

/-- Whether any sensor of a region has been read. -/
def State.sampled (s : State) (r : Nat) : Bool := (List.range (sensorCount r)).any fun k => (s.sensor r k).seen

/-- A ring estimate in whole °C, rounded down (THM_CHN.ESTIMATE). -/
def estimateC (e : FieldEst) : Int := signed 16 e.temp.toNat / 16

/-- The effective temperature of a field (R414): the estimate while the field is in disagreement; an invalid estimate
counts as a broken sensor. -/
def State.fieldTemp (s : State) (f : Nat) : Int :=
  let h := s.hottest (48 + f)
  let e := Tbl.look {} s.rings.est f
  if !e.valid then max h (threshold (48 + f) + 1)
  else if s.thm.disagree.getLsbD f then max h (estimateC e) else h

/-- The temperature whose excess sets a region's level. -/
def State.regionTemp (s : State) (r : Nat) : Int := if 48 ≤ r ∧ r < 78 then s.fieldTemp (r - 48) else s.hottest r

/-! ## Levels (R415) -/

def levelOf (e : Int) : Nat := if e ≤ 0 then 0 else if e ≤ 2 then 1 else if e ≤ 5 then 2 else if e ≤ 10 then 3 else 4

/-- Whether an excess lets a level fall by one. -/
def mayFall (level : Nat) (e : Int) : Bool :=
  match level with
  | 0 => false
  | 1 => e < -2
  | 2 => e ≤ 0
  | 3 => e ≤ 3
  | _ => e ≤ 8

def State.levelAt (s : State) (r : Nat) : Nat := if r < 32 then s.vatLevel r else s.fieldLevel (r - 48)

def State.setLevel (s : State) (r l : Nat) : State :=
  let s1 := if r < 32 then { s with thm := { s.thm with vatLevel := Tbl.put 0 s.thm.vatLevel r l } }
    else { s with thm := { s.thm with fieldLevel := Tbl.put 0 s.thm.fieldLevel (r - 48) l } }
  s1.note 0x0504 .info (unitThermal r) [BitVec.ofNat 64 r, BitVec.ofNat 64 l]

/-- A level rises at the sample that calls for it. -/
def State.raiseLevel (s : State) (r : Nat) : State :=
  let l := levelOf (s.regionTemp r - threshold r)
  if s.levelAt r < l then s.setLevel r l else s

/-- Regions that have levels: vats and Churn fields. -/
def leveled (r : Nat) : Bool := r < 32 || (48 ≤ r && r < 78)

/-! ## Broken sensors and blind regions (R412, R413) -/

/-- Marks a sensor broken; causes are 0 self-check, 1 range, 2 step (log 22). -/
def State.breakSensor (s : State) (r k cause : Nat) : State :=
  if (s.sensor r k).broken then s
  else
    let t := Tbl.upd {} s.thm.sensors (8 * r + k) fun x => { x with broken := true, critRun := 0 }
    let s1 := { s with thm := { s.thm with brokenCnt := bump s.thm.brokenCnt, sensors := t } }
    s1.note 0x0501 .corrected (unitThermal r) [BitVec.ofNat 64 r, BitVec.ofNat 64 k, BitVec.ofNat 64 cause]

def State.brokenCount (s : State) (r : Nat) : Nat := if 48 ≤ r ∧ r < 78 then s.fieldBroken (r - 48) else s.brokenIn r

/-- THM_REGION_BLIND when a region comes to have two broken sensors; it ends when they are restored. -/
def State.checkBlind (s : State) (r : Nat) : State :=
  if 2 ≤ s.brokenCount r then
    if s.thm.blind.contains r then s
    else { s with thm := { s.thm with blind := r :: s.thm.blind } }.record 0x0502 .unit (unitThermal r)
  else { s with thm := { s.thm with blind := s.thm.blind.filter (· ≠ r) } }

/-- A sample of one sensor: broken if out of range or if it moved by more than 10 °C (R412); otherwise its value, and
the run of critical samples (R418). -/
def State.readSensor (s : State) (r k : Nat) (v : Int) : State :=
  let x := s.sensor r k
  if x.broken then s
  else if v < -10 ∨ 140 < v then s.breakSensor r k 1
  else if x.seen && (decide (10 < v - x.value) || decide (10 < x.value - v)) then s.breakSensor r k 2
  else
    let run := if (critical r).any fun c => c ≤ v then x.critRun + 1 else 0
    let y : Sensor := { value := v, broken := false, critRun := run, seen := true }
    { s with thm := { s.thm with sensors := Tbl.put {} s.thm.sensors (8 * r + k) y } }

/-- Disagreement of a field's estimate with its sensors (R414). -/
def State.checkDisagree (s : State) (f : Nat) : State :=
  let e := Tbl.look {} s.rings.est f
  let h := s.hottest (48 + f)
  let excess := signed 16 e.temp.toNat - 16 * h
  if e.valid && decide (96 < excess) then
    let s1 := { s with thm := { s.thm with disagree := bvSet s.thm.disagree f true } }
    let last := Tbl.look 0 s.thm.disagreeRec f
    if last = 0 ∨ last.toNat + 1000000000 ≤ s.time then
      { s1 with thm := { s1.thm with disagreeRec := Tbl.put 0 s1.thm.disagreeRec f s.clk.now } }.note 0x0503 .corrected
        (unitThermal (48 + f)) [BitVec.ofNat 64 f, BitVec.ofInt 64 h, e.temp.signExtend 64]
    else s1
  else if !e.valid || decide (excess < 64) then { s with thm := { s.thm with disagree := bvSet s.thm.disagree f false } }
  else s

/-! ## The latched shutdown (R418, R419) -/

/-- A trip: latched once, with its source; every root stops, the laser supply and the package rails go. -/
def State.trip (s : State) (source region : Nat) (temp : Int) : State :=
  if s.thm.trip then s
  else
    let s1 := { s with thm := { s.thm with trip := true, source := BitVec.ofNat 3 source, region := BitVec.ofNat 12 region,
                                           tripTemp := temp } }
    let s2 := s1.dropRails
    { s2 with board := { s2.board with las12v := false } }

/-- A field that has been at or above 100 °C for one more sample. -/
def State.fieldCritical (s : State) (f : Nat) : State :=
  let n := if s.sampled (48 + f) && decide (100 ≤ s.fieldTemp f) then Tbl.look 0 s.thm.fieldCrit f + 1 else 0
  { s with thm := { s.thm with fieldCrit := Tbl.put 0 s.thm.fieldCrit f n } }

/-- The trip, if any, that the latest samples of a region call for. -/
def State.checkTrip (s : State) (r : Nat) : State :=
  let hot := (List.range (sensorCount r)).any fun k => 2 ≤ (s.sensor r k).critRun && !(s.sensor r k).broken
  let field := 48 ≤ r && r < 78 && 2 ≤ Tbl.look 0 s.thm.fieldCrit (r - 48)
  if hot || field then s.trip (tripSource r).1 (tripSource r).2 (s.regionTemp r) else s

/-- What one 10 µs round leaves of a region whose sensors have been read. -/
def State.roundOf (s : State) (r : Nat) : State :=
  let s1 := if 48 ≤ r ∧ r < 78 then (s.checkDisagree (r - 48)).fieldCritical (r - 48) else s
  let s2 := s1.checkBlind r
  (if leveled r then s2.raiseLevel r else s2).checkTrip r

def State.thermalRound (s : State) (readings : List Reading) : State :=
  let s1 := readings.foldl (fun a x => a.readSensor (regionNum x.region) x.sensor.val x.value) s
  let rs := (readings.map fun x => regionNum x.region).eraseDups
  (rs.foldl State.roundOf s1).finish

def execThermalSample (readings : List Reading) (s : State) : Host.Outcome State Fault Refusal := .next (s.thermalRound readings)

/-- The self-check of R412 each second. -/
def execSensorSelfCheck (failing : List (Region × Fin 8)) (s : State) : Host.Outcome State Fault Refusal :=
  let s1 := failing.foldl (fun a (r, k) => a.breakSensor (regionNum r) k.val 0) s
  .next ((failing.foldl (fun a (r, _) => a.checkBlind (regionNum r)) s1).finish)

/-- Each millisecond a region whose excess has fallen far enough falls one level (R415). -/
def State.decayLevels (s : State) : State :=
  let rs := List.range 32 ++ (List.range 30).map (· + 48)
  rs.foldl (fun a r => if mayFall (a.levelAt r) (a.regionTemp r - threshold r) then a.setLevel r (a.levelAt r - 1) else a) s

def execThermalLevelDecay (s : State) : Host.Outcome State Fault Refusal := .next s.decayLevels

/-- THERM_TRIP and its copy in the FRU (R419). -/
def State.recordTrip (s : State) : State :=
  if !s.thm.trip then s
  else
    let r := match s.thm.source.toNat with
      | 1 => s.thm.region.toNat
      | 4 => 32 + s.thm.region.toNat
      | 2 => 48 + s.thm.region.toNat
      | 3 => 78 + s.thm.region.toNat
      | _ => 0
    let rec0 : ErrRec := { code := 0x0505, severity := .fatal, unit := unitThermal r, action := .halt,
                           details := [s.thm.source.zeroExtend 64, BitVec.ofNat 64 r, BitVec.ofInt 64 s.thm.tripTemp] }
    let full := { rec0 with seq := s.err.seqNext, time := s.clk.now, pkg := s.fab.pkgId }
    let s1 := s.announce rec0
    { s1 with fru := { s1.fru with tripCopy := some full }, err := { s1.err with halt := true, haltKind := 3 },
              mc := { s1.mc with state := .fatal } }

def execThermTripRecord (s : State) : Host.Outcome State Fault Refusal := .next s.recordTrip

/-- LEAK_N low for 1 ms (R35, R418). -/
def execLeakDetect (s : State) : Host.Outcome State Fault Refusal :=
  .next ({ s with board := { s.board with leakN := false } }.trip 5 0 0)

/-! ## Cream dies and HBM stacks (R177, R178, R312, R320) -/

/-- BENEATH: the hottest of the 16 vat sensors under cream die c. -/
def State.beneath (s : State) (c : Nat) : Int := max (s.hottest (2 * c)) (s.hottest (2 * c + 1))

/-- One cream level: 0 full, 1 half, 2 quarter. Two broken sensors hold it at quarter (R413). -/
def creamTarget (b o : Int) (blind : Bool) : Nat := if blind ∨ 95 < b ∨ 95 < o then 2 else if 90 < b then 1 else 0

/-- Whether the values that raised a level have all fallen 2 °C below its threshold (R178). -/
def creamLeaves (x : Cream) (b o : Int) : Bool :=
  match x.level.toNat with
  | 2 => (!x.byBeneath || decide (b ≤ 93)) && (!x.byOwn || decide (o ≤ 93))
  | 1 => decide (b ≤ 88)
  | _ => true

def State.creamSample (s : State) (c : Nat) : State :=
  let x := s.cream c
  if x.mode = .reset ∨ x.mode = .retired then s
  else
    let b := s.beneath c
    let o := s.hottest (32 + c)
    let blind := 2 ≤ s.brokenIn (32 + c)
    let t := creamTarget b o blind
    let cur := x.level.toNat
    let new := if cur ≤ t then t else if creamLeaves x b o && !blind then t else cur
    let hotB := if new = 2 then decide (95 < b) else decide (90 < b)
    let hotO := decide (95 < o) || blind
    let s1 := s.onCream c fun x => { x with
      own := BitVec.ofInt 8 o, beneath := BitVec.ofInt 8 b, level := BitVec.ofNat 2 new,
      byBeneath := if new = cur then x.byBeneath || hotB else hotB, byOwn := if new = cur then x.byOwn || hotO else hotO }
    if new = cur then s1
    else s1.note 0x6004 .info (unitCream c) [BitVec.ofNat 64 c, BitVec.ofNat 64 new, BitVec.ofInt 64 b, BitVec.ofInt 64 o]

def execCreamThrottleSample (c : HalfId) (s : State) : Host.Outcome State Fault Refusal := .next (s.creamSample c.val)

/-- The issue level of a stack (R320), held by a blind region (R413). -/
def stackTarget (t : Int) (blind : Bool) : Nat := if blind ∨ 100 < t then 2 else if 95 < t then 1 else 0

/-- The lowest rate that the field beneath asks of its stacks (R416): half at levels 1 and 2, quarter above. -/
def State.fieldRate (s : State) (k : Nat) : Nat :=
  let l := s.fieldLevelEff (stackField k)
  if l = 0 then 0 else if l ≤ 2 then 1 else 2

def State.stackSample (s : State) (k : Nat) : State :=
  let x := s.stack k
  if x.mode = .retired then s
  else
    let t := s.hottest (78 + k)
    let blind := 2 ≤ s.brokenIn (78 + k)
    let cur := x.level.toNat
    let target := stackTarget t blind
    let leaves := (cur == 2 && decide (t ≤ 98)) || (cur == 1 && decide (t ≤ 93))
    let new := if cur ≤ target then target else if leaves && !blind then target else cur
    let hot := s.hbm.hot.getLsbD k
    let hot2 := if hot then decide (83 < t) else decide (85 < t)
    let s1 := s.onStack k fun x => { x with temp := BitVec.ofInt 8 t, level := BitVec.ofNat 2 new,
                                            fieldLevel := BitVec.ofNat 2 (s.fieldRate k) }
    let s2 := if new = cur then s1 else s1.note 0x0B06 .info (unitStack k) [BitVec.ofNat 64 k, BitVec.ofNat 64 new]
    if hot = hot2 then s2
    else { s2 with hbm := { s2.hbm with hot := bvSet s2.hbm.hot k hot2 } }.note 0x0B07 .info (unitStack k)
      [BitVec.ofNat 64 k, BitVec.ofNat 64 hot2.toNat]

def execHbmTempSample (k : StackId) (s : State) : Host.Outcome State Fault Refusal := .next (s.stackSample k.val)

end Sys2Proof.Machine
end

