-- ==== Sys2Proof/Machine/Time.lean ====
section
/-! DEFINITION. The passing of time: the time counter and everything that counts nanoseconds or vat cycles (R178, R320,
R370, R387, R390, R405, R409). -/

namespace Sys2Proof.Machine

/-- Cycles of a root over n nanoseconds, with the fraction it carries, in fortieths of a cycle. -/
def Vat.cyclesIn (v : Vat) (n : Nat) : Nat × Nat :=
  let x := v.cycleFrac + n * v.freqNow.toNat
  (x / 40, x % 40)

/-- A vat over n nanoseconds: its cycles, and the decay of its ballast at 32 A per 256 cycles; a stopped root's ballast has
decayed at 0.8 GHz (R410). -/
def Vat.elapse (v : Vat) (n : Nat) : Vat :=
  let (c, f) := v.cyclesIn n
  let decay := if v.freqNow = 0 then n * 32 / 40 else c
  { v with cycles := bump v.cycles c, cycleFrac := f, ballast := v.ballast - 125 * decay }

/-- Stacks below full rate (R320). -/
def State.slowStacks (s : State) : Nat :=
  (s.hbm.stackTbl.filter fun e => e.2.level != 0 || e.2.fieldLevel != 0).length

/-- n nanoseconds pass. The time counter runs from the first lock of the clock unit on (R387). -/
def State.elapse (s : State) (n : Nat) : State :=
  if !s.clk.locked then s
  else
    let slow (_ : Nat) (c : Cream) : Cream := if c.level = 0 then c else { c with throttleNs := bump c.throttleNs n }
    { s with
      clk := { s.clk with now := bump s.clk.now n,
                          holdoverNs := if s.clk.source = .holdover then bump s.clk.holdoverNs n else s.clk.holdoverNs },
      pwr := { s.pwr with enforceNs := if s.pwr.state = .enforce ∨ s.pwr.state = .release then bump s.pwr.enforceNs n
                                       else s.pwr.enforceNs },
      vats := Tbl.mapVals {} (fun _ v => v.elapse n) s.vats,
      creams := Tbl.mapVals {} slow s.creams,
      hbm := { s.hbm with throttleNs := bump s.hbm.throttleNs (n * s.slowStacks) } }

/-- The number of completed frames (R235). -/
def State.frame (s : State) : Nat := s.time / 10240

/-- Time up to the next instant that lies d nanoseconds before a frame boundary. -/
def State.elapseToFrame (s : State) (d : Nat) : State := s.elapse (10240 - (s.time + d) % 10240)

end Sys2Proof.Machine
end

