-- ==== Sys2Proof/Machine/Rings.lean ====
section
/-! DEFINITION. The ring control table, the loops, mislocks, remedies and the temperature estimate (R260 to R285). -/

namespace Sys2Proof.Machine

/-! ## Where a ring is (R233, R264, R265) -/

/-- First table entry of the weight rings, and the end of the populated guide family. -/
def arrayBase : Nat := 65536
def guideEnd : Nat := 37248

/-- A guide of a port: its port, direction and number among the port's guides of that direction; links have none. -/
def guidePlace (g : Nat) : Option (Nat × Bool × Nat) :=
  if g < 352 then some (g / 22, decide (g % 22 < 10), if g % 22 < 10 then g % 22 else g % 22 - 10)
  else if g < 640 then
    let k := (g - 352) % 9
    some (16 + (g - 352) / 9, decide (k < 5), if k < 5 then k else k - 5)
  else if g < 696 then
    let k := (g - 640) % 14
    some (48 + (g - 640) / 14, decide (k < 7), if k < 7 then k else k - 7)
  else if g < 712 then some (52, decide (g < 704), (g - 696) % 8)
  else none

/-- The table's entry of channel slot n of guide g. -/
def slotEntry (g n : Nat) : Nat := 48 * g + 3 * (n / 2) + n % 2

/-- The channel slot of an entry; none for a twin. -/
def slotOf (e : Nat) : Option Nat := if e % 48 % 3 = 2 then none else some (2 * (e % 48 / 3) + e % 48 % 3)

/-- The twin of an entry's pair. -/
def twinOf (e : Nat) : Nat := 48 * (e / 48) + 3 * (e % 48 / 3) + 2

/-- What a fabric wavelength serves: a port, the flex pool (60), or nothing yet (61, a spare). -/
def peerOf (port : Nat) (tx : Bool) (guide n : Nat) : Nat :=
  let split (a b : Nat) : Nat := if n < a then 48 + n / b else if n < a + 2 then 52 else 61
  if port < 16 then
    if tx then
      if guide < 6 then 16 + n else if guide < 8 then 60 else if guide = 8 then 48 + n / 8 else if n < 8 then 52 else 61
    else if guide < 8 then 16 + n else if guide < 10 then 60 else if guide = 10 then 48 + n / 8 else if n < 8 then 52 else 61
  else if port < 48 then
    if tx then (if guide < 4 then n / 2 else split 8 2) else if guide < 3 then n / 2 else split 8 2
  else if port < 52 then
    if guide < 4 then n / 2
    else if guide < 6 then 16 + n
    else if n < 12 then
      let i := n / 4
      48 + (if i < port - 48 then i else i + 1)
    else if n < 20 then 52 else 61
  else if guide < 4 then n / 2
  else if guide < 6 then 16 + n
  else if guide = 6 then 48 + n / 8
  else 61

/-- A fabric wavelength end: its table slot, port, direction, guide, channel and peer. -/
structure WaveEnd where
  slot : Nat
  port : Nat
  tx : Bool
  guide : Nat
  chan : Nat
  peer : Nat
deriving DecidableEq, Repr

def waveEnd (slot : Nat) : Option WaveEnd :=
  match guidePlace (slot / 48), slotOf slot with
  | some (p, tx, g), some n => if slot < guideEnd then some { slot := slot, port := p, tx := tx, guide := g, chan := n, peer := peerOf p tx g n } else none
  | _, _ => none

/-- The Churn field of an entry's ring control processor (R16, R17). -/
def ringField (e : Nat) : Nat :=
  let hubField (h : Nat) : Nat := if h = 0 then 0 else if h = 1 then 5 else if h = 2 then 20 else 25
  if arrayBase ≤ e then halfField ((e - arrayBase) / 4096)
  else match guidePlace (e / 48) with
    | some (p, _, _) => if p < 16 then halfField p else if p < 48 then stackField (p - 16) else if p < 52 then hubField (p - 48) else 10
    | none => hubField ((e / 48 - 712) / 16)

/-- The link and lane of a link ring, from its guide and channel. -/
def ringLane (e : Nat) (r : Ring) : Option (Nat × Nat) :=
  if e < guideEnd ∧ 712 ≤ e / 48 then some (e / 48 - 712, (r.chan.toNat - 1) / 4) else none

/-- KIND codes (R266). -/
def kindMOD : BitVec 3 := 0
def kindDROP : BitVec 3 := 1
def kindSELECT : BitVec 3 := 2
def kindWEIGHT : BitVec 3 := 3
def kindTWIN : BitVec 3 := 4

def RingState.inService : RingState → Bool
  | .acquire | .verify | .locked | .hold => true
  | _ => false

/-- The slot whose wavelength a fabric ring serves: its own, or a replaced ring's for a twin in use. -/
def servedSlot (e : Nat) (r : Ring) : Nat := match slotOf e with
  | some _ => e
  | none => slotEntry (e / 48) r.chan.toNat

/-- The ring that serves a slot: its own ring, or the twin that took over from it. -/
def State.serving (s : State) (slot : Nat) : Option Nat :=
  if (s.ring slot).state ≠ .retired then some slot
  else
    let t := twinOf slot
    let r := s.ring t
    if r.kind ≠ kindTWIN ∧ servedSlot t r = slot ∧ r.state ≠ .retired then some t else none

/-! ## Sectors and their light (R352, R359, R366) -/

/-- The sector that lights a transmit guide of a port. -/
def sectorOf (port guide : Nat) : Nat :=
  if port < 16 then port else if port < 48 then (port - 16) / 2
  else if port < 52 then 4 * (port - 48) + guide % 4
  else 2 * guide

/-- Whether the line of a transmit wavelength is below its limit, or its sector dark. -/
def State.lineLow (s : State) (w : WaveEnd) : Bool :=
  w.tx && match (s.sector (sectorOf w.port w.guide)).source with
    | none => true
    | some m => (s.cage m).lowLines.getLsbD w.chan

/-! ## Faults and remedies (R271, R278, R279) -/

def State.ringNote (s : State) (code : W16) (e : Nat) (details : List Nat) (sev : Severity := .corrected) : State :=
  s.note code sev (unitField (ringField e)) ((e :: details).map (BitVec.ofNat 64))

/-- A ring parks for good. -/
def Ring.retire (r : Ring) : Ring := { r with state := .retired, step := .none, dac := r.park, verifying := false }

/-- A spare of a port direction that is LOCKED and serves nothing, lowest first. -/
def State.freeSpare (s : State) (port : Nat) (tx : Bool) : Option Nat :=
  let slots := (List.range 776).flatMap fun g => match guidePlace g with
    | some (p, d, k) => if p = port ∧ d = tx then ((List.range 32).filter fun n => peerOf p d k n == 61).map (slotEntry g) else []
    | none => []
  slots.find? fun x => !(s.churn.spareOf.any fun e => e.2 == x) && match s.serving x with
    | some r => (s.ring r).state == .locked
    | none => false

/-- The wavelength slot that a lost slot's traffic belongs to: the one a spare in use replaces, else itself. -/
def State.replacedBy (s : State) (slot : Nat) : Nat := ((s.churn.spareOf.find? fun e => e.2 == slot).map Prod.fst).getD slot

/-- The first remedy of R278 for a ring in FAULT or retired under R277. -/
def State.remedy (s : State) (e : Nat) : State :=
  let r := s.ring e
  if arrayBase ≤ e then s
  else
    let t := twinOf e
    let twin := s.ring t
    if t ≠ e ∧ twin.state = .cold ∧ twin.kind = kindTWIN then
      let s1 := (s.onRing t fun x =>
        { x with chan := r.chan, kind := r.kind, pilot := r.pilot, state := .acquire, step := .fullAcquisition, dac := 0 }).onRing e Ring.retire
      s1.ringNote 0x0D02 e [1, t]
    else match ringLane e r with
      | some (l, lane) => s.setLaneLost l lane true
      | none =>
        match waveEnd (servedSlot e r) with
        | none => s
        | some w =>
          let home := s.replacedBy w.slot
          let spare := if w.peer = 61 ∧ home = w.slot then none else s.freeSpare w.port w.tx
          match spare with
          | some x =>
            let s1 := s.onRing e Ring.retire
            { s1 with churn := { s1.churn with spareOf := Tbl.put 0 s1.churn.spareOf home x } }.ringNote 0x0D02 e
              [2, (slotOf x).getD 0]
          | none => s.ringNote 0x0D05 e []

def RingCause.code : RingCause → Nat
  | .heater => 0
  | .monitor => 1
  | .acquisition => 2

/-- FAULT is entered, and counted. -/
def State.enterFault (s : State) (e : Nat) (step : RingStep) : State :=
  let s1 := s.onRing e fun r => { r with state := .fault, step := step, verifying := false }
  { s1 with rings := { s1.rings with faultCnt := bump s1.rings.faultCnt } }

def State.ringFails (s : State) (e : Nat) (cause : RingCause) : State :=
  ((s.enterFault e .none).ringNote 0x0D03 e [RingCause.code cause]).remedy e

def execRingFault (e : RingId) (cause : RingCause) (s : State) : Host.Outcome State Fault Refusal :=
  .next (if (s.ring e.val).state.inService then s.ringFails e.val cause else s)

/-! ## Calibration and mislock (R273 to R277, R280, R282) -/

/-- A field's ring estimate in sixteenths of a degree. -/
def State.fieldEst16 (s : State) (f : Nat) : Int := signed 16 (Tbl.look {} s.rings.est f).temp.toNat

/-- The number of the frame boundary at which an event counts. -/
def State.boundaryNow (s : State) : Nat := ceilDiv s.time 10240

/-- VERIFY to LOCKED. -/
def State.calibrate (s : State) (e : Nat) : State :=
  let f := s.boundaryNow
  let s1 := s.onRing e fun r =>
    { r with state := .locked, step := .none, verifying := false, lockDac := r.dac, lockTemp := s.fieldEst16 (ringField e),
             calCount := if r.calCount.toNat = 65535 then r.calCount else r.calCount + 1, lastCalFrame := BitVec.ofNat 48 f }
  { s1 with rings := { s1.rings with calCnt := bump s1.rings.calCnt, lastCal := BitVec.ofNat 64 (10240 * f) } }

/-- A window passes: the expected tone is at least four times every other. -/
def toneOk (pilot : Nat) (amps : List Nat) : Bool :=
  (List.range 32).all fun i => i == pilot || decide (4 * amps.getD i 0 ≤ amps.getD pilot 0)

/-- The tone that a window found strongest. -/
def toneFound (amps : List Nat) : Nat :=
  (List.range 32).foldl (fun b i => if amps.getD b 0 < amps.getD i 0 then i else b) 0

/-- A ring leaves service for good and takes the first remedy; without one it stays in FAULT, which counts. -/
def State.takeOut (s : State) (e : Nat) : State :=
  let s1 := (s.onRing e fun x => { x with state := .fault, step := .none, verifying := false, mislocks := [] }).remedy e
  if (s1.ring e).state = .fault then { s1 with rings := { s1.rings with faultCnt := bump s1.rings.faultCnt } } else s1

/-- A failed window (R276, R277): the third within 3,600 s retires the ring. -/
def State.mislock (s : State) (e found : Nat) : State :=
  let r := s.ring e
  let recent := r.mislocks.filter fun t => s.time ≤ t.toNat + 3600000000000
  let s1 := { s with rings := { s.rings with mislockCnt := bump s.rings.mislockCnt } }.ringNote 0x0D01 e [r.pilot.toNat, found]
  if 2 ≤ recent.length then s1.takeOut e
  else s1.onRing e fun x => { x with state := .acquire, step := .coldReset, verifying := false, mislocks := s.clk.now :: recent }

/-- Both windows of a wavelength that R231 took out of service have passed: the receiving ring is replaced, and the
transmitting one too if the wavelength had come back less than 1 s ago (R280). -/
def State.replaceFailed (s : State) (m d : Nat) : State :=
  let again := match s.churn.returned.find? fun e => e.1 == m with
    | some (_, t) => decide (s.time ≤ t.toNat + 1000000000)
    | none => false
  if again then (s.takeOut d).takeOut m else s.takeOut d

/-- An immediate window of R280 has passed on a ring. -/
def State.windowCleared (s : State) (e : Nat) : State :=
  let s1 := s.onRing e fun r => { r with verifying := false }
  (s.churn.failed.filter fun p => (p.1 == e || p.2 == e) && !(s1.ring p.1).verifying && !(s1.ring p.2).verifying).foldl
    (fun a p => a.replaceFailed p.1 p.2) s1

def State.windowEnds (s : State) (e : Nat) (amps : List Nat) : State :=
  let r := s.ring e
  let ok := toneOk r.pilot.toNat amps
  match r.state with
  | .locked => if !ok then s.mislock e (toneFound amps) else if r.verifying then s.windowCleared e else s
  | .verify => if ok then s.calibrate e else s.mislock e (toneFound amps)
  | _ => s

def execPilotWindowEnd (e : RingId) (amps : List Nat) (s : State) : Host.Outcome State Fault Refusal := .next (s.windowEnds e.val amps)

/-- A receiver's framing shows another source or channel: the cells count, and an immediate window follows (R275). -/
def execMisframe (e : RingId) (cells : Nat) (s : State) : Host.Outcome State Fault Refusal :=
  .next (if (s.ring e.val).state.inService then
    { s with rings := { s.rings with misframeCnt := bump s.rings.misframeCnt cells } } else s)

/-! ## HOLD (R262, R281) -/

/-- Monitor light has gone for a frame: the code freezes, and a mislock sequence is suspended. -/
def Ring.hold (r : Ring) : Ring :=
  match r.state, r.step with
  | .acquire, .fullAcquisition => r
  | .acquire, _ => { r with state := .hold, step := .suspended }
  | .verify, .relockWindow => { r with state := .hold, step := .suspended }
  | .locked, _ | .verify, _ => { r with state := .hold, step := .none, verifying := false }
  | _, _ => r

def Ring.release (r : Ring) : Ring :=
  match r.state, r.step with
  | .hold, .suspended => { r with state := .acquire, step := .coldReset }
  | .hold, _ => { r with state := .verify, step := .none }
  | _, _ => r

def execRingHold (e : RingId) (s : State) : Host.Outcome State Fault Refusal := .next (s.onRing e.val Ring.hold)

def execRingHoldEnd (e : RingId) (s : State) : Host.Outcome State Fault Refusal := .next (s.onRing e.val Ring.release)

/-! ## Full acquisition (R271, R279) -/

/-- The lowest of the dips at 4,096 and above whose window shows the tone. -/
def chooseDip (pilot : Nat) (dips : List Dip) : Option Nat :=
  let good := (dips.filter fun d => decide (4096 ≤ d.code ∧ d.code ≤ 65535) && toneOk pilot d.amps).map Dip.code
  good.foldl (fun b c => match b with
    | none => some c
    | some x => some (min x c)) none

/-- The code midway between the two dips nearest to code 0. -/
def parkCode (dips : List Dip) : Option Nat :=
  let codes := (dips.map Dip.code).mergeSort
  match codes with
  | a :: b :: _ => some ((a + b) / 2)
  | _ => none

def State.acquired (s : State) (e : Nat) (dips : List Dip) : State :=
  let r := s.ring e
  if r.step ≠ .fullAcquisition then s
  else
    let s1 := match parkCode dips with
      | some c => s.onRing e fun x => { x with park := BitVec.ofNat 16 c }
      | none => s
    match chooseDip r.pilot.toNat dips with
    | some c => (s1.onRing e fun x => { x with dac := BitVec.ofNat 16 c }).calibrate e
    | none => s1.ringFails e .acquisition

def execAcquisitionComplete (e : RingId) (dips : List Dip) (s : State) : Host.Outcome State Fault Refusal := .next (s.acquired e.val dips)

/-! ## The boundary's step (R261, R269, R272, R276) -/

/-- A ratio rounded to the nearest integer, ties to even. -/
def roundHalfEven (num : Int) (den : Nat) : Int :=
  let q := num / den
  let r := (num % den).toNat
  if 2 * r < den then q else if den < 2 * r then q + 1 else if q % 2 = 0 then q else q + 1

/-- The start code of R276, for a field estimate in sixteenths of a degree. -/
def Ring.startCode (r : Ring) (now : Int) : Nat := ((r.lockDac.toNat : Int) - roundHalfEven (153 * (now - r.lockTemp)) 32 - 546).toNat

/-- The step a ring requests at a boundary; `loop` is its loop's correction. -/
def Ring.request (r : Ring) (now loop : Int) : Int :=
  let up : Int := min 4096 ((r.startCode now : Int) - r.dac.toNat)
  match r.state, r.step with
  | .locked, _ => max (-64) (min 64 loop)
  | .verify, _ => loop
  | .acquire, .coldReset => -(min 4096 (r.dac.toNat : Int))
  | .acquire, .settle n => if n ≤ 1 then up else 0
  | .acquire, .raise => up
  | .acquire, .acquiring _ => loop
  | .acquire, .fullAcquisition => min 256 (65535 - (r.dac.toNat : Int))
  | .fault, .fullAcquisition => -(r.dac.toNat : Int)
  | _, _ => 0

/-- Whether the ring has a loop that can ask to go on at a rail. -/
def Ring.loops (r : Ring) : Bool :=
  match r.state, r.step with
  | .locked, _ | .verify, _ | .acquire, .acquiring _ => true
  | _, _ => false

/-- Where the sequence of R276 stands after a boundary that left the heater at code d. -/
def Ring.advance (r : Ring) (now : Int) (d : Nat) : Ring :=
  let x := { r with dac := BitVec.ofNat 16 d }
  let raised : Ring := if r.startCode now ≤ d then { x with step := .acquiring 4 } else { x with step := .raise }
  match r.state, r.step with
  | .acquire, .coldReset => if d = 0 then { x with step := .settle 2 } else x
  | .acquire, .settle n => if n ≤ 1 then raised else { x with step := .settle (n - 1) }
  | .acquire, .raise => raised
  | .acquire, .acquiring n => if n ≤ 1 then { x with state := .verify, step := .relockWindow } else { x with step := .acquiring (n - 1) }
  | .fault, .fullAcquisition => { x with state := .acquire }
  | _, _ => x

/-- The entry that neighbour code c of entry e names (R267). -/
def ringNeighbour (e c : Nat) : Nat :=
  let offs := if arrayBase ≤ e then [1, 64, 63, 65, 2, 128] else [1, 2, 3, 4, 5, 48, 96]
  let o := offs.getD ((c - 1) / 2) 0
  if c % 2 = 1 then e + o else e - o

/-- The compensation of a ring, from its neighbours' requested steps (R269). -/
def compensation (req : Tbl Int) (e : Nat) (r : Ring) : Int :=
  roundHalfEven ((List.range 8).foldl (fun (a : Int) k =>
    let c := bitsAt r.nbr.toNat (4 * k) 4
    if c = 0 then a else a + signed 16 (bitsAt r.coef.toNat (16 * k) 16) * Tbl.look 0 req (ringNeighbour e c)) 0) 32768

/-- Rings that take a code at a boundary: those with a loop or in a sequence. -/
def Ring.moves (r : Ring) : Bool := r.state == .acquire || r.state == .verify || r.state == .locked ||
  (r.state == .fault && r.step == .fullAcquisition)

/-- One ring at a boundary: the ring after it, and whether it met a rail. -/
def ringStep (est : Nat → Int) (loop req : Tbl Int) (e : Nat) (r : Ring) : Ring × Bool :=
  if !r.moves then (r, false)
  else
    let now := est (ringField e)
    let want := (r.dac.toNat : Int) + r.request now (Tbl.look 0 loop e) - compensation req e r
    let d := (max 0 (min 65535 want)).toNat
    if (want < 0 ∨ 65535 < want) ∧ r.loops then
      ({ r with dac := BitVec.ofNat 16 d, state := .fault, step := .fullAcquisition, verifying := false }, true)
    else (r.advance now d, false)

/-- Every ring takes its code at a frame boundary; the rails write their records. -/
def State.ringsAtBoundary (s : State) (steps : List (Nat × Int)) : State :=
  if !s.rings.built then s
  else
    let loop : Tbl Int := steps.foldl (fun t e => Tbl.put 0 t e.1 e.2) []
    let req : Tbl Int := (s.rings.table.map fun (e, r) => (e, r.request (s.fieldEst16 (ringField e)) (Tbl.look 0 loop e))).filter
      fun e => decide (e.2 ≠ 0)
    let next := s.rings.table.map fun (e, r) => (e, ringStep s.fieldEst16 loop req e r)
    let railed := (next.filter fun x => x.2.2).map Prod.fst
    let s1 := { s with rings := { s.rings with table := next.map fun x => (x.1, x.2.1),
                                               faultCnt := bump s.rings.faultCnt railed.length } }
    railed.foldl (fun a e => a.ringNote 0x0D04 e []) s1

/-! ## Building the table (R263, R265, R270) -/

/-- The populated entries with their kind and channel. -/
def ringPlan : List (Nat × BitVec 3 × Nat) :=
  let guide (g : Nat) : List (Nat × BitVec 3 × Nat) :=
    (List.range 48).map fun i =>
      let e := 48 * g + i
      match slotOf e, guidePlace g with
      | none, _ => (e, kindTWIN, 0)
      | some n, some (_, tx, _) => (e, if tx then kindMOD else kindDROP, n)
      | some n, none => (e, if n < 8 then kindMOD else if n < 16 then kindSELECT else kindDROP, 4 * (n % 8) + 1)
  (List.range 776).flatMap guide ++ (List.range 65536).map fun i => (arrayBase + i, kindWEIGHT, i % 64 % 32)

/-- First acquisition: every ring LOCKED and calibrated, every twin COLD. -/
def State.buildRings (s : State) : State :=
  let (k, s1) := s.takeFree
  let f := s.boundaryNow
  let mk (x : Nat × BitVec 3 × Nat) : Nat × Ring :=
    let dac := Config.ringCode k x.1
    let base : Ring := { dac := dac, kind := x.2.1, chan := BitVec.ofNat 5 x.2.2, pilot := BitVec.ofNat 5 x.2.2,
                         nbr := Config.ringNbr k x.1, coef := Config.ringCoef k x.1, park := Config.ringPark k x.1 }
    if x.2.1 = kindTWIN then (x.1, { base with state := .cold, dac := Config.ringPark k x.1 })
    else (x.1, { base with state := .locked, calCount := 1, lastCalFrame := BitVec.ofNat 48 f, lockDac := dac,
                           lockTemp := 16 * s.hottest (48 + ringField x.1) })
  let est : Tbl FieldEst := (List.range 30).map fun i => (i, { slope := Config.ringSlope k i })
  { s1 with rings := { s1.rings with built := true, table := ringPlan.map mk, est := est, calCnt := bump s1.rings.calCnt 90368,
                                     lastCal := BitVec.ofNat 64 (10240 * f) } }

/-! ## The table hash (R283) -/

/-- The 32 bytes of an entry (R266). -/
def Ring.word (r : Ring) (state : Nat) : Nat :=
  packBits [(0, 16, r.dac.toNat), (16, 5, r.chan.toNat), (21, 3, r.kind.toNat), (24, 3, state), (27, 5, r.pilot.toNat),
    (32, 32, r.nbr.toNat), (64, 128, r.coef.toNat), (192, 16, r.calCount.toNat), (208, 48, r.lastCalFrame.toNat)]

def RingState.code : RingState → Nat
  | .unpop => 0
  | .cold => 1
  | .acquire => 2
  | .verify => 3
  | .locked => 4
  | .hold => 5
  | .fault => 6
  | .retired => 7

/-- The bytes of all 131,072 entries with DAC, STATE, CAL_COUNT and LAST_CAL_FRAME read as 0. -/
def State.hashedTable (s : State) : List Byte :=
  let zeros (n : Nat) : List Byte := List.replicate (32 * n) 0
  let (bytes, last) := s.rings.table.foldl (fun (acc : List (List Byte) × Nat) (e, r) =>
    (leBytes 32 ({ r with dac := 0, calCount := 0, lastCalFrame := 0 }.word 0) :: zeros (e - acc.2) :: acc.1, e + 1)) ([], 0)
  (bytes.reverse ++ [zeros (131072 - last)]).flatten

def State.hashRings (s : State) : State :=
  if !s.rings.built then s
  else { s with rings := { s.rings with hash := digestOf s.hashedTable, hashSeq := bump s.rings.hashSeq } }

def execTableHashCompute (s : State) : Host.Outcome State Fault Refusal := .next s.hashRings

/-! ## The Churn as a thermometer (R284) -/

/-- The mean of R284 over n rings, in sixteenths of a degree: the greatest code not above it, and whether it is exact. -/
def meanEst (rs : List Ring) (slope : Nat) : Int × Bool :=
  let num : Int := rs.foldl (fun (a : Int) r => a + r.lockTemp * slope + 256 * ((r.lockDac.toNat : Int) - r.dac.toNat)) 0
  let den : Nat := rs.length * slope
  (num / den, num % den == 0)

def State.estimate (s : State) (f : Nat) : State :=
  if !s.rings.built then s
  else
    let rs := (s.rings.table.filter fun e => e.2.state == .locked && e.2.kind.toNat ≤ 2 && ringField e.1 == f).map Prod.snd
    let old := Tbl.look {} s.rings.est f
    let (k, s1) := s.takeFree
    let (low, exact) := meanEst rs old.slope.toNat
    let t := if exact ∨ !Config.estimateUp k then low else low + 1
    let new : FieldEst := { old with temp := BitVec.ofNat 16 (unsigned 16 t), valid := decide (32 ≤ rs.length),
                                     rings := BitVec.ofNat 16 rs.length }
    let s2 := { s1 with rings := { s1.rings with est := Tbl.put {} s1.rings.est f new } }
    let s3 := if old.valid && !new.valid then s2.note 0x0D06 .info (unitField f) [BitVec.ofNat 64 f] else s2
    ((s3.checkDisagree f).checkBlind (48 + f)).finish

def execTempEstimate (f : FieldId) (s : State) : Host.Outcome State Fault Refusal := .next (s.estimate f.val)

end Sys2Proof.Machine
end

