-- ==== Sys2Proof/Machine/Light.lean ====
section
/-! DEFINITION. The light supply: cages, acceptance, fade, swaps and dark sectors (R352 to R369). -/

namespace Sys2Proof.Machine

def allCages : List Nat := List.range 20
def allSectors : List Nat := List.range 16

/-- The light controller runs from the start of bring-up step 3 on, while its modules have their supply (R369, R419). -/
def State.lightRuns (s : State) : Bool := decide (3 ≤ s.mc.step.toNat) && s.board.las12v

/-! ## Fade (R358) -/

/-- The line with the lowest delta, and that delta. -/
def Cage.worst (c : Cage) : Nat × Int :=
  let delta (n : Nat) : Int := Tbl.look 0 c.line n - Tbl.look 0 c.ref n
  (List.range 32).foldl (fun b n => if delta n < b.2 then (n, delta n) else b) (0, delta 0)

/-- Thresholds of levels 1 to 4, in 0.01 dB. -/
def fadeAt : List Int := [-200, -300, -400, -1000]

/-- The level after a worst delta: it rises to what the delta calls for, and falls only 0.5 dB above a threshold. -/
def fadeLevel (old : Nat) (w : Int) : Nat :=
  max (fadeAt.filter fun t => decide (w ≤ t)).length ((fadeAt.take old).filter fun t => decide (w < t + 50)).length

/-- The mean of the last samples, rounded up: a mean is at or below a threshold exactly when the rounded one is. -/
def meanUp (l : List Int) : Int := if l.isEmpty then 0 else -((-(l.foldl (· + ·) 0)) / (l.length : Int))

/-- The lines dropped under R359: dropped at -4.0 dB, back above -3.5 dB. -/
def Cage.lowAfter (c : Cage) : W32 :=
  BitVec.ofNat 32 (maskOf 32 fun n =>
    let d := Tbl.look 0 c.line n - Tbl.look 0 c.ref n
    decide (d ≤ -400) || (c.lowLines.getLsbD n && decide (d ≤ -350)))

/-- A module after one sample of its 32 lines. -/
def Cage.sample (c : Cage) (powers : List Int) : Cage :=
  let taps (n : Nat) : List Int := (powers.getD n 0 :: Tbl.look [] c.taps n).take 10
  let c1 := (List.range 32).foldl (fun (a : Cage) n =>
    { a with taps := Tbl.put [] a.taps n (taps n), line := Tbl.put 0 a.line n (meanUp (taps n)) }) c
  { c1 with worstLine := c1.worst.1, worstDelta := c1.worst.2, level := fadeLevel c.level c1.worst.2 }

/-! ## The transmitters of a sector (R352, R359) -/

/-- Fabric wavelengths of a sector on one channel. -/
def fabricLines (k : Nat) : Nat :=
  20 + (if k % 4 ≤ 2 then 2 else 1) + (if k % 2 = 0 then 1 else 0)

/-- The table entries of a sector's transmitters on channel n: the modulators in use on it. -/
def State.sectorRings (s : State) (k n : Nat) : List Nat :=
  (s.rings.table.filter fun (e, r) => decide (e < guideEnd) && r.chan.toNat == n && match guidePlace (e / 48) with
    | some (p, tx, g) => tx && sectorOf p g == k
    | none => false).map Prod.fst

/-- The light of line n comes back to sector k: its rings verify, its link lanes are usable and firmware retrains. -/
def State.lineUp (s : State) (k n : Nat) : State :=
  let verify (r : Ring) : Ring := if r.state = .locked then { r with state := .verify, step := .none, verifying := false } else r
  let s1 := (s.sectorRings k n).foldl (fun a e => a.onRing e verify) s
  let s2 := if n % 4 = 1 then
      ((List.range 4).foldl (fun a i => a.setLaneLost (4 * k + i) (n / 4) false) s1).lnkRetrain (15 * 2 ^ (4 * k))
    else s1
  if n = 0 ∧ k % 2 = 1 then s2.ethLight ((k - 1) / 2) false else s2

/-- Line n of a sector drops (R359). -/
def State.lineDown (s : State) (m k n : Nat) : State :=
  let lanes := if n % 4 = 1 then 4 else 0
  let host := if n = 0 ∧ k % 2 = 1 then 1 else 0
  let counts := packBits [(0, 16, fabricLines k), (16, 16, lanes), (32, 16, 2), (48, 16, host)]
  let s1 := s.note 0x1007 .corrected (unitCage m) [BitVec.ofNat 64 k, BitVec.ofNat 64 n, BitVec.ofNat 64 counts]
  let s2 := if n % 4 = 1 then (List.range 4).foldl (fun a i => a.setLaneLost (4 * k + i) (n / 4) true) s1 else s1
  if host = 1 then s2.ethLight ((k - 1) / 2) true else s2

/-- A sector's dropped lines change. -/
def State.linesChange (s : State) (m k : Nat) (old new : W32) : State :=
  (List.range 32).foldl (fun a n =>
    if new.getLsbD n && !old.getLsbD n then a.lineDown m k n
    else if old.getLsbD n && !new.getLsbD n then a.lineUp k n else a) s

/-- The sector that a cage feeds. -/
def State.fedBy (s : State) (m : Nat) : Option Nat := allSectors.find? fun k => (s.sector k).source == some m

/-! ## The swap queue (R361, R365) -/

def SwapKind.rank : SwapKind → Nat
  | .emergency => 0
  | .expedited => 1
  | .scheduled => 2
  | .ret => 3

/-- Requests whose sector has left the source that they were to replace are cancelled. -/
def State.tidySwaps (s : State) : State :=
  { s with las := { s.las with queue := s.las.queue.filter fun e => (s.sector e.sector).source == some e.source } }

/-- Queues a swap away from cage m; a request of the same sector keeps the higher priority. -/
def State.askSwap (s : State) (k m : Nat) (kind : SwapKind) : State :=
  let moving := (s.sector k).swap.any fun x => x.source == m
  let entry : SwapReq := { sector := k, kind := kind, source := m, due := kind != .scheduled }
  let stronger (e : SwapReq) : Bool := e.sector == k && e.source == m && decide (e.kind.rank ≤ kind.rank)
  if moving ∨ s.las.queue.any stronger then s
  else { s with las := { s.las with queue := s.las.queue.filter (fun e => !(e.sector == k && e.source == m)) ++ [entry] } }

/-- Cages that some swap moves to. -/
def State.targets (s : State) : List Nat := s.las.sectors.filterMap fun e => e.2.swap.map Swap.target

def State.fit (s : State) (t : Nat) : Bool := (s.cage t).mode == .standby && decide (-200 < (s.cage t).worstDelta)

/-- A swap of lower priority that is still verifying its spare (R368). -/
def State.stealable (s : State) (k : Nat) : Option Nat :=
  allSectors.find? fun j => j != k && (s.sector j).swap.any fun x => x.phase == .verifying && (x.kind == .scheduled || x.kind == .expedited)

/-- The target of a swap: a RETURN goes to the sector's own cage, any other to the lowest eligible spare; a fading spare
may also go back to the sector's own module (R368). -/
def State.targetFor (s : State) (e : SwapReq) : Option Nat :=
  let free (t : Nat) : Bool := s.fit t && !s.targets.contains t
  match e.kind with
  | .ret => if free e.sector then some e.sector else none
  | _ =>
    match [16, 17, 18, 19].find? fun t => t != e.source && free t with
    | some t => some t
    | none => if 16 ≤ e.source ∧ free e.sector then some e.sector else none

/-- The request ahead of another: priority, then the worse fade, then the lower sector. -/
def State.ahead (s : State) (a b : SwapReq) : Bool :=
  let key (e : SwapReq) : Int := (s.cage e.source).worstDelta
  decide (a.kind.rank < b.kind.rank) || (a.kind.rank == b.kind.rank &&
    (decide (key a < key b) || (key a == key b && decide (a.sector < b.sector))))

/-- Whether a request could begin now but for its target. -/
def State.ready (s : State) (e : SwapReq) : Bool := e.due && (s.sector e.sector).swap.isNone

def State.startSwap (s : State) (e : SwapReq) (t : Nat) : State :=
  let sw : Swap := { kind := e.kind, source := e.source, target := t, phase := if e.kind = .emergency then .armed else .verifying }
  let s1 := s.onSector e.sector fun x => { x with swap := some sw }
  { s1 with las := { s1.las with queue := s1.las.queue.erase e, noSpare := bvSet s1.las.noSpare e.sector false } }

/-- Begins the queued swap of a sector, unless another waits ahead of it or four run; with no eligible target it
stays queued, and says so once. -/
def State.beginSwap (s : State) (k : Nat) : State :=
  match s.las.queue.find? fun e => e.sector == k && s.ready e with
  | none => s
  | some e =>
    let blocked := s.las.queue.any fun x => s.ready x && s.ahead x e && (s.targetFor x).isSome
    if 4 ≤ s.targets.length ∨ blocked then s
    else match s.targetFor e, s.stealable k, e.kind with
      | some t, _, _ => s.startSwap e t
      | none, some j, .emergency =>
        match (s.sector j).swap with
        | some x =>
          let s1 := s.onSector j fun y => { y with swap := none }
          let back : SwapReq := { sector := j, kind := x.kind, source := x.source }
          { s1 with las := { s1.las with queue := s1.las.queue ++ [back] } }.startSwap e x.target
        | none => s
      | none, _, .ret => s
      | none, _, _ =>
        if s.las.noSpare.getLsbD k then s
        else ({ s with las := { s.las with noSpare := bvSet s.las.noSpare k true } }.record 0x1004 .unit (unitCage e.source) none
          [BitVec.ofNat 64 k]).notifyService 2

/-- A queued swap is begun (R361, R365). -/
def execSwapBegin (sector : HalfId) (s : State) : Host.Outcome State Fault Refusal := .next (s.beginSwap sector.val).finish

def execScheduledSwapDue (sector : HalfId) (s : State) : Host.Outcome State Fault Refusal :=
  let due (e : SwapReq) : SwapReq := if e.sector = sector.val then { e with due := true } else e
  .next ({ s with las := { s.las with queue := s.las.queue.map due } }.beginSwap sector.val).finish

/-! ## Dark sectors (R366, R367) -/

/-- A die of a dark sector, whose reset its record has called for, is retired; it returns at a compute reset. -/
def State.sectorDie (s : State) (d : Nat) : State :=
  if !s.dieIn d then { s with inv := { s.inv with dieDarkSector := bvSet s.inv.dieDarkSector d true } }
  else
    let s1 := s.finish.retireDie d
    (((s1.takeOver fun k => k == .die (Fin.ofNat 8 d)).endHandling (.die d)).abortLoads fun t => t.vat / 4 == d)
      |> fun a => { a with inv := { a.inv with dieDarkSector := bvSet a.inv.dieDarkSector d true,
                                               dieInReset := bvSet a.inv.dieInReset d false } }

/-- A memory port of a dark sector goes dark, and its stack is treated as retired. -/
def State.darkMemory (s : State) (k : Nat) : State :=
  let p := 16 + k
  if s.isDark p then s
  else
    let s1 := (s.failRequests (fun _ => false) (fun _ => false) (fun h => h % 32 == k) (fun a => a.port == p) true).onPort p
      fun x => { x with mode := .dark }
    { s1 with fab := { s1.fab with dark := bvSet s1.fab.dark p true },
              inv := { s1.inv with stackMap := bvSet s1.inv.stackMap k false },
              churn := { s1.churn with darkNext := bvSet s1.churn.darkNext p true } }.note 0x0C05 .info (unitPort p)

/-- Sector k, which cage m fed, goes dark. -/
def State.sectorDark (s : State) (k m : Nat) : State :=
  let d := k / 2
  let s1 := (s.onSector k fun x => { x with source := none, swap := none }).record 0x1006 .unit (unitCage m) none [BitVec.ofNat 64 k]
    (if s.dieIn d then some (.die d) else none)
  let s2 := { s1 with las := { s1.las with dark := bvSet s1.las.dark k true } }.tidySwaps
  let s3 := ((s2.sectorDie d).darkMemory (2 * k)).darkMemory (2 * k + 1)
  let s4 := (List.range 4).foldl (fun a i =>
    match (a.link (4 * k + i)).mode with
    | .down | .disabled => a
    | _ => a.linkToDown (4 * k + i)) s3
  if k % 2 = 1 then s4.ethLight ((k - 1) / 2) true else s4

/-- A dark sector takes its source at a frame boundary. -/
def State.relightSector (s : State) (k m : Nat) : State :=
  let s1 := (s.onSector k fun x => { x with source := some m }).onCage m fun c => { c with mode := .active }
  let s2 := { s1 with las := { s1.las with dark := bvSet s1.las.dark k false, relight := Tbl.put none s1.las.relight k none } }
  let memory (a : State) (st : Nat) : State :=
    let a1 := a.onPort (16 + st) fun x => { x with mode := .lit }
    { a1 with fab := { a1.fab with dark := bvSet a1.fab.dark (16 + st) false },
              inv := { a1.inv with stackMap := bvSet a1.inv.stackMap st (!a1.inv.stackRetired.getLsbD st) } }.note 0x0C06 .info
      (unitPort (16 + st))
  let s3 := memory (memory s2 (2 * k)) (2 * k + 1)
  let s4 := (List.range 4).foldl (fun a i => a.linkTrain (4 * k + i)) s3
  let s5 := if k % 2 = 1 then s4.ethLight ((k - 1) / 2) false else s4
  s5.linesChange m k 0 (s5.cage m).lowLines

/-- The light controller's part of a frame boundary: dark sectors take their source, armed swaps start their crossfade. -/
def State.lightAtBoundary (s : State) : State :=
  let s1 := s.las.relight.foldl (fun a e => match e.2 with
    | some m => a.relightSector e.1 m
    | none => a) s
  let start (x : Sector) : Sector := match x.swap with
    | some y => if y.phase = .armed then { x with swap := some { y with phase := .crossfade } } else x
    | none => x
  { s1 with las := { s1.las with sectors := Tbl.mapVals {} (fun _ x => start x) s1.las.sectors } }

def execLasSectorDark (sector : HalfId) (s : State) : Host.Outcome State Fault Refusal :=
  .next (match (s.sector sector.val).source with
    | some m => (s.sectorDark sector.val m).finish
    | none => s)

/-! ## Acceptance (R355 to R357) -/

/-- A cage starts acceptance, if the light controller runs. -/
def State.acceptStart (s : State) (m : Nat) : State :=
  if s.lightRuns ∧ s.inv.cages.getLsbD m ∧ !(s.cage m).latchOpen then s.onCage m fun c => { c with mode := .accepting } else s

def execCagePresence (m : CageId) (s : State) : Host.Outcome State Fault Refusal :=
  .next (if s.inv.cages.getLsbD m.val then s
    else ({ s with inv := { s.inv with cages := bvSet s.inv.cages m.val true } }.onCage m.val fun c =>
      { c with latchOpen := false }).acceptStart m.val)

/-- The first failed step of an acceptance; step 5 also fails on a power outside 9.0 to 11.0 dBm. -/
def AcceptObs.failed (o : AcceptObs) : Option Nat :=
  match o.failedStep with
  | some k => some k.val
  | none => if (List.range 32).all fun n => decide (900 ≤ o.powers.getD n 0 ∧ o.powers.getD n 0 ≤ 1100) then none else some 5

/-- Commissioned powers: those stored for this cage and serial number, else the tap powers, which are stored. -/
def State.commission (s : State) (m : Nat) (o : AcceptObs) : List Int × State :=
  let c := Tbl.look {} s.fru.commissioned m
  if c.serial = o.serial ∧ !c.powers.isEmpty then (c.powers, s)
  else (o.powers, { s with fru := { s.fru with commissioned := Tbl.put {} s.fru.commissioned m { serial := o.serial, powers := o.powers } } })

def lineTable (l : List Int) : Tbl Int := (List.range 32).foldl (fun t n => Tbl.put 0 t n (l.getD n 0)) []

/-- A module is accepted. It goes on feeding the sector it feeds; otherwise a dark sector takes it at the next
boundary, or it stands by, and a RETURN swap to it is queued. -/
def State.accepted (s : State) (m : Nat) (o : AcceptObs) : State :=
  let (ref, s1) := s.commission m o
  let s2 := s1.onCage m fun c =>
    let c1 : Cage := { c with mode := .standby, level := 0, lit := true, taps := [], line := lineTable o.powers, ref := lineTable ref,
                              serial := o.serial, missed := 0, expedite := false, lowLines := 0 }
    { c1 with worstLine := c1.worst.1, worstDelta := c1.worst.2 }
  match s.fedBy m with
  | some k => (s2.onCage m fun c => { c with mode := .active }).linesChange m k (s.cage m).lowLines 0
  | none =>
    if s.mc.step = 3 then s2
    else
      let dark (k : Nat) : Bool := s.las.dark.getLsbD k && (Tbl.look none s.las.relight k).isNone
      let takes := if m < 16 ∧ dark m then some m else if 16 ≤ m then allSectors.find? dark else none
      match takes with
      | some k => { s2 with las := { s2.las with relight := Tbl.put none s2.las.relight k (some m) } }
      | none =>
        match (s2.sector m).source with
        | some x => if m < 16 ∧ s2.las.autoReturn then s2.askSwap m x .ret else s2
        | none => s2

def execAcceptanceComplete (m : CageId) (obs : AcceptObs) (s : State) : Host.Outcome State Fault Refusal :=
  .next (if (s.cage m.val).mode ≠ .accepting then s
    else match AcceptObs.failed obs with
      | some step => (s.onCage m.val fun c => { c with mode := .rejected, lit := false }).note 0x1005 .info (unitCage m.val)
          [BitVec.ofNat 64 m.val, BitVec.ofNat 64 step]
      | none => (s.accepted m.val obs).finish)

/-- The end of bring-up step 3: each sector takes its own cage, else the lowest accepted spare left, else it is dark. -/
def State.assignSectors (s : State) : State :=
  let pick (a : State) (k : Nat) : Option Nat :=
    if (a.cage k).mode = .standby then some k else [16, 17, 18, 19].find? fun t => (a.cage t).mode == .standby
  let own (a : State) (k m : Nat) : State :=
    (a.onSector k fun x => { x with source := some m }).onCage m fun c => { c with mode := .active }
  allSectors.foldl (fun a k => match pick a k with
    | some m => own a k m
    | none => a.sectorDark k k) s

/-! ## Samples and telemetry (R358 to R360) -/

/-- The rings of a sector on lines at -10 dB or lower hold. -/
def State.holdLines (s : State) (m k : Nat) : State :=
  let c := s.cage m
  ((List.range 32).filter fun n => decide (Tbl.look 0 c.line n - Tbl.look 0 c.ref n ≤ -1000)).foldl (fun a n =>
    (a.sectorRings k n).foldl (fun b e => b.onRing e Ring.hold) a) s

/-- LAS_FADE and FADE_ALARM. -/
def State.fadeAlarm (s : State) (m : Nat) : State :=
  let c := s.cage m
  let d := unsigned 16 c.worstDelta
  (s.note 0x1001 .info (unitCage m)
    [BitVec.ofNat 64 m, BitVec.ofNat 64 c.worstLine, BitVec.ofInt 64 c.worstDelta, BitVec.ofNat 64 c.level]).notify 0x0082
    (beBytes 1 m ++ beBytes 1 c.worstLine ++ beBytes 1 c.level ++ [0] ++ beBytes 2 d ++ [0, 0])

/-- What a level does when it rises or falls, for a module that feeds sector k. -/
def State.levelSwaps (s : State) (m k old new : Nat) : State :=
  let s1 := if new = 0 then
      { s with las := { s.las with queue := s.las.queue.filter fun e => !(e.source == m && e.kind == .scheduled) } }
    else if 2 ≤ new then (if old < 2 then s.askSwap k m .expedited else s)
    else if old = 0 then s.askSwap k m .scheduled else s
  if 4 ≤ new ∧ old < 4 then s1.holdLines m k else s1

/-- A sample of a lit module's lines. Lines do not drop while their sector is in a crossfade (R368). -/
def State.sampleLines (s : State) (m : Nat) (powers : List Int) : State :=
  let c := s.cage m
  if !s.lightRuns ∨ !c.lit then s
  else
    let fed := s.fedBy m
    let fading := fed.any fun k => (s.sector k).swap.any fun x => x.phase == .crossfade
    let c1 := c.sample powers
    let low := if fading then c.lowLines else c1.lowAfter
    let s1 := s.onCage m fun _ => { c1 with lowLines := low }
    let s2 := if c.level = 0 ∧ 0 < c1.level then s1.fadeAlarm m else s1
    match fed with
    | some k => ((s2.levelSwaps m k c.level c1.level).linesChange m k c.lowLines low)
    | none => s2

def execLinePowerSample (m : CageId) (powers : List Int) (s : State) : Host.Outcome State Fault Refusal :=
  .next (s.sampleLines m.val powers).finish

/-- A telemetry reading every 100 ms; it pauses while MC is in reset (R360). -/
def State.telemetry (s : State) (m : Nat) (answered : Bool) (temp : Int) (fault : Bool) : State :=
  if s.mc.mgmtReset ∨ !s.lightRuns ∨ !(s.cage m).lit then s
  else
    let s1 := if answered then
        ((s.onCage m fun c => { c with temp := BitVec.ofInt 8 temp, missed := 0, expedite := decide (75 < temp) || fault }).readSensor
          (110 + m) 0 temp).checkBlind (110 + m)
      else s.onCage m fun c => { c with missed := c.missed + 1, expedite := c.expedite || decide (10 ≤ c.missed + 1) }
    match s1.fedBy m with
    | some k => if (s1.cage m).expedite then s1.askSwap k m .expedited else s1
    | none => s1

def execLaserTelemetry (m : CageId) (answered : Bool) (temp : Int) (faultFlag : Bool) (s : State) :
    Host.Outcome State Fault Refusal := .next (s.telemetry m.val answered temp faultFlag).finish

/-! ## A swap's course (R362, R364) -/

def State.setPhase (s : State) (k : Nat) (p : SwapPhase) : State :=
  s.onSector k fun x => { x with swap := x.swap.map fun y => { y with phase := p } }

def State.phaseIs (s : State) (k : Nat) (p : SwapPhase) : Bool := (s.sector k).swap.any fun y => y.phase == p

def execSwapTargetVerified (sector : HalfId) (s : State) : Host.Outcome State Fault Refusal :=
  .next (if s.phaseIs sector.val .verifying then s.setPhase sector.val .armed else s)

/-- The target could not be verified within 10 ms. -/
def State.verifyFails (s : State) (k : Nat) : State :=
  match (s.sector k).swap with
  | some x =>
    if x.phase = .verifying then
      let s1 := ((s.onSector k fun y => { y with swap := none }).onCage x.target fun c => { c with mode := .out }).note 0x1003
        .corrected (unitCage x.target) [BitVec.ofNat 64 k, BitVec.ofNat 64 x.target]
      if x.kind = .ret then s1
      else
        let e : SwapReq := { sector := k, kind := x.kind, source := x.source }
        { s1 with las := { s1.las with queue := s1.las.queue ++ [e] } }.tidySwaps.beginSwap k
    else s
  | none => s

def execSwapVerifyTimeout (sector : HalfId) (s : State) : Host.Outcome State Fault Refusal := .next (s.verifyFails sector.val).finish

/-- The sector runs on the target alone. -/
def State.onTarget (s : State) (k : Nat) (x : Swap) : State :=
  let s1 := (s.onSector k fun y => { source := some x.target, swap := y.swap.map fun z => { z with phase := .confirming } }).onCage
    x.target fun c => if c.mode = .released then c else { c with mode := .active }
  let s2 := s1.tidySwaps.linesChange x.target k (s.cage x.source).lowLines (s.cage x.target).lowLines
  if (s.cage x.target).mode = .released then s2.askSwap k x.target .emergency else s2

def execCrossfadeEnd (sector : HalfId) (s : State) : Host.Outcome State Fault Refusal :=
  .next (match (s.sector sector.val).swap with
    | some x => if x.phase = .crossfade then (s.onTarget sector.val x).finish else s
    | none => s)

/-- The source left behind: a RETURN's spare stands by, a released module is switched off, any other is held OUT. -/
def Cage.leave (c : Cage) (kind : SwapKind) : Cage :=
  match c.mode, kind with
  | .released, _ => { c with lit := false }
  | .active, .ret => { c with mode := .standby }
  | .active, _ => { c with mode := .out }
  | _, _ => c

def State.confirmSwap (s : State) (k : Nat) : State :=
  match (s.sector k).swap with
  | some x =>
    if x.phase = .confirming then
      let s1 := (s.onSector k fun y => { y with swap := none }).onCage x.source fun c => c.leave x.kind
      { s1 with las := { s1.las with swapCnt := bump s1.las.swapCnt,
                                     emergCnt := if x.kind = SwapKind.emergency then bump s1.las.emergCnt else s1.las.emergCnt } }.note
        0x1002 .corrected (unitCage x.source)
        [BitVec.ofNat 64 k, BitVec.ofNat 64 x.source, BitVec.ofNat 64 x.target, BitVec.ofNat 64 (x.kind.rank + 1)]
    else s
  | none => s

def execSwapConfirm (sector : HalfId) (s : State) : Host.Outcome State Fault Refusal := .next (s.confirmSwap sector.val)

/-! ## Latches and extraction (R364, R366, R368) -/

/-- A release of the cage that feeds sector k. -/
def State.releaseSource (s : State) (k m : Nat) : State :=
  match (s.sector k).swap with
  | none => (s.askSwap k m .emergency).beginSwap k
  | some x =>
    match x.phase with
    | .verifying | .armed =>
      let urgent (y : Sector) : Sector := { y with swap := some { x with kind := .emergency, phase := .armed } }
      if x.source = m then s.onSector k urgent else s
    | .crossfade => if x.source = m then
        ((s.onSector k fun y => { y with swap := none }).askSwap k m .emergency).beginSwap k
      else s
    | .confirming => s.askSwap k m .emergency

/-- A release of a cage that another sector's swap moves to: an unstarted swap looks for another target. -/
def State.releaseTarget (s : State) (m : Nat) : State :=
  match allSectors.find? fun k => (s.sector k).swap.any fun x => x.target == m && (x.phase == .verifying || x.phase == .armed) with
  | none => s
  | some k =>
    match (s.sector k).swap with
    | some x =>
      let s1 := s.onSector k fun y => { y with swap := none }
      let e : SwapReq := { sector := k, kind := x.kind, source := x.source }
      if x.kind = .ret then s1 else { s1 with las := { s1.las with queue := s1.las.queue ++ [e] } }.beginSwap k
    | none => s

/-- Whether a module's light is in use: it feeds a sector, or one is in a crossfade to or from it. -/
def State.inUse (s : State) (m : Nat) : Bool :=
  allSectors.any fun k => (s.sector k).source == some m || (s.sector k).swap.any fun x => x.source == m || x.target == m

/-- An opening that lasted 20 µs. A rejected module stays rejected until it is taken out (R355). -/
def State.latchOpens (s : State) (m : Nat) : State :=
  let c := s.cage m
  let s1 := s.onCage m fun x => { x with latchOpen := true }
  if c.mode = .empty ∨ c.mode = .rejected ∨ c.mode = .released then s1
  else
    let s2 := s1.onCage m fun x => { x with mode := .released }
    let s3 := match s2.fedBy m with
      | some k => s2.releaseSource k m
      | none => s2.releaseTarget m
    if s3.inUse m then s3 else s3.onCage m fun x => { x with lit := false }

def execLatchRelease (m : CageId) (s : State) : Host.Outcome State Fault Refusal := .next (s.latchOpens m.val).finish

def execLatchClose (m : CageId) (s : State) : Host.Outcome State Fault Refusal :=
  .next (let s1 := s.onCage m.val fun x => { x with latchOpen := false }
    match (s.cage m.val).mode with
    | .released | .empty => s1.acceptStart m.val
    | _ => s1)

/-- A module leaves its cage. A sector that it fed takes the target of a swap under way, or goes dark. -/
def State.extract (s : State) (m : Nat) : State :=
  let fed := s.fedBy m
  let gone := ({ s with inv := { s.inv with cages := bvSet s.inv.cages m false } }.releaseTarget m).onCage m fun c =>
    { ({} : Cage) with latchOpen := c.latchOpen }
  match fed with
  | none => gone
  | some k =>
    match (gone.sector k).swap with
    | some x => if x.target = m then gone.sectorDark k m else gone.onTarget k x
    | none => gone.sectorDark k m

def execCageExtract (m : CageId) (s : State) : Host.Outcome State Fault Refusal :=
  .next (if s.inv.cages.getLsbD m.val then (s.extract m.val).finish else s)

end Sys2Proof.Machine
end

