-- ==== Sys2Proof/Machine/Separator.lean ====
section
/-! DEFINITION. The Separator: doorbells, jobs, scores, reloads and calibration passes (R286 to R306). -/

namespace Sys2Proof.Machine

/-! ## Addresses of a context's rings and jobs (R290) -/

def ringTile (r : Nat) : Nat := bitsAt r 0 10
def ringSlots (r : Nat) : Nat := 2 ^ min 6 (bitsAt r 10 3)
def ringOn (r : Nat) : Bool := bitAt r 13

/-- The header's window-relative address. -/
def ringHeader (r : Nat) : Nat := ringTile r * 2 ^ 19 + bitsAt r 14 13 * 64

/-- The slot of job n. -/
def slotAddr (r n : Nat) : Nat := ringHeader r + 64 + 64 * (n % ringSlots r)

/-- The local address of n bytes at a window-relative address of context c; none outside its tile's window (R53). -/
def State.windowed (s : State) (c : Nat) (x : Int) (n : Nat) : Option Nat :=
  if x < 0 ∨ 2 ^ 29 ≤ x then none
  else
    let a := x.toNat
    let t := a / 2 ^ 19
    let base := bitsAt (Tbl.look 0 (s.plane (s.ctxPlane c)).params (64 * t + 1)).toNat 0 4 * 0x8000
    let off := base + a % 2 ^ 19
    if s.inWindow c t off n then some (tileBase (s.ctx c).vat.toNat t + off) else none

/-- Whether n bytes hold no uncorrectable word. -/
def State.readable (s : State) (a n : Nat) : Bool := !(s.fab.bad.any fun e => decide (a < 8 * e.1 + 8 ∧ 8 * e.1 < a + n))

/-- n bytes of a context's window; none for an access that faults. -/
def State.sepRead (s : State) (c : Nat) (x : Int) (n : Nat) : Option (List Byte) :=
  (s.windowed c x n).bind fun a => if s.readable a n then some (s.bytesAt a n) else none

def State.sepWrite (s : State) (c : Nat) (x : Int) (b : List Byte) : Option State :=
  (s.windowed c x b.length).map fun a => (if a % 8 = 0 ∧ b.length % 8 = 0 then s.clearBad a b.length else s).setBytes a b

/-! ## Doorbells and turns (R291, R292) -/

/-- A store to a TAIL word is reported to the engine of the context's half. -/
def State.doorbell (s : State) (c : Nat) : State :=
  let x := s.ctx c
  let r := x.sepRing.toNat
  if !x.resident ∨ !ringOn r then s
  else match s.sepRead c (ringHeader r) 12 with
    | none => s
    | some b =>
      let tail := leNat (b.take 4)
      let done := leNat (b.drop 8)
      s.onEngine (x.vat.toNat / 2) fun e => { e with posted := Tbl.put none e.posted c (if tail = done then none else some (BitVec.ofNat 32 tail)) }

def execSepDoorbell (c : CtxId) (s : State) : Host.Outcome State Fault Refusal := .next (s.doorbell c.val)

/-- The context whose turn is next: round robin from the one after the last served. -/
def Engine.turn (e : Engine) : Option Nat :=
  ((List.range 64).map fun i => (e.lastServed + 1 + i) % 64).find? fun c => (Tbl.look none e.posted c).isSome

/-! ## Descriptors (R294) -/

def jobWord (d : BitVec 512) (off n : Nat) : Nat := bitsAt d.toNat (8 * off) (8 * n)
def jobStride (d : BitVec 512) (off : Nat) : Int := signed 32 (jobWord d off 4)
def jobMode (d : BitVec 512) : Nat := bitsAt (jobWord d 0x25 1) 0 2
def jobK (d : BitVec 512) : Nat := jobWord d 0x26 1
def jobFixed (d : BitVec 512) : Bool := bitAt (jobWord d 0x28 1) 0
def jobExp (d : BitVec 512) : Int := signed 8 (jobWord d 0x29 1)
def jobGain (d : BitVec 512) : Nat := bitsAt (jobWord d 0x27 1) 0 3
def jobVectors (d : BitVec 512) : Nat := jobWord d 0x18 4
def jobGroup (d : BitVec 512) : Nat := if jobWord d 0x1C 2 = 0 then 65536 else jobWord d 0x1C 2
def jobMatrix (d : BitVec 512) : W32 := BitVec.ofNat 32 (jobWord d 0x20 4)

/-- Bytes of an output record: RAW, SKIM_VEC, SKIM_JOB. -/
def jobRecord (d : BitVec 512) : Nat := if jobMode d = 0 then 64 else if jobMode d = 1 then 2 * jobK d else 4 * jobK d

/-- Every range of R294 holds. -/
def jobSound (d : BitVec 512) : Bool :=
  decide (jobWord d 0x00 4 % 64 = 0) && decide (jobStride d 0x04 % 64 = 0) && decide (jobStride d 0x08 % 64 = 0) &&
  decide (jobWord d 0x0C 4 % 16 = 0) && decide (jobStride d 0x10 % 16 = 0) && decide (jobStride d 0x14 % 16 = 0) &&
  decide (1 ≤ jobVectors d ∧ jobVectors d ≤ 2 ^ 24) && decide (bitsAt (jobWord d 0x24 1) 0 3 ≤ 4) && decide (jobMode d ≠ 3) &&
  (jobMode d == 0 || decide (1 ≤ jobK d ∧ jobK d ≤ 64)) && decide (jobGain d ≤ 6) && (jobMode d != 2 || jobFixed d) &&
  (!jobFixed d || decide (-9 ≤ jobExp d ∧ jobExp d ≤ 9)) && decide (jobRecord d ≤ (jobStride d 0x10).natAbs)

/-- The address of vector n's input, and of its output record. -/
def jobIn (d : BitVec 512) (n : Nat) : Int :=
  (jobWord d 0 4 : Int) + (n % jobGroup d : Nat) * jobStride d 0x04 + (n / jobGroup d : Nat) * jobStride d 0x08
def jobOut (d : BitVec 512) (n : Nat) : Int :=
  (jobWord d 0x0C 4 : Int) + (n % jobGroup d : Nat) * jobStride d 0x10 + (n / jobGroup d : Nat) * jobStride d 0x14

/-! ## The end of a job (R293, R295) -/

/-- DONE takes n + 1, and the engine is free for the next turn. -/
def State.jobDone (s : State) (g c n : Nat) : State :=
  let s1 := (s.sepWrite c (ringHeader (s.ctx c).sepRing.toNat + 8 : Nat) (leBytes 4 ((n + 1) % 2 ^ 32))).getD s
  s1.onEngine g fun e =>
    { e with mode := .idle, job := none, jobCnt := bump e.jobCnt, lastServed := c,
             posted := if Tbl.look none e.posted c = some (BitVec.ofNat 32 (n + 1)) then Tbl.put none e.posted c none else e.posted }

/-- STATUS, FLAGS, T_START and T_END, where the slot can be written. -/
def State.jobSlot (s : State) (c n status flags : Nat) (start stop : W64) : State :=
  let x := slotAddr (s.ctx c).sepRing.toNat n
  let s1 := (s.sepWrite c (x + 0x2A : Nat) [BitVec.ofNat 8 status, BitVec.ofNat 8 flags]).getD s
  (s1.sepWrite c (x + 0x30 : Nat) (leBytes 8 start.toNat ++ leBytes 8 stop.toNat)).getD s1

def sepOK : Nat := 1
def sepBadJob : Nat := 2
def sepNoMatrix : Nat := 3
def sepFaulted : Nat := 4

/-- A job that ends before it begins: its times are free (R294 states none). -/
def State.jobRefused (s : State) (g c n status : Nat) (code : W16) : State :=
  let (k, s1) := s.takeFree
  let s2 := (s1.jobSlot c n status 0 (Config.sepTime (2 * k)) (Config.sepTime (2 * k + 1))).jobDone g c n
  s2.note code .info (unitEngine g) [] (some c)

/-- A fabric-side access of the job faults: the context takes SEP_FAULT. -/
def State.jobFault (s : State) (g c n flags : Nat) (start stop : W64) : State :=
  ((s.jobSlot c n sepFaulted flags start stop).jobDone g c n).ctxFault c 0x0E03 (unitEngine g)

/-! ## Starting a job (R289, R292, R295) -/

/-- The codes that the controller keeps of a matrix (R139). -/
def State.matrixCodes (s : State) (c : Nat) (id : W32) : Option (List Byte) :=
  ((s.ctx c).matrices.find? fun m => m.id == id).map SepMatrix.codes

/-- The controller's weight message to engine g; it waits for a controller in reset. -/
def State.sendMatrix (s : State) (g : Nat) : State :=
  match (s.engine g).want with
  | some (c, id) =>
    match s.matrixCodes c id with
    | some codes => if s.mc.mgmtReset then s else s.sendMsg .controller s.fab.pkgId.toNat g 0xE00 codes
    | none => s
  | none => s

/-- The lines of an engine's sector are all above their limit (R359). -/
def State.sepLit (s : State) (g : Nat) : Bool := match (s.sector g).source with
  | some m => (s.cage m).lowLines == 0
  | none => false

/-- Whether the resident codes have a nonzero one at a masked weight (R303). -/
def Engine.losesWeight (e : Engine) : Bool := e.weightMasked.any fun i => (Tbl.look 0 e.weights i) &&& 31 != 0

/-- Whether a job that runs now is degraded (R302, R303, R359). -/
def State.sepDegraded (s : State) (g : Nat) : Bool :=
  let e := s.engine g
  (e.rowMasked ||| e.rowRetired) != 0 || e.losesWeight || !s.sepLit g

/-- The first integration. -/
def State.jobRuns (s : State) (g : Nat) : State :=
  let deg := s.sepDegraded g
  s.onEngine g fun e =>
    { e with mode := .run, job := e.job.map fun j => { j with start := s.clk.now, degraded := deg, masks := [e.rowMasked ||| e.rowRetired] } }

def State.jobStart (s : State) (g : Nat) : State :=
  let e := s.engine g
  match e.mode, e.turn with
  | .idle, some c =>
    let r := (s.ctx c).sepRing.toNat
    match s.sepRead c (ringHeader r) 12 with
    | none => (s.onEngine g fun x => { x with posted := Tbl.put none x.posted c none, lastServed := c }).ctxFault c 0x0E03 (unitEngine g)
    | some b =>
      let n := leNat (b.drop 8)
      match s.sepRead c (slotAddr r n) 64 with
      | none => let (k, s1) := s.takeFree
        s1.jobFault g c n 0 (Config.sepTime (2 * k)) (Config.sepTime (2 * k + 1))
      | some x =>
        let d : BitVec 512 := BitVec.ofNat 512 (leNat x)
        let job : SepJob := { ctx := c, index := BitVec.ofNat 32 n, desc := d }
        if (s.matrixCodes c (jobMatrix d)).isNone then s.jobRefused g c n sepNoMatrix 0x0E02
        else if !jobSound d then s.jobRefused g c n sepBadJob 0x0E01
        else if e.matValid ∧ e.matCtx.toNat = c ∧ e.matId = jobMatrix d then
          (s.onEngine g fun y => { y with job := some job, runCtx := BitVec.ofNat 6 c }).jobRuns g
        else
          (s.onEngine g fun y => { y with mode := .reload, job := some { job with reloaded := true }, runCtx := BitVec.ofNat 6 c,
                                          want := some (c, jobMatrix d) }).sendMatrix g
  | _, _ => s

def execSepJobStart (g : HalfId) (s : State) : Host.Outcome State Fault Refusal := .next (s.jobStart g.val).finish

/-! ## Reloads (R289, R301) -/

/-- The weight message arrives: its codes wait for the next frame boundary. -/
def execSepWeightMsg (g : HalfId) (fromPort : PortId) (codes : List Byte) (s : State) : Host.Outcome State Fault Refusal :=
  .next (if fromPort.val = 52 ∧ codes.length = 4096 ∧ (s.engine g.val).mode = .reload then
    let s1 := s.onEngine g.val fun e => { e with incoming := some codes }
    { s1 with fab := { s1.fab with mail := s1.fab.mail.filter fun m => !(m.port == g.val && m.mailbox == 0xE00) } }
  else s)

/-- Weight rings of an engine in FAULT whose weight is neither masked nor in a retired row. -/
def State.faultyWeights (s : State) (g : Nat) : List Nat :=
  let e := s.engine g
  (s.rings.table.filter fun (x, r) => decide (arrayBase + 4096 * g ≤ x ∧ x < arrayBase + 4096 * (g + 1)) && r.state == .fault &&
    !e.weightMasked.contains (x % 4096) && !e.rowRetired.getLsbD (x % 4096 / 64)).map fun e => e.1 % 4096

/-- A faulty weight ring is measured, in 1/62000: within half a code step of zero its weight is masked, else its row is
retired (R303). -/
def State.measureWeight (s : State) (g i : Nat) (r : Int) : State :=
  if (s.engine g).rowRetired.getLsbD (i / 64) then s
  else if r.natAbs ≤ 1000 then
    (s.onEngine g fun e => { e with weightMasked := e.weightMasked ++ [i] }).note 0x0E04 .corrected (unitEngine g)
      [BitVec.ofNat 64 g, BitVec.ofNat 64 (i / 64), BitVec.ofNat 64 (i % 64)]
  else
    (s.onEngine g fun e => { e with rowRetired := bvSet e.rowRetired (i / 64) true, rowMasked := bvSet e.rowMasked (i / 64) true }).note
      0x0E05 .corrected (unitEngine g) [BitVec.ofNat 64 g, BitVec.ofNat 64 (i / 64)]

/-- A calibration pass. A faulty weight ring that `residuals` does not name measures a free value. -/
def State.calPass (s : State) (g : Nat) (residuals : List (Nat × Int)) : State :=
  let (k, s1) := s.takeFree
  let s2 := (s1.faultyWeights g).foldl (fun a i => a.measureWeight g i ((residuals.lookup i).getD (Config.sepResidual k i))) s1
  s2.onEngine g fun e => { e with calCnt := bump e.calCnt, lastCal := s.clk.now }

def execSepCalPass (g : HalfId) (residuals : List (Nat × Int)) (s : State) : Host.Outcome State Fault Refusal :=
  .next (if (s.engine g.val).matValid then s.calPass g.val residuals else s)

/-- The rings have settled and the pass is done: the matrix is resident, and its job starts. -/
def State.reloadComplete (s : State) (g : Nat) : State :=
  let e := s.engine g
  match e.mode, e.settling, e.want with
  | .reload, true, some (c, id) =>
    let s1 := (s.calPass g []).onEngine g fun x =>
      { x with mode := .idle, settling := false, want := none, matCtx := BitVec.ofNat 6 c, matId := id, matValid := true,
               reloadCnt := bump x.reloadCnt }
    if e.job.isSome then s1.jobRuns g else s1
  | _, _, _ => s

def execSepReloadComplete (g : HalfId) (s : State) : Host.Outcome State Fault Refusal := .next (s.reloadComplete g.val)

/-! ## Inputs and scores (R296, R297) -/

/-- An E4M3 element in 1/512; none for a NaN. -/
def e4m3 (b : Byte) : Option Int :=
  let x := b.toNat
  if x % 128 = 127 then none
  else
    let e := x / 8 % 16
    let m : Int := if e = 0 then (x % 8 : Nat) else ((8 + x % 8) * 2 ^ (e - 1) : Nat)
    some (if 128 ≤ x then -m else m)

/-- The least scale exponent, as E + 9, that reaches a magnitude in 1/512. -/
def scaleFor (m : Nat) : Nat := ((List.range 19).find? fun e => decide (m ≤ 2 ^ e)).getD 18

/-- The signed levels of a vector, and whether an element was clamped. -/
def levels (d : BitVec 512) (xs : List Int) : List Int × Bool :=
  let e := if jobFixed d then (jobExp d + 9).toNat else scaleFor (xs.foldl (fun m x => max m x.natAbs) 0)
  let top : Int := 2 ^ e
  (xs.map fun x => roundHalfEven (127 * max (-top) (min top x)) (2 ^ e), xs.any fun x => decide (top < x.natAbs))

/-- A weight code's signed numerator, over 31 (R287). -/
def weightOf (c : Byte) : Int := if c.getLsbD 5 then -((c &&& 31).toNat : Int) else (c &&& 31).toNat

/-- The ideal code of a row, over 64 × 31. -/
def Engine.ideal (e : Engine) (gain i : Nat) (ls : List Int) : Int :=
  2 ^ gain * (List.range 64).foldl (fun (a : Int) j =>
    if e.weightMasked.contains (64 * i + j) then a else a + weightOf (Tbl.look 0 e.weights (64 * i + j)) * ls.getD j 0) 0

/-- The scores of the rows for one vector, and whether one was clamped. Bias and noise are free; a vector of zeros scores 0. -/
def Engine.scores (e : Engine) (d : BitVec 512) (k n : Nat) (xs : List Int) : List Int × Bool :=
  let (ls, sat) := levels d xs
  if xs.all (· == 0) then (List.replicate 64 0, false)
  else
    let raw := (List.range 64).map fun i => roundHalfEven (e.ideal (jobGain d) i ls) 1984 + Config.sepNoise k n i
    (raw.map fun q => max (-127) (min 127 q), sat || raw.any fun q => decide (127 < q.natAbs))

/-! ## Outputs (R300) -/

/-- Puts a candidate into a list sorted by descending score, after equals, and keeps k. -/
def rank (k : Nat) (l : List (Nat × Int)) (x : Nat × Int) : List (Nat × Int) :=
  (l.takeWhile (fun y => decide (x.2 ≤ y.2)) ++ x :: l.dropWhile (fun y => decide (x.2 ≤ y.2))).take k

def scoreByte (q : Int) : Nat := unsigned 8 q

/-- Entries of n bytes each: index below, score on top; the rest reads 0x80 over ones. -/
def entries (k n : Nat) (l : List (Nat × Int)) : List Byte :=
  (List.range k).flatMap fun e => match l[e]? with
    | some (i, q) => leBytes n (i + scoreByte q * 2 ^ (8 * (n - 1)))
    | none => leBytes n (2 ^ (8 * (n - 1)) - 1 + 0x80 * 2 ^ (8 * (n - 1)))

/-- What a job has done so far. -/
structure SepRun where
  st : State
  sat : Bool := false
  nan : Bool := false
  failed : Bool := false
  count : Nat := 0
  /-- SKIM_JOB: the best vectors of each row. -/
  best : Tbl (List (Nat × Int)) := []

/-- One vector of a job: `mask` has the rows masked while it was scored. -/
def SepRun.vector (r : SepRun) (e : Engine) (c k : Nat) (d : BitVec 512) (n : Nat) (mask : W64) : SepRun :=
  if r.failed then r
  else match r.st.sepRead c (jobIn d n) 64 with
    | none => { r with failed := true }
    | some bytes =>
      let xs := bytes.map e4m3
      let bad := xs.any Option.isNone
      let (qs, clamped) := if bad then (List.replicate 64 (0 : Int), false) else e.scores d k n (xs.map fun x => x.getD 0)
      let rows := if bad then [] else (List.range 64).filter fun i => !mask.getLsbD i
      let r1 := { r with count := r.count + 1, nan := r.nan || bad, sat := r.sat || clamped }
      let write (b : List Byte) : SepRun := match r.st.sepWrite c (jobOut d n) b with
        | some s => { r1 with st := s }
        | none => { r1 with failed := true }
      match jobMode d with
      | 0 => write ((List.range 64).map fun i => if rows.contains i then BitVec.ofNat 8 (scoreByte (qs.getD i 0)) else 0x80)
      | 1 => write (entries (jobK d) 2 (rows.foldl (fun l i => rank (jobK d) l (i, qs.getD i 0)) []))
      | _ => { r1 with best := rows.foldl (fun t i => Tbl.upd [] t i fun l => rank (jobK d) l (n, qs.getD i 0)) r1.best }

/-- SKIM_JOB's records, one per row. -/
def SepRun.finish (r : SepRun) (c : Nat) (d : BitVec 512) : SepRun :=
  if r.failed ∨ jobMode d ≠ 2 then r
  else (List.range 64).foldl (fun (a : SepRun) (i : Nat) =>
    if a.failed then a
    else match a.st.sepWrite c ((jobWord d 0x0C 4 : Int) + (i : Int) * jobStride d 0x10) (entries (jobK d) 4 (Tbl.look [] r.best i)) with
      | some s => { a with st := s }
      | none => { a with failed := true }) r

/-- A job runs to its end. -/
def State.jobEnd (s : State) (g : Nat) : State :=
  let e := s.engine g
  match e.mode, e.job with
  | .run, some j =>
    let d := j.desc
    let (k, s0) := s.takeFree
    let maskOf' (n : Nat) : W64 := j.masks.getD (Config.sepPhase k n % max 1 j.masks.length) 0
    let r := ((List.range (jobVectors d)).foldl (fun (r : SepRun) n => r.vector e j.ctx k d n (maskOf' n)) { st := s0 }).finish j.ctx d
    let flags := packBits [(0, 1, r.sat.toNat), (1, 1, r.nan.toNat), (2, 1, (j.degraded || s.sepDegraded g).toNat), (3, 1, j.reloaded.toNat)]
    let s1 := r.st.onEngine g fun x => { x with vecCnt := bump x.vecCnt r.count }
    if r.failed then s1.jobFault g j.ctx j.index.toNat flags j.start s.clk.now
    else (s1.jobSlot j.ctx j.index.toNat sepOK flags j.start s.clk.now).jobDone g j.ctx j.index.toNat
  | _, _ => s

def execSepJobEnd (g : HalfId) (s : State) : Host.Outcome State Fault Refusal := .next (s.jobEnd g.val).finish

/-! ## The frame boundary (R289, R302) -/

/-- Weight rings out of LOCKED, by engine and index. -/
def State.weightsOut (s : State) : List (Nat × Nat) :=
  (s.rings.table.filter fun (x, r) => decide (arrayBase ≤ x) && r.state != .locked).map fun e =>
    ((e.1 - arrayBase) / 4096, e.1 % 4096)

/-- New weights take effect on an engine: its codes change, and its rings' heaters move to values of their own. -/
def State.takeWeights (s : State) (g : Nat) : State :=
  match (s.engine g).incoming with
  | none => s
  | some codes =>
    let (k, s1) := s.takeFree
    let lo := arrayBase + 4096 * g
    let move (e : Nat × Ring) : Nat × Ring :=
      if lo ≤ e.1 ∧ e.1 < lo + 4096 ∧ e.2.state = .locked then (e.1, { e.2 with dac := Config.ringCode k e.1 }) else e
    let s2 := s1.onEngine g fun e =>
      { e with incoming := none, settling := true, matValid := false,
               weights := (codes.zipIdx.map fun x => (x.2, x.1)).filter fun x => decide (x.2 ≠ 0) }
    { s2 with rings := { s2.rings with table := s2.rings.table.map move } }

/-- The rows masked from this boundary on, and the jobs that they degrade. -/
def State.maskRows (s : State) : State :=
  let out := s.weightsOut
  (List.range 16).foldl (fun (a : State) g =>
    let e := a.engine g
    let rows : W64 := (out.filter fun x => x.1 == g && !e.weightMasked.contains x.2).foldl (fun m x => bvSet m (x.2 / 64) true) e.rowRetired
    let deg := rows != 0 || e.losesWeight || !a.sepLit g
    let follow (j : SepJob) : SepJob := { j with degraded := j.degraded || deg, masks := if j.masks.head? = some rows then j.masks else rows :: j.masks }
    a.onEngine g fun x => { x with rowMasked := rows, job := if x.mode = .run then x.job.map follow else x.job }) s

def State.sepAtBoundary (s : State) : State := ((List.range 16).foldl State.takeWeights s).maskRows

end Sys2Proof.Machine
end

