-- ==== Sys2Proof/Machine/Churn.lean ====
section
/-! DEFINITION. The Churn: frame boundaries, flex rows, spares, lanes and dark ports (R229 to R259). -/

namespace Sys2Proof.Machine

/-! ## Flex rows (R238, R239, R244, R246) -/

def allHalves : List Nat := List.range 16
def rowEntries : List Nat := (List.range 15).map (· + 1)

def defaultRow : List Nat := 0 :: List.replicate 15 4

/-- The row of port p: entry j leads to port (p + j) mod 16; entry 0 is not used, since what is parked follows from the rest. -/
def State.row (s : State) (p : Nat) : List Nat := Tbl.look [] s.churn.rows p

def State.setRow (s : State) (p : Nat) (r : List Nat) : State := { s with churn := { s.churn with rows := Tbl.put [] s.churn.rows p r } }

def rowSum (r : List Nat) : Nat := rowEntries.foldl (fun n j => n + r.getD j 0) 0

/-- What the rows send to port q. -/
def columnSum (rows : Nat → List Nat) (q : Nat) : Nat :=
  rowEntries.foldl (fun n j => n + (rows ((q + 16 - j) % 16)).getD j 0) 0

def State.columnLimit (s : State) (q : Nat) : Nat := Tbl.look 0 s.churn.colLimit q

def State.feasible (s : State) (rows : Nat → List Nat) : Bool := allHalves.all fun q => decide (columnSum rows q ≤ s.columnLimit q)

def setRowFn (rows : Nat → List Nat) (p : Nat) (r : List Nat) : Nat → List Nat := fun x => if x = p then r else rows x

/-- The largest entry, ties to the highest j, among those above 1. -/
def largest (r : List Nat) : Option Nat :=
  rowEntries.foldl (fun b j => if r.getD j 0 ≤ 1 then b else match b with
    | none => some j
    | some i => if r.getD i 0 ≤ r.getD j 0 then some j else some i) none

/-- Lowers entries one at a time from the largest until the row sums to at most a limit. -/
def fitRow (limit : Nat) : Nat → List Nat → List Nat
  | 0, r => r
  | fuel + 1, r => if rowSum r ≤ limit then r else match largest r with
    | none => r
    | some j => fitRow limit fuel (r.set j (r.getD j 0 - 1))

/-- The release value of a row: the least of its entries and the default ones. -/
def releaseRow (r : List Nat) : List Nat := if r.isEmpty then defaultRow else 0 :: rowEntries.map fun j => min (r.getD j 0) 4

/-- Wavelengths of port p that a retune is moving. -/
def State.moving (s : State) (p : Nat) : Nat := (s.churn.retunes.filter fun x => x.port == p).foldl (fun n x => n + x.moved) 0

/-- Parked wavelengths: lit at the source and not assigned. -/
def State.parked (s : State) (p : Nat) : Nat := (s.port p).flexTx - rowSum (s.row p) - s.moving p

/-- Applies the releases due, then raises each entry still below 4 where the result is valid and feasible (R244). -/
def State.releaseRows (s : State) : State :=
  let due := allHalves.filter fun p => s.churn.releasing.getLsbD p
  let s1 := due.foldl (fun (a : State) p => a.setRow p (releaseRow (a.row p))) s
  { s1 with churn := { s1.churn with releasing := 0, rising := due.foldl (fun m p => bvSet m p true) s1.churn.rising } }

def State.raiseRow (s : State) (p : Nat) : State :=
  let s1 := rowEntries.foldl (fun (a : State) j =>
    let r := a.row p
    let up := r.set j (r.getD j 0 + 1)
    if r.getD j 0 < 4 ∧ rowSum up ≤ (a.port p).flexTx ∧ a.feasible (setRowFn a.row p up) then a.setRow p up else a) s
  if rowEntries.all fun j => decide (4 ≤ (s1.row p).getD j 0) then
    { s1 with churn := { s1.churn with rising := bvSet s1.churn.rising p false } }
  else s1

/-- Ports that were released at an earlier boundary rise. -/
def State.raiseRows (s : State) (ports : List Nat) : State := ports.foldl State.raiseRow s

/-! ## Flex requests (R240 to R248) -/

/-- A request reaches the controller: it replaces the context's pending one, and is first evaluated at the boundary of
its frame, or at the next one if the guard has begun. -/
def State.flexArrive (s : State) (c : Nat) : State :=
  match s.churn.sent.find? fun r => r.ctx == c with
  | none => s
  | some r =>
    let s1 := { s with churn := { s.churn with sent := s.churn.sent.erase r } }
    let old := s1.churn.pending.filter fun x => x.ctx == c
    let s2 := old.foldl State.flexRefuse { s1 with churn := { s1.churn with pending := s1.churn.pending.filter fun x => x.ctx != c } }
    let late := s.churn.guard || decide (10200 ≤ s.time % 10240)
    { s2 with churn := { s2.churn with pending := s2.churn.pending ++ [{ r with first := s.frame + (if late then 2 else 1), waited := 0 }] } }

def execFlexRequest (c : CtxId) (s : State) : Host.Outcome State Fault Refusal := .next (s.flexArrive c.val)

/-- The row that a request asks for, fitted to its port. -/
def State.wantedRow (s : State) (r : FlexReq) : List Nat :=
  if r.plan.isDefault then releaseRow (s.row r.port)
  else fitRow (s.port r.port).flexTx 1024 (0 :: rowEntries.map fun j => r.plan.count.getD j 0)

/-- A grant at boundary f: entries fall at once, wavelengths that move are retuned, and ownership follows. -/
def State.flexGrant (s : State) (f : Nat) (r : FlexReq) : State :=
  let p := r.port
  let old := s.row p
  let new := s.wantedRow r
  let kept : List Nat := 0 :: rowEntries.map fun j => min (old.getD j 0) (new.getD j 0)
  let moved := rowSum new - rowSum kept
  let bucket := if f ≤ r.first then 0 else bucketOf ((f - r.first) * 10240)
  let owner := if r.plan.isDefault then none else some r.ctx
  let s1 := s.setRow p kept
  { s1 with churn := { s1.churn with
      owners := Tbl.put none s1.churn.owners p owner, grantCnt := bump s1.churn.grantCnt, retuneCnt := bump s1.churn.retuneCnt moved,
      rising := bvSet s1.churn.rising p r.plan.isDefault,
      pending := s1.churn.pending.filter fun x => x.ctx != r.ctx,
      retunes := s1.churn.retunes ++ [{ port := p, row := new, moved := moved, req := r, bucket := bucket }] } }

/-- The rows with some requests applied. -/
def State.rowsWith (s : State) (rs : List FlexReq) : Nat → List Nat := fun p =>
  match rs.find? fun r => r.port == p with
  | some r => s.wantedRow r
  | none => match s.churn.retunes.find? fun x => x.port == p with
    | some x => x.row
    | none => s.row p

/-- The evaluation of R245 at boundary f. Of two requests on one port the earlier is tried first; the other then meets an owner. -/
def State.flexEvaluate (s : State) (f : Nat) : State :=
  let due (a : State) : List FlexReq := a.churn.pending.filter fun r => decide (r.first ≤ f)
  let foreign (r : FlexReq) : Bool := (Tbl.look none s.churn.owners r.port).any fun o => o != r.ctx
  let s1 := s.flexRefuseAll fun r => decide (r.first ≤ f) && foreign r
  let fit (r : FlexReq) : FlexReq :=
    if r.first ≤ f then { r with fitted := !r.plan.isDefault && decide ((s1.port r.port).flexTx < r.plan.count.foldl (· + ·) 0) } else r
  let s2 := { s1 with churn := { s1.churn with pending := s1.churn.pending.map fit } }
  let first := (due s2).foldl (fun (l : List FlexReq) r => if l.any fun x => x.port == r.port then l else l ++ [r]) []
  let s3 := if s2.feasible (s2.rowsWith first) then first.foldl (fun a r => a.flexGrant f r) s2
    else allHalves.foldl (fun a p => match first.find? fun r => r.port == p with
      | some r => if a.feasible (a.rowsWith [r]) then a.flexGrant f r else a
      | none => a) s2
  let wait := s3.churn.flexWait.toNat
  let s4 := s3.flexRefuseAll fun r => decide (r.first ≤ f) && decide (wait ≤ r.waited)
  let older (r : FlexReq) : FlexReq := if r.first ≤ f then { r with waited := r.waited + 1 } else r
  { s4 with churn := { s4.churn with pending := s4.churn.pending.map older } }

/-- The retunes of the last boundary are done: the rows enter service, and the requests complete. A checked filter is
calibrated (R282). -/
def State.retunesDone (s : State) (f : Nat) : State :=
  s.churn.retunes.foldl (fun (a : State) (x : Retune) =>
    let out : FlexOutcome := { outcome := if x.bucket = 0 then 1 else 2, bucket := x.bucket, ctx := BitVec.ofNat 6 x.req.ctx,
                               trigger := x.req.plan.trigger, fitted := x.req.fitted, frame := BitVec.ofNat 32 f }
    let a1 := a.setRow x.port x.row
    let a2 := { a1 with churn := { a1.churn with outcomes := Tbl.put {} a1.churn.outcomes x.port out },
                        rings := if x.moved = 0 then a1.rings else
                          { a1.rings with calCnt := bump a1.rings.calCnt x.moved, lastCal := BitVec.ofNat 64 (10240 * f) } }
    if (a2.ctx x.req.ctx).resident then a2.noteDelayed (a2.ctxPlane x.req.ctx) 8 (.ok x.bucket) else a2)
    { s with churn := { s.churn with retunes := [] } }

/-- A filter of a retune has not settled within 8 µs: its row entry is one lower until the filter is back. -/
def State.retuneFails (s : State) (p j ring : Nat) : State :=
  match s.churn.retunes.find? fun x => x.port == p with
  | none => s
  | some x =>
    if x.moved = 0 ∨ x.row.getD j 0 = 0 then s
    else
      let y := { x with moved := x.moved - 1, row := x.row.set j (x.row.getD j 0 - 1) }
      let again (r : Ring) : Ring := match r.state with
        | .locked | .verify => { r with state := .acquire, step := .coldReset, verifying := false }
        | _ => r
      let s1 := (s.onRing ring again).note 0x0C02 .corrected (unitPort p) [BitVec.ofNat 64 p, BitVec.ofNat 64 j, BitVec.ofNat 64 ring]
      { s1 with churn := { s1.churn with retunes := s1.churn.retunes.map fun z => if z.port = p then y else z,
                                         retuneFailCnt := bump s1.churn.retuneFailCnt,
                                         flexHome := Tbl.put 0 s1.churn.flexHome (servedSlot ring (s.ring ring)) (1 + 16 * p + j) } }

def execRetuneSettleTimeout (p : HalfId) (j : Fin 16) (ring : RingId) (s : State) : Host.Outcome State Fault Refusal :=
  .next (s.retuneFails p.val j.val ring.val)

/-- CHN_FLEX_RELEASE: the owners of the ports named are released. -/
def State.flexReleaseMask (s : State) (mask : Nat) : State :=
  (allHalves.filter fun p => bitAt mask p && (Tbl.look none s.churn.owners p).isSome).foldl State.flexRelease s

def execChnFlexRelease (mask : W32) (s : State) : Host.Outcome State Fault Refusal := .next (s.flexReleaseMask mask.toNat)

/-! ## Resends (R231, R280) -/

def execCellCrcFail (w : Wavelength) (s : State) : Host.Outcome State Fault Refusal :=
  .next { s with churn := { s.churn with fails := Tbl.upd 0 s.churn.fails w.modulator.val (· + 1) } }

/-- A resend request reaches the transmitter. A cell that has failed 8 resends takes its wavelength out of service, and
both its rings run an immediate window. -/
def State.resend (s : State) (m d : Nat) : State :=
  if 9 ≤ Tbl.look 0 s.churn.fails m then
    let look (r : Ring) : Ring := { r with verifying := r.state == .locked }
    let s1 := (s.onRing m look).onRing d look
    { s1 with churn := { s1.churn with fails := Tbl.put 0 s1.churn.fails m 0, failed := (m, d) :: s1.churn.failed.erase (m, d) } }
  else { s with churn := { s.churn with resendCnt := bump s.churn.resendCnt } }

def execResendRequest (w : Wavelength) (s : State) : Host.Outcome State Fault Refusal := .next (s.resend w.modulator.val w.filter.val)

/-! ## Bundles and seams (R18, R21) -/

/-- A part of a die has failed for good: the die is retired, and the record names it and cause 5 (log 22). -/
def State.tsvLost (s : State) (d : Nat) : State :=
  if s.inv.dieRetired.getLsbD d then s else (s.retireDieFor d 5 0x0904 [(unitDie d).zeroExtend 64]).finish

/-- A signal bundle fails: the lane map is rebuilt at the next boundary. -/
def execSignalBundleFail (c : HalfId) (g : Fin 10) (s : State) : Host.Outcome State Fault Refusal :=
  .next { s with board := { s.board with
                   bundles := Tbl.upd 0 s.board.bundles c.val fun m => bvSet m g.val false,
                   bundlesLost := Tbl.upd 0 s.board.bundlesLost c.val fun m => bvSet m g.val true },
                 churn := { s.churn with rebuild := bvSet s.churn.rebuild c.val true } }

def execControlBundleFail (c : HalfId) (s : State) : Host.Outcome State Fault Refusal := .next (s.tsvLost (c.val / 2))

def execSeamGroupFail (d : DieId) (s : State) : Host.Outcome State Fault Refusal := .next (s.tsvLost d.val)

/-! ## Wavelengths in service (R232, R250, R252) -/

/-- Wavelengths that a port direction has toward a peer (R232): 60 is the flex pool. -/
def pairWidth (port : Nat) (tx : Bool) (peer : Nat) : Nat :=
  if peer = 60 then 64
  else if port < 16 then (if 16 ≤ peer ∧ peer < 48 then (if tx then 6 else 8) else 8)
  else if port < 48 then (if peer < 16 then (if tx then 8 else 6) else 2)
  else if peer < 16 then 8
  else if peer < 48 then 2
  else if peer < 52 ∧ port < 52 then 4 else 8

/-- Wavelengths in service with no loss and no spare (R233). -/
def fullLit (port : Nat) (tx : Bool) : Nat :=
  if port < 16 then (if tx then 296 else 360) else if port < 48 then (if tx then 138 else 106) else if port < 52 then 212 else 224

/-- Whether a channel slot's wavelength can carry traffic from boundary f on: its ring is LOCKED since an earlier boundary,
its line is lit, and R231 has not taken it out. -/
def State.slotOk (s : State) (f : Nat) (w : WaveEnd) : Bool :=
  match s.serving w.slot with
  | none => false
  | some e =>
    let r := s.ring e
    r.state == .locked && decide (r.lastCalFrame.toNat < f) && !s.lineLow w && !s.churn.failed.any fun x => x.1 == e || x.2 == e

/-- The channel slots that are out at boundary f. -/
def State.slotsOut (s : State) (f : Nat) : List WaveEnd :=
  s.rings.table.filterMap fun e =>
    if decide (e.1 < guideEnd) && (slotOf e.1).isSome then (waveEnd e.1).filter fun w => !s.slotOk f w else none

/-- A wavelength that R231 took out is back once both its rings are locked again. -/
def State.failedBack (s : State) (f : Nat) : State :=
  let bothBack (x : Nat × Nat) : Bool := [x.1, x.2].all fun e =>
    match s.serving (servedSlot e (s.ring e)) with
    | some k => (s.ring k).state == .locked && !(s.ring k).verifying && decide ((s.ring k).lastCalFrame.toNat < f)
    | none => false
  let back := s.churn.failed.filter bothBack
  { s with churn := { s.churn with failed := s.churn.failed.filter fun x => !bothBack x,
                                   returned := back.foldl (fun t x => Tbl.put 0 t x.1 s.clk.now) s.churn.returned } }

/-- Spares at boundary f: a replacement ends when the wavelength itself is back, and lines that are down take spares. -/
def State.selectSpares (s : State) (f : Nat) (out : List WaveEnd) : State :=
  let gone (slot : Nat) : Bool := out.any fun w => w.slot == slot
  let s1 := { s with churn := { s.churn with spareOf := s.churn.spareOf.filter fun e => gone e.1 } }
  (out.filter fun w => w.peer != 61 && s.lineLow w).foldl (fun (a : State) w =>
    if (a.churn.spareOf.lookup w.slot).isSome then a
    else match a.freeSpare w.port w.tx with
      | none => a
      | some x => if (waveEnd x).any fun v => a.slotOk f v then { a with churn := { a.churn with spareOf := Tbl.put 0 a.churn.spareOf w.slot x } }
        else a) s1

/-- Lost wavelengths: out of service, not spares themselves, and not replaced by a spare in service. -/
def State.lostWaves (s : State) (f : Nat) (out : List WaveEnd) : List WaveEnd :=
  out.filter fun w => w.peer != 61 && !((s.churn.spareOf.lookup w.slot).bind waveEnd).any fun v => s.slotOk f v

/-- Spares of a port direction that are in use and in service. -/
def State.sparesUsed (s : State) (f port : Nat) (tx : Bool) : Nat :=
  (s.churn.spareOf.filter fun e => (waveEnd e.2).any fun v => v.port == port && v.tx == tx && s.slotOk f v).length

/-- Lanes of compute port p (R251). -/
def State.lanes (s : State) (p : Nat) (tx : Bool) : Nat :=
  let b := Tbl.look 0 s.board.bundles p
  (List.range 10).foldl (fun n g => if b.getLsbD g then n + (if tx then 32 else if g < 4 then 39 else 38) else n) 0

def lostAt (lost : List WaveEnd) (port : Nat) (tx : Bool) : Nat := (lost.filter fun w => w.port == port && w.tx == tx).length
def lostFlex (lost : List WaveEnd) (port : Nat) (tx : Bool) : Nat :=
  (lost.filter fun w => w.port == port && w.tx == tx && w.peer == 60).length

/-- Flex wavelengths in service of a port direction, and all those in service, after shedding to the lanes (R252): flex
goes first, and never below one per destination. -/
def State.litAfter (s : State) (lost : List WaveEnd) (p : Nat) (tx : Bool) : Nat × Nat × Nat :=
  let total := fullLit p tx - lostAt lost p tx
  let flex := 64 - lostFlex lost p tx
  if p < 16 then
    let shed := total - s.lanes p tx
    (flex - min shed (flex - 15), total - shed, shed)
  else (0, total, 0)

/-- One lost flex wavelength of port p: a parked one if there is one, else the largest entry's. -/
def State.chargeFlex (s : State) (w : WaveEnd) : State :=
  let r := s.row w.port
  let home := if 0 < s.parked w.port then 0 else (largest r).getD 0
  let s1 := if home = 0 then s else s.setRow w.port (r.set home (r.getD home 0 - 1))
  { s1 with churn := { s1.churn with flexHome := Tbl.put 0 s1.churn.flexHome w.slot (1 + 16 * w.port + home) } }.onPort w.port fun x =>
    { x with flexTx := x.flexTx - 1 }

/-- A flex wavelength is back: its entry rises if the rows allow. -/
def State.returnFlex (s : State) (slot home : Nat) : State :=
  let p := (home - 1) / 16
  let j := (home - 1) % 16
  let r := s.row p
  let up := r.set j (r.getD j 0 + 1)
  let s1 := { s with churn := { s.churn with flexHome := Tbl.put 0 s.churn.flexHome slot 0 } }
  if j ≠ 0 ∧ rowSum up ≤ (s.port p).flexTx ∧ s.feasible (setRowFn s.row p up) then s1.setRow p up else s1

/-- Lowers the largest entry toward port q, ties to the highest source port, until its column fits. -/
def State.forceColumn (q : Nat) : Nat → State → State
  | 0, s => s
  | fuel + 1, s =>
    if columnSum s.row q ≤ s.columnLimit q then s
    else
      let entry (p : Nat) : Nat := (s.row p).getD ((q + 16 - p) % 16) 0
      let pick := allHalves.foldl (fun (b : Option Nat) p => if p = q ∨ entry p ≤ 1 then b else match b with
        | none => some p
        | some x => if entry x ≤ entry p then some p else some x) none
      match pick with
      | none => s
      | some p => forceColumn q fuel (s.setRow p ((s.row p).set ((q + 16 - p) % 16) (entry p - 1)))

def State.forceColumns (s : State) : State :=
  allHalves.foldl (fun a q =>
    if columnSum a.row q ≤ a.columnLimit q then a
    else (a.forceColumn q 1024).note 0x0C07 .info (unitPort q) [BitVec.ofNat 64 q]) s

/-- The wavelengths of one port at a boundary: its counts, its narrowing and the record of it. -/
def State.portAtBoundary (s : State) (f : Nat) (lost : List WaveEnd) (p : Nat) : State :=
  if s.isDark p then s.onPort p fun x => { x with txLit := 0, rxLit := 0, txSpare := 0, rxSpare := 0 }
  else
    let (flexTx, tx, shedTx) := s.litAfter lost p true
    let (flexRx, rx, shedRx) := s.litAfter lost p false
    let narrower := Tbl.look 0 s.churn.shedTx p < shedTx || Tbl.look 0 s.churn.shedRx p < shedRx
    let s1 := s.onPort p fun x =>
      { x with mode := if x.mode = .retired then .retired else if shedTx + shedRx = 0 then .lit else .narrow,
               txLit := BitVec.ofNat 9 tx, rxLit := BitVec.ofNat 9 rx, txSpare := BitVec.ofNat 6 (s.sparesUsed f p true),
               rxSpare := BitVec.ofNat 6 (s.sparesUsed f p false), flexTx := flexTx }
    let s2 := { s1 with churn := { s1.churn with shedTx := Tbl.put 0 s1.churn.shedTx p shedTx, shedRx := Tbl.put 0 s1.churn.shedRx p shedRx,
                                                 colLimit := if p < 16 then Tbl.put 0 s1.churn.colLimit p flexRx else s1.churn.colLimit } }
    let s3 := if p < 16 then s2.setRow p (fitRow flexTx 1024 (s2.row p)) else s2
    if narrower then s3.note 0x0C03 .corrected (unitPort p)
        [BitVec.ofNat 64 p, BitVec.ofNat 64 (popcount 10 (Tbl.look 0 s.board.bundles p).toNat), BitVec.ofNat 64 tx, BitVec.ofNat 64 rx]
    else s3

/-- Pairs that have lost every wavelength of one direction and were not severed before; a pair with a dark port does not count. -/
def State.newlySevered (s : State) (lost : List WaveEnd) : List (Nat × Nat) :=
  lost.foldl (fun (l : List (Nat × Nat)) w =>
    let same := (lost.filter fun x => x.port == w.port && x.tx == w.tx && x.peer == w.peer).length
    if w.peer = 60 ∨ s.isDark w.port ∨ s.isDark w.peer ∨ same < pairWidth w.port w.tx w.peer ∨ l.contains (w.port, w.peer) ∨
        s.severedPair w.port w.peer then l
    else l ++ [(w.port, w.peer)]) []

/-- A severed pair: one with a compute port retires its die, cause 7 (log 22). -/
def State.sever (s : State) (a b : Nat) : State :=
  let s1 := { s with churn := { s.churn with severed := s.churn.severed ++ [(a, b)] } }
  let c := min a b
  if c < 16 then (if s.dieIn (c / 2) then (s1.retireDieFor (c / 2) 7 0x0C04 [BitVec.ofNat 64 a, BitVec.ofNat 64 b]).finish else s1)
  else s1.record 0x0C04 .unit (unitPort a) none [BitVec.ofNat 64 a, BitVec.ofNat 64 b]

/-- The wavelengths that serve from boundary f on, and what follows for ports, rows, columns and pairs. -/
def State.serviceAtBoundary (s : State) (f : Nat) : State :=
  let s1 := s.failedBack f
  let out := s1.slotsOut f
  let s2 := s1.selectSpares f out
  let lost := s2.lostWaves f out
  let flexTx := lost.filter fun w => w.peer == 60 && w.tx
  let s3 := (flexTx.filter fun w => Tbl.look 0 s2.churn.flexHome w.slot == 0).foldl State.chargeFlex s2
  let start := { s3 with churn := { s3.churn with rebuild := 0 } }
  let s4 := (List.range 53).foldl (fun (a : State) p => a.portAtBoundary f lost p) start
  let s5 := s4.forceColumns
  let back := s5.churn.flexHome.filter fun e => !lost.any fun w => w.slot == e.1
  let s6 := back.foldl (fun a e => a.returnFlex e.1 e.2) s5
  let few := allHalves.filter fun p => s6.dieIn (p / 2) && decide (popcount 10 (Tbl.look 0 s6.board.bundles p).toNat < 2)
  let s7 := few.foldl (fun a p => a.tsvLost (p / 2)) s6
  (s7.newlySevered lost).foldl (fun a x => a.sever x.1 x.2) s7

/-! ## Dark ports (R255 to R257) -/

/-- Ports that went dark fall silent: what still travels to them is discarded. -/
def State.silencePorts (s : State) : State :=
  let gone (c : Cell) : Bool := Cell.dpkg c == s.fab.pkgId.toNat && s.churn.darkNext.getLsbD (Cell.dport c)
  { s with fab := { s.fab with flight := s.fab.flight.filter fun c => !gone c }, churn := { s.churn with darkNext := 0 } }

/-- A port relights with the default row if that is feasible, else with its release value. -/
def State.relightPort (s : State) (p : Nat) : State :=
  let base := s.row p
  let s1 := s.setRow p defaultRow
  let low := s.setRow p (releaseRow base)
  let s2 := if s1.feasible s1.row then { s1 with churn := { s1.churn with rising := bvSet s1.churn.rising p false } }
    else { low with churn := { low.churn with rising := bvSet low.churn.rising p true } }
  let s3 := { s2 with fab := { s2.fab with dark := bvSet s2.fab.dark p false },
                      churn := { s2.churn with releasing := bvSet s2.churn.releasing p false } }
  let lit (x : Port) : Port := { x with mode := if x.mode = .retired then .retired else .lit }
  (s3.onPort p lit).note 0x0C06 .info (unitPort p)

def State.relightPorts (s : State) : State :=
  (allHalves.filter fun p => s.churn.relightNext.getLsbD p).foldl State.relightPort { s with churn := { s.churn with relightNext := 0 } }

/-! ## Time marks (R388) -/

/-- The sync mark: a replica more than 1.5 ns off is corrected; the record comes at most once per die and second. -/
def State.syncMarks (s : State) (skews : List (Fin 9 × Int)) : State :=
  (skews.filter fun x => decide (1500 < x.2.natAbs)).foldl (fun (a : State) x =>
    let k := a.clk
    let last := (Tbl.look 0 k.skewRecTime x.1.val).toNat
    let quiet := decide (last ≠ 0 ∧ a.time < last + 1000000000)
    let most := if k.skewMax.toNat < x.2.natAbs then BitVec.ofNat 16 (min 65535 x.2.natAbs) else k.skewMax
    let a1 := { a with clk := { k with skewCnt := bump k.skewCnt, skewMax := most,
                                       skewRecTime := if quiet then k.skewRecTime else Tbl.put 0 k.skewRecTime x.1.val k.now } }
    if quiet then a1
    else a1.note 0x0301 .corrected (if x.1.val = 8 then unitHost else unitDie x.1.val) [BitVec.ofNat 64 x.1.val, BitVec.ofInt 64 x.2]) s

/-! ## The frame boundary (R235 to R237) -/

def State.churnAtBoundary (s : State) (f : Nat) : State :=
  if !s.churn.running then s
  else
    let rising := allHalves.filter fun p => s.churn.rising.getLsbD p
    let s1 := { s with churn := { s.churn with guard := false, fails := [], flexWait := s.churn.flexWaitHeld.getD s.churn.flexWait,
                                               flexWaitHeld := none } }
    let s2 := ((s1.retunesDone f).silencePorts.relightPorts).lightAtBoundary
    (s2.serviceAtBoundary f).releaseRows.raiseRows rising |>.flexEvaluate f

/-- Everything that takes effect together at a frame boundary; `steps` are the rings' loop corrections. -/
def State.boundary (s : State) (steps : List (Nat × Int)) (skews : List (Fin 9 × Int)) : State :=
  let s1 := s.elapseToFrame 0
  ((s1.ringsAtBoundary steps).churnAtBoundary s1.frame).sepAtBoundary.syncMarks skews |>.finish

def execFrameBoundary (steps : List (Nat × Int)) (skews : List (Fin 9 × Int)) (s : State) : Host.Outcome State Fault Refusal :=
  .next (s.boundary steps skews)

/-- The guard begins: transmitters send IDLE until the boundary, and waiting cells stay in their queues. -/
def execGuardStart (s : State) : Host.Outcome State Fault Refusal :=
  .next (let s1 := s.elapseToFrame 40
    { s1 with churn := { s1.churn with guard := true } })

/-! ## The end of bring-up step 3: the Churn runs -/

/-- The Churn starts: memory ports, hubs and the I/O port are lit; compute ports wait for their dies. -/
def State.openChurn (s : State) : State :=
  let light (a : State) (p : Nat) : State :=
    if p < 16 then (a.onPort p fun x => { x with flexTx := 64 }).setRow p defaultRow
    else if a.isDark p then a
    else a.onPort p fun x => { x with mode := .lit, txLit := BitVec.ofNat 9 (fullLit p true), rxLit := BitVec.ofNat 9 (fullLit p false) }
  let s1 := (List.range 53).foldl light s
  { s1 with churn := { s1.churn with running := true, colLimit := allHalves.map fun p => (p, 64) },
            fab := { s1.fab with dark := s1.fab.dark ||| 0xFFFF } }

end Sys2Proof.Machine
end

