-- ==== Sys2Proof/Machine/Ecc.lean ====
section
/-! DEFINITION. ECDSA and ECDH over P-521 (R437, R438, R500, R507 to R509). A point is `none` at infinity; keys are
133-byte uncompressed points and signatures are r then s, 66 bytes each. -/

namespace Sys2Proof.Machine

def p521P : Nat := 2 ^ 521 - 1

def p521B : Nat :=
  0x51953eb9618e1c9a1f929a21a0b68540eea2da725b99b315f3b8b489918ef109e156193951ec7e937b1652c0bd3bb1bf073573df883d2c34f1ef451fd46b503f00

/-- The order of the base point. -/
def p521N : Nat :=
  0x1fffffffffffffffffffffffffffffffffffffffffffffffffffffffffffffffffa51868783bf2f966b7fcc0148f709a5d03bb5c9b8899c47aebb6fb71e91386409

def p521G : Option (Nat × Nat) := some
  (0xc6858e06b70404e9cd9e3ecb662395b4429c648139053fb521f828af606b4d3dbaa14b5e77efe75928fe1dc127a2ffa8de3348b3c1856a429bf97e7e31c2e5bd66,
   0x11839296a789a3bc0045c8a5fb42c7d1bd998f54449579b446817afbd17273e662c97ee72995ef42640c550b9013fad0761353c7086a272c24088be94769fd16650)

/-- x to the power whose bits are e's `k` low bits, modulo m. -/
def powMod (m : Nat) : Nat → Nat → Nat → Nat
  | 0, _, _ => 1 % m
  | k + 1, x, e =>
    let r := powMod m k (x * x % m) (e / 2)
    if e % 2 = 1 then r * x % m else r

/-- The inverse modulo a prime m. -/
def invMod (m x : Nat) : Nat := powMod m 521 x (m - 2)

/-- The sum of two points. -/
def p521Add (a b : Option (Nat × Nat)) : Option (Nat × Nat) :=
  match a, b with
  | none, b => b
  | a, none => a
  | some (x1, y1), some (x2, y2) =>
    if x1 = x2 ∧ (y1 + y2) % p521P = 0 then none
    else
      let l := if x1 = x2 then (3 * x1 * x1 + (p521P - 3)) * invMod p521P (2 * y1 % p521P) % p521P
        else (y2 + p521P - y1) * invMod p521P ((x2 + p521P - x1) % p521P) % p521P
      let x3 := (l * l + 2 * p521P - x1 - x2) % p521P
      some (x3, (l * (x1 + p521P - x3) + p521P - y1) % p521P)

def p521MulAux : Nat → Nat → Option (Nat × Nat) → Option (Nat × Nat)
  | 0, _, _ => none
  | k + 1, e, a =>
    let r := p521MulAux k (e / 2) (p521Add a a)
    if e % 2 = 1 then p521Add a r else r

/-- The multiple e of a point. -/
def p521Mul (e : Nat) (a : Option (Nat × Nat)) : Option (Nat × Nat) := p521MulAux 521 e a

def p521OnCurve (x y : Nat) : Bool :=
  decide (x < p521P ∧ y < p521P ∧ y * y % p521P = (x * x * x + (p521P - 3) * x + p521B) % p521P)

/-- The point that 133 bytes spell, where they spell one. -/
def p521Decode (k : List Byte) : Option (Nat × Nat) :=
  if k.length = 133 ∧ k.headD 0 = 4 then
    let x := beNat ((k.drop 1).take 66)
    let y := beNat (k.drop 67)
    if p521OnCurve x y then some (x, y) else none
  else none

/-- The 133 bytes of a point; infinity has none. -/
def p521Encode : Option (Nat × Nat) → List Byte
  | none => []
  | some (x, y) => 4 :: beBytes 66 x ++ beBytes 66 y

/-- The public key of a private scalar. -/
def p521Public (d : Nat) : List Byte := p521Encode (p521Mul d p521G)

/-- The shared secret of a private scalar and a peer's key: the 66-byte x coordinate. -/
def p521Ecdh (d : Nat) (peer : List Byte) : Option (List Byte) :=
  match p521Decode peer with
  | none => none
  | some q =>
    match p521Mul d (some q) with
    | none => none
    | some (x, _) => some (beBytes 66 x)

/-- The signature of a message by scalar d, with the per-signature secret k. -/
def ecdsaSign (d k : Nat) (m : List Byte) : List Byte :=
  let e := beNat (sha512 m)
  let r := match p521Mul k p521G with
    | none => 0
    | some (x, _) => x % p521N
  let t := invMod p521N k * (e + r * d) % p521N
  beBytes 66 r ++ beBytes 66 t

/-- Whether a signature of a message verifies under a key. -/
def ecdsaVerify (key : List Byte) (m sig : List Byte) : Bool :=
  match p521Decode key with
  | none => false
  | some q =>
    let r := beNat (sig.take 66)
    let t := beNat (sig.drop 66)
    if sig.length = 132 ∧ 0 < r ∧ r < p521N ∧ 0 < t ∧ t < p521N then
      let w := invMod p521N t
      let u1 := beNat (sha512 m) * w % p521N
      let u2 := r * w % p521N
      match p521Add (p521Mul u1 p521G) (p521Mul u2 (some q)) with
      | none => false
      | some (x, _) => decide (x % p521N = r)
    else false

end Sys2Proof.Machine
end

