-- ==== Sys2Proof/Machine/Kcp.lean ====
section
/-! DEFINITION. KCP: sessions, and the commands that name no register (R189 to R192, R338, R426, R429, R435 to R447, R483,
R489, R509 to R511). -/

namespace Sys2Proof.Machine

def allSlots : List Nat := List.range 8

/-- The controller in control runs, and answers on the host port. -/
def State.mcServes (s : State) : Bool := !s.mc.mgmtReset && decide (3 ≤ s.mc.step.toNat)

/-! ## Sessions (R436 to R440) -/

/-- A CLOSE record of a session id. -/
def State.sendClose (s : State) (id : W32) (reason : Nat) : State :=
  s.hostSend (.kcp (recordHeader 5 id 0 ++ [BitVec.ofNat 8 reason]))

/-- A failed opening; steps are 1 the HELLO_H body, 2 the signature, 3 the host key table (log 33). -/
def State.authFails (s : State) (id : W32) (step : Nat) : State :=
  let s1 := s.sendClose id 2
  { s1 with kcp := { s1.kcp with authFail := bump s1.kcp.authFail } }.note 0x0701 .info (unitMc s.mc.owner) [BitVec.ofNat 64 step]

/-- The slot of a session id. -/
def State.slotFor (s : State) (id : W32) (f : Session → Bool) : Option Nat :=
  allSlots.find? fun k => (s.session k).id == id && f (s.session k)

/-- The bytes of H1 (R437). -/
def helloHash (helloH helloD : List Byte) : List Byte := sha512 (helloH ++ helloD)

/-- A HELLO_H with room for a session: the device's key, nonce and signature are drawn and HELLO_D goes out. -/
def State.helloD (s : State) (slot : Nat) (body : List Byte) : State :=
  let (k, s1) := s.takeFree
  let d := Config.ephemeral k % (p521N - 1) + 1
  let nonce := leBytes 32 (Config.nonce k).toNat
  let bare := p521Public d ++ nonce ++ s.mc.idKey
  let h1 := helloHash body (bare ++ List.replicate 132 0)
  let sig := ecdsaSign s.mc.idScalar (Config.signSecret k % (p521N - 1) + 1) h1
  let id := s.kcp.nextSession
  let n : Session := { handshake := true, id := id, recordMax := BitVec.ofNat 16 (beNat ((body.drop 165).take 2)),
                       hostEph := body.take 133, hostNonce := (body.drop 133).take 32, hostKey := body.drop 167, devNonce := nonce,
                       devScalar := d, h1 := BitVec.ofNat 512 (leNat h1), devSig := sig }
  let s2 := s1.onSession slot fun _ => n
  { s2 with kcp := { s2.kcp with nextSession := bump id } }.hostSend (.kcp (recordHeader 2 id 0 ++ bare ++ sig))

/-- A HELLO_H body: 133-byte key, 32-byte nonce, RECORD_MAX in 2 bytes and 133-byte key (log 33). -/
def helloSound (body : List Byte) : Bool :=
  let m := beNat ((body.drop 165).take 2)
  body.length == 300 && decide (1232 ≤ m ∧ m ≤ 9168) && (p521Decode (body.take 133)).isSome && (p521Decode (body.drop 167)).isSome

/-- At most 16 HELLO_H records are answered in each second of the time counter. -/
def State.hello (s : State) (body : List Byte) : State :=
  let second := s.time / 1000000000
  let count := if s.kcp.helloSecond = second then s.kcp.helloCount else 0
  if !s.mcServes ∨ s.eth.mode ≠ .up ∨ 16 ≤ count then s
  else
    let s1 := { s with kcp := { s.kcp with helloSecond := second, helloCount := count + 1 } }
    match allSlots.find? fun k => !(s1.session k).isOpen && !(s1.session k).handshake with
    | none => s1.sendClose 0 3
    | some slot => if helloSound body then s1.helloD slot body else s1.authFails 0 1

def execHelloH (body : List Byte) (s : State) : Host.Outcome State Fault Refusal := .next (s.hello body)

/-- The key and IV of one direction (R438). -/
def kcpKeys (prk h1 : List Byte) (info : String) : BitVec 256 × BitVec 96 :=
  let k := hkdfExpand prk (ascii info ++ h1) 44
  (BitVec.ofNat 256 (beNat (k.take 32)), BitVec.ofNat 96 (beNat (k.drop 32)))

/-- FINISH_H: the signature and the host key are checked, and the session opens. -/
def State.finishHello (s : State) (id : W32) (sig : List Byte) : State :=
  match s.slotFor id Session.handshake with
  | none => s
  | some k =>
    let n := s.session k
    let h1 := leBytes 64 n.h1.toNat
    let drop := s.onSession k fun _ => {}
    if !s.mcServes then s
    else if !ecdsaVerify n.hostKey (h1 ++ n.devSig) sig then drop.authFails id 2
    else if !s.fru.hostKeys.contains (digestOf n.hostKey) then drop.authFails id 3
    else match p521Ecdh n.devScalar n.hostEph with
      | none => drop.authFails id 1
      | some z =>
        let prk := hkdfExtract (n.hostNonce ++ n.devNonce) z
        let (kh, ih) := kcpKeys prk h1 "kcp h2d"
        let (kd, id2) := kcpKeys prk h1 "kcp d2h"
        s.onSession k fun n =>
          { n with isOpen := true, handshake := false, keyH2d := kh, ivH2d := ih, keyD2h := kd, ivD2h := id2, devScalar := 0 }

def execFinishH (session : W32) (sig : List Byte) (s : State) : Host.Outcome State Fault Refusal := .next (s.finishHello session sig)

/-- A session ends: what it had forwarded has no one to answer. -/
def State.dropSession (s : State) (k : Nat) : State :=
  let s1 := s.onSession k fun _ => {}
  { s1 with kcp := { s1.kcp with forwards := s1.kcp.forwards.filter fun f => f.slot != k } }

def execClose (session : W32) (_reason : Byte) (s : State) : Host.Outcome State Fault Refusal :=
  .next (match s.slotFor session fun n => n.isOpen || n.handshake with
    | some k => s.dropSession k
    | none => s)

def execSessionIdleTimeout (slot : Fin 8) (s : State) : Host.Outcome State Fault Refusal :=
  .next (if (s.session slot.val).isOpen then (s.closeSession slot.val 1).dropSession slot.val else s)

/-! ## Identity and attestation (R445, R509 to R511) -/

/-- RECORD_MAX of a request's session; a forwarded request takes the least one (log 34). -/
def State.recordMaxOf (s : State) : KcpSrc → Nat
  | .session k => (s.session k.val).recordMax.toNat
  | .forwarded _ _ => 1232

def McState.code : McState → Nat
  | .booting => 0
  | .ready => 1
  | .recovery => 2
  | .fatal => 3
  | .standby => 4

/-- A key of 133 bytes, or as many zeros. -/
def keyBytes (k : List Byte) : List Byte := (k ++ List.replicate 133 0).take 133

def State.identity (s : State) : List Byte :=
  let zeros (n : Nat) : List Byte := List.replicate n 0
  beBytes 2 0x3200 ++ beBytes 1 s.fuses.variant.code ++ beBytes 1 s.fab.pkgId.toNat ++ beBytes 1 (McState.code s.mc.state) ++ [1, 0, 0] ++
    beBytes 8 s.time ++ beBytes 16 s.fru.serial.toNat ++ beBytes 8 s.mc.fwVersion.toNat ++ beBytes 8 s.mc.readyTime.toNat ++
    beBytes 4 (s.fru.tripCopy.isSome.toNat + 2 * s.clk.holdoverSeen.toNat) ++ zeros 12 ++
    ((s.fru.tripCopy.map ErrRec.bytes).getD (zeros 64)) ++ keyBytes s.mc.idKey ++ zeros 3

def execIdentity (src : KcpSrc) (req : W32) (s : State) : Host.Outcome State Fault Refusal :=
  .next (s.reply src req 0x0001 stOK s.identity)

/-- The measurement of a context (R144, R510). -/
def State.quoteEntry (s : State) (c : Nat) : List Byte :=
  let x := s.ctx c
  [BitVec.ofNat 8 c, x.vat.zeroExtend 8, x.shift.zeroExtend 8, BitVec.ofNat 8 (x.galsBit.toNat + 2 * x.state.code), 0, 0, 0, 0] ++
    beBytes 8 x.commitTime.toNat ++ leBytes 64 x.digest.toNat

/-- Contexts that hold a culture. -/
def State.measured (s : State) : List Nat := (List.range 64).filter fun c => (s.ctx c).state != .free

/-- A quote of at most `room` bytes. -/
def State.quote (s : State) (nonce : BitVec 512) (room secret : Nat) : List Byte :=
  let all := s.measured
  let listed := min all.length ((room - 452) / 80)
  let flags := packBits [(0, 1, (decide (listed < all.length)).toNat), (1, 1, s.mc.cfgValid.toNat), (2, 1, s.mc.certMatch.toNat),
    (3, 1, s.mc.owner.toNat)]
  let m := ascii "VLVQ" ++ beBytes 2 1 ++ beBytes 1 (McState.code s.mc.state) ++ beBytes 1 flags ++ beBytes 8 s.time ++
    beBytes 16 s.fru.serial.toNat ++ beBytes 1 s.fuses.variant.code ++ beBytes 1 s.fab.pkgId.toNat ++ beBytes 2 all.length ++
    beBytes 2 listed ++ [0, 0] ++ beBytes 4 s.mc.svn.toNat ++ beBytes 4 s.fuses.svnMin.toNat ++ beBytes 8 s.mc.fwVersion.toNat ++
    beBytes 8 s.rings.hashSeq.toNat ++ leBytes 64 nonce.toNat ++ leBytes 64 s.mc.fwMeasure.toNat ++ leBytes 64 s.mc.cfgMeasure.toNat ++
    leBytes 64 s.rings.hash.toNat ++ (all.take listed).flatMap s.quoteEntry
  m ++ ecdsaSign s.mc.idScalar (secret % (p521N - 1) + 1) m

def execAttest (src : KcpSrc) (req : W32) (nonce : BitVec 512) (s : State) : Host.Outcome State Fault Refusal :=
  .next (let (k, s1) := s.takeFree
    let q := s1.quote nonce (s.recordMaxOf src - 48) (Config.signSecret k)
    { s1 with mc := { s1.mc with quoteCnt := bump s1.mc.quoteCnt } }.reply src req 0x0002 stOK q)

/-! ## Refused writes and segments (R15, R152, R190 to R192) -/

/-- Who writes, as CFG_REFUSED names it (log 35). -/
def writerCode : Writer → Nat
  | .kcp k => k.val
  | .remote p k => 0x100 + 8 * p.val + k.val
  | .firmware => 0x1000
  | .monitor => 0x2000

def KcpSrc.writer : KcpSrc → Writer
  | .session k => .kcp k
  | .forwarded p k => .remote p k

/-- A refused FROZEN write to a local address. -/
def State.cfgRefuse (s : State) (addr : Nat) (w : Writer) (value : Nat) : State :=
  { s with err := { s.err with cfgRefused := true } }.note 0x0901 .info (unitMc s.mc.owner)
    [BitVec.ofNat 64 addr, BitVec.ofNat 64 (writerCode w), BitVec.ofNat 64 (value % 2 ^ 32)]

/-- Whether n bytes from a local address lie within one of the HBM, cream or tile-store regions. -/
def oneRegion (a n : Nat) : Bool :=
  decide (a + n ≤ 2 ^ 41) || decide (0x020000000000 ≤ a ∧ a + n ≤ 0x020800000000) || decide (0x030000000000 ≤ a ∧ a + n ≤ 0x030400000000)

/-- Whether an entry with V = 1 may be written. -/
def segSound (e : Nat) : Bool :=
  let base := bitsAt e 0 64
  let limit := bitsAt e 64 39
  !faRes0 base && base % 64 == 0 && limit % 64 == 63 && oneRegion (faLocal base) (limit + 1) && bitsAt e 103 1 == 0 && bitsAt e 109 19 == 0

/-- The local address of FAB_SEG[i]. -/
def segAddr (i : Nat) : Nat := 0x3F000A100000 + 16 * i

/-- A write of segment entry i: its status and what it leaves. -/
def State.writeSeg (s : State) (i : Nat) (e : BitVec 128) (w : Writer) : Nat × State :=
  let x := e.toNat
  if (s.ctx (i / 512)).state.runs then (stRefused, s.cfgRefuse (segAddr i) w x)
  else if bitAt x 104 ∧ !segSound x then
    (stRange, s.note 0x0A08 .info (unitContexts) [BitVec.ofNat 64 i, BitVec.ofNat 64 x, BitVec.ofNat 64 (x / 2 ^ 64)] (some (i / 512)))
  else
    let clean := packBits [(6, 58, bitsAt x 6 58), (64, 39, bitsAt x 64 39), (104, 5, bitsAt x 104 5)]
    (stOK, { s with fab := { s.fab with seg := Tbl.put 0 s.fab.seg i (BitVec.ofNat 128 clean) } })

def execSegMap (src : KcpSrc) (req : W32) (c : Byte) (seg : W16) (entry : BitVec 128) (s : State) : Host.Outcome State Fault Refusal :=
  .next (if 64 ≤ c.toNat ∨ 512 ≤ seg.toNat then s.reply src req 0x0015 stRange []
    else
      let (st, s1) := s.writeSeg (c.toNat * 512 + seg.toNat) entry (KcpSrc.writer src)
      s1.reply src req 0x0015 st [])

/-! ## Queue pairs (R429, R431, R432) -/

/-- CREDIT: 0 asks for the default; other values outside 16 to 4,096 are out of range (log 36). -/
def creditOf (c : W16) : Option W16 := if c = 0 then some 256 else if 16 ≤ c.toNat ∧ c.toNat ≤ 4096 then some c else none

def execQpCreate (src : KcpSrc) (req : W32) (q : W16) (c : Byte) (rkey : W32) (credit slotSize : W16) (slots : W32) (ringBase : W64)
    (peer : QpPeer) (s : State) : Host.Outcome State Fault Refusal :=
  .next (match creditOf credit with
    | none => s.reply src req 0x0016 stRange []
    | some cr =>
      if 1024 ≤ q.toNat ∨ 64 ≤ c.toNat then s.reply src req 0x0016 stRange []
      else if (s.qp q.toNat).state = .ready then s.reply src req 0x0016 stState []
      else
        let (k, s1) := s.takeFree
        let x := s1.qp q.toNat
        let s2 := s1.onQp q.toNat fun _ =>
          { ({} : Qp) with state := .ready, ctx := BitVec.ofNat 6 c.toNat, rkey := rkey, credit := cr, slotSize := slotSize,
                           slots := slots, ringBase := ringBase, peer := peer, lastStatus := x.lastStatus,
                           lastCause := x.lastCause, lastBucket := x.lastBucket, delayedCnt := x.delayedCnt, refusedCnt := x.refusedCnt }
        s2.reply src req 0x0016 stOK (beBytes 4 q.toNat ++ beBytes 4 (Config.startPsn k).toNat))

def execQpDestroy (src : KcpSrc) (req : W32) (q : W16) (s : State) : Host.Outcome State Fault Refusal :=
  .next (if 1024 ≤ q.toNat then s.reply src req 0x0017 stRange []
    else if (s.qp q.toNat).state = .free then s.reply src req 0x0017 stState []
    else (s.qpDestroyed q.toNat).reply src req 0x0017 stOK [])

/-! ## Records, dump and routes (R338, R483, R489) -/

/-- Records from a sequence number on: at most n, those that the ring still holds. -/
def State.errFrom (s : State) (first n : Nat) : Nat × List ErrRec :=
  let next := s.err.seqNext.toNat
  let start := max first (next - 4096)
  (start, (List.range (min n (next - start))).map fun i => Tbl.look {} s.err.ring ((start + i) % 4096))

def execErrRead (src : KcpSrc) (req : W32) (first : W64) (maxCount : W16) (s : State) : Host.Outcome State Fault Refusal :=
  .next (let fit := (s.recordMaxOf src - 64) / 64
    let (start, l) := s.errFrom first.toNat (min maxCount.toNat fit)
    let more := decide (fit < maxCount.toNat) && decide (start + l.length < s.err.seqNext.toNat)
    s.reply src req 0x0022 stOK
      (beBytes 8 (start + l.length) ++ beBytes 4 s.err.overflowCnt.toNat ++ beBytes 4 l.length ++ l.flatMap ErrRec.bytes) more)

/-- The held dump: nothing while MC-B is in control. -/
def State.heldDump (s : State) : List Byte := if s.err.dump.valid && !s.mc.owner then s.err.dump.bytes else []

def execDumpRead (src : KcpSrc) (req : W32) (offset length : W32) (s : State) : Host.Outcome State Fault Refusal :=
  .next (if 8192 < length.toNat then s.reply src req 0x0023 stRange []
    else
      let d := s.heldDump
      let want := (d.drop offset.toNat).take length.toNat
      let fit := s.recordMaxOf src - 52
      s.reply src req 0x0023 stOK (beBytes 4 d.length ++ want.take fit) (decide (fit < want.length)))

/-- The writable fields of a route entry. -/
def routeFields (v : Nat) : W32 := routeWord (bitsAt v 0 6) (bitsAt v 6 6) (bitsAt v 12 1) (bitsAt v 16 4)

def State.writeRoute (s : State) (d j v : Nat) : State := (s.setRoute d j (routeFields v)).checkRoute d j

def execRouteWrite (src : KcpSrc) (req : W32) (d j : Byte) (value : W32) (s : State) : Host.Outcome State Fault Refusal :=
  .next (if 64 ≤ d.toNat ∨ 16 ≤ j.toNat then s.reply src req 0x0031 stRange []
    else (s.writeRoute d.toNat j.toNat value.toNat).reply src req 0x0031 stOK [])

/-! ## Notifications (R446, R450) -/

def State.setSubs (s : State) (src : KcpSrc) (mask : Byte) : State :=
  let m : BitVec 4 := mask.truncate 4
  match src with
  | .session k => s.onSession k.val fun n => { n with subs := m }
  | .forwarded p k => { s with kcp := { s.kcp with remote := Tbl.upd {} s.kcp.remote (8 * p.val + k.val) fun n => { n with subs := m } } }

def execNotifySubscribe (src : KcpSrc) (req : W32) (mask : Byte) (s : State) : Host.Outcome State Fault Refusal :=
  .next ((s.setSubs src mask).reply src req 0x0040 stOK [])

def execNotifyAck (src : KcpSrc) (req : W32) (seq : W32) (s : State) : Host.Outcome State Fault Refusal :=
  .next ({ s with kcp := { s.kcp with pending := s.kcp.pending.filter fun n => n.seq != seq } }.reply src req 0x0041 stOK [])

/-- Every second, each pending notification goes out again. -/
def execNotifyResend (s : State) : Host.Outcome State Fault Refusal :=
  .next (if s.mc.mgmtReset then s else s.kcp.pending.foldl State.sendNotification s)

end Sys2Proof.Machine
end

