-- ==== Sys2Proof/Machine/Contexts.lean ====
section
/-! DEFINITION. The life of contexts, hangs and replays, and ABORT (R454 to R476, R490). -/

namespace Sys2Proof.Machine

/-! ## Launch and checkpoints (R65, R130) -/

/-- The first PC and registers of a context launched from LOADED; sequencer memory outside the code reads 0. -/
def Plane.launched (p : Plane) : Plane :=
  let x : Tbl W64 := Tbl.put 0 [] 2 p.initSp
  { p with pc := p.entry, x := x, busy := 0, resv := none, blocked := none, issuing := true, ladles := [], groups := [],
           newFlags := 0, draws := [], nb := 0, delayed := 0, vbnd := 0,
           seqMem := p.seqMem.filter (fun e => decide (p.codeAt ≤ e.1 ∧ e.1 < p.codeAt + p.codeLen)),
           ckpt := some { pc := p.entry, x := x } }

/-- Back to the boundary checkpoint. -/
def Plane.restored (p : Plane) : Plane :=
  match p.ckpt with
  | none => p
  | some k => { p with pc := k.pc, x := k.x, busy := 0, resv := none, blocked := none, issuing := true, ladles := k.ladles,
                       groups := k.groups, newFlags := 0, draws := [], nb := k.nb, delayed := 0 }

/-- A vat leaves GATED towards state r: at once if its tile stores are awake, otherwise when they have woken (R85). -/
def State.ungate (s : State) (v : Nat) : State :=
  if (s.vat v).run = .gated then
    if (s.vat v).tsRetained || (s.vat v).tsWaking then
      s.onVat v fun x => { x with tsWaking := true, wakeThen := some .idle }
    else s.onVat v fun x => { x with run := .idle, banksOn := false, freqNow := 32 }
  else s

/-- The swap of R145: the shadow context runs and the active plane holds none that does. -/
def State.swapIdleActive (s : State) (v : Nat) : State :=
  if (s.vat v).run = .gated ∨ (s.vat v).run = .reset ∨ (s.vat v).run = .retired then s
  else match s.activeCtx v with
    | none => s.swapIfEligible v
    | some c => if (s.ctx c).state.runs then s else s.swapIfEligible v

/-- Puts a LOADED or PAUSED context into RUNNING. -/
def State.launchCtx (s : State) (c : Nat) : State :=
  let v := (s.ctx c).vat.toNat
  let fresh := (s.ctx c).state = .loaded
  let s1 := s.onPlane (s.ctxPlane c) fun p => if fresh then p.launched else p.restored
  let s2 := s1.onCtx c fun x => { x with state := .running, drained := false, ending := false }
  ((s2.ungate v).refreshRun v).swapIdleActive v

/-- Contexts being replayed hold back commands to their vat (R490). -/
def State.replayHolds (s : State) (c : Nat) : Bool :=
  (s.ctx c).resident && (!(s.vat (s.ctx c).vat.toNat).suspects.isEmpty || (s.vat (s.ctx c).vat.toNat).replaying.isSome)

/-- CTX_LAUNCH: its status, and the state after it (R458, R523). -/
def State.tryLaunch (s : State) (c : Nat) : Nat × State :=
  if s.svc.standby || s.svc.draining then (stState, s)
  else if (s.ctx c).state = .loaded ∨ (s.ctx c).state = .paused then
    if s.replayHolds c then (stOK, s.onCtx c fun x => { x with heldLaunch := true }) else (stOK, s.launchCtx c)
  else (stState, s)

/-- A context leaves RUNNING and DRAINING: it becomes PAUSED, its flex port is released and it is swapped out. Loads that were
outstanding at its checkpoint have since written its registers. -/
def State.pauseNow (s : State) (c : Nat) : State :=
  let s1 := s.onCtx c fun x => { x with state := .paused, drained := false }
  let s2 := (s1.onPlane (s.ctxPlane c) fun p =>
    { p with issuing := false, ckpt := p.ckpt.map fun k => { k with x := p.x } }).flexReleaseCtx c
  (s2.swapAway c).refreshRun (s.ctx c).vat.toNat

/-- CTX_PAUSE on a RUNNING context (R458, R459). -/
def State.pauseRunning (s : State) (c : Nat) : State :=
  if s.isActive c then s.onCtx c fun x => { x with state := .draining, drained := false } else s.pauseNow c

def State.tryPause (s : State) (c : Nat) : Nat × State :=
  match (s.ctx c).state with
  | .running =>
    if s.replayHolds c then (stOK, s.onCtx c fun x => { x with heldPause := true }) else (stOK, s.pauseRunning c)
  | .draining | .paused => (stOK, s)
  | _ => (stState, s)

/-- CTX_CREATE (R456, R458). -/
def State.tryCreate (s : State) (c : Nat) (group : W16) (seed : W64) : Nat × State :=
  if (s.ctx c).state = .free then (stOK, s.onCtx c fun x => { x with group := group, seed := seed }) else (stState, s)

/-- An operation of the context that has not completed: outstanding cells or a flex request. -/
def State.busyOps (s : State) (c : Nat) : Bool :=
  s.fab.ops.any (fun o => o.ctx == c && o.port != 52 && !o.voided) || s.churn.pending.any (fun r => r.ctx == c) ||
    s.churn.sent.any (fun r => r.ctx == c) || s.churn.retunes.any (fun r => r.req.ctx == c)

/-- A context on which nothing runs: FREE, LOADED, PAUSED, or FAULTED with its stop over (R458). -/
def Ctx.quiet (x : Ctx) : Bool :=
  match x.state with
  | .running | .draining => false
  | _ => !x.stopping && !x.resetting

/-- CTX_DESTROY: at once for a quiet context; otherwise after a context reset. The Bool says that it is done. -/
def State.tryDestroy (s : State) (c : Nat) (who : Option (KcpSrc × W32)) : Bool × State :=
  if (s.ctx c).quiet then (true, s.freeCtx c)
  else
    let s1 := s.onCtx c fun x => { x with destroyAfter := x.destroyAfter ++ [who] }
    if (s.ctx c).resetting then (false, s1)
    else
      let v := (s.ctx c).vat.toNat
      let s2 := s1.onVat v fun x => { x with suspects := x.suspects.filter (· ≠ c),
                                             replaying := if x.replaying == some c then none else x.replaying }
      (false, ((s2.endHandling (.ctx c)).begin (.ctxReset c) (.ctxReset c) (BitVec.allOnes 64)).finish)

/-! ## Draining, ending and stopping (R459, R460, R463) -/

def execDrainComplete (c : CtxId) (s : State) : Host.Outcome State Fault Refusal :=
  .next (if (s.ctx c.val).state = .draining && (s.ctx c.val).drained && !s.busyOps c.val then s.pauseNow c.val else s)

/-- The run of a context ends: LOADED, with an INFO record CTX_ENDED (R460). -/
def State.endRun (s : State) (c : Nat) : State :=
  let s1 := s.onCtx c fun x => { x with state := .loaded, ending := false, drained := false }
  let s2 := ((s1.onPlane (s.ctxPlane c) fun p => { p with issuing := false }).flexReleaseCtx c).note 0x0804 .info
    unitContexts [] (some c)
  (s2.swapAway c).refreshRun (s.ctx c).vat.toNat

def execCtxEnded (c : CtxId) (s : State) : Host.Outcome State Fault Refusal :=
  .next (if (s.ctx c.val).state.runs && (s.ctx c.val).ending && !s.busyOps c.val then s.endRun c.val else s)

/-- The fault stop is over: the context is quiet (R463). -/
def execFaultStopQuiet (c : CtxId) (s : State) : Host.Outcome State Fault Refusal :=
  .next (if (s.ctx c.val).stopping && !(s.ctx c.val).resetting && !s.busyOps c.val then
    (s.onCtx c.val fun x => { x with stopping := false }).endHandling (.ctx c.val)
  else s)

/-! ## Hangs and replays (R473 to R476) -/

/-- CTX_HANG: the suspect faults and takes a context reset. -/
def State.hangFault (s : State) (c : Nat) : State :=
  let s1 := s.onCtx c fun x => { x with suspect := false, replaying := false, resetSent := false }
  let s2 := s1.ctxFault c 0x0802 (unitVat (s.ctx c).vat.toNat) [] .context true false (some (.ctxReset c))
  { s2 with err := { s2.err with hangCnt := bump s2.err.hangCnt } }

/-- Commands held during the replays are applied (R490). -/
def State.applyHeld (s : State) (c : Nat) : State :=
  let x := s.ctx c
  let s1 := s.onCtx c fun x => { x with heldPause := false, heldLaunch := false, suspect := false, replaying := false,
                                        resetSent := false }
  let s2 := if x.heldPause && x.state == .running then s1.pauseRunning c else s1
  if x.heldLaunch && (x.state == .loaded || x.state == .paused) then s2.launchCtx c else s2

/-- When every suspect has been tried, those that passed resume, and the hang's handling ends (R475). -/
def State.replaysEnd (s : State) (v : Nat) : State :=
  if (s.vat v).suspects.isEmpty && (s.vat v).replaying.isNone then
    let s1 := (s.vat v).passed.foldl (fun a c => a.onPlane (a.ctxPlane c) fun p => { p with issuing := true }) s
    let s2 := (s1.onVat v fun x => { x with passed := [] }).endHandling (.vat v)
    (((s2.residents v).foldl State.applyHeld s2).refreshRun v).swapIdleActive v
  else s

/-- The watchdog expires (R473, R475). Nothing hangs while the vat neither runs nor swaps (R490). -/
def State.hang (s : State) (v : Nat) : State :=
  let x := s.vat v
  if (x.run = .run ∨ x.run = .swap) ∧ (s.residents v).any (fun c => (s.ctx c).state.runs) then
    match x.replaying with
    | some c => (((s.onVat v fun x => { x with replaying := none }).hangFault c).finish).replaysEnd v
    | none =>
      let sus := (s.residents v).filter fun c => (s.ctx c).state.runs
      (s.record 0x0902 .unit (unitVat v) none
        [BitVec.ofNat 64 (maskOf 64 fun c => sus.contains c), x.lastBoundaryId.zeroExtend 64] (some (.vat v)) false false
        (some (.vat v true))).finish
  else s

def execVatHang (v : VatId) (s : State) : Host.Outcome State Fault Refusal := .next (s.hang v.val)

/-- After the vat reset of a hang: suspects with NOREPLAY fault at once (R476). -/
def State.afterHangReset (s : State) (v : Nat) : State :=
  let sus := (s.vat v).suspects
  let no := sus.filter fun c => (s.ctx c).noreplay
  let s1 := s.onVat v fun x => { x with suspects := x.suspects.filter fun c => !(s.ctx c).noreplay }
  ((no.foldl State.hangFault s1).finish).replaysEnd v

/-- The next suspect is restored from its checkpoint and runs alone (R475). -/
def State.replay (s : State) (v : Nat) : State :=
  match (s.vat v).suspects, (s.vat v).replaying with
  | c :: rest, none =>
    if (s.vat v).run = .reset then s
    else
      let s1 := s.onVat v fun x => { x with suspects := rest, replaying := some c }
      let s2 := (s1.onPlane (s.ctxPlane c) Plane.restored).onCtx c fun x =>
        { x with replaying := true, resetSent := false, drained := false }
      let s3 := { s2 with err := { s2.err with replayCnt := bump s2.err.replayCnt } }.refreshRun v
      if s3.isActive c then s3 else s3.swapStart v
  | _, _ => s

def execReplayStart (v : VatId) (s : State) : Host.Outcome State Fault Refusal := .next (s.replay v.val)

/-- A replayed suspect retires a BOUNDARY and passes (R475). -/
def State.replayPass (s : State) (v c : Nat) : State :=
  let s1 := (s.onVat v fun x => { x with replaying := none, passed := x.passed ++ [c] }).onPlane (s.ctxPlane c) fun p =>
    { p with issuing := false }
  let s2 := (s1.onCtx c fun x => { x with replaying := false }).record 0x0903 .info (unitVat v) (some c) [] none true
  s2.replaysEnd v

/-! ## Context reset and ABORT (R464 to R471) -/

def execContextReset (c : CtxId) (s : State) : Host.Outcome State Fault Refusal :=
  .next (if (s.ctx c.val).state = .free then s
    else ((s.endHandling (.ctx c.val)).begin (.ctxReset c.val) (.ctxReset c.val) (BitVec.allOnes 64)).finish)

/-- The end of a context reset: the context is quiet, and a destroy that waits for it is done (R461, R465). -/
def State.resetEnds (s : State) (c : Nat) : State :=
  if !(s.ctx c).resetting then s
  else
    let who := (s.ctx c).destroyAfter
    let s1 := (s.onCtx c fun x => { x with stopping := false, resetting := false, destroyAfter := [] }).endHandling (.ctxReset c)
    let s2 := { s1 with err := { s1.err with ctxResetCnt := bump s1.err.ctxResetCnt } }
    let v := (s.ctx c).vat.toNat
    if who.isEmpty then s2.replaysEnd v
    else
      let s3 := (s2.freeCtx c).replaysEnd v
      who.foldl (fun a w => match w with
        | some (src, req) => a.reply src req 0x0014 stOK []
        | none => a) s3

def execContextResetComplete (c : CtxId) (s : State) : Host.Outcome State Fault Refusal := .next (s.resetEnds c.val)

/-- An ABORT cell (R467, R470): requests of its origin are purged and filtered; GROUP_ABORT faults every context of
the group. -/
def State.abortArrives (s : State) (x : Cell) : State :=
  let o := x.spkg
  let c := x.pay 2 1
  let group := x.pay 0 2
  let s1 := (s.purge o c)
  let s2 := { s1 with err := { s1.err with abortRx := bump s1.err.abortRx },
                      fab := { s1.fab with flight := s1.fab.flight.erase x,
                                           filters := if s1.fab.filters.contains (o, c) then s1.fab.filters
                                                      else s1.fab.filters ++ [(o, c)] } }
  if x.pay 3 1 = 2 then
    let hit := (List.range 64).filter fun d =>
      group != 0 && (s2.ctx d).group.toNat == group && (s2.ctx d).state != .free && (s2.ctx d).state != .faulted
    (hit.foldl (fun a d => a.ctxFault d 0x0803 unitContexts [BitVec.ofNat 64 o, BitVec.ofNat 64 c, BitVec.ofNat 64 (x.pay 8 8)]
      .context true true (some (.ctxReset d))) s2).finish
  else s2

def execAbort (cell : Cell) (s : State) : Host.Outcome State Fault Refusal := .next (s.abortArrives cell)

def execAbortFilterExpire (pkg : PkgId) (c : CtxId) (s : State) : Host.Outcome State Fault Refusal :=
  .next { s with fab := { s.fab with filters := s.fab.filters.filter (· ≠ (pkg.val, c.val)) } }

/-- The held requests of a context are released (R471). -/
def execAbortHoldRelease (c : CtxId) (s : State) : Host.Outcome State Fault Refusal :=
  .next (s.onCtx c.val fun x => { x with remoteHold := false }).relaunch

/-! ## The KCP context commands (R444, R458) -/

/-- A command that names a context outside 0 to 63 is answered RANGE; any other runs and is answered. -/
def State.ctxCommand (s : State) (src : KcpSrc) (req : W32) (op : W16) (c : Byte) (f : Nat → Nat × State) : State :=
  if c.toNat < 64 then
    let (st, s1) := f c.toNat
    s1.reply src req op st []
  else s.reply src req op stRange []

def execCtxCreate (src : KcpSrc) (req : W32) (c : Byte) (group : W16) (seed : W64) (s : State) : Host.Outcome State Fault Refusal :=
  .next (s.ctxCommand src req 0x0011 c fun c => s.tryCreate c group seed)

def execCtxLaunch (src : KcpSrc) (req : W32) (c : Byte) (s : State) : Host.Outcome State Fault Refusal :=
  .next (s.ctxCommand src req 0x0012 c s.tryLaunch)

def execCtxPause (src : KcpSrc) (req : W32) (c : Byte) (s : State) : Host.Outcome State Fault Refusal :=
  .next (s.ctxCommand src req 0x0013 c s.tryPause)

/-- CTX_DESTROY is answered when the context is FREE. -/
def execCtxDestroy (src : KcpSrc) (req : W32) (c : Byte) (s : State) : Host.Outcome State Fault Refusal :=
  .next (if c.toNat < 64 then
    match s.tryDestroy c.toNat (some (src, req)) with
    | (true, s1) => s1.reply src req 0x0014 stOK []
    | (false, s1) => s1
  else s.reply src req 0x0014 stRange [])

end Sys2Proof.Machine
end

