-- ==== Sys2Proof/Machine/Service.lean ====
section
/-! DEFINITION. The service button, standby, the indicators' switches and JTAG (R520 to R526, R533, R534). -/

namespace Sys2Proof.Machine

/-! ## Standby (R523, R524) -/

/-- Standby begins, from READY only: every RUNNING context is paused. -/
def State.enterStandby (s : State) : State :=
  let s1 := { s with svc := { s.svc with standby := true, draining := true }, mc := { s.mc with state := McState.standby } }
  (List.range 64).foldl (fun a c => if (a.ctx c).state = .running then (a.tryPause c).2 else a) s1

/-- Standby ends; causes are 0 press, 1 EXIT_STANDBY, 2 compute reset (log 22). -/
def State.leaveStandby (s : State) (cause : Nat) : State :=
  if s.svc.standby then
    let s1 := { s with svc := { s.svc with standby := false, draining := false },
                       mc := { s.mc with state := if s.mc.state = McState.standby then McState.ready else s.mc.state } }
    s1.note 0x1102 .info (unitMc s.mc.owner) [0, BitVec.ofNat 64 cause]
  else s

/-- Gates a vat in service (R85). -/
def State.gate (s : State) (v : Nat) : State :=
  s.onVat v fun x => match x.run with
    | .idle | .run => { x with run := .gated, freqNow := 0, banksOn := false }
    | _ => x

/-- The drain is over: every vat is gated, the host is told and SVC_STANDBY is written. -/
def State.standbyReached (s : State) : State :=
  if s.svc.standby && s.svc.draining && (List.range 64).all fun c => !(s.ctx c).state.runs then
    let s1 := { (List.range 32).foldl State.gate s with svc := { s.svc with draining := false } }
    (s1.notifyService 3).note 0x1102 .info (unitMc s.mc.owner) [1, 0]
  else s

def execStandbyEntered (s : State) : Host.Outcome State Fault Refusal := .next s.standbyReached

def execExitStandby (s : State) : Host.Outcome State Fault Refusal := .next (s.leaveStandby 1)

/-! ## The button (R37, R522, R534) -/

/-- A saturating count of presses. -/
def sat8 (c : Byte) : Byte := if c = 255 then c else c + 1

/-- The record and the count of a classified press: 0 identify, 1 quiesce, 2 standby, 3 ignored (the order of
SVC_PRESS_CNT). -/
def State.countPress (s : State) (cls ms : Nat) : State :=
  let v := s.svc
  let v1 := match cls with
    | 0 => { v with cntIdentify := sat8 v.cntIdentify }
    | 1 => { v with cntQuiesce := sat8 v.cntQuiesce }
    | 2 => { v with cntStandby := sat8 v.cntStandby }
    | _ => { v with cntIgnored := sat8 v.cntIgnored }
  { s with svc := v1 }.note 0x1101 .info (unitMc s.mc.owner) [BitVec.ofNat 64 cls, BitVec.ofNat 64 ms]

/-- Presses of 3 s and more act only in READY and in STANDBY (R534). -/
def State.pressActs (s : State) : Bool := s.mc.state == .ready || s.mc.state == .standby

/-- The action of a 10 s press. -/
def State.longPress (s : State) (ms : Nat) : State :=
  let s1 := { s with svc := { s.svc with hold10 := true } }
  match s.mc.state with
  | .ready => (s1.countPress 2 ms).enterStandby
  | .standby => (s1.countPress 2 ms).leaveStandby 0
  | _ => s1.countPress 3 ms

def execButtonPress (s : State) : Host.Outcome State Fault Refusal :=
  .next { s with svc := { s.svc with btnDown := true, hold3 := false, hold10 := false } }

def execButtonHold3s (s : State) : Host.Outcome State Fault Refusal :=
  .next (if s.svc.btnDown then { s with svc := { s.svc with hold3 := true } } else s)

def execButtonHold10s (s : State) : Host.Outcome State Fault Refusal :=
  .next (if s.svc.btnDown && !s.svc.hold10 then s.longPress 10000 else s)

/-- The release of a press held for ms; a level change under 20 ms is no press. -/
def State.releaseButton (s : State) (ms : Nat) : State :=
  let s1 := { s with svc := { s.svc with btnDown := false, hold3 := false, hold10 := false } }
  if ms < 20 then s1
  else
    let s2 := { s1 with svc := { s1.svc with lastPress := s.clk.now } }
    if ms < 1000 then { s2 with svc := { s2.svc with identTimer := !s2.svc.identTimer } }.countPress 0 ms
    else if ms < 3000 then s2.countPress 3 ms
    else if ms < 10000 then if s.pressActs then (s2.countPress 1 ms).notifyService 1 else s2.countPress 3 ms
    else if s.svc.hold10 then s2
    else
      let s3 := s2.longPress ms
      { s3 with svc := { s3.svc with hold10 := false } }

def execButtonRelease (heldMs : Nat) (s : State) : Host.Outcome State Fault Refusal := .next (s.releaseButton heldMs)

def execIdentifyExpire (s : State) : Host.Outcome State Fault Refusal :=
  .next { s with svc := { s.svc with identTimer := false } }

/-! ## SVC_CTRL (R525, R533) -/

def execIdent (on : Bool) (s : State) : Host.Outcome State Fault Refusal :=
  .next { s with svc := { s.svc with identCtl := on } }

def execFaultClr (s : State) : Host.Outcome State Fault Refusal :=
  .next { s with svc := { s.svc with unitRecord := false } }

def execLockMon (s : State) : Host.Outcome State Fault Refusal := .next s.lockMonitor

/-! ## JTAG (R526) -/

/-- The instruction register takes an instruction; EXTEST drives pins only while RESET_N is low. -/
def State.jtag (s : State) (ir : JtagIr) (dr : W32) : State :=
  { s with svc := { s.svc with ir := ir, dr := dr, extestDrives := ir == .extest && !s.board.resetN } }

def execBypass (s : State) : Host.Outcome State Fault Refusal := .next (s.jtag .bypass 0)
def execIdcode (s : State) : Host.Outcome State Fault Refusal := .next (s.jtag .idcode 0x13200E6D)
def execSamplePreload (s : State) : Host.Outcome State Fault Refusal := .next (s.jtag .samplePreload s.svc.dr)
def execExtest (s : State) : Host.Outcome State Fault Refusal := .next (s.jtag .extest (if s.board.resetN then 0 else s.svc.dr))

end Sys2Proof.Machine
end

