-- ==== Sys2Proof/Machine/Boot.lean ====
section
/-! DEFINITION. Bring-up, the reset units, the dump, firmware and recovery, and the two management controllers (R39, R40,
R477 to R479, R484, R486 to R519). -/

namespace Sys2Proof.Machine

/-! ## The flash and the image (R498 to R502, R507, R508) -/

def State.flashByte (s : State) (a : Nat) : Byte := Tbl.look 0xFF s.mc.flash a

def State.flashBytes (s : State) (a n : Nat) : List Byte := (List.range n).map fun i => s.flashByte (a + i)

def cfgFlash : Nat := 0x3F00000
def certFlash : Nat := 0x3FF0000

/-- BODY_SIZE of an image header. -/
def bodySize (header : List Byte) : Nat := leNat ((header.drop 0x14).take 4)
def imageSvn (header : List Byte) : Nat := leNat ((header.drop 0x10).take 4)
def imageKey (header : List Byte) : List Byte := (header.drop 0x20).take 133

def imageHeaderSound (h : List Byte) : Bool :=
  let n := bodySize h
  leNat ((h.drop 4).take 2) == 1 && decide (leNat ((h.drop 6).take 2) < 2) && decide (n % 64 = 0) &&
    decide (256 ≤ n ∧ n ≤ 12 * 2 ^ 20 - 192) && leNat ((h.drop 0x18).take 4) == 0x3200 && leNat ((h.drop 0x1C).take 4) == 0 &&
    (h.drop 0xA5).all (· == 0)

/-- The cause of a failed verification of the image that `rd` reads, 0 if it verifies (R500). A flash that cannot be read
fails first, since nothing else can then be checked (log 41). -/
def State.imageCause (s : State) (rd : Nat → Byte) (flashError : Bool) : Nat :=
  let bytes (a n : Nat) : List Byte := (List.range n).map fun i => rd (a + i)
  let h := bytes 0 256
  if flashError then 7
  else if h.take 4 ≠ ascii "VLVI" then 1
  else if !imageHeaderSound h then 2
  else if digestOf (imageKey h) ≠ s.fuses.vendorKeyHash then 3
  else if imageSvn h < s.fuses.svnMin.toNat then 4
  else if !ecdsaVerify (imageKey h) (bytes 0 (bodySize h)) (bytes (bodySize h) 132) then 5
  else 0

/-- A configuration record that R502 calls valid. -/
def recordSound (r : List Byte) : Bool :=
  r.take 4 == ascii "VLVG" && leNat ((r.drop 4).take 2) == 1 && leNat ((r.drop 6).take 2) == 0 && (r.drop 0x18).all (· == 0)

/-- The engine's identity key, derived from the device secret (R507). -/
def State.deriveIdentity (s : State) : State :=
  let prk := hkdfExtract (ascii "vlv3200 identity") (beBytes 66 s.fuses.secret.toNat)
  let d := beNat (hkdfExpand prk (ascii "id") 66) % (p521N - 1) + 1
  let key := p521Public d
  let ok := (s.flashBytes (certFlash + 0x20) 133) == key
  let s1 := { s with mc := { s.mc with idScalar := d, idKey := key, idKeyReady := true, certMatch := ok } }
  if ok then s1 else s1.record 0x0105 .unit (unitMc false)

/-- What a running image reports. -/
def State.latchImage (s : State) : State :=
  let h := s.flashBytes 0 256
  { s with mc := { s.mc with fwVerified := true, fwVersion := BitVec.ofNat 64 (leNat ((h.drop 8).take 8)),
                             svn := BitVec.ofNat 7 (imageSvn h), raiseSvn := bitAt (leNat ((h.drop 6).take 2)) 0,
                             fwMeasure := digestOf (s.flashBytes 0 (bodySize h)) } }

/-- The watchdog period that the configuration record gives a vat, in ms (R82, R502). -/
def State.cfgWdog (s : State) : Nat :=
  if s.mc.cfgRecord.isEmpty then 100 else clampNat 1 10000 (leNat ((s.mc.cfgRecord.drop 0x14).take 4))

/-- Applies the configuration record; the salt only at a power-on (R502). An invalid one leaves reset values. -/
def State.applyRecord (s : State) (powerOn : Bool) : State :=
  let r := s.flashBytes cfgFlash 256
  let word (o : Nat) : Nat := leNat ((r.drop o).take 4)
  let ok := recordSound r
  let limit := if ok ∧ word 0xC ≠ 0 then some (s.clampLimit (word 0xC)) else none
  let s1 := { s with
    mc := { s.mc with cfgValid := ok, cfgMeasure := digestOf r, cfgRecord := if ok then r else [] },
    pwr := { s.pwr with limit := limit },
    fab := { s.fab with podBound := if ok then BitVec.ofNat 9 (clampNat 50 250 (word 0x10)) else 250 },
    hbm := { s.hbm with salt := if powerOn then BitVec.ofNat 19 (if ok then word 8 else 0) else s.hbm.salt } }
  if ok then s1 else s1.note 0x0102 .info (unitMc false)

/-- The addresses of the carrier FRU record (R426). -/
def State.readFru (s : State) : State := { s with eth := { s.eth with mac := s.fru.mac } }

/-! ## A die comes up (R18, R20, R23, R39, R40, R496, R497) -/

/-- A part found bad by a test of bring-up or of a reset, a designed outcome of that reset (R477, R484). -/
def State.testRetires (s : State) (unit : W16) (cause : Nat) : State :=
  s.record 0x0904 .unit unit none [unit.zeroExtend 64, BitVec.ofNat 64 cause] none true

def State.testRetiresVat (s : State) (v cause : Nat) : State :=
  let s1 := (s.testRetires (unitVat v) cause).dropVat v
  { s1 with inv := { s1.inv with vatRetired := bvSet s1.inv.vatRetired v true } }

/-- A die whose own test fails is retired until power-on (R478). -/
def State.testRetiresDie (s : State) (d cause : Nat) : State :=
  let s1 := (s.testRetires (unitDie d) cause).loseContexts (dieVats d)
  let s2 := ((s1.retireDie d).takeOver fun k => k == .die (Fin.ofNat 8 d)).endHandling (.die d)
  { s2 with inv := { s2.inv with dieRetired := bvSet s2.inv.dieRetired d true, dieInReset := bvSet s2.inv.dieInReset d false } }

/-- The column self-test of a vat, with the columns that fail it. -/
def State.columnTest (s : State) (v : Nat) (fails : List Nat) : State :=
  match fails with
  | [] => s.onVat v fun x => { x with skip := 32, exhausted := false, failedCols := [] }
  | [c] => s.onVat v fun x => { x with skip := BitVec.ofNat 6 c, exhausted := false, failedCols := [c] }
  | cs => (s.onVat v fun x => { x with exhausted := true, failedCols := cs }).testRetiresVat v 1

def State.inService (s : State) (v : Nat) : Bool := s.dieIn (v / 4) && !s.inv.vatRetired.getLsbD v

/-- A die none of whose vats is left is retired. -/
def State.dieWithoutVats (s : State) (d : Nat) : State :=
  if s.dieIn d ∧ (dieVats d).all fun v => s.inv.vatRetired.getLsbD v then s.testRetiresDie d 0 else s

/-- The tests of a die: seam, control bundles, signal bundles, columns and cream dies. -/
def State.dieTest (s : State) (d : Nat) (o : StepObs) : State :=
  if !s.dieIn d then s
  else if o.seamLost.contains d ∨ (diePorts d).any o.controlLost.contains then s.testRetiresDie d 5
  else
    let bundle (a : State) (p : Nat) : State :=
      let good := (List.range 10).foldl (fun (m : BitVec 10) g => bvSet m g (!o.bundlesLost.contains (p, g))) 0
      { a with board := { a.board with bundles := Tbl.put 0 a.board.bundles p good,
                                       bundlesLost := Tbl.put 0 a.board.bundlesLost p (~~~good) } }
    let s1 := (diePorts d).foldl bundle s
    let s2 := (dieVats d).foldl (fun (a : State) v =>
      if a.inv.vatRetired.getLsbD v then a
      else (a.onVat v fun x => { x with wdogMs := BitVec.ofNat 14 a.cfgWdog, katRuns := 0 }).columnTest v
        ((o.columnFails.find? fun e => e.1 == v).elim [] Prod.snd)) s1
    let s3 := (diePorts d).foldl (fun (a : State) c =>
      if o.creamFails.contains c ∧ !a.inv.creamRetired.getLsbD c then
        let a1 := (a.testRetires (unitCream c) 1).onCream c fun x => { x with mode := .retired, waking := false }
        { a1 with inv := { a1.inv with creamMap := bvSet a1.inv.creamMap c false, creamRetired := bvSet a1.inv.creamRetired c true } }
      else a) s2
    s3.dieWithoutVats d

/-- The maps of a die: its vats and cream dies that are not retired are in service. -/
def State.dieMaps (s : State) (d : Nat) : State :=
  if !s.dieIn d then s
  else
    let i := s.inv
    { s with inv := { i with
        vatMap := (dieVats d).foldl (fun m v => bvSet m v (!i.vatRetired.getLsbD v)) i.vatMap,
        vatColumn := (dieVats d).foldl (fun m v => bvSet m v false) i.vatColumn,
        creamMap := (diePorts d).foldl (fun m c => bvSet m c (!i.creamRetired.getLsbD c)) i.creamMap } }

/-- A die whose tests are over runs; its ports relight at the next frame boundary (R257). -/
def State.dieOpens (s : State) (d : Nat) : State :=
  if !s.dieIn d then s
  else
    let s1 := (dieVats d).foldl (fun (a : State) v => a.onVat v fun x =>
      if a.inv.vatMap.getLsbD v then { x with run := .idle, freqNow := 32 } else { x with run := .retired, freqNow := 0 }) s
    let s2 := (diePorts d).foldl (fun (a : State) c =>
      (a.onCream c fun x => { x with mode := if a.inv.creamMap.getLsbD c then .active else .retired }).onPort c fun x =>
        { x with mode := .dark }) s1
    { s2 with inv := { s2.inv with dieInReset := bvSet s2.inv.dieInReset d false },
              clk := { s2.clk with dieLock := bvSet s2.clk.dieLock d true },
              churn := { s2.churn with relightNext := (diePorts d).foldl (fun m p => bvSet m p true) s2.churn.relightNext } }

/-- The known-answer run of vat v is under way: in step 7, or in its die's reset. -/
def State.katExpected (s : State) (v : Nat) : Bool :=
  (s.mc.step == 7 || s.inv.dieInReset.getLsbD (v / 4)) && s.inService v && !s.mc.katDone.getLsbD v

def State.katEnds (s : State) (v : Nat) (signature : W64) (fails : List Nat) : State :=
  if !s.katExpected v then s
  else
    let done (a : State) : State := { a with mc := { a.mc with katDone := bvSet a.mc.katDone v true } }
    let again := (s.vat v).katRuns != 0
    if signature = Config.katSignature v then
      if again then (done s).note 0x0003 .corrected (unitVat v) [BitVec.ofNat 64 v, signature] else done s
    else if again then
      let s1 := (done s).testRetiresVat v 0
      { s1 with mc := { s1.mc with katFail := bvSet s1.mc.katFail v true } }.dieWithoutVats (v / 4)
    else ((s.onVat v fun x => { x with katRuns := 1 }).columnTest v fails).dieWithoutVats (v / 4)

def execKatRunComplete (v : VatId) (signature : W64) (columnFails : List Nat) (s : State) : Host.Outcome State Fault Refusal :=
  .next (s.katEnds v.val signature columnFails).finish

/-! ## Bring-up steps (R493 to R495) -/

/-- A step begins. -/
def State.enterStep (s : State) (k : Nat) : State :=
  let s1 := { s with mc := { s.mc with step := BitVec.ofNat 4 k, stepStart := s.clk.now } }
  match k with
  | 3 => (allCages.filter fun m => (s.cage m).mode == .empty).foldl State.acceptStart s1
  | 4 => { s1 with hbm := { s1.hbm with stackTbl := (List.range 32).foldl (fun t i =>
      Tbl.upd {} t i fun x => if x.mode = .retired then x else { x with mode := .training }) s1.hbm.stackTbl } }
  | 7 => { s1 with mc := { s1.mc with katDone := 0 } }
  | _ => s1

/-- MC_STEP_END and BOOT_STEP of the step in progress. -/
def State.markStep (s : State) (k : Nat) : State :=
  { s with mc := { s.mc with stepEnd := Tbl.put 0 s.mc.stepEnd k s.clk.now } }.note 0x0001 .info (unitMc s.mc.owner)
    [BitVec.ofNat 64 k, s.clk.now - s.mc.stepStart]

/-- The first of the steps 3 to 7 that has not ended since power-on (R517). -/
def State.nextStep (s : State) : Nat :=
  ([3, 4, 5, 6, 7].find? fun k => !s.mc.stepEnd.any fun e => e.1 == k).getD 8

/-- Recovery, with its cause: the host port needs step 3 for its light (R503). -/
def State.recover (s : State) (cause : Nat) : State :=
  let s1 := { s with mc := { s.mc with state := .recovery, recoveryCause := BitVec.ofNat 3 cause, fwVerified := s.mc.fwVerified && cause == 6 } }
  let s2 := if cause = 6 then s1 else s1.record 0x0101 .unit (unitMc false) none [BitVec.ofNat 64 cause]
  if s.mc.step = 8 then s2
  else if s.rings.built then { s2 with mc := { s2.mc with step := 3 } }
  else s2.enterStep 3

/-- Step 2: the boot ROM verifies the image, and firmware starts or recovery does. -/
def State.bootMc (s : State) (o : StepObs) (powerOn : Bool) : State :=
  let s0 := { s with clk := { s.clk with dieLock := bvSet s.clk.dieLock 8 true }, mc := { s.mc with owner := false, mcaReady := false } }
  let s1 := s0.readFru.deriveIdentity
  match s1.imageCause s1.flashByte o.flashError with
  | 0 => (s1.latchImage).applyRecord powerOn
  | cause => s1.recover cause

/-- Step 3: sectors take their sources, the rings are built and hashed, the Churn runs. -/
def State.bootChurn (s : State) (o : StepObs) : State :=
  let s1 := (s.assignSectors.buildRings.hashRings).openChurn
  { s1 with fab := { s1.fab with pkgId := s1.fru.pkgId },
            mc := { s1.mc with mcbReady := o.mcbOk && s1.mc.state != McState.recovery } }.ethSettle

/-- Step 4: stacks that fail their second training are retired, the others hold zeros (R321). -/
def State.bootHbm (s : State) (o : StepObs) : State :=
  let one (a : State) (k : Nat) : State :=
    if a.inv.stackRetired.getLsbD k then a
    else if o.failedStacks.contains k then
      let a1 := (a.onStack k fun x => { x with mode := .retired }).record 0x0B05 .unit (unitStack k)
      { a1 with inv := { a1.inv with stackRetired := bvSet a1.inv.stackRetired k true } }
    else a.onStack k fun x => { x with mode := .run }
  let s1 := (List.range 32).foldl one (s.clearRange 0 (2 ^ 41))
  { s1 with hbm := { s1.hbm with running := true } }

/-- Step 5: the training of every link that has light starts. -/
def State.bootLinks (s : State) : State :=
  (allLinks.filter fun l => !s.las.dark.getLsbD (l / 4)).foldl State.linkTrain s

/-- Step 6: the dies are tested, the maps become valid and PWR_OK rises (R23, R34). -/
def State.bootDies (s : State) (o : StepObs) : State :=
  let dies := List.range 8
  let out := s.inv.dieRetired ||| s.inv.dieDarkSector
  let s1 : State := { s with inv := { s.inv with cdMap := ~~~out, iod := true } }
  let s2 := (dies.foldl (fun (a : State) d => a.dieTest d o) s1)
  let s3 := dies.foldl State.dieMaps s2
  let gone := dies.filter fun d => out.getLsbD d
  let s4 := gone.foldl State.retireDie s3
  let dark (k : Nat) : Bool := s4.isDark (16 + k)
  { s4 with inv := { s4.inv with stackMap := BitVec.ofNat 32 (maskOf 32 fun k => !s4.inv.stackRetired.getLsbD k && !dark k),
                                 dieInReset := 0 },
            board := { s4.board with pwrOk := s4.pwr.badRails.isEmpty } }

/-- Requests held until READY (R517). -/
def State.runHeld (s : State) : State :=
  let ask (a : State) (k : ResetKind) : State := match k with
    | .die d => if a.dieIn d.val then a.begin (.die d.val) (.die d.val) (BitVec.allOnes 64) else a
    | .compute => a.begin .compute .compute (BitVec.allOnes 64)
    | _ => a
  s.mc.heldResets.foldl ask { s with mc := { s.mc with heldResets := [] } }

/-- The end of step 7: READY, unless a PACKAGE error has halted the module (R495). -/
def State.bootReady (s : State) : State :=
  let s1 := (List.range 8).foldl State.dieOpens s
  if s1.err.halt then s1
  else
    let count (n : Nat) (x : Nat) : W64 := BitVec.ofNat 64 (popcount n x)
    let s2 := { s1 with mc := { s1.mc with step := 8, state := .ready, readyTime := s1.clk.now,
                                           stepEnd := Tbl.put 0 s1.mc.stepEnd 8 s1.clk.now } }
    (s2.note 0x0002 .info (unitMc s2.mc.owner)
      [count 32 s2.inv.vatMap.toNat, count 8 s2.inv.cdMap.toNat, count 32 s2.inv.stackMap.toNat]).runHeld

/-- The end of the step in progress, with what its parts turned out to be. A run of step 7 that no command has reported
passes, as every part that the observation does not name does (log 42). -/
def State.stepEnds (s : State) (o : StepObs) : State :=
  let k := s.mc.step.toNat
  let m := s.markStep k
  match k with
  | 1 => { m with board := { m.board with rails := true } }.enterStep 2
  | 2 =>
    let s1 := m.bootMc o true
    if s1.mc.state = .recovery then s1 else s1.enterStep s1.nextStep
  | 3 =>
    if s.rings.built then s
    else
      let s1 := m.bootChurn o
      if s1.mc.state = .recovery then s1 else s1.enterStep 4
  | 4 => (m.bootHbm o).enterStep 5
  | 5 => m.bootLinks.enterStep 6
  | 6 => (m.bootDies o).enterStep 7
  | 7 => m.bootReady
  | _ => s

def execBringUpStepEnd (obs : StepObs) (s : State) : Host.Outcome State Fault Refusal :=
  .next (if s.mc.mgmtReset then s else (s.stepEnds obs).finish)

/-- A part that has not finished at its step's bound is retired with cause BOUND (log 22). -/
def State.partBound (s : State) (p : Part) : State :=
  match p with
  | .vat v => (s.testRetiresVat v.val 8).dieWithoutVats (v.val / 4)
  | .die d => s.testRetiresDie d.val 8
  | .cream c =>
    let s1 := (s.testRetires (unitCream c.val) 8).onCream c.val fun x => { x with mode := .retired }
    { s1 with inv := { s1.inv with creamRetired := bvSet s1.inv.creamRetired c.val true } }
  | .stack k =>
    let s1 := (s.testRetires (unitStack k.val) 8).onStack k.val fun x => { x with mode := .retired }
    { s1 with inv := { s1.inv with stackRetired := bvSet s1.inv.stackRetired k.val true } }
  | .cage m => (s.testRetires (unitCage m.val) 8).onCage m.val fun c => { c with mode := .rejected, lit := false }
  | .ring e => s.testRetires (unitField (ringField e.val)) 8

/-- A step ends at its bound: its parts that are not named have finished. -/
def State.stepBound (s : State) (unfinished : List Part) : State :=
  let o : StepObs := { refValid := s.clk.refValid, flashError := false, failedStacks := [], columnFails := [], seamLost := [],
                       controlLost := [], bundlesLost := [], creamFails := [], mcbOk := true }
  let s1 := (unfinished.foldl State.partBound s).stepEnds o
  let retire (a : State) (p : Part) : State := match p with
    | .ring e => a.onRing e.val Ring.retire
    | _ => a
  unfinished.foldl retire s1

def execBringUpStepBound (unfinished : List Part) (s : State) : Host.Outcome State Fault Refusal :=
  .next (if s.mc.mgmtReset ∨ s.mc.step.toNat = 0 ∨ 8 ≤ s.mc.step.toNat then s else (s.stepBound unfinished).finish)

/-! ## Reset requests (R477 to R479, R517) -/

def State.resetRuns (s : State) (k : ResetKind) : Bool := s.err.resets.any fun r => r.1 == k

/-- A vat reset that the host requests: ignored for a retired vat, and while it or a larger reset runs. -/
def State.askVat (s : State) (v : Nat) : State :=
  let out := !(s.inv.vatMap.getLsbD v || s.inv.vatColumn.getLsbD v) || !s.dieIn (v / 4)
  if out || s.inv.dieInReset.getLsbD (v / 4) || s.resetRuns (.vat (Fin.ofNat 32 v)) then s
  else s.begin (.vat v) (.vat v false) (BitVec.allOnes 64)

def State.hold (s : State) (k : ResetKind) : State :=
  if s.mc.heldResets.contains k then s else { s with mc := { s.mc with heldResets := s.mc.heldResets ++ [k] } }

def State.askDie (s : State) (d : Nat) : State :=
  if s.mc.step ≠ 8 then s.hold (.die (Fin.ofNat 8 d))
  else if !s.dieIn d || s.inv.dieInReset.getLsbD d then s
  else s.begin (.die d) (.die d) (BitVec.allOnes 64)

def State.askCompute (s : State) : State :=
  if s.mc.step ≠ 8 then s.hold .compute
  else if s.resetRuns .compute then s
  else (s.begin .compute .compute (BitVec.allOnes 64)).leaveStandby 2

/-- A management reset; one in progress is not restarted. -/
def State.askMgmt (s : State) : State :=
  if s.mc.mgmtReset ∨ s.mc.step.toNat < 2 then s else { s with err := { s.err with todo := s.err.todo ++ [.mgmt] } }

def execVatReset (v : VatId) (s : State) : Host.Outcome State Fault Refusal := .next (s.askVat v.val).finish
def execDieReset (d : DieId) (s : State) : Host.Outcome State Fault Refusal := .next (s.askDie d.val).finish
def execComputeReset (s : State) : Host.Outcome State Fault Refusal := .next s.askCompute.finish
def execMgmtReset (s : State) : Host.Outcome State Fault Refusal := .next s.askMgmt.finish

/-! ## Resets complete -/

/-- The record of a completed reset: kinds are 0 vat, 1 die, 2 compute, 3 management (log 22). -/
def State.resetNote (s : State) (kind : Nat) (unit : W16) (began : W64) : State :=
  let e := s.err
  let e1 := match kind with
    | 0 => { e with vatResets := bump e.vatResets }
    | 1 => { e with dieResets := bump e.dieResets }
    | 2 => { e with computeResets := bump e.computeResets }
    | _ => { e with mgmtResets := bump e.mgmtResets }
  { s with err := e1 }.note 0x0905 .info unit [BitVec.ofNat 64 kind, s.clk.now - began]

def State.vatDone (s : State) (v : Nat) (began : W64) : State :=
  let s1 := (s.onVat v fun x => if s.vatIn v then { x with run := .idle, freqNow := 32 } else { x with run := .retired }).resetNote 0
    (unitVat v) began
  if (s.vat v).suspects.isEmpty then s1.endHandling (.vat v) else s1.afterHangReset v

def State.dieDone (s : State) (d : Nat) (o : StepObs) (began : W64) : State :=
  (((s.dieTest d o).dieMaps d).dieOpens d).resetNote 1 (unitDie d) began |>.endHandling (.die d)

/-- A die that its dark sector retired is back when both its sectors have light (R367). -/
def State.dieReturns (s : State) (d : Nat) : State :=
  if s.inv.dieDarkSector.getLsbD d ∧ !s.inv.dieRetired.getLsbD d ∧ !s.las.dark.getLsbD (2 * d) ∧ !s.las.dark.getLsbD (2 * d + 1) then
    { s with inv := { s.inv with cdMap := bvSet s.inv.cdMap d true, dieDarkSector := bvSet s.inv.dieDarkSector d false } }
  else s

/-- Every die is tested again; dies that stay retired are out of reset too. -/
def State.computeDies (s : State) (o : StepObs) : State :=
  let dies := List.range 8
  let s1 := dies.foldl State.dieReturns s
  let s2 := dies.foldl (fun (a : State) d => a.dieTest d o) s1
  let s3 := dies.foldl (fun (a : State) d => if a.dieIn d then (a.dieMaps d).dieOpens d else a.retireDie d) s2
  { s3 with inv := { s3.inv with dieInReset := 0 } }

/-- A halt by escalation is left (R485). -/
def State.leaveHalt (s : State) : State :=
  if s.err.halt && s.err.haltKind == 1 then
    { s with err := { s.err with halt := false, haltKind := 0 },
             mc := { s.mc with state := if s.mc.state = McState.fatal then McState.ready else s.mc.state } }
  else s

def State.computeDone (s : State) (o : StepObs) (began : W64) : State :=
  (((s.computeDies o).resetNote 2 unitPackage began).endHandling .compute).leaveHalt

/-- A management reset completes: the image is verified anew and MC-A runs it, or recovery begins (R500, R503, R517). -/
def State.mgmtDone (s : State) (o : StepObs) (began : W64) : State :=
  let asked := s.mc.enterRecovery && !s.mc.owner
  let s0 := { s with mc := { s.mc with mgmtReset := false, enterRecovery := s.mc.enterRecovery && s.mc.owner, mcbReady := o.mcbOk,
                                       state := .booting, recoveryCause := 0 } }
  let s1 := s0.bootMc o false
  let s2 :=
    if s1.mc.state = .recovery then s1
    else if asked then s1.recover 6
    else if s1.mc.step = 8 then
      { s1 with mc := { s1.mc with state := if s1.err.halt then .fatal else if s1.svc.standby then .standby else .ready } }
    else (s1.markStep 2).enterStep s1.nextStep
  let s3 := (List.range 16).foldl (fun (a : State) g =>
    if (a.engine g).mode = .reload ∧ (a.engine g).incoming.isNone then a.sendMatrix g else a) s2
  s3.resetNote 3 (unitMc false) began

/-- A reset that is not in progress does not complete. -/
def State.resetDone (s : State) (k : ResetKind) (o : StepObs) : State :=
  match s.err.resets.find? fun r => r.1 == k with
  | none => s
  | some (_, began) =>
    let s1 := { s with err := { s.err with resets := s.err.resets.filter fun r => r.1 != k } }
    match k with
    | .vat v => s1.vatDone v.val began
    | .die d => s1.dieDone d.val o began
    | .compute => s1.computeDone o began
    | .management => s1.mgmtDone o began

def execResetDone (k : ResetKind) (obs : StepObs) (s : State) : Host.Outcome State Fault Refusal := .next (s.resetDone k obs).finish

/-! ## Overruns (R484) -/

/-- The unit, and the context if any, that a scope names. -/
def Scope.unit : Scope → W16 × Option Nat
  | .ctx c => (unitContexts, some c)
  | .ctxReset c => (unitContexts, some c)
  | .vat v => (unitVat v, none)
  | .die d => (unitDie d, none)
  | .compute => (unitPackage, none)

/-- The oldest handling that record `seq` called for overruns its bound. -/
def State.overrun (s : State) (seq : W64) : State :=
  match s.err.handlings.find? fun h => h.seq == seq with
  | none => s
  | some h => s.record 0x0906 .unit (Scope.unit h.scope).1 (Scope.unit h.scope).2 [] (some h.scope)

def execHandlingOverrun (seq : W64) (s : State) : Host.Outcome State Fault Refusal := .next (s.overrun seq).finish

/-! ## The dump (R486 to R489) -/

def State.onDump (s : State) (f : Dump → Dump) : State := { s with err := { s.err with dump := f s.err.dump } }

/-- A unit that is dark or retired. -/
def State.unitDark (s : State) (u : W16) : Bool :=
  let i := u.toNat % 4096
  match u.toNat / 4096 with
  | 1 => !s.vatIn i || s.inv.dieInReset.getLsbD (i / 4)
  | 3 => !s.creamIn i || s.inv.dieInReset.getLsbD (i / 2)
  | 4 => s.isDark i || (s.port i).mode == .retired
  | 5 => !s.stackIn i
  | _ => false

/-- Adds one entry: its status is 0 OK, 1 UNREADABLE, 2 SKIPPED or 3 DARK. Entries past 4,095 or past 16 MiB are dropped. -/
def Dump.add (d : Dump) (unit : W16) (status : Nat) (data : List Byte) (now : W64) : Dump :=
  let n := d.entries
  let head := leBytes 2 unit.toNat ++ leBytes 1 status ++ [0] ++ leBytes 4 (Config.scanAddress n).toNat ++
    leBytes 4 data.length ++ leBytes 4 0
  if 4095 ≤ n ∨ 2 ^ 24 < d.size.toNat + 16 + data.length then { d with truncated := true }
  else { d with entries := n + 1, bytes := d.bytes ++ head ++ data, size := d.size + BitVec.ofNat 64 (16 + data.length),
                unreadable := d.unreadable + (decide (status = 1)).toNat, skipped := d.skipped + (decide (2 ≤ status)).toNat,
                endTime := now }

/-- The plan after its first entry. -/
def Dump.advance (d : Dump) : Dump :=
  match d.plan with
  | (u, n + 2) :: rest => { d with plan := (u, n + 1) :: rest }
  | _ :: rest => { d with plan := rest, misses := 0 }
  | [] => d

/-- Entries that need no read: those of dark or retired units, and those of a unit that has missed four reads in a row. -/
def State.dumpSkip (s : State) : Nat → Dump → Dump
  | 0, d => d
  | fuel + 1, d =>
    match d.plan with
    | (u, _ + 1) :: _ =>
      if s.unitDark u then s.dumpSkip fuel (d.add u 3 [] s.clk.now).advance
      else if 4 ≤ d.misses then s.dumpSkip fuel (d.add u 2 [] s.clk.now).advance
      else d
    | _ => d

/-- At most 4,080 bytes, filled up to a multiple of 16. -/
def entryData (bytes : List Byte) : List Byte :=
  let b := bytes.take 4080
  b ++ List.replicate ((16 - b.length % 16) % 16) 0

/-- The records of the ring that entry n shows. -/
def Dump.ringEntry (d : Dump) (n : Nat) : List Byte :=
  (List.range (min 63 (4096 - 63 * n))).flatMap fun i => (Tbl.look {} d.ring (63 * n + i)).bytes

/-- The next read of a dump: its bytes, or no answer. Nothing is read while MC-B is in control. -/
def State.dumpRead (s : State) (answer : Option (List Byte)) : State :=
  if !s.err.dump.busy ∨ s.mc.owner then s
  else s.onDump fun d0 =>
    let d := s.dumpSkip 1000 d0
    match d.plan, answer with
    | [], _ => d
    | (u, _) :: _, some b =>
      let data := if d.entries < 66 then d.ringEntry d.entries else b
      s.dumpSkip 1000 { (d.add u 0 (entryData data) s.clk.now).advance with misses := 0 }
    | (u, k) :: _, none =>
      let d1 := (d.add u 1 [] s.clk.now).advance
      s.dumpSkip 1000 { d1 with misses := if k ≤ 1 then 0 else d.misses + 1 }

def execDump (s : State) : Host.Outcome State Fault Refusal := .next (s.dumpStart 3 (BitVec.allOnes 64))
def execDumpEntryRead (bytes : List Byte) (s : State) : Host.Outcome State Fault Refusal := .next (s.dumpRead (some bytes))
def execDumpReadTimeout (s : State) : Host.Outcome State Fault Refusal := .next (s.dumpRead none)

/-- The header of R488. -/
def Dump.header (d : Dump) : List Byte :=
  ascii "VLVD" ++ leBytes 2 1 ++ [0, 0] ++ leBytes 8 d.time.toNat ++ leBytes 1 d.trigger.toNat ++ [0, 0, 0] ++ leBytes 4 d.entries ++
    leBytes 8 d.size.toNat ++ leBytes 4 d.unreadable ++ leBytes 4 d.skipped ++ leBytes 4 d.truncated.toNat ++ leBytes 4 0 ++
    leBytes 8 d.triggerSeq.toNat ++ leBytes 8 d.endTime.toNat

def State.dumpEnds (s : State) : State :=
  if !s.err.dump.busy ∨ s.mc.owner then s
  else
    let d := s.err.dump
    (s.onDump fun d => { d with busy := false, valid := true, bytes := d.header ++ d.bytes, plan := [], ring := [], misses := 0 }).note
      0x0908 .info (unitMc s.mc.owner) [d.size, BitVec.ofNat 64 d.unreadable, BitVec.ofNat 64 d.skipped]

def execDumpDone (s : State) : Host.Outcome State Fault Refusal := .next s.dumpEnds

def State.dumpReleased (s : State) : State := if s.err.dump.valid then s.onDump fun _ => {} else s

def execDumpRelease (s : State) : Host.Outcome State Fault Refusal := .next s.dumpReleased

/-! ## Security version and recovery (R501, R503 to R506) -/

def State.raiseSvn (s : State) : State :=
  if s.mc.step = 8 ∧ s.mc.fwVerified ∧ s.mc.raiseSvn ∧ s.fuses.svnMin.toNat < s.mc.svn.toNat then
    { s with fuses := { s.fuses with svnMin := s.mc.svn } }.note 0x0104 .info (unitMc s.mc.owner)
      [s.fuses.svnMin.zeroExtend 64, s.mc.svn.zeroExtend 64]
  else s

def execSvnRaised (s : State) : Host.Outcome State Fault Refusal := .next s.raiseSvn

def execEnterRecovery (s : State) : Host.Outcome State Fault Refusal := .next { s with mc := { s.mc with enterRecovery := true } }

/-- The boot ROM answers. -/
def State.inRecovery (s : State) : Bool := s.mc.state == .recovery

def imageMax : Nat := 12 * 2 ^ 20

def execFwBegin (src : KcpSrc) (req : W32) (kind : Byte) (total : W32) (s : State) : Host.Outcome State Fault Refusal :=
  .next (if !s.inRecovery then s.reply src req 0x0060 stUnknownOp []
    else if s.mc.committing.isSome then s.reply src req 0x0060 stBusy []
    else if 2 ≤ kind.toNat ∨ (if kind = 0 then imageMax < total.toNat else total ≠ 256) then s.reply src req 0x0060 stRange []
    else if s.err.dump.valid then s.reply src req 0x0060 stState []
    else { s with mc := { s.mc with staging := some { isCfg := kind == 1, total := total.toNat } } }.reply src req 0x0060 stOK [])

def stageBytes (t : Tbl Byte) (a : Nat) (bytes : List Byte) : Tbl Byte :=
  (bytes.foldl (fun (acc : Tbl Byte × Nat) b => (Tbl.put 0 acc.1 acc.2 b, acc.2 + 1)) (t, a)).1

def execFwWrite (src : KcpSrc) (req : W32) (offset : W32) (bytes : List Byte) (s : State) : Host.Outcome State Fault Refusal :=
  .next (if !s.inRecovery then s.reply src req 0x0061 stUnknownOp []
    else match s.mc.staging with
      | none => s.reply src req 0x0061 stState []
      | some g =>
        if offset.toNat % 64 ≠ 0 ∨ g.total < offset.toNat + bytes.length then s.reply src req 0x0061 stRange []
        else { s with mc := { s.mc with staging := some { g with bytes := stageBytes g.bytes offset.toNat bytes } } }.reply src req 0x0061
          stOK [])

def Staging.list (g : Staging) : List Byte := (List.range g.total).map fun i => Tbl.look 0 g.bytes i

/-- The flash region that a commit programs: its base and its length. -/
def flashRegion (isCfg : Bool) : Nat × Nat := if isCfg then (cfgFlash, 0x10000) else (0, imageMax)

def State.eraseRegion (s : State) (isCfg : Bool) : State :=
  let (base, n) := flashRegion isCfg
  { s with mc := { s.mc with flash := s.mc.flash.filter fun e => !(decide (base ≤ e.1 ∧ e.1 < base + n)) } }

/-- FW_COMMIT up to the erasure of the region; FW_UPDATED ends it. A refused record's cause is open (log 43). -/
def execFwCommit (src : KcpSrc) (req : W32) (hash : BitVec 512) (s : State) : Host.Outcome State Fault Refusal :=
  .next (if !s.inRecovery then s.reply src req 0x0062 stUnknownOp []
    else if s.mc.committing.isSome then s.reply src req 0x0062 stBusy []
    else match s.mc.staging with
      | none => s.reply src req 0x0062 stState []
      | some g =>
        if digestOf g.list ≠ hash then s.reply src req 0x0062 stBadMessage []
        else
          let rd (i : Nat) : Byte := if i < g.total then Tbl.look 0 g.bytes i else 0xFF
          let cause := if g.isCfg then (if recordSound g.list then 0 else Config.recordCause) else BitVec.ofNat 8 (s.imageCause rd false)
          if (if g.isCfg then !recordSound g.list else cause != 0) then s.reply src req 0x0062 stBadMessage [cause]
          else { s.eraseRegion g.isCfg with mc := { (s.eraseRegion g.isCfg).mc with committing := some (src, req, g.isCfg) } })

/-- Programming and readback are complete. -/
def State.fwDone (s : State) : State :=
  match s.mc.committing, s.mc.staging with
  | some (src, req, isCfg), some g =>
    let base := (flashRegion isCfg).1
    let data := (List.range g.total).map fun i => (base + i, Tbl.look 0 g.bytes i)
    let flash := data.foldl (fun t e => Tbl.put 0xFF t e.1 e.2) s.mc.flash
    let measured := if isCfg then g.list else g.list.take (bodySize (g.list.take 256))
    let s1 := { s with mc := { s.mc with flash := flash, committing := none, staging := none } }.reply src req 0x0062 stOK [0]
    (s1.note 0x0103 .info (unitMc false) [BitVec.ofNat 64 isCfg.toNat, BitVec.ofNat 64 (leNat ((sha512 measured).take 8))]).askMgmt
  | _, _ => s

def execFwUpdated (s : State) : Host.Outcome State Fault Refusal := .next s.fwDone.finish

/-! ## The two controllers (R512 to R516) -/

/-- Firmware runs: not in reset, not the boot ROM. -/
def State.firmwareRuns (s : State) : Bool := s.mcServes && !s.inRecovery

def State.journal (s : State) : State :=
  if !s.firmwareRuns then s
  else { s with mc := { s.mc with journalTime := s.clk.now, journalSessions := s.kcp.sessions, journalForwards := s.kcp.forwards,
                                  journalRemote := s.kcp.remote, journalCmd := s.mc.cmdSeq } }

def execJournalWrite (s : State) : Host.Outcome State Fault Refusal := .next s.journal

def HandoverSource.code : HandoverSource → Nat
  | .selfDiagnosis => 0
  | .watchdog => 1
  | .host => 2

/-- A handover is raised. A failed MC-A without a standby controller leads to a management reset (R516); a write by the host
then raises nothing (log 44). -/
def State.raiseHandover (s : State) (source : HandoverSource) : State :=
  if s.mc.owner ∨ s.mc.handover ∨ s.mc.mgmtReset ∨ s.mc.step.toNat < 2 then s
  else if s.mc.mcbReady then
    { s with mc := { s.mc with handover := true } }.record 0x0004 .unit (unitMc false) none [BitVec.ofNat 64 (HandoverSource.code source)]
  else if source = .host then s
  else s.askMgmt

def execMcWatchdogExpire (s : State) : Host.Outcome State Fault Refusal := .next (s.raiseHandover .watchdog).finish
def execMcHandover (source : HandoverSource) (s : State) : Host.Outcome State Fault Refusal := .next (s.raiseHandover source).finish

/-- MC-B loads the journal and takes control: sessions go on with SEQ and command numbers 2^20 above the journal's. -/
def State.takeover (s : State) : State :=
  if !s.mc.handover then s
  else
    let resume (_ : Nat) (n : Session) : Session := { n with txSeq := n.txSeq + 2 ^ 20 }
    { s.lockMonitor with
      kcp := { s.kcp with sessions := Tbl.mapVals {} resume s.mc.journalSessions, forwards := s.mc.journalForwards,
                          remote := s.mc.journalRemote },
      mc := { s.mc with owner := true, overlap := true, handover := false, handoverCnt := bump s.mc.handoverCnt, mcaReady := false,
                        cmdSeq := s.mc.journalCmd + 2 ^ 20 } }

def execHandoverTakeover (s : State) : Host.Outcome State Fault Refusal := .next s.takeover

def execOverlapEnd (s : State) : Host.Outcome State Fault Refusal := .next { s with mc := { s.mc with overlap := false } }

def execMcaSelftestPass (s : State) : Host.Outcome State Fault Refusal :=
  .next (if s.mc.owner ∧ !s.mc.overlap then { s with mc := { s.mc with mcaReady := true } } else s)

/-- MC-A retakes control on MC-B's final journal. -/
def State.retake (s : State) : State :=
  if !s.mc.owner ∨ !s.mc.mcaReady then s
  else
    let s1 := s.journal.lockMonitor
    { s1 with mc := { s1.mc with owner := false, overlap := false, retake := false, retakeCnt := bump s1.mc.retakeCnt,
                                 cmdSeq := s1.mc.journalCmd + 2 ^ 20 } }.note 0x0005 .info (unitMc false)

def execMcRetake (s : State) : Host.Outcome State Fault Refusal := .next s.retake

/-- A failed self-test. MC-A in control hands over; MC-B in control gives way to MC-A or to a management reset (R516). -/
def State.selftestFails (s : State) (mcB : Bool) (test : Nat) : State :=
  if s.mc.step.toNat < 2 ∨ s.mc.mgmtReset then s
  else
    let s1 := s.record 0x0006 .unit (unitMc mcB) none [BitVec.ofNat 64 mcB.toNat, BitVec.ofNat 64 test]
    match mcB, s.mc.owner with
    | true, true => if s.mc.mcaReady then s1.retake else s1.askMgmt
    | true, false => { s1 with mc := { s1.mc with mcbReady := false } }
    | false, true => s1
    | false, false => s1.raiseHandover .selfDiagnosis

def execMcSelftestFail (mcB : Bool) (test : Nat) (s : State) : Host.Outcome State Fault Refusal :=
  .next (s.selftestFails mcB test).finish

end Sys2Proof.Machine
end

