-- ==== Sys2Proof/Machine/Hbm.lean ====
section
/-! DEFINITION. The HBM controllers: service, refresh windows, scrub and self-refresh (R310 to R324). -/

namespace Sys2Proof.Machine

/-- The cells that a request touches, by local address. -/
def reqCellList (c : Cell) : List Nat :=
  let a := faLocal (Cell.pay c 0 8)
  if Cell.opc c = opATOM then [a / 64 * 64] else (List.range (clampNat 1 4 (Cell.pay c 8 1))).map fun i => a + 64 * i

/-- Whether the request at a position of a queue may be served: no store or atomic before it touches one of its cells
(R310). -/
def mayServe (q : List TReq) (i : Nat) : Bool :=
  match q[i]? with
  | none => false
  | some r => (q.take i).all fun e => Cell.opc e.head == opLD || (reqCellList e.head).all fun a => !(reqCellList r.head).contains a

/-- One cell of a store: a full mask is written at once and clears an error; a partial one is read first (R315, R318). -/
def State.hbmStoreCell (s : State) (p a mask : Nat) (data : BitVec 512) (ecc : Ecc) : Bool × State :=
  if mask = 0 then (true, s)
  else if mask = fullMask then (true, (s.clearBad a 64).setHbmCell p a data)
  else match s.hbmRead p a ecc false with
    | (false, s1) => (false, s1)
    | (true, s1) => (true, s1.setHbmCell p a (mergeCell (s1.hbmCell p a) data mask))

/-- An atomic, done in the buffer (R314). -/
def State.hbmAtom (s : State) (p : Nat) (c : Cell) (bucket : Nat) (ecc : Ecc) : State :=
  let a := faLocal (Cell.pay c 0 8)
  let cell := a / 64 * 64
  let hit := ((s.pseudo p).buffer.lookup cell).isSome
  let (ok, s1) := if hit then (true, s) else s.hbmRead p cell ecc false
  if !ok then s1.launch (sourAnswer c 0 .target)
  else
    let s2 := s1.bufferCell p cell
    let n := atomWidth (Cell.pay c 8 1)
    let old := s2.hbmCell p cell
    let word := getWord old (a % 64) n
    let new := atomNew (Cell.pay c 8 1) word (Cell.pay c 16 n) (Cell.pay c 24 8)
    (s2.setHbmCell p cell (putWord old (a % 64) n new)).launch (respond c opDATA 0 0 bucket (BitVec.ofNat 512 word))

/-- Serves one request whole: its cells lie in one granule. What the decoder finds is found in the first cell read. -/
def State.hbmServe (s : State) (p : Nat) (r : TReq) (holdNs : Nat) (ecc : Ecc) : State :=
  let bucket := (bucketOf holdNs).toNat
  let cells := (reqCellList r.head).zipIdx
  if Cell.opc r.head = opATOM then s.hbmAtom p r.head bucket ecc
  else if Cell.opc r.head = opLD then
    cells.foldl (fun st (a, i) =>
      let hit := ((st.pseudo p).buffer.lookup a).isSome
      let (ok, s1) := if hit then (true, st) else st.hbmRead p a (if i = 0 then ecc else .clean) false
      if ok then s1.launch (respond r.head opDATA i 0 bucket (s1.hbmCell p a)) else s1.launch (sourAnswer r.head i .target)) s
  else
    let (ok, s1) := cells.foldl (fun (acc : Bool × State) (a, i) =>
      let (good, s2) := acc.2.hbmStoreCell p a (Cell.pay r.head (16 + 8 * i) 8) ((r.frags.lookup (i + 1)).getD 0)
        (if i = 0 then ecc else .clean)
      (acc.1 && good, s2)) (true, s)
    if ok then s1.launch (respond r.head opACK 0 0 bucket 0) else s1.launch (sourAnswer r.head 0 .target)

def State.hbmService (s : State) (p index holdNs : Nat) (ecc : Ecc) : State :=
  let q := Tbl.look [] s.fab.hbmQ p
  match q[index]? with
  | none => s
  | some r =>
    if (s.stack (hbmStack p)).mode != .run || !mayServe q index then s
    else (({ s with fab := { s.fab with hbmQ := Tbl.put [] s.fab.hbmQ p (q.eraseIdx index) } }).hbmServe p r holdNs ecc).finish

def execHbmRequestService (p : PseudoId) (index : Nat) (holdNs : Nat) (ecc : Ecc) (s : State) : Host.Outcome State Fault Refusal :=
  .next (s.hbmService p.val index holdNs ecc)

/-- The pseudo-channels of a stack. -/
def stackPseudos (k : Nat) : List Nat := (List.range 64).map fun i => k + 32 * i

/-- A refresh window of a stack in service (R312 to R314): the buffers write back, and a held scrub period applies; its
pending bit clears once every stack in service has applied it. -/
def State.refresh (s : State) (k : Nat) : State :=
  if (s.stack k).mode != .run then s
  else
    let s1 := (stackPseudos k).foldl State.flushBuffer s
    match s1.hbm.scrubHeld with
    | none => s1
    | some h =>
      let s2 := s1.onStack k fun x => { x with scrubHours := h }
      if (List.range 32).all fun j => !s2.stackIn j || (s2.stack j).scrubHours == h then
        { s2 with hbm := { s2.hbm with scrubHours := h, scrubHeld := none } }
      else s2

def execRefreshWindow (k : StackId) (s : State) : Host.Outcome State Fault Refusal := .next (s.refresh k.val)

/-- Sweeps that every pseudo-channel in service has completed (R319). -/
def State.sweepsDone (s : State) : Option Nat :=
  (List.range 2048).foldl (fun m p => if s.stackIn (hbmStack p) then
    match m with
    | none => some (s.pseudo p).sweep
    | some n => some (min n (s.pseudo p).sweep)
  else m) none

/-- The scrubber reads the next cell of its pseudo-channel, in ascending index order. -/
def State.hbmScrub (s : State) (p : Nat) (ecc : Ecc) : State :=
  if (s.stack (hbmStack p)).mode != .run then s
  else
    let x := s.pseudo p
    let a := hbmAddress s.hbm.salt p (x.scrubAt / 4) + 64 * (x.scrubAt % 4)
    let (_, s1) := s.hbmRead p a ecc true
    if x.scrubAt + 1 < 2 ^ 24 then s1.onPseudo p fun y => { y with scrubAt := y.scrubAt + 1 }
    else
      let before := s1.sweepsDone
      let s2 := s1.onPseudo p fun y => { y with scrubAt := 0, sweep := y.sweep + 1 }
      if s2.sweepsDone = before then s2 else { s2 with hbm := { s2.hbm with scrubPass := bump s2.hbm.scrubPass } }

def execHbmScrubRead (p : PseudoId) (ecc : Ecc) (s : State) : Host.Outcome State Fault Refusal :=
  .next (s.hbmScrub p.val ecc).finish

/-- A stack without requests enters self-refresh during a compute reset; its buffers write back first (R323, R324). -/
def State.selfRefresh (s : State) (k : Nat) : State :=
  let idle := (stackPseudos k).all fun p => (Tbl.look [] s.fab.hbmQ p).isEmpty
  if s.err.resets.any (fun r => r.1 == .compute) && (s.stack k).mode == .run && idle then
    ((stackPseudos k).foldl State.flushBuffer s).onStack k fun x => { x with mode := .selfRefresh }
  else s

def execSelfRefreshEnter (k : StackId) (s : State) : Host.Outcome State Fault Refusal := .next (s.selfRefresh k.val)

end Sys2Proof.Machine
end

