-- ==== Sys2Proof/Machine/Ladles.lean ====
section
/-! DEFINITION. The ladles: descriptors, run-ahead, branches, takes and squashes (R73 to R79, R83). -/

namespace Sys2Proof.Machine

/-! ## Descriptors (R73) -/

def State.descOf (s : State) (p d : Nat) : Nat := (Tbl.look 0 (s.plane p).desc d).toNat

def dFab (d : Nat) : Nat := bitsAt d 0 64
def dIterStride (d : Nat) : Int := signed 64 (bitsAt d 64 64)
def dRowStride (d : Nat) : Int := signed 32 (bitsAt d 128 32)
def dCells (d : Nat) : Nat := bitsAt d 160 16
def dRows (d : Nat) : Nat := bitsAt d 176 16
def dTs (d : Nat) : Nat := bitsAt d 192 29
def dTsRowStep (d : Nat) : Int := signed 32 (bitsAt d 224 32)
def dTsIterStep (d : Nat) : Int := signed 32 (bitsAt d 256 32)
def dIters (d : Nat) : Nat := bitsAt d 288 32
def dStore (d : Nat) : Bool := bitAt d 320
def dClass (d : Nat) : Nat := bitsAt d 321 2
def dBranch (d : Nat) : Bool := bitAt d 323
def dPredict (d : Nat) : Bool := bitAt d 324
def dDepth (d : Nat) : Nat := bitsAt d 325 5
def dBufs (d : Nat) : Nat := bitsAt d 330 5
def dNext (d : Nat) : Nat := bitsAt d 352 16
def dAlt (d : Nat) : Nat := bitsAt d 368 16

/-- The descriptor that follows for a branch outcome; none ends the chain. -/
def dTarget (d : Nat) (outcome : Bool) : Option Nat :=
  let t := if outcome then dAlt d else dNext d
  if t = 0xFFFF then none else some t

def dCellCount (d : Nat) : Nat := dRows d * dCells d

/-- The context address of cell i of iteration j of a descriptor (R74). -/
def dAddress (d j i : Nat) : Nat :=
  unsigned 64 ((dFab d : Int) + j * dIterStride d + (i / dCells d : Nat) * dRowStride d + (64 * (i % dCells d) : Nat))

/-- The vat tile-store address of cell i of chain iteration n (R74). -/
def dTileAddress (d n i : Nat) : Int :=
  (dTs d : Int) + (if dBufs d = 0 then n else n % dBufs d : Nat) * dTsIterStep d + (i / dCells d : Nat) * dTsRowStep d +
    (64 * (i % dCells d) : Nat)

/-! ## The chain -/

/-- Whether the position to issue lies at the end of its descriptor. -/
def Ladle.atEnd (l : Ladle) (d : Nat) : Bool := dIters d != 0 && decide (dIters d ≤ l.nextJ)

/-- Passes the end of a descriptor: a branch becomes pending and is predicted, or takes a held outcome; a second branch
waits for the first (R75, R78). -/
def Ladle.settle (l : Ladle) (desc : Nat → Nat) : Ladle :=
  match l.next with
  | none => l
  | some k =>
    let d := desc k
    if !l.atEnd d then l
    else if !dBranch d then { l with next := dTarget d false, nextJ := 0 }
    else match l.held, l.branch with
      | some o, none => { l with next := dTarget d o, nextJ := 0, held := none }
      | none, none => { l with next := dTarget d (dPredict d), nextJ := 0, branch := some (k, l.issued - 1) }
      | _, some _ => l

/-- An iteration whose cells are not all issued. -/
def Ladle.partial' (l : Ladle) (desc : Nat → Nat) : Option LadleIter :=
  l.iters.find? fun i => decide (i.sent < dCellCount (desc i.desc))

/-- Nothing is left to issue or to take. -/
def Ladle.idle (l : Ladle) (desc : Nat → Nat) : Bool :=
  !l.running || (l.next.isNone && l.branch.isNone && l.untaken.isEmpty && (l.partial' desc).isNone)

/-- Starts iteration `issued` at the present position. -/
def Ladle.begin (l : Ladle) (desc : Nat → Nat) (k : Nat) : Ladle :=
  let n := dCellCount (desc k)
  let i : LadleIter := { n := l.issued, id := l.nextId, desc := k, j := l.nextJ, store := dStore (desc k), cellsLeft := n,
                         readsLeft := if dStore (desc k) then n else 0 }
  ({ l with iters := l.iters ++ [i], issued := l.issued + 1, nextJ := l.nextJ + 1, nextId := l.nextId + 1 } : Ladle).settle desc

/-- Whether a load iteration may start: the limits of depth and buffers (R75). -/
def Ladle.mayStart (l : Ladle) (d : Nat) : Bool :=
  !dStore d && !l.atEnd d && decide (l.issued < l.taken + dDepth d) &&
    (dBufs d == 0 || decide (l.issued < (l.taken - 1) + dBufs d))

/-- A branch lies ahead of the descriptor now issuing (R78). -/
def branchAhead (desc : Nat → Nat) : Nat → Option Nat → Bool
  | 0, _ => false
  | _, none => false
  | fuel + 1, some k => dBranch (desc k) || branchAhead desc fuel (dTarget (desc k) false)

/-! ## Issue (R75, R77) -/

/-- Tracking entries in use, those of voided iterations included. -/
def State.ladleEntries (s : State) (v k : Nat) : Nat :=
  s.fab.ops.foldl (fun n o => match o.issuer with
    | .ladleLoad w _ j _ _ => if w = v ∧ j = k then n + (o.expect - o.got.length) else n
    | .ladleStore w _ j _ => if w = v ∧ j = k then n + (o.cells.length - 1) else n
    | _ => n) 0

/-- The sour pattern goes into the buffer of a load cell that failed at its issue (R221). -/
def State.sourFill (s : State) (v : Nat) (ts : Nat) : State :=
  let r : TResp := { off := ts % 0x80000, data := sourCell, port := 64, tag := 0, index := 0, ok := false }
  { s with fab := { s.fab with tileResp := Tbl.upd [] s.fab.tileResp (1024 * v + ts / 0x80000) (· ++ [r]) } }

/-- A load cell that fails without being sent. -/
def State.loadCellFails (s : State) (p k iter ts : Nat) (cause : SourCause) (addr : Nat) : State :=
  let st : Status := .sour cause
  let s1 := (s.countSour st).ladleCells p k iter 1 st (BitVec.ofNat 64 addr) 0
  if cause = .window then s1 else s1.sourFill (p / 2) ts

/-- A store cell that fails without being sent. -/
def State.storeCellFails (s : State) (p k iter : Nat) (cause : SourCause) (addr : Nat) : State :=
  let st : Status := .sour cause
  let s1 := s.onPlane p fun x => x.onLadle k fun l =>
    { l with iters := l.iters.map fun i => if i.store && i.id == iter then { i with readsLeft := i.readsLeft - 1 } else i }
  (s1.countSour st).ladleStored p k iter 1 st (BitVec.ofNat 64 addr) 0

/-- Sends one load request for cells of one 256-byte granule: each is its tile-store address and its fabric address. -/
def State.sendLadleLoad (s : State) (p k iter ctx cls : Nat) (cells : List (Nat × Nat)) : State :=
  let fa := (cells.head?.map Prod.snd).getD 0
  let own := s.fab.pkgId.toNat
  let port := vatPort (p / 2)
  let issuer := Issuer.ladleLoad (p / 2) (p % 2 == 1) k iter (cells.map Prod.fst)
  match s.sendOp port ctx issuer fa cells.length fun dpkg dport tag => ldCells own dpkg dport port cls ctx tag fa cells.length with
  | (none, s1) => s1
  | (some c, s1) => cells.foldl (fun a e => a.loadCellFails p k iter e.1 c e.2) s1

/-- The request cell that reads one cell of a tile store for a store ladle. -/
def ladleReadCell (own v port ctx cls tag ts i : Nat) : Cell :=
  { hdr := mkHdr own port own port opLD cls ctx tag i,
    payload := BitVec.ofNat 512 (packBits [(0, 46, 0x030000000000 + v * 0x20000000 + ts), (54, 6, own), (64, 8, 1)]) }

/-- Starts one store request: its cells are read out of the tile store first, and the message leaves with the last of
them (R77). -/
def State.sendLadleStore (s : State) (p k iter ctx cls : Nat) (cells : List (Nat × Nat)) : State :=
  let v := p / 2
  let fa := (cells.head?.map Prod.snd).getD 0
  let own := s.fab.pkgId.toNat
  let port := vatPort v
  match s.routeOf port fa with
  | .error c => cells.foldl (fun a e => a.storeCellFails p k iter c e.2) s
  | .ok q =>
    let (t, s1) := s.takeTag port
    let o : Op := { port := port, tag := t, ctx := ctx, issuer := .ladleStore v (p % 2 == 1) k iter, addr := BitVec.ofNat 64 fa,
                    cells := stCells own (faPkg fa) q port cls ctx t.toNat fa (cells.map fun _ => (fullMask, 0)), reading := true,
                    issuedAt := s.clk.now, heard := s.clk.now }
    let reads := cells.zipIdx.foldl (fun (tbl : Tbl (List TReq)) (e, i) =>
      let r : TReq := { head := ladleReadCell own v port ctx cls t.toNat e.1 i, arrived := s.clk.now }
      Tbl.upd [] tbl (1024 * v + e.1 / 0x80000) (· ++ [r])) s1.fab.tileReq
    { s1 with fab := { s1.fab with ops := s1.fab.ops ++ [o], tileReq := reads } }

/-- Issues cells `lo` to `lo + n - 1` of an iteration: each is translated on its own (R193), and the cells of one granule go
together (R208). -/
def State.issueCells (s : State) (p k : Nat) (it : LadleIter) (lo n : Nat) : State :=
  let d := s.descOf p it.desc
  let ctx := ((s.plane p).ctx).getD 0
  let all := (List.range n).map fun i => (dTileAddress d it.n (lo + i), dAddress d it.j (lo + i))
  let inside (e : Int × Nat) : Bool := decide (0 ≤ e.1 ∧ e.1 < 0x20000000) &&
    (!it.store || s.inWindow ctx (e.1.toNat / 0x80000) (e.1.toNat % 0x80000) 64)
  let s1 := (all.filter fun e => !inside e).foldl (fun a e =>
    let fa := (s.translate ctx e.2 (if it.store then rightW else rightR)).getD e.2
    if it.store then a.storeCellFails p k it.id .window fa else a.loadCellFails p k it.id 0 .window fa) s
  let trans := (all.filter inside).map fun e => (e.1.toNat, e.2, s.translate ctx e.2 (if it.store then rightW else rightR))
  let s2 := (trans.filter fun e => e.2.2.isNone).foldl (fun a e =>
    if it.store then a.storeCellFails p k it.id .segment e.2.1 else a.loadCellFails p k it.id e.1 .segment e.2.1) s1
  let good := trans.filterMap fun e => e.2.2.map fun fa => (e.1, fa)
  (groupCells good).foldl (fun a g =>
    if it.store then a.sendLadleStore p k it.id ctx (dClass d) g else a.sendLadleLoad p k it.id ctx (dClass d) g)
    s2

/-- Issues what the tracking entries allow of an iteration under way. -/
def State.issueIter (s : State) (p k : Nat) (it : LadleIter) : State :=
  let n := min (dCellCount (s.descOf p it.desc) - it.sent) (1024 - s.ladleEntries (p / 2) k)
  if n = 0 then s
  else
    let s1 := s.onPlane p fun x => x.onLadle k fun l =>
      { l with iters := l.iters.map fun i => if i.id == it.id then { i with sent := i.sent + n } else i }
    s1.issueCells p k it it.sent n

/-- A ladle of the active plane issues: the rest of an iteration under way, or its next load iteration. -/
def State.ladleIssue (s : State) (v k : Nat) : State :=
  let p := s.activePlane v
  let l := (s.plane p).ladle k
  let desc := s.descOf p
  if (s.vat v).run != .run || !(s.plane p).issuing || !l.running then s
  else match l.partial' desc with
    | some it => (s.issueIter p k it).finish
    | none =>
      match l.next with
      | none => s
      | some d =>
        if !l.mayStart (desc d) then s
        else
          let s1 := s.onPlane p fun x => x.onLadle k fun y => y.begin desc d
          match ((s1.plane p).ladle k).partial' desc with
          | some it => (s1.issueIter p k it).finish
          | none => s1

def execLadleIssue (v : VatId) (k : Fin 8) (s : State) : Host.Outcome State Fault Refusal := .next (s.ladleIssue v.val k.val)

/-! ## LDLGO, LDLSTOP and LDLRES -/

/-- LDLGO on an idle ladle. Store iterations not yet acknowledged stay with it. -/
def Ladle.go (l : Ladle) (d : Nat) : Ladle :=
  { ({} : Ladle) with running := true, next := some d, nextId := l.nextId,
                      iters := l.iters.filter fun i => i.store }

/-- LDLSTOP: untaken load iterations have been squashed; store cells not yet issued are not (R71, R78). -/
def Ladle.stop (l : Ladle) (desc : Nat → Nat) : Ladle :=
  let cut (i : LadleIter) : LadleIter :=
    let rest := dCellCount (desc i.desc) - i.sent
    { i with cellsLeft := i.cellsLeft - rest, readsLeft := i.readsLeft - rest }
  { l with running := false, next := none, branch := none, held := none,
           iters := (l.iters.map cut).filter fun i => i.store && i.cellsLeft != 0 }

/-- A branch resolves against its prediction: the speculative iterations are squashed (R78, R83). -/
def State.mispredict (s : State) (p k d last : Nat) (outcome : Bool) : State :=
  let l := (s.plane p).ladle k
  let spec (i : LadleIter) : Bool := !i.store && decide (last < i.n)
  let lost := l.iters.filter spec
  let s1 := (s.voidOps p k fun i => lost.any fun x => x.id == i).onPlane p fun x => x.onLadle k fun y =>
    { y with iters := y.iters.filter fun i => !spec i, issued := last + 1, next := dTarget (s.descOf p d) outcome, nextJ := 0,
             branch := none }
  if lost.isEmpty then s1
  else s1.onVat (p / 2) fun x => { x with ldl := Tbl.upd {} x.ldl k fun n =>
    { n with squash := bump n.squash, deferDrop := bump n.deferDrop (lost.filter fun i => i.worst.failed).length } }

/-- LDLRES (R78). -/
def State.ladleResolve (s : State) (p k : Nat) (outcome : Bool) : State :=
  let l := (s.plane p).ladle k
  let desc := s.descOf p
  match l.branch with
  | some (d, last) =>
    if outcome = dPredict (desc d) then
      s.onPlane p fun x => x.onLadle k fun y => ({ y with branch := none } : Ladle).settle desc
    else s.mispredict p k d last outcome
  | none =>
    if l.running && l.held.isNone && branchAhead desc 513 l.next then
      s.onPlane p fun x => x.onLadle k fun y => { y with held := some outcome }
    else s

/-! ## LDLTAKE (R76, R77) -/

/-- What LDLTAKE finds. -/
inductive Take where
  /-- It returns a value. -/
  | returns (x : W64)
  | waits
  /-- It traps: cause, and the failed cell's record if one is consumed. -/
  | traps (cause : Nat) (iter : Option LadleIter)
  /-- It releases a store iteration of this descriptor. -/
  | releases (d : Nat)
deriving DecidableEq, Repr

def Ladle.take (l : Ladle) (desc : Nat → Nat) : Take :=
  if !l.running then .returns (-1)
  else if l.branch.any fun b => decide (b.2 < l.taken) then .traps 25 none
  else match l.iters.find? fun i => !i.store && i.n == l.taken with
    | some i =>
      if i.sent < dCellCount (desc i.desc) ∨ i.cellsLeft ≠ 0 then .waits
      else if i.worst.failed then .traps 26 (some i)
      else match i.worst with
        | .ok b => if b = 0 then .returns 0 else .returns (1 + 16 * b.zeroExtend 64)
        | _ => .waits
    | none =>
      match l.next with
      | none => .returns (-1)
      | some d =>
        if !dStore (desc d) || l.atEnd (desc d) || l.issued != l.taken then .waits
        else if 16 ≤ (l.iters.filter fun i => i.store).length then .waits
        else .releases d

/-- The iteration released by the LDLTAKE that waits has been read out of the tile store. -/
def Ladle.readOut (l : Ladle) (desc : Nat → Nat) : Bool :=
  match l.iters.find? fun i => i.store && i.id + 1 == l.nextId with
  | some i => decide (dCellCount (desc i.desc) ≤ i.sent) && i.readsLeft == 0
  | none => true

end Sys2Proof.Machine
end

