-- ==== Sys2Proof/Machine/Mac.lean ====
section
/-! DEFINITION. The MAC block: products, accumulation and DRAIN (R43 to R47, R90 to R99, R108 to R118). -/

namespace Sys2Proof.Machine

/-! ## The tile's MAC parameters (word 0 of R60) -/

def macFmtA (w : W32) : Nat := bitsAt w.toNat 0 4
def macFmtB (w : W32) : Nat := bitsAt w.toNat 4 4
def macAcc (w : W32) : Nat := bitsAt w.toNat 8 2
def macRnd (w : W32) : Nat := bitsAt w.toNat 10 2
def macNosat (w : W32) : Bool := bitAt w.toNat 12
def macBscale (w : W32) : Bool := bitAt w.toNat 13

def accFP32 : Nat := 0
def accINT32 : Nat := 1
def accFP64 : Nat := 2
def accEXACT : Nat := 3

/-- Accumulation and the multiplication by TSCALE round toward zero when RND = 1, to nearest even otherwise (R108, R117). -/
def macMode (w : W32) : Rnd := if macRnd w = 1 then .rtz else .rne

/-- Entries of a set (R45). -/
def setSize (w : W32) : Nat := if macAcc w = accFP64 then 16 else 512

/-- An EXACT tile has the one set ACC0 (R45). -/
def setOf (w : W32) (aset : Nat) : Nat := if macAcc w = accEXACT then 0 else aset

/-! ## Products -/

/-- The trit element of column n at step k of a repeat: the trit times its column's FP16 scale (R92, R93). -/
def tritElem (b : Nat) (step n k : Nat) : Num × Flags :=
  let kk := 4 * step + k
  let (ts, bad) := tritsOf (bitsAt b (8 * (8 * n + kk / 5)) 8)
  let (x, f) := (numOfInt (ts.getD (kk % 5) 0)).mul (decodeFloat 4 (bitsAt b (8 * (256 + 2 * n)) 16))
  (x, f ||| flagIf bad fT2INV)

/-- A[m][k] · B[n][k] before block scales (R91, R95). -/
def macProduct (q : MacPending) (kDim m n k : Nat) : Num × Flags :=
  let fa := macFmtA q.mode
  let fb := macFmtB q.mode
  let a := elemAt fa q.a.toNat (m * kDim + k)
  if fa = 12 then (log8Product a (elemAt fb q.b.toNat (n * kDim + k)), 0)
  else
    let (y, f) := if fb = 13 then tritElem q.b.toNat q.step n k else (decodeElem fb (elemAt fb q.b.toNat (n * kDim + k)), 0)
    let (p, g) := (decodeElem fa a).mul y
    (p, f ||| g)

/-- The combined exponent of row m and column n, or none where a scale is NaN (R97, R99). MXINT8 elements stand for
q · 2^-6 (R96). -/
def macExponent (q : MacPending) (m n : Nat) : Option Int :=
  if !macBscale q.mode then some 0
  else
    let mx : Int := if macFmtA q.mode = 10 then -12 else 0
    match e8m0 (bitsAt q.sa.toNat (8 * m) 8), e8m0 (bitsAt q.sb.toNat (8 * n) 8) with
    | some x, some y => some ((if macFmtB q.mode = 13 then x else x + y) + mx)
    | some x, none => if macFmtB q.mode = 13 then some (x + mx) else none
    | none, _ => none

/-- A finite value cut toward zero to a multiple of 2^-f and to less than lim units: units, XLOSS and OF (R113, R114). -/
def fixedUnits (f lim : Nat) (x : Num) : Int × Flags :=
  match x with
  | .fin neg man exp =>
    let (n, lost) := roundGrid .rtz man exp (-(f : Int))
    let u : Nat := if lim ≤ n then lim - 1 else n
    (if neg then -(u : Int) else u, flagIf lost fXLOSS ||| flagIf (decide (lim ≤ n)) fOF)
  | _ => (0, 0)

/-- The commutative tag rule of R114. -/
def tagJoin : AccTag → AccTag → AccTag
  | .none, x => x
  | x, .none => x
  | .posInf, .posInf => .posInf
  | .negInf, .negInf => .negInf
  | _, _ => .nan

/-! ## Accumulation -/

/-- The new value and tag of C[m][n] (R111 to R114). -/
def macEntry (q : MacPending) (kDim m n : Nat) (old : BitVec 128) (tag : AccTag) : (BitVec 128 × AccTag) × Flags :=
  let e := macExponent q m n
  let prods := (List.range kDim).map fun k => macProduct q kDim m n k
  let fl := prods.foldl (fun f p => f ||| p.2) (flagIf e.isNone fMXNAN)
  let scaled : List Num := prods.map fun p => match e with
    | some x => p.1.scale x
    | none => .nan false
  let acc := macAcc q.mode
  if acc = accFP32 then
    let (x, f) := sumNums (ofFp32 (bitsAt old.toNat 0 32) :: scaled)
    let (b, g) := toFloat 1 true (macMode q.mode) x
    ((BitVec.ofNat 128 b, .none), fl ||| f ||| g)
  else if acc = accFP64 then
    let (x, f) := sumNums (decodeFloat 0 (bitsAt old.toNat 0 64) :: scaled)
    let (b, g) := toFloat 0 true (macMode q.mode) x
    ((BitVec.ofNat 128 b, .none), fl ||| f ||| g)
  else if acc = accINT32 then
    let parts := scaled.map fun p => if macBscale q.mode then fixedUnits 16 (2 ^ 31) p else fixedUnits 0 (2 ^ 127) p
    let sum : Int := parts.foldl (fun a p => a + p.1) (signed 32 old.toNat)
    let wrapped := unsigned 32 sum
    ((BitVec.ofNat 128 wrapped, .none), parts.foldl (fun f p => f ||| p.2) (fl ||| flagIf (decide (signed 32 wrapped ≠ sum)) fOF))
  else
    let parts := scaled.map fun p => fixedUnits 64 (2 ^ 127) p
    let sum : Int := parts.foldl (fun a p => a + p.1) (signed 128 old.toNat)
    let tag' := scaled.foldl (fun t p => tagJoin t (match p with
      | .nan _ => .nan
      | .inf neg => if neg then .negInf else .posInf
      | .fin _ _ _ => .none)) tag
    ((BitVec.ofNat 128 (unsigned 128 sum), tag'), parts.foldl (fun f p => f ||| p.2) (fl ||| flagIf e.isNone fNV))

/-- The set after a repeat's products have landed: its entries from 0 on, with the flags. MAC does not touch entries at or
beyond M × N (R45). -/
def macLand (q : MacPending) (old : Nat → BitVec 128) (tag : Nat → AccTag) : List (BitVec 128 × AccTag) × Flags :=
  let (mDim, nDim, kDim) := macGeometry (macFmtA q.mode) (macFmtB q.mode)
  let r := (List.range (setSize q.mode)).map fun i =>
    let o := if q.zero then 0 else old i
    let t := if q.zero then .none else tag i
    if i < mDim * nDim then macEntry q kDim (i / nDim) (i % nDim) o t else ((o, t), 0)
  (r.map Prod.fst, r.foldl (fun f x => f ||| x.2) 0)

/-! ## DRAIN (R46, R116 to R118) -/

/-- Drain cycles of a mode. -/
def drainCycles (w : W32) (mode : Nat) : Nat :=
  if macAcc w = accFP64 then 1 else if macAcc w = accEXACT ∧ mode % 4 ≠ 0 then 128 else 16

/-- The value of an accumulator entry. -/
def accValue (w : W32) (x : BitVec 128) (tag : AccTag) : Num :=
  let acc := macAcc w
  if acc = accFP32 then ofFp32 (bitsAt x.toNat 0 32)
  else if acc = accFP64 then decodeFloat 0 (bitsAt x.toNat 0 64)
  else if acc = accINT32 then numOfInt (signed 32 x.toNat) (if macBscale w then -16 else 0)
  else match tag with
    | .none => numOfInt (signed 128 x.toNat) (-64)
    | .posInf => .inf false
    | .negInf => .inf true
    | .nan => .nan false

/-- An entry rounded under RND and multiplied by TSCALE (R46, R117). -/
def drainValue (w tscale : W32) (m : Rnd) (x : BitVec 128) (tag : AccTag) : Nat × Flags :=
  let code := if macAcc w = accFP64 then 0 else 1
  let (b, f) := toFloat code true m (accValue w x tag)
  let (p, g) := (decodeFloat code b).mul (ofFp32 tscale.toNat)
  let (c, h) := toFloat code true (macMode w) p
  (c, f ||| g ||| h)

/-- The register that cycle j of a round drain writes, with its flags; `draw i` is the draw of lane i. -/
def drainRound (w tscale : W32) (j : Nat) (draw : Nat → Nat) (acc : Nat → BitVec 128) (tag : Nat → AccTag) : BitVec 1024 × Flags :=
  let fp64 := macAcc w = accFP64
  let width := if fp64 then 64 else 32
  let r := (List.range (if fp64 then 16 else 32)).foldl (fun (a : Nat × Flags) i =>
    let m : Rnd := match macRnd w with
      | 1 => .rtz
      | 2 => .stoch (draw i)
      | _ => .rne
    let (b, f) := drainValue w tscale m (acc (32 * j + i)) (tag (32 * j + i))
    (a.1 + b * 2 ^ (width * i), a.2 ||| f)) (0, 0)
  (BitVec.ofNat 1024 r.1, r.2)

/-- Limb l of an entry (R118). -/
def limbOf (l : Nat) (x : BitVec 128) (tag : AccTag) : Nat :=
  match l with
  | 0 => bitsAt x.toNat 0 43
  | 1 => bitsAt x.toNat 43 43
  | 2 => unsigned 64 (signed 42 (bitsAt x.toNat 86 42))
  | _ => match tag with
    | .none => 0
    | .nan => 1
    | .posInf => 2 ^ 21
    | .negInf => 2 ^ 42

/-- The register that cycle j of a limbs-out drain writes. -/
def limbsOut (j : Nat) (acc : Nat → BitVec 128) (tag : Nat → AccTag) : BitVec 1024 :=
  BitVec.ofNat 1024 ((List.range 16).foldl (fun a i =>
    a + limbOf (j / 32) (acc (16 * (j % 32) + i)) (tag (16 * (j % 32) + i)) * 2 ^ (64 * i)) 0)

/-- An entry after the cycle of a limbs-in drain that brings its limb l: the words of R118 are added in turn. -/
def limbIn (l word : Nat) (x : BitVec 128) (tag : AccTag) : BitVec 128 × AccTag :=
  let add (k : Nat) : BitVec 128 := x + BitVec.ofNat 128 (unsigned 128 (signed 64 word * (2 ^ k : Nat)))
  match l with
  | 0 => (BitVec.ofNat 128 (unsigned 128 (signed 64 word)), tag)
  | 1 => (add 43, tag)
  | 2 => (add 86, tag)
  | _ =>
    let nans := bitsAt word 0 21
    let pos := bitsAt word 21 21
    let neg := bitsAt word 42 21
    (x, if nans ≠ 0 ∨ (pos ≠ 0 ∧ neg ≠ 0) then .nan else if pos ≠ 0 then .posInf else if neg ≠ 0 then .negInf else .none)

/-- Cycle j of a limbs-in drain: the 16 entries it sets, from 16 · (j mod 32) on. -/
def limbsIn (j : Nat) (reg : BitVec 1024) (acc : Nat → BitVec 128) (tag : Nat → AccTag) : List (BitVec 128 × AccTag) :=
  (List.range 16).map fun i =>
    limbIn (j / 32) (bitsAt reg.toNat (64 * i) 64) (acc (16 * (j % 32) + i)) (tag (16 * (j % 32) + i))

end Sys2Proof.Machine
end

