-- ==== Sys2Proof/Machine/Vector.lean ====
section
/-! DEFINITION. The vector unit's operations on 32 lanes (R48, R540, R541) and the conversions (R100 to R107). -/

namespace Sys2Proof.Machine

/-! ## Lanes -/

def lane (x i : Nat) : Nat := bitsAt x (32 * i) 32

def ofLanes (f : Nat → Nat) : Nat := (List.range 32).foldl (fun a i => a + f i % 2 ^ 32 * 2 ^ (32 * i)) 0

/-- Maps lanes to results with their flags. -/
def mapLanes (f : Nat → Nat × Flags) : Nat × Flags :=
  (List.range 32).foldl (fun (a : Nat × Flags) i => (a.1 + (f i).1 % 2 ^ 32 * 2 ^ (32 * i), a.2 ||| (f i).2)) (0, 0)

/-- A result of the vector unit in FP32. R120 lists no overflow of these operations, so OF is not set (log 29). -/
def vecRound (x : Num × Flags) : Nat × Flags :=
  let (b, f) := toFp32 .rne x.1
  (b, x.2 ||| (f &&& ~~~fOF))

/-! ## The functions of R541

Each is computed to far more bits than FP32 holds, and cut toward zero with a sticky last bit. -/

/-- Bits of the fixed point. -/
def fixK : Nat := 384

def ln2Fix : Nat :=
  0xb17217f7d1cf79abc9e3b39803f2f6af40f343267298b62d8a0d175b8baafa2be7b876206debac98559552fb4afa1b10

/-- The terms y, y²/2, y³/6 ... of e^y, from the i-th on, in fixed point. -/
def expTerms (y : Nat) : Nat → Nat → Nat → Nat
  | 0, _, _ => 0
  | fuel + 1, i, t => t + expTerms y fuel (i + 1) (t * y / 2 ^ fixK / (i + 1))

/-- 2^(f / 2^384) for f below 2^384, in fixed point: from 1 to 2. -/
def exp2Frac (f : Nat) : Nat := expTerms (f * ln2Fix / 2 ^ fixK) 100 0 (2 ^ fixK)

/-- The terms z^(2i + 1) / (2i + 1), from the i-th on. -/
def atanhTerms (zz : Nat) : Nat → Nat → Nat → Nat
  | 0, _, _ => 0
  | fuel + 1, i, t => t / (2 * i + 1) + atanhTerms zz fuel (i + 1) (t * zz / 2 ^ fixK)

/-- ln m of a fixed-point m from 1 to 2. -/
def lnFix (m : Nat) : Nat :=
  let z := (m - 2 ^ fixK) * 2 ^ fixK / (m + 2 ^ fixK)
  2 * atanhTerms (z * z / 2 ^ fixK) 130 0 z

/-- A quotient as a magnitude with a sticky last bit. -/
def stickyRatio (num den : Nat) : Num :=
  let k := 240 + Nat.log2 den
  .fin false (2 * (num * 2 ^ k / den) + (if num * 2 ^ k % den = 0 then 0 else 1)) (-(k : Int) - 1)

/-- x of magnitude below 2^384 as a fixed-point integer. -/
def fixOf (neg : Bool) (man : Nat) (exp : Int) : Int :=
  let e := exp + fixK
  let m : Nat := if 0 ≤ e then man * 2 ^ e.toNat else man / 2 ^ (-e).toNat
  if neg then -(m : Int) else m

/-- Just below one. -/
def belowOne : Num := .fin false (2 ^ 100 - 1) (-100)

/-- A positive magnitude below every FP32 value. -/
def tiny : Num := .fin false 1 (-200)

/-- 2^t of a fixed-point t, inexact. -/
def exp2Of (t : Int) : Num :=
  let n := t / (2 ^ fixK : Nat)
  let f := (t % (2 ^ fixK : Nat)).toNat
  .fin false (2 * exp2Frac f + 1) (n - fixK - 1)

/-- e^y of a fixed-point y as numerator and denominator. -/
def expRatio (y : Int) : Nat × Nat :=
  let t := y * (2 ^ fixK : Nat) / (ln2Fix : Int)
  let n := t / (2 ^ fixK : Nat)
  let f := exp2Frac (t % (2 ^ fixK : Nat)).toNat
  if 0 ≤ n then (f * 2 ^ n.toNat, 2 ^ fixK) else (f, 2 ^ fixK * 2 ^ (-n).toNat)

/-- The exact value of a function of R541, to more bits than FP32 holds; flags are those of R120 other than NX and UF. -/
def fnValue (op : Nat) (x : Num) : Num × Flags :=
  match x with
  | .nan s => (.nan false, flagIf s fNV)
  | .inf neg =>
    match op with
    | 0x10 => (if neg then .zero else .inf false, 0)
    | 0x11 => if neg then (.nan false, fNV) else (.inf false, 0)
    | 0x12 => (.fin neg 0 0, 0)
    | 0x13 => if neg then (.nan false, fNV) else (.zero, 0)
    | 0x14 => if neg then (.nan false, fNV) else (.inf false, 0)
    | 0x15 => (.fin neg 1 0, 0)
    | _ => (if neg then .zero else .fin false 1 0, 0)
  | .fin neg 0 _ =>
    match op with
    | 0x10 => (.fin false 1 0, 0)
    | 0x11 => (.inf true, fDZ)
    | 0x12 => (.inf neg, fDZ)
    | 0x13 => (.inf neg, fDZ)
    | 0x14 => (x, 0)
    | 0x15 => (x, 0)
    | _ => (.fin false 1 (-1), 0)
  | .fin neg man exp =>
    let l := log2Of man exp
    match op with
    | 0x10 =>
      if 8 ≤ l then (if neg then tiny else .fin false 1 300, 0)
      else
        let t := fixOf neg man exp
        if t % (2 ^ fixK : Nat) = 0 then (.fin false 1 (t / (2 ^ fixK : Nat)), 0) else (exp2Of t, 0)
    | 0x11 =>
      if neg then (.nan false, fNV)
      else if man = 2 ^ Nat.log2 man then (numOfInt l, 0)
      else
        let r := l * (2 ^ fixK : Nat) + (lnFix (man * 2 ^ (fixK - Nat.log2 man)) * 2 ^ fixK / ln2Fix : Nat)
        (.fin (decide (r < 0)) (2 * r.natAbs + 1) (-(fixK : Int) - 1), 0)
    | 0x12 => let r := stickyRatio 1 man
              (match r with
               | .fin _ m e => .fin neg m (e - exp)
               | y => y, 0)
    | 0x13 =>
      if neg then (.nan false, fNV)
      else
        let (m, e) := if exp % 2 = 0 then (man, exp) else (2 * man, exp - 1)
        let r := Nat.sqrt (2 ^ 600 / m)
        (.fin false (2 * r + (if m * r * r = 2 ^ 600 then 0 else 1)) (-e / 2 - 301), 0)
    | 0x14 =>
      if neg then (.nan false, fNV)
      else
        let (m, e) := if exp % 2 = 0 then (man, exp) else (2 * man, exp - 1)
        let r := Nat.sqrt (m * 2 ^ 400)
        (.fin false (2 * r + (if r * r = m * 2 ^ 400 then 0 else 1)) (e / 2 - 201), 0)
    | 0x15 =>
      if l < -40 then (.fin neg (man * 2 ^ 100 - 1) (exp - 100), 0)
      else if 6 ≤ l then (if neg then belowOne.neg else belowOne, 0)
      else
        let (n, d) := expRatio (2 * fixOf false man exp)
        let r := stickyRatio (n - d) (n + d)
        (if neg then r.neg else r, 0)
    | _ =>
      if 8 ≤ l then (if neg then tiny else belowOne, 0)
      else
        let (n, d) := expRatio (fixOf neg man exp)
        (stickyRatio n (n + d), 0)

/-- The bound of an operation in ulp (R48). -/
def fnBound (op : Nat) : Nat := if op = 0x10 ∨ op = 0x11 then 2 else if op = 0x12 ∨ op = 0x13 then 1 else 4

/-- A function of R541 on one lane: exact where the result is representable, otherwise one of the FP32 values within the
bound, which one belonging to the device. SQRT is correctly rounded. -/
def fnLane (op x : Nat) : Nat × Flags :=
  let (y, f) := fnValue op (ofFp32 x)
  if op = 0x14 then vecRound (y, f)
  else
    let (floor, g) := toFp32 .rtz y
    if g &&& fNX = 0 then (floor, f)
    else if g &&& fOF ≠ 0 then (infBits 1 + floor / 2 ^ 31 * 2 ^ 31, f ||| fNX)
    else
      let k := fnBound op
      let i := Config.vectorChoice op (BitVec.ofNat 32 x) % (2 * k)
      let mag := floor % 2 ^ 31
      (clampNat 0 (infBits 1) (mag + i - (k - 1)) + floor / 2 ^ 31 * 2 ^ 31, f ||| fNX ||| (g &&& fUF))

/-! ## Reductions (R540) -/

/-- One level of the pairwise tree. -/
def pairUp (f : Nat → Nat → Nat × Flags) : List Nat → List Nat × Flags
  | a :: b :: r =>
    let (rest, g) := pairUp f r
    ((f a b).1 :: rest, (f a b).2 ||| g)
  | l => (l, 0)

def reduceTree (f : Nat → Nat → Nat × Flags) : Nat → List Nat → Nat × Flags
  | 0, l => (l.headD 0, 0)
  | n + 1, l =>
    let (l1, g) := pairUp f l
    let (r, h) := reduceTree f n l1
    (r, g ||| h)

def laneAdd (a b : Nat) : Nat × Flags := vecRound (sumNums [ofFp32 a, ofFp32 b])
def laneMax (hi : Bool) (a b : Nat) : Nat × Flags := vecRound (Num.minMax hi (ofFp32 a) (ofFp32 b))

/-! ## Conversions (R100 to R107) -/

/-- A rounding mode for lane i, by its code (0 RNE, 1 toward zero, 2 stochastic). -/
def modeOf (code : Nat) (draw : Nat → Nat) (i : Nat) : Rnd :=
  match code with
  | 1 => .rtz
  | 2 => .stoch (draw i)
  | _ => .rne

/-- The mode in force of CVTN, CVTW and MXQ (R48). -/
def convMode (rnd vs3 : Nat) : Nat :=
  match bitsAt vs3 5 2 with
  | 1 => 0
  | 2 => 1
  | 3 => 2
  | _ => rnd

/-- A run of 32 elements packed into a segment: its bits, the mask it covers, and the flags. -/
def packSegment (code seg : Nat) (f : Nat → Nat × Flags) : Nat × Nat × Flags :=
  let w := elemBits code
  let base := seg * 32 * w
  let r := (List.range 32).foldl (fun (a : Nat × Flags) i =>
    (a.1 + (f i).1 % 2 ^ w * 2 ^ (base + w * i), a.2 ||| (f i).2)) (0, 0)
  (r.1, (2 ^ (32 * w) - 1) * 2 ^ base, r.2)

/-- emax of R106. -/
def mxEmax : Nat → Nat
  | 5 => 8
  | 6 => 15
  | 7 => 4
  | 8 => 2
  | 9 => 2
  | _ => 0

/-- The shared exponent of R106 and whether some lane is NaN or infinite. -/
def mxExponent (code x : Nat) : Option Int :=
  let vs := (List.range 32).map fun i => ofFp32 (lane x i)
  if vs.any (fun v => match v with
    | .fin _ _ _ => false
    | _ => true) then none
  else
    let top := vs.foldl (fun (m : Option Int) v => match v with
      | .fin _ man e => if man = 0 then m else some (max (m.getD (log2Of man e)) (log2Of man e))
      | _ => m) none
    some (match top with
      | none => 0
      | some l => max (-127) (min 127 (l - mxEmax code)))

/-- MXQ: elements into a segment of VD and the scale byte into a byte of VD + 1 (R106). -/
def mxQuantise (rnd vs2 vs3 : Nat) (nosat : Bool) (draw : Nat → Nat) (x : Nat) : List (Nat × Nat × Nat) × Flags :=
  let code := bitsAt vs3 0 4
  let m := convMode rnd vs3
  let scaleAt := 8 * bitsAt vs2 3 6
  let byte (b : Nat) : Nat × Nat × Nat := (1, b * 2 ^ scaleAt, 0xFF * 2 ^ scaleAt)
  match mxExponent code x with
  | none =>
    let (v, mask, _) := packSegment code (bitsAt vs2 0 3) fun _ => (0, 0)
    ([(0, v, mask), byte 0xFF], fNV ||| fMXNAN)
  | some e =>
    let shift : Int := if code = 10 then 6 - e else -e
    let (v, mask, f) := packSegment code (bitsAt vs2 0 3) fun i =>
      toElem code nosat (modeOf m draw i) ((ofFp32 (lane x i)).scale shift)
    ([(0, v, mask), byte (e + 127).toNat], f)

/-- Every bit of a register. -/
def fullReg : Nat := 2 ^ 1024 - 1

/-- The writes of a vector operation, each a register past VD with its value and mask, and its flags. a, b and c are the
registers VS1, VS2 and VS3; vs2 and vs3 are the fields themselves. -/
def vecResult (vop rnd : Nat) (nosat : Bool) (draw : Nat → Nat) (vs2 vs3 a b c : Nat) : List (Nat × Nat × Nat) × Flags :=
  let whole (r : Nat × Flags) : List (Nat × Nat × Nat) × Flags := ([(0, r.1, fullReg)], r.2)
  let num (f : Num → Num → Num → Num × Flags) : List (Nat × Nat × Nat) × Flags :=
    whole (mapLanes fun i => vecRound (f (ofFp32 (lane a i)) (ofFp32 (lane b i)) (ofFp32 (lane c i))))
  let int (f : Nat → Nat → Nat) : List (Nat × Nat × Nat) × Flags := whole (mapLanes fun i => (f (lane a i) (lane b i), 0))
  let cmp (f : Num → Num → Bool) : List (Nat × Nat × Nat) × Flags :=
    whole (mapLanes fun i =>
      let x := ofFp32 (lane a i)
      let y := ofFp32 (lane b i)
      (if !x.isNan && !y.isNan && f x y then 0xFFFFFFFF else 0, flagIf (x == .nan true || y == .nan true) fNV))
  match vop with
  | 0x01 => num fun x y _ => sumNums [x, y]
  | 0x02 => num fun x y _ => sumNums [x, y.neg]
  | 0x03 => num fun x y _ => x.mul y
  | 0x04 => num fun x y z =>
    let (p, f) := x.mul y
    let (s, g) := sumNums [p, z]
    (s, f ||| g)
  | 0x05 => num fun x y _ => Num.minMax false x y
  | 0x06 => num fun x y _ => Num.minMax true x y
  | 0x07 => int fun x _ => x % 2 ^ 31
  | 0x08 => int fun x _ => x ^^^ 0x80000000
  | 0x09 => cmp fun x y => x.less false y
  | 0x0A => cmp fun x y => !x.less false y && !y.less false x
  | 0x0B => whole (mapLanes fun i => (if lane c i ≠ 0 then lane a i else lane b i, 0))
  | 0x10 | 0x11 | 0x12 | 0x13 | 0x14 | 0x15 | 0x16 => whole (mapLanes fun i => fnLane vop (lane a i))
  | 0x18 =>
    let (r, f) := reduceTree laneAdd 5 ((List.range 32).map (lane a))
    whole (r, f)
  | 0x19 =>
    let (r, f) := reduceTree (laneMax true) 5 ((List.range 32).map (lane a))
    whole (r, f)
  | 0x1A => whole (mapLanes fun i => (lane a (lane b i % 32), 0))
  | 0x1B => whole (mapLanes fun _ => (lane a 0, 0))
  | 0x20 => int fun x y => x + y
  | 0x21 => int fun x y => x + (2 ^ 32 - y)
  | 0x22 => int fun x y => x * y
  | 0x23 => int fun x y => x &&& y
  | 0x24 => int fun x y => x ||| y
  | 0x25 => int fun x y => x ^^^ y
  | 0x26 => int fun x y => x * 2 ^ (y % 32)
  | 0x27 => int fun x y => x / 2 ^ (y % 32)
  | 0x28 => int fun x y => unsigned 32 (signed 32 x / (2 ^ (y % 32) : Nat))
  | 0x30 =>
    let code := bitsAt vs3 0 4
    let (v, mask, f) := packSegment code (bitsAt vs2 0 3) fun i =>
      toElem code (nosat || bitAt vs3 4) (modeOf (convMode rnd vs3) draw i) (ofFp32 (lane a i))
    ([(0, v, mask)], f)
  | 0x31 =>
    let code := bitsAt vs3 0 4
    let seg := bitsAt a (bitsAt vs2 0 3 * 32 * elemBits code) (32 * elemBits code)
    whole (mapLanes fun i => vecRound (match decodeElem code (elemAt code seg i) with
      | .nan s => (.nan false, flagIf s fNV)
      | x => (x, 0)))
  | 0x32 => whole (mapLanes fun i =>
    let (n, f) := toInteger 32 fNV (modeOf rnd draw i) (ofFp32 (lane a i))
    (unsigned 32 n, f))
  | 0x33 => whole (mapLanes fun i => toFp32 (modeOf rnd draw i) (numOfInt (signed 32 (lane a i))))
  | 0x34 => num fun x _ _ => (x, 0)
  | 0x35 => mxQuantise rnd vs2 vs3 (nosat || bitAt vs3 4) draw a
  | _ => ([], 0)

/-- SCALE: the exponent is clamped where the result is decided anyway (R48). -/
def vecScale (a b : Nat) : List (Nat × Nat × Nat) × Flags :=
  let r := mapLanes fun i =>
    let k : Int := max (-1000) (min 1000 (signed 32 (lane b i)))
    match ofFp32 (lane a i) with
    | .nan s => vecRound (.nan false, flagIf s fNV)
    | x => vecRound (x.scale k, 0)
  ([(0, r.1, fullReg)], r.2)

/-- Latency in cycles (R48). -/
def vecLatency (vop : Nat) : Nat :=
  if 0x10 ≤ vop ∧ vop ≤ 0x16 then 12 else if vop = 0x18 ∨ vop = 0x19 ∨ vop = 0x35 then 8 else 4

/-- The operations that round under a mode, and the mode in force (R108, R110). -/
def vecMode (vop rnd vs3 : Nat) : Option Nat :=
  if vop = 0x30 ∨ vop = 0x35 then some (convMode rnd vs3) else if vop = 0x32 ∨ vop = 0x33 then some rnd else none

end Sys2Proof.Machine
end

