-- ==== Sys2Proof/Machine/Tiles.lean ====
section
/-! DEFINITION. The tiles of a vat: registers, links, bundles and results (R47 to R62, R110, R119 to R121, R153, R154). -/

namespace Sys2Proof.Machine

/-! ## The tile's plane -/

/-- Parameter word w of tile t, at byte 4w of R60. -/
def State.param (s : State) (p t w : Nat) : W32 := Tbl.look 0 (s.plane p).params (64 * t + w)

/-- The tile-store window in bytes: base and size (R53). -/
def State.window (s : State) (p t : Nat) : Nat × Nat :=
  let w := (s.param p t 1).toNat
  (bitsAt w 0 4 * 0x8000, bitsAt w 4 5 * 0x8000)

def State.routeWord (s : State) (p t k : Nat) : Nat := (Tbl.look 0 (s.plane p).routes (32 * t + k)).toNat

def State.bundleAt (s : State) (p t i : Nat) : Nat := (Tbl.look 0 (s.plane p).bundles (240 * t + i)).toNat

/-! ## Registers and accumulators (R67) -/

/-- A register of a tile: what was written since the vat's epoch began, else 0 before the first swap or reset of the vat and
its free value after it. -/
def State.tileReg (s : State) (v t r : Nat) : BitVec 1024 :=
  match Tbl.look none (s.tile v t).regs r with
  | some x => x
  | none => if (s.vat v).epoch = 0 then 0 else Config.tileRegister (s.vat v).epoch v t r

/-- n bytes from byte offset off of register r; the read runs on into consecutive registers (R47). -/
def State.regBytes (s : State) (v t r off n : Nat) : Nat :=
  let first := off / 128
  let count := (off % 128 + n + 127) / 128
  let all := (List.range count).foldl (fun a i => a + (s.tileReg v t ((r + first + i) % 512)).toNat * 2 ^ (1024 * i)) 0
  bitsAt all (8 * (off % 128)) (8 * n)

/-- Writes the bits of a mask. -/
def State.writeReg (s : State) (v t r value mask : Nat) : State :=
  let m := BitVec.ofNat 1024 mask
  let new := (s.tileReg v t r &&& ~~~m) ||| (BitVec.ofNat 1024 value &&& m)
  s.onTile v t fun x => { x with regs := Tbl.put none x.regs (r % 512) (some new) }

def tagOfCode : Nat → AccTag
  | 0 => .none
  | 1 => .posInf
  | 2 => .negInf
  | _ => .nan

def State.accAt (s : State) (v t key : Nat) : BitVec 128 :=
  match Tbl.look none (s.tile v t).acc key with
  | some x => x
  | none => if (s.vat v).epoch = 0 then 0 else Config.accumulator (s.vat v).epoch v t key

def State.tagAt (s : State) (v t key : Nat) : AccTag :=
  match Tbl.look none (s.tile v t).tags key with
  | some x => x
  | none => if (s.vat v).epoch = 0 then .none else tagOfCode (Config.accumulatorTag (s.vat v).epoch v t key % 4)

/-- A table with the n entries from key base on replaced. -/
def replaceRun {α : Type} (t : Tbl α) (base : Nat) (new : List α) : Tbl α :=
  t.filter (fun e => decide (e.1 < base)) ++ new.zipIdx.map (fun e => (base + e.2, e.1)) ++
    t.filter fun e => decide (base + new.length ≤ e.1)

def State.writeAcc (s : State) (v t base : Nat) (new : List (BitVec 128 × AccTag)) : State :=
  s.onTile v t fun x => { x with acc := replaceRun x.acc base (new.map fun e => some e.1),
                                 tags := replaceRun x.tags base (new.map fun e => some e.2) }

/-! ## Flags (R119, R121) -/

/-- Sets sticky flags of the active plane's context; a flag newly set is noted for TWAIT of the running group. -/
def State.raiseFlags (s : State) (v t : Nat) (f : Flags) : State :=
  let x := s.tile v t
  let second := (s.vat v).plane
  let old := if second then x.xflags1 else x.xflags0
  let s1 := s.onTile v t fun y =>
    if second then { y with xflags1 := y.xflags1 ||| f } else { y with xflags0 := y.xflags0 ||| f }
  if f &&& ~~~old = 0 then s1
  else s1.onPlane (s.activePlane v) fun p => { p with newFlags := bvSet p.newFlags x.handle true }

/-! ## Stochastic draws (R110) -/

def fmix32 (h : W32) : W32 :=
  let a := (h ^^^ (h >>> 16)) * 0x85EBCA6B
  let b := (a ^^^ (a >>> 13)) * 0xC2B2AE35
  b ^^^ (b >>> 16)

/-- The generator of tile t now: its seed of launch or of the last BOUNDARY, advanced once per draw made. -/
def State.generator (s : State) (p t : Nat) : W32 :=
  let seed : W32 := (s.ctx (((s.plane p).ctx).getD 0)).seed.truncate 32
  fmix32 (seed ^^^ fmix32 (BitVec.ofNat 32 (t ^^^ ((s.plane p).nb % 2 ^ 22 * 1024)))) +
    BitVec.ofNat 32 (Tbl.look 0 (s.plane p).draws t * 0x9E3779B9)

def drawOf (g : W32) (i : Nat) : Nat := (fmix32 (g + BitVec.ofNat 32 i)).toNat

def State.drew (s : State) (p t : Nat) : State := s.onPlane p fun q => { q with draws := Tbl.upd 0 q.draws t (· + 1) }

/-! ## Results that land (R46, R539) -/

def State.landVector (s : State) (v t : Nat) (r : VecPending) : State :=
  (r.writes.foldl (fun a w => a.writeReg v t w.1 w.2.1.toNat w.2.2.toNat) s).raiseFlags v t r.flags

def State.landMac (s : State) (v t : Nat) (q : MacPending) : State :=
  let base := 512 * q.set
  let (new, f) := macLand q (fun i => s.accAt v t (base + i)) (fun i => s.tagAt v t (base + i))
  (s.writeAcc v t base new).raiseFlags v t f

/-- Lands every result of tile t whose cycle lies before the given one. -/
def State.settle (s : State) (v t cycle : Nat) : State :=
  let x := s.tile v t
  let s1 := s.onTile v t fun y => { y with vec := y.vec.filter fun r => decide (cycle ≤ r.land),
                                           mac := y.mac.filter fun r => decide (cycle ≤ r.land) }
  let s2 := (x.vec.filter fun r => decide (r.land < cycle)).foldl (fun a r => a.landVector v t r) s1
  (x.mac.filter fun r => decide (r.land < cycle)).foldl (fun a r => a.landMac v t r) s2

/-- A vector result joins those on their way, in the order in which they land. -/
def insertVec (r : VecPending) : List VecPending → List VecPending
  | [] => [r]
  | x :: xs => if r.land < x.land then r :: x :: xs else x :: insertVec r xs

/-! ## Drains (R46, R116) -/

/-- One cycle of a drain. -/
def State.drainCycle (s : State) (v t : Nat) (d : Drain) : State :=
  let p := s.activePlane v
  let w := s.param p t 0
  let acc (i : Nat) : BitVec 128 := s.accAt v t (512 * d.set + i)
  let tag (i : Nat) : AccTag := s.tagAt v t (512 * d.set + i)
  let r := (d.areg + d.done) % 512
  if macAcc w = accEXACT ∧ d.mode % 4 = 1 then s.writeReg v t r (limbsOut d.done acc tag).toNat fullReg
  else if macAcc w = accEXACT ∧ d.mode % 4 = 2 then
    s.writeAcc v t (512 * d.set + 16 * (d.done % 32)) (limbsIn d.done (s.tileReg v t r) acc tag)
  else
    let g := s.generator p t
    let (x, f) := drainRound w (s.param p t 6) d.done (drawOf g) acc tag
    let s1 := (s.writeReg v t r x.toNat fullReg).raiseFlags v t f
    if macRnd w = 2 then s1.drew p t else s1

/-- One cycle of every drain in progress. -/
def State.drainStep (s : State) (v t : Nat) : State :=
  let ds := (s.tile v t).drains
  let s1 := ds.foldl (fun a d => a.drainCycle v t d) s
  s1.onTile v t fun x =>
    { x with drains := (ds.map fun d => { d with done := d.done + 1 }).filter fun d => decide (d.done < d.total) }

/-! ## Links (R54 to R57)

Incoming links are numbered 0 N, 1 E, 2 S, 3 W; outgoing link o of a tile is incoming link (o + 2) mod 4 of its
neighbour. -/

/-- The neighbour of tile t in direction o, if the array has one. -/
def neighbour (t o : Nat) : Option Nat :=
  match o with
  | 0 => if t / 32 = 0 then none else some (t - 32)
  | 1 => if t % 32 = 31 then none else some (t + 1)
  | 2 => if t / 32 = 31 then none else some (t + 32)
  | _ => if t % 32 = 0 then none else some (t - 1)

/-- Cycles from the sender to an incoming link: 1 with the clock, 2 against it (R57). -/
def linkLatency (l : Nat) : Nat := if l = 0 ∨ l = 3 then 1 else 2

/-- The island of a tile (R153). -/
def islandOf (t : Nat) : Nat := t / 32 / 4 * 8 + t % 32 / 4

/-- Whether a link between two tiles passes through a GALS queue. -/
def State.queued (s : State) (p t u : Nat) : Bool := (s.plane p).gals && islandOf t != islandOf u

def routeSrc (w : Nat) : Nat := bitsAt w 0 3
def routeOut (w o : Nat) : Bool := bitAt w (3 + o)
def routeToReg (w : Nat) : Bool := bitAt w 7
def routeReg (w : Nat) : Nat := bitsAt w 8 9
def routeHalf (w : Nat) : Nat := bitsAt w 17 1
def routeAddr (w : Nat) : Nat := 64 * bitsAt w 18 13
def routeStanding (w : Nat) : Bool := bitAt w 31

/-- The standing routes of a tile that drive something (R55). -/
def State.standing (s : State) (p t : Nat) : List Nat :=
  ((List.range 32).map (s.routeWord p t)).filter fun w => routeStanding w && routeSrc w != 7

def State.halfReg (s : State) (v t w : Nat) : Nat := bitsAt (s.tileReg v t (routeReg w)).toNat (512 * routeHalf w) 512

/-- The word that arrives on an incoming link of tile t in a vat cycle. A running sender has put it there; a standing route
of a tile that runs nothing forwards what its own source carries. Where nothing drives the link it carries zero (R56). -/
def State.linkIn (s : State) (v p : Nat) : Nat → Nat → Nat → Nat → Nat
  | 0, _, _, _ => 0
  | fuel + 1, t, l, cycle =>
    match neighbour t l with
    | none => 0
    | some u =>
      match (s.tile v t).links.find? fun x => x.link == l && x.cycle == cycle with
      | some x => x.word.toNat
      | none =>
        match (s.standing p u).find? fun w => routeOut w ((l + 2) % 4) with
        | none => 0
        | some w =>
          if routeSrc w < 4 then
            if (neighbour u (routeSrc w)).any (s.queued p u) then 0
            else s.linkIn v p fuel u (routeSrc w) (cycle - linkLatency l)
          else s.halfReg v u w

/-- Takes the next word of the GALS queue on an incoming link, or pulls it through a standing route of a tile that runs
nothing; none where the queue is empty (R154). -/
def State.galsTake (s : State) (v p : Nat) : Nat → Nat → Nat → Nat → Option Nat × State
  | 0, _, _, _ => (none, s)
  | fuel + 1, t, l, cycle =>
    match Tbl.look [] (s.tile v t).queues l with
    | w :: _ => (some w.toNat, s.onTile v t fun x => { x with queues := Tbl.upd [] x.queues l (·.drop 1) })
    | [] =>
      match neighbour t l with
      | none => (some 0, s)
      | some u =>
        if (s.tile v u).busy then (none, s)
        else match (s.standing p u).find? fun w => routeOut w ((l + 2) % 4) with
          | none => (none, s)
          | some w =>
            if routeSrc w < 4 then
              if (neighbour u (routeSrc w)).any (s.queued p u) then s.galsTake v p fuel u (routeSrc w) cycle
              else (some (s.linkIn v p 1024 u (routeSrc w) (cycle - 1)), s)
            else (some (s.halfReg v u w), s)

/-- The word of an incoming link in this cycle, taken from a queue where the link has one. -/
def State.takeLink (s : State) (v p t l cycle : Nat) : Nat × State :=
  if (neighbour t l).any (s.queued p t) then
    let (w, s1) := s.galsTake v p 1024 t l cycle
    (w.getD 0, s1)
  else (s.linkIn v p 1024 t l cycle, s)

/-- Drives an outgoing link in a cycle; the edge discards (R56). -/
def State.driveLink (s : State) (v p t o cycle word : Nat) : State :=
  match neighbour t o with
  | none => s
  | some u =>
    let l := (o + 2) % 4
    if s.queued p t u then
      s.onTile v u fun x => { x with queues := Tbl.upd [] x.queues l (· ++ [BitVec.ofNat 512 word]) }
    else
      s.onTile v u fun x =>
        { x with links := x.links.filter (fun y => decide (cycle ≤ y.cycle + 4)) ++
          [{ link := l, cycle := cycle + linkLatency l, word := BitVec.ofNat 512 word }] }

/-! ## The order of tiles -/

/-- The earliest cycle that any tile of a vat still has to issue in. -/
def State.minCycle (s : State) (v : Nat) : Option Nat :=
  s.tiles.foldl (fun m (k, x) =>
    if k / 1024 = v then
      let c : Option Nat := match x.startAt with
        | some (_, _, _, c) => some c
        | none => if x.busy && !x.issuedAll then some x.cycle else none
      match m, c with
      | some a, some b => some (min a b)
      | none, y => y
      | y, none => y
    else m) none

def State.isFirst (s : State) (v cycle : Nat) : Bool := (s.minCycle v).all fun m => decide (cycle ≤ m)

/-! ## Starting (R61) -/

/-- The start command arrives: the tile runs from its entry bundle. What standing routes last wrote to its registers while
it ran nothing is in them. -/
def State.tileStart (s : State) (v t : Nat) : State :=
  match (s.tile v t).startAt with
  | none => s
  | some (h, entry, count, cycle) =>
    if !s.isFirst v cycle then s
    else
      let p := s.activePlane v
      let s1 := (s.standing p t).foldl (fun a w =>
        if routeToReg w && decide (routeSrc w < 4) && !(neighbour t (routeSrc w)).any (s.queued p t) then
          a.writeReg v t (routeReg w) (s.linkIn v p 1024 t (routeSrc w) (cycle - 1) * 2 ^ (512 * routeHalf w))
            ((2 ^ 512 - 1) * 2 ^ (512 * routeHalf w))
        else a) s
      s1.onTile v t fun x =>
        { x with busy := true, issuedAll := false, startAt := none, ctx := BitVec.ofNat 6 (((s.plane p).ctx).getD 0), entry := entry,
                 bundle := entry, rep := 0, iter := 0, itersLeft := count, handle := h, cycle := cycle }

def execTileStart (v : VatId) (t : TileId) (s : State) : Host.Outcome State Fault Refusal := .next (s.tileStart v.val t.val)

/-! ## Issuing a bundle (R59) -/

def bEnd (b : Nat) : Bool := bitAt b 127
def bRepeat (b : Nat) : Nat := bitsAt b 121 6
def bMop (b : Nat) : Nat := bitsAt b 118 3
def bAset (b : Nat) : Nat := bitsAt b 116 2
def bAreg (b : Nat) : Nat := bitsAt b 107 9
def bBreg (b : Nat) : Nat := bitsAt b 98 9
def bVop (b : Nat) : Nat := bitsAt b 90 6
def bVd (b : Nat) : Nat := bitsAt b 81 9
def bVs1 (b : Nat) : Nat := bitsAt b 72 9
def bVs2 (b : Nat) : Nat := bitsAt b 63 9
def bVs3 (b : Nat) : Nat := bitsAt b 56 7
def bMmop (b : Nat) : Nat := bitsAt b 54 2
def bMreg (b : Nat) : Nat := bitsAt b 45 9
def bMaddr (b : Nat) : Nat := bitsAt b 31 14
def bLen (b : Nat) : Nat := bitsAt b 29 2
def bMiter (b : Nat) : Bool := bitAt b 28
def bMrep (b : Nat) : Bool := bitAt b 27
def bRslot (b : Nat) : Nat := bitsAt b 19 5
def bRcnt (b : Nat) : Nat := bitsAt b 17 2
def bRsen (b : Nat) : Bool := bitAt b 16
def bIterv (b : Nat) : Bool := bitAt b 15
def bIterm (b : Nat) : Bool := bitAt b 14

/-- Iteration × RSTRIDE, mod 512. -/
def State.regOffset (s : State) (p t iter : Nat) : Nat := iter * bitsAt (s.param p t 4).toNat 0 9 % 512

/-- Operations whose VS2 field is no register (R100, R106). -/
def vs2IsField (vop : Nat) : Bool := vop == 0x30 || vop == 0x31 || vop == 0x35

/-- The routes active in a bundle's cycle: the standing ones and those its switch slot enables (R55). -/
def State.activeRoutes (s : State) (p t b : Nat) : List Nat :=
  ((List.range 32).filter fun k =>
    routeStanding (s.routeWord p t k) || (bRsen b && decide (bRslot b ≤ k ∧ k ≤ bRslot b + bRcnt b))).filterMap fun k =>
      if routeSrc (s.routeWord p t k) = 7 then none else some (s.routeWord p t k)

/-- The MEM slot's window offset and length in bytes. -/
def State.memSlot (s : State) (p t b iter rep : Nat) : Nat × Nat :=
  (32 * (bMaddr b + (if bMiter b then iter * bitsAt (s.param p t 2).toNat 0 14 else 0) +
    (if bMrep b then rep * bitsAt (s.param p t 3).toNat 0 14 else 0)), 32 * (bLen b + 1))

/-- The MAC slot: MAC and MACZ read their operands now, and a DRAIN starts at repeat 0 (R47). -/
def State.macSlot (s : State) (v t b : Nat) : State :=
  let x := s.tile v t
  let p := s.activePlane v
  let w := s.param p t 0
  let off := if bIterm b then s.regOffset p t x.iter else 0
  let areg := (bAreg b + off) % 512
  if bMop b = 3 then
    if x.rep = 0 then
      s.onTile v t fun y => { y with drains := y.drains ++
        [{ set := setOf w (bAset b), mode := bBreg b, areg := areg, done := 0, total := drainCycles w (bBreg b) }] }
    else s
  else if bMop b = 1 ∨ bMop b = 2 then
    let breg := (bBreg b + off) % 512
    let fa := macFmtA w
    let fb := macFmtB w
    let (an, bn) := macSizes fa fb
    let block := 32 / (macGeometry fa fb).2.2
    let scales := (s.param p t 5).toNat
    let fresh := macBscale w && x.rep % block == 0
    let sa := if fresh then BitVec.ofNat 128 (s.regBytes v t ((bitsAt scales 0 9 + off) % 512) (16 * (x.rep / block)) 16) else x.scA
    let sb := if fresh && fb != 13 then
        BitVec.ofNat 256 (s.regBytes v t ((bitsAt scales 16 9 + off) % 512) (32 * (x.rep / block)) 32) else x.scB
    let opB := if fb = 13 then s.regBytes v t breg (x.rep / 10 * 320) 320 else s.regBytes v t breg (x.rep * bn) bn
    let q : MacPending := { land := x.cycle + 3, set := setOf w (bAset b), zero := bMop b == 2 && x.rep == 0, mode := w,
                            a := BitVec.ofNat 512 (s.regBytes v t areg (x.rep * an) an), b := BitVec.ofNat 2560 opB,
                            step := x.rep % 10, sa := sa, sb := sb }
    s.onTile v t fun y => { y with mac := y.mac ++ [q], scA := sa, scB := sb }
  else s

/-- The vector slot; `src` is the state whose registers it reads. -/
def State.vectorSlot (s src : State) (v t b : Nat) : State :=
  let x := s.tile v t
  let p := s.activePlane v
  let w := s.param p t 0
  let vop := bVop b
  if vop = 0 then s
  else
    let off := if bIterv b then s.regOffset p t x.iter else 0
    let rd (r : Nat) : Nat := (src.tileReg v t (r % 512)).toNat
    let a := rd (bVs1 b + off)
    let y := rd (bVs2 b + (if vs2IsField vop then 0 else off))
    let (ws, f) := if vop = 0x34 then vecScale a y
      else vecResult vop (macRnd w) (macNosat w) (drawOf (s.generator p t)) (bVs2 b) (bVs3 b) a y (rd (bVs3 b))
    let writes := ws.map fun e => ((bVd b + off + e.1) % 512, BitVec.ofNat 1024 e.2.1, BitVec.ofNat 1024 e.2.2)
    let r : VecPending := { land := x.cycle + vecLatency vop - 1, writes := writes, flags := f }
    let s1 := s.onTile v t fun z => { z with vec := insertVec r z.vec }
    if vecMode vop (macRnd w) (bVs3 b) = some 2 then s1.drew p t else s1

/-- The source word of a route. -/
def State.routeWordIn (s src : State) (v p t cycle w : Nat) : Nat × State :=
  if routeSrc w < 4 then s.takeLink v p t (routeSrc w) cycle
  else if routeSrc w = 5 then (leNat (src.bytesAt (tileBase v t + (s.window p t).1 + routeAddr w) 64), s)
  else (src.halfReg v t w, s)

/-- The switch slot: every active route carries its word to its links and its register. A GALS queue that several routes
read gives them all one word. -/
def State.switchSlot (s src : State) (v t : Nat) (ws : List Nat) (cycle : Nat) : State :=
  let p := s.activePlane v
  let srcs := (ws.map routeSrc).eraseDups.filter (· < 4)
  let (links, s1) := srcs.foldl (fun (a : List (Nat × Nat) × State) l =>
    let (x, st) := a.2.takeLink v p t l cycle
    ((l, x) :: a.1, st)) ([], s)
  ws.foldl (fun a w =>
    let word := if routeSrc w < 4 then (links.lookup (routeSrc w)).getD 0 else (a.routeWordIn src v p t cycle w).1
    let a1 := (List.range 4).foldl (fun b o => if routeOut w o then b.driveLink v p t o cycle word else b) a
    if routeToReg w then
      a1.writeReg v t (routeReg w) (word * 2 ^ (512 * routeHalf w)) ((2 ^ 512 - 1) * 2 ^ (512 * routeHalf w))
    else a1) s1

/-- TILE_STATUS.PH_OVR: a fixed phase code while the vat does not run in fixed-frequency mode (R58). -/
def State.phaseOverridden (s : State) (v p t : Nat) : Bool :=
  let w := (Tbl.look 0 (s.plane p).phase t).toNat
  !(s.vat v).fixed && ((bitsAt w 0 4 < 8 && t / 32 != 31) || (bitsAt w 4 4 < 8 && t % 32 != 31))

/-- After a bundle has issued: the next repeat, bundle or iteration. -/
def Tile.advance (x : Tile) (b : Nat) : Tile :=
  let y := { x with cycle := x.cycle + 1 }
  if x.rep < bRepeat b then { y with rep := x.rep + 1 }
  else if bEnd b then
    if x.itersLeft ≤ 1 then { y with rep := 0, itersLeft := 0, issuedAll := true }
    else { y with rep := 0, iter := x.iter + 1, itersLeft := x.itersLeft - 1, bundle := x.entry }
  else { y with rep := 0, bundle := x.bundle + 1 }

/-- TILE_FAULT: trap 28 in the sequencer, with the local address. -/
def State.tileFault (s : State) (v _t addr : Nat) : State :=
  (s.trap (s.activePlane v) 28 (BitVec.ofNat 64 addr)).finish

/-- CRM_TILE_UE: an uncorrectable word met by the tile (R170). -/
def State.tileUe (s : State) (v t addr : Nat) : State :=
  let p := s.activePlane v
  (s.trap p 28 (BitVec.ofNat 64 addr) 0x6003 [BitVec.ofNat 64 addr, BitVec.ofNat 64 t,
    BitVec.ofNat 64 (((s.plane p).ctx).getD 0)]).finish

/-- The tile-store reads of a bundle: the MEM load and the route sources, as address and length. -/
def State.bundleReads (s : State) (v p t b : Nat) (ws : List Nat) (mem : Nat × Nat) : List (Nat × Nat) :=
  let base := tileBase v t + (s.window p t).1
  (if bMmop b = 1 then [(base + mem.1, mem.2)] else []) ++
    (ws.filter fun w => routeSrc w == 5).map fun w => (base + routeAddr w, 64)

/-- Reads words of the tile store with what the decoder finds in the first of them: the address of an uncorrectable one. -/
def State.readAll (s : State) (ecc : Ecc) : List (Nat × Nat) → Option Nat × State
  | [] => (none, s)
  | (a, n) :: rest =>
    match s.sramRead a n ecc sideTile with
    | (false, s1) => (some a, s1)
    | (true, s1) => s1.readAll .clean rest

/-- One bundle in its cycle. Every slot reads the registers as they are at its start. -/
def State.issueBundle (s : State) (v t : Nat) (ecc : Ecc) : State :=
  let s0 := s.settle v t (s.tile v t).cycle
  let x := s0.tile v t
  let p := s.activePlane v
  let (base, size) := s.window p t
  if 240 ≤ x.bundle then s0.tileFault v t (tileBase v t + base)
  else
    let b := s.bundleAt p t x.bundle
    let ws := s.activeRoutes p t b
    let mem := s.memSlot p t b x.iter x.rep
    let bad := (if bMmop b ≠ 0 ∧ size < mem.1 + mem.2 then [mem.1] else []) ++
      (ws.filter fun w => routeSrc w == 5 && decide (size < routeAddr w + 64)).map routeAddr
    match bad with
    | off :: _ => s0.tileFault v t (tileBase v t + base + off)
    | [] =>
      match s0.readAll ecc (s0.bundleReads v p t b ws mem) with
      | (some a, s1) => s1.tileUe v t a
      | (none, s1) =>
        let at' := tileBase v t + base + mem.1
        let s2 := ((s1.macSlot v t b).drainStep v t).vectorSlot s1 v t b
        let s3 :=
          if bMmop b = 1 then s2.writeReg v t (bMreg b) (leNat (s1.bytesAt at' mem.2)) (2 ^ (8 * mem.2) - 1)
          else if bMmop b = 2 then
            (s2.clearBad at' mem.2).setBytes at' (leBytes mem.2 (bitsAt (s1.tileReg v t (bMreg b)).toNat 0 (8 * mem.2)))
          else s2
        let s4 := s3.switchSlot s1 v t ws x.cycle
        s4.onTile v t fun y => { (y.advance b) with phOvr := y.phOvr || s.phaseOverridden v p t }

/-! ## GALS stalls (R154) -/

/-- Whether an active route of tile t reads an empty queue or writes a full one. -/
def State.routeStalls (s : State) (v p t cycle : Nat) (ws : List Nat) : Bool :=
  ws.any fun w =>
    (routeSrc w < 4 && (neighbour t (routeSrc w)).any (s.queued p t) &&
      (s.galsTake v p 1024 t (routeSrc w) cycle).1.isNone) ||
    (List.range 4).any fun o => routeOut w o && (neighbour t o).any fun u =>
      s.queued p t u && decide (16 ≤ (Tbl.look [] (s.tile v u).queues ((o + 2) % 4)).length)

/-- The tiles of an island that issue in a cycle. -/
def State.islandTiles (s : State) (v island cycle : Nat) : List Nat :=
  (List.range 1024).filter fun t => islandOf t == island &&
    ((s.tile v t).busy && !(s.tile v t).issuedAll && (s.tile v t).cycle == cycle)

/-- An island whose routes stall loses the cycle; otherwise its tiles may issue in it. The Bool says that it stalls. -/
def State.islandGate (s : State) (v t : Nat) : Bool × State :=
  let p := s.activePlane v
  let i := islandOf t
  let cycle := (s.tile v t).cycle
  if !(s.plane p).gals || decide (cycle < Tbl.look 0 (s.vat v).cleared i) then (false, s)
  else
    let ts := s.islandTiles v i cycle
    let stalls := ts.any fun u => s.routeStalls v p u cycle (s.activeRoutes p u (s.bundleAt p u (s.tile v u).bundle))
    if stalls then (true, ts.foldl (fun a u => a.onTile v u fun x => { x with cycle := x.cycle + 1 }) s)
    else (false, s.onVat v fun x => { x with cleared := Tbl.put 0 x.cleared i (cycle + 1) })

def State.tileIssue (s : State) (v t : Nat) (ecc : Ecc) : State :=
  let x := s.tile v t
  if !x.busy || x.issuedAll || x.startAt.isSome || !s.isFirst v x.cycle then s
  else match s.islandGate v t with
    | (true, s1) => s1
    | (false, s1) => s1.issueBundle v t ecc

def execBundleIssue (v : VatId) (t : TileId) (ecc : Ecc) (s : State) : Host.Outcome State Fault Refusal :=
  .next (s.tileIssue v.val t.val ecc)

/-! ## Landing and idling -/

/-- A result is due when its cycle has passed, or when nothing is left to issue. -/
def Tile.due (x : Tile) (land : Nat) : Bool := x.issuedAll || decide (land < x.cycle)

def State.vectorLands (s : State) (v t : Nat) : State :=
  match (s.tile v t).vec with
  | r :: rest => if (s.tile v t).due r.land then (s.onTile v t fun x => { x with vec := rest }).landVector v t r else s
  | [] => s

def execVectorResultLand (v : VatId) (t : TileId) (s : State) : Host.Outcome State Fault Refusal :=
  .next (s.vectorLands v.val t.val)

def State.macLands (s : State) (v t : Nat) : State :=
  match (s.tile v t).mac with
  | q :: rest => if (s.tile v t).due q.land then (s.onTile v t fun x => { x with mac := rest }).landMac v t q else s
  | [] => s

def execMacResultLand (v : VatId) (t : TileId) (s : State) : Host.Outcome State Fault Refusal :=
  .next (s.macLands v.val t.val)

/-- Cycles in which nothing issues any more: results land and drains run on. -/
def State.runOut (s : State) (v t : Nat) : Nat → State
  | 0 => s
  | fuel + 1 =>
    let x := s.tile v t
    if x.vec.isEmpty && x.mac.isEmpty && x.drains.isEmpty then s
    else (((s.settle v t x.cycle).drainStep v t).onTile v t fun y => { y with cycle := y.cycle + 1 }).runOut v t fuel

/-- A tile whose last bundle has issued becomes idle once everything has landed; a ballast equal to its current takes its
place (R61, R409). -/
def State.tileIdles (s : State) (v t : Nat) : State :=
  let x := s.tile v t
  if x.busy && x.issuedAll then
    let s1 := s.runOut v t 200
    (s1.onTile v t fun y => { y with busy := false, issuedAll := false, peakMa := 0 }).onVat v fun z =>
      { z with ballast := z.ballast + x.peakMa }
  else s

def execTileIdle (v : VatId) (t : TileId) (s : State) : Host.Outcome State Fault Refusal := .next (s.tileIdles v.val t.val)

end Sys2Proof.Machine
end

