-- ==== Sys2Proof/Machine/Culture.lean ====
section
/-! DEFINITION. The rules that CHECK applies to a culture image (R43 to R60, R73, R93, R97, R98, R100, R106, R116, R123 to
R133, R137, R155, R159, R240, R538). The first failure is sought in the order of the sections of R124, the header first. -/

namespace Sys2Proof.Machine

/-! ## Reading an image -/

abbrev Image := Array Byte

/-- The n-byte little-endian field at an offset. -/
def field (img : Image) (off n : Nat) : Nat := leNat ((List.range n).map fun i => img.getD (off + i) 0)

/-- The first nonzero byte of a range. -/
def nonzero (img : Image) (off n : Nat) : Option Nat := (List.range n).findSome? fun i =>
  if img.getD (off + i) 0 = 0 then none else some (off + i)

def refuse (code sect item pos byte : Nat) : LoadResult :=
  { code := BitVec.ofNat 8 code, sect := BitVec.ofNat 8 sect, item := BitVec.ofNat 16 item, pos := BitVec.ofNat 16 pos,
    byte := BitVec.ofNat 64 byte }

def noItem : Nat := 0xFFFF

/-- A rule: broken, it gives the result. -/
def need (ok : Bool) (r : LoadResult) : Option LoadResult := if ok then none else some r

/-- A range of res0 bytes (R538). -/
def res0 (img : Image) (off n code sect item : Nat) : Option LoadResult :=
  (nonzero img off n).map fun b => refuse code sect item noItem b

/-- The first rule of a list that is broken. -/
def firstBroken : List (Option LoadResult) → Option LoadResult
  | [] => none
  | some r :: _ => some r
  | none :: rs => firstBroken rs

/-! ## Header and directory (R123, R124) -/

def checkHeader (img : Image) : Option LoadResult :=
  let no (b : Nat) : LoadResult := refuse 1 255 noItem noItem b
  firstBroken [need (field img 0 4 == 0x43564C56) (no 0), need (field img 4 2 == 1) (no 4), need (field img 6 2 == 0) (no 6),
    need (decide (5 ≤ field img 8 4 ∧ field img 8 4 ≤ 9)) (no 8), res0 img 12 4 1 255 noItem,
    need (decide (64 ≤ field img 16 8 ∧ field img 16 8 ≤ 2 ^ 30)) (no 16), res0 img 32 32 1 255 noItem]

/-- A directory entry: its index, type, offset and size. -/
structure Section where
  ix : Nat
  kind : Nat
  off : Nat
  size : Nat
deriving DecidableEq, Repr

/-- The section types as their four bytes read. -/
def typeTILE : Nat := 0x454C4954
def typeSWCH : Nat := 0x48435753
def typeLDL : Nat := 0x004C444C
def typeSEQ : Nat := 0x00514553
def typeMEM : Nat := 0x004D454D
def typeFLEX : Nat := 0x58454C46
def typeSEPW : Nat := 0x57504553
def typeGALS : Nat := 0x534C4147
def typeMEAS : Nat := 0x5341454D

def sections (img : Image) : List Section :=
  (List.range (field img 8 4)).map fun i =>
    { ix := i, kind := field img (64 + 16 * i) 4, off := field img (72 + 16 * i) 4, size := field img (76 + 16 * i) 4 }

def sectionOf (img : Image) (kind : Nat) : Option Section := (sections img).find? fun x => x.kind == kind

def checkDirectory (img : Image) : Option LoadResult :=
  let size := field img 16 8
  let n := field img 8 4
  let dirEnd := 64 + 16 * n
  let no (i b : Nat) : LoadResult := refuse 2 i noItem noItem b
  let ss := sections img
  let must := [typeTILE, typeSWCH, typeLDL, typeSEQ, typeMEAS]
  let known := must ++ [typeMEM, typeFLEX, typeSEPW, typeGALS]
  let entry (x : Section) : Option LoadResult :=
    let e := 64 + 16 * x.ix
    let prev := (ss.filter fun y => decide (y.ix < x.ix)).foldl (fun m y => max m (y.off + y.size)) dirEnd
    firstBroken [need (known.contains x.kind && !(ss.any fun y => decide (y.ix < x.ix) && y.kind == x.kind)) (no x.ix e),
      res0 img (e + 4) 4 2 x.ix noItem, need (x.off % 64 == 0 && decide (prev ≤ x.off)) (no x.ix (e + 8)),
      need (decide (x.off + x.size ≤ size)) (no x.ix (e + 12)),
      need (x.kind != typeMEAS || (x.ix + 1 == n && x.off + x.size == size)) (no x.ix e)]
  let inside (b : Nat) : Bool := decide (b < dirEnd) || ss.any fun x => decide (x.off ≤ b ∧ b < x.off + x.size)
  let gaps := ss.map fun x =>
    let stop := ((ss.filter fun y => decide (x.off < y.off)).map Section.off).foldl min size
    (x.off + x.size, stop)
  let first := ((ss.map Section.off).foldl min size, dirEnd)
  firstBroken ([need (decide (dirEnd ≤ size)) (no 255 8)] ++ ss.map entry ++
    [need (must.all fun k => ss.any fun x => x.kind == k) (no 255 8)] ++
    ((first.2, first.1) :: gaps).map fun g =>
      ((nonzero img g.1 (g.2 - g.1)).filter fun b => !inside b).map fun b => no 255 b)

/-- MEAS is 64 bytes and holds the digest of all that comes before it (R125). -/
def checkMeasure (img : Image) (x : Section) : Option LoadResult :=
  firstBroken [need (x.size == 64) (refuse 3 x.ix noItem noItem (76 + 16 * x.ix)),
    need (leBytes 64 (field img x.off 64) == sha512 ((img.extract 0 x.off).toList))
      (refuse 3 x.ix noItem noItem x.off)]

/-! ## Tile parameters and bundles (R43, R44, R59, R60, R93, R97, R98, R100, R106, R116) -/

/-- Whether an ACC code goes with a pair of formats (R43, R44). -/
def formatsOk (fa fb acc : Nat) : Bool :=
  if fb = 13 then fa == 5 && (acc == 0 || acc == 3)
  else if fa ≤ 12 ∧ (fa = fb ∨ (fa = 5 ∧ fb = 6) ∨ (fa = 6 ∧ fb = 5)) then
    match fa with
    | 0 => acc == 2
    | 1 | 2 | 3 | 4 => acc == 0
    | 10 | 11 => acc == 1
    | _ => acc == 0 || acc == 3
  else false

/-- Bits of the parameter words that R60 lays out. -/
def paramMask : List Nat := [0x3FFF, 0x1FF, 0x3FFF, 0x3FFF, 0x1FF, 0x01FF01FF, 0xFFFFFFFF]

/-- The parameter rule that a tile breaks, as the offset of the field within the plane. -/
def paramsBad (img : Image) (at' : Nat) : Option Nat :=
  let w (i : Nat) : Nat := field img (at' + 4 * i) 4
  let mode : W32 := BitVec.ofNat 32 (w 0)
  let fa := macFmtA mode
  let fb := macFmtB mode
  match (List.range 7).find? fun i => w i &&& paramMask.getD i 0 != w i with
  | some i => some (4 * i)
  | none =>
    match nonzero img (at' + 28) 228 with
    | some b => some (b - at')
    | none =>
      if !formatsOk fa fb (macAcc mode) then some 0
      else if macRnd mode = 3 then some 1
      else if macBscale mode && !((5 ≤ fa && fa ≤ 10) || fb == 13) then some 1
      else if bitsAt (w 1) 4 5 = 0 ∨ 16 < bitsAt (w 1) 4 5 then some 4
      else none

def vopListed (v : Nat) : Bool :=
  v ≤ 0x0B || (0x10 ≤ v && v ≤ 0x16) || (0x18 ≤ v && v ≤ 0x1B) || (0x20 ≤ v && v ≤ 0x28) || (0x30 ≤ v && v ≤ 0x35)

/-- Segments of a format in a register (R100). -/
def segmentsOf (code : Nat) : Nat := 32 / elemBits code

/-- The conversion fields of a vector operation (R100, R106). -/
def convOk (vop vs2 vs3 : Nat) : Bool :=
  let code := bitsAt vs3 0 4
  if vop = 0x30 ∨ vop = 0x31 then
    2 ≤ code && code ≤ 12 && bitsAt vs2 3 6 == 0 && decide (bitsAt vs2 0 3 < segmentsOf code)
  else if vop = 0x35 then 5 ≤ code && code ≤ 10 && decide (bitsAt vs2 0 3 < segmentsOf code)
  else true

/-- A bundle breaks a rule. -/
def bundleBad (mode : W32) (b : Nat) : Bool :=
  let fa := macFmtA mode
  let fb := macFmtB mode
  bitsAt b 96 2 != 0 || bitsAt b 24 3 != 0 || bitsAt b 0 14 != 0 || 3 < bMop b || bMmop b == 3 || !vopListed (bVop b) ||
    !convOk (bVop b) (bVs2 b) (bVs3 b) || (bRsen b && decide (31 < bRslot b + bRcnt b)) ||
    (bMop b == 3 && (if macAcc mode = accEXACT then decide (3 ≤ bBreg b) else bBreg b != 0)) ||
    ((bMop b == 1 || bMop b == 2) &&
      ((fb == 13 && (bRepeat b + 1) % 10 != 0) || (macBscale mode && (bRepeat b + 1) % kBlockRepeats fa fb != 0)))

/-- TILE_RULE over every tile, its parameters first. -/
def checkTiles (img : Image) (x : Section) : Option LoadResult :=
  if x.size ≠ 4194304 then some (refuse 4 x.ix noItem noItem (76 + 16 * x.ix))
  else (List.range 1024).findSome? fun t =>
    let at' := x.off + 4096 * t
    match paramsBad img at' with
    | some b => some (refuse 4 x.ix t noItem (at' + b))
    | none => (List.range 240).findSome? fun i =>
      if bundleBad (BitVec.ofNat 32 (field img at' 4)) (field img (at' + 256 + 16 * i) 16) then
        some (refuse 4 x.ix t i (at' + 256 + 16 * i))
      else none

/-! ## Routes and phases (R54, R55, R58, R127, R155) -/

def routeBad (w : Nat) : Bool :=
  routeSrc w == 6 || (routeSrc w == 4 && routeToReg w) || (routeSrc w == 5 && routeStanding w)

/-- Some link or the register write is driven twice by active routes (R55). -/
def driveConflict (ws : List Nat) : Bool :=
  (List.range 5).any fun o => decide (1 < (ws.filter fun w => routeSrc w != 7 && bitAt w (3 + o)).length)

/-- Numbers of the routes active with a bundle. -/
def activeIn (routes : List Nat) (b : Nat) : List Nat :=
  (List.range 32).filter fun k =>
    routeStanding (routes.getD k 0) || (bRsen b && decide (bRslot b ≤ k ∧ k ≤ bRslot b + bRcnt b))

def tileRoutes (img : Image) (x : Section) (t : Nat) : List Nat := (List.range 32).map fun k => field img (x.off + 136 * t + 4 * k) 4

def tileBundles (img : Image) (x : Section) (t : Nat) : List Nat :=
  (List.range 240).map fun i => field img (x.off + 4096 * t + 256 + 16 * i) 16

/-- ROUTE_RULE over every tile. -/
def checkRoutes (img : Image) (x tiles : Section) : Option LoadResult :=
  if x.size ≠ 139264 then some (refuse 5 x.ix noItem noItem (76 + 16 * x.ix))
  else (List.range 1024).findSome? fun t =>
    let at' := x.off + 136 * t
    let rs := tileRoutes img x t
    let ph := field img (at' + 128) 4
    let standing := rs.filter routeStanding
    match (List.range 32).find? fun k => routeBad (rs.getD k 0) with
    | some k => some (refuse 5 x.ix t k (at' + 4 * k))
    | none =>
      if 8 < bitsAt ph 0 4 ∨ 8 < bitsAt ph 4 4 then some (refuse 5 x.ix t noItem (at' + 128))
      else match nonzero img (at' + 129) 7 with
        | some b => some (refuse 5 x.ix t noItem b)
        | none =>
          if driveConflict standing then some (refuse 5 x.ix t noItem at')
          else (tileBundles img tiles t).findSome? fun b =>
            let ks := activeIn rs b
            if driveConflict (ks.map fun k => rs.getD k 0) then some (refuse 5 x.ix t (bRslot b) (at' + 4 * bRslot b)) else none

/-- Receivers on an island boundary of a GALS image are AUTO (R155). -/
def checkPhases (img : Image) (x : Section) : Option LoadResult :=
  (List.range 1024).findSome? fun t =>
    let ph := field img (x.off + 136 * t + 128) 4
    let r := t / 32
    let c := t % 32
    if (r % 4 = 3 ∧ r < 31 ∧ bitsAt ph 0 4 ≠ 8) ∨ (c % 4 = 3 ∧ c < 31 ∧ bitsAt ph 4 4 ≠ 8) then
      some (refuse 13 x.ix t noItem (x.off + 136 * t + 128))
    else none

/-! ## The schedule of a tile program (R46, R49 to R51, R159) -/

def readsVs2 (v : Nat) : Bool :=
  (1 ≤ v && v ≤ 6) || (9 ≤ v && v ≤ 0x0B) || v == 0x1A || (0x20 ≤ v && v ≤ 0x28) || v == 0x34

def readsVs3 (v : Nat) : Bool := v == 0x04 || v == 0x0B

/-- Registers that n bytes from a byte offset touch. -/
def regsTouched (r off n : Nat) : List Nat :=
  ((List.range ((off % 128 + n + 127) / 128)).map fun i => (r + off / 128 + i) % 512)

/-- What a cycle asks of the register banks and of the tile-store banks. -/
structure Demand where
  reads : List Nat := []
  writes : List Nat := []
  banks : List Nat := []
  /-- Registers that a result of this cycle's bundle writes, and that a limbs-in drain reads, in later cycles. -/
  laterWrites : List (Nat × Nat) := []
  laterReads : List (Nat × Nat) := []
deriving DecidableEq, Repr

/-- Two reads and one write per register bank, one access per tile-store bank (R49, R51). -/
def Demand.fits (d : Demand) : Bool :=
  ((List.range 4).all fun b => decide ((d.reads.filter fun r => r % 4 == b).length ≤ 2) &&
    decide ((d.writes.filter fun r => r % 4 == b).length ≤ 1)) &&
    ((List.range 16).all fun b => decide ((d.banks.filter (· == b)).length ≤ 1))

/-- The demand of one route. -/
def routeDemand (w : Nat) : Demand :=
  if routeSrc w = 7 then {}
  else
    { reads := if routeSrc w = 4 then [routeReg w] else [], writes := if routeToReg w then [routeReg w] else [],
      banks := if routeSrc w = 5 then [routeAddr w / 32 % 16, (routeAddr w / 32 + 1) % 16] else [] }

def Demand.join (a b : Demand) : Demand :=
  { reads := a.reads ++ b.reads, writes := a.writes ++ b.writes, banks := a.banks ++ b.banks,
    laterWrites := a.laterWrites ++ b.laterWrites, laterReads := a.laterReads ++ b.laterReads }

/-- The demand of one repeat of a bundle in an iteration; later cycles are counted from this one. -/
def bundleDemand (params : List Nat) (routes : List Nat) (b iter rep : Nat) : Demand :=
  let mode : W32 := BitVec.ofNat 32 (params.getD 0 0)
  let p (i : Nat) : Nat := params.getD i 0
  let off := iter * bitsAt (p 4) 0 9 % 512
  let mo := if bIterm b then off else 0
  let vo := if bIterv b then off else 0
  let fa := macFmtA mode
  let fb := macFmtB mode
  let (an, bn) := macSizes fa fb
  let (mDim, nDim, kDim) := macGeometry fa fb
  let block := 32 / kDim
  let mac := bMop b == 1 || bMop b == 2
  let scaled := mac && macBscale mode && rep % block == 0
  let macReads := if mac then
      regsTouched (bAreg b + mo) (rep * an) an ++ regsTouched (bBreg b + mo) (rep * bn) bn ++
        (if scaled then regsTouched (bitsAt (p 5) 0 9 + mo) (16 * (rep / block)) mDim else []) ++
        (if scaled && fb != 13 then regsTouched (bitsAt (p 5) 16 9 + mo) (32 * (rep / block)) nDim else [])
    else []
  let drain := bMop b == 3 && rep == 0
  let dregs := (List.range (drainCycles mode (bBreg b))).map fun j => (j, (bAreg b + mo + j) % 512)
  let limbsIn := macAcc mode == accEXACT && bBreg b % 4 == 2
  let v := bVop b
  let vreads := if v = 0 then [] else
    [(bVs1 b + vo) % 512] ++ (if readsVs2 v then [(bVs2 b + vo) % 512] else []) ++ (if readsVs3 v then [bVs3 b] else [])
  let vwrites := if v = 0 then [] else
    (List.range (if v = 0x35 then 2 else 1)).map fun i => (vecLatency v - 1, (bVd b + vo + i) % 512)
  let word := bMaddr b + (if bMiter b then iter * bitsAt (p 2) 0 14 else 0) + (if bMrep b then rep * bitsAt (p 3) 0 14 else 0)
  let mem : Demand := match bMmop b with
    | 1 => { writes := [bMreg b], banks := (List.range (bLen b + 1)).map fun i => (word + i) % 16 }
    | 2 => { reads := [bMreg b], banks := (List.range (bLen b + 1)).map fun i => (word + i) % 16 }
    | _ => {}
  let own : Demand := { reads := macReads ++ vreads, laterWrites := (if drain && !limbsIn then dregs else []) ++ vwrites,
                        laterReads := if drain && limbsIn then dregs else [] }
  ((activeIn routes b).map fun k => routeDemand (routes.getD k 0)).foldl Demand.join (own.join mem)

/-- What the check carries from cycle to cycle: results still to land, by absolute cycle, the last MAC and the end of the
drain of each set, and how long the program has used each tile-store bank without a pause. -/
structure Sched where
  cycle : Nat := 0
  writes : List (Nat × Nat) := []
  reads : List (Nat × Nat) := []
  lastMac : Tbl Nat := []
  drainEnd : Tbl Nat := []
  runs : Tbl Nat := []
deriving DecidableEq, Repr

/-- One cycle: the failure's code, or the next state of the check. Cycles are counted from 8 on, so that 0 is never. -/
def Sched.step (s : Sched) (params routes : List Nat) (b iter rep : Nat) : Except Nat Sched :=
  let mode : W32 := BitVec.ofNat 32 (params.getD 0 0)
  let c := s.cycle + 8
  let set := setOf mode (bAset b)
  let mac := bMop b == 1 || bMop b == 2
  let d := bundleDemand params routes b iter rep
  let ws := s.writes ++ d.laterWrites.map fun e => (c + e.1, e.2)
  let rs := s.reads ++ d.laterReads.map fun e => (c + e.1, e.2)
  let due (l : List (Nat × Nat)) : List Nat := (l.filter fun e => e.1 == c).map Prod.snd
  let all : Demand := { d with reads := d.reads ++ due rs, writes := d.writes ++ due ws }
  let runs := (List.range 16).map fun k => if d.banks.contains k then Tbl.look 0 s.runs k + 1 else 0
  if mac && decide (c < Tbl.look 0 s.drainEnd set) then .error 4
  else if bMop b == 3 && rep == 0 && Tbl.look 0 s.lastMac set != 0 && decide (c < Tbl.look 0 s.lastMac set + 4) then .error 4
  else if !all.fits || runs.any (fun n => decide (8 ≤ n)) then .error 6
  else
    .ok { cycle := s.cycle + 1, writes := ws.filter (fun e => decide (c < e.1)), reads := rs.filter (fun e => decide (c < e.1)),
          lastMac := if mac then Tbl.put 0 s.lastMac set c else s.lastMac,
          drainEnd := if bMop b = 3 ∧ rep = 0 then
              Tbl.upd 0 s.drainEnd set (max (c + drainCycles mode (bBreg b))) else s.drainEnd,
          runs := runs.zipIdx.foldl (fun t e => Tbl.put 0 t e.2 e.1) [] }

/-- After the last bundle the results that are left land beside the standing routes. -/
def Sched.tail (s : Sched) (standing : Demand) : Bool :=
  (List.range 130).all fun i =>
    let due (l : List (Nat × Nat)) : List Nat := (l.filter fun e => e.1 == s.cycle + 8 + i).map Prod.snd
    ({ standing with reads := standing.reads ++ due s.reads, writes := standing.writes ++ due s.writes } : Demand).fits

/-- Runs a path of bundles for some iterations. -/
def schedPath (params routes bundles path : List Nat) (iters : Nat) : Except (Nat × Nat) Sched :=
  (List.range iters).foldlM (fun s iter => path.foldlM (fun s i =>
    let b := bundles.getD i 0
    (List.range (bRepeat b + 1)).foldlM (fun (s : Sched) rep => match s.step params routes b iter rep with
      | .ok x => .ok x
      | .error e => .error (e, i)) s) s) {}

/-- The bundles from an entry to its END, or to bundle 239. -/
def pathFrom (bundles : List Nat) (entry : Nat) : List Nat :=
  let n := ((bundles.drop entry).findIdx? bEnd).getD (239 - entry)
  (List.range (n + 1)).map (entry + ·)

/-- Iterations after which every residue of the offsets has met every result in flight: the residues repeat with a period
of at most 4 and 16, and nothing lands more than 128 cycles later. -/
def schedIters (params bundles path : List Nat) : Nat :=
  let period := Nat.lcm (4 / Nat.gcd (bitsAt (params.getD 4 0) 0 9) 4) (16 / Nat.gcd (bitsAt (params.getD 2 0) 0 14) 16)
  let length := path.foldl (fun n i => n + bRepeat (bundles.getD i 0) + 1) 0
  if path.getLast?.any fun i => bEnd (bundles.getD i 0) then period * (130 / max 1 length + 2) else 1

/-- The first bundle at which a tile program breaks a schedule rule, with the code. -/
def schedTile (params routes bundles : List Nat) : Option (Nat × Nat) :=
  let standing := (routes.filter routeStanding).map routeDemand |>.foldl Demand.join {}
  if !standing.fits then some (6, 0)
  else (List.range 240).findSome? fun e =>
    let path := pathFrom bundles e
    match schedPath params routes bundles path (schedIters params bundles path) with
    | .error (code, i) => some (code, i)
    | .ok s => if s.tail standing then none else some (6, path.getLastD e)

def checkSchedules (img : Image) (tiles swch : Section) : Option LoadResult :=
  (List.range 1024).findSome? fun t =>
    let at' := tiles.off + 4096 * t
    let params := (List.range 7).map fun i => field img (at' + 4 * i) 4
    (schedTile params (tileRoutes img swch t) (tileBundles img tiles t)).map fun (code, i) =>
      refuse code tiles.ix t i (at' + 256 + 16 * i)

/-! ## Descriptors, sequencer code, initial memory (R73, R128, R129, R131) -/

/-- The offset of the field of a descriptor that breaks a rule. -/
def descBad (d count : Nat) : Option Nat :=
  let rules : List (Nat × Bool) := [(0x00, dFab d % 64 == 0), (0x08, bitsAt d 64 6 == 0), (0x10, bitsAt d 128 6 == 0),
    (0x14, decide (1 ≤ dCells d ∧ dCells d ≤ 1024)), (0x16, decide (1 ≤ dRows d ∧ dRows d ≤ 4096)),
    (0x18, bitsAt d 192 6 == 0 && bitsAt d 221 3 == 0), (0x1C, bitsAt d 224 6 == 0), (0x20, bitsAt d 256 6 == 0),
    (0x24, dIters d != 0 || !dBranch d),
    (0x28, decide (1 ≤ dClass d ∧ dClass d ≤ 2 ∧ 1 ≤ dDepth d ∧ dDepth d ≤ 16 ∧ dBufs d ≤ 16) && bitsAt d 335 17 == 0),
    (0x2C, dNext d == 0xFFFF || decide (dNext d < count)), (0x2E, !dBranch d || dAlt d == 0xFFFF || decide (dAlt d < count)),
    (0x30, bitsAt d 384 128 == 0)]
  (rules.find? fun r => !r.2).map Prod.fst

def checkLdl (img : Image) (x : Section) : Option LoadResult :=
  let no (item b : Nat) : LoadResult := refuse 7 x.ix item noItem b
  let count := field img x.off 4
  firstBroken ([need (decide (64 ≤ x.size)) (no noItem (76 + 16 * x.ix)),
    need (decide (1 ≤ count ∧ count ≤ 512)) (no noItem x.off), res0 img (x.off + 4) 60 7 x.ix noItem,
    need (x.size == 64 + 64 * count) (no noItem (76 + 16 * x.ix))] ++
    (List.range (min count 512)).map fun i => (descBad (field img (x.off + 64 + 64 * i) 64) count).map fun b =>
      no i (x.off + 64 + 64 * i + b))

def checkSeq (img : Image) (x : Section) : Option LoadResult :=
  let no (b : Nat) : LoadResult := refuse 8 x.ix noItem noItem b
  let entry := field img x.off 8
  let lo := field img (x.off + 16) 4
  let n := field img (x.off + 20) 4
  firstBroken [need (decide (64 ≤ x.size)) (no (76 + 16 * x.ix)), res0 img (x.off + 24) 40 8 x.ix noItem,
    need (n % 64 == 0 && decide (64 ≤ n ∧ n ≤ 262144)) (no (x.off + 20)), need (x.size == 64 + n) (no (76 + 16 * x.ix)),
    need (lo % 64 == 0 && decide (lo + n ≤ 262144)) (no (x.off + 16)),
    need (entry % 2 == 0 && decide (0xFFFFFFFFFFFC0000 + lo ≤ entry ∧ entry < 0xFFFFFFFFFFFC0000 + lo + n)) (no x.off)]

/-- A record of MEM: its tile, offset in the window, length, and where its data lies or its pattern. -/
structure MemRec where
  tile : Nat
  off : Nat
  len : Nat
  fill : Bool
  pattern : Nat
  data : Nat
deriving DecidableEq, Repr

/-- The records of a MEM section, up to the first that breaks a rule, whose result comes with them (R131). -/
def memRecords (img : Image) (x tiles : Section) : Nat → Nat → Nat → List MemRec → List MemRec × Option LoadResult
  | 0, _, at', done => (done, need (at' == x.off + x.size) (refuse 9 x.ix noItem noItem (76 + 16 * x.ix)))
  | n + 1, k, at', done =>
    let no (b : Nat) : LoadResult := refuse 9 x.ix k noItem b
    let t := field img at' 2
    let fl := field img (at' + 2) 2
    let off := field img (at' + 4) 4
    let len := field img (at' + 8) 4
    let pat := field img (at' + 12) 4
    let fill := bitAt fl 0
    let size := bitsAt (field img (tiles.off + 4096 * t + 4) 4) 4 5 * 0x8000
    let bad := firstBroken [need (decide (at' + 16 ≤ x.off + x.size)) (no at'), need (decide (t < 1024)) (no at'),
      need (decide (fl < 2)) (no (at' + 2)), need (fill || pat == 0) (no (at' + 12)), need (off % 32 == 0) (no (at' + 4)),
      need (len % 32 == 0 && decide (32 ≤ len)) (no (at' + 8)), need (decide (off + len ≤ size)) (no (at' + 4)),
      need (!(done.any fun r => r.tile == t && decide (r.off < off + len ∧ off < r.off + r.len))) (no (at' + 4)),
      need (fill || decide (at' + 16 + len ≤ x.off + x.size)) (no (at' + 8))]
    match bad with
    | some r => (done, some r)
    | none => memRecords img x tiles n (k + 1) (at' + 16 + if fill then 0 else len)
        (done ++ [{ tile := t, off := off, len := len, fill := fill, pattern := pat, data := at' + 16 }])

/-- Records that a section of its size can hold. -/
def memCount (img : Image) (x : Section) : Nat := min (field img x.off 4) (x.size / 16 + 1)

def checkMem (img : Image) (x tiles : Section) : Option LoadResult :=
  firstBroken [need (decide (64 ≤ x.size)) (refuse 9 x.ix noItem noItem (76 + 16 * x.ix)), res0 img (x.off + 4) 60 9 x.ix noItem,
    (memRecords img x tiles (memCount img x) 0 (x.off + 64) []).2]

/-! ## FLEX, SEPW and GALS (R132, R133, R240, R288) -/

def flexPlanAt (img : Image) (at' : Nat) : FlexPlan :=
  { trigger := BitVec.ofNat 12 (field img at' 2), isDefault := bitAt (field img (at' + 2) 2) 0,
    count := (List.range 16).map fun j => field img (at' + 8 + j) 1 }

def checkFlex (img : Image) (x : Section) : Option LoadResult :=
  let no (item b : Nat) : LoadResult := refuse 11 x.ix item noItem b
  let n := field img x.off 4
  let rec' (k : Nat) : Option LoadResult :=
    let a := x.off + 8 + 128 * k
    let p := flexPlanAt img a
    let early := (List.range k).map fun i => (flexPlanAt img (x.off + 8 + 128 * i)).trigger
    let countOk := if p.isDefault then p.count.all (· == 0)
      else p.count.getD 0 1 == 0 && (p.count.drop 1).all (fun c => decide (1 ≤ c)) && decide (p.count.foldl (· + ·) 0 ≤ 64)
    firstBroken [need (field img a 2 < 4096 && !early.contains p.trigger) (no k a),
      need (decide (field img (a + 2) 2 < 2)) (no k (a + 2)), res0 img (a + 4) 4 11 x.ix k, need countOk (no k (a + 8)),
      res0 img (a + 24) 104 11 x.ix k]
  firstBroken ([need (decide (8 ≤ x.size)) (no noItem (76 + 16 * x.ix)), need (decide (1 ≤ n ∧ n ≤ 16)) (no noItem x.off),
    need (x.size == 8 + 128 * n) (no noItem (76 + 16 * x.ix)), res0 img (x.off + 4) 4 11 x.ix noItem] ++
    (List.range (min n 16)).map rec')

def sepMatrixAt (img : Image) (at' : Nat) : SepMatrix :=
  { id := BitVec.ofNat 32 (field img at' 4), codes := (List.range 4096).map fun i => img.getD (at' + 8 + i) 0 }

def checkSepw (img : Image) (x : Section) : Option LoadResult :=
  let no (item b : Nat) : LoadResult := refuse 12 x.ix item noItem b
  let n := field img x.off 4
  let rec' (k : Nat) : Option LoadResult :=
    let a := x.off + 8 + 4104 * k
    let early := (List.range k).map fun i => field img (x.off + 8 + 4104 * i) 4
    firstBroken [need (!early.contains (field img a 4)) (no k a), res0 img (a + 4) 4 12 x.ix k,
      ((List.range 4096).find? fun i => decide (64 ≤ field img (a + 8 + i) 1)).map fun i => no k (a + 8 + i)]
  firstBroken ([need (decide (8 ≤ x.size)) (no noItem (76 + 16 * x.ix)), need (decide (1 ≤ n ∧ n ≤ 8)) (no noItem x.off),
    need (x.size == 8 + 4104 * n) (no noItem (76 + 16 * x.ix)), res0 img (x.off + 4) 4 12 x.ix noItem] ++
    (List.range (min n 8)).map rec')

def checkGals (img : Image) (x : Section) : Option LoadResult :=
  firstBroken [need (x.size == 64) (refuse 13 x.ix noItem noItem (76 + 16 * x.ix)),
    need (decide (field img x.off 4 < 2)) (refuse 13 x.ix noItem noItem x.off), res0 img (x.off + 8) 56 13 x.ix noItem]

/-- Whether an image runs in GALS mode (R133). -/
def galsOn (img : Image) : Bool := (sectionOf img typeGALS).any fun x => bitAt (field img x.off 4) 0

/-! ## The whole image (R136) -/

def checkImage (img : Image) : Option LoadResult :=
  let opt (kind : Nat) (f : Section → Option LoadResult) : Option LoadResult := (sectionOf img kind).bind f
  match checkHeader img with
  | some r => some r
  | none =>
    match checkDirectory img with
    | some r => some r
    | none =>
      match sectionOf img typeTILE, sectionOf img typeSWCH, sectionOf img typeMEAS with
      | some t, some w, some m =>
        (checkMeasure img m).orElse fun _ => (checkTiles img t).orElse fun _ => (checkRoutes img w t).orElse fun _ =>
        (checkSchedules img t w).orElse fun _ => (opt typeLDL (checkLdl img)).orElse fun _ =>
        (opt typeSEQ (checkSeq img)).orElse fun _ => (opt typeMEM fun x => checkMem img x t).orElse fun _ =>
        (opt typeFLEX (checkFlex img)).orElse fun _ => (opt typeSEPW (checkSepw img)).orElse fun _ =>
        (opt typeGALS (checkGals img)).orElse fun _ => if galsOn img then checkPhases img w else none
      | _, _, _ => some (refuse 2 255 noItem noItem 8)

/-! ## Windows (R137) -/

/-- Descriptor i of an image with its TS relocated by S units, mod 2^19 within its tile. -/
def relocated (img : Image) (x : Section) (s i : Nat) : Nat :=
  let d := field img (x.off + 64 + 64 * i) 64
  withBits d 192 19 (bitsAt d 192 19 + s * 0x8000)

/-- WINDOW for one target: window base and size of every tile of the culture in the other plane come from `other`. -/
def checkWindows (img : Image) (s : Nat) (other : Nat → Nat × Nat) : Option LoadResult :=
  match sectionOf img typeTILE, sectionOf img typeLDL with
  | some t, some l =>
    let win (i : Nat) : Nat × Nat :=
      let w := field img (t.off + 4096 * i + 4) 4
      (bitsAt w 0 4 + s, bitsAt w 4 5)
    let tile (i : Nat) : Option LoadResult :=
      let (b, n) := win i
      let (ob, on) := other i
      need (decide (b + n ≤ 16) && !(decide (ob < b + n ∧ b < ob + on))) (refuse 10 t.ix i noItem (t.off + 4096 * i + 4))
    let desc (i : Nat) : Option LoadResult :=
      let no : LoadResult := refuse 10 l.ix i noItem (l.off + 64 + 64 * i + 0x18)
      let raw := field img (l.off + 64 + 64 * i) 64
      let d := relocated img l s i
      let rowIn (a : Int) : Bool :=
        let tl := (a / 0x80000).toNat
        let o := (a % 0x80000).toNat
        let (b, n) := win tl
        decide (0 ≤ a ∧ a < 0x20000000) && decide (b * 0x8000 ≤ o ∧ o + 64 * dCells d ≤ (b + n) * 0x8000)
      firstBroken [need (decide (bitsAt raw 192 19 + s * 0x8000 < 0x80000)) no,
        need ((List.range (dBufs d)).all fun k => (List.range (dRows d)).all fun r =>
          rowIn ((dTs d : Int) + k * dTsIterStep d + r * dTsRowStep d)) no]
    ((List.range 1024).findSome? tile).orElse fun _ => (List.range (field img l.off 4)).findSome? desc
  | _, _ => none

end Sys2Proof.Machine
end

