-- ==== Sys2Proof/Machine/Sequencer.lean ====
section
/-! DEFINITION. The sequencer's instructions: group control, ladle control, fences, memory accesses and CSRs
(R61, R68 to R72, R79, R542, R543). Each operation takes the length of its encoding. -/

namespace Sys2Proof.Machine

/-! ## Common parts -/

/-- The sequencer of vat v issues: its vat runs, its context runs and may issue, and no instruction blocks. -/
def State.seqReady (s : State) (v : Nat) : Bool :=
  let p := s.plane (s.activePlane v)
  (s.vat v).run == .run && p.issuing && p.blocked.isNone && p.ctx.any fun c => (s.ctx c).state.runs

/-- No register of a list waits for an outstanding access (R69). -/
def State.regsFree (s : State) (p : Nat) (rs : List RegNo) : Bool := rs.all fun r => !(s.plane p).busy.getLsbD r.toNat

/-- Runs an instruction on the active plane where the sequencer may issue and its registers are there. -/
def State.seqDo (s : State) (v : Nat) (rs : List RegNo) (f : State → Nat → State) : State :=
  let p := s.activePlane v
  if s.seqReady v && s.regsFree p rs then (f s p).finish else s

/-- An instruction of some length retires. -/
def State.retireSeq (s : State) (p len : Nat) : State :=
  s.onPlane p fun x => { x with pc := x.pc + BitVec.ofNat 64 len, minstret := bump x.minstret }

/-- It retires with a result. -/
def State.retireWith (s : State) (p len : Nat) (rd : RegNo) (x : W64) : State :=
  (s.onPlane p fun y => y.setX rd x).retireSeq p len

def State.x (s : State) (p : Nat) (r : RegNo) : W64 := (s.plane p).getX r

def State.block (s : State) (p : Nat) (b : Blocked) : State := s.onPlane p fun x => { x with blocked := some b }

def State.unblock (s : State) (p : Nat) : State := s.onPlane p fun x => { x with blocked := none }

/-! ## Tile groups (R61, R71) -/

def State.group (s : State) (p h : Nat) : Group := Tbl.look {} (s.plane p).groups h

/-- A handle that no TGRP has defined has no rows. -/
def Group.defined (g : Group) : Bool := g.rows != 0

/-- Tiles of a rectangle, row by row. -/
def Group.tiles (g : Group) : List Nat :=
  (List.range g.rows).flatMap fun r => (List.range g.cols).map fun c => 32 * (g.row + r) + g.col + c

def Tile.running (x : Tile) : Bool := x.busy || x.startAt.isSome

/-- The handle under which a tile runs or is about to. -/
def Tile.handleNow (x : Tile) : Nat :=
  match x.startAt with
  | some (h, _, _, _) => h
  | none => x.handle

/-- No tile runs under handle h. -/
def State.groupIdle (s : State) (v h : Nat) : Bool :=
  !(s.tiles.any fun (k, x) => k / 1024 == v && x.running && x.handleNow == h)

def State.tilesIdle (s : State) (v : Nat) (ts : List Nat) : Bool := ts.all fun t => !(s.tile v t).running

def State.seqTgrp (s : State) (p len : Nat) (rd rs1 rs2 : RegNo) : State :=
  let a := (s.x p rs1).toNat
  let h := bitsAt (s.x p rs2).toNat 0 4
  let g : Group := { row := bitsAt a 0 6, col := bitsAt a 8 6, rows := bitsAt a 16 6, cols := bitsAt a 24 6 }
  if g.rows = 0 ∨ g.cols = 0 ∨ 32 < g.row + g.rows ∨ 32 < g.col + g.cols then s.retireWith p len rd (-1)
  else if !s.groupIdle (p / 2) h then s.retireWith p len rd (-2)
  else (s.onPlane p fun x => { x with groups := Tbl.put {} x.groups h g }).retireWith p len rd 0

def execTgrp (v : VatId) (rd rs1 rs2 : RegNo) (s : State) : Host.Outcome State Fault Refusal :=
  .next (s.seqDo v.val [rd, rs1, rs2] fun a p => a.seqTgrp p 4 rd rs1 rs2)

def State.seqTrun (s : State) (p : Nat) (rs1 rs2 : RegNo) : State :=
  let a := (s.x p rs1).toNat
  let h := bitsAt a 0 4
  if !(s.group p h).defined then s.trap p 29 (BitVec.ofNat 64 h)
  else s.block p (.trun h (bitsAt a 8 8) ((s.x p rs2).truncate 32))

def execTrun (v : VatId) (rs1 rs2 : RegNo) (s : State) : Host.Outcome State Fault Refusal :=
  .next (s.seqDo v.val [rs1, rs2] fun a p => a.seqTrun p rs1 rs2)

/-- Peak current of a tile's program in mA, at most the tile's share of the vat's full scale (R407). -/
def State.tilePeak (s : State) (p t : Nat) : Nat :=
  min 250 (Config.programPeak (s.param p t 0) ((List.range 240).map fun i => BitVec.ofNat 128 (s.bundleAt p t i)))

/-- Cycles for which the ramp governor holds a TRUN that adds some current to a vat with some ballast (R407, R409). -/
def rampHoldCycles (need ballast : Nat) : Nat := if need ≤ ballast + 32000 then 0 else ceilDiv (need - ballast) 125

/-- The vat cycle of the latest tile, or of the clock if that is later. -/
def State.tileClock (s : State) (v : Nat) : Nat :=
  s.tiles.foldl (fun m (k, x) => if k / 1024 = v ∧ x.running then max m x.cycle else m) (s.vat v).cycles.toNat

/-- Cycles from a TRUN's retirement to the arrival of its start command (R61, R154). -/
def startDelay (gals : Bool) (t : Nat) : Nat :=
  if gals then 4 + t / 32 % 4 + t % 32 % 4 else 4 + t / 32 + t % 32

/-- A blocked TRUN whose rectangle is idle retires and sends the start command, after the governor's hold (R61, R409). A
count of 0 starts nothing. -/
def State.trunRetire (s : State) (v : Nat) : State :=
  let p := s.activePlane v
  match (s.plane p).blocked with
  | some (.trun h entry count) =>
    let ts := (s.group p h).tiles
    if !s.tilesIdle v ts then s
    else
      let s1 := (s.unblock p).retireSeq p 4
      if count = 0 then s1
      else
        let peaks := ts.map fun t => (t, s.tilePeak p t)
        let need : Nat := peaks.foldl (fun a e => a + e.2) 0
        let ballast := (s.vat v).ballast
        let hold := rampHoldCycles need ballast
        let base := s.tileClock v + hold
        let start (a : State) (e : Nat × Nat) : State := a.onTile v e.1 fun x =>
          { x with startAt := some (h, entry, count.toNat, base + startDelay (s.plane p).gals e.1), peakMa := e.2 }
        let s2 := (peaks.foldl start s1).onVat v fun x =>
          { x with ballast := (if hold = 0 then ballast else max ballast need) - need, rampHold := bump x.rampHold hold }
        s2.onPlane p fun x => { x with newFlags := bvSet x.newFlags h false }
  | _ => s

def execTrunRetire (v : VatId) (s : State) : Host.Outcome State Fault Refusal := .next (s.trunRetire v.val)

/-- TWAIT returns when its group is idle: bit 0 is set if a tile flag was newly set since its TRUN (R121). -/
def State.twaitDone (s : State) (p h : Nat) (rd : RegNo) : State :=
  if s.groupIdle (p / 2) h then
    (s.unblock p).retireWith p 4 rd (if (s.plane p).newFlags.getLsbD h then 1 else 0)
  else s

def State.seqTwait (s : State) (p : Nat) (rd rs1 : RegNo) : State :=
  let h := bitsAt (s.x p rs1).toNat 0 4
  if !(s.group p h).defined then s.trap p 29 (BitVec.ofNat 64 h)
  else (s.block p (.twait h rd)).twaitDone p h rd

def execTwait (v : VatId) (rd rs1 : RegNo) (s : State) : Host.Outcome State Fault Refusal :=
  .next (s.seqDo v.val [rd, rs1] fun a p => a.seqTwait p rd rs1)

def execTwaitComplete (v : VatId) (s : State) : Host.Outcome State Fault Refusal :=
  let p := s.activePlane v.val
  .next (match (s.plane p).blocked with
    | some (.twait h rd) => s.twaitDone p h rd
    | _ => s)

/-- TILE_STATUS (R84). -/
def Tile.status (x : Tile) : Nat :=
  packBits [(0, 8, x.bundle), (8, 1, x.running.toNat), (9, 1, x.phOvr.toNat), (16, 6, x.ctx.toNat)]

def State.seqTstat (s : State) (p len : Nat) (rd rs1 : RegNo) : State :=
  s.retireWith p len rd (BitVec.ofNat 64 (s.tile (p / 2) (bitsAt (s.x p rs1).toNat 0 10)).status)

def execTstat (v : VatId) (rd rs1 : RegNo) (s : State) : Host.Outcome State Fault Refusal :=
  .next (s.seqDo v.val [rd, rs1] fun a p => a.seqTstat p 4 rd rs1)

/-! ## Ladle control (R71, R76 to R78) -/

def State.seqLdlgo (s : State) (p len : Nat) (rs1 rs2 : RegNo) : State :=
  let k := bitsAt (s.x p rs1).toNat 0 3
  let d := bitsAt (s.x p rs2).toNat 0 9
  if !((s.plane p).ladle k).idle (s.descOf p) then s.trap p 24 (BitVec.ofNat 64 k)
  else if (s.plane p).descCount ≤ d then s.trap p 26 (BitVec.ofNat 64 d)
  else (s.onPlane p fun x => x.onLadle k fun l => l.go d).retireSeq p len

def execLdlgo (v : VatId) (rs1 rs2 : RegNo) (s : State) : Host.Outcome State Fault Refusal :=
  .next (s.seqDo v.val [rs1, rs2] fun a p => a.seqLdlgo p 4 rs1 rs2)

/-- One evaluation of LDLTAKE: it returns, traps, releases a store iteration or waits. A consumed failure writes the
record of its cause (R226). -/
def State.takeStep (s : State) (p k : Nat) (rd : RegNo) : State :=
  let desc := s.descOf p
  match ((s.plane p).ladle k).take desc with
  | .returns x =>
    let taken := ((s.plane p).ladle k).iters.find? fun i => !i.store && i.n == ((s.plane p).ladle k).taken
    let s1 := match taken with
      | some i => if x = -1 then s else
        (s.onPlane p fun y => y.onLadle k fun l =>
          { l with taken := l.taken + 1, iters := l.iters.filter fun j => j.store || j.n != i.n }).noteDelayed p k i.worst
      | none => s
    (s1.unblock p).retireWith p 4 rd x
  | .waits => s.block p (.ldltake k rd false)
  | .traps cause (some i) =>
    let s1 := s.onPlane p fun y => y.onLadle k fun l =>
      { l with taken := l.taken + 1, iters := l.iters.filter fun j => j.store || j.n != i.n }
    s1.trap p cause i.badAddr i.worst.record (failDetails i.badAddr i.badTag (unitVat (p / 2)) i.worst)
  | .traps cause none => s.trap p cause (BitVec.ofNat 64 k)
  | .releases d =>
    let s1 := s.onPlane p fun y => y.onLadle k fun l => { (l.begin desc d) with taken := l.taken + 1 }
    let s2 := match ((s1.plane p).ladle k).partial' desc with
      | some it => s1.issueIter p k it
      | none => s1
    s2.block p (.ldltake k rd true)

def State.seqLdltake (s : State) (p : Nat) (rd rs1 : RegNo) : State := s.takeStep p (bitsAt (s.x p rs1).toNat 0 3) rd

def execLdltake (v : VatId) (rd rs1 : RegNo) (s : State) : Host.Outcome State Fault Refusal :=
  .next (s.seqDo v.val [rd, rs1] fun a p => a.seqLdltake p rd rs1)

/-- What LDLTAKE waits for has come: it goes on where the plane is active. -/
def State.ldltakeAgain (s : State) (v : Nat) : State :=
  let p := s.activePlane v
  match (s.plane p).blocked with
  | some (.ldltake k rd false) => (s.takeStep p k rd).finish
  | some (.ldltake k rd true) =>
    if ((s.plane p).ladle k).readOut (s.descOf p) then (s.unblock p).retireWith p 4 rd 0 else s
  | _ => s

def execLdltakeComplete (v : VatId) (s : State) : Host.Outcome State Fault Refusal := .next (s.ldltakeAgain v.val)

def State.seqLdlres (s : State) (p len : Nat) (rs1 rs2 : RegNo) : State :=
  (s.ladleResolve p (bitsAt (s.x p rs1).toNat 0 3) (bitAt (s.x p rs2).toNat 0)).retireSeq p len

def execLdlres (v : VatId) (rs1 rs2 : RegNo) (s : State) : Host.Outcome State Fault Refusal :=
  .next (s.seqDo v.val [rs1, rs2] fun a p => a.seqLdlres p 4 rs1 rs2)

def State.seqLdlstop (s : State) (p len : Nat) (rs1 : RegNo) : State :=
  let k := bitsAt (s.x p rs1).toNat 0 3
  ((s.squashLadle p k).onPlane p fun x => x.onLadle k fun l => l.stop (s.descOf p)).retireSeq p len

def execLdlstop (v : VatId) (rs1 : RegNo) (s : State) : Host.Outcome State Fault Refusal :=
  .next (s.seqDo v.val [rs1] fun a p => a.seqLdlstop p 4 rs1)

/-! ## Fences (R70, R79) -/

/-- A non-speculative operation of a unit in the mask: ladle k at bit k, the sequencer at bit 8. Loads of taken iterations
have completed. -/
def fenced (v : Nat) (plane : Bool) (mask : BitVec 9) (o : Op) : Bool :=
  match o.issuer with
  | .seqLoad w b _ _ _ _ => w == v && b == plane && mask.getLsbD 8
  | .seqStore w b => w == v && b == plane && mask.getLsbD 8
  | .seqAtom w b _ _ => w == v && b == plane && mask.getLsbD 8
  | .ladleStore w b k _ => w == v && b == plane && mask.getLsbD k
  | _ => false

/-- A flex request of context c that has not completed: an operation of its sequencer (R242). -/
def State.flexOpen (s : State) (c : Nat) : Bool :=
  s.churn.pending.any (fun r => r.ctx == c) || s.churn.sent.any (fun r => r.ctx == c) || s.churn.retunes.any (fun r => r.req.ctx == c)

/-- FFENCE returns once nothing that it waits for is outstanding: 1 if a completion since the units' last fence was
OK_DELAYED. -/
def State.fenceDone (s : State) (p : Nat) (mask : BitVec 9) (rd : RegNo) : State :=
  let b := p % 2 == 1
  let stores := (List.range 8).any fun k => mask.getLsbD k &&
    ((s.plane p).ladle k).iters.any fun i => i.store && i.cellsLeft != 0
  let flex := mask.getLsbD 8 && (s.plane p).ctx.any s.flexOpen
  if s.fab.ops.any (fenced (p / 2) b mask) || stores || flex then s
  else
    let hit := (s.plane p).delayed &&& mask != 0
    ((s.unblock p).onPlane p fun x => { x with delayed := x.delayed &&& ~~~mask }).retireWith p 4 rd (if hit then 1 else 0)

def State.seqFfence (s : State) (p : Nat) (rd : RegNo) (mask : BitVec 9) : State :=
  (s.block p (.ffence mask rd)).fenceDone p mask rd

def execFfence (v : VatId) (rd rs1 : RegNo) (s : State) : Host.Outcome State Fault Refusal :=
  .next (s.seqDo v.val [rd, rs1] fun a p => a.seqFfence p rd ((a.x p rs1).truncate 9))

def execFence (v : VatId) (s : State) : Host.Outcome State Fault Refusal :=
  .next (s.seqDo v.val [] fun a p => a.seqFfence p 0 0x100)

def execFfenceComplete (v : VatId) (s : State) : Host.Outcome State Fault Refusal :=
  let p := s.activePlane v.val
  .next (match (s.plane p).blocked with
    | some (.ffence mask rd) => s.fenceDone p mask rd
    | _ => s)

def State.seqBoundary (s : State) (p : Nat) (id : BitVec 12) : State := s.block p (.boundary id)

def execBoundary (v : VatId) (id : BitVec 12) (s : State) : Host.Outcome State Fault Refusal :=
  .next (s.seqDo v.val [] fun a p => a.seqBoundary p id)

/-! ## Memory accesses (R68 to R70, R543) -/

/-- Sequencer memory: the top 256 KiB of the address space. -/
def inSeqMem (a : W64) : Bool := decide (0xFFFFFFFFFFFC0000 ≤ a.toNat)

def Plane.memRead (p : Plane) (a n : Nat) : Nat := leNat ((List.range n).map fun i => Tbl.look 0 p.seqMem (a % 2 ^ 18 + i))

def Plane.memWrite (p : Plane) (a n x : Nat) : Plane :=
  { p with seqMem := (leBytes n x).zipIdx.foldl (fun m e => Tbl.put 0 m (a % 2 ^ 18 + e.2) e.1) p.seqMem }

/-- Outstanding loads of a sequencer, and its outstanding stores and atomics. -/
def State.seqLoads (s : State) (v : Nat) (b : Bool) : Nat :=
  (s.fab.ops.filter fun o => match o.issuer with
    | .seqLoad w c _ _ _ _ => w == v && c == b
    | _ => false).length

def State.seqStores (s : State) (v : Nat) (b : Bool) : Nat :=
  (s.fab.ops.filter fun o => match o.issuer with
    | .seqStore w c => w == v && c == b
    | .seqAtom w c _ _ => w == v && c == b
    | _ => false).length

def State.setBusy (s : State) (p : Nat) (rd : RegNo) : State :=
  if rd = 0 then s else s.onPlane p fun x => { x with busy := bvSet x.busy rd.toNat true }

/-- An access fails at its issuer: it retires and completes SOUR at once. -/
def State.seqFails (s : State) (p len : Nat) (cause : SourCause) (addr : W64) (isLoad : Bool) : State :=
  let st : Status := .sour cause
  ((s.retireSeq p len).countSour st).seqDone p st none 0 addr 0 isLoad

/-- A load of 2^size bytes (R69). It waits while 16 loads are outstanding. -/
def State.seqLoadOp (s : State) (p len : Nat) (rd rs1 : RegNo) (imm : BitVec 12) (size : BitVec 2) (zeroExt : Bool) : State :=
  let v := p / 2
  let b := p % 2 == 1
  let n := 2 ^ size.toNat
  let a := s.x p rs1 + imm.signExtend 64
  if a.toNat % n ≠ 0 then s.trap p 4 a
  else if inSeqMem a then s.retireWith p len rd (extendTo64 n zeroExt ((s.plane p).memRead a.toNat n))
  else if 16 ≤ s.seqLoads v b then s
  else
    let c := ((s.plane p).ctx).getD 0
    match s.translate c a.toNat rightR with
    | none => s.seqFails p len .segment a true
    | some fa =>
      let own := s.fab.pkgId.toNat
      let port := vatPort v
      let cell := fa / 64 * 64
      match s.sendOp port c (.seqLoad v b rd (fa % 64) n zeroExt) cell 1 fun dp q t => ldCells own dp q port 1 c t cell 1 with
      | (none, s1) => (s1.setBusy p rd).retireSeq p len
      | (some e, s1) => s1.seqFails p len e (BitVec.ofNat 64 fa) true

def execSeqLoad (v : VatId) (rd rs1 : RegNo) (imm : BitVec 12) (size : BitVec 2) (zeroExt : Bool) (s : State) :
    Host.Outcome State Fault Refusal :=
  .next (s.seqDo v.val [rd, rs1] fun a p => a.seqLoadOp p 4 rd rs1 imm size zeroExt)

/-- A store of 2^size bytes: a byte-masked partial store on a context address (R69). It waits while 64 stores and atomics
are outstanding. -/
def State.seqStoreOp (s : State) (p len : Nat) (rs1 rs2 : RegNo) (imm : BitVec 12) (size : BitVec 2) : State :=
  let v := p / 2
  let b := p % 2 == 1
  let n := 2 ^ size.toNat
  let a := s.x p rs1 + imm.signExtend 64
  let x := (s.x p rs2).toNat
  if a.toNat % n ≠ 0 then s.trap p 6 a
  else if inSeqMem a then (s.onPlane p fun y => y.memWrite a.toNat n x).retireSeq p len
  else if 64 ≤ s.seqStores v b then s
  else
    let c := ((s.plane p).ctx).getD 0
    match s.translate c a.toNat rightW with
    | none => s.seqFails p len .segment a false
    | some fa =>
      let own := s.fab.pkgId.toNat
      let port := vatPort v
      let cell := fa / 64 * 64
      let off := fa % 64
      let data := (((2 ^ n - 1) * 2 ^ off, BitVec.ofNat 512 (x % 2 ^ (8 * n) * 2 ^ (8 * off))) : Nat × BitVec 512)
      match s.sendOp port c (.seqStore v b) cell 1 fun dp q t => stCells own dp q port 1 c t cell [data] with
      | (none, s1) => s1.retireSeq p len
      | (some e, s1) => s1.seqFails p len e (BitVec.ofNat 64 fa) false

def execSeqStore (v : VatId) (rs1 rs2 : RegNo) (imm : BitVec 12) (size : BitVec 2) (s : State) : Host.Outcome State Fault Refusal :=
  .next (s.seqDo v.val [rs1, rs2] fun a p => a.seqStoreOp p 4 rs1 rs2 imm size)

/-- A fabric atomic of ASUB code k on a context address, or its arithmetic on sequencer memory by `new` (R70, R543). -/
def State.seqAtomic (s : State) (p len : Nat) (asub : Option Nat) (dbl : Bool) (rd rs1 : RegNo) (operand compare : Nat)
    (new : Nat → Nat) : State :=
  let v := p / 2
  let b := p % 2 == 1
  let n := if dbl then 8 else 4
  let a := s.x p rs1
  if a.toNat % n ≠ 0 then s.trap p 6 a
  else if inSeqMem a then
    let old := (s.plane p).memRead a.toNat n
    (s.onPlane p fun y => y.memWrite a.toNat n (new old)).retireWith p len rd (extendTo64 n false old)
  else match asub with
    | none => s.trap p 7 a
    | some k =>
      if 64 ≤ s.seqStores v b then s
      else
        let c := ((s.plane p).ctx).getD 0
        match s.translate c a.toNat rightA with
        | none => s.seqFails p len .segment a false
        | some fa =>
          let own := s.fab.pkgId.toNat
          let port := vatPort v
          let build (dp q t : Nat) : List Cell := atomCells own dp q port 1 c t fa k (operand % 2 ^ (8 * n)) compare
          match s.sendOp port c (.seqAtom v b rd dbl) fa 1 build with
          | (none, s1) => (s1.setBusy p rd).retireSeq p len
          | (some e, s1) => s1.seqFails p len e (BitVec.ofNat 64 fa) false

/-- The fabric atomic that a standard AMO becomes, if there is one (R70). -/
def amoAsub (op : AmoOp) (dbl : Bool) : Option Nat :=
  match op, dbl with
  | .add, false => some 0
  | .add, true => some 1
  | .swap, false => some 4
  | .swap, true => some 5
  | .min, false => some 7
  | .max, false => some 8
  | _, _ => none

/-- The RV64A operations on an n-byte old value and operand. -/
def amoNew (op : AmoOp) (n old x : Nat) : Nat :=
  let o := old % 2 ^ (8 * n)
  let y := x % 2 ^ (8 * n)
  match op with
  | .add => (o + y) % 2 ^ (8 * n)
  | .xor => o ^^^ y
  | .and => o &&& y
  | .or => o ||| y
  | .min => if signed (8 * n) y < signed (8 * n) o then y else o
  | .max => if signed (8 * n) o < signed (8 * n) y then y else o
  | .minu => min o y
  | .maxu => max o y
  | _ => y

/-- LR on sequencer memory (R70). -/
def State.seqLr (s : State) (p len : Nat) (dbl : Bool) (rd rs1 : RegNo) : State :=
  let n := if dbl then 8 else 4
  let a := s.x p rs1
  if a.toNat % n ≠ 0 then s.trap p 4 a
  else if !inSeqMem a then s.trap p 7 a
  else (s.onPlane p fun y => { y with resv := some (a, n) }).retireWith p len rd (extendTo64 n false ((s.plane p).memRead a.toNat n))

/-- SC on sequencer memory: it stores and returns 0 where the reservation covers it, and returns 1 otherwise. -/
def State.seqSc (s : State) (p len : Nat) (dbl : Bool) (rd rs1 rs2 : RegNo) : State :=
  let n := if dbl then 8 else 4
  let a := s.x p rs1
  if a.toNat % n ≠ 0 then s.trap p 6 a
  else if !inSeqMem a then s.trap p 7 a
  else if (s.plane p).resv = some (a, n) then
    (s.onPlane p fun y => { (y.memWrite a.toNat n (s.x p rs2).toNat) with resv := none }).retireWith p len rd 0
  else (s.onPlane p fun y => { y with resv := none }).retireWith p len rd 1

def State.seqAmoOp (s : State) (p len : Nat) (op : AmoOp) (dbl : Bool) (rd rs1 rs2 : RegNo) : State :=
  match op with
  | .lr => s.seqLr p len dbl rd rs1
  | .sc => s.seqSc p len dbl rd rs1 rs2
  | _ =>
    let x := (s.x p rs2).toNat
    s.seqAtomic p len (amoAsub op dbl) dbl rd rs1 x 0 fun old => amoNew op (if dbl then 8 else 4) old x

def execSeqAmo (v : VatId) (op : AmoOp) (dbl : Bool) (rd rs1 rs2 : RegNo) (s : State) : Host.Outcome State Fault Refusal :=
  .next (s.seqDo v.val [rd, rs1, rs2] fun a p => a.seqAmoOp p 4 op dbl rd rs1 rs2)

/-- A vendor atomic: fabric code k on either kind of address (R543). AMOCAS.D compares with rd. -/
def State.seqVendor (s : State) (p len k : Nat) (rd rs1 rs2 : RegNo) : State :=
  let x := (s.x p rs2).toNat
  let cmp := if k = 6 then (s.x p rd).toNat else 0
  s.seqAtomic p len (some k) (k == 6) rd rs1 x cmp fun old => atomNew k old (x % 2 ^ (8 * atomWidth k)) cmp

def execAmoaddF32 (v : VatId) (rd rs1 rs2 : RegNo) (s : State) : Host.Outcome State Fault Refusal :=
  .next (s.seqDo v.val [rd, rs1, rs2] fun a p => a.seqVendor p 4 2 rd rs1 rs2)

def execAmoaddBf2 (v : VatId) (rd rs1 rs2 : RegNo) (s : State) : Host.Outcome State Fault Refusal :=
  .next (s.seqDo v.val [rd, rs1, rs2] fun a p => a.seqVendor p 4 3 rd rs1 rs2)

def execAmominF32 (v : VatId) (rd rs1 rs2 : RegNo) (s : State) : Host.Outcome State Fault Refusal :=
  .next (s.seqDo v.val [rd, rs1, rs2] fun a p => a.seqVendor p 4 9 rd rs1 rs2)

def execAmomaxF32 (v : VatId) (rd rs1 rs2 : RegNo) (s : State) : Host.Outcome State Fault Refusal :=
  .next (s.seqDo v.val [rd, rs1, rs2] fun a p => a.seqVendor p 4 10 rd rs1 rs2)

def execAmocasD (v : VatId) (rd rs1 rs2 : RegNo) (s : State) : Host.Outcome State Fault Refusal :=
  .next (s.seqDo v.val [rd, rs1, rs2] fun a p => a.seqVendor p 4 6 rd rs1 rs2)

/-! ## CSRs (R542) -/

/-- The value of a CSR, none for one that is not listed. -/
def State.csrValue (s : State) (p csr : Nat) : Option W64 :=
  let v := p / 2
  let c := ((s.plane p).ctx).getD 0
  if csr = 0xCC0 then some (BitVec.ofNat 64 c)
  else if csr = 0xCC1 ∨ csr = 0xF14 then some (BitVec.ofNat 64 v)
  else if csr = 0xCC2 then some ((s.ctx c).seed &&& 0xFFFFFFFF)
  else if csr = 0xCC3 then some ((s.plane p).vbnd.zeroExtend 64)
  else if csr = 0xB00 ∨ csr = 0xC00 then some (s.vat v).cycles
  else if csr = 0xB02 ∨ csr = 0xC02 then some (s.plane p).minstret
  else if csr = 0xC01 then some s.clk.now
  else if csr = 0xF11 ∨ csr = 0xF12 ∨ csr = 0xF13 then some 0
  else if csr = 0x301 then some 0x8000000000001105
  else none

/-- The encoding of a CSR instruction. -/
def csrWord (op : CsrOp) (immForm : Bool) (csr : BitVec 12) (rd rs1 : RegNo) : Nat :=
  let f : Nat := match op with
    | .write => 1
    | .setBits => 2
    | .clearBits => 3
  packBits [(0, 7, 0x73), (7, 5, rd.toNat), (12, 3, f + (if immForm then 4 else 0)), (15, 5, rs1.toNat), (20, 12, csr.toNat)]

/-- mcycle and minstret discard what is written; a write to any other CSR, and any access to one not listed, is an
illegal instruction. -/
def State.seqCsr (s : State) (p len : Nat) (op : CsrOp) (immForm : Bool) (csr : BitVec 12) (rd rs1 : RegNo) : State :=
  let writes := op == .write || rs1 != 0
  match s.csrValue p csr.toNat with
  | none => s.trap p 2 (BitVec.ofNat 64 (csrWord op immForm csr rd rs1))
  | some x =>
    if writes && csr != 0xB00 && csr != 0xB02 then s.trap p 2 (BitVec.ofNat 64 (csrWord op immForm csr rd rs1))
    else s.retireWith p len rd x

def execCsrAccess (v : VatId) (op : CsrOp) (immForm : Bool) (csr : BitVec 12) (rd rs1 : RegNo) (s : State) :
    Host.Outcome State Fault Refusal :=
  .next (s.seqDo v.val (if immForm then [rd] else [rd, rs1]) fun a p => a.seqCsr p 4 op immForm csr rd rs1)

/-! ## ECALL and EBREAK (R72) -/

/-- ECALL with a0 = 0 ends the run: the sequencer issues no more, and the context is LOADED when its operations have
completed (R460). Any other a0 traps with cause 11. -/
def State.seqEcall (s : State) (p len : Nat) : State :=
  let a0 := s.x p 10
  if a0 = 0 then
    ((s.retireSeq p len).onPlane p fun x => { x with issuing := false }).onCtx (((s.plane p).ctx).getD 0) fun x =>
      { x with ending := true }
  else s.trap p 11 a0

def execEcall (v : VatId) (s : State) : Host.Outcome State Fault Refusal := .next (s.seqDo v.val [10] fun a p => a.seqEcall p 4)

def State.seqEbreak (s : State) (p : Nat) : State := s.trap p 3 (s.plane p).pc

def execEbreak (v : VatId) (s : State) : Host.Outcome State Fault Refusal := .next (s.seqDo v.val [] fun a p => a.seqEbreak p)

end Sys2Proof.Machine
end

