-- ==== Sys2Proof/Machine/Rv.lean ====
section
/-! DEFINITION. The base RV64IMAC instructions of the sequencer: fetch, compressed forms and execution (R68, R72, R543).
What each instruction computes is the RISC-V ISA's, to which R68 refers (log 30). -/

namespace Sys2Proof.Machine

/-! ## Fields of an encoding -/

def rvRd (w : Nat) : RegNo := BitVec.ofNat 5 (bitsAt w 7 5)
def rvRs1 (w : Nat) : RegNo := BitVec.ofNat 5 (bitsAt w 15 5)
def rvRs2 (w : Nat) : RegNo := BitVec.ofNat 5 (bitsAt w 20 5)
def rvF3 (w : Nat) : Nat := bitsAt w 12 3
def rvF7 (w : Nat) : Nat := bitsAt w 25 7
def rvImmI (w : Nat) : BitVec 12 := BitVec.ofNat 12 (bitsAt w 20 12)
def rvImmS (w : Nat) : BitVec 12 := BitVec.ofNat 12 (packBits [(0, 5, bitsAt w 7 5), (5, 7, bitsAt w 25 7)])
def rvImmB (w : Nat) : BitVec 13 :=
  BitVec.ofNat 13 (packBits [(1, 4, bitsAt w 8 4), (5, 6, bitsAt w 25 6), (11, 1, bitsAt w 7 1), (12, 1, bitsAt w 31 1)])
def rvImmU (w : Nat) : BitVec 32 := BitVec.ofNat 32 (bitsAt w 12 20 * 2 ^ 12)
def rvImmJ (w : Nat) : BitVec 21 :=
  BitVec.ofNat 21 (packBits [(1, 10, bitsAt w 21 10), (11, 1, bitsAt w 20 1), (12, 8, bitsAt w 12 8), (20, 1, bitsAt w 31 1)])

/-! ## Encodings, for the compressed forms -/

def encR (op rd f3 rs1 rs2 f7 : Nat) : Nat := packBits [(0, 7, op), (7, 5, rd), (12, 3, f3), (15, 5, rs1), (20, 5, rs2), (25, 7, f7)]
def encI (op rd f3 rs1 imm : Nat) : Nat := packBits [(0, 7, op), (7, 5, rd), (12, 3, f3), (15, 5, rs1), (20, 12, imm)]
def encS (op f3 rs1 rs2 imm : Nat) : Nat :=
  packBits [(0, 7, op), (7, 5, imm), (12, 3, f3), (15, 5, rs1), (20, 5, rs2), (25, 7, imm / 32)]
def encB (f3 rs1 rs2 imm : Nat) : Nat :=
  packBits [(0, 7, 0x63), (7, 1, bitsAt imm 11 1), (8, 4, bitsAt imm 1 4), (12, 3, f3), (15, 5, rs1), (20, 5, rs2),
    (25, 6, bitsAt imm 5 6), (31, 1, bitsAt imm 12 1)]
def encU (op rd imm20 : Nat) : Nat := packBits [(0, 7, op), (7, 5, rd), (12, 20, imm20)]
def encJ (rd imm : Nat) : Nat :=
  packBits [(0, 7, 0x6F), (7, 5, rd), (12, 8, bitsAt imm 12 8), (20, 1, bitsAt imm 11 1), (21, 10, bitsAt imm 1 10),
    (31, 1, bitsAt imm 20 1)]

/-- The n-bit field sign-extended to m bits. -/
def sext (n m x : Nat) : Nat := unsigned m (signed n x)

/-- The 32-bit instruction that a 16-bit encoding stands for; none for a reserved or floating-point one. -/
def expand (h : Nat) : Option Nat :=
  let f3 := bitsAt h 13 3
  let rd := bitsAt h 7 5
  let rs2 := bitsAt h 2 5
  let rdp := 8 + bitsAt h 2 3
  let rsp := 8 + bitsAt h 7 3
  let imm6 := packBits [(0, 5, bitsAt h 2 5), (5, 1, bitsAt h 12 1)]
  let imm12 := sext 6 12 imm6
  match bitsAt h 0 2, f3 with
  | 0, 0 =>
    let imm := packBits [(2, 1, bitsAt h 6 1), (3, 1, bitsAt h 5 1), (4, 2, bitsAt h 11 2), (6, 4, bitsAt h 7 4)]
    if imm = 0 then none else some (encI 0x13 rdp 0 2 imm)
  | 0, 2 => some (encI 0x03 rdp 2 rsp (packBits [(2, 1, bitsAt h 6 1), (3, 3, bitsAt h 10 3), (6, 1, bitsAt h 5 1)]))
  | 0, 3 => some (encI 0x03 rdp 3 rsp (packBits [(3, 3, bitsAt h 10 3), (6, 2, bitsAt h 5 2)]))
  | 0, 6 => some (encS 0x23 2 rsp rdp (packBits [(2, 1, bitsAt h 6 1), (3, 3, bitsAt h 10 3), (6, 1, bitsAt h 5 1)]))
  | 0, 7 => some (encS 0x23 3 rsp rdp (packBits [(3, 3, bitsAt h 10 3), (6, 2, bitsAt h 5 2)]))
  | 1, 0 => some (encI 0x13 rd 0 rd imm12)
  | 1, 1 => if rd = 0 then none else some (encI 0x1B rd 0 rd imm12)
  | 1, 2 => some (encI 0x13 rd 0 0 imm12)
  | 1, 3 =>
    if rd = 2 then
      let imm := packBits [(4, 1, bitsAt h 6 1), (5, 1, bitsAt h 2 1), (6, 1, bitsAt h 5 1), (7, 2, bitsAt h 3 2), (9, 1, bitsAt h 12 1)]
      if imm = 0 then none else some (encI 0x13 2 0 2 (sext 10 12 imm))
    else if imm6 = 0 then none else some (encU 0x37 rd (sext 6 20 imm6))
  | 1, 4 =>
    match bitsAt h 10 2 with
    | 0 => some (encI 0x13 rsp 5 rsp imm6)
    | 1 => some (encI 0x13 rsp 5 rsp (imm6 + 0x400))
    | 2 => some (encI 0x13 rsp 7 rsp imm12)
    | _ =>
      match bitsAt h 12 1, bitsAt h 5 2 with
      | 0, 0 => some (encR 0x33 rsp 0 rsp rdp 0x20)
      | 0, 1 => some (encR 0x33 rsp 4 rsp rdp 0)
      | 0, 2 => some (encR 0x33 rsp 6 rsp rdp 0)
      | 0, _ => some (encR 0x33 rsp 7 rsp rdp 0)
      | _, 0 => some (encR 0x3B rsp 0 rsp rdp 0x20)
      | _, 1 => some (encR 0x3B rsp 0 rsp rdp 0)
      | _, _ => none
  | 1, 5 =>
    let imm := packBits [(1, 3, bitsAt h 3 3), (4, 1, bitsAt h 11 1), (5, 1, bitsAt h 2 1), (6, 1, bitsAt h 7 1), (7, 1, bitsAt h 6 1),
      (8, 2, bitsAt h 9 2), (10, 1, bitsAt h 8 1), (11, 1, bitsAt h 12 1)]
    some (encJ 0 (sext 12 21 imm))
  | 1, _ =>
    let imm := packBits [(1, 2, bitsAt h 3 2), (3, 2, bitsAt h 10 2), (5, 1, bitsAt h 2 1), (6, 2, bitsAt h 5 2), (8, 1, bitsAt h 12 1)]
    some (encB (f3 - 6) rsp 0 (sext 9 13 imm))
  | 2, 0 => some (encI 0x13 rd 1 rd imm6)
  | 2, 2 =>
    if rd = 0 then none
    else some (encI 0x03 rd 2 2 (packBits [(2, 3, bitsAt h 4 3), (5, 1, bitsAt h 12 1), (6, 2, bitsAt h 2 2)]))
  | 2, 3 =>
    if rd = 0 then none
    else some (encI 0x03 rd 3 2 (packBits [(3, 2, bitsAt h 5 2), (5, 1, bitsAt h 12 1), (6, 3, bitsAt h 2 3)]))
  | 2, 4 =>
    if bitsAt h 12 1 = 0 then
      if rs2 = 0 then (if rd = 0 then none else some (encI 0x67 0 0 rd 0)) else some (encR 0x33 rd 0 0 rs2 0)
    else if rs2 = 0 then (if rd = 0 then some 0x00100073 else some (encI 0x67 1 0 rd 0))
    else some (encR 0x33 rd 0 rd rs2 0)
  | 2, 6 => some (encS 0x23 2 2 rs2 (packBits [(2, 4, bitsAt h 9 4), (6, 2, bitsAt h 7 2)]))
  | 2, 7 => some (encS 0x23 3 2 rs2 (packBits [(3, 3, bitsAt h 10 3), (6, 3, bitsAt h 7 3)]))
  | _, _ => none

/-! ## Arithmetic -/

/-- The low 32 bits, sign-extended. -/
def low32 (x : W64) : W64 := (x.truncate 32).signExtend 64

/-- OP and OP-IMM by funct3; `alt` is bit 30 (SUB, SRA). -/
def aluOp (f3 : Nat) (alt : Bool) (a b : W64) : W64 :=
  match f3 with
  | 0 => if alt then a - b else a + b
  | 1 => a <<< (b.toNat % 64)
  | 2 => if a.toInt < b.toInt then 1 else 0
  | 3 => if a.toNat < b.toNat then 1 else 0
  | 4 => a ^^^ b
  | 5 => if alt then a.sshiftRight (b.toNat % 64) else a >>> (b.toNat % 64)
  | 6 => a ||| b
  | _ => a &&& b

/-- OP-32 and OP-IMM-32. -/
def aluOp32 (f3 : Nat) (alt : Bool) (a b : W64) : W64 :=
  let x : W32 := a.truncate 32
  let n := b.toNat % 32
  match f3 with
  | 1 => (x <<< n).signExtend 64
  | 5 => ((if alt then x.sshiftRight n else x >>> n) : W32).signExtend 64
  | _ => low32 (if alt then a - b else a + b)

/-- Division of the M extension: by 0 all ones, with the dividend as remainder; the overflowing case gives the dividend and
0. -/
def divS (n : Nat) (a b : Int) : Int := if b = 0 then -1 else if a = -(2 ^ (n - 1) : Nat) ∧ b = -1 then a else a.tdiv b
def remS (n : Nat) (a b : Int) : Int := if b = 0 then a else if a = -(2 ^ (n - 1) : Nat) ∧ b = -1 then 0 else a.tmod b
def divU (n a b : Nat) : Nat := if b = 0 then 2 ^ n - 1 else a / b
def remU (a b : Nat) : Nat := if b = 0 then a else a % b

/-- The M extension by funct3. -/
def mulOp (f3 : Nat) (a b : W64) : W64 :=
  match f3 with
  | 0 => a * b
  | 1 => BitVec.ofInt 64 (a.toInt * b.toInt / (2 ^ 64 : Nat))
  | 2 => BitVec.ofInt 64 (a.toInt * b.toNat / (2 ^ 64 : Nat))
  | 3 => BitVec.ofNat 64 (a.toNat * b.toNat / 2 ^ 64)
  | 4 => BitVec.ofInt 64 (divS 64 a.toInt b.toInt)
  | 5 => BitVec.ofNat 64 (divU 64 a.toNat b.toNat)
  | 6 => BitVec.ofInt 64 (remS 64 a.toInt b.toInt)
  | _ => BitVec.ofNat 64 (remU a.toNat b.toNat)

/-- Its 32-bit forms; none for an encoding that does not exist. -/
def mulOp32 (f3 : Nat) (a b : W64) : Option W64 :=
  let x : W32 := a.truncate 32
  let y : W32 := b.truncate 32
  match f3 with
  | 0 => some (low32 (a * b))
  | 4 => some ((BitVec.ofInt 32 (divS 32 x.toInt y.toInt)).signExtend 64)
  | 5 => some ((BitVec.ofNat 32 (divU 32 x.toNat y.toNat)).signExtend 64)
  | 6 => some ((BitVec.ofInt 32 (remS 32 x.toInt y.toInt)).signExtend 64)
  | 7 => some ((BitVec.ofNat 32 (remU x.toNat y.toNat)).signExtend 64)
  | _ => none

def branchTaken (f3 : Nat) (a b : W64) : Option Bool :=
  match f3 with
  | 0 => some (a == b)
  | 1 => some (a != b)
  | 4 => some (decide (a.toInt < b.toInt))
  | 5 => some (decide (b.toInt ≤ a.toInt))
  | 6 => some (decide (a.toNat < b.toNat))
  | 7 => some (decide (b.toNat ≤ a.toNat))
  | _ => none

/-- The AMO operation of a funct5 code. -/
def amoOf : Nat → Option AmoOp
  | 0 => some .add
  | 1 => some .swap
  | 2 => some .lr
  | 3 => some .sc
  | 4 => some .xor
  | 8 => some .or
  | 12 => some .and
  | 16 => some .min
  | 20 => some .max
  | 24 => some .minu
  | 28 => some .maxu
  | _ => none

/-! ## Execution -/

/-- A jump or taken branch retires to its target; a linking one writes the return address. -/
def State.seqJump (s : State) (p len : Nat) (rd : RegNo) (target : W64) : State :=
  let back := (s.plane p).pc + BitVec.ofNat 64 len
  (s.onPlane p fun y => y.setX rd back).onPlane p fun y => { y with pc := target, minstret := bump y.minstret }

/-- An illegal instruction. -/
def State.illegal (s : State) (p raw : Nat) : State := s.trap p 2 (BitVec.ofNat 64 raw)

/-- A vendor instruction of opcode 0b0001011 (R71, R543). -/
def State.runVendor (s : State) (p len raw w : Nat) : State :=
  let rd := rvRd w
  let rs1 := rvRs1 w
  let rs2 := rvRs2 w
  match rvF3 w, rvF7 w with
  | 0, 0 => s.seqTgrp p len rd rs1 rs2
  | 1, 0 => s.seqTrun p rs1 rs2
  | 2, 0 => s.seqTwait p rd rs1
  | 2, 1 => s.seqTstat p len rd rs1
  | 3, 0 => s.seqLdlgo p len rs1 rs2
  | 3, 1 => s.seqLdltake p rd rs1
  | 3, 2 => s.seqLdlres p len rs1 rs2
  | 3, 3 => s.seqLdlstop p len rs1
  | 4, 0 => s.seqFfence p rd ((s.x p rs1).truncate 9)
  | 5, _ => if rd = 0 ∧ rs1 = 0 then s.seqBoundary p (rvImmI w) else s.illegal p raw
  | 6, 0 => s.seqVendor p len 2 rd rs1 rs2
  | 6, 1 => s.seqVendor p len 3 rd rs1 rs2
  | 6, 2 => s.seqVendor p len 9 rd rs1 rs2
  | 6, 3 => s.seqVendor p len 10 rd rs1 rs2
  | 6, 4 => s.seqVendor p len 6 rd rs1 rs2
  | _, _ => s.illegal p raw

/-- Loads, stores and atomics. -/
def State.runMemory (s : State) (p len raw w : Nat) : State :=
  let f3 := rvF3 w
  match bitsAt w 0 7 with
  | 0x03 => if f3 = 7 then s.illegal p raw
    else s.seqLoadOp p len (rvRd w) (rvRs1 w) (rvImmI w) (BitVec.ofNat 2 (f3 % 4)) (decide (4 ≤ f3))
  | 0x23 => if 4 ≤ f3 then s.illegal p raw else s.seqStoreOp p len (rvRs1 w) (rvRs2 w) (rvImmS w) (BitVec.ofNat 2 f3)
  | _ =>
    match amoOf (bitsAt w 27 5) with
    | some op =>
      if (f3 = 2 ∨ f3 = 3) ∧ (op = .lr → rvRs2 w = 0) then s.seqAmoOp p len op (f3 == 3) (rvRd w) (rvRs1 w) (rvRs2 w)
      else s.illegal p raw
    | none => s.illegal p raw

/-- Register arithmetic: its result, or none for an encoding that does not exist. -/
def aluResult (w : Nat) (pc a b : W64) : Option W64 :=
  let f3 := rvF3 w
  let f7 := rvF7 w
  let imm : W64 := (rvImmI w).signExtend 64
  match bitsAt w 0 7 with
  | 0x37 => some ((rvImmU w).signExtend 64)
  | 0x17 => some (pc + (rvImmU w).signExtend 64)
  | 0x13 =>
    if f3 = 1 then (if bitsAt w 26 6 = 0 then some (aluOp 1 false a imm) else none)
    else if f3 = 5 then (if bitsAt w 26 6 = 0 ∨ bitsAt w 26 6 = 0x10 then some (aluOp 5 (bitAt w 30) a imm) else none)
    else some (aluOp f3 false a imm)
  | 0x1B =>
    if f3 = 0 then some (aluOp32 0 false a imm)
    else if f3 = 1 ∧ f7 = 0 then some (aluOp32 1 false a imm)
    else if f3 = 5 ∧ (f7 = 0 ∨ f7 = 0x20) then some (aluOp32 5 (bitAt w 30) a imm)
    else none
  | 0x33 =>
    if f7 = 1 then some (mulOp f3 a b)
    else if f7 = 0 ∨ (f7 = 0x20 ∧ (f3 = 0 ∨ f3 = 5)) then some (aluOp f3 (f7 == 0x20) a b)
    else none
  | 0x3B =>
    if f7 = 1 then mulOp32 f3 a b
    else if (f7 = 0 ∧ (f3 = 0 ∨ f3 = 1 ∨ f3 = 5)) ∨ (f7 = 0x20 ∧ (f3 = 0 ∨ f3 = 5)) then some (aluOp32 f3 (f7 == 0x20) a b)
    else none
  | _ => none

/-- SYSTEM instructions: ECALL, EBREAK and the CSR ones; every other is illegal (R72). -/
def State.runSystem (s : State) (p len raw w : Nat) : State :=
  if w = 0x00000073 then s.seqEcall p len
  else if w = 0x00100073 then s.seqEbreak p
  else
    let csr := rvImmI w
    match rvF3 w with
    | 1 => s.seqCsr p len .write false csr (rvRd w) (rvRs1 w)
    | 2 => s.seqCsr p len .setBits false csr (rvRd w) (rvRs1 w)
    | 3 => s.seqCsr p len .clearBits false csr (rvRd w) (rvRs1 w)
    | 5 => s.seqCsr p len .write true csr (rvRd w) (rvRs1 w)
    | 6 => s.seqCsr p len .setBits true csr (rvRd w) (rvRs1 w)
    | 7 => s.seqCsr p len .clearBits true csr (rvRd w) (rvRs1 w)
    | _ => s.illegal p raw

/-- Executes the instruction w, encoded as `raw` in len bytes. -/
def State.runInstr (s : State) (p len raw w : Nat) : State :=
  let pc := (s.plane p).pc
  let a := s.x p (rvRs1 w)
  let b := s.x p (rvRs2 w)
  match bitsAt w 0 7 with
  | 0x0B => s.runVendor p len raw w
  | 0x03 | 0x23 | 0x2F => s.runMemory p len raw w
  | 0x73 => s.runSystem p len raw w
  | 0x6F => s.seqJump p len (rvRd w) (pc + (rvImmJ w).signExtend 64)
  | 0x67 => if rvF3 w = 0 then s.seqJump p len (rvRd w) ((a + (rvImmI w).signExtend 64) &&& ~~~1) else s.illegal p raw
  | 0x63 =>
    match branchTaken (rvF3 w) a b with
    | some true => s.seqJump p len 0 (pc + (rvImmB w).signExtend 64)
    | some false => s.retireSeq p len
    | none => s.illegal p raw
  | 0x0F =>
    if rvF3 w = 0 then s.seqFfence p 0 0x100
    else if rvF3 w = 1 then s.retireSeq p len
    else s.illegal p raw
  | _ =>
    match aluResult w pc a b with
    | some x => s.retireWith p len (rvRd w) x
    | none => s.illegal p raw

/-- Registers that an encoding may read or write; one too many only waits for it. -/
def instrRegs (w : Nat) : List RegNo :=
  if bitsAt w 0 7 = 0x73 ∧ rvF3 w = 0 then [10] else [rvRd w, rvRs1 w, rvRs2 w]

/-- Fetch from sequencer memory and execute. A fetch that leaves it traps with cause 1 (R68). -/
def State.seqStep (s : State) (p : Nat) : State :=
  let pc := (s.plane p).pc
  if !inSeqMem pc then s.trap p 1 pc
  else
    let h := (s.plane p).memRead pc.toNat 2
    if bitsAt h 0 2 ≠ 3 then
      match expand h with
      | some w => if s.regsFree p (instrRegs w) then s.runInstr p 2 h w else s
      | none => s.illegal p h
    else if !inSeqMem (pc + 2) then s.trap p 1 (pc + 2)
    else
      let w := (s.plane p).memRead pc.toNat 4
      if s.regsFree p (instrRegs w) then s.runInstr p 4 w w else s

def execSeqBaseInstruction (v : VatId) (s : State) : Host.Outcome State Fault Refusal :=
  .next (s.seqDo v.val [] fun a p => a.seqStep p)

end Sys2Proof.Machine
end

