-- ==== Sys2Proof/Machine/Sram.lean ====
section
/-! DEFINITION. The banks of the tile stores and cream dies: service of queued cells, scrub, retention and wake
(R157 to R176, R184). -/

namespace Sys2Proof.Machine

/-! ## Serving one word of a tile store (R157) -/

/-- A 32-byte half of a cell. -/
def halfOf (c : BitVec 512) (hi : Bool) : Nat := bitsAt c.toNat (if hi then 256 else 0) 256

/-- DELAY of a tile-store request: the wait beyond 256 vat cycles, or all of it for one held by a wake (R160, R220). -/
def State.tileHold (s : State) (v : Nat) (r : TReq) : BitVec 3 :=
  let wait := (s.clk.now - r.arrived).toNat
  let freq := if (s.vat v).freqNow = 0 then 32 else (s.vat v).freqNow.toNat
  if r.held then bucketOf (max 1 wait) else bucketOf (wait - ceilDiv (256 * 40) freq)

/-- Stores the masked bytes of one 32-byte word. A partial store reads the word first (R164, R170). -/
def State.tileStoreWord (s : State) (a mask word : Nat) (ecc : Ecc) : Bool × State :=
  if mask = 0 then (true, s)
  else if mask = 2 ^ 32 - 1 then (true, (s.clearBad a 32).setBytes a (leBytes 32 word))
  else match s.sramRead a 32 ecc sideFabric with
    | (false, s1) => (false, s1)
    | (true, s1) => (true, s1.setMasked a mask (leBytes 32 word))

/-- The store-ladle operation whose read a queued request is, if it is one. -/
def State.readerOf (s : State) (c : Cell) : Option Op :=
  (s.opOf (Cell.sport c) (Cell.tag c)).filter fun o => o.reading && Cell.spkg c == s.fab.pkgId.toNat && Cell.opc c == opLD

/-- A cell that a store ladle has read: the last one of its message sends the message (R77). An unreadable word ends the
operation SOUR TARGET. -/
def State.ladleRead (s : State) (o : Op) (i : Nat) (ok : Bool) (data : BitVec 512) : State :=
  match o.issuer with
  | .ladleStore v b k iter =>
    let s1 := s.onPlane (planeIx v b) fun x => x.onLadle k fun l =>
      { l with iters := l.iters.map fun it => if it.store && it.id == iter then { it with readsLeft := it.readsLeft - 1 } else it }
    let o1 := { o with data := (i, data) :: o.data, got := if ok then o.got else [(0, .sour .target)] }
    if o1.data.length + 1 < o1.cells.length then s1.setOp o1
    else if o1.got.isEmpty then
      let cells := o1.cells.map fun c =>
        if Cell.opc c = opSTD then { c with payload := (o1.data.lookup (Cell.frag c - 1)).getD 0 } else c
      (s1.setOp { o1 with cells := cells, reading := false, data := [], issuedAt := s.clk.now, heard := s.clk.now }).launchAll cells
    else (s1.setOp o1).finishOp o1 0
  | _ => s

/-- A finished request leaves its queue. -/
def dropReq (q : Tbl (List TReq)) (k : Nat) : Tbl (List TReq) := Tbl.upd [] q k (·.drop 1)

def setHeadReq (q : Tbl (List TReq)) (k : Nat) (r : TReq) : Tbl (List TReq) := Tbl.upd [] q k fun l => r :: l.drop 1

/-- One word of the oldest request of tile t. -/
def State.serveTileReq (s : State) (v t : Nat) (r : TReq) (ecc : Ecc) : State :=
  let key := 1024 * v + t
  let a := faLocal (Cell.pay r.head 0 8)
  let bucket := s.tileHold v r
  let advance (s : State) (ok : Bool) (total : Nat) : State :=
    let q := if r.words + 1 < total then
        setHeadReq s.fab.tileReq key { r with words := r.words + 1, failed := r.failed || !ok }
      else dropReq s.fab.tileReq key
    { s with fab := { s.fab with tileReq := q } }
  if Cell.opc r.head = opATOM then
    let asub := Cell.pay r.head 8 1
    let n := atomWidth asub
    let (ok, s1) := s.sramRead (a / 32 * 32) 32 ecc sideFabric
    let s2 := advance s1 ok 1
    if ok then
      let old := s2.wordAt a n
      let new := atomNew asub old (Cell.pay r.head 16 n) (Cell.pay r.head 24 8)
      (s2.setBytes a (leBytes n new)).launch (respond r.head opDATA 0 0 bucket.toNat (BitVec.ofNat 512 old))
    else s2.launch (sourAnswer r.head 0 .target)
  else
    let n := clampNat 1 4 (Cell.pay r.head 8 1)
    let i := r.words / 2
    let hi := r.words % 2 == 1
    let w := a + 32 * r.words
    let last := r.words + 1 = 2 * n
    if Cell.opc r.head = opLD then
      let (ok, s1) := s.sramRead w 32 ecc sideFabric
      let s2 := advance s1 ok (2 * n)
      if !hi then s2
      else
        let good := ok && !s2.badIn (a + 64 * i) 64
        match s2.readerOf r.head with
        | some o => s2.ladleRead o (Cell.frag r.head) good (s2.cellAt (a + 64 * i))
        | none =>
          if good then s2.launch (respond r.head opDATA i 0 bucket.toNat (s2.cellAt (a + 64 * i)))
          else s2.launch (sourAnswer r.head i .target)
    else
      let mask := bitsAt (Cell.pay r.head (16 + 8 * i) 8) (if hi then 32 else 0) 32
      let (ok, s1) := s.tileStoreWord w mask (halfOf ((r.frags.lookup (i + 1)).getD 0) hi) ecc
      let s2 := advance s1 ok (2 * n)
      if !last then s2
      else if ok && !r.failed then s2.launch (respond r.head opACK 0 0 bucket.toNat 0)
      else s2.launch (sourAnswer r.head 0 .target)

/-- One word of the oldest response: a ladle fill, whose cell completes with its second word (R204), or a Separator
result, which has no operation. A squashed iteration's cells are not written (R78). -/
def State.serveTileResp (s : State) (v t : Nat) (r : TResp) : State :=
  let key := 1024 * v + t
  let a := tileBase v t + r.off
  let op := s.opOf r.port r.tag.toNat
  let live := r.port = 64 ∨ op.any (fun o => !o.voided)
  let s1 := if live then (s.clearBad (a + 32 * r.words) 32).setBytes (a + 32 * r.words) (leBytes 32 (halfOf r.data (r.words == 1)))
    else s
  let q := if r.words = 0 then Tbl.upd [] s1.fab.tileResp key fun l => { r with words := 1 } :: l.drop 1
    else Tbl.upd [] s1.fab.tileResp key (·.drop 1)
  let s2 := { s1 with fab := { s1.fab with tileResp := q } }
  if r.words = 0 then s2
  else match op with
    | none => s2
    | some o =>
      let pendingMore := s2.fab.tileResp.any fun e => e.2.any fun x => x.port == o.port && x.tag == o.tag
      let s3 := match o.issuer with
        | .ladleLoad w b k iter _ =>
          if o.voided then s2
          else s2.ladleCells (planeIx w b) k iter 1 ((o.got.lookup r.index).getD (.ok 0))
            (o.addr + BitVec.ofNat 64 (64 * r.index)) o.tag
        | _ => s2
      if o.expect ≤ o.got.length && !pendingMore then s3.endOp o else s3

/-- One bank cycle that tile t leaves free: the arbiter alternates between the two queues (R157). The banks of a retained
vat serve nothing. -/
def State.tileService (s : State) (v t : Nat) (ecc : Ecc) : State :=
  let key := 1024 * v + t
  let req := Tbl.look [] s.fab.tileReq key
  let resp := Tbl.look [] s.fab.tileResp key
  if (s.vat v).tsRetained || (s.vat v).tsWaking then s
  else match req, resp with
    | [], [] => s
    | r :: _, [] => (s.serveTileReq v t r ecc).finish
    | [], x :: _ => s.serveTileResp v t x
    | r :: _, x :: _ =>
      let s1 := { s with fab := { s.fab with tileTurn := Tbl.upd false s.fab.tileTurn key (!·) } }
      if Tbl.look false s.fab.tileTurn key then s1.serveTileResp v t x else (s1.serveTileReq v t r ecc).finish

def execTilestoreCellService (v : VatId) (t : TileId) (ecc : Ecc) (s : State) : Host.Outcome State Fault Refusal :=
  .next (s.tileService v.val t.val ecc)

/-! ## Cream banks (R167) -/

/-- The bank of a cream offset. -/
def creamBank (a : Nat) : Nat := bitsAt a 6 8

/-- The first queued request with a cell for a bank still to be served, and that cell. -/
def creamPick (bank : Nat) : List TReq → Option (TReq × Nat)
  | [] => none
  | r :: rs =>
    let a := faLocal (Cell.pay r.head 0 8)
    let n := if Cell.opc r.head = opATOM then 1 else clampNat 1 4 (Cell.pay r.head 8 1)
    match (List.range n).find? fun i => creamBank (a + 64 * i) == bank && !bitAt r.words i with
    | some i => some (r, i)
    | none => creamPick bank rs

/-- One 64-byte access of a bank to the oldest request that waits for it. -/
def State.creamAccess (s : State) (c bank : Nat) (ecc : Ecc) : State :=
  let x := s.cream c
  if x.mode != .active then s
  else match creamPick bank (Tbl.look [] s.fab.creamQ c) with
    | none => s
    | some (r, i) =>
      let a := faLocal (Cell.pay r.head 0 8)
      let cell := a / 64 * 64 + 64 * i
      let atom := Cell.opc r.head == opATOM
      let n := if atom then 1 else clampNat 1 4 (Cell.pay r.head 8 1)
      let bucket := if r.held then bucketOf (max 1 (s.clk.now - r.arrived).toNat) else 0
      let mask := Cell.pay r.head (16 + 8 * i) 8
      let data := (r.frags.lookup (i + 1)).getD 0
      let isSt := Cell.opc r.head == opST
      let needsRead := !isSt || (mask != 0 && mask != fullMask)
      let (ok, s1) := if needsRead then s.sramRead cell 64 ecc sideFabric else (true, s)
      let s2 := if !ok then s1
        else if atom then
          let w := atomWidth (Cell.pay r.head 8 1)
          s1.setBytes a (leBytes w (atomNew (Cell.pay r.head 8 1) (s1.wordAt a w) (Cell.pay r.head 16 w) (Cell.pay r.head 24 8)))
        else if isSt && mask != 0 then
          (if mask = fullMask then s1.clearBad cell 64 else s1).setMasked cell mask (leBytes 64 data.toNat)
        else s1
      let r1 := { r with words := r.words + 2 ^ i, failed := r.failed || !ok }
      let done := popcount n r1.words = n
      let swap (l : List TReq) : List TReq := l.flatMap fun y => if y == r then (if done then [] else [r1]) else [y]
      let s3 := { s2 with fab := { s2.fab with creamQ := Tbl.upd [] s2.fab.creamQ c swap } }
      (if atom then
        if ok then
          s3.launch (respond r.head opDATA 0 0 bucket.toNat (BitVec.ofNat 512 (s1.wordAt a (atomWidth (Cell.pay r.head 8 1)))))
        else s3.launch (sourAnswer r.head 0 .target)
      else if isSt then
        if !done then s3
        else if r1.failed then s3.launch (sourAnswer r.head 0 .target)
        else s3.launch (respond r.head opACK 0 0 bucket.toNat 0)
      else if ok then s3.launch (respond r.head opDATA i 0 bucket.toNat (s1.cellAt cell))
      else s3.launch (sourAnswer r.head i .target)).finish

def execCreamBankAccess (c : HalfId) (bank : Byte) (ecc : Ecc) (s : State) : Host.Outcome State Fault Refusal :=
  .next (s.creamAccess c.val bank.toNat ecc)

/-! ## Scrub (R171, R172) -/

/-- The scrubber of a vat's tile stores reads its next 32-byte word, that of a cream die its next 64-byte word, in
ascending address order; a completed cream sweep counts. It pauses in retention. -/
def State.scrub (s : State) (u : Sram) (ecc : Ecc) : State :=
  match u with
  | .tileStores v =>
    let x := s.vat v.val
    if x.tsRetained || x.tsWaking || x.run == .retired then s
    else
      let (_, s1) := s.sramRead (tileBase v.val 0 + 32 * x.scrubAt) 32 ecc sideScrub
      s1.onVat v.val fun y => { y with scrubAt := (y.scrubAt + 1) % 2 ^ 24 }
  | .cream c =>
    let x := s.cream c.val
    if x.mode != .active then s
    else
      let (_, s1) := s.sramRead (creamBase c.val + 64 * x.scrubAt) 64 ecc sideScrub
      s1.onCream c.val fun y =>
        if y.scrubAt + 1 = 2 ^ 25 then { y with scrubAt := 0, scrubPass := bump y.scrubPass } else { y with scrubAt := y.scrubAt + 1 }

def execSramScrubRead (u : Sram) (ecc : Ecc) (s : State) : Host.Outcome State Fault Refusal := .next (s.scrub u ecc)

/-! ## Retention and wake (R173 to R176) -/

/-- Whether a fabric-side access waits at a vat's tile stores. -/
def State.tileWork (s : State) (v : Nat) : Bool :=
  (s.fab.tileReq.any fun e => e.1 / 1024 == v) || s.fab.tileResp.any fun e => e.1 / 1024 == v

def execTilestoreRetentionEnter (v : VatId) (s : State) : Host.Outcome State Fault Refusal :=
  .next (if (s.vat v.val).run = .gated ∧ !s.tileWork v.val ∧ !(s.vat v.val).tsWaking then
    s.onVat v.val fun x => { x with tsRetained := true, banksOn := false }
  else s)

def execCreamRetentionEnter (c : HalfId) (s : State) : Host.Outcome State Fault Refusal :=
  .next (if (s.cream c.val).mode = .active ∧ (s.cream c.val).retEn ∧ (Tbl.look [] s.fab.creamQ c.val).isEmpty then
    s.onCream c.val fun x => { x with mode := .retention }
  else s)

/-- The wake ends: held accesses may proceed, and a vat that waits to leave GATED does (R85). -/
def State.woken (s : State) (u : Sram) : State :=
  match u with
  | .tileStores v =>
    let x := s.vat v.val
    if !x.tsWaking then s
    else
      let s1 := s.onVat v.val fun y => { y with tsRetained := false, tsWaking := false, wakeThen := none }
      if x.wakeThen.isSome ∧ x.run = .gated then
        ((s1.onVat v.val fun y => { y with run := .idle, banksOn := false, freqNow := 32 }).refreshRun v.val).swapIdleActive v.val
      else s1
  | .cream c =>
    if (s.cream c.val).waking then s.onCream c.val fun x => { x with mode := .active, waking := false } else s

def execSramWakeComplete (u : Sram) (s : State) : Host.Outcome State Fault Refusal := .next (s.woken u)

/-- A wake that has not ended in 50 µs retires the cream die (R168). -/
def execCreamWakeTimeout (c : HalfId) (s : State) : Host.Outcome State Fault Refusal :=
  .next (if (s.cream c.val).waking then (s.retireCream c.val 6).finish else s)

/-- CRM_CTRL (R184): RET_IDLE is clamped to at least 10; clearing RET_EN in retention starts a wake. A die in reset or
retired takes no write (R183). -/
def State.writeCrmCtrl (s : State) (c : Nat) (value : W32) : State :=
  let x := s.cream c
  if x.mode == .reset || x.mode == .retired then s
  else
    let en := value.getLsbD 0
    let idle := max 10 (bitsAt value.toNat 16 16)
    s.onCream c fun y =>
      let wakes := !en && y.mode == .retention && !y.waking
      { y with retEn := en, retIdle := BitVec.ofNat 16 idle, waking := y.waking || wakes,
               wakeCnt := if wakes then bump y.wakeCnt else y.wakeCnt }

def execCrmCtrlWrite (c : HalfId) (value : W32) (s : State) : Host.Outcome State Fault Refusal :=
  .next (s.writeCrmCtrl c.val value)

end Sys2Proof.Machine
end

