-- ==== Sys2Proof/Machine/Vats.lean ====
section
/-! DEFINITION. BOUNDARY, swaps, gating and column faults of a vat (R41, R64 to R66, R85, R149, R151, R241). -/

namespace Sys2Proof.Machine

/-! ## BOUNDARY (R65) -/

/-- The held schedule fields of a vat take effect; a new SLICE restarts its count (R149, R151, R383). The Bool says that a
SLICE was held. -/
def Vat.applyStaged (x : Vat) : Bool × Vat :=
  (x.sliceHeld.isSome,
   { x with slice := x.sliceHeld.getD x.slice, sliceHeld := none, sliceCount := if x.sliceHeld.isSome then 0 else x.sliceCount,
            freq := match x.freqHeld with
              | some f => some f
              | none => x.freq,
            freqHeld := none, fixed := x.fixedHeld.getD x.fixed, fixedHeld := none })

/-- The checkpoint that a BOUNDARY records, and the reseeding of the generators (R65, R110). -/
def Plane.boundaryDone (p : Plane) (id : BitVec 12) : Plane :=
  let q := { p with pc := p.pc + 4, minstret := bump p.minstret, blocked := none, vbnd := id, nb := p.nb + 1, draws := [] }
  { q with ckpt := some { id := id, pc := q.pc, x := q.x, ladles := q.ladles, groups := q.groups, nb := q.nb } }

/-- Sends the flex request of a plan whose TRIGGER is the boundary's id (R241). -/
def State.flexTrigger (s : State) (c : Nat) (id : BitVec 12) : State :=
  match (s.ctx c).plans.find? fun r => r.trigger == id with
  | none => s
  | some plan =>
    let r : FlexReq := { ctx := c, port := vatPort (s.ctx c).vat.toNat, plan := plan }
    { s with churn := { s.churn with sent := s.churn.sent ++ [r] } }

/-- The swap decision of R64 at a BOUNDARY; `fresh` says that a held SLICE took effect in it, so that it is not counted. -/
def State.boundarySwap (s : State) (v : Nat) (fresh : Bool) : State :=
  let x := s.vat v
  let n := if fresh ∨ x.slice = 0 then x.sliceCount else x.sliceCount + 1
  let s1 := s.onVat v fun y => { y with sliceCount := n }
  if x.arm || (x.slice != 0 && !fresh && decide (x.slice.toNat ≤ n)) then
    if (s.shadowCtx v).any s.eligible then s1.swapStart v else s1.onVat v fun y => { y with sliceCount := 0 }
  else s1

/-- BOUNDARY retires once every tile group of its context is idle. -/
def State.boundaryRetire (s : State) (v : Nat) : State :=
  let p := s.activePlane v
  match (s.plane p).blocked, (s.plane p).ctx with
  | some (.boundary id), some c =>
    if s.tiles.any fun (k, x) => k / 1024 == v && x.running then s
    else
      let (fresh, x) := (s.vat v).applyStaged
      let s1 := s.onVat v fun _ =>
        { x with boundaryCnt := bump x.boundaryCnt, lastBoundaryId := id, lastBoundaryCtx := BitVec.ofNat 6 c,
                 lastBoundaryTime := s.clk.now }
      let s2 := (s1.onPlane p fun q => q.boundaryDone id).flexTrigger c id
      let s3 := if (s.ctx c).state = .draining then
          ((s2.squashPlane p).onPlane p fun q => { q with issuing := false }).onCtx c fun y => { y with drained := true }
        else s2
      let s4 := if (s.vat v).replaying = some c then s3.replayPass v c else s3
      (if (s4.vat v).run = .swap then s4 else s4.boundarySwap v fresh).finish
  | _, _ => s

def execBoundaryRetire (v : VatId) (s : State) : Host.Outcome State Fault Refusal := .next (s.boundaryRetire v.val)

/-! ## Swaps (R64, R66) -/

/-- The swap ends: RUN reads RUN, or IDLE where the incoming context has ended or faulted meanwhile. -/
def State.swapDone (s : State) (v : Nat) : State :=
  if (s.vat v).run = .swap then
    ((s.onVat v fun x => { x with run := .run, swapCnt := bump x.swapCnt }).refreshRun v).swapIdleActive v
  else s

def execSwapComplete (v : VatId) (s : State) : Host.Outcome State Fault Refusal := .next (s.swapDone v.val)

/-- The block of a vat answers: its die is not in reset and not retired (R80). -/
def State.vatReachable (s : State) (v : Nat) : Bool := s.dieIn (v / 4) && !s.inv.dieInReset.getLsbD (v / 4)

def State.swapArm (s : State) (v : Nat) : State :=
  if s.vatReachable v then s.onVat v fun x => { x with arm := true } else s

def execSwapArm (v : VatId) (s : State) : Host.Outcome State Fault Refusal := .next (s.swapArm v.val)

/-! ## Gating (R85) -/

def State.loading (s : State) (v : Nat) : Bool := s.loads.any fun l => l.targets.any fun t => t.vat == v && t.result.isNone

def State.vatGate (s : State) (v : Nat) : State :=
  if (s.vat v).run = .idle ∧ !s.loading v then s.onVat v fun x => { x with run := .gated, freqNow := 0 } else s

def execVatGate (v : VatId) (s : State) : Host.Outcome State Fault Refusal := .next (s.vatGate v.val)

def State.bankStop (s : State) (v : Nat) : State :=
  if (s.vat v).run = .gated ∧ !s.tileWork v then s.onVat v fun x => { x with banksOn := false } else s

def execGatedBankStop (v : VatId) (s : State) : Host.Outcome State Fault Refusal := .next (s.bankStop v.val)

/-! ## Column faults (R41) -/

/-- A column fails in service: the vat leaves service until its die's next self-test, and its contexts fault. -/
def State.columnFault (s : State) (v col : Nat) : State :=
  if !s.vatIn v then s
  else
    let s1 := (s.noteRetired (unitVat v) 2).dropVat v
    let s2 := s1.onVat v fun x =>
      { x with fault := x.fault ||| 8, exhausted := x.exhausted || x.skip != 32, failedCols := x.failedCols ++ [col] }
    { s2 with inv := { s2.inv with vatColumn := bvSet s2.inv.vatColumn v true } }.finish

def execColumnFault (v : VatId) (col : Fin 33) (s : State) : Host.Outcome State Fault Refusal := .next (s.columnFault v.val col.val)

end Sys2Proof.Machine
end

