-- ==== Sys2Proof/Machine/Loads.lean ====
section
/-! DEFINITION. Culture loads: acceptance, CHECK, STREAM and COMMIT (R134 to R145). -/

namespace Sys2Proof.Machine

/-! ## Reading the image (R134, R221) -/

/-- Whether a 64-byte cell of the local map can be read: a cell of HBM or cream SRAM whose part answers. -/
def State.imageCell (s : State) (a : Nat) : Bool :=
  (match regionOf a with
   | .hbm | .cream _ _ => true
   | _ => false) && (s.targetDown a).isNone

/-- Bytes of an array from a position on, replaced; what lies outside the array is left out. -/
def writeBytes (img : Image) (p : Int) (bs : List Byte) : Image :=
  bs.zipIdx.foldl (fun a e => if 0 ≤ p + e.2 then a.setIfInBounds (p + e.2).toNat e.1 else a) img

/-- The n bytes from a local address on as their controllers read them; a cell that cannot be read brings the sour
pattern. -/
def State.readImage (s : State) (base n : Nat) : Image :=
  let sour := leBytes 64 sourCell.toNat
  let at' (a : Nat) : Int := (a : Int) - base
  let plain := s.fab.mem.foldl (fun img e => if base ≤ e.1 then img.setIfInBounds (e.1 - base) e.2 else img) (Array.replicate n (0 : Byte))
  let held := s.hbm.pcs.foldl (fun img e => e.2.buffer.foldl (fun img b => writeBytes img (at' b.1) (leBytes 64 b.2.toNat)) img) plain
  let bad := s.fab.bad.foldl (fun img e => writeBytes img (at' (8 * e.1 / 64 * 64)) sour) held
  (List.range (n / 64 + 2)).foldl (fun img i =>
    let a := base / 64 * 64 + 64 * i
    if s.imageCell a then img else writeBytes img (at' a) sour) bad

/-- The image of a load: its header says how long it is. -/
def State.image (s : State) (base : Nat) : Image :=
  let head := s.readImage base 64
  if (checkHeader head).isSome then head else s.readImage base (field head 16 8)

/-- The digest of an image: SHA-512 of what precedes MEAS (R125). -/
def imageDigest (img : Image) : BitVec 512 :=
  match sectionOf img typeMEAS with
  | some m => digestOf (img.extract 0 m.off).toList
  | none => 0

/-! ## Acceptance (R135) -/

/-- The result of a target that is refused at once. -/
def State.refuseTarget (s : State) (all : List (Byte × Byte)) (t : Byte × Byte) : Option LoadResult :=
  let v := t.1.toNat
  let c := t.2.toNat
  if (s.ctx c).state != .free ∨ 1 < (all.filter fun x => x.2 == t.2).length then some { code := 16 }
  else if !s.vatIn v || !s.vatReachable v || (s.vat v).run == .reset || (s.vat v).run == .retired then some { code := 15 }
  else if (s.plane (s.shadowPlane v)).ctx.isSome || s.loading v || decide (1 < (all.filter fun x => x.1 == t.1).length) then
    some { code := 14 }
  else none

/-- CULTURE_LOAD with operands in range: the accepted targets go into CHECK, and a gated vat wakes. -/
def State.acceptLoad (s : State) (src : KcpSrc) (req : W32) (image : W64) (shift : Nat) (ts : List (Byte × Byte)) : State :=
  let target (t : Byte × Byte) : LoadTarget :=
    { vat := t.1.toNat, ctx := t.2.toNat, plane := !(s.vat t.1.toNat).plane, result := s.refuseTarget ts t }
  let targets := ts.map target
  let s1 := targets.foldl (fun a t => match t.result with
    | some r => a.noteRefused t r
    | none => a.ungate t.vat) s
  let l : Load := { id := s.nextLoad, src := src, req := req, image := image, shift := shift, targets := targets }
  { s1 with loads := s1.loads ++ [l], nextLoad := s1.nextLoad + 1 }.finishLoads

def execCultureLoad (src : KcpSrc) (req : W32) (image : W64) (shift : Byte) (targets : List (Byte × Byte)) (s : State) :
    Host.Outcome State Fault Refusal :=
  .next (if s.svc.standby || s.svc.draining then s.reply src req 0x0010 stState []
    else if targets.isEmpty || decide (32 < targets.length) || decide (15 < shift.toNat) ||
        targets.any (fun t => decide (32 ≤ t.1.toNat) || decide (64 ≤ t.2.toNat)) then s.reply src req 0x0010 stRange []
    else s.acceptLoad src req image shift.toNat targets)

/-! ## CHECK (R136, R137) -/

/-- Base and size of the window that the other plane's context has on a tile, in units. -/
def State.otherWindow (s : State) (p t : Nat) : Nat × Nat :=
  if (s.plane p).ctx.isSome then
    let w := (Tbl.look 0 (s.plane p).params (64 * t + 1)).toNat
    (bitsAt w 0 4, bitsAt w 4 5)
  else (0, 0)

/-- CHECK over an image: the first broken rule refuses every target; then each target's windows are checked. -/
def State.checkLoad (s : State) (l : Load) (img : Image) : State :=
  match checkImage img with
  | some r => s.failTargets l.id (fun _ => true) r
  | none =>
    let s1 := l.targets.foldl (fun a t =>
      match checkWindows img l.shift (s.otherWindow (planeIx t.vat (!t.plane))) with
      | some r => a.failTargets l.id (fun x => x == t) r
      | none => a) s
    { s1 with loads := s1.loads.map fun x =>
        if x.id = l.id then { x with streaming := true, digest := imageDigest img } else x }

def execLoadCheckComplete (load : Nat) (s : State) : Host.Outcome State Fault Refusal :=
  .next (match s.loads.find? fun l => l.id == load && !l.streaming with
    | some l => (s.checkLoad l (s.image l.image.toNat)).finishLoads
    | none => s)

/-! ## STREAM and COMMIT (R126 to R133, R140, R141, R144) -/

/-- The listed words of a section: key k takes the field at `at k`. -/
def imageTable {w : Nat} (n : Nat) (f : Nat → BitVec w) : Tbl (BitVec w) :=
  ((List.range n).map fun k => (k, f k)).filter fun e => decide (e.2 ≠ 0)

/-- The plane that an image makes for context c under window shift S. -/
def planeOf (img : Image) (c shift : Nat) : Plane :=
  match sectionOf img typeTILE, sectionOf img typeSWCH, sectionOf img typeLDL, sectionOf img typeSEQ with
  | some t, some w, some l, some q =>
    let word (k : Nat) : W32 :=
      let x := field img (t.off + 4096 * (k / 64) + 4 * (k % 64)) 4
      BitVec.ofNat 32 (if k % 64 = 1 then withBits x 0 4 (bitsAt x 0 4 + shift) else x)
    let lo := field img (q.off + 16) 4
    let n := field img (q.off + 20) 4
    let code : Tbl Byte := (imageTable n fun i => img.getD (q.off + 64 + i) 0).map fun e => (lo + e.1, e.2)
    let count := field img l.off 4
    { ctx := some c, params := imageTable 65536 word,
      bundles := imageTable 245760 fun k => BitVec.ofNat 128 (field img (t.off + 4096 * (k / 240) + 256 + 16 * (k % 240)) 16),
      routes := imageTable 32768 fun k => BitVec.ofNat 32 (field img (w.off + 136 * (k / 32) + 4 * (k % 32)) 4),
      phase := imageTable 1024 fun k => BitVec.ofNat 32 (field img (w.off + 136 * k + 128) 4),
      desc := imageTable count fun i => BitVec.ofNat 512 (relocated img l shift i),
      descCount := count, entry := BitVec.ofNat 64 (field img q.off 8), initSp := BitVec.ofNat 64 (field img (q.off + 8) 8),
      gals := galsOn img, codeAt := lo, codeLen := n, seqMem := code }
  | _, _, _, _ => { ctx := some c }

/-- The bytes of one MEM record (R131). -/
def memBytes (img : Image) (r : MemRec) : List Byte :=
  (List.range r.len).map fun i => if r.fill then BitVec.ofNat 8 (bitsAt r.pattern (8 * (i % 4)) 8) else img.getD (r.data + i) 0

/-- MEM enters the windows of vat v. -/
def State.loadMem (s : State) (img : Image) (v : Nat) (p : Plane) : State :=
  match sectionOf img typeMEM, sectionOf img typeTILE with
  | some x, some t =>
    (memRecords img x t (memCount img x) 0 (x.off + 64) []).1.foldl (fun a r =>
      let w := bitsAt (Tbl.look 0 p.params (64 * r.tile + 1)).toNat 0 4
      let dst := tileBase v r.tile + w * 0x8000 + r.off
      (a.clearBad dst r.len).setBytes dst (memBytes img r)) s
  | _, _ => s

def imagePlans (img : Image) : List FlexPlan :=
  match sectionOf img typeFLEX with
  | some x => (List.range (field img x.off 4)).map fun k => flexPlanAt img (x.off + 8 + 128 * k)
  | none => []

def imageMatrices (img : Image) : List SepMatrix :=
  match sectionOf img typeSEPW with
  | some x => (List.range (field img x.off 4)).map fun k => sepMatrixAt img (x.off + 8 + 4104 * k)
  | none => []

/-- COMMIT for one target: the shadow plane holds the culture, its flags read 0 and its context is LOADED. -/
def State.commitTarget (s : State) (l : Load) (img : Image) (t : LoadTarget) : State :=
  let p := planeOf img t.ctx l.shift
  let flags (k : Nat) (x : Tile) : Tile :=
    if k / 1024 = t.vat then (if t.plane then { x with xflags1 := 0 } else { x with xflags0 := 0 }) else x
  let s1 := (s.onPlane (planeIx t.vat t.plane) fun _ => p).loadMem img t.vat p
  { s1 with tiles := Tbl.mapVals {} flags s1.tiles }.onCtx t.ctx fun c =>
    { c with state := .loaded, vat := BitVec.ofNat 5 t.vat, plane := t.plane, resident := true, digest := l.digest,
             shift := BitVec.ofNat 4 l.shift, galsBit := p.gals, commitTime := s.clk.now, plans := imagePlans img,
             matrices := imageMatrices img }

/-- STREAM ends: a changed image aborts every target; otherwise each one commits whose context is still FREE. -/
def State.streamLoad (s : State) (l : Load) (img : Image) : State :=
  if imageDigest img ≠ l.digest then s.failTargets l.id (fun _ => true) { code := 18 }
  else
    (l.targets.filter fun t => t.result.isNone).foldl (fun a t =>
      if (a.ctx t.ctx).state = .free then
        let b := a.commitTarget l img t
        { b with loads := b.loads.map fun x => if x.id = l.id then
            { x with targets := x.targets.map fun y => if y == t then { y with result := some {} } else y } else x }
      else a.failTargets l.id (fun x => x == t) { code := 17 }) s

def execLoadStreamComplete (load : Nat) (s : State) : Host.Outcome State Fault Refusal :=
  .next (match s.loads.find? fun l => l.id == load && l.streaming with
    | some l => (s.streamLoad l (s.image l.image.toNat)).finishLoads
    | none => s)

end Sys2Proof.Machine
end

