-- ==== Sys2Proof/Machine/Registers.lean ====
section
/-! DEFINITION. The register window: what every register reads, and what a write does (R8 to R15, R146 to R152, R187, R188,
and the register tables of every chapter). A register is seen in aligned 32-bit words. -/

namespace Sys2Proof.Machine

/-! ## Words of a register -/

/-- The word at offset o of a register of n bytes at offset `base`, with its value. -/
def reg (o base n v : Nat) : Option Nat := if base ≤ o ∧ o < base + n then some (bitsAt v (8 * (o - base)) 32) else none

/-- The same for the members of an array. -/
def regs (o base stride count n : Nat) (f : Nat → Nat) : Option Nat :=
  if base ≤ o ∧ o < base + stride * count ∧ (o - base) % stride < n then
    some (bitsAt (f ((o - base) / stride)) (8 * ((o - base) % stride)) 32)
  else none

def countWhere (n : Nat) (f : Nat → Bool) : Nat := ((List.range n).filter f).length

/-- A two's complement field. -/
def fieldInt (n : Nat) (x : Int) : Nat := unsigned n x

/-! ## MC and SEC (R23, R518, R519) -/

def State.mcWord (s : State) (o : Nat) : Option Nat :=
  let m := s.mc
  let i := s.inv
  reg o 0x0000 4 (packBits [(0, 4, m.step.toNat), (4, 3, McState.code m.state), (8, 3, m.recoveryCause.toNat)]) <|>
  reg o 0x0008 8 m.readyTime.toNat <|>
  regs o 0x0010 8 8 8 (fun k => (Tbl.look 0 m.stepEnd (k + 1)).toNat) <|>
  reg o 0x0050 4 (packBits [(0, 1, m.owner.toNat), (1, 1, m.overlap.toNat), (2, 1, m.mcbReady.toNat), (3, 1, m.mcaReady.toNat),
    (4, 1, m.retake.toNat)]) <|>
  reg o 0x0058 4 m.handover.toNat <|>
  reg o 0x0060 4 m.handoverCnt.toNat <|>
  reg o 0x0064 4 m.retakeCnt.toNat <|>
  reg o 0x0068 8 m.journalTime.toNat <|>
  reg o 0x0070 4 m.enterRecovery.toNat <|>
  reg o 0x0078 8 m.fwVersion.toNat <|>
  reg o 0x0080 4 m.katFail.toNat <|>
  reg o 0x0100 4 i.vatMap.toNat <|>
  reg o 0x0104 4 (packBits [(0, 8, i.cdMap.toNat), (8, 16, i.creamMap.toNat), (24, 1, i.iod.toNat)]) <|>
  reg o 0x0108 4 i.stackMap.toNat <|>
  reg o 0x010C 4 (packBits [(0, 20, i.cages.toNat), (20, 1, (!s.board.leakN).toNat)]) <|>
  reg o 0x0110 8 (packBits ((List.range 16).map fun p => (4 * p, 4, popcount 10 (Tbl.look 0 s.board.bundles p).toNat)))

def State.secWord (s : State) (o : Nat) : Option Nat :=
  let m := s.mc
  reg o 0x0000 4 (packBits [(0, 1, m.fwVerified.toNat), (1, 1, m.cfgValid.toNat), (2, 1, m.idKeyReady.toNat), (3, 1, m.certMatch.toNat)]) <|>
  reg o 0x0008 4 m.svn.toNat <|>
  reg o 0x000C 4 s.fuses.svnMin.toNat <|>
  reg o 0x0010 4 m.quoteCnt.toNat <|>
  reg o 0x0040 64 m.fwMeasure.toNat <|>
  reg o 0x0080 64 m.cfgMeasure.toNat <|>
  reg o 0x00C0 64 s.fuses.vendorKeyHash.toNat <|>
  reg o 0x0100 192 (leNat m.idKey) <|>
  regs o 0x1000 4 128 4 (fun w => leNat (s.flashBytes (certFlash + 4 * w) 4))

/-! ## CLK and TIM (R393, R394) -/

def State.freqField (s : State) (v : Nat) : Nat := s.fixedFreq v

def Vat.clkPending (x : Vat) : Bool := x.fixedHeld.isSome || x.freqHeld.isSome

def State.clkWord (s : State) (o : Nat) : Option Nat :=
  let c := s.clk
  let src := match c.source with
    | .refclk => 0
    | .holdover => 1
    | .reverting => 2
  reg o 0x0000 4 (packBits [(0, 2, src), (2, 1, c.refValid.toNat), (16, 16, if c.locked then (Config.refOffset c.now).toNat else 0)]) <|>
  reg o 0x0008 4 c.holdoverCnt.toNat <|>
  reg o 0x0010 8 c.holdoverNs.toNat <|>
  reg o 0x0018 4 c.dieLock.toNat <|>
  reg o 0x001C 4 c.dieLossCnt.toNat <|>
  regs o 0x1000 0x20 32 4 (fun v =>
    packBits [(0, 1, (s.vat v).fixed.toNat), (1, 1, (s.vat v).clkPending.toNat), (8, 7, s.freqField v)]) <|>
  regs o 0x1008 0x20 32 4 (fun v =>
    packBits [(0, 7, (s.vat v).freqNow.toNat), (7, 1, (s.vat v).fixed.toNat), (8, 3, if (s.vat v).rootRuns then s.capSource v else 0),
      (11, 1, (!(s.vat v).rootRuns && s.board.rails).toNat)]) <|>
  regs o 0x1010 0x20 32 4 (fun v => (s.vat v).fallbackCnt.toNat) <|>
  regs o 0x1014 0x20 32 4 (fun v => (s.vat v).fixedOvrCnt.toNat)

def State.timWord (s : State) (o : Nat) : Option Nat :=
  let c := s.clk
  reg o 0x0000 8 s.time <|>
  reg o 0x0008 4 (packBits [(0, 1, c.startedOnHoldover.toNat), (1, 1, c.holdoverSeen.toNat)]) <|>
  reg o 0x0010 4 c.skewCnt.toNat <|>
  reg o 0x0014 4 c.skewMax.toNat

/-! ## PWR and THM (R421, R422) -/

/-- VDD_VAT in mV on the fused curve of R396, rounded down. -/
def State.railVolts (s : State) (v : Nat) : Nat :=
  let f := max 850 (25 * (s.vat v).freqNow.toNat)
  (950 - (250 * (2000 - (f : Int))) / 1150 + Tbl.look 0 s.fuses.vfTrim v).toNat

def State.pwrWord (s : State) (o : Nat) : Option Nat :=
  let p := s.pwr
  let st := match p.state with
    | .normal => 0
    | .grace => 1
    | .enforce => 2
    | .release => 3
  reg o 0x0000 8 p.energy.toNat <|>
  reg o 0x0008 4 (packBits [(0, 16, p.nowW.toNat), (16, 16, p.volts.toNat)]) <|>
  reg o 0x000C 4 (packBits [(0, 9, p.ampsA.toNat), (16, 9, p.ampsB.toNat)]) <|>
  reg o 0x0010 4 s.pwrLimit <|>
  reg o 0x0014 4 s.limitEffWord <|>
  reg o 0x0018 4 p.grace.toNat <|>
  reg o 0x0020 4 (packBits [(0, 2, st), (2, 1, p.lugA.toNat), (3, 1, p.lugB.toNat), (4, 7, p.cap.toNat)]) <|>
  reg o 0x0028 4 p.throttleCnt.toNat <|>
  reg o 0x002C 4 p.enforceCnt.toNat <|>
  reg o 0x0030 8 p.enforceNs.toNat <|>
  regs o 0x1000 0x10 32 8 (fun v =>
    if !s.board.rails then 0
    else packBits [(0, 10, if (s.vat v).rootRuns then s.railVolts v else (Config.railMillivolts v s.clk.now).toNat),
      (16, 9, (Config.railAmps v s.clk.now).toNat), (32, 7, (s.vat v).irCap.toNat)]) <|>
  regs o 0x1008 0x10 32 8 (fun v => (s.vat v).rampHold.toNat)

/-- A region's hottest value, 0 before its first sample. -/
def State.shownTemp (s : State) (r : Nat) : Nat := if s.sampled r then fieldInt 8 (s.hottest r) else 0

def State.brokenMask (s : State) (r n : Nat) : Nat := maskOf n fun k => (s.sensor r k).broken

def State.thmWord (s : State) (o : Nat) : Option Nat :=
  let t := s.thm
  reg o 0x0000 4 (packBits [(0, 1, t.trip.toNat), (1, 3, t.source.toNat), (4, 12, t.region.toNat)]) <|>
  reg o 0x0008 4 t.brokenCnt.toNat <|>
  reg o 0x0010 4 t.disagree.toNat <|>
  regs o 0x2000 8 30 8 (fun f =>
    if !s.sampled (48 + f) then 0
    else packBits [(0, 8, fieldInt 8 (s.hottest (48 + f))), (8, 8, fieldInt 8 (estimateC (Tbl.look {} s.rings.est f))),
      (16, 8, fieldInt 8 (s.fieldTemp f)), (24, 3, s.fieldLevel f), (27, 3, s.brokenMask (48 + f) 3), (30, 1, (t.disagree.getLsbD f).toNat)]) <|>
  regs o 0x3000 8 32 4 (fun k => packBits [(0, 8, s.shownTemp (78 + k)), (8, 4, s.brokenMask (78 + k) 4)]) <|>
  regs o 0x1000 8 32 8 (fun v =>
    if !s.sampled v then 0
    else packBits [(0, 8, s.shownTemp v), (8, 8, s.brokenMask v 8), (16, 3, s.vatLevel v), (19, 3, s.fieldLevelEff (halfField (vatPort v))),
      (22, 3, s.col0Level), (25, 7, s.thermalCap v)])

/-! ## ETH and KCP (R452, R453) -/

def State.ethWord (s : State) (o : Nat) : Option Nat :=
  let e := s.eth
  let st := match e.mode with
    | .down => 0
    | .training => 1
    | .up => 2
  let qst (q : Qp) : Nat := match q.state with
    | .free => 0
    | .ready => 1
    | .error => 2
  reg o 0x0000 4 (packBits [(0, 2, st), (2, 2, e.speed.toNat), (4, 8, e.usable.toNat)]) <|>
  reg o 0x0008 4 e.cfg.toNat <|>
  reg o 0x0010 8 e.mac.toNat <|>
  reg o 0x0018 8 e.rxDrop.toNat <|>
  reg o 0x0020 8 (Config.fecCount false s.clk.now).toNat <|>
  reg o 0x0028 8 (Config.fecCount true s.clk.now).toNat <|>
  reg o 0x0030 8 (packBits [(0, 32, e.pfcRx.toNat), (32, 32, (Config.pfcSent s.clk.now).toNat)]) <|>
  reg o 0x0038 8 (packBits [(0, 32, e.cnpRx.toNat), (32, 32, e.cnpTx.toNat)]) <|>
  regs o 0x1000 0x10 1024 8 (fun q =>
    let x := s.qp q
    packBits [(0, 2, qst x), (2, 6, x.ctx.toNat), (8, 3, x.lastStatus.toNat), (11, 4, x.lastCause.toNat), (15, 3, x.lastBucket.toNat),
      (32, 32, x.delayedCnt.toNat)]) <|>
  regs o 0x1008 0x10 1024 4 (fun q => (s.qp q).refusedCnt.toNat)

def State.kcpWord (s : State) (o : Nat) : Option Nat :=
  let k := s.kcp
  reg o 0x0000 4 (packBits [(0, 4, countWhere 8 fun i => (s.session i).isOpen), (4, 9, k.pending.length)]) <|>
  reg o 0x0008 4 (packBits [(0, 8, k.idleTimeout.toNat), (16, 8, k.fwdTimeout.toNat)]) <|>
  reg o 0x0010 4 k.authFail.toNat <|>
  reg o 0x0014 4 k.notifyDrop.toNat <|>
  reg o 0x0018 4 k.notifySeq.toNat <|>
  reg o 0x001C 4 k.dupCnt.toNat <|>
  reg o 0x0020 8 k.fwdCnt.toNat <|>
  reg o 0x0028 4 k.tagFail.toNat

/-! ## CTX and ERR (R228, R491, R492) -/

def State.ctxStateWord (s : State) (c : Nat) : Nat :=
  let x := s.ctx c
  packBits [(0, 3, x.state.code), (4, 5, x.vat.toNat), (9, 1, x.resident.toNat), (10, 1, (s.isActive c).toNat), (11, 1, x.suspect.toNat),
    (12, 1, x.replaying.toNat), (13, 1, x.stopping.toNat), (16, 16, x.group.toNat), (32, 16, x.lastCode.toNat)]

def State.ctxWord (s : State) (o : Nat) : Option Nat :=
  let e := s.err
  regs o 0x0000 8 64 8 s.ctxStateWord <|>
  regs o 0x0200 8 64 4 (fun c => (s.ctx c).noreplay.toNat) <|>
  regs o 0x0400 8 64 4 (fun c => (s.ctx c).weight.toNat) <|>
  regs o 0x0600 8 64 8 (fun c => (s.ctx c).seed.toNat) <|>
  regs o 0x0800 8 64 8 (fun c => (s.ctx c).lastSeq.toNat) <|>
  reg o 0x0A00 4 e.faultCnt.toNat <|>
  reg o 0x0A04 4 e.hangCnt.toNat <|>
  reg o 0x0A08 4 e.replayCnt.toNat <|>
  reg o 0x0A0C 4 e.abortTx.toNat <|>
  reg o 0x0A10 4 e.abortRx.toNat <|>
  reg o 0x0A14 4 e.ctxResetCnt.toNat <|>
  reg o 0x0A18 8 e.purgeCnt.toNat

def State.errOldest (s : State) : Nat := s.err.seqNext.toNat - 4096

/-- The bytes of ring entry i; one that no record has reached reads 0. -/
def State.ringBytes (s : State) (i : Nat) : Nat :=
  if i < s.err.seqNext.toNat then leNat (Tbl.look {} s.err.ring i).bytes else 0

def State.errWord (s : State) (o : Nat) : Option Nat :=
  let e := s.err
  let d := e.dump
  reg o 0x0000 4 (packBits [(0, 1, e.cfgRefused.toNat), (1, 1, e.overflow.toNat), (2, 1, e.halt.toNat), (3, 2, e.haltKind.toNat),
    (5, 1, d.valid.toNat), (6, 1, d.busy.toNat), (7, 1, (d.valid && d.truncated).toNat)]) <|>
  reg o 0x0008 8 e.seqNext.toNat <|>
  reg o 0x0010 8 s.errOldest <|>
  reg o 0x0018 4 e.overflowCnt.toNat <|>
  reg o 0x001C 4 e.nestedCnt.toNat <|>
  reg o 0x0020 4 0 <|>
  reg o 0x0028 8 (packBits [(0, 16, e.vatResets.toNat), (16, 16, e.dieResets.toNat), (32, 16, e.computeResets.toNat),
    (48, 16, e.mgmtResets.toNat)]) <|>
  reg o 0x0040 8 (if d.valid then d.size.toNat else 0) <|>
  reg o 0x0048 8 (if d.valid then d.time.toNat else 0) <|>
  regs o 0x100000 64 4096 64 s.ringBytes

/-! ## FAB, HBM and CHN (R227, R259, R325) -/

def State.fabWord (s : State) (o : Nat) : Option Nat :=
  let f := s.fab
  reg o 0x0000 4 f.pkgId.toNat <|>
  reg o 0x0008 4 f.podBound.toNat <|>
  reg o 0x000C 4 (packBits [(0, 16, f.latLocal.toNat), (16, 16, f.latPod.toNat)]) <|>
  reg o 0x0010 4 f.rxQuota.toNat <|>
  reg o 0x0018 8 f.dark.toNat <|>
  reg o 0x0020 8 f.sourCnt.toNat <|>
  reg o 0x0028 8 f.timeoutCnt.toNat <|>
  reg o 0x0030 8 f.refusedCnt.toNat <|>
  reg o 0x0038 8 f.busyRetryCnt.toNat <|>
  reg o 0x0040 4 f.lateCnt.toNat <|>
  reg o 0x0044 4 f.dropCnt.toNat <|>
  regs o 0x100000 16 32768 16 (fun i => (Tbl.look 0 f.seg i).toNat)

def StackMode.code : StackMode → Nat
  | .reset => 0
  | .training => 1
  | .run => 2
  | .selfRefresh => 3
  | .retired => 4

def State.stackWord (s : State) (k : Nat) : Nat :=
  let x := s.stack k
  packBits [(0, 3, StackMode.code x.mode), (3, 2, x.level.toNat), (5, 1, (s.hbm.hot.getLsbD k).toNat), (8, 8, x.temp.toNat),
    (16, 12, countWhere 64 fun i => (s.pseudo (k + 32 * i)).marked)]

def State.hbmWord (s : State) (o : Nat) : Option Nat :=
  let h := s.hbm
  reg o 0x0008 4 h.salt.toNat <|>
  reg o 0x0010 4 (packBits [(0, 8, h.scrubHours.toNat), (8, 1, h.scrubHeld.isSome.toNat)]) <|>
  reg o 0x0018 8 h.ce.toNat <|>
  reg o 0x0020 8 h.ue.toNat <|>
  reg o 0x0028 8 h.lastUe.toNat <|>
  reg o 0x0030 4 h.scrubPass.toNat <|>
  reg o 0x0034 4 h.hot.toNat <|>
  reg o 0x0038 8 h.throttleNs.toNat <|>
  regs o 0x1000 0x40 32 8 s.stackWord <|>
  regs o 0x1008 0x40 32 4 (fun k => (s.stack k).ce.toNat) <|>
  regs o 0x100C 0x40 32 4 (fun k => (s.stack k).ue.toNat) <|>
  regs o 0x4000 8 2048 4 (fun p => packBits [(0, 4, (s.pseudo p).markDie.toNat), (4, 1, (s.pseudo p).marked.toNat),
    (5, 1, (s.pseudo p).exhausted.toNat)])

def PortMode.code : PortMode → Nat
  | .dark => 0
  | .lit => 1
  | .narrow => 2
  | .retired => 3

def State.portWord (s : State) (p : Nat) : Nat :=
  let x := s.port p
  packBits [(0, 2, PortMode.code x.mode), (8, 9, x.txLit.toNat), (17, 9, x.rxLit.toNat), (32, 6, x.txSpare.toNat), (40, 6, x.rxSpare.toNat),
    (48, 4, if p < 16 then popcount 10 (Tbl.look 0 s.board.bundles p).toNat else 0)]

/-- A row with its parked wavelengths in byte 0. -/
def State.rowWord (s : State) (p : Nat) : Nat :=
  packBits ((0, 8, s.parked p) :: rowEntries.map fun j => (8 * j, 8, (s.row p).getD j 0))

def State.flexStatusWord (s : State) (p : Nat) : Nat :=
  let x := Tbl.look {} s.churn.outcomes p
  packBits [(0, 2, x.outcome.toNat), (2, 3, x.bucket.toNat), (5, 6, x.ctx.toNat), (11, 12, x.trigger.toNat), (23, 1, x.fitted.toNat),
    (32, 32, x.frame.toNat)]

def State.chnWord (s : State) (o : Nat) : Option Nat :=
  let c := s.churn
  let owner (p : Nat) : Option Nat := Tbl.look none c.owners p
  reg o 0x0000 8 s.frame <|>
  reg o 0x0008 4 (packBits [(0, 6, c.flexWait.toNat), (6, 1, c.flexWaitHeld.isSome.toNat)]) <|>
  reg o 0x0010 4 0 <|>
  reg o 0x0018 8 c.retuneCnt.toNat <|>
  reg o 0x0020 4 c.grantCnt.toNat <|>
  reg o 0x0024 4 c.refuseCnt.toNat <|>
  reg o 0x0028 4 c.retuneFailCnt.toNat <|>
  reg o 0x0030 8 c.resendCnt.toNat <|>
  regs o 0x1000 8 53 8 s.portWord <|>
  regs o 0x2000 16 16 16 s.rowWord <|>
  regs o 0x2100 8 16 4 (fun p => packBits [(0, 6, (owner p).getD 0), (6, 1, (owner p).isSome.toNat),
    (7, 1, (c.pending.any fun r => r.port == p).toNat)]) <|>
  regs o 0x2200 8 16 8 s.flexStatusWord <|>
  regs o 0x2300 8 16 4 (fun p => s.columnLimit p)

/-! ## RNG, SEP, LNK and LAS (R285, R306, R351, R369) -/

def State.ringsIn (s : State) (f : Ring → Bool) : Nat := (s.rings.table.filter fun e => f e.2).length

def State.rngWord (s : State) (o : Nat) : Option Nat :=
  let r := s.rings
  regs o 0x0000 4 1 4 (fun _ => s.ringsIn fun x => x.state.inService) <|>
  regs o 0x0004 4 1 4 (fun _ => s.ringsIn fun x => x.kind == kindTWIN && x.state == .cold) <|>
  regs o 0x0008 4 1 4 (fun _ => s.ringsIn fun x => x.state == .retired) <|>
  regs o 0x000C 4 1 4 (fun _ => s.ringsIn fun x => x.state == .fault) <|>
  reg o 0x0010 8 r.calCnt.toNat <|>
  reg o 0x0018 8 r.lastCal.toNat <|>
  reg o 0x0020 8 r.mislockCnt.toNat <|>
  reg o 0x0028 4 r.faultCnt.toNat <|>
  reg o 0x002C 4 r.misframeCnt.toNat <|>
  reg o 0x0030 4 r.hashSeq.toNat <|>
  reg o 0x0040 64 r.hash.toNat <|>
  regs o 0x0100 8 30 8 (fun f =>
    let x := Tbl.look {} r.est f
    packBits [(0, 16, x.temp.toNat), (16, 1, x.valid.toNat), (32, 16, x.slope.toNat), (48, 16, x.rings.toNat)]) <|>
  regs o 0x400000 32 131072 32 (fun e => (s.ring e).word (s.ring e).state.code)

def SepMode.code : SepMode → Nat
  | .idle => 0
  | .run => 1
  | .reload => 2
  | .cal => 3

def State.sepStateWord (s : State) (g : Nat) : Nat :=
  let e := s.engine g
  packBits [(0, 3, SepMode.code e.mode), (3, 6, e.matCtx.toNat), (9, 1, e.matValid.toNat), (10, 6, e.runCtx.toNat)]

def State.sepWord (s : State) (o : Nat) : Option Nat :=
  reg o 0x0000 4 s.sepPeriod.toNat <|>
  regs o 0x1000 0x40 16 4 s.sepStateWord <|>
  regs o 0x1004 0x40 16 4 (fun g => (s.engine g).matId.toNat) <|>
  regs o 0x1008 0x40 16 8 (fun g => (s.engine g).jobCnt.toNat) <|>
  regs o 0x1010 0x40 16 8 (fun g => (s.engine g).vecCnt.toNat) <|>
  regs o 0x1018 0x40 16 8 (fun g => (s.engine g).lastCal.toNat) <|>
  regs o 0x1020 0x40 16 8 (fun g => (s.engine g).rowMasked.toNat) <|>
  regs o 0x1028 0x40 16 8 (fun g => (s.engine g).rowRetired.toNat) <|>
  regs o 0x1030 0x40 16 4 (fun g => (s.engine g).reloadCnt.toNat) <|>
  regs o 0x1034 0x40 16 4 (fun g => (s.engine g).calCnt.toNat) <|>
  regs o 0x1038 0x40 16 4 (fun g => (s.engine g).weightMasked.length) <|>
  regs o 0x2000 8 64 4 (fun c => (s.ctx c).sepRing.toNat)

def LinkMode.code : LinkMode → Nat
  | .down => 0
  | .training => 1
  | .up => 2
  | .retrain => 3
  | .miscabled => 4
  | .disabled => 5

def State.linkWord (s : State) (l : Nat) : Nat :=
  let k := s.link l
  packBits [(0, 3, LinkMode.code k.mode), (3, 4, k.width.toNat), (8, 8, k.lanes.toNat), (16, 6, k.peerPkg.toNat), (22, 6, k.peerLink.toNat),
    (28, 2, k.miscable.toNat), (32, 16, k.rtt.toNat)]

def State.lnkWord (s : State) (o : Nat) : Option Nat :=
  reg o 0x0000 8 (maskOf 64 fun l => (s.link l).mode == .up) <|>
  regs o 0x0008 8 1 8 (fun _ => maskOf 64 s.reach) <|>
  reg o 0x0010 4 s.lnk.autoWiden.toNat <|>
  reg o 0x0018 8 0 <|>
  reg o 0x0020 4 s.lnk.transitDrop.toNat <|>
  reg o 0x0024 4 s.lnk.reorderBusy.toNat <|>
  regs o 0x1000 0x20 64 8 s.linkWord <|>
  regs o 0x1008 0x20 64 4 (fun l => (s.link l).crcErr.toNat) <|>
  regs o 0x100C 0x20 64 4 (fun l => (s.link l).replays.toNat) <|>
  regs o 0x1010 0x20 64 4 (fun l => (s.link l).trains.toNat) <|>
  regs o 0x1014 0x20 64 4 (fun l => (s.link l).downs.toNat) <|>
  regs o 0x1018 0x20 64 4 (fun l =>
    let k := s.link l
    packBits [(0, 8, k.laneMask.toNat), (8, 1, k.disable.toNat), (9, 1, (k.laneHeld.isSome || k.disableHeld.isSome).toNat)]) <|>
  regs o 0x4000 4 1024 4 (fun i =>
    let w := s.route (i / 16) (i % 16)
    packBits [(0, 6, routeLink w), (6, 6, routeVia w), (12, 1, routeTier w), (16, 4, routeWeight w), (20, 7, s.routeEff (i / 16) (i % 16))])

def CageMode.code : CageMode → Nat
  | .empty => 0
  | .accepting => 1
  | .rejected => 2
  | .active => 3
  | .standby => 4
  | .out => 5
  | .released => 6

def State.cageWord (s : State) (m : Nat) : Nat :=
  let c := s.cage m
  packBits [(0, 3, CageMode.code c.mode), (3, 3, c.level), (6, 1, c.latchOpen.toNat), (8, 5, c.worstLine), (16, 16, fieldInt 16 c.worstDelta),
    (32, 8, c.temp.toNat)]

def State.sectorWord (s : State) (k : Nat) : Nat :=
  let x := s.sector k
  packBits [(0, 5, x.source.getD 0), (5, 1, x.source.isSome.toNat), (6, 1, (x.swap.any fun y => y.phase == .crossfade).toNat),
    (7, 5, match x.swap with
      | some y => if y.phase = .crossfade then y.target else 0
      | none => 0)]

/-- Byte j of LAS_SPARE_IN_USE: the sector that LSj feeds. -/
def State.spareByte (s : State) (j : Nat) : Nat :=
  match s.fedBy (16 + j) with
  | some k => packBits [(0, 5, k), (7, 1, 1)]
  | none => 0

def State.lasWord (s : State) (o : Nat) : Option Nat :=
  let l := s.las
  reg o 0x0000 4 (packBits [(0, 1, l.autoReturn.toNat), (8, 8, l.schedDelay.toNat)]) <|>
  reg o 0x0008 4 (packBits ((List.range 4).map fun j => (8 * j, 8, s.spareByte j))) <|>
  reg o 0x0010 4 l.swapCnt.toNat <|>
  reg o 0x0014 4 l.emergCnt.toNat <|>
  reg o 0x0018 4 l.dark.toNat <|>
  regs o 0x0100 8 16 4 s.sectorWord <|>
  regs o 0x1000 8 20 8 s.cageWord <|>
  regs o 0x2000 4 640 4 (fun i =>
    let c := s.cage (i / 32)
    let p := Tbl.look 0 c.line (i % 32)
    packBits [(0, 16, fieldInt 16 p), (16, 16, fieldInt 16 (p - Tbl.look 0 c.ref (i % 32)))]) <|>
  regs o 0x3000 4 640 4 (fun i => fieldInt 16 (Tbl.look 0 (s.cage (i / 32)).ref (i % 32)) )

/-! ## SVC (R521, R525, R535) -/

/-- A cage that feeds a sector has no eligible spare. -/
def State.exposed (s : State) : Bool :=
  allSectors.any fun k => (s.sector k).source.any fun m =>
    !([16, 17, 18, 19].any fun t => t != m && s.fit t && !s.targets.contains t)

def State.partRetired (s : State) : Bool :=
  s.inv.vatRetired != 0 || s.inv.vatColumn != 0 || s.inv.dieRetired != 0 || s.inv.dieDarkSector != 0 || s.inv.creamRetired != 0 ||
    s.inv.stackRetired != 0

/-- LED_FAULT: 0 off, 1 1 Hz, 2 steady. -/
def State.faultPattern (s : State) : Nat :=
  if s.err.halt || s.thm.trip then 2 else if s.partRetired || s.svc.unitRecord then 1 else 0

/-- LED_SVC: 0 off, 1 1 Hz, 2 double blink, 3 steady, 4 4 Hz. -/
def State.svcPattern (s : State) : Nat :=
  let v := s.svc
  let cageBad (m : Nat) : Bool := match (s.cage m).mode with
    | .out | .released | .rejected => true
    | _ => decide (1 ≤ (s.cage m).level)
  if s.exposed then 2
  else if v.hold10 || v.draining then 4
  else if v.hold3 || v.standby then 3
  else if allCages.any cageBad then 1
  else 0

def State.svcWord (s : State) (o : Nat) : Option Nat :=
  let v := s.svc
  reg o 0x0000 4 (packBits [(0, 1, v.btnDown.toNat), (1, 1, (v.identTimer || v.identCtl).toNat), (2, 1, v.standby.toNat),
    (3, 1, v.draining.toNat), (4, 1, v.unlocked.toNat), (5, 1, v.lockout.toNat), (6, 2, s.faultPattern), (8, 3, s.svcPattern)]) <|>
  reg o 0x0008 4 v.identCtl.toNat <|>
  reg o 0x0010 4 v.baud.toNat <|>
  reg o 0x0018 4 (packBits [(0, 8, v.cntIdentify.toNat), (8, 8, v.cntQuiesce.toNat), (16, 8, v.cntStandby.toNat), (24, 8, v.cntIgnored.toNat)]) <|>
  reg o 0x0020 8 v.lastPress.toNat <|>
  reg o 0x0028 4 (packBits [(0, 16, v.unlockCnt.toNat), (16, 16, v.failCnt.toNat)])

/-! ## Vats and cream dies (R82 to R84, R184) -/

def RunState.code : RunState → Nat
  | .reset => 0
  | .idle => 1
  | .run => 2
  | .swap => 3
  | .gated => 4
  | .retired => 5

def State.vatStateWord (s : State) (v : Nat) : Nat :=
  let sh := s.shadowCtx v
  let ac := s.activeCtx v
  packBits [(0, 3, RunState.code (s.vat v).run), (3, 6, ac.getD 0), (9, 1, ac.isSome.toNat), (10, 6, sh.getD 0), (16, 1, sh.isSome.toNat),
    (17, 1, (sh.any fun c => (s.ctx c).state.runs).toNat), (18, 1, (s.vat v).plane.toNat)]

def State.ladleStatus (s : State) (v k : Nat) : Nat :=
  let l := (s.plane (s.activePlane v)).ladle k
  let desc := match l.next with
    | some d => d
    | none => (l.iters.head?.map fun i => i.desc).getD 0
  let waits := l.branch.isSome && l.next.isNone
  packBits [(0, 2, if !l.running then 0 else if waits then 3 else 1), (2, 9, desc), (11, 5, l.issued - l.taken), (16, 1, l.branch.isSome.toNat),
    (17, 11, s.ladleEntries v k)]

/-- The sampling point of one receiver: a fixed code in fixed-frequency mode, else what its detector chose (R58). -/
def State.phaseShown (s : State) (v t : Nat) (west : Bool) : Nat :=
  let w := (Tbl.look 0 (s.plane (s.activePlane v)).phase t).toNat
  let code := if west then bitsAt w 4 4 else bitsAt w 0 4
  if (if west then t % 32 = 31 else t / 32 = 31) then 0
  else if code < 8 ∧ (s.vat v).fixed then code
  else if (s.plane (s.activePlane v)).ctx.isNone then 0
  else (Config.autoPhase v t west s.clk.now).toNat

def State.tileRegs (s : State) (v t o : Nat) : Option Nat :=
  let x := s.tile v t
  reg o 0x00 4 (packBits [(0, 8, if x.busy then x.bundle else 0), (8, 1, x.busy.toNat), (9, 1, x.phOvr.toNat),
    (16, 6, if x.busy then x.ctx.toNat else 0)]) <|>
  reg o 0x08 4 x.xflags0.toNat <|>
  reg o 0x0C 4 x.xflags1.toNat <|>
  reg o 0x10 4 (packBits [(0, 3, s.phaseShown v t false), (4, 3, s.phaseShown v t true)])

def State.ladleRegs (s : State) (v k o : Nat) : Option Nat :=
  let l := (s.plane (s.activePlane v)).ladle k
  let n := Tbl.look {} (s.vat v).ldl k
  reg o 0x00 8 (s.ladleStatus v k) <|>
  reg o 0x08 8 l.taken <|>
  reg o 0x10 4 n.squash.toNat <|>
  reg o 0x14 4 n.deferDrop.toNat

def State.ckptId (s : State) (v : Nat) (b : Nat) : Nat := ((s.plane (2 * v + b)).ckpt.map fun k => k.id.toNat).getD 0

def State.vatRegs (s : State) (v o : Nat) : Option Nat :=
  let x := s.vat v
  reg o 0x0000 4 (packBits [(0, 5, v), (5, 3, v / 4), (8, 1, v / 2 % 2), (9, 1, v % 2)]) <|>
  reg o 0x0008 4 (s.vatStateWord v) <|>
  reg o 0x0010 4 (packBits [(0, 6, x.skip.toNat), (6, 1, x.exhausted.toNat)]) <|>
  reg o 0x0018 4 (packBits [(0, 1, x.arm.toNat), (1, 1, x.sliceHeld.isSome.toNat), (16, 16, x.slice.toNat)]) <|>
  reg o 0x0020 4 x.wdogMs.toNat <|>
  reg o 0x0028 8 x.boundaryCnt.toNat <|>
  reg o 0x0030 4 (packBits [(0, 12, x.lastBoundaryId.toNat), (12, 6, x.lastBoundaryCtx.toNat)]) <|>
  reg o 0x0038 8 x.lastBoundaryTime.toNat <|>
  reg o 0x0040 8 x.cycles.toNat <|>
  reg o 0x0048 8 x.stretchCnt.toNat <|>
  reg o 0x0050 4 x.swapCnt.toNat <|>
  reg o 0x0058 4 x.fault.toNat <|>
  reg o 0x10000 8 (s.plane (s.activePlane v)).pc.toNat <|>
  reg o 0x10008 4 (packBits [(0, 8, x.causeCode.toNat), (8, 6, x.causeCtx.toNat)]) <|>
  reg o 0x10010 8 x.tval.toNat <|>
  reg o 0x10018 4 (packBits [(0, 12, s.ckptId v 0), (16, 12, s.ckptId v 1)])

def State.vatWord (s : State) (v o : Nat) : Option Nat :=
  if 0x100000 ≤ o then
    if o < 0x140000 then s.tileRegs v ((o - 0x100000) / 0x100) (o % 0x100) else none
  else if 0x20000 ≤ o then
    if o < 0x20800 then s.ladleRegs v ((o - 0x20000) / 0x100) (o % 0x100) else none
  else s.vatRegs v o

def CreamMode.code : CreamMode → Nat
  | .reset => 0
  | .active => 1
  | .retention => 2
  | .retired => 3

def State.creamWord (s : State) (c o : Nat) : Option Nat :=
  let x := s.cream c
  reg o 0x0000 4 (packBits [(0, 4, c), (4, 3, c / 2), (7, 1, c % 2)]) <|>
  reg o 0x0008 4 (packBits [(0, 2, CreamMode.code x.mode), (2, 1, x.waking.toNat), (3, 2, x.level.toNat), (5, 1, (s.vat (2 * c)).tsRetained.toNat),
    (6, 1, (s.vat (2 * c + 1)).tsRetained.toNat)]) <|>
  reg o 0x0010 4 (packBits [(0, 1, x.retEn.toNat), (16, 16, x.retIdle.toNat)]) <|>
  reg o 0x0018 4 (packBits [(0, 8, x.own.toNat), (8, 8, x.beneath.toNat)]) <|>
  reg o 0x0020 8 x.throttleNs.toNat <|>
  reg o 0x0028 4 x.ce.toNat <|>
  reg o 0x002C 4 x.ue.toNat <|>
  reg o 0x0030 4 x.tsCe.toNat <|>
  reg o 0x0034 4 x.tsUe.toNat <|>
  reg o 0x0038 8 x.lastUe.toNat <|>
  reg o 0x0040 4 x.scrubPass.toNat <|>
  reg o 0x0048 4 x.wakeCnt.toNat

/-! ## The window (R187, R188) -/

def windowBase : Nat := 0x3F0000000000

/-- The word at offset w of the register window, where a register has one. -/
def State.regWord (s : State) (w : Nat) : Option Nat :=
  let o := w % 0x1000000
  match w / 0x1000000 with
  | 0x00 => s.mcWord o
  | 0x01 => s.secWord o
  | 0x02 => s.clkWord o
  | 0x03 => s.timWord o
  | 0x04 => s.pwrWord o
  | 0x05 => s.thmWord o
  | 0x06 => s.ethWord o
  | 0x07 => s.kcpWord o
  | 0x08 => s.ctxWord o
  | 0x09 => s.errWord o
  | 0x0A => s.fabWord o
  | 0x0B => s.hbmWord o
  | 0x0C => s.chnWord o
  | 0x0D => s.rngWord o
  | 0x0E => s.sepWord o
  | 0x0F => s.lnkWord o
  | 0x10 => s.lasWord o
  | 0x11 => s.svcWord o
  | b =>
    if 0x40 ≤ b ∧ b < 0x60 then s.vatWord (b - 0x40) o
    else if 0x60 ≤ b ∧ b < 0x70 then s.creamWord (b - 0x60) o
    else none

/-- Blocks of a die in reset, or of a retired die or cream die, do not answer (R80, R183). -/
def State.blockDark (s : State) (w : Nat) : Bool :=
  let b := w / 0x1000000
  if 0x40 ≤ b ∧ b < 0x60 then !s.vatReachable (b - 0x40)
  else if 0x60 ≤ b ∧ b < 0x70 then
    let c := b - 0x60
    !s.dieIn (c / 2) || s.inv.dieInReset.getLsbD (c / 2) || (s.cream c).mode == .retired || (s.cream c).mode == .reset
  else false

/-- What an access of n bytes at a local address finds: a register's bytes with 0 for the others, or why it fails. -/
def State.regRead (s : State) (addr n : Nat) : Except SourCause Nat :=
  if (n ≠ 4 ∧ n ≠ 8) ∨ addr % n ≠ 0 ∨ addr < windowBase ∨ windowBase + 2 ^ 40 ≤ addr then .error .unmapped
  else
    let w := addr - windowBase
    match s.regWord w, (if n = 8 then s.regWord (w + 4) else none) with
    | none, none => .error .unmapped
    | lo, hi => if s.blockDark w then .error .dark else .ok (lo.getD 0 + hi.getD 0 * 2 ^ 32)

/-! ## Writes -/

/-- A value to hold for a staged field whose unit runs: none where it is the value in effect (R14). -/
def heldValue {α : Type} [DecidableEq α] (now new : α) : Option α := if new = now then none else some new

def State.vatRuns (s : State) (v : Nat) : Bool := (s.vat v).run == .run || (s.vat v).run == .swap

def State.writeSwapCtrl (s : State) (v x : Nat) : State :=
  let slice : W16 := BitVec.ofNat 16 (bitsAt x 16 16)
  let s1 := s.onVat v fun y =>
    if s.vatRuns v then { y with sliceHeld := heldValue y.slice slice } else { y with slice := slice, sliceHeld := none }
  if bitAt x 0 then s1.swapArm v else s1

def State.writeVatCtrl (s : State) (v x : Nat) : State :=
  let fixed := bitAt x 0
  let f : BitVec 7 := BitVec.ofNat 7 (clampNat 32 s.fuses.variant.ceiling (bitsAt x 8 7))
  let now : BitVec 7 := BitVec.ofNat 7 (s.freqField v)
  s.onVat v fun y =>
    if s.vatRuns v then { y with fixedHeld := heldValue y.fixed fixed, freqHeld := heldValue now f }
    else { y with fixed := fixed, fixedHeld := none, freq := some f, freqHeld := none }

def State.writeFlexWait (s : State) (x : Nat) : State :=
  let w : BitVec 6 := BitVec.ofNat 6 (clampNat 1 32 (bitsAt x 0 6))
  let c := s.churn
  { s with churn := if c.running then { c with flexWaitHeld := heldValue c.flexWait w } else { c with flexWait := w, flexWaitHeld := none } }

def State.writeHbmCtrl (s : State) (x : Nat) : State :=
  let h : Byte := BitVec.ofNat 8 (clampNat 1 168 (bitsAt x 0 8))
  let c := s.hbm
  if c.running then { s with hbm := { c with scrubHeld := heldValue c.scrubHours h } }
  else
    let all := (List.range 32).foldl (fun t k => Tbl.upd {} t k fun y => { y with scrubHours := h }) c.stackTbl
    { s with hbm := { c with scrubHours := h, scrubHeld := none, stackTbl := all } }

def State.writeEthCfg (s : State) (x : Nat) : State :=
  let w : W32 := BitVec.ofNat 32 (packBits [(0, 2, bitsAt x 0 2), (8, 8, bitsAt x 8 8), (16, 3, bitsAt x 16 3), (19, 3, bitsAt x 19 3),
    (24, 5, bitsAt x 24 5)])
  let s1 := { s with eth := { s.eth with cfg := w } }
  if s.eth.cfg.toNat % 4 = x % 4 then s1 else s1.ethSettle

/-- W1C bits of ERR_STATUS. -/
def State.writeErrStatus (s : State) (x : Nat) : State :=
  let e := s.err
  let s1 := { s with err := { e with cfgRefused := e.cfgRefused && !bitAt x 0, overflow := e.overflow && !bitAt x 1 } }
  if bitAt x 5 then s1.dumpReleased else s1

/-- ERR_RESET_REQ: the dump first, then only the largest reset (R492). -/
def State.writeResetReq (s : State) (x : Nat) : State :=
  let s1 := if bitAt x 12 then s.dumpStart 3 (BitVec.allOnes 64) else s
  if bitAt x 10 then s1.askCompute
  else if bitAt x 11 then s1.askMgmt
  else if bitAt x 9 then s1.askDie (bitsAt x 6 3)
  else if bitAt x 5 then s1.askVat (bitsAt x 0 5)
  else s1

def State.writeSvcCtrl (s : State) (x : Nat) : State :=
  let s1 := { s with svc := { s.svc with identCtl := bitAt x 0, unitRecord := s.svc.unitRecord && !bitAt x 2 } }
  let s2 := if bitAt x 1 then s1.leaveStandby 1 else s1
  if bitAt x 3 then s2.lockMonitor else s2

/-- A refused FROZEN write, or the effect of one that is not. -/
def State.frozen (s : State) (runs : Bool) (w : Writer) (off x : Nat) (f : State → State) : Bool × State :=
  if runs then (true, s.cfgRefuse (windowBase + off) w x) else (false, f s)

/-- The index of an array member whose first word is at offset o. -/
def member (o base stride count : Nat) : Option Nat :=
  if base ≤ o ∧ o < base + stride * count ∧ (o - base) % stride = 0 then some ((o - base) / stride) else none

/-- Writes to block CTX: NOREPLAY is FROZEN while its context runs; the weight is LIVE. -/
def State.writeCtxBlock (s : State) (w : Writer) (off x : Nat) : Bool × State :=
  let o := off % 0x1000000
  match member o 0x0200 8 64, member o 0x0400 8 64 with
  | some c, _ => s.frozen (s.ctx c).state.runs w off x fun a => a.onCtx c fun y => { y with noreplay := bitAt x 0 }
  | none, some c => (false, s.onCtx c fun y => { y with weight := BitVec.ofNat 4 (max 1 (bitsAt x 0 4)) })
  | none, none => (false, s)

def State.writeSepBlock (s : State) (w : Writer) (off x : Nat) : Bool × State :=
  let o := off % 0x1000000
  if o = 0 then (false, { s with sepPeriod := BitVec.ofNat 17 (clampNat 100 100000 (bitsAt x 0 17)) })
  else match member o 0x2000 8 64 with
    | some c => s.frozen (s.ctx c).state.runs w off x fun a => a.onCtx c fun y =>
        { y with sepRing := BitVec.ofNat 27 (withBits (x % 2 ^ 27) 10 3 (min 6 (bitsAt x 10 3))) }
    | none => (false, s)

def State.writeHbmBlock (s : State) (w : Writer) (off x : Nat) : Bool × State :=
  match off % 0x1000000 with
  | 0x08 => s.frozen s.hbm.running w off x fun a => { a with hbm := { a.hbm with salt := BitVec.ofNat 19 (x % 2 ^ 19) } }
  | 0x10 => (false, s.writeHbmCtrl x)
  | _ => (false, s)

def State.writeFabBlock (s : State) (o x : Nat) : State :=
  match o with
  | 0x08 => { s with fab := { s.fab with podBound := BitVec.ofNat 9 (clampNat 50 250 (bitsAt x 0 9)) } }
  | 0x0C => { s with fab := { s.fab with latLocal := BitVec.ofNat 16 (bitsAt x 0 16), latPod := BitVec.ofNat 16 (bitsAt x 16 16) } }
  | 0x10 => { s with fab := { s.fab with rxQuota := BitVec.ofNat 14 (bitsAt x 0 14) } }
  | _ => s

def State.writeLnkBlock (s : State) (o x : Nat) : State :=
  if o = 0x10 then { s with lnk := { s.lnk with autoWiden := bitAt x 0 } }
  else if o = 0x18 then s.lnkRetrain x
  else if o = 0x1C then s.lnkRetrain (x * 2 ^ 32)
  else if 0x1018 ≤ o ∧ o < 0x1018 + 0x20 * 64 ∧ (o - 0x1018) % 0x20 = 0 then s.writeLnkCfg ((o - 0x1018) / 0x20) x
  else if 0x4000 ≤ o ∧ o < 0x5000 then s.writeRoute ((o - 0x4000) / 64) ((o - 0x4000) / 4 % 16) x
  else s

def State.writeMcBlock (s : State) (o x : Nat) : State :=
  match o with
  | 0x58 => if bitAt x 0 then s.raiseHandover .host else s
  | 0x70 => { s with mc := { s.mc with enterRecovery := bitAt x 0 } }
  | _ => s

def State.writePwrBlock (s : State) (o x : Nat) : State :=
  match o with
  | 0x10 => s.setLimit (bitsAt x 0 16)
  | 0x18 => { s with pwr := { s.pwr with grace := BitVec.ofNat 8 (clampNat 1 200 (bitsAt x 0 8)) } }
  | _ => s

def State.writeSvcBlock (s : State) (o x : Nat) : State :=
  match o with
  | 0x08 => s.writeSvcCtrl x
  | 0x10 => { s with svc := { s.svc with baud := BitVec.ofNat 22 (clampNat 9600 3000000 (bitsAt x 0 22)) } }
  | _ => s

def State.writeKcpCfg (s : State) (x : Nat) : State :=
  { s with kcp := { s.kcp with idleTimeout := BitVec.ofNat 8 (clampNat 10 255 (bitsAt x 0 8)),
                               fwdTimeout := BitVec.ofNat 8 (clampNat 1 120 (bitsAt x 16 8)) } }

def State.writeLasCtrl (s : State) (x : Nat) : State :=
  { s with las := { s.las with autoReturn := bitAt x 0, schedDelay := BitVec.ofNat 8 (max 1 (bitsAt x 8 8)) } }

def State.writeTileReg (s : State) (v t o x : Nat) : State :=
  let keep : BitVec 9 := ~~~(BitVec.ofNat 9 x)
  match o with
  | 0x08 => s.onTile v t fun y => { y with xflags0 := y.xflags0 &&& keep }
  | 0x0C => s.onTile v t fun y => { y with xflags1 := y.xflags1 &&& keep }
  | _ => s

def State.writeVatBlock (s : State) (v o x : Nat) : State :=
  if 0x100000 ≤ o then
    if o < 0x140000 then s.writeTileReg v ((o - 0x100000) / 0x100) (o % 0x100) x else s
  else match o with
    | 0x18 => s.writeSwapCtrl v x
    | 0x20 => s.onVat v fun y => { y with wdogMs := BitVec.ofNat 14 (clampNat 1 10000 (bitsAt x 0 14)) }
    | 0x58 => s.onVat v fun y => { y with fault := y.fault &&& ~~~(BitVec.ofNat 4 x) }
    | _ => s

/-- A 32-bit write at a word of the window. The Bool says that a FROZEN field refused it. -/
def State.writeWord (s : State) (w : Writer) (off x : Nat) : Bool × State :=
  let o := off % 0x1000000
  match off / 0x1000000 with
  | 0x00 => (false, s.writeMcBlock o x)
  | 0x02 => (false, match member o 0x1000 0x20 32 with
    | some v => s.writeVatCtrl v x
    | none => s)
  | 0x04 => (false, s.writePwrBlock o x)
  | 0x06 => (false, if o = 0x08 then s.writeEthCfg x else s)
  | 0x07 => (false, if o = 0x08 then s.writeKcpCfg x else s)
  | 0x08 => s.writeCtxBlock w off x
  | 0x09 => (false, if o = 0 then s.writeErrStatus x else if o = 0x20 then s.writeResetReq x else s)
  | 0x0A => (false, s.writeFabBlock o x)
  | 0x0B => s.writeHbmBlock w off x
  | 0x0C => (false, if o = 0x08 then s.writeFlexWait x else if o = 0x10 then s.flexReleaseMask (bitsAt x 0 16) else s)
  | 0x0E => s.writeSepBlock w off x
  | 0x0F => (false, s.writeLnkBlock o x)
  | 0x10 => (false, if o = 0 then s.writeLasCtrl x else s)
  | 0x11 => (false, s.writeSvcBlock o x)
  | b =>
    if 0x40 ≤ b ∧ b < 0x60 then (false, s.writeVatBlock (b - 0x40) o x)
    else if 0x60 ≤ b ∧ b < 0x70 then (false, if o = 0x10 then s.writeCrmCtrl (b - 0x60) (BitVec.ofNat 32 x) else s)
    else (false, s)

/-- Whether an offset of the window lies in FAB_SEG. -/
def inSeg (off : Nat) : Bool := decide (0xA100000 ≤ off ∧ off < 0xA100000 + 16 * 32768)

/-- Whether an offset of the window lies in RNG_TABLE, which serves no write (R268). -/
def inRingTable (off : Nat) : Bool := decide (0xD400000 ≤ off ∧ off < 0xD400000 + 32 * 131072)

/-- A piece of a segment entry: the entry with the piece is written as R190 to R192 say. -/
def State.writeSegPiece (s : State) (w : Writer) (off n x : Nat) : Bool × State :=
  let i := (off - 0xA100000) / 16
  let e := withBits (Tbl.look 0 s.fab.seg i).toNat (8 * (off % 16)) (8 * n) x
  let (st, s1) := s.writeSeg i (BitVec.ofNat 128 e) w
  (st == stRefused, s1)

/-- A write of n bytes at a local address: why it fails, or whether a FROZEN field refused it, with the state after it.
The words it covers are written in turn, each under its own access codes (R188). -/
def State.regWrite (s : State) (w : Writer) (addr n x : Nat) : Except SourCause (Bool × State) :=
  match s.regRead addr n with
  | .error c => .error c
  | .ok _ =>
    let off := addr - windowBase
    if inRingTable off then .error .unmapped
    else if inSeg off then .ok (s.writeSegPiece w off n x)
    else
      let (r1, s1) := s.writeWord w off (bitsAt x 0 32)
      if n = 8 then
        let (r2, s2) := s1.writeWord w (off + 4) (bitsAt x 32 32)
        .ok (r1 || r2, s2.finish)
      else .ok (r1, s1.finish)

/-- REGISTER_WRITE: a write by the controller on its own behalf, for the monitor or for a session. One that finds no
register leaves everything as it is. -/
def execRegisterWrite (w : Writer) (addr : BitVec 46) (wide : Bool) (value : W64) (s : State) : Host.Outcome State Fault Refusal :=
  .next (match s.regWrite w addr.toNat (if wide then 8 else 4) value.toNat with
    | .ok (_, s1) => s1
    | .error _ => s)

/-! ## REG_READ and REG_WRITE (R444) -/

/-- Values of the reads: a dark block gives the sour pattern; an address outside the window's registers refuses all. -/
def State.readAll' (s : State) : List (W64 × Byte) → Option (Bool × List Byte)
  | [] => some (true, [])
  | (a, n) :: rest =>
    match s.regRead a.toNat n.toNat, s.readAll' rest with
    | .error .dark, some (_, bs) => some (false, leBytes 8 sourWord.toNat ++ bs)
    | .ok v, some (ok, bs) => some (ok, leBytes 8 v ++ bs)
    | _, _ => none

def execRegRead (src : KcpSrc) (req : W32) (reads : List (W64 × Byte)) (s : State) : Host.Outcome State Fault Refusal :=
  .next (if reads.isEmpty ∨ 128 < reads.length then s.reply src req 0x0020 stBadMessage []
    else match s.readAll' reads with
      | some (ok, bs) => s.reply src req 0x0020 (if ok then stOK else stResults) bs
      | none => s.reply src req 0x0020 stRange [])

/-- REG_WRITE of a session: FAB_SEG answers RANGE; in recovery only ERR_STATUS is written (R504). -/
def State.kcpWrite (s : State) (src : KcpSrc) (req : W32) (addr n x : Nat) : State :=
  if inSeg (addr - windowBase) ∨ (s.inRecovery ∧ addr ≠ windowBase + 0x9000000) then s.reply src req 0x0021 stRange []
  else match s.regWrite (KcpSrc.writer src) addr n x with
    | .error .dark => s.reply src req 0x0021 stState []
    | .error _ => s.reply src req 0x0021 stRange []
    | .ok (refused, s1) =>
      let back := match s1.regRead addr n with
        | .ok v => v
        | .error _ => sourWord.toNat
      s1.reply src req 0x0021 (if refused then stRefused else stOK) (leBytes 8 back)

def execRegWrite (src : KcpSrc) (req : W32) (addr : W64) (width : Byte) (value : W64) (s : State) : Host.Outcome State Fault Refusal :=
  .next (s.kcpWrite src req addr.toNat width.toNat value.toNat)

end Sys2Proof.Machine
end

