-- ==== Sys2Proof/Machine/Monitor.lean ====
section
/-! DEFINITION. The UART monitor: lines and locks, what its commands print, peek, poke and the unlock (R527 to R533). -/

namespace Sys2Proof.Machine

/-! ## Lines (R527 to R529) -/

/-- Prints lines. -/
def State.print (s : State) (l : List MonLine) : State := { s with svc := { s.svc with out := s.svc.out ++ l } }

/-- The end of a command. -/
def State.done (s : State) : State := s.print [.ok, .prompt]
def State.fail (s : State) (why : String) : State := s.print [.err why, .prompt]

/-- The monitor takes input: its controller runs, or a trip has left it running (R419, R529). -/
def State.monServes (s : State) : Bool := !s.mc.mgmtReset && (s.mcServes || s.thm.trip)

/-- A line of input. `locked` says that the command belongs to the locked set, `rom` that the boot ROM serves it. -/
def State.monitor (s : State) (locked rom : Bool) (f : State → State) : State :=
  if !s.monServes then s
  else
    let s1 := { s with svc := { s.svc with following := false } }
    if (s.inRecovery && !rom) || (s.thm.trip && !locked) then s1.fail "state"
    else if !locked && !s.svc.unlocked then s1.fail "locked"
    else f s1

def execUartBreak (s : State) : Host.Outcome State Fault Refusal :=
  .next { s.lockMonitor with svc := { s.lockMonitor.svc with baud := 115200 } }

def execMonLineTooLong (s : State) : Host.Outcome State Fault Refusal := .next (s.monitor true true fun s => s.fail "line")
def execMonSyntaxError (s : State) : Host.Outcome State Fault Refusal := .next (s.monitor true true fun s => s.fail "syntax")

/-! ## What the locked set prints (R530) -/

/-- Commands of R530 with whether each is available locked and in recovery. -/
def monCommands : List (String × Bool × Bool) :=
  [("help", true, true), ("id", true, true), ("time", true, true), ("temp", true, false), ("pwr", true, false), ("lanes", true, false),
   ("rings", true, false), ("laser", true, false), ("ctx", true, false), ("err", true, true), ("log", true, false),
   ("peek", false, false), ("poke", false, false), ("dump", false, false), ("ctx pause|launch|destroy", false, false),
   ("unlock", true, false)]

def State.printHelp (s : State) : State :=
  let shown := monCommands.filter fun e => if s.inRecovery then e.2.2 else e.2.1 || (s.svc.unlocked && !s.thm.trip)
  (s.print (shown.map fun e => .text e.1)).done

def execMonHelp (s : State) : Host.Outcome State Fault Refusal := .next (s.monitor true true State.printHelp)

def execMonId (s : State) : Host.Outcome State Fault Refusal :=
  .next (s.monitor true true fun s => (s.print [.bytes s.identity]).done)

/-- The n-byte register at an offset of the window. -/
def State.regField (s : State) (name : String) (off n : Nat) : MonLine :=
  .field name ((s.regWord off).getD 0 + (if n = 8 then (s.regWord (off + 4)).getD 0 * 2 ^ 32 else 0))

/-- Members of a register array. -/
def State.regFields (s : State) (name : String) (base stride count n : Nat) : List MonLine :=
  (List.range count).map fun i => s.regField (name ++ toString i) (base + stride * i) n

def execMonTime (s : State) : Host.Outcome State Fault Refusal :=
  .next (s.monitor true true fun s =>
    (s.print [s.regField "TIM_NOW" 0x3000000 8, s.regField "CLK_REF_STATUS" 0x2000000 4, s.regField "CLK_HOLDOVER_NS" 0x2000010 8]).done)

/-- The hottest value, level and broken sensors of every vat, Churn field and stack. -/
def State.temps (s : State) : List MonLine :=
  s.regFields "vat " 0x5001000 8 32 8 ++ s.regFields "field " 0x5002000 8 30 8 ++ s.regFields "stack " 0x5003000 4 32 4 ++
    (List.range 32).map fun k => .field ("level of stack " ++ toString k) (s.stack k).level.toNat

def execMonTemp (s : State) : Host.Outcome State Fault Refusal :=
  .next (s.monitor true false fun s => (s.print s.temps).done)

def execMonPwr (s : State) : Host.Outcome State Fault Refusal :=
  .next (s.monitor true false fun s =>
    (s.print [s.regField "PWR_NOW" 0x4000008 4, s.regField "PWR_LIMIT_EFF" 0x4000014 4, s.regField "PWR_STATUS" 0x4000020 4]).done)

def execMonLanes (s : State) : Host.Outcome State Fault Refusal :=
  .next (s.monitor true false fun s =>
    (s.print (s.regFields "link " 0xF001000 0x20 64 8 ++ [s.regField "ETH_STATUS" 0x6000000 4] ++ s.regFields "port " 0xC001000 8 16 8)).done)

/-- The counters of R285, and with a number that entry of the table as R266 gives it. -/
def State.printRings (s : State) (e : Option Nat) : State :=
  let counters := [s.regField "RNG_IN_SERVICE" 0xD000000 4, s.regField "RNG_TWIN_FREE" 0xD000004 4, s.regField "RNG_RETIRED" 0xD000008 4,
    s.regField "RNG_FAULT_NOW" 0xD00000C 4, s.regField "RNG_CAL_CNT" 0xD000010 8, s.regField "RNG_LAST_CAL" 0xD000018 8,
    s.regField "RNG_MISLOCK_CNT" 0xD000020 8, s.regField "RNG_FAULT_CNT" 0xD000028 4, s.regField "RNG_MISFRAME_CNT" 0xD00002C 4,
    s.regField "RNG_HASH_SEQ" 0xD000030 4]
  match e with
  | none => (s.print counters).done
  | some i =>
    if 131072 ≤ i then s.fail "range"
    else
      let r := s.ring i
      (s.print (counters ++ [.field "DAC" r.dac.toNat, .field "CHANNEL" r.chan.toNat, .field "KIND" r.kind.toNat,
        .field "STATE" (RingState.code r.state), .field "PILOT" r.pilot.toNat, .field "NBR" r.nbr.toNat, .field "COEF" r.coef.toNat,
        .field "CAL_COUNT" r.calCount.toNat, .field "LAST_CAL_FRAME" r.lastCalFrame.toNat])).done

def execMonRings (entry : Option Nat) (s : State) : Host.Outcome State Fault Refusal :=
  .next (s.monitor true false fun s => s.printRings entry)

/-- Whether the extraction of cage m would darken the sector that it feeds. -/
def State.wouldDarken (s : State) (m : Nat) : Bool :=
  (s.fedBy m).isSome && !([16, 17, 18, 19].any fun t => t != m && s.fit t && !s.targets.contains t)

def State.lasers (s : State) : List MonLine :=
  s.regFields "cage " 0x10001000 8 20 8 ++ s.regFields "sector " 0x10000100 8 16 4 ++
    (List.range 20).flatMap fun m => if s.wouldDarken m then [.field "darkens" m] else []

def execMonLaser (s : State) : Host.Outcome State Fault Refusal :=
  .next (s.monitor true false fun s => (s.print s.lasers).done)

def execMonCtx (s : State) : Host.Outcome State Fault Refusal :=
  .next (s.monitor true false fun s => (s.print (s.regFields "context " 0x8000000 8 64 8)).done)

/-- Records from `seq` on, at most 64; the last 16 where none is named. -/
def State.errLines (s : State) (seq n : Option Nat) : List MonLine :=
  let count := min 64 (n.getD (if seq.isNone then 16 else 64))
  let first := seq.getD (s.err.seqNext.toNat - count)
  (s.errFrom first count).2.map fun r => .bytes r.bytes

def execMonErr (seq n : Option Nat) (s : State) : Host.Outcome State Fault Refusal :=
  .next (s.monitor true true fun s => (s.print (s.errLines seq n)).done)

/-- The last n lines of the firmware's text log. -/
def State.logLines (s : State) (n : Nat) : List MonLine := let l := Config.logText s.clk.now
  (l.drop (l.length - min n 200)).map .text

def execMonLog (n : Nat) (s : State) : Host.Outcome State Fault Refusal :=
  .next (s.monitor true false fun s => (s.print (s.logLines n)).done)

/-- The log streams until a key is pressed; the command ends then. -/
def execMonLogFollow (s : State) : Host.Outcome State Fault Refusal :=
  .next (s.monitor true false fun s => { s with svc := { s.svc with following := true } })

def execLogFollowKeypress (s : State) : Host.Outcome State Fault Refusal :=
  .next (if s.monServes && s.svc.following then { s with svc := { s.svc with following := false } }.done else s)

/-! ## peek and poke (R530, R531) -/

/-- A load of one word through the memory: its status, and the bytes. -/
def State.peekMem (s : State) (a n : Nat) : Nat × Nat :=
  match s.targetDown a with
  | some _ => ((Status.sour .dark).code, bitsAt (sourWord.toNat) 0 (8 * n))
  | none =>
    if s.badIn (a / 64 * 64) 64 then ((Status.sour .target).code, bitsAt sourWord.toNat 0 (8 * n)) else (0, leNat (s.localBytes a n))

/-- An aligned word: a register, or memory through one load cell. -/
def State.peekAt (s : State) (a n : Nat) : Nat × Nat :=
  match regionOf a with
  | .register _ => match s.regRead a n with
    | .ok v => (0, v)
    | .error c => ((Status.sour c).code, bitsAt sourWord.toNat 0 (8 * n))
  | _ => s.peekMem a n

def execPeek (addr : W64) (wide : Bool) (s : State) : Host.Outcome State Fault Refusal :=
  .next (s.monitor false false fun s =>
    let n := if wide then 8 else 4
    if addr.toNat % n ≠ 0 ∨ 2 ^ 46 ≤ addr.toNat then s.fail "range"
    else
      let r := s.peekAt addr.toNat n
      (s.print [.field "address" addr.toNat, .field "value" r.2, .field "status" r.1]).done)

/-- A byte-masked store of n bytes at an aligned address: its status, and the state after it. -/
def State.pokeMem (s : State) (a n x : Nat) : Nat × State :=
  match s.targetDown a with
  | some _ => ((Status.sour .dark).code, s)
  | none =>
    let cell := a / 64 * 64
    let mask := (2 ^ n - 1) * 2 ^ (a % 64)
    let data := BitVec.ofNat 512 (x % 2 ^ (8 * n) * 2 ^ (8 * (a % 64)))
    if s.badIn cell 64 then ((Status.sour .target).code, s)
    else (0, s.setLocalCell cell (mergeCell (s.localCell cell) data mask))

/-- The INFO record of a poke; outcomes are 0 done, 1 refused, 2 out of range, and 16 and up a failed status (log 46). -/
def State.notePoke (s : State) (addr value : W64) (outcome : Nat) : State :=
  s.note 0x1105 .info (unitMc s.mc.owner) [addr, value, BitVec.ofNat 64 outcome]

/-- A poke of a register: FROZEN fields refuse it, and its answer is the value read back. -/
def State.pokeReg (s : State) (addr : W64) (n : Nat) (value : W64) : State :=
  if inSeg (addr.toNat - windowBase) then (s.notePoke addr value 2).fail "range"
  else match s.regWrite .monitor addr.toNat n value.toNat with
    | .error c => ((s.notePoke addr value (16 + (Status.sour c).code)).print [.field "status" (Status.sour c).code]).done
    | .ok (true, s1) => (s1.notePoke addr value 1).fail "refused"
    | .ok (false, s1) => ((s1.notePoke addr value 0).print [.field "address" addr.toNat, .field "reads" (s1.peekAt addr.toNat n).2]).done

/-- A poke of memory through one byte-masked store cell. -/
def State.pokeCell (s : State) (addr : W64) (n : Nat) (value : W64) : State :=
  match s.pokeMem addr.toNat n value.toNat with
  | (0, s1) => ((s1.notePoke addr value 0).print [.field "address" addr.toNat, .field "reads" (s1.peekAt addr.toNat n).2]).done
  | (st, s1) => ((s1.notePoke addr value (16 + st)).print [.field "status" st]).done

def State.poke (s : State) (addr : W64) (n : Nat) (value : W64) : State :=
  if addr.toNat % n ≠ 0 ∨ 2 ^ 46 ≤ addr.toNat then (s.notePoke addr value 2).fail "range"
  else match regionOf addr.toNat with
    | .register _ => s.pokeReg addr n value
    | _ => s.pokeCell addr n value

def execPoke (addr : W64) (wide : Bool) (value : W64) (s : State) : Host.Outcome State Fault Refusal :=
  .next (s.monitor false false fun s => s.poke addr (if wide then 8 else 4) value).finish

/-! ## Dumps and contexts (R530) -/

def execMonDump (s : State) : Host.Outcome State Fault Refusal :=
  .next (s.monitor false false fun s =>
    let s1 := s.dumpStart 4 (BitVec.allOnes 64)
    if s.err.dump.valid || s.err.dump.busy then s1.fail "busy" else s1.done)

def execMonDumpInfo (s : State) : Host.Outcome State Fault Refusal :=
  .next (s.monitor false false fun s =>
    if s.heldDump.isEmpty then s.fail "state" else (s.print [.bytes (s.heldDump.take 64)]).done)

def execMonDumpRead (offset length : Nat) (s : State) : Host.Outcome State Fault Refusal :=
  .next (s.monitor false false fun s =>
    if 4096 < length then s.fail "range"
    else if s.heldDump.isEmpty then s.fail "state"
    else (s.print [.bytes ((s.heldDump.drop offset).take length)]).done)

/-- The end of a context command. -/
def State.answered (s : State) (st : Nat) : State := if st = stOK then s.done else s.fail "state"

def execMonCtxPause (n : Nat) (s : State) : Host.Outcome State Fault Refusal :=
  .next (s.monitor false false fun s =>
    if n < 64 then (s.tryPause n).2.answered (s.tryPause n).1 else s.fail "range")

def execMonCtxLaunch (n : Nat) (s : State) : Host.Outcome State Fault Refusal :=
  .next (s.monitor false false fun s =>
    if n < 64 then (s.tryLaunch n).2.answered (s.tryLaunch n).1 else s.fail "range")

/-- A destroy that waits for a context reset goes on after the command. -/
def execMonCtxDestroy (n : Nat) (s : State) : Host.Outcome State Fault Refusal :=
  .next (s.monitor false false fun s =>
    if n < 64 then (s.tryDestroy n none).2.done else s.fail "range")

/-! ## Unlocking (R532, R533) -/

/-- The challenge line: the serial number, the time and a nonce; then the prompt for the key. -/
def State.offerChallenge (s : State) : State :=
  if s.svc.lockout then s.fail "locked"
  else
    let (k, s1) := s.takeFree
    let n := leBytes 32 (Config.challenge k).toNat
    { s1 with svc := { s1.svc with challenge := some (n, s.clk.now) } }.print
      [.bytes (beBytes 16 s.fru.serial.toNat), .field "t" s.time, .bytes n, .text "key> "]

def execUnlock (s : State) : Host.Outcome State Fault Refusal := .next (s.monitor true false State.offerChallenge)

/-- What the signature of R532 signs, before its SHA-512. -/
def State.unlockMessage (s : State) (n : List Byte) (t : W64) : List Byte :=
  ascii "vlv unlock" ++ beBytes 16 s.fru.serial.toNat ++ n ++ leBytes 8 t.toNat

/-- A failed unlock; steps are 1 the challenge, 2 the signature, 3 the host key table (log 46). The third failure within
ten minutes locks the command out. -/
def State.unlockFails (s : State) (step : Nat) : State :=
  let recent := (s.clk.now :: s.svc.failTimes).filter fun t => decide (s.time < t.toNat + 600000000000)
  let s1 := { s with svc := { s.svc with failCnt := bump s.svc.failCnt, failTimes := recent,
                                         lockout := s.svc.lockout || decide (3 ≤ recent.length) } }
  (s1.note 0x1104 .info (unitMc s.mc.owner) [BitVec.ofNat 64 step]).fail "refused"

/-- An answer to the challenge, which serves once and for 120 s. -/
def State.answerChallenge (s : State) (key sig : List Byte) : State :=
  let s0 := { s with svc := { s.svc with challenge := none } }
  match s.svc.challenge with
  | none => s0.unlockFails 1
  | some (n, t) =>
    if t.toNat + 120000000000 < s.time then s0.unlockFails 1
    else if !ecdsaVerify key (s.unlockMessage n t) sig then s0.unlockFails 2
    else match s.fru.hostKeys.findIdx? fun h => h == digestOf key with
      | none => s0.unlockFails 3
      | some i =>
        (({ s0 with svc := { s0.svc with unlocked := true, unlockCnt := bump s0.svc.unlockCnt } }.note 0x1103 .info (unitMc s.mc.owner)
          [BitVec.ofNat 64 i]).print [.field "unlocked host-key" i]).done

def execUnlockResponse (key sig : List Byte) (s : State) : Host.Outcome State Fault Refusal :=
  .next (s.monitor true false fun s => s.answerChallenge key sig)

def execUnlockEnd (s : State) : Host.Outcome State Fault Refusal := .next (s.monitor true false fun s => s.lockMonitor.done)

def execUnlockIdleTimeout (s : State) : Host.Outcome State Fault Refusal := .next s.lockMonitor

def execUnlockLockoutExpire (s : State) : Host.Outcome State Fault Refusal :=
  .next { s with svc := { s.svc with lockout := false } }

end Sys2Proof.Machine
end

