-- ==== Sys2Proof/Machine/Requests.lean ====
section
/-! DEFINITION. KCP records and messages: opening a record, duplicates, dispatch and forwarding (R436 to R443, R448 to R450,
R504). -/

namespace Sys2Proof.Machine

/-! ## Messages (R441) -/

/-- A parsed message. -/
structure KcpMsg where
  op : W16
  flags : Byte
  target : Byte
  req : W32
  status : W16
  length : Nat
  payload : List Byte
deriving DecidableEq, Repr

/-- The header and payload of a message of at least 16 bytes. -/
def parseMessage (m : List Byte) : Option KcpMsg :=
  if m.length < 16 then none
  else
    let f (o n : Nat) : Nat := beNat ((m.drop o).take n)
    some { op := BitVec.ofNat 16 (f 0 2), flags := BitVec.ofNat 8 (f 2 1), target := BitVec.ofNat 8 (f 3 1), req := BitVec.ofNat 32 (f 4 4),
           status := BitVec.ofNat 16 (f 8 2), length := f 12 4, payload := m.drop 16 }

/-- A request whose header R441 allows, of at most `most` payload bytes. -/
def KcpMsg.sound (m : KcpMsg) (most : Nat) : Bool :=
  m.flags == 0 && m.status == 0 && m.length == m.payload.length && decide (m.length ≤ most) && !m.target.getLsbD 7

/-- The message of a kept reply. -/
def KcpReply.message (r : KcpReply) : List Byte := kcpMessage r.opcode r.flags.toNat r.target.toNat r.req r.status r.payload

/-! ## Dispatch (R443, R444, R504) -/

/-- Opcodes that the boot ROM answers. -/
def recoveryOps : List Nat := [0x01, 0x21, 0x22, 0x23, 0x60, 0x61, 0x62]

def afterStep (s : State) : Host.Outcome State Fault Refusal → State
  | .next t => t
  | _ => s

/-- The pairs of vat and context of a culture load. -/
def loadTargets : Nat → List Byte → List (Byte × Byte)
  | n + 1, v :: c :: rest => (v, c) :: loadTargets n rest
  | _, _ => []

/-- The reads of a REG_READ: an address of 8 bytes and a width each. -/
def readList : Nat → List Byte → List (W64 × Byte)
  | 0, _ => []
  | n + 1, p => (BitVec.ofNat 64 (beNat (p.take 8)), BitVec.ofNat 8 (beNat ((p.drop 8).take 1))) :: readList n (p.drop 9)

/-- Executes a request: its command, or BAD_MESSAGE for a payload of another length than R444 gives it, or UNKNOWN_OP. -/
def State.serve (s : State) (src : KcpSrc) (m : KcpMsg) : State :=
  let p := m.payload
  let n := p.length
  let f (o k : Nat) : Nat := beNat ((p.drop o).take k)
  let b (o : Nat) : Byte := BitVec.ofNat 8 (f o 1)
  let raw (o k : Nat) : Nat := leNat ((p.drop o).take k)
  let run (ok : Bool) (x : Host.Outcome State Fault Refusal) : State := if ok then afterStep s x else s.reply src m.req m.op stBadMessage []
  if s.inRecovery ∧ !recoveryOps.contains m.op.toNat then s.reply src m.req m.op stUnknownOp []
  else match m.op.toNat with
    | 0x01 => run (n == 0) (execIdentity src m.req s)
    | 0x02 => run (n == 64) (execAttest src m.req (BitVec.ofNat 512 (raw 0 64)) s)
    | 0x10 => run (decide (16 ≤ n) && n == 16 + 2 * f 9 1)
        (execCultureLoad src m.req (BitVec.ofNat 64 (f 0 8)) (b 8) (loadTargets (f 9 1) (p.drop 16)) s)
    | 0x11 => run (n == 16) (execCtxCreate src m.req (b 0) (BitVec.ofNat 16 (f 2 2)) (BitVec.ofNat 64 (f 8 8)) s)
    | 0x12 => run (n == 1) (execCtxLaunch src m.req (b 0) s)
    | 0x13 => run (n == 1) (execCtxPause src m.req (b 0) s)
    | 0x14 => run (n == 1) (execCtxDestroy src m.req (b 0) s)
    | 0x15 => run (n == 24) (execSegMap src m.req (b 0) (BitVec.ofNat 16 (f 2 2)) (BitVec.ofNat 128 (raw 8 16)) s)
    | 0x16 => run (n == 48) (execQpCreate src m.req (BitVec.ofNat 16 (f 0 2)) (b 2) (BitVec.ofNat 32 (f 4 4)) (BitVec.ofNat 16 (f 8 2))
        (BitVec.ofNat 16 (f 10 2)) (BitVec.ofNat 32 (f 12 4)) (BitVec.ofNat 64 (f 16 8))
        { gid := BitVec.ofNat 128 (f 24 16), qpn := BitVec.ofNat 24 (f 40 4), psn := BitVec.ofNat 24 (f 44 4) } s)
    | 0x17 => run (n == 2) (execQpDestroy src m.req (BitVec.ofNat 16 (f 0 2)) s)
    | 0x20 => run (n % 9 == 0) (execRegRead src m.req (readList (n / 9) p) s)
    | 0x21 => run (n == 24) (execRegWrite src m.req (BitVec.ofNat 64 (f 0 8)) (b 8) (BitVec.ofNat 64 (raw 16 8)) s)
    | 0x22 => run (n == 10) (execErrRead src m.req (BitVec.ofNat 64 (f 0 8)) (BitVec.ofNat 16 (f 8 2)) s)
    | 0x23 => run (n == 8) (execDumpRead src m.req (BitVec.ofNat 32 (f 0 4)) (BitVec.ofNat 32 (f 4 4)) s)
    | 0x30 => run (n == 4) (execPowerLimit src m.req (BitVec.ofNat 32 (f 0 4)) s)
    | 0x31 => run (n == 8) (execRouteWrite src m.req (b 0) (b 1) (BitVec.ofNat 32 (raw 4 4)) s)
    | 0x40 => run (n == 1) (execNotifySubscribe src m.req (b 0) s)
    | 0x41 => run (n == 4) (execNotifyAck src m.req (BitVec.ofNat 32 (f 0 4)) s)
    | 0x60 => run (n == 8 || !s.inRecovery) (execFwBegin src m.req (b 0) (BitVec.ofNat 32 (f 4 4)) s)
    | 0x61 => run (decide (8 ≤ n) && n == 8 + f 4 4 || !s.inRecovery)
        (execFwWrite src m.req (BitVec.ofNat 32 (f 0 4)) (p.drop 8) s)
    | 0x62 => run (n == 64 || !s.inRecovery) (execFwCommit src m.req (BitVec.ofNat 512 (raw 0 64)) s)
    | _ => s.reply src m.req m.op stUnknownOp []

/-! ## Records of a session (R438, R439, R442, R448) -/

/-- A request that names another package goes to it as head. -/
def State.forward (s : State) (k : Fin 8) (m : KcpMsg) (bytes : List Byte) : State :=
  let d := bitsAt m.target.toNat 0 6
  if !s.reach d then s.reply (.session k) m.req m.op stUnreachable []
  else
    let note (n : Session) : Session :=
      { n with running := n.running ++ [m.req],
               remoteSubs := if m.op = 0x40 ∧ !n.remoteSubs.contains d then n.remoteSubs ++ [d] else n.remoteSubs }
    let s1 := s.onSession k.val note
    let f : Forward := { slot := k.val, req := m.req, op := m.op, target := d }
    { s1 with kcp := { s1.kcp with fwdCnt := bump s1.kcp.fwdCnt, forwards := s1.kcp.forwards ++ [f] } }.sendMsg
      (.forward k.val m.req) d 63 0x700 (forwardHead s.fab.pkgId.toNat k.val ++ bytes)

/-- A message of session slot k: a kept reply is sent again, a request still running is left alone, any other is forwarded
or executed. -/
def State.sessionMessage (s : State) (k : Fin 8) (bytes : List Byte) : State :=
  match parseMessage bytes with
  | none => s
  | some m =>
    let n := s.session k.val
    match n.replies.find? fun r => r.req == m.req with
    | some r => { s with kcp := { s.kcp with dupCnt := bump s.kcp.dupCnt } }.sealTo k.val r.message
    | none =>
      if n.running.contains m.req then s
      else if !m.sound (n.recordMax.toNat - 48) then s.reply (.session k) m.req m.op stBadMessage []
      else if !m.target.getLsbD 6 && bitsAt m.target.toNat 0 6 != s.fab.pkgId.toNat then s.forward k m bytes
      else (s.onSession k.val fun n => { n with running := n.running ++ [m.req] }).serve (.session k) m

/-- Whether a session accepts a sequence number: above the highest, or within 1,024 below it and not seen. -/
def Session.accepts (n : Session) (seq : Nat) : Bool :=
  match n.rxTop with
  | none => true
  | some t => decide (t.toNat < seq) || (decide (t.toNat ≤ seq + 1024) && !n.rxSeen.contains (BitVec.ofNat 64 seq))

def Session.accept (n : Session) (seq : Nat) : Session :=
  let top := match n.rxTop with
    | none => seq
    | some t => max t.toNat seq
  { n with rxTop := some (BitVec.ofNat 64 top),
           rxSeen := (BitVec.ofNat 64 seq :: n.rxSeen).filter fun x => decide (top ≤ x.toNat + 1024) }

/-- A DATA record: its session's key opens it, or it is discarded and counted. -/
def State.dataRecord (s : State) (r : List Byte) : State :=
  let seq := beNat ((r.drop 8).take 8)
  if !s.mcServes ∨ s.eth.mode ≠ .up ∨ r.length < 48 ∨ r.take 2 ≠ [4, 1] then s
  else match s.slotFor (BitVec.ofNat 32 (beNat ((r.drop 4).take 4))) Session.isOpen with
    | none => s
    | some i =>
      let k : Fin 8 := Fin.ofNat 8 i
      let n := s.session i
      if n.recordMax.toNat < r.length then s
      else match gcmOpen (beBytes 32 n.keyH2d.toNat) (gcmNonce n.ivH2d seq) (r.take 16) (r.drop 16) with
        | none => { s with kcp := { s.kcp with tagFail := bump s.kcp.tagFail } }
        | some m =>
          if 2 ^ 48 ≤ seq then s.dropSession i
          else if !n.accepts seq then s
          else (s.onSession i fun n => n.accept seq).sessionMessage k m

def execDataRecord (record : List Byte) (s : State) : Host.Outcome State Fault Refusal := .next (s.dataRecord record).finish

/-! ## Forwarding (R448 to R450) -/

/-- Takes a KCP message of a package from the mailbox. -/
def State.takeMail (s : State) (pkg : Nat) (message : List Byte) : State :=
  let same (m : Mail) : Bool := m.mailbox == 0x700 && m.pkg == pkg && m.bytes.drop 8 == message
  { s with fab := { s.fab with mail := s.fab.mail.filter fun m => !same m } }

/-- A forwarded request is executed as though it had come from a session here, with a cache of its own per head and slot. -/
def State.forwardArrives (s : State) (pkg : PkgId) (slot : Fin 8) (bytes : List Byte) : State :=
  if !s.mcServes then s
  else match parseMessage bytes with
    | none => s.takeMail pkg.val bytes
    | some m =>
      let s0 := s.takeMail pkg.val bytes
      let key := 8 * pkg.val + slot.val
      let n := Tbl.look {} s0.kcp.remote key
      match n.replies.find? fun r => r.req == m.req with
      | some r => { s0 with kcp := { s0.kcp with dupCnt := bump s0.kcp.dupCnt } }.sendMsg .controller pkg.val 63 0x700
          (forwardHead pkg.val slot.val ++ r.message)
      | none =>
        if n.running.contains m.req then s0
        else
          let s1 := { s0 with kcp := { s0.kcp with remote := Tbl.upd {} s0.kcp.remote key fun x => { x with running := x.running ++ [m.req] } } }
          if !m.sound 9120 then s1.reply (.forwarded pkg slot) m.req m.op stBadMessage [] else s1.serve (.forwarded pkg slot) m

def execKcpForwardArrive (pkg : PkgId) (slot : Fin 8) (message : List Byte) (s : State) : Host.Outcome State Fault Refusal :=
  .next (s.forwardArrives pkg slot message).finish

/-- What returns from package pkg for session slot k: a reply ends its request, a notification goes to the session; one
that no one waits for is discarded. -/
def State.forwardReturns (s : State) (pkg k : Nat) (bytes : List Byte) : State :=
  if s.mc.mgmtReset then s
  else
    let s0 := s.takeMail pkg bytes
    match parseMessage bytes with
    | none => s0
    | some m =>
      if m.flags.getLsbD 1 then
        if (s0.session k).remoteSubs.contains pkg then s0.sealTo k bytes else s0
      else if m.flags.getLsbD 0 && s0.kcp.forwards.any (fun f => f.slot == k && f.req == m.req && f.target == pkg) then
        let r : KcpReply :=
          { opcode := m.op, flags := m.flags, req := m.req, status := m.status, payload := m.payload, target := m.target }
        let s1 := { s0 with kcp := { s0.kcp with forwards := s0.kcp.forwards.filter fun f => !(f.slot == k && f.req == m.req) } }
        (s1.onSession k fun n => { n with running := n.running.filter (· ≠ m.req), replies := (r :: n.replies).take 64 }).sealTo k bytes
      else s0

def execForwardReply (pkg : PkgId) (slot : Fin 8) (message : List Byte) (s : State) : Host.Outcome State Fault Refusal :=
  .next (s.forwardReturns pkg.val slot.val message)

def execForwardTimeout (slot : Fin 8) (req : W32) (s : State) : Host.Outcome State Fault Refusal :=
  .next (s.forwardFails slot.val req stTimeout)

end Sys2Proof.Machine
end

