-- ==== Sys2Proof/Machine/Dispatch.lean ====
section
/-! DEFINITION. The meaning of every command, one arm each, in the order of the table. -/

namespace Sys2Proof.Machine

/-- The effect of one command on everything but the queue. -/
def exec (i : Instr) (s : State) : Host.Outcome State Fault Refusal :=
  match i with
  | .powerApplied refValid => Sys2Proof.Machine.execPowerApplied refValid s
  | .undervoltageTrip => Sys2Proof.Machine.execUndervoltageTrip s
  | .overvoltageTrip => Sys2Proof.Machine.execOvervoltageTrip s
  | .inputRestart refValid => Sys2Proof.Machine.execInputRestart refValid s
  | .resetNAssert => Sys2Proof.Machine.execResetNAssert s
  | .resetNRelease => Sys2Proof.Machine.execResetNRelease s
  | .lugPairLoss pairB => Sys2Proof.Machine.execLugPairLoss pairB s
  | .lugClampRecompute centivolts => Sys2Proof.Machine.execLugClampRecompute centivolts s
  | .leakDetect => Sys2Proof.Machine.execLeakDetect s
  | .i2cStatusWrite bytes => Sys2Proof.Machine.execI2cStatusWrite bytes s
  | .buttonRelease heldMs => Sys2Proof.Machine.execButtonRelease heldMs s
  | .identifyExpire => Sys2Proof.Machine.execIdentifyExpire s
  | .buttonHold10s => Sys2Proof.Machine.execButtonHold10s s
  | .standbyEntered => Sys2Proof.Machine.execStandbyEntered s
  | .exitStandby => Sys2Proof.Machine.execExitStandby s
  | .ident on => Sys2Proof.Machine.execIdent on s
  | .faultClr => Sys2Proof.Machine.execFaultClr s
  | .lockMon => Sys2Proof.Machine.execLockMon s
  | .registerWrite w addr wide value => Sys2Proof.Machine.execRegisterWrite w addr wide value s
  | .seqBaseInstruction v => Sys2Proof.Machine.execSeqBaseInstruction v s
  | .seqLoad v rd rs1 imm size zeroExt => Sys2Proof.Machine.execSeqLoad v rd rs1 imm size zeroExt s
  | .seqStore v rs1 rs2 imm size => Sys2Proof.Machine.execSeqStore v rs1 rs2 imm size s
  | .seqAmo v op dbl rd rs1 rs2 => Sys2Proof.Machine.execSeqAmo v op dbl rd rs1 rs2 s
  | .fence v => Sys2Proof.Machine.execFence v s
  | .csrAccess v op immForm csr rd rs1 => Sys2Proof.Machine.execCsrAccess v op immForm csr rd rs1 s
  | .tgrp v rd rs1 rs2 => Sys2Proof.Machine.execTgrp v rd rs1 rs2 s
  | .trun v rs1 rs2 => Sys2Proof.Machine.execTrun v rs1 rs2 s
  | .trunRetire v => Sys2Proof.Machine.execTrunRetire v s
  | .tileStart v t => Sys2Proof.Machine.execTileStart v t s
  | .bundleIssue v t ecc => Sys2Proof.Machine.execBundleIssue v t ecc s
  | .vectorResultLand v t => Sys2Proof.Machine.execVectorResultLand v t s
  | .macResultLand v t => Sys2Proof.Machine.execMacResultLand v t s
  | .tileIdle v t => Sys2Proof.Machine.execTileIdle v t s
  | .twait v rd rs1 => Sys2Proof.Machine.execTwait v rd rs1 s
  | .twaitComplete v => Sys2Proof.Machine.execTwaitComplete v s
  | .tstat v rd rs1 => Sys2Proof.Machine.execTstat v rd rs1 s
  | .ldlgo v rs1 rs2 => Sys2Proof.Machine.execLdlgo v rs1 rs2 s
  | .ladleIssue v k => Sys2Proof.Machine.execLadleIssue v k s
  | .ldltake v rd rs1 => Sys2Proof.Machine.execLdltake v rd rs1 s
  | .ldltakeComplete v => Sys2Proof.Machine.execLdltakeComplete v s
  | .ldlres v rs1 rs2 => Sys2Proof.Machine.execLdlres v rs1 rs2 s
  | .ldlstop v rs1 => Sys2Proof.Machine.execLdlstop v rs1 s
  | .ffence v rd rs1 => Sys2Proof.Machine.execFfence v rd rs1 s
  | .ffenceComplete v => Sys2Proof.Machine.execFfenceComplete v s
  | .boundary v id => Sys2Proof.Machine.execBoundary v id s
  | .boundaryRetire v => Sys2Proof.Machine.execBoundaryRetire v s
  | .swapComplete v => Sys2Proof.Machine.execSwapComplete v s
  | .amoaddF32 v rd rs1 rs2 => Sys2Proof.Machine.execAmoaddF32 v rd rs1 rs2 s
  | .amoaddBf2 v rd rs1 rs2 => Sys2Proof.Machine.execAmoaddBf2 v rd rs1 rs2 s
  | .amominF32 v rd rs1 rs2 => Sys2Proof.Machine.execAmominF32 v rd rs1 rs2 s
  | .amomaxF32 v rd rs1 rs2 => Sys2Proof.Machine.execAmomaxF32 v rd rs1 rs2 s
  | .amocasD v rd rs1 rs2 => Sys2Proof.Machine.execAmocasD v rd rs1 rs2 s
  | .ecall v => Sys2Proof.Machine.execEcall v s
  | .ebreak v => Sys2Proof.Machine.execEbreak v s
  | .swapArm v => Sys2Proof.Machine.execSwapArm v s
  | .vatGate v => Sys2Proof.Machine.execVatGate v s
  | .gatedBankStop v => Sys2Proof.Machine.execGatedBankStop v s
  | .columnFault v col => Sys2Proof.Machine.execColumnFault v col s
  | .cultureLoad src req image shift targets => Sys2Proof.Machine.execCultureLoad src req image shift targets s
  | .loadCheckComplete load => Sys2Proof.Machine.execLoadCheckComplete load s
  | .loadStreamComplete load => Sys2Proof.Machine.execLoadStreamComplete load s
  | .tilestoreCellService v t ecc => Sys2Proof.Machine.execTilestoreCellService v t ecc s
  | .creamBankAccess c bank ecc => Sys2Proof.Machine.execCreamBankAccess c bank ecc s
  | .sramScrubRead u ecc => Sys2Proof.Machine.execSramScrubRead u ecc s
  | .tilestoreRetentionEnter v => Sys2Proof.Machine.execTilestoreRetentionEnter v s
  | .creamRetentionEnter c => Sys2Proof.Machine.execCreamRetentionEnter c s
  | .sramWakeComplete u => Sys2Proof.Machine.execSramWakeComplete u s
  | .creamWakeTimeout c => Sys2Proof.Machine.execCreamWakeTimeout c s
  | .creamThrottleSample c => Sys2Proof.Machine.execCreamThrottleSample c s
  | .crmCtrlWrite c value => Sys2Proof.Machine.execCrmCtrlWrite c value s
  | .ld cell => Sys2Proof.Machine.execLd cell s
  | .st cell => Sys2Proof.Machine.execSt cell s
  | .std cell => Sys2Proof.Machine.execStd cell s
  | .atom cell => Sys2Proof.Machine.execAtom cell s
  | .msg cell => Sys2Proof.Machine.execMsg cell s
  | .msgd cell => Sys2Proof.Machine.execMsgd cell s
  | .data cell => Sys2Proof.Machine.execData cell s
  | .ack cell => Sys2Proof.Machine.execAck cell s
  | .sour cell => Sys2Proof.Machine.execSour cell s
  | .nackBusy cell => Sys2Proof.Machine.execNackBusy cell s
  | .nackRefused cell => Sys2Proof.Machine.execNackRefused cell s
  | .badCell cell => Sys2Proof.Machine.execBadCell cell s
  | .busyRetry port tag => Sys2Proof.Machine.execBusyRetry port tag s
  | .xoff hop cls response => Sys2Proof.Machine.execXoff hop cls response s
  | .xon hop cls response => Sys2Proof.Machine.execXon hop cls response s
  | .keepalive port fromPkg target => Sys2Proof.Machine.execKeepalive port fromPkg target s
  | .opTimeout port tag => Sys2Proof.Machine.execOpTimeout port tag s
  | .darkNotice source dark => Sys2Proof.Machine.execDarkNotice source dark s
  | .frameBoundary steps skews => Sys2Proof.Machine.execFrameBoundary steps skews s
  | .guardStart => Sys2Proof.Machine.execGuardStart s
  | .cellCrcFail w => Sys2Proof.Machine.execCellCrcFail w s
  | .resendRequest w => Sys2Proof.Machine.execResendRequest w s
  | .flexRequest c => Sys2Proof.Machine.execFlexRequest c s
  | .retuneSettleTimeout p j ring => Sys2Proof.Machine.execRetuneSettleTimeout p j ring s
  | .chnFlexRelease mask => Sys2Proof.Machine.execChnFlexRelease mask s
  | .signalBundleFail c g => Sys2Proof.Machine.execSignalBundleFail c g s
  | .controlBundleFail c => Sys2Proof.Machine.execControlBundleFail c s
  | .seamGroupFail d => Sys2Proof.Machine.execSeamGroupFail d s
  | .pilotWindowEnd e amps => Sys2Proof.Machine.execPilotWindowEnd e amps s
  | .misframe e cells => Sys2Proof.Machine.execMisframe e cells s
  | .ringHold e => Sys2Proof.Machine.execRingHold e s
  | .ringFault e cause => Sys2Proof.Machine.execRingFault e cause s
  | .acquisitionComplete e dips => Sys2Proof.Machine.execAcquisitionComplete e dips s
  | .tableHashCompute => Sys2Proof.Machine.execTableHashCompute s
  | .tempEstimate f => Sys2Proof.Machine.execTempEstimate f s
  | .sepDoorbell c => Sys2Proof.Machine.execSepDoorbell c s
  | .sepJobStart u => Sys2Proof.Machine.execSepJobStart u s
  | .sepWeightMsg u fromPort codes => Sys2Proof.Machine.execSepWeightMsg u fromPort codes s
  | .sepReloadComplete u => Sys2Proof.Machine.execSepReloadComplete u s
  | .sepJobEnd u => Sys2Proof.Machine.execSepJobEnd u s
  | .sepCalPass u residuals => Sys2Proof.Machine.execSepCalPass u residuals s
  | .refreshWindow u => Sys2Proof.Machine.execRefreshWindow u s
  | .hbmRequestService p index holdNs ecc => Sys2Proof.Machine.execHbmRequestService p index holdNs ecc s
  | .hbmScrubRead p ecc => Sys2Proof.Machine.execHbmScrubRead p ecc s
  | .hbmTempSample u => Sys2Proof.Machine.execHbmTempSample u s
  | .selfRefreshEnter u => Sys2Proof.Machine.execSelfRefreshEnter u s
  | .linkTrainingStart l => Sys2Proof.Machine.execLinkTrainingStart l s
  | .linkTrainingEnd l obs => Sys2Proof.Machine.execLinkTrainingEnd l obs s
  | .linkTrainingTimeout l => Sys2Proof.Machine.execLinkTrainingTimeout l s
  | .linkGroupReceive l seq crcOk cells => Sys2Proof.Machine.execLinkGroupReceive l seq crcOk cells s
  | .linkAck l seq => Sys2Proof.Machine.execLinkAck l seq s
  | .linkNak l seq => Sys2Proof.Machine.execLinkNak l seq s
  | .linkIdleWindow l => Sys2Proof.Machine.execLinkIdleWindow l s
  | .laneLossOfSignal l lane => Sys2Proof.Machine.execLaneLossOfSignal l lane s
  | .fastRetrainEnd l obs => Sys2Proof.Machine.execFastRetrainEnd l obs s
  | .linkDown l => Sys2Proof.Machine.execLinkDown l s
  | .linkRetryTimer l => Sys2Proof.Machine.execLinkRetryTimer l s
  | .lnkRetrain mask => Sys2Proof.Machine.execLnkRetrain mask s
  | .linkStateNotice pkg widths => Sys2Proof.Machine.execLinkStateNotice pkg widths s
  | .linkStateNoticeSend hub => Sys2Proof.Machine.execLinkStateNoticeSend hub s
  | .noticeExpire pkg => Sys2Proof.Machine.execNoticeExpire pkg s
  | .transitCell l cell => Sys2Proof.Machine.execTransitCell l cell s
  | .reassemblyTimeout hub pkg c tag => Sys2Proof.Machine.execReassemblyTimeout hub pkg c tag s
  | .cagePresence m => Sys2Proof.Machine.execCagePresence m s
  | .acceptanceComplete m obs => Sys2Proof.Machine.execAcceptanceComplete m obs s
  | .cageExtract m => Sys2Proof.Machine.execCageExtract m s
  | .linePowerSample m powers => Sys2Proof.Machine.execLinePowerSample m powers s
  | .laserTelemetry m answered temp faultFlag => Sys2Proof.Machine.execLaserTelemetry m answered temp faultFlag s
  | .scheduledSwapDue sector => Sys2Proof.Machine.execScheduledSwapDue sector s
  | .swapBegin sector => Sys2Proof.Machine.execSwapBegin sector s
  | .swapTargetVerified sector => Sys2Proof.Machine.execSwapTargetVerified sector s
  | .swapVerifyTimeout sector => Sys2Proof.Machine.execSwapVerifyTimeout sector s
  | .crossfadeEnd sector => Sys2Proof.Machine.execCrossfadeEnd sector s
  | .swapConfirm sector => Sys2Proof.Machine.execSwapConfirm sector s
  | .latchRelease m => Sys2Proof.Machine.execLatchRelease m s
  | .latchClose m => Sys2Proof.Machine.execLatchClose m s
  | .lasSectorDark sector => Sys2Proof.Machine.execLasSectorDark sector s
  | .refLost byFrequency => Sys2Proof.Machine.execRefLost byFrequency s
  | .refRestored => Sys2Proof.Machine.execRefRestored s
  | .revertLocked => Sys2Proof.Machine.execRevertLocked s
  | .dieClockLoss d => Sys2Proof.Machine.execDieClockLoss d s
  | .fieldPllFail f => Sys2Proof.Machine.execFieldPllFail f s
  | .vatFreqStep v => Sys2Proof.Machine.execVatFreqStep v s
  | .droopDetect v eighths => Sys2Proof.Machine.execDroopDetect v eighths s
  | .fallbackRelease v => Sys2Proof.Machine.execFallbackRelease v s
  | .railFault r millivolts => Sys2Proof.Machine.execRailFault r millivolts s
  | .irDropCheck losses => Sys2Proof.Machine.execIrDropCheck losses s
  | .energySample centivolts ampsA ampsB => Sys2Proof.Machine.execEnergySample centivolts ampsA ampsB s
  | .powerCompare => Sys2Proof.Machine.execPowerCompare s
  | .graceExpire => Sys2Proof.Machine.execGraceExpire s
  | .lugOvercurrent pairB => Sys2Proof.Machine.execLugOvercurrent pairB s
  | .releaseStep => Sys2Proof.Machine.execReleaseStep s
  | .powerLimit src req watts => Sys2Proof.Machine.execPowerLimit src req watts s
  | .thermalSample readings => Sys2Proof.Machine.execThermalSample readings s
  | .thermTripRecord => Sys2Proof.Machine.execThermTripRecord s
  | .sensorSelfCheck failing => Sys2Proof.Machine.execSensorSelfCheck failing s
  | .thermalLevelDecay => Sys2Proof.Machine.execThermalLevelDecay s
  | .ethLinkTrain signal => Sys2Proof.Machine.execEthLinkTrain signal s
  | .ethRetry signal => Sys2Proof.Machine.execEthRetry signal s
  | .ethLaneChange lane usable => Sys2Proof.Machine.execEthLaneChange lane usable s
  | .networkFrame kind => Sys2Proof.Machine.execNetworkFrame kind s
  | .rdmaWrite q psn rkey va bytes ce => Sys2Proof.Machine.execRdmaWrite q psn rkey va bytes ce s
  | .rdmaRead q psn rkey va length ce => Sys2Proof.Machine.execRdmaRead q psn rkey va length ce s
  | .send q psn bytes ce => Sys2Proof.Machine.execSend q psn bytes ce s
  | .roceUnsupportedOp q psn => Sys2Proof.Machine.execRoceUnsupportedOp q psn s
  | .cnpReceived q => Sys2Proof.Machine.execCnpReceived q s
  | .cnpRateRecover q => Sys2Proof.Machine.execCnpRateRecover q s
  | .helloH body => Sys2Proof.Machine.execHelloH body s
  | .finishH session sig => Sys2Proof.Machine.execFinishH session sig s
  | .dataRecord record => Sys2Proof.Machine.execDataRecord record s
  | .close session reason => Sys2Proof.Machine.execClose session reason s
  | .sessionIdleTimeout slot => Sys2Proof.Machine.execSessionIdleTimeout slot s
  | .identity src req => Sys2Proof.Machine.execIdentity src req s
  | .attest src req nonce => Sys2Proof.Machine.execAttest src req nonce s
  | .ctxCreate src req c group seed => Sys2Proof.Machine.execCtxCreate src req c group seed s
  | .ctxLaunch src req c => Sys2Proof.Machine.execCtxLaunch src req c s
  | .ctxPause src req c => Sys2Proof.Machine.execCtxPause src req c s
  | .ctxDestroy src req c => Sys2Proof.Machine.execCtxDestroy src req c s
  | .segMap src req c seg entry => Sys2Proof.Machine.execSegMap src req c seg entry s
  | .qpCreate src req q c rkey credit slotSize slots ringBase peer => Sys2Proof.Machine.execQpCreate src req q c rkey credit slotSize slots ringBase peer s
  | .qpDestroy src req q => Sys2Proof.Machine.execQpDestroy src req q s
  | .regRead src req reads => Sys2Proof.Machine.execRegRead src req reads s
  | .regWrite src req addr width value => Sys2Proof.Machine.execRegWrite src req addr width value s
  | .errRead src req first maxCount => Sys2Proof.Machine.execErrRead src req first maxCount s
  | .dumpRead src req offset length => Sys2Proof.Machine.execDumpRead src req offset length s
  | .routeWrite src req d j value => Sys2Proof.Machine.execRouteWrite src req d j value s
  | .notifySubscribe src req mask => Sys2Proof.Machine.execNotifySubscribe src req mask s
  | .notifyAck src req seq => Sys2Proof.Machine.execNotifyAck src req seq s
  | .notifyResend => Sys2Proof.Machine.execNotifyResend s
  | .kcpForwardArrive pkg slot message => Sys2Proof.Machine.execKcpForwardArrive pkg slot message s
  | .forwardReply pkg slot message => Sys2Proof.Machine.execForwardReply pkg slot message s
  | .forwardTimeout slot req => Sys2Proof.Machine.execForwardTimeout slot req s
  | .drainComplete c => Sys2Proof.Machine.execDrainComplete c s
  | .ctxEnded c => Sys2Proof.Machine.execCtxEnded c s
  | .faultStopQuiet c => Sys2Proof.Machine.execFaultStopQuiet c s
  | .contextReset c => Sys2Proof.Machine.execContextReset c s
  | .contextResetComplete c => Sys2Proof.Machine.execContextResetComplete c s
  | .abort cell => Sys2Proof.Machine.execAbort cell s
  | .abortFilterExpire pkg c => Sys2Proof.Machine.execAbortFilterExpire pkg c s
  | .abortHoldRelease c => Sys2Proof.Machine.execAbortHoldRelease c s
  | .vatHang v => Sys2Proof.Machine.execVatHang v s
  | .replayStart v => Sys2Proof.Machine.execReplayStart v s
  | .vatReset v => Sys2Proof.Machine.execVatReset v s
  | .dieReset d => Sys2Proof.Machine.execDieReset d s
  | .computeReset => Sys2Proof.Machine.execComputeReset s
  | .mgmtReset => Sys2Proof.Machine.execMgmtReset s
  | .resetDone k obs => Sys2Proof.Machine.execResetDone k obs s
  | .handlingOverrun seq => Sys2Proof.Machine.execHandlingOverrun seq s
  | .dump => Sys2Proof.Machine.execDump s
  | .dumpEntryRead bytes => Sys2Proof.Machine.execDumpEntryRead bytes s
  | .dumpReadTimeout => Sys2Proof.Machine.execDumpReadTimeout s
  | .dumpDone => Sys2Proof.Machine.execDumpDone s
  | .dumpRelease => Sys2Proof.Machine.execDumpRelease s
  | .bringUpStepEnd obs => Sys2Proof.Machine.execBringUpStepEnd obs s
  | .bringUpStepBound unfinished => Sys2Proof.Machine.execBringUpStepBound unfinished s
  | .katRunComplete v signature columnFails => Sys2Proof.Machine.execKatRunComplete v signature columnFails s
  | .svnRaised => Sys2Proof.Machine.execSvnRaised s
  | .enterRecovery => Sys2Proof.Machine.execEnterRecovery s
  | .fwBegin src req kind total => Sys2Proof.Machine.execFwBegin src req kind total s
  | .fwWrite src req offset bytes => Sys2Proof.Machine.execFwWrite src req offset bytes s
  | .fwCommit src req hash => Sys2Proof.Machine.execFwCommit src req hash s
  | .fwUpdated => Sys2Proof.Machine.execFwUpdated s
  | .journalWrite => Sys2Proof.Machine.execJournalWrite s
  | .mcWatchdogExpire => Sys2Proof.Machine.execMcWatchdogExpire s
  | .mcHandover source => Sys2Proof.Machine.execMcHandover source s
  | .handoverTakeover => Sys2Proof.Machine.execHandoverTakeover s
  | .overlapEnd => Sys2Proof.Machine.execOverlapEnd s
  | .mcRetake => Sys2Proof.Machine.execMcRetake s
  | .mcSelftestFail mcB test => Sys2Proof.Machine.execMcSelftestFail mcB test s
  | .uartBreak => Sys2Proof.Machine.execUartBreak s
  | .monLineTooLong => Sys2Proof.Machine.execMonLineTooLong s
  | .monHelp => Sys2Proof.Machine.execMonHelp s
  | .monId => Sys2Proof.Machine.execMonId s
  | .monTime => Sys2Proof.Machine.execMonTime s
  | .monTemp => Sys2Proof.Machine.execMonTemp s
  | .monPwr => Sys2Proof.Machine.execMonPwr s
  | .monLanes => Sys2Proof.Machine.execMonLanes s
  | .monRings entry => Sys2Proof.Machine.execMonRings entry s
  | .monLaser => Sys2Proof.Machine.execMonLaser s
  | .monCtx => Sys2Proof.Machine.execMonCtx s
  | .monErr seq n => Sys2Proof.Machine.execMonErr seq n s
  | .monLog n => Sys2Proof.Machine.execMonLog n s
  | .monLogFollow => Sys2Proof.Machine.execMonLogFollow s
  | .peek addr wide => Sys2Proof.Machine.execPeek addr wide s
  | .poke addr wide value => Sys2Proof.Machine.execPoke addr wide value s
  | .monDump => Sys2Proof.Machine.execMonDump s
  | .monDumpInfo => Sys2Proof.Machine.execMonDumpInfo s
  | .monDumpRead offset length => Sys2Proof.Machine.execMonDumpRead offset length s
  | .monCtxPause n => Sys2Proof.Machine.execMonCtxPause n s
  | .monCtxLaunch n => Sys2Proof.Machine.execMonCtxLaunch n s
  | .monCtxDestroy n => Sys2Proof.Machine.execMonCtxDestroy n s
  | .unlock => Sys2Proof.Machine.execUnlock s
  | .unlockResponse key sig => Sys2Proof.Machine.execUnlockResponse key sig s
  | .unlockEnd => Sys2Proof.Machine.execUnlockEnd s
  | .unlockIdleTimeout => Sys2Proof.Machine.execUnlockIdleTimeout s
  | .unlockLockoutExpire => Sys2Proof.Machine.execUnlockLockoutExpire s
  | .bypass => Sys2Proof.Machine.execBypass s
  | .idcode => Sys2Proof.Machine.execIdcode s
  | .samplePreload => Sys2Proof.Machine.execSamplePreload s
  | .extest => Sys2Proof.Machine.execExtest s
  | .buttonPress => Sys2Proof.Machine.execButtonPress s
  | .buttonHold3s => Sys2Proof.Machine.execButtonHold3s s
  | .ringHoldEnd e => Sys2Proof.Machine.execRingHoldEnd e s
  | .mcaSelftestPass => Sys2Proof.Machine.execMcaSelftestPass s
  | .keepaliveSend port toPkg toPort => Sys2Proof.Machine.execKeepaliveSend port toPkg toPort s
  | .pfcPauseFrame priorities => Sys2Proof.Machine.execPfcPauseFrame priorities s
  | .monSyntaxError => Sys2Proof.Machine.execMonSyntaxError s
  | .logFollowKeypress => Sys2Proof.Machine.execLogFollowKeypress s

end Sys2Proof.Machine
end

