-- ==== Sys2Proof/Safety.lean ====
section
/-! DEFINITION. What a safe run is: the states whose tables have their canonical form, and the steps that stop. -/

namespace Sys2Proof.Machine

/-- The memory lists its bytes by rising address and no byte that is zero. -/
def State.memoryWf (s : State) : Bool := Memory.wf s.fab.mem

/-- A step that answers a next state. -/
def State.goesOn (s : State) : Prop := ∃ t, step s = .next t

/-- The newest reply kept for session slot k answers request `req` with this opcode, status and payload (R442). -/
def State.repliedWith (t : State) (k : Nat) (req : W32) (op : W16) (status : Nat) (payload : List Byte) : Prop :=
  ∃ r rest, (t.session k).replies = r :: rest ∧ r.req = req ∧ r.opcode = op ∧ r.status = BitVec.ofNat 16 status ∧ r.payload = payload

/-- The record under a sequence number, where the ring still holds it. -/
def State.recordAt (t : State) (seq : W64) : ErrRec := Tbl.look {} t.err.ring (seq.toNat % 4096)

end Sys2Proof.Machine
end

