-- ==== Sys2Proof/WellFormed.lean ====
section
/-! DEFINITION. The commands that can arrive: their operands have the form that the encoding, the wire or the part gives them.
A meaning answers every command; these checks say which ones the module can be sent. -/

namespace Sys2Proof

/-- A cell with the opcode of its row (R200). -/
def carries (op : Nat) (c : Cell) : Bool := Cell.opc c == op

/-- A sensor that its region has (R411). -/
def inPlace (r : Region) (sensor : Fin 8) : Bool :=
  match r with
  | .vat _ => true
  | .cream _ => true
  | .field f => decide (sensor.val < if f.val = 0 ∨ f.val = 5 ∨ f.val = 20 ∨ f.val = 25 then 3 else 2)
  | .stack _ => decide (sensor.val < 4)
  | .cage _ => decide (sensor.val < 1)

/-- No load zero-extends a doubleword (R70); a cell carries its row's opcode (R200); ring codes have 16 bits (R266); a group has
at most 8 cells (R330); a notice has 32 bytes (R341); a module has 32 lines (R369); keys have 133 bytes and signatures
132 (R437, R532). -/
def Instr.wf : Instr → Bool
  | .powerApplied _ => true
  | .undervoltageTrip => true
  | .overvoltageTrip => true
  | .inputRestart _ => true
  | .resetNAssert => true
  | .resetNRelease => true
  | .lugPairLoss _ => true
  | .lugClampRecompute _ => true
  | .leakDetect => true
  | .i2cStatusWrite _ => true
  | .buttonRelease _ => true
  | .identifyExpire => true
  | .buttonHold10s => true
  | .standbyEntered => true
  | .exitStandby => true
  | .ident _ => true
  | .faultClr => true
  | .lockMon => true
  | .registerWrite _ _ _ _ => true
  | .seqBaseInstruction _ => true
  | .seqLoad _ _ _ _ size zeroExt => !(size == 3 && zeroExt)
  | .seqStore _ _ _ _ _ => true
  | .seqAmo _ _ _ _ _ _ => true
  | .fence _ => true
  | .csrAccess _ _ _ _ _ _ => true
  | .tgrp _ _ _ _ => true
  | .trun _ _ _ => true
  | .trunRetire _ => true
  | .tileStart _ _ => true
  | .bundleIssue _ _ _ => true
  | .vectorResultLand _ _ => true
  | .macResultLand _ _ => true
  | .tileIdle _ _ => true
  | .twait _ _ _ => true
  | .twaitComplete _ => true
  | .tstat _ _ _ => true
  | .ldlgo _ _ _ => true
  | .ladleIssue _ _ => true
  | .ldltake _ _ _ => true
  | .ldltakeComplete _ => true
  | .ldlres _ _ _ => true
  | .ldlstop _ _ => true
  | .ffence _ _ _ => true
  | .ffenceComplete _ => true
  | .boundary _ _ => true
  | .boundaryRetire _ => true
  | .swapComplete _ => true
  | .amoaddF32 _ _ _ _ => true
  | .amoaddBf2 _ _ _ _ => true
  | .amominF32 _ _ _ _ => true
  | .amomaxF32 _ _ _ _ => true
  | .amocasD _ _ _ _ => true
  | .ecall _ => true
  | .ebreak _ => true
  | .swapArm _ => true
  | .vatGate _ => true
  | .gatedBankStop _ => true
  | .columnFault _ _ => true
  | .cultureLoad _ _ _ _ _ => true
  | .loadCheckComplete _ => true
  | .loadStreamComplete _ => true
  | .tilestoreCellService _ _ _ => true
  | .creamBankAccess _ _ _ => true
  | .sramScrubRead _ _ => true
  | .tilestoreRetentionEnter _ => true
  | .creamRetentionEnter _ => true
  | .sramWakeComplete _ => true
  | .creamWakeTimeout _ => true
  | .creamThrottleSample _ => true
  | .crmCtrlWrite _ _ => true
  | .ld cell => carries 0x01 cell
  | .st cell => carries 0x02 cell
  | .std cell => carries 0x03 cell
  | .atom cell => carries 0x04 cell
  | .msg cell => carries 0x05 cell
  | .msgd cell => carries 0x06 cell
  | .data cell => carries 0x08 cell
  | .ack cell => carries 0x09 cell
  | .sour cell => carries 0x0A cell
  | .nackBusy cell => carries 0x0B cell
  | .nackRefused cell => carries 0x0C cell
  | .badCell _ => true
  | .busyRetry _ _ => true
  | .xoff _ _ _ => true
  | .xon _ _ _ => true
  | .keepalive _ _ _ => true
  | .opTimeout _ _ => true
  | .darkNotice _ _ => true
  | .frameBoundary _ _ => true
  | .guardStart => true
  | .cellCrcFail _ => true
  | .resendRequest _ => true
  | .flexRequest _ => true
  | .retuneSettleTimeout _ _ _ => true
  | .chnFlexRelease _ => true
  | .signalBundleFail _ _ => true
  | .controlBundleFail _ => true
  | .seamGroupFail _ => true
  | .pilotWindowEnd _ _ => true
  | .misframe _ _ => true
  | .ringHold _ => true
  | .ringFault _ _ => true
  | .acquisitionComplete _ dips => dips.all fun d => decide (d.code < 65536)
  | .tableHashCompute => true
  | .tempEstimate _ => true
  | .sepDoorbell _ => true
  | .sepJobStart _ => true
  | .sepWeightMsg _ _ _ => true
  | .sepReloadComplete _ => true
  | .sepJobEnd _ => true
  | .sepCalPass _ _ => true
  | .refreshWindow _ => true
  | .hbmRequestService _ _ _ _ => true
  | .hbmScrubRead _ _ => true
  | .hbmTempSample _ => true
  | .selfRefreshEnter _ => true
  | .linkTrainingStart _ => true
  | .linkTrainingEnd _ _ => true
  | .linkTrainingTimeout _ => true
  | .linkGroupReceive _ _ _ cells => decide (cells.length ≤ 8)
  | .linkAck _ _ => true
  | .linkNak _ _ => true
  | .linkIdleWindow _ => true
  | .laneLossOfSignal _ _ => true
  | .fastRetrainEnd _ _ => true
  | .linkDown _ => true
  | .linkRetryTimer _ => true
  | .lnkRetrain _ => true
  | .linkStateNotice _ widths => decide (widths.length = 32)
  | .linkStateNoticeSend _ => true
  | .noticeExpire _ => true
  | .transitCell _ _ => true
  | .reassemblyTimeout _ _ _ _ => true
  | .cagePresence _ => true
  | .acceptanceComplete _ obs => obs.failedStep.isSome || decide (obs.powers.length = 32)
  | .cageExtract _ => true
  | .linePowerSample _ powers => decide (powers.length = 32)
  | .laserTelemetry _ _ _ _ => true
  | .scheduledSwapDue _ => true
  | .swapBegin _ => true
  | .swapTargetVerified _ => true
  | .swapVerifyTimeout _ => true
  | .crossfadeEnd _ => true
  | .swapConfirm _ => true
  | .latchRelease _ => true
  | .latchClose _ => true
  | .lasSectorDark _ => true
  | .refLost _ => true
  | .refRestored => true
  | .revertLocked => true
  | .dieClockLoss _ => true
  | .fieldPllFail _ => true
  | .vatFreqStep _ => true
  | .droopDetect _ _ => true
  | .fallbackRelease _ => true
  | .railFault _ _ => true
  | .irDropCheck _ => true
  | .energySample _ _ _ => true
  | .powerCompare => true
  | .graceExpire => true
  | .lugOvercurrent _ => true
  | .releaseStep => true
  | .powerLimit _ _ _ => true
  | .thermalSample readings => readings.all fun r => inPlace r.region r.sensor
  | .thermTripRecord => true
  | .sensorSelfCheck failing => failing.all fun e => inPlace e.1 e.2
  | .thermalLevelDecay => true
  | .ethLinkTrain _ => true
  | .ethRetry _ => true
  | .ethLaneChange _ _ => true
  | .networkFrame _ => true
  | .rdmaWrite _ _ _ _ _ _ => true
  | .rdmaRead _ _ _ _ _ _ => true
  | .send _ _ _ _ => true
  | .roceUnsupportedOp _ _ => true
  | .cnpReceived _ => true
  | .cnpRateRecover _ => true
  | .helloH _ => true
  | .finishH _ sig => decide (sig.length = 132)
  | .dataRecord _ => true
  | .close _ _ => true
  | .sessionIdleTimeout _ => true
  | .identity _ _ => true
  | .attest _ _ _ => true
  | .ctxCreate _ _ _ _ _ => true
  | .ctxLaunch _ _ _ => true
  | .ctxPause _ _ _ => true
  | .ctxDestroy _ _ _ => true
  | .segMap _ _ _ _ _ => true
  | .qpCreate _ _ _ _ _ _ _ _ _ _ => true
  | .qpDestroy _ _ _ => true
  | .regRead _ _ _ => true
  | .regWrite _ _ _ _ _ => true
  | .errRead _ _ _ _ => true
  | .dumpRead _ _ _ _ => true
  | .routeWrite _ _ _ _ _ => true
  | .notifySubscribe _ _ _ => true
  | .notifyAck _ _ _ => true
  | .notifyResend => true
  | .kcpForwardArrive _ _ _ => true
  | .forwardReply _ _ _ => true
  | .forwardTimeout _ _ => true
  | .drainComplete _ => true
  | .ctxEnded _ => true
  | .faultStopQuiet _ => true
  | .contextReset _ => true
  | .contextResetComplete _ => true
  | .abort cell => carries 0x10 cell
  | .abortFilterExpire _ _ => true
  | .abortHoldRelease _ => true
  | .vatHang _ => true
  | .replayStart _ => true
  | .vatReset _ => true
  | .dieReset _ => true
  | .computeReset => true
  | .mgmtReset => true
  | .resetDone _ _ => true
  | .handlingOverrun _ => true
  | .dump => true
  | .dumpEntryRead _ => true
  | .dumpReadTimeout => true
  | .dumpDone => true
  | .dumpRelease => true
  | .bringUpStepEnd _ => true
  | .bringUpStepBound _ => true
  | .katRunComplete _ _ _ => true
  | .svnRaised => true
  | .enterRecovery => true
  | .fwBegin _ _ _ _ => true
  | .fwWrite _ _ _ _ => true
  | .fwCommit _ _ _ => true
  | .fwUpdated => true
  | .journalWrite => true
  | .mcWatchdogExpire => true
  | .mcHandover _ => true
  | .handoverTakeover => true
  | .overlapEnd => true
  | .mcRetake => true
  | .mcSelftestFail _ _ => true
  | .uartBreak => true
  | .monLineTooLong => true
  | .monHelp => true
  | .monId => true
  | .monTime => true
  | .monTemp => true
  | .monPwr => true
  | .monLanes => true
  | .monRings _ => true
  | .monLaser => true
  | .monCtx => true
  | .monErr _ _ => true
  | .monLog _ => true
  | .monLogFollow => true
  | .peek _ _ => true
  | .poke _ _ _ => true
  | .monDump => true
  | .monDumpInfo => true
  | .monDumpRead _ _ => true
  | .monCtxPause _ => true
  | .monCtxLaunch _ => true
  | .monCtxDestroy _ => true
  | .unlock => true
  | .unlockResponse key sig => decide (key.length = 133 ∧ sig.length = 132)
  | .unlockEnd => true
  | .unlockIdleTimeout => true
  | .unlockLockoutExpire => true
  | .bypass => true
  | .idcode => true
  | .samplePreload => true
  | .extest => true
  | .buttonPress => true
  | .buttonHold3s => true
  | .ringHoldEnd _ => true
  | .mcaSelftestPass => true
  | .keepaliveSend _ _ _ => true
  | .pfcPauseFrame _ => true
  | .monSyntaxError => true
  | .logFollowKeypress => true

end Sys2Proof
end

