-- ==== Sys2Proof/Certificates/Slice0/Obligations.lean ====
section
/-! DEFINITION. The statements for the provers. Each says in its docstring which rules of spec/ it rests on. -/

open Sys2Proof Sys2Proof.Machine

/-- R27, R34, R387, R399, R419: the events of the input and of RESET_N. Input power starts the time counter and the energy count at
0 and clears a latched trip; a trip of the input takes everything but fuses, FRU and flash and waits for the restart condition;
RESET_N keeps the time counter, the energy count and a latched trip. Memory reads 0 afterwards (its value there is the model's
choice, log 2). -/
def Obligations.InputPowerAndResetPin : Prop :=
  (∀ (refValid : Bool) (s : State), ∃ t, exec (.powerApplied refValid) s = .next t ∧ t.clk.now = 0 ∧ t.clk.locked = true ∧
    t.clk.startedOnHoldover = !refValid ∧ t.board.inputOn = true ∧ t.pwr.energy = 0 ∧ t.thm.trip = false ∧ (∀ a, t.byteAt a = 0) ∧
    t.fuses = s.fuses ∧ t.fru = s.fru ∧ t.mc.flash = s.mc.flash ∧ t.mc.step = (if s.board.resetN then 1 else 0) ∧ t.pending = s.pending) ∧
  (∀ (c : Instr) (s : State), c = .undervoltageTrip ∨ c = .overvoltageTrip → ∃ t, exec c s = .next t ∧ t.board.inputOn = false ∧
    t.board.rails = false ∧ t.board.pwrOk = false ∧ t.board.tripWait = true ∧ (∀ a, t.byteAt a = 0) ∧ t.fuses = s.fuses ∧
    t.fru = s.fru ∧ t.mc.flash = s.mc.flash ∧ t.pending = s.pending) ∧
  (∀ (refValid : Bool) (s : State), s.board.tripWait = true → ∃ t, exec (.inputRestart refValid) s = .next t ∧
    t.board.inputOn = true ∧ t.board.tripWait = false ∧ t.clk.now = 0 ∧ t.pwr.energy = 0 ∧ t.fuses = s.fuses ∧ t.fru = s.fru ∧
    t.mc.flash = s.mc.flash ∧ t.pending = s.pending) ∧
  (∀ (refValid : Bool) (s : State), s.board.tripWait = false → exec (.inputRestart refValid) s = .next s) ∧
  (∀ s : State, ∃ t, exec .resetNAssert s = .next t ∧ t.board.resetN = false ∧ t.board.rails = false ∧ t.board.pwrOk = false ∧
    t.clk.now = s.clk.now ∧ t.pwr.energy = s.pwr.energy ∧ t.thm.trip = s.thm.trip ∧ t.thm.source = s.thm.source ∧
    (∀ a, t.byteAt a = 0) ∧ t.fuses = s.fuses ∧ t.fru = s.fru ∧ t.mc.flash = s.mc.flash ∧ t.mc.step = 0 ∧ t.pending = s.pending) ∧
  (∀ s : State, s.board.inputOn = true → s.board.resetN = false → s.thm.trip = false →
    exec .resetNRelease s = .next { s with board := { s.board with resetN := true },
                                           mc := { s.mc with step := 1, stepStart := s.clk.now } })

/-- R399: one 10 µs measurement adds the product of voltage and current to PWR_ENERGY, exactly: in units of 100 nJ, 10,000 to the
millijoule, what the count and its remainder hold grows by the product. The latest readings are kept, and nothing but the power
controller changes. R402 to R405: the power controller's states. A mean above the effective limit starts a grace; a mean at or below it ends the grace and enforces nothing; the end of a grace, or a lug pair over its current,
starts enforcement, which lowers the cap one 25 MHz step from the ceiling but never below 0.8 GHz; release raises it one step per
millisecond and ends in NORMAL at the ceiling. Nothing but the power controller changes where the cap moves. -/
def Obligations.EnergyAndPowerController : Prop :=
  (∀ (cv : W16) (a b : BitVec 9) (s : State), s.pwr.energyFrac < 10000 →
    s.pwr.energy.toNat + (s.pwr.energyFrac + cv.toNat * (a.toNat + b.toNat)) / 10000 < 2 ^ 64 →
    ∃ t, exec (.energySample cv a b) s = .next t ∧ t = { s with pwr := t.pwr } ∧
      t.pwr.energy.toNat * 10000 + t.pwr.energyFrac = s.pwr.energy.toNat * 10000 + s.pwr.energyFrac + cv.toNat * (a.toNat + b.toNat) ∧
      t.pwr.energyFrac < 10000 ∧ t.pwr.volts = cv ∧ t.pwr.ampsA = a ∧ t.pwr.ampsB = b ∧ t.pwr.limit = s.pwr.limit ∧
      t.pwr.state = s.pwr.state ∧ t.pwr.cap = s.pwr.cap) ∧
  (∀ s : State, s.pwr.state = .normal → s.pwr.normalSince = none → meanAbove s.pwr.samples 100 s.effLimit 100 = true →
    ∃ t, exec .powerCompare s = .next t ∧ t.pwr.state = .grace ∧ t.pwr.throttleCnt = s.pwr.throttleCnt + 1 ∧
      t.pwr.cap = s.pwr.cap ∧
      t.kcp.notifySeq = s.kcp.notifySeq + 1) ∧
  (∀ s : State, s.pwr.state = .grace → meanAbove s.pwr.samples 100 s.effLimit 100 = false →
    ∃ t, exec .powerCompare s = .next t ∧ t.pwr.state = .normal ∧ t.pwr.cap = s.pwr.cap ∧ t.pwr.enforceCnt = s.pwr.enforceCnt ∧
      t.err.seqNext = s.err.seqNext + 1) ∧
  (∀ (c : Instr) (s : State), (c = .graceExpire ∧ s.pwr.state = .grace) ∨
      (∃ pairB, c = .lugOvercurrent pairB ∧ s.pwr.state ≠ .enforce) →
    meanAbove s.pwr.samples 10 s.effLimit 100 = true → s.pwr.cap ≠ 32 →
    ∃ t, exec c s = .next t ∧ t = { s with pwr := t.pwr } ∧ t.pwr.state = .enforce ∧ t.pwr.enforceCnt = s.pwr.enforceCnt + 1 ∧
      t.pwr.cap = BitVec.ofNat 7 (max 32 ((if s.pwr.cap = 0 then s.fuses.variant.ceiling else s.pwr.cap.toNat) - 1))) ∧
  (∀ s : State, s.pwr.state = .release → s.pwr.cap ≠ 0 → s.pwr.cap.toNat + 1 < s.fuses.variant.ceiling →
    ∃ t, exec .releaseStep s = .next t ∧ t = { s with pwr := t.pwr } ∧ t.pwr.cap.toNat = s.pwr.cap.toNat + 1 ∧
      t.pwr.state = .release) ∧
  (∀ s : State, s.pwr.state = .release → s.fuses.variant.ceiling ≤ s.pwr.cap.toNat + 1 →
    ∃ t, exec .releaseStep s = .next t ∧ t.pwr.cap = 0 ∧ t.pwr.state = .normal)

/-- R26, R401, R444: a POWER_LIMIT from a session sets PWR_LIMIT, clamped between 3,000 W and the variant's ceiling, and is answered
with PWR_LIMIT_EFF, which never exceeds the limit, the ceiling or the clamp of a single lug pair. Losing one of two pairs
sets the clamp, which follows the input voltage each millisecond until both are present again (the clamp's wattage is the
model's reading, log 25). Memory, contexts and vats are as before. -/
def Obligations.PowerLimitAndLugs : Prop :=
  (∀ (k : Fin 8) (req w : W32) (s : State), ∃ t, exec (.powerLimit (.session k) req w) s = .next t ∧
    t.pwrLimit = max 3000 (min s.fuses.variant.watts w.toNat) ∧ t.effLimit ≤ t.pwrLimit ∧ t.effLimit ≤ s.fuses.variant.watts ∧
    (∀ c, s.pwr.lugClamp = some c → t.effLimit ≤ c) ∧ t.fab = s.fab ∧ t.ctxs = s.ctxs ∧ t.vats = s.vats ∧
    (t.session k.val).running = (s.session k.val).running.filter (· ≠ req)) ∧
  (∀ (pairB : Bool) (s : State), s.pwr.lugA = true → s.pwr.lugB = true → ∃ t, exec (.lugPairLoss pairB) s = .next t ∧
    t.pwr.lugA = pairB ∧ t.pwr.lugB = !pairB ∧ t.pwr.lugClamp = some (lugClampWatts s.pwr.volts.toNat) ∧ t.fab = s.fab ∧
    t.ctxs = s.ctxs ∧ t.vats = s.vats ∧ t.pwr.limit = s.pwr.limit) ∧
  (∀ (cv : W16) (s : State), ∃ t, exec (.lugClampRecompute cv) s = .next t ∧ t = { s with pwr := t.pwr } ∧
    (s.pwr.lugA ≠ s.pwr.lugB → t.pwr.lugClamp = some (lugClampWatts cv.toNat)) ∧
    (s.pwr.lugA = s.pwr.lugB → t.pwr.lugClamp = none) ∧ t.pwr.limit = s.pwr.limit ∧ t.pwr.cap = s.pwr.cap) ∧
  (∀ s : State, (s.pwr.lugClamp = none → s.effLimit = min s.pwrLimit s.fuses.variant.watts) ∧
    (∀ c, s.pwr.lugClamp = some c → s.effLimit = min (min s.pwrLimit s.fuses.variant.watts) c) ∧
    ∃ x, s.regWord 0x0400_0014 = some x ∧ x % 2 ^ 16 = s.effLimit) ∧
  (∀ (w : Writer) (x : W64) (s : State), s.err.todo = [] → ∃ t, exec (.registerWrite w 0x3F0004000010 false x) s = .next t ∧
    t = { s with pwr := { s.pwr with limit := t.pwr.limit } } ∧ t.pwrLimit = max 3000 (min s.fuses.variant.watts (x.toNat % 2 ^ 16)))

/-- R411, R412, R415: a round with one reading of a vat's sensor. A reading within −10 °C to 140 °C that moved by no more than 10 °C is
the sensor's value, and the vat's level is then at least the one its excess over 95 °C calls for; one outside the range, or a
failed self-check, breaks the sensor, which is counted. Each millisecond a vat's level falls by one exactly where its excess
has fallen far enough, and no level rises. -/
def Obligations.ThermalSensorsAndLevels : Prop :=
  (∀ (v : VatId) (k : Fin 8) (x : Int) (s : State), s.err.todo = [] → (s.sensor v.val k.val).broken = false → s.brokenIn v.val = 0 →
    -10 ≤ x → x ≤ 140 →
    ((s.sensor v.val k.val).seen = true → x - (s.sensor v.val k.val).value ≤ 10 ∧ (s.sensor v.val k.val).value - x ≤ 10) →
    ∃ t, exec (.thermalSample [{ region := .vat v, sensor := k, value := x }]) s = .next t ∧ (t.sensor v.val k.val).value = x ∧
      (t.sensor v.val k.val).broken = false ∧ levelOf (t.hottest v.val - 95) ≤ t.vatLevel v.val ∧ t.thm.brokenCnt = s.thm.brokenCnt) ∧
  (∀ (v : VatId) (k : Fin 8) (x : Int) (c : Instr) (s : State), s.err.todo = [] → (s.sensor v.val k.val).broken = false →
    s.brokenIn v.val = 0 →
    (c = .thermalSample [{ region := .vat v, sensor := k, value := x }] ∧ (x < -10 ∨ 140 < x)) ∨ c = .sensorSelfCheck [(.vat v, k)] →
    ∃ t, exec c s = .next t ∧ (t.sensor v.val k.val).broken = true ∧ t.sensorValue v.val k.val = 96 ∧
      t.thm.brokenCnt = s.thm.brokenCnt + 1 ∧ t.fab.flight = s.fab.flight) ∧
  (∀ s : State, ∃ t, exec .thermalLevelDecay s = .next t ∧ t = { s with thm := t.thm, err := t.err } ∧ t.thm.sensors = s.thm.sensors ∧
    ∀ v, v < 32 → t.vatLevel v = if mayFall (s.vatLevel v) (s.hottest v - 95) then s.vatLevel v - 1 else s.vatLevel v)

/-- R35, R418, R419: LEAK_N low latches a trip from the leak source; the roots stop, the laser supply and the package rails go and
PWR_OK falls, while the time counter, its clock unit and the energy count go on. A trip already latched keeps its source. The
record of a trip is FATAL THERM_TRIP, is copied into the FRU as it stands in the ring, and leaves the state FATAL. -/
def Obligations.LatchedShutdown : Prop :=
  (∀ s : State, s.thm.trip = false → ∃ t, exec .leakDetect s = .next t ∧ t.thm.trip = true ∧ t.thm.source = 5 ∧
    t.board.leakN = false ∧ t.board.las12v = false ∧ t.board.rails = false ∧ t.board.pwrOk = false ∧ (∀ v, (t.vat v).freqNow = 0) ∧
    t.clk = s.clk ∧ t.pwr = s.pwr ∧ t.err = s.err ∧ t.fuses = s.fuses ∧ t.fru = s.fru) ∧
  (∀ s : State, s.thm.trip = true → exec .leakDetect s = .next { s with board := { s.board with leakN := false } }) ∧
  (∀ s : State, s.thm.trip = true → ∃ t r, exec .thermTripRecord s = .next t ∧ t.fru.tripCopy = some r ∧ r.code = 0x0505 ∧
    r.severity = .fatal ∧ r.seq = s.err.seqNext ∧ r.time = s.clk.now ∧ t.err.halt = true ∧ t.mc.state = .fatal ∧ t.thm = s.thm)

/-- R177, R178, R320: a sample of a cream die in service shows the hottest sensors beneath it and its own, one of an HBM stack its
hottest, and the level afterwards is at least the one those values call for. Nothing but the die's or the stack's own registers
and the error ring changes. -/
def Obligations.CreamAndStackTemperatures : Prop :=
  (∀ (c : HalfId) (s : State), (s.cream c.val).mode ≠ .reset → (s.cream c.val).mode ≠ .retired →
    ∃ t, exec (.creamThrottleSample c) s = .next t ∧ t = { s with creams := t.creams, err := t.err } ∧
      (t.cream c.val).own = BitVec.ofInt 8 (s.hottest (32 + c.val)) ∧ (t.cream c.val).beneath = BitVec.ofInt 8 (s.beneath c.val) ∧
      creamTarget (s.beneath c.val) (s.hottest (32 + c.val)) (decide (2 ≤ s.brokenIn (32 + c.val))) ≤ (t.cream c.val).level.toNat ∧
      (t.cream c.val).mode = (s.cream c.val).mode ∧ (∀ d, d ≠ c.val → t.cream d = s.cream d)) ∧
  (∀ (k : StackId) (s : State), (s.stack k.val).mode ≠ .retired →
    ∃ t, exec (.hbmTempSample k) s = .next t ∧ t = { s with hbm := t.hbm, err := t.err } ∧
      (t.stack k.val).temp = BitVec.ofInt 8 (s.hottest (78 + k.val)) ∧
      stackTarget (s.hottest (78 + k.val)) (decide (2 ≤ s.brokenIn (78 + k.val))) ≤ (t.stack k.val).level.toNat ∧
      (t.stack k.val).mode = (s.stack k.val).mode ∧ t.hbm.pcs = s.hbm.pcs ∧ (∀ j, j ≠ k.val → t.stack j = s.stack j))

/-- R33, R397, R398: any rail out of regulation takes PWR_OK down and is noted with the rail. A TSV loss of up to 20 % lowers the vat's
IR-drop cap to 1.6 or 1.2 GHz at once, never raises it outside a compute reset, and changes no other vat. -/
def Obligations.RailsAndIrDrop : Prop :=
  (∀ (r : Rail) (mv : Nat) (s : State), ∃ t, exec (.railFault r mv) s = .next t ∧ t.board.pwrOk = false ∧
    t.pwr.badRails = r :: s.pwr.badRails ∧ t.fuses = s.fuses ∧ t.clk.now = s.clk.now) ∧
  (∀ (v : VatId) (loss : Nat) (s : State), s.err.todo = [] → s.vatIn v.val = true → loss ≤ 200 →
    (s.err.resets.any fun r => r.1 == .compute) = false →
    ∃ t, exec (.irDropCheck [(v, loss)]) s = .next t ∧ t = { s with vats := t.vats, err := t.err } ∧
      (t.vat v.val).irCap.toNat = capMin (s.vat v.val).irCap.toNat (if loss ≤ 50 then 0 else if loss ≤ 100 then 64 else 48) ∧
      (∀ w, w ≠ v.val → t.vat w = s.vat w))

/-- R378, R379, R380, R381: the root of a running vat moves by at most one 25 MHz step, towards where its caps let it stand, and stays
between 0.8 GHz and the variant's ceiling; a stopped root reads 0. A first droop stretches one period and counts; one within the
next 1,023 cycles falls back to no less than 15/16 of the frequency; one more lowers nothing. The hold's end
lifts the cap. -/
def Obligations.VatRoots : Prop :=
  (∀ (v : VatId) (s : State), (s.vat v.val).run = .run → 32 ≤ (s.vat v.val).freqNow.toNat →
    (s.vat v.val).freqNow.toNat ≤ s.fuses.variant.ceiling → 32 ≤ s.fixedFreq v.val →
    ∃ t, exec (.vatFreqStep v) s = .next t ∧ t = { s with vats := t.vats, err := t.err } ∧
      32 ≤ (t.vat v.val).freqNow.toNat ∧ (t.vat v.val).freqNow.toNat ≤ s.fuses.variant.ceiling ∧
      (t.vat v.val).freqNow.toNat ≤ (s.vat v.val).freqNow.toNat + 1 ∧ (s.vat v.val).freqNow.toNat ≤ (t.vat v.val).freqNow.toNat + 1 ∧
      ((s.vat v.val).freqNow.toNat < s.rootTarget v.val → (t.vat v.val).freqNow.toNat = (s.vat v.val).freqNow.toNat + 1) ∧
      (s.rootTarget v.val < (s.vat v.val).freqNow.toNat → (t.vat v.val).freqNow.toNat + 1 = (s.vat v.val).freqNow.toNat) ∧
      (∀ w, w ≠ v.val → t.vat w = s.vat w)) ∧
  (∀ (v : VatId) (s : State), (s.vat v.val).rootRuns = false →
    ∃ t, exec (.vatFreqStep v) s = .next t ∧ (t.vat v.val).freqNow = 0) ∧
  (∀ (v : VatId) (e : Fin 5) (s : State), (s.vat v.val).rootRuns = true → (s.vat v.val).lastStretch = none →
    exec (.droopDetect v e) s = .next (s.onVat v.val fun x =>
      { x with stretchCnt := x.stretchCnt + 1, lastStretch := some x.cycles })) ∧
  (∀ (v : VatId) (e : Fin 5) (c : W64) (s : State), (s.vat v.val).rootRuns = true → (s.vat v.val).lastStretch = some c →
    (s.vat v.val).cycles.toNat ≤ c.toNat + 1023 → 32 ≤ (s.vat v.val).freqNow.toNat →
    ∃ t, exec (.droopDetect v e) s = .next t ∧ (t.vat v.val).fallbackCnt = (s.vat v.val).fallbackCnt + 1 ∧
      (t.vat v.val).stretchCnt = (s.vat v.val).stretchCnt ∧ (t.vat v.val).fallbackCap.isSome = true ∧
      15 * (s.vat v.val).freqNow.toNat ≤ 16 * (t.vat v.val).freqNow.toNat ∧ 32 ≤ (t.vat v.val).freqNow.toNat ∧
      ((s.vat v.val).fallbackCap.isSome = true → (t.vat v.val).freqNow = (s.vat v.val).freqNow ∧
        (t.vat v.val).fallbackCap = (s.vat v.val).fallbackCap)) ∧
  (∀ (v : VatId) (s : State), exec (.fallbackRelease v) s = .next (s.onVat v.val fun x => { x with fallbackCap := none }))

/-- R372, R374, R376, R377, R388: losing the reference puts the loop on the holdover oscillator, counted and recorded, without a step of
the time counter; a reference valid again makes it revert, and a locked loop reads REFCLK; a loss while on holdover changes
only REF_VALID. A die's clock loss counts and clears its lock bit; a field's first PLL failure switches to the other PLL. -/
def Obligations.ReferenceAndDieClocks : Prop :=
  (∀ (b : Bool) (s : State), s.clk.source ≠ .holdover → ∃ t, exec (.refLost b) s = .next t ∧
    t = { s with clk := t.clk, err := t.err } ∧ t.clk.source = .holdover ∧ t.clk.refValid = false ∧
    t.clk.holdoverCnt = s.clk.holdoverCnt + 1 ∧ t.clk.holdoverSeen = true ∧ t.clk.now = s.clk.now ∧ t.clk.locked = s.clk.locked ∧
    t.err.seqNext = s.err.seqNext + 1) ∧
  (∀ (b : Bool) (s : State), s.clk.source = .holdover → exec (.refLost b) s = .next { s with clk := { s.clk with refValid := false } }) ∧
  (∀ s : State, s.clk.source = .holdover → ∃ t, exec .refRestored s = .next t ∧ t = { s with clk := t.clk } ∧
    t.clk.source = .reverting ∧ t.clk.refValid = true ∧ t.clk.now = s.clk.now ∧ t.clk.holdoverCnt = s.clk.holdoverCnt) ∧
  (∀ s : State, s.clk.source = .reverting → ∃ t, exec .revertLocked s = .next t ∧ t = { s with clk := t.clk, err := t.err } ∧
    t.clk = { s.clk with source := .refclk } ∧ t.err.seqNext = s.err.seqNext + 1) ∧
  (∀ (d : Fin 9) (s : State), ∃ t, exec (.dieClockLoss d) s = .next t ∧ t.clk.dieLossCnt = s.clk.dieLossCnt + 1 ∧
    t.clk.dieLock.getLsbD d.val = false ∧ t.clk.now = s.clk.now ∧ t.fuses = s.fuses) ∧
  (∀ (f : FieldId) (s : State), Tbl.look 0 s.clk.plls f.val = 0 → ∃ t, exec (.fieldPllFail f) s = .next t ∧
    t = { s with clk := t.clk, err := t.err } ∧ Tbl.look 0 t.clk.plls f.val = 5 ∧ t.err.todo = s.err.todo ∧
    t.err.handlings = s.err.handlings)

/-- R387, R388, R405: one nanosecond that passes with no command waiting. The time counter of a locked clock unit advances by 1 and
nothing that a command alone changes does; before the first lock nothing happens. That a step on an empty queue is one
nanosecond is the model's choice (log 1). -/
def Obligations.IdleStepIsOneNanosecond : Prop :=
  (∀ s : State, s.pending = [] → s.clk.locked = true → ∃ t, step s = .next t ∧ t.clk.now = s.clk.now + 1 ∧
    t = { s with clk := t.clk, pwr := t.pwr, vats := t.vats, creams := t.creams, hbm := t.hbm } ∧ t.pwr.energy = s.pwr.energy ∧
    t.pwr.state = s.pwr.state ∧ t.hbm.pcs = s.hbm.pcs ∧ t.hbm.stackTbl = s.hbm.stackTbl ∧ t.clk.source = s.clk.source ∧
    (s.clk.source = .holdover → t.clk.holdoverNs = s.clk.holdoverNs + 1) ∧
    (s.clk.source ≠ .holdover → t.clk.holdoverNs = s.clk.holdoverNs)) ∧
  (∀ s : State, s.pending = [] → s.clk.locked = false → step s = .next s)

/-- The queue: with a command at the front, a step is that command's effect on the state whose queue holds the rest. -/
def Obligations.StepRunsTheFrontCommand : Prop :=
  ∀ (c : Instr) (rest : List Instr) (s : State), s.pending = c :: rest → step s = exec c { s with pending := rest }

/-- R37, R522, R534: the service button. A press is timed; a change shorter than 20 ms is none; under 1 s toggles identify, from 1 s
to 3 s does nothing, from 3 s to 10 s asks the host to quiesce, and at 10 s the module enters standby from READY or leaves it
in STANDBY; each press is counted in its class. -/
def Obligations.ServiceButton : Prop :=
  (∀ s : State, exec .buttonPress s = .next { s with svc := { s.svc with btnDown := true, hold3 := false, hold10 := false } }) ∧
  (∀ s : State, s.svc.btnDown = true → exec .buttonHold3s s = .next { s with svc := { s.svc with hold3 := true } }) ∧
  (∀ (ms : Nat) (s : State), ms < 20 →
    exec (.buttonRelease ms) s = .next { s with svc := { s.svc with btnDown := false, hold3 := false, hold10 := false } }) ∧
  (∀ (ms : Nat) (s : State), 20 ≤ ms → ms < 1000 → ∃ t, exec (.buttonRelease ms) s = .next t ∧ t = { s with svc := t.svc, err := t.err } ∧
    t.svc.btnDown = false ∧ t.svc.identTimer = !s.svc.identTimer ∧ t.svc.cntIdentify = sat8 s.svc.cntIdentify ∧
    t.svc.lastPress = s.clk.now ∧ t.svc.standby = s.svc.standby ∧ t.err.seqNext = s.err.seqNext + 1) ∧
  (∀ (ms : Nat) (s : State), 1000 ≤ ms → ms < 3000 → ∃ t, exec (.buttonRelease ms) s = .next t ∧
    t = { s with svc := t.svc, err := t.err } ∧ t.svc.identTimer = s.svc.identTimer ∧ t.svc.cntIgnored = sat8 s.svc.cntIgnored ∧
    t.svc.standby = s.svc.standby) ∧
  (∀ (ms : Nat) (s : State), 3000 ≤ ms → ms < 10000 → s.mc.state = .ready → ∃ t, exec (.buttonRelease ms) s = .next t ∧
    t.svc.cntQuiesce = sat8 s.svc.cntQuiesce ∧ t.kcp.notifySeq = s.kcp.notifySeq + 1 ∧ t.ctxs = s.ctxs ∧ t.vats = s.vats ∧
    t.mc = s.mc) ∧
  (∀ s : State, s.svc.btnDown = true → s.svc.hold10 = false → s.mc.state = .ready → ∃ t, exec .buttonHold10s s = .next t ∧
    t.svc.standby = true ∧ t.svc.draining = true ∧ t.mc.state = .standby ∧ t.svc.cntStandby = sat8 s.svc.cntStandby)

/-- R523, R524: the drain is over when no context runs: every vat that stood idle or ran is gated and the host is told. Standby is left
by EXIT_STANDBY, and outside standby EXIT_STANDBY does nothing. R36, R522, R525, R526, R527, R533: commands of the service logic and the TAP that rewrite a field or two and nothing else. A write to
the I2C status target is acknowledged and discarded; SVC_CTRL's bits act alone; a break restores the rate and ends an unlock;
the TAP shows its identity 0x13200E6D, and EXTEST drives pins only while RESET_N is low. -/
def Obligations.StandbySwitchesAndTap : Prop :=
  (∀ s : State, s.svc.standby = true → s.svc.draining = true → (∀ c, c < 64 → (s.ctx c).state.runs = false) →
    ∃ t, exec .standbyEntered s = .next t ∧ t.svc.draining = false ∧ t.svc.standby = true ∧
      (∀ v, v < 32 → (s.vat v).run = .idle ∨ (s.vat v).run = .run → (t.vat v).run = .gated ∧ (t.vat v).freqNow = 0) ∧
      t.kcp.notifySeq = s.kcp.notifySeq + 1 ∧ t.ctxs = s.ctxs ∧ (∀ a, t.byteAt a = s.byteAt a)) ∧
  (∀ s : State, s.svc.standby = true → ∃ t, exec .exitStandby s = .next t ∧ t = { s with svc := t.svc, mc := t.mc, err := t.err } ∧
    t.svc.standby = false ∧ t.svc.draining = false ∧ (s.mc.state = .standby → t.mc.state = .ready)) ∧
  (∀ s : State, s.svc.standby = false → exec .exitStandby s = .next s) ∧
  (∀ (b : List Byte) (s : State), exec (.i2cStatusWrite b) s = .next s) ∧
  (∀ s : State, exec .identifyExpire s = .next { s with svc := { s.svc with identTimer := false } }) ∧
  (∀ (on : Bool) (s : State), exec (.ident on) s = .next { s with svc := { s.svc with identCtl := on } }) ∧
  (∀ s : State, exec .faultClr s = .next { s with svc := { s.svc with unitRecord := false } }) ∧
  (∀ (c : Instr) (s : State), c = .lockMon ∨ c = .unlockIdleTimeout →
    exec c s = .next { s with svc := { s.svc with unlocked := false, challenge := none } }) ∧
  (∀ s : State, exec .uartBreak s = .next { s with svc := { s.svc with unlocked := false, challenge := none, baud := 115200 } }) ∧
  (∀ s : State, exec .unlockLockoutExpire s = .next { s with svc := { s.svc with lockout := false } }) ∧
  (∀ s : State, exec .bypass s = .next { s with svc := { s.svc with ir := .bypass, dr := 0, extestDrives := false } }) ∧
  (∀ s : State, exec .idcode s = .next { s with svc := { s.svc with ir := .idcode, dr := 0x13200E6D, extestDrives := false } }) ∧
  (∀ s : State, exec .samplePreload s = .next { s with svc := { s.svc with ir := .samplePreload, extestDrives := false } }) ∧
  (∀ s : State, s.board.resetN = false → exec .extest s = .next { s with svc := { s.svc with ir := .extest, extestDrives := true } }) ∧
  (∀ s : State, s.board.resetN = true → exec .extest s = .next { s with svc := { s.svc with ir := .extest, dr := 0, extestDrives := false } })

/-- R188, R525, R535: a register write that reaches SVC_UART sets BAUD, clamped between 9,600 and 3,000,000 bit/s, one that reaches
PWR_GRACE the grace, clamped between 1 and 200 ms, and nothing else; a write to an address with no register, or a
misaligned one, writes nothing. -/
def Obligations.RegisterWrites : Prop :=
  (∀ (w : Writer) (x : W64) (s : State), s.err.todo = [] → exec (.registerWrite w 0x3F0011000010 false x) s =
    .next { s with svc := { s.svc with baud := BitVec.ofNat 22 (clampNat 9600 3000000 (x.toNat % 2 ^ 22)) } }) ∧
  (∀ (w : Writer) (x : W64) (s : State), s.err.todo = [] → exec (.registerWrite w 0x3F0004000018 false x) s =
    .next { s with pwr := { s.pwr with grace := BitVec.ofNat 8 (clampNat 1 200 (x.toNat % 2 ^ 8)) } }) ∧
  (∀ (w : Writer) (a : BitVec 46) (wide : Bool) (x : W64) (s : State),
    a.toNat < windowBase ∨ a.toNat % (if wide then 8 else 4) ≠ 0 → exec (.registerWrite w a wide x) s = .next s)

/-- R528 to R530: the commands of the locked set print and end with `ok` and the prompt, whatever the lock, and change nothing but what
has been printed; a line too long or with a syntax error prints its reason. -/
def Obligations.MonitorLockedSet : Prop :=
  (∀ (c : Instr) (s : State), s.monServes = true → s.inRecovery = false →
    (c = .monHelp ∨ c = .monId ∨ c = .monTime ∨ c = .monTemp ∨ c = .monPwr ∨ c = .monLanes ∨ c = .monLaser ∨ c = .monCtx ∨
      (∃ e, c = .monRings e ∧ ∀ i, e = some i → i < 131072) ∨ (∃ a n, c = .monErr a n) ∨ ∃ n, c = .monLog n) →
    ∃ t out, exec c s = .next t ∧ t = { s with svc := { s.svc with out := s.svc.out ++ out ++ [.ok, .prompt], following := false } }) ∧
  (∀ s : State, s.monServes = true →
    exec .monSyntaxError s = .next { s with svc := { s.svc with out := s.svc.out ++ [.err "syntax", .prompt], following := false } } ∧
    exec .monLineTooLong s = .next { s with svc := { s.svc with out := s.svc.out ++ [.err "line", .prompt], following := false } }) ∧
  (∀ s : State, s.monServes = true → s.inRecovery = false →
    exec .monLogFollow s = .next { s with svc := { s.svc with following := true } }) ∧
  (∀ s : State, s.monServes = true → s.svc.following = true →
    exec .logFollowKeypress s = .next { s with svc := { s.svc with out := s.svc.out ++ [.ok, .prompt], following := false } })

/-- R529, R530: what lies outside the locked set is refused while the monitor is locked, by `err: locked`, and nothing else changes;
while a management reset runs the monitor is silent and no command of it changes anything. -/
def Obligations.MonitorLockAndSilence : Prop :=
  (∀ (c : Instr) (s : State), s.monServes = true → s.inRecovery = false → s.thm.trip = false → s.svc.unlocked = false →
    ((∃ a w, c = .peek a w) ∨ (∃ a w x, c = .poke a w x) ∨ c = .monDump ∨ c = .monDumpInfo ∨ (∃ o l, c = .monDumpRead o l) ∨
      (∃ n, c = .monCtxPause n) ∨ (∃ n, c = .monCtxLaunch n) ∨ ∃ n, c = .monCtxDestroy n) → s.err.todo = [] →
    exec c s = .next { s with svc := { s.svc with out := s.svc.out ++ [.err "locked", .prompt], following := false } }) ∧
  (∀ (c : Instr) (s : State), s.mc.mgmtReset = true → s.err.todo = [] →
    (c = .monHelp ∨ c = .monId ∨ c = .monTime ∨ c = .monTemp ∨ c = .monPwr ∨ c = .monLanes ∨ c = .monLaser ∨ c = .monCtx ∨
      (∃ e, c = .monRings e) ∨ (∃ a n, c = .monErr a n) ∨ (∃ n, c = .monLog n) ∨ c = .monLogFollow ∨ (∃ a w, c = .peek a w) ∨
      (∃ a w x, c = .poke a w x) ∨ c = .monDump ∨ c = .monDumpInfo ∨ (∃ o l, c = .monDumpRead o l) ∨ (∃ n, c = .monCtxPause n) ∨
      (∃ n, c = .monCtxLaunch n) ∨ (∃ n, c = .monCtxDestroy n) ∨ c = .unlock ∨ (∃ k g, c = .unlockResponse k g) ∨ c = .unlockEnd ∨
      c = .monSyntaxError ∨ c = .monLineTooLong ∨ c = .logFollowKeypress) → exec c s = .next s)

/-- R530, R531: an unlocked peek prints and changes nothing else. An unlocked poke of a cream die's memory stores its 4 or 8 bytes, least
significant first, and no other byte of memory, and leaves its INFO record; one aimed at FAB_SEG writes nothing and prints
`err: range`. That a monitor access to memory completes within its command is the model's choice (log 46). -/
def Obligations.PeekAndPoke : Prop :=
  (∀ (a : W64) (wide : Bool) (s : State), s.monServes = true → s.inRecovery = false → s.thm.trip = false → s.svc.unlocked = true →
    a.toNat % (if wide then 8 else 4) = 0 → a.toNat < 2 ^ 46 → ∃ t v st, exec (.peek a wide) s = .next t ∧
      t = { s with svc := { s.svc with following := false,
                                       out := s.svc.out ++ [.field "address" a.toNat, .field "value" v, .field "status" st, .ok, .prompt] } }) ∧
  (∀ (a : W64) (wide : Bool) (x : W64) (c off : Nat) (s : State), s.monServes = true → s.inRecovery = false → s.thm.trip = false →
    s.svc.unlocked = true → s.err.todo = [] → a.toNat % (if wide then 8 else 4) = 0 → regionOf a.toNat = .cream c off →
    s.targetDown a.toNat = none → s.badIn (a.toNat / 64 * 64) 64 = false → ∃ t, exec (.poke a wide x) s = .next t ∧
      (∀ i, i < (if wide then 8 else 4) → t.byteAt (a.toNat + i) = BitVec.ofNat 8 (x.toNat / 2 ^ (8 * i))) ∧
      (∀ b, b < a.toNat ∨ a.toNat + (if wide then 8 else 4) ≤ b → t.byteAt b = s.byteAt b) ∧
      t.err.seqNext = s.err.seqNext + 1 ∧ t.ctxs = s.ctxs ∧ t.vats = s.vats) ∧
  (∀ (a : W64) (wide : Bool) (x : W64) (s : State), s.monServes = true → s.inRecovery = false → s.thm.trip = false →
    s.svc.unlocked = true → s.err.todo = [] → a.toNat % (if wide then 8 else 4) = 0 → windowBase + 0xA100000 ≤ a.toNat →
    a.toNat < windowBase + 0xA180000 → ∃ t, exec (.poke a wide x) s = .next t ∧ t.fab = s.fab ∧
      t.svc.out = s.svc.out ++ [.err "range", .prompt] ∧ t.err.seqNext = s.err.seqNext + 1)

/-- R530: the unlocked monitor's dump and context commands. A dump starts with trigger 4 where none is held; a held dump's header and
bytes are printed; a context command does what its KCP counterpart does and prints `err: state` where that would answer
STATE. -/
def Obligations.MonitorDumpAndContexts : Prop :=
  (∀ s : State, s.monServes = true → s.inRecovery = false → s.thm.trip = false → s.svc.unlocked = true → s.err.dump.valid = false →
    s.err.dump.busy = false → ∃ t, exec .monDump s = .next t ∧ t = { s with svc := t.svc, err := t.err } ∧ t.err.dump.busy = true ∧
      t.err.dump.trigger = 4 ∧ t.err.dump.time = s.clk.now ∧ t.err.ring = s.err.ring ∧ t.svc.out = s.svc.out ++ [.ok, .prompt]) ∧
  (∀ s : State, s.monServes = true → s.inRecovery = false → s.thm.trip = false → s.svc.unlocked = true → s.heldDump ≠ [] →
    exec .monDumpInfo s = .next { s with svc :=
      { s.svc with following := false, out := s.svc.out ++ [.bytes (s.heldDump.take 64), .ok, .prompt] } }) ∧
  (∀ (off len : Nat) (s : State), s.monServes = true → s.inRecovery = false → s.thm.trip = false → s.svc.unlocked = true →
    s.heldDump ≠ [] → len ≤ 4096 → exec (.monDumpRead off len) s = .next { s with svc :=
      { s.svc with following := false, out := s.svc.out ++ [.bytes ((s.heldDump.drop off).take len), .ok, .prompt] } }) ∧
  (∀ (n : Nat) (s : State), s.monServes = true → s.inRecovery = false → s.thm.trip = false → s.svc.unlocked = true → n < 64 →
    (s.ctx n).state = .running → s.replayHolds n = false → s.isActive n = true → ∃ t, exec (.monCtxPause n) s = .next t ∧
      (t.ctx n).state = .draining ∧ (∀ d, d ≠ n → t.ctx d = s.ctx d) ∧ t.svc.out = s.svc.out ++ [.ok, .prompt] ∧ t.fab = s.fab) ∧
  (∀ (n : Nat) (s : State), s.monServes = true → s.inRecovery = false → s.thm.trip = false → s.svc.unlocked = true → n < 64 →
    s.svc.standby = false → s.svc.draining = false → (s.ctx n).state = .loaded ∨ (s.ctx n).state = .paused → s.replayHolds n = false →
    ∃ t, exec (.monCtxLaunch n) s = .next t ∧ (t.ctx n).state = .running ∧ t.svc.out = s.svc.out ++ [.ok, .prompt] ∧
      (∀ a, t.byteAt a = s.byteAt a)) ∧
  (∀ (c : Instr) (n : Nat) (s : State), s.monServes = true → s.inRecovery = false → s.thm.trip = false → s.svc.unlocked = true → n < 64 →
    (s.ctx n).state = .free → c = .monCtxPause n ∨ c = .monCtxLaunch n → ∃ t, exec c s = .next t ∧ t = { s with svc := t.svc } ∧
      t.svc.out = s.svc.out ++ [.err "state", .prompt]) ∧
  (∀ (n : Nat) (s : State), s.monServes = true → s.inRecovery = false → s.thm.trip = false → s.svc.unlocked = true → n < 64 →
    (s.ctx n).quiet = true → ∃ t, exec (.monCtxDestroy n) s = .next t ∧ (t.ctx n).state = .free ∧ (t.ctx n).resident = false ∧
      t.svc.out = s.svc.out ++ [.ok, .prompt])

/-- R532, R533: `unlock` issues a challenge with the time it was made, unless it is locked out. An answer whose signature verifies under a
key that the host key table holds unlocks the monitor and is counted; an answer with no challenge waiting, or to one older
than 120 s, fails and is counted, and the third failure within ten minutes locks the command out. A challenge serves once.
`unlock end` locks the monitor. -/
def Obligations.MonitorUnlock : Prop :=
  (∀ s : State, s.monServes = true → s.inRecovery = false → s.svc.lockout = false → ∃ t n, exec .unlock s = .next t ∧
    t = { s with svc := t.svc, free := t.free } ∧ t.svc.challenge = some (n, s.clk.now) ∧ n.length = 32 ∧
    t.svc.unlocked = s.svc.unlocked) ∧
  (∀ (key sig n : List Byte) (t0 : W64) (s : State), s.monServes = true → s.inRecovery = false → s.svc.challenge = some (n, t0) →
    s.time ≤ t0.toNat + 120000000000 → ecdsaVerify key (s.unlockMessage n t0) sig = true → digestOf key ∈ s.fru.hostKeys →
    ∃ t, exec (.unlockResponse key sig) s = .next t ∧ t = { s with svc := t.svc, err := t.err } ∧ t.svc.unlocked = true ∧
      t.svc.unlockCnt = s.svc.unlockCnt + 1 ∧ t.svc.failCnt = s.svc.failCnt ∧ t.svc.challenge = none) ∧
  (∀ (key sig : List Byte) (s : State), s.monServes = true → s.inRecovery = false →
    (s.svc.challenge = none ∨ ∃ n t0, s.svc.challenge = some (n, t0) ∧
      (t0.toNat + 120000000000 < s.time ∨ ecdsaVerify key (s.unlockMessage n t0) sig = false ∨ digestOf key ∉ s.fru.hostKeys)) →
    ∃ t, exec (.unlockResponse key sig) s = .next t ∧ t = { s with svc := t.svc, err := t.err } ∧ t.svc.unlocked = s.svc.unlocked ∧
      t.svc.failCnt = s.svc.failCnt + 1 ∧ t.svc.challenge = none ∧
      (2 ≤ (s.svc.failTimes.filter fun x => decide (s.time < x.toNat + 600000000000)).length → t.svc.lockout = true)) ∧
  (∀ s : State, s.monServes = true → s.inRecovery = false → exec .unlockEnd s = .next { s with svc :=
    { s.svc with unlocked := false, challenge := none, following := false, out := s.svc.out ++ [.ok, .prompt] } })

/-- R493 to R496: bring-up. The end of step 1 puts the package rails on and begins step 2; the end of step 4 leaves HBM running, its
memory zero and every stack that trained in RUN; a vat whose known-answer run matches is done with step 7, and one whose first
run does not match runs again; the end of step 7 is READY, with the vats in service idle at 0.8 GHz and the time of READY
held. A step that reaches its bound with nothing unfinished ends as it would have. -/
def Obligations.BringUpSteps : Prop :=
  (∀ (c : Instr) (s : State), s.mc.mgmtReset = false → s.mc.step = 1 → s.err.todo = [] →
    ((∃ o, c = .bringUpStepEnd o) ∨ c = .bringUpStepBound []) → ∃ t, exec c s = .next t ∧ t.board.rails = true ∧ t.mc.step = 2 ∧
      Tbl.look 0 t.mc.stepEnd 1 = s.clk.now ∧ t.mc.stepStart = s.clk.now ∧ t.err.seqNext = s.err.seqNext + 1 ∧ t.fab = s.fab) ∧
  (∀ (o : StepObs) (s : State), s.mc.mgmtReset = false → s.mc.step = 4 → s.err.todo = [] → o.failedStacks = [] →
    ∃ t, exec (.bringUpStepEnd o) s = .next t ∧ t.mc.step = 5 ∧ t.hbm.running = true ∧ (∀ a, a < 2 ^ 41 → t.byteAt a = 0) ∧
      (∀ a, 2 ^ 41 ≤ a → t.byteAt a = s.byteAt a) ∧
      (∀ k, k < 32 → s.inv.stackRetired.getLsbD k = false → (t.stack k).mode = .run)) ∧
  (∀ (v : VatId) (f : List Nat) (s : State), s.err.todo = [] → s.mc.step = 7 → s.inService v.val = true →
    s.mc.katDone.getLsbD v.val = false → (s.vat v.val).katRuns = 0 →
    exec (.katRunComplete v (Config.katSignature v.val) f) s =
      .next { s with mc := { s.mc with katDone := bvSet s.mc.katDone v.val true } }) ∧
  (∀ (v : VatId) (x : W64) (s : State), s.err.todo = [] → s.mc.step = 7 → s.inService v.val = true → x ≠ Config.katSignature v.val →
    s.mc.katDone.getLsbD v.val = false → (s.vat v.val).katRuns = 0 →
    ∃ t, exec (.katRunComplete v x []) s = .next t ∧ (t.vat v.val).katRuns = 1 ∧ t.mc.katDone = s.mc.katDone ∧ t.inv = s.inv) ∧
  (∀ (o : StepObs) (s : State), s.mc.mgmtReset = false → s.mc.step = 7 → s.err.todo = [] → s.err.halt = false → s.mc.heldResets = [] →
    ∃ t, exec (.bringUpStepEnd o) s = .next t ∧ t.mc.step = 8 ∧ t.mc.state = .ready ∧ t.mc.readyTime = s.clk.now ∧
      (∀ v, v < 32 → s.dieIn (v / 4) = true → s.inv.vatMap.getLsbD v = true → (t.vat v).run = .idle ∧ (t.vat v).freqNow = 32) ∧
      (∀ a, t.byteAt a = s.byteAt a))

/-- R498, R501, R503 to R506: firmware, recovery and the security version. SVN_MIN rises to a verified image's version only in READY
and only upwards. In recovery FW_BEGIN opens a staging buffer, FW_WRITE fills it at its offset, FW_COMMIT of bytes whose hash and
check hold erases the region it will program, and the end of programming leaves the staged bytes in the flash, no other byte
changed. Only recovery answers these commands. -/
def Obligations.FirmwareAndRecovery : Prop :=
  (∀ s : State, s.mc.step = 8 → s.mc.fwVerified = true → s.mc.raiseSvn = true → s.fuses.svnMin.toNat < s.mc.svn.toNat →
    ∃ t, exec .svnRaised s = .next t ∧ t = { s with fuses := { s.fuses with svnMin := s.mc.svn }, err := t.err } ∧
      t.err.seqNext = s.err.seqNext + 1) ∧
  (∀ s : State, s.mc.svn.toNat ≤ s.fuses.svnMin.toNat → exec .svnRaised s = .next s) ∧
  (∀ s : State, exec .enterRecovery s = .next { s with mc := { s.mc with enterRecovery := true } }) ∧
  (∀ (k : Fin 8) (req total : W32) (kind : Byte) (s : State), s.inRecovery = true → s.mc.committing = none → kind.toNat < 2 →
    (kind = 0 → total.toNat ≤ imageMax) → (kind = 1 → total = 256) → s.err.dump.valid = false →
    ∃ t, exec (.fwBegin (.session k) req kind total) s = .next t ∧
      t.mc = { s.mc with staging := some { isCfg := kind == 1, total := total.toNat } } ∧ t.fab = s.fab) ∧
  (∀ (k : Fin 8) (req off : W32) (b : List Byte) (g : Staging) (s : State), s.inRecovery = true → s.mc.staging = some g →
    off.toNat % 64 = 0 → off.toNat + b.length ≤ g.total → ∃ t g1, exec (.fwWrite (.session k) req off b) s = .next t ∧
      t.mc = { s.mc with staging := some g1 } ∧ g1.total = g.total ∧ g1.isCfg = g.isCfg ∧
      (∀ i, Tbl.look 0 g1.bytes i = if off.toNat ≤ i ∧ i < off.toNat + b.length then b.getD (i - off.toNat) 0 else Tbl.look 0 g.bytes i)) ∧
  (∀ (src : KcpSrc) (req : W32) (g : Staging) (s : State), s.inRecovery = true → s.mc.committing = none → s.mc.staging = some g →
    g.isCfg = true → recordSound g.list = true → ∃ t, exec (.fwCommit src req (digestOf g.list)) s = .next t ∧
      t.mc.committing = some (src, req, true) ∧ (∀ a, cfgFlash ≤ a → a < cfgFlash + 0x10000 → t.flashByte a = 0xFF) ∧
      (∀ a, a < cfgFlash ∨ cfgFlash + 0x10000 ≤ a → t.flashByte a = s.flashByte a) ∧ t.fab = s.fab) ∧
  (∀ (k : Fin 8) (req : W32) (isCfg : Bool) (g : Staging) (s : State), s.mc.committing = some (.session k, req, isCfg) →
    s.mc.staging = some g → ∃ t, exec .fwUpdated s = .next t ∧
      (∀ i, i < g.total → t.flashByte ((flashRegion isCfg).1 + i) = Tbl.look 0 g.bytes i) ∧
      (∀ a, a < (flashRegion isCfg).1 ∨ (flashRegion isCfg).1 + g.total ≤ a → t.flashByte a = s.flashByte a)) ∧
  (∀ (c : Instr) (k : Fin 8) (req : W32) (s : State), s.inRecovery = false → (s.session k.val).isOpen = false →
    ((∃ a b, c = .fwBegin (.session k) req a b) ∨ (∃ a b, c = .fwWrite (.session k) req a b) ∨ ∃ a, c = .fwCommit (.session k) req a) →
    ∃ t, exec c s = .next t ∧ t = { s with kcp := t.kcp })

/-- R512 to R516: the two controllers. A journal holds the sessions, the forwards and the command number; a handover is raised where a
standby controller is ready and recorded with its source; the takeover resumes every session 2^20 above the journal's SEQ and ends an
unlock of the monitor; the overlap ends; a self-test pass readies MC-A, which then retakes control. -/
def Obligations.ControllerHandover : Prop :=
  (∀ s : State, s.firmwareRuns = true → exec .journalWrite s = .next { s with mc :=
    { s.mc with journalTime := s.clk.now, journalSessions := s.kcp.sessions, journalForwards := s.kcp.forwards,
                journalRemote := s.kcp.remote, journalCmd := s.mc.cmdSeq } }) ∧
  (∀ (c : Instr) (s : State), (c = .mcWatchdogExpire ∨ ∃ src, c = .mcHandover src) → s.mc.owner = false → s.mc.handover = false →
    s.mc.mgmtReset = false → 2 ≤ s.mc.step.toNat → s.mc.mcbReady = true → s.err.handlings = [] → s.err.todo = [] →
    ∃ t, exec c s = .next t ∧ t.mc = { s.mc with handover := true } ∧
      (Tbl.look {} t.err.ring (s.err.seqNext.toNat % 4096)).code = 0x0004 ∧ t.fab.mem = s.fab.mem) ∧
  (∀ s : State, s.mc.handover = true → ∃ t, exec .handoverTakeover s = .next t ∧ t.mc.owner = true ∧ t.mc.overlap = true ∧
    t.mc.handover = false ∧ t.mc.mcaReady = false ∧ t.mc.handoverCnt = s.mc.handoverCnt + 1 ∧
    t.mc.cmdSeq = s.mc.journalCmd + 2 ^ 20 ∧ t.kcp.forwards = s.mc.journalForwards ∧ t.svc.unlocked = false ∧ t.svc.challenge = none ∧
    t.kcp.pending = s.kcp.pending ∧ t.kcp.notifySeq = s.kcp.notifySeq ∧ t.fab = s.fab ∧ t.ctxs = s.ctxs ∧ t.vats = s.vats) ∧
  (∀ (k : Nat) (n : Session) (s : State), s.mc.handover = true → s.mc.journalSessions = [(k, n)] → n.isOpen = true →
    ∃ t, exec .handoverTakeover s = .next t ∧ t.session k = { n with txSeq := n.txSeq + 2 ^ 20 }) ∧
  (∀ s : State, exec .overlapEnd s = .next { s with mc := { s.mc with overlap := false } }) ∧
  (∀ s : State, s.mc.owner = true → s.mc.overlap = false → exec .mcaSelftestPass s = .next { s with mc := { s.mc with mcaReady := true } }) ∧
  (∀ s : State, s.mc.owner = true → s.mc.mcaReady = true → ∃ t, exec .mcRetake s = .next t ∧
    t = { s with mc := t.mc, svc := t.svc, err := t.err } ∧ t.mc.owner = false ∧ t.mc.retakeCnt = s.mc.retakeCnt + 1 ∧
    t.svc.unlocked = false ∧ t.err.seqNext = s.err.seqNext + 1) ∧
  (∀ (test : Nat) (s : State), 2 ≤ s.mc.step.toNat → s.mc.mgmtReset = false → s.mc.owner = false → s.err.handlings = [] →
    s.err.todo = [] → ∃ t, exec (.mcSelftestFail true test) s = .next t ∧ t.mc = { s.mc with mcbReady := false } ∧
      (Tbl.look {} t.err.ring (s.err.seqNext.toNat % 4096)).code = 0x0006)

/-- R477, R465, R81, R181, R453: the resets that the host requests. A vat, a die and a compute reset begin at once where no context holds a
plane in their scope: the vats in it are in reset with their registers at their reset values, a die's and the package's SRAM reads 0, HBM
keeps every byte, and no vat outside the scope changes. A request for a unit out of service does nothing; before READY a die or
compute reset is held. A management reset ends every session and forward and leaves the vats, the contexts and memory alone. -/
def Obligations.UnitResets : Prop :=
  (∀ (v : VatId) (s : State), (s.inv.vatMap.getLsbD v.val = true ∨ s.inv.vatColumn.getLsbD v.val = true) → s.dieIn (v.val / 4) = true →
    s.inv.dieInReset.getLsbD (v.val / 4) = false → s.resetRuns (.vat v) = false → s.residents v.val = [] → s.err.todo = [] →
    ∃ t, exec (.vatReset v) s = .next t ∧ (t.vat v.val).run = .reset ∧ (t.vat v.val).sliceCount = 0 ∧ (t.vat v.val).fault = 0 ∧
      (t.vat v.val).freqNow = 0 ∧ (∀ x, x < 1024 → (t.tile v.val x).xflags0 = 0 ∧ (t.tile v.val x).xflags1 = 0) ∧
      t.resetRuns (.vat v) = true ∧ (∀ a, t.byteAt a = s.byteAt a) ∧ (∀ w, w ≠ v.val → t.vat w = s.vat w)) ∧
  (∀ (v : VatId) (s : State), s.inv.vatMap.getLsbD v.val = false → s.inv.vatColumn.getLsbD v.val = false → s.err.todo = [] →
    exec (.vatReset v) s = .next s) ∧
  (∀ (d : DieId) (s : State), s.mc.step = 8 → s.dieIn d.val = true → s.inv.dieInReset.getLsbD d.val = false → s.err.todo = [] →
    (∀ v, v / 4 = d.val → s.residents v = []) → ∃ t, exec (.dieReset d) s = .next t ∧ t.inv.dieInReset.getLsbD d.val = true ∧
      t.resetRuns (.die d) = true ∧ (∀ v, v / 4 = d.val → (t.vat v).run = .reset) ∧ (∀ w, w / 4 ≠ d.val → t.vat w = s.vat w) ∧
      (∀ v a, v / 4 = d.val → tileBase v 0 ≤ a → a < tileBase (v + 1) 0 → t.byteAt a = 0) ∧
      (∀ c a, c / 2 = d.val → creamBase c ≤ a → a < creamBase (c + 1) → t.byteAt a = 0) ∧
      (∀ a, a < 2 ^ 41 → t.byteAt a = s.byteAt a)) ∧
  (∀ (c : Instr) (k : ResetKind) (s : State), s.mc.step ≠ 8 → s.err.todo = [] → k ∉ s.mc.heldResets →
    ((∃ d, c = .dieReset d ∧ k = .die d) ∨ (c = .computeReset ∧ k = .compute)) →
    exec c s = .next { s with mc := { s.mc with heldResets := s.mc.heldResets ++ [k] } }) ∧
  (∀ s : State, s.mc.step = 8 → s.resetRuns .compute = false → s.err.todo = [] → s.svc.standby = false → (∀ v, s.residents v = []) →
    ∃ t, exec .computeReset s = .next t ∧ t.resetRuns .compute = true ∧ (∀ d, d < 8 → t.inv.dieInReset.getLsbD d = true) ∧
      (∀ v, v < 32 → (t.vat v).run = .reset) ∧ (∀ a, a < 2 ^ 41 → t.byteAt a = s.byteAt a) ∧
      (∀ a, tileBase 0 0 ≤ a → a < tileBase 32 0 → t.byteAt a = 0) ∧ (∀ a, creamBase 0 ≤ a → a < creamBase 16 → t.byteAt a = 0)) ∧
  (∀ s : State, s.mc.mgmtReset = false → 2 ≤ s.mc.step.toNat → s.err.todo = [] → ∃ t, exec .mgmtReset s = .next t ∧
    t.mc.mgmtReset = true ∧ t.kcp.sessions = [] ∧ t.kcp.forwards = [] ∧ t.kcp.idleTimeout = 60 ∧ t.kcp.fwdTimeout = 30 ∧
    t.lnk.routes = [] ∧ t.svc.unlocked = false ∧ t.resetRuns .management = true ∧ t.vats = s.vats ∧ t.ctxs = s.ctxs ∧
    t.planes = s.planes ∧ t.tiles = s.tiles ∧ ∀ a, t.byteAt a = s.byteAt a) ∧
  (∀ (v : VatId) (o : StepObs) (b : W64) (s : State), s.err.resets = [(.vat v, b)] → (s.vat v.val).suspects = [] → s.vatIn v.val = true →
    s.err.todo = [] → s.err.handlings = [] → ∃ t, exec (.resetDone (.vat v) o) s = .next t ∧ (t.vat v.val).run = .idle ∧
      (t.vat v.val).freqNow = 32 ∧ t.err.vatResets = s.err.vatResets + 1 ∧ (t.recordAt s.err.seqNext).code = 0x0905 ∧
      (t.recordAt s.err.seqNext).details = [0, s.clk.now - b] ∧ t.resetRuns (.vat v) = false ∧ t.fab = s.fab ∧ t.ctxs = s.ctxs) ∧
  (∀ (k : ResetKind) (o : StepObs) (s : State), s.resetRuns k = false → s.err.todo = [] → exec (.resetDone k o) s = .next s)

/-- R484, R486 to R489: an overrun of a handling is a nested record of severity UNIT that calls for the next larger action; an overrun of
nothing in progress does nothing. A dump begins with its trigger, its time and the ring as it stands, unless one is held; a read adds one
entry with its status, a missing answer an UNREADABLE one; the end puts the header before the entries and makes the
dump valid; a release forgets it. None of these touches anything but the error unit. -/
def Obligations.OverrunsAndDumps : Prop :=
  (∀ (seq : W64) (s : State), (∀ h ∈ s.err.handlings, h.seq ≠ seq) → s.err.todo = [] → exec (.handlingOverrun seq) s = .next s) ∧
  (∀ (seq : W64) (v : Nat) (s : State), v < 32 → s.err.handlings = [{ scope := .vat v, seq := seq }] →
    ∃ u : State, exec (.handlingOverrun seq) s = .next u.finish ∧ (u.recordAt s.err.seqNext).code = 0x0906 ∧
      (u.recordAt s.err.seqNext).severity = .unit ∧ (u.recordAt s.err.seqNext).nested = true ∧
      (u.recordAt s.err.seqNext).parent = seq ∧ (u.recordAt s.err.seqNext).action = .computeReset ∧
      u.err.handlings = [{ scope := .compute, seq := s.err.seqNext }, { scope := .vat v, seq := seq }] ∧
      u.err.todo = s.err.todo ++ [.compute] ∧ u.vats = s.vats ∧ u.fab.mem = s.fab.mem) ∧
  (∀ s : State, s.err.dump.valid = false → s.err.dump.busy = false → ∃ t, exec .dump s = .next t ∧ t = { s with err := t.err } ∧
    t.err.dump.busy = true ∧ t.err.dump.valid = false ∧ t.err.dump.trigger = 3 ∧ t.err.dump.time = s.clk.now ∧ t.err.dump.entries = 0 ∧
    t.err.dump.size = 64 ∧ t.err.ring = s.err.ring ∧ t.err.seqNext = s.err.seqNext) ∧
  (∀ s : State, (s.err.dump.valid = true ∨ s.err.dump.busy = true) → ∃ t, exec .dump s = .next t ∧ t = { s with err := t.err } ∧
    t.err.dump = s.err.dump ∧ (t.recordAt s.err.seqNext).code = 0x0908 ∧ (t.recordAt s.err.seqNext).severity = .info) ∧
  (∀ (b : List Byte) (u : W16) (n : Nat) (r : List (W16 × Nat)) (s : State), s.err.dump.busy = true → s.mc.owner = false →
    s.err.dump.plan = (u, n + 2) :: r → 66 ≤ s.err.dump.entries → s.err.dump.entries < 4095 → s.unitDark u = false →
    s.err.dump.misses < 4 → s.err.dump.size.toNat < 2 ^ 24 - 4096 → b.length % 16 = 0 → b.length ≤ 4080 →
    ∃ t, exec (.dumpEntryRead b) s = .next t ∧ t = { s with err := { s.err with dump := t.err.dump } } ∧
      t.err.dump.entries = s.err.dump.entries + 1 ∧ t.err.dump.size = s.err.dump.size + BitVec.ofNat 64 (16 + b.length) ∧
      t.err.dump.bytes = s.err.dump.bytes ++ (leBytes 2 u.toNat ++ leBytes 1 0 ++ [0] ++
        leBytes 4 (Config.scanAddress s.err.dump.entries).toNat ++ leBytes 4 b.length ++ leBytes 4 0) ++ b ∧
      t.err.dump.plan = (u, n + 1) :: r ∧ t.err.dump.misses = 0 ∧ t.err.dump.unreadable = s.err.dump.unreadable) ∧
  (∀ (u : W16) (n : Nat) (r : List (W16 × Nat)) (s : State), s.err.dump.busy = true → s.mc.owner = false →
    s.err.dump.plan = (u, n + 2) :: r → s.err.dump.entries < 4095 → s.unitDark u = false → s.err.dump.misses < 3 →
    s.err.dump.size.toNat < 2 ^ 24 - 4096 → ∃ t, exec .dumpReadTimeout s = .next t ∧
      t = { s with err := { s.err with dump := t.err.dump } } ∧ t.err.dump.entries = s.err.dump.entries + 1 ∧
      t.err.dump.unreadable = s.err.dump.unreadable + 1 ∧ t.err.dump.size = s.err.dump.size + 16 ∧
      t.err.dump.misses = s.err.dump.misses + 1 ∧ t.err.dump.plan = (u, n + 1) :: r) ∧
  (∀ s : State, s.err.dump.busy = true → s.mc.owner = false → ∃ t, exec .dumpDone s = .next t ∧ t = { s with err := t.err } ∧
    t.err.dump.valid = true ∧ t.err.dump.busy = false ∧ t.err.dump.bytes = s.err.dump.header ++ s.err.dump.bytes ∧
    t.err.dump.size = s.err.dump.size ∧ (t.recordAt s.err.seqNext).code = 0x0908 ∧
    (t.recordAt s.err.seqNext).details =
      [s.err.dump.size, BitVec.ofNat 64 s.err.dump.unreadable, BitVec.ofNat 64 s.err.dump.skipped]) ∧
  (∀ s : State, s.err.dump.busy = false → exec .dumpDone s = .next s) ∧
  (∀ s : State, s.err.dump.valid = true → exec .dumpRelease s = .next { s with err := { s.err with dump := {} } }) ∧
  (∀ s : State, s.err.dump.valid = false → exec .dumpRelease s = .next s)

/-- R456 to R461, R444, R523: the context commands. CTX_CREATE gives a FREE context its group and seed; CTX_LAUNCH puts a LOADED
context into RUNNING at its entry point with its stack pointer in x2, and answers STATE in standby; CTX_PAUSE makes a shadow context
PAUSED and an active one DRAINING; CTX_DESTROY leaves a quiet context FREE with its segment entries invalid. A number above 63
is answered RANGE and changes nothing else. -/
def Obligations.ContextCommands : Prop :=
  (∀ (k : Fin 8) (req : W32) (c : Byte) (group : W16) (seed : W64) (s : State), c.toNat < 64 → (s.ctx c.toNat).state = .free →
    ∃ t, exec (.ctxCreate (.session k) req c group seed) s = .next t ∧ t = { s with ctxs := t.ctxs, kcp := t.kcp, eth := t.eth } ∧
      t.ctx c.toNat = { s.ctx c.toNat with group := group, seed := seed } ∧ (∀ d, d ≠ c.toNat → t.ctx d = s.ctx d) ∧
      t.repliedWith k.val req 0x0011 stOK []) ∧
  (∀ (k : Fin 8) (req : W32) (c : Byte) (group : W16) (seed : W64) (s : State), c.toNat < 64 → (s.ctx c.toNat).state ≠ .free →
    ∃ t, exec (.ctxCreate (.session k) req c group seed) s = .next t ∧ t = { s with kcp := t.kcp, eth := t.eth } ∧
      t.repliedWith k.val req 0x0011 stState []) ∧
  (∀ (i : Instr) (op : W16) (k : Fin 8) (req : W32) (c : Byte) (s : State), 64 ≤ c.toNat →
    ((∃ g x, i = .ctxCreate (.session k) req c g x ∧ op = 0x0011) ∨ (i = .ctxLaunch (.session k) req c ∧ op = 0x0012) ∨
      (i = .ctxPause (.session k) req c ∧ op = 0x0013) ∨ (i = .ctxDestroy (.session k) req c ∧ op = 0x0014)) →
    ∃ t, exec i s = .next t ∧ t = { s with kcp := t.kcp, eth := t.eth } ∧ t.repliedWith k.val req op stRange []) ∧
  (∀ (k : Fin 8) (req : W32) (c : Byte) (s : State), c.toNat < 64 →
    (s.svc.standby = true ∨ (s.ctx c.toNat).state ∈ [.free, .running, .draining, .faulted]) →
    ∃ t, exec (.ctxLaunch (.session k) req c) s = .next t ∧ t = { s with kcp := t.kcp, eth := t.eth } ∧
      t.repliedWith k.val req 0x0012 stState []) ∧
  (∀ (k : Fin 8) (req : W32) (c : Byte) (v : Nat) (s : State), c.toNat < 64 → s.svc.standby = false → s.svc.draining = false →
    (s.ctx c.toNat).state = .loaded → (s.ctx c.toNat).resident = true → (s.ctx c.toNat).vat.toNat = v → s.activeCtx v = some c.toNat →
    s.activePlane v = s.ctxPlane c.toNat → (s.vat v).run = .idle → (s.vat v).suspects = [] → (s.vat v).replaying = none →
    ∃ t, exec (.ctxLaunch (.session k) req c) s = .next t ∧ (t.ctx c.toNat).state = .running ∧ (t.vat v).run = .run ∧
      (t.plane (s.ctxPlane c.toNat)).pc = (s.plane (s.ctxPlane c.toNat)).entry ∧ (t.plane (s.ctxPlane c.toNat)).issuing = true ∧
      Tbl.look 0 (t.plane (s.ctxPlane c.toNat)).x 2 = (s.plane (s.ctxPlane c.toNat)).initSp ∧
      Tbl.look 0 (t.plane (s.ctxPlane c.toNat)).x 1 = 0 ∧ (∀ d, d ≠ c.toNat → t.ctx d = s.ctx d) ∧ t.fab = s.fab ∧
      t.repliedWith k.val req 0x0012 stOK []) ∧
  (∀ (k : Fin 8) (req : W32) (c : Byte) (s : State), c.toNat < 64 → (s.ctx c.toNat).state = .running → s.replayHolds c.toNat = false →
    s.isActive c.toNat = true → ∃ t, exec (.ctxPause (.session k) req c) s = .next t ∧
      t = { s with ctxs := t.ctxs, kcp := t.kcp, eth := t.eth } ∧ (t.ctx c.toNat).state = .draining ∧
      t.repliedWith k.val req 0x0013 stOK []) ∧
  (∀ (k : Fin 8) (req : W32) (c : Byte) (s : State), c.toNat < 64 → (s.ctx c.toNat).state = .running → s.replayHolds c.toNat = false →
    s.isActive c.toNat = false → ∃ t, exec (.ctxPause (.session k) req c) s = .next t ∧ (t.ctx c.toNat).state = .paused ∧
      (∀ d, d ≠ c.toNat → t.ctx d = s.ctx d) ∧ t.fab = s.fab ∧ t.repliedWith k.val req 0x0013 stOK []) ∧
  (∀ (k : Fin 8) (req : W32) (c : Byte) (s : State), c.toNat < 64 → (s.ctx c.toNat).quiet = true →
    ∃ t, exec (.ctxDestroy (.session k) req c) s = .next t ∧ (t.ctx c.toNat).state = .free ∧ (t.ctx c.toNat).resident = false ∧
      (∀ d, d ≠ c.toNat → t.ctx d = s.ctx d) ∧
      (∀ e, e / 512 = c.toNat → (Tbl.look 0 t.fab.seg e).getLsbD 104 = false) ∧
      (∀ e, e / 512 ≠ c.toNat → Tbl.look 0 t.fab.seg e = Tbl.look 0 s.fab.seg e) ∧ (∀ a, t.byteAt a = s.byteAt a))

/-- R459, R460, R463 to R465: a drained context is PAUSED and a finished one LOADED with CTX_ENDED, once no operation of it is outstanding,
and neither before; the end of a fault stop makes the context quiet. A context reset discards every request cell of the context
that is in flight, stops it and marks it as being reset; of a FREE context it does nothing. Its completion counts it and ends
it, and frees a context that waited for it with the answer to its CTX_DESTROY. Memory keeps every byte. -/
def Obligations.ContextStops : Prop :=
  (∀ (c : CtxId) (s : State), (s.ctx c.val).state = .draining → (s.ctx c.val).drained = true → s.busyOps c.val = false →
    ∃ t, exec (.drainComplete c) s = .next t ∧ (t.ctx c.val).state = .paused ∧ (∀ d, d ≠ c.val → t.ctx d = s.ctx d) ∧
      (∀ a, t.byteAt a = s.byteAt a)) ∧
  (∀ (i : Instr) (c : CtxId) (s : State), s.busyOps c.val = true → (i = .drainComplete c ∨ i = .ctxEnded c ∨ i = .faultStopQuiet c) →
    exec i s = .next s) ∧
  (∀ (c : CtxId) (s : State), (s.ctx c.val).state = .running → (s.ctx c.val).ending = true → s.busyOps c.val = false →
    ∃ t, exec (.ctxEnded c) s = .next t ∧ (t.ctx c.val).state = .loaded ∧ (t.recordAt s.err.seqNext).code = 0x0804 ∧
      (t.recordAt s.err.seqNext).severity = .info ∧ (t.recordAt s.err.seqNext).ctxValid = true ∧
      (∀ d, d ≠ c.val → t.ctx d = s.ctx d) ∧ (∀ a, t.byteAt a = s.byteAt a)) ∧
  (∀ (c : CtxId) (s : State), (s.ctx c.val).stopping = true → (s.ctx c.val).resetting = false → s.busyOps c.val = false →
    ∃ t, exec (.faultStopQuiet c) s = .next t ∧ t = { s with ctxs := t.ctxs, err := t.err } ∧
      t.ctx c.val = { s.ctx c.val with stopping := false } ∧ (∀ h ∈ t.err.handlings, h.scope ≠ .ctx c.val)) ∧
  (∀ (c : CtxId) (s : State), (s.ctx c.val).state = .free → exec (.contextReset c) s = .next s) ∧
  (∀ (c : CtxId) (s : State), (s.ctx c.val).state ≠ .free → s.err.todo = [] → ∃ t, exec (.contextReset c) s = .next t ∧
    (t.ctx c.val).resetting = true ∧ (t.ctx c.val).stopping = true ∧ (t.ctx c.val).state = (s.ctx c.val).state ∧
    (∀ x ∈ t.fab.flight, cellOf s.fab.pkgId.toNat c.val x = false) ∧ (∀ d, d ≠ c.val → (t.ctx d).state = (s.ctx d).state) ∧
    (∀ a, t.byteAt a = s.byteAt a)) ∧
  (∀ (c : CtxId) (s : State), (s.ctx c.val).resetting = false → exec (.contextResetComplete c) s = .next s) ∧
  (∀ (c : CtxId) (s : State), (s.ctx c.val).resetting = true → (s.ctx c.val).destroyAfter = [] →
    ∃ t, exec (.contextResetComplete c) s = .next t ∧ (t.ctx c.val).resetting = false ∧ (t.ctx c.val).stopping = false ∧
      t.err.ctxResetCnt = s.err.ctxResetCnt + 1 ∧ (∀ a, t.byteAt a = s.byteAt a)) ∧
  (∀ (c : CtxId) (k : Fin 8) (req : W32) (s : State), (s.ctx c.val).resetting = true →
    (s.ctx c.val).destroyAfter = [some (.session k, req)] → ∃ t, exec (.contextResetComplete c) s = .next t ∧
      (t.ctx c.val).state = .free ∧ t.err.ctxResetCnt = s.err.ctxResetCnt + 1 ∧ t.repliedWith k.val req 0x0014 stOK [])

/-- R467 to R476: ABORT of kind RESET purges and filters its origin's context, of kind GROUP_ABORT it also faults every context of the
group that is not FREE. A filter expires, a hold is released. A hang of a running vat writes VAT_HANG, makes its running contexts
suspects that keep their state and resets the vat; a vat that does not run hangs nothing. A suspect whose turn it is goes back to its
checkpoint and runs alone. -/
def Obligations.AbortsAndReplays : Prop :=
  (∀ (x : Cell) (s : State), x.pay 3 1 ≠ 2 → ∃ t, exec (.abort x) s = .next t ∧ (x.spkg, x.pay 2 1) ∈ t.fab.filters ∧
    (∀ y ∈ t.fab.flight, cellOf x.spkg (x.pay 2 1) y = false) ∧ t.err.abortRx = s.err.abortRx + 1 ∧ t.ctxs = s.ctxs ∧ t.vats = s.vats ∧
    t.fab.mem = s.fab.mem) ∧
  (∀ (x : Cell) (s : State), x.pay 3 1 = 2 → s.err.todo = [] → s.err.handlings = [] → ∃ t, exec (.abort x) s = .next t ∧
    (x.spkg, x.pay 2 1) ∈ t.fab.filters ∧ (∀ d, d < 64 → (s.ctx d).group.toNat = x.pay 0 2 → x.pay 0 2 ≠ 0 → (s.ctx d).state ≠ .free →
      (t.ctx d).state = .faulted) ∧
    (∀ d, (s.ctx d).group.toNat ≠ x.pay 0 2 → (t.ctx d).state = (s.ctx d).state) ∧ t.fab.mem = s.fab.mem) ∧
  (∀ (p : PkgId) (c : CtxId) (s : State), exec (.abortFilterExpire p c) s =
    .next { s with fab := { s.fab with filters := s.fab.filters.filter (· ≠ (p.val, c.val)) } }) ∧
  (∀ (c : CtxId) (s : State), s.fab.held = [] →
    exec (.abortHoldRelease c) s = .next (s.onCtx c.val fun x => { x with remoteHold := false })) ∧
  (∀ (v : VatId) (s : State), (s.vat v.val).run ∉ [.run, .swap] → exec (.vatHang v) s = .next s) ∧
  (∀ (v : VatId) (c : Nat) (s : State), (s.vat v.val).run = .run → (s.vat v.val).replaying = none → c ∈ s.residents v.val →
    (s.ctx c).state = .running → s.err.todo = [] → s.err.handlings = [] → s.loads = [] → s.kcp.pending = [] →
    ∃ t, exec (.vatHang v) s = .next t ∧ (t.recordAt s.err.seqNext).code = 0x0902 ∧
      (t.recordAt s.err.seqNext).action = .vatReset ∧ (t.vat v.val).run = .reset ∧ c ∈ (t.vat v.val).suspects ∧
      (t.ctx c).suspect = true ∧ (t.ctx c).state = .running ∧ 
      (t.plane (s.ctxPlane c)).ckpt = (s.plane (s.ctxPlane c)).ckpt ∧ (t.plane (s.ctxPlane c)).seqMem = (s.plane (s.ctxPlane c)).seqMem ∧
      (t.plane (s.ctxPlane c)).issuing = false ∧
      (∀ a, t.byteAt a = s.byteAt a)) ∧
  (∀ (v : VatId) (c : Nat) (rest : List Nat) (k : Checkpoint) (s : State), (s.vat v.val).suspects = c :: rest → (s.vat v.val).replaying = none →
    (s.vat v.val).run = .idle → s.isActive c = true → (s.ctx c).vat.toNat = v.val → (s.plane (s.ctxPlane c)).ckpt = some k →
    ∃ t, exec (.replayStart v) s = .next t ∧ (t.vat v.val).replaying = some c ∧ (t.vat v.val).suspects = rest ∧
      (t.plane (s.ctxPlane c)).pc = k.pc ∧ (t.plane (s.ctxPlane c)).x = k.x ∧ (t.plane (s.ctxPlane c)).issuing = true ∧
      t.err.replayCnt = s.err.replayCnt + 1 ∧ t.fab = s.fab) ∧
  (∀ (v : VatId) (s : State), (s.vat v.val).suspects = [] → exec (.replayStart v) s = .next s)

/-- R189 to R191, R429, R444, R445, R509, R510: the commands that name no register. IDENTITY answers its 264 bytes; ATTEST a quote that holds
the host's nonce, and counts it; SEG_MAP stores a sound entry of a context that does not run as it stands, answers REFUSED while it
runs and RANGE to an entry that may not stand; QP_CREATE readies a queue pair, QP_DESTROY frees it. -/
def Obligations.IdentitySegmentsAndQueuePairs : Prop :=
  (∀ (k : Fin 8) (req : W32) (s : State), ∃ t p, exec (.identity (.session k) req) s = .next t ∧
    t = { s with kcp := t.kcp, eth := t.eth } ∧ t.repliedWith k.val req 0x0001 stOK p ∧ p.length = 264 ∧
    (p.drop 3).head? = some (BitVec.ofNat 8 s.fab.pkgId.toNat) ∧ (p.drop 8).take 8 = beBytes 8 s.clk.now.toNat) ∧
  (∀ (k : Fin 8) (req : W32) (nonce : BitVec 512) (s : State), ∃ t p, exec (.attest (.session k) req nonce) s = .next t ∧
    t.repliedWith k.val req 0x0002 stOK p ∧ (p.drop 64).take 64 = leBytes 64 nonce.toNat ∧ t.mc.quoteCnt = s.mc.quoteCnt + 1 ∧
    t = { s with mc := t.mc, kcp := t.kcp, eth := t.eth, free := s.free + 1 }) ∧
  (∀ (k : Fin 8) (req : W32) (c : Byte) (seg : W16) (e : BitVec 128) (s : State), c.toNat < 64 → seg.toNat < 512 →
    (s.ctx c.toNat).state.runs = false → segSound e.toNat = true → e.getLsbD 104 = true →
    ∃ t, exec (.segMap (.session k) req c seg e) s = .next t ∧ t.repliedWith k.val req 0x0015 stOK [] ∧
      Tbl.look 0 t.fab.seg (c.toNat * 512 + seg.toNat) = e ∧
      (∀ i, i ≠ c.toNat * 512 + seg.toNat → Tbl.look 0 t.fab.seg i = Tbl.look 0 s.fab.seg i) ∧
      t = { s with fab := { s.fab with seg := t.fab.seg }, kcp := t.kcp, eth := t.eth }) ∧
  (∀ (k : Fin 8) (req : W32) (c : Byte) (seg : W16) (e : BitVec 128) (s : State), c.toNat < 64 → seg.toNat < 512 →
    (s.ctx c.toNat).state.runs = true → ∃ t, exec (.segMap (.session k) req c seg e) s = .next t ∧
      t.repliedWith k.val req 0x0015 stRefused [] ∧ t.err.cfgRefused = true ∧ (t.recordAt s.err.seqNext).code = 0x0901 ∧
      t = { s with err := t.err, kcp := t.kcp, eth := t.eth }) ∧
  (∀ (k : Fin 8) (req : W32) (c : Byte) (seg : W16) (e : BitVec 128) (s : State), c.toNat < 64 → seg.toNat < 512 →
    (s.ctx c.toNat).state.runs = false → e.getLsbD 104 = true → segSound e.toNat = false →
    ∃ t, exec (.segMap (.session k) req c seg e) s = .next t ∧ t.repliedWith k.val req 0x0015 stRange [] ∧
      (t.recordAt s.err.seqNext).code = 0x0A08 ∧ t = { s with err := t.err, kcp := t.kcp, eth := t.eth }) ∧
  (∀ (k : Fin 8) (req : W32) (q : W16) (c : Byte) (rk : W32) (cr sz : W16) (n : W32) (ring : W64) (peer : QpPeer) (s : State),
    q.toNat < 1024 → c.toNat < 64 → 16 ≤ cr.toNat → cr.toNat ≤ 4096 → (s.qp q.toNat).state ≠ .ready →
    ∃ t p, exec (.qpCreate (.session k) req q c rk cr sz n ring peer) s = .next t ∧ t.repliedWith k.val req 0x0016 stOK p ∧
      p.take 4 = beBytes 4 q.toNat ∧ (t.qp q.toNat).state = .ready ∧ (t.qp q.toNat).ctx.toNat = c.toNat ∧ (t.qp q.toNat).rkey = rk ∧
      (t.qp q.toNat).credit = cr ∧ (t.qp q.toNat).slotSize = sz ∧ (t.qp q.toNat).slots = n ∧ (t.qp q.toNat).ringBase = ring ∧
      (t.qp q.toNat).peer = peer ∧ (t.qp q.toNat).msgs = [] ∧ (∀ r, r ≠ q.toNat → t.qp r = s.qp r) ∧
      t = { s with kcp := t.kcp, eth := t.eth, free := s.free + 1 }) ∧
  (∀ (k : Fin 8) (req : W32) (q : W16) (s : State), q.toNat < 1024 → (s.qp q.toNat).state ≠ .free →
    ∃ t, exec (.qpDestroy (.session k) req q) s = .next t ∧ t.repliedWith k.val req 0x0017 stOK [] ∧ (t.qp q.toNat).state = .free ∧
      (∀ r, r ≠ q.toNat → t.qp r = s.qp r) ∧ (∀ a, t.byteAt a = s.byteAt a)) ∧
  (∀ (k : Fin 8) (req : W32) (q : W16) (s : State), 1024 ≤ q.toNat → ∃ t, exec (.qpDestroy (.session k) req q) s = .next t ∧
    t.repliedWith k.val req 0x0017 stRange [] ∧ t = { s with kcp := t.kcp, eth := t.eth })

/-- R10 to R14, R188, R338, R444, R446, R483, R489: the commands on registers, records, the dump, routes and notifications. A read of one
register answers its value, of an address that no register has RANGE, of no address BAD_MESSAGE; a write of KCP_CFG clamps both its
fields and answers what the register then reads; FAB_SEG is not written so. ERR_READ answers the records from a number on, DUMP_READ the
bytes of the held dump with its size, ROUTE_WRITE stores the defined fields of a route entry. A subscription is its mask; an acknowledged
notification is no longer pending, and no other is lost. -/
def Obligations.RegistersRecordsAndNotifications : Prop :=
  (∀ (k : Fin 8) (req : W32) (a : W64) (n : Byte) (v : Nat) (s : State), s.regRead a.toNat n.toNat = .ok v →
    ∃ t, exec (.regRead (.session k) req [(a, n)]) s = .next t ∧ t = { s with kcp := t.kcp, eth := t.eth } ∧
      t.repliedWith k.val req 0x0020 stOK (leBytes 8 v)) ∧
  (∀ s : State, s.regRead 0x3F0003000000 8 = .ok s.clk.now.toNat) ∧
  (∀ (k : Fin 8) (req : W32) (a : W64) (n : Byte) (s : State), s.regRead a.toNat n.toNat = .error .unmapped →
    ∃ t, exec (.regRead (.session k) req [(a, n)]) s = .next t ∧ t = { s with kcp := t.kcp, eth := t.eth } ∧
      t.repliedWith k.val req 0x0020 stRange []) ∧
  (∀ (k : Fin 8) (req : W32) (s : State), ∃ t, exec (.regRead (.session k) req []) s = .next t ∧
    t = { s with kcp := t.kcp, eth := t.eth } ∧ t.repliedWith k.val req 0x0020 stBadMessage []) ∧
  (∀ (k : Fin 8) (req : W32) (x : W64) (s : State), s.inRecovery = false → s.err.todo = [] →
    ∃ t p, exec (.regWrite (.session k) req 0x3F0007000008 4 x) s = .next t ∧ t = { s with kcp := t.kcp, eth := t.eth } ∧
      t.kcp.idleTimeout.toNat = max 10 (x.toNat % 256) ∧ t.kcp.fwdTimeout.toNat = min 120 (max 1 (x.toNat / 65536 % 256)) ∧
      t.repliedWith k.val req 0x0021 stOK p ∧ leNat p = t.kcp.idleTimeout.toNat + 65536 * t.kcp.fwdTimeout.toNat) ∧
  (∀ (k : Fin 8) (req : W32) (a x : W64) (n : Byte) (s : State), 0x3F000A100000 ≤ a.toNat → a.toNat < 0x3F000A180000 →
    ∃ t, exec (.regWrite (.session k) req a n x) s = .next t ∧ t = { s with kcp := t.kcp, eth := t.eth } ∧
      t.repliedWith k.val req 0x0021 stRange []) ∧
  (∀ (k : Fin 8) (req : W32) (first : W64) (n : W16) (s : State), 64 + 64 * n.toNat ≤ (s.session k.val).recordMax.toNat →
    s.err.seqNext.toNat ≤ 4096 → first.toNat + n.toNat ≤ s.err.seqNext.toNat →
    ∃ t, exec (.errRead (.session k) req first n) s = .next t ∧ t = { s with kcp := t.kcp, eth := t.eth } ∧
      t.repliedWith k.val req 0x0022 stOK (beBytes 8 (first.toNat + n.toNat) ++ beBytes 4 s.err.overflowCnt.toNat ++ beBytes 4 n.toNat ++
        (List.range n.toNat).flatMap fun i => (Tbl.look {} s.err.ring ((first.toNat + i) % 4096)).bytes)) ∧
  (∀ (k : Fin 8) (req off len : W32) (s : State), len.toNat ≤ 8192 → len.toNat + 52 ≤ (s.session k.val).recordMax.toNat →
    s.err.dump.valid = true → s.mc.owner = false → ∃ t, exec (.dumpRead (.session k) req off len) s = .next t ∧
      t = { s with kcp := t.kcp, eth := t.eth } ∧ t.repliedWith k.val req 0x0023 stOK
        (beBytes 4 s.err.dump.bytes.length ++ (s.err.dump.bytes.drop off.toNat).take len.toNat)) ∧
  (∀ (k : Fin 8) (req off len : W32) (s : State), len.toNat ≤ 8192 → s.mc.owner = true →
    ∃ t, exec (.dumpRead (.session k) req off len) s = .next t ∧ t = { s with kcp := t.kcp, eth := t.eth } ∧
      t.repliedWith k.val req 0x0023 stOK [0, 0, 0, 0]) ∧
  (∀ (k : Fin 8) (req : W32) (d j : Byte) (v : W32) (s : State), d.toNat < 64 → j.toNat < 16 →
    ∃ t, exec (.routeWrite (.session k) req d j v) s = .next t ∧ t.repliedWith k.val req 0x0031 stOK [] ∧
      Tbl.look 0 t.lnk.routes (16 * d.toNat + j.toNat) = v &&& 0x000F1FFF ∧
      (∀ i, i ≠ 16 * d.toNat + j.toNat → Tbl.look 0 t.lnk.routes i = Tbl.look 0 s.lnk.routes i) ∧
      t = { s with lnk := t.lnk, err := t.err, kcp := t.kcp, eth := t.eth } ∧ t.lnk.links = s.lnk.links) ∧
  (∀ (k : Fin 8) (req : W32) (m : Byte) (s : State), ∃ t, exec (.notifySubscribe (.session k) req m) s = .next t ∧
    t = { s with kcp := t.kcp, eth := t.eth } ∧ (t.session k.val).subs = m.truncate 4 ∧ t.repliedWith k.val req 0x0040 stOK []) ∧
  (∀ (k : Fin 8) (req n : W32) (s : State), ∃ t, exec (.notifyAck (.session k) req n) s = .next t ∧
    t = { s with kcp := t.kcp, eth := t.eth } ∧ (∀ x, x ∈ t.kcp.pending ↔ x ∈ s.kcp.pending ∧ x.seq ≠ n) ∧
    t.repliedWith k.val req 0x0041 stOK []) ∧
  (∀ s : State, ∃ t, exec .notifyResend s = .next t ∧ t.kcp.pending = s.kcp.pending ∧ t.kcp.notifySeq = s.kcp.notifySeq ∧
    t.err = s.err ∧ t.vats = s.vats ∧ t.ctxs = s.ctxs ∧ (∀ a, t.byteAt a = s.byteAt a))

/-- R436 to R440: sessions. A HELLO_H that R437 allows opens a handshake with the host's key and nonce in a free slot; a bad one is counted and
opens none; with no free slot, or past the sixteenth of a second, no session begins. FINISH_H opens the session where its
signature verifies under the host key that HELLO_H named, the FRU holds that key's hash and the shared point exists, with the keys of R438;
a wrong signature ends the handshake and is counted. A CLOSE record and an idle time-out end the session and its forwards. -/
def Obligations.Sessions : Prop :=
  (∀ (b : List Byte) (k : Nat) (s : State), s.mcServes = true → s.eth.mode = .up → s.kcp.helloSecond = s.time / 1000000000 →
    s.kcp.helloCount < 16 → allSlots.find? (fun j => !(s.session j).isOpen && !(s.session j).handshake) = some k → helloSound b = true →
    ∃ t, exec (.helloH b) s = .next t ∧ (t.session k).handshake = true ∧ (t.session k).isOpen = false ∧
      (t.session k).id = s.kcp.nextSession ∧ (t.session k).hostEph = b.take 133 ∧ (t.session k).hostKey = b.drop 167 ∧
      (∀ j, j ≠ k → t.session j = s.session j) ∧ t.kcp.nextSession = s.kcp.nextSession + 1 ∧
      t = { s with kcp := t.kcp, eth := t.eth, free := s.free + 1 }) ∧
  (∀ (b : List Byte) (k : Nat) (s : State), s.mcServes = true → s.eth.mode = .up → s.kcp.helloSecond = s.time / 1000000000 →
    s.kcp.helloCount < 16 → allSlots.find? (fun j => !(s.session j).isOpen && !(s.session j).handshake) = some k → helloSound b = false →
    ∃ t, exec (.helloH b) s = .next t ∧ t.kcp.sessions = s.kcp.sessions ∧ t.kcp.authFail = s.kcp.authFail + 1 ∧
      (t.recordAt s.err.seqNext).code = 0x0701 ∧ t = { s with kcp := t.kcp, eth := t.eth, err := t.err }) ∧
  (∀ (b : List Byte) (s : State), s.mcServes = true → s.eth.mode = .up → s.kcp.helloSecond = s.time / 1000000000 →
    s.kcp.helloCount < 16 → (∀ k, k < 8 → (s.session k).isOpen = true) → ∃ t, exec (.helloH b) s = .next t ∧
      t.kcp.sessions = s.kcp.sessions ∧ t.eth.tx = s.eth.tx ++ [.kcp (recordHeader 5 0 0 ++ [3])]) ∧
  (∀ (b : List Byte) (s : State), s.kcp.helloSecond = s.time / 1000000000 → 16 ≤ s.kcp.helloCount → exec (.helloH b) s = .next s) ∧
  (∀ (id : W32) (sig z : List Byte) (k : Nat) (s : State), s.slotFor id Session.handshake = some k → s.mcServes = true →
    ecdsaVerify (s.session k).hostKey (leBytes 64 (s.session k).h1.toNat ++ (s.session k).devSig) sig = true →
    digestOf (s.session k).hostKey ∈ s.fru.hostKeys → p521Ecdh (s.session k).devScalar (s.session k).hostEph = some z →
    ∃ t h d, exec (.finishH id sig) s = .next t ∧ (t.session k).isOpen = true ∧ (t.session k).handshake = false ∧
      h = hkdfExpand (hkdfExtract ((s.session k).hostNonce ++ (s.session k).devNonce) z)
        (ascii "kcp h2d" ++ leBytes 64 (s.session k).h1.toNat) 44 ∧
      d = hkdfExpand (hkdfExtract ((s.session k).hostNonce ++ (s.session k).devNonce) z)
        (ascii "kcp d2h" ++ leBytes 64 (s.session k).h1.toNat) 44 ∧
      (t.session k).keyH2d = BitVec.ofNat 256 (beNat (h.take 32)) ∧ (t.session k).ivH2d = BitVec.ofNat 96 (beNat (h.drop 32)) ∧
      (t.session k).keyD2h = BitVec.ofNat 256 (beNat (d.take 32)) ∧ (t.session k).ivD2h = BitVec.ofNat 96 (beNat (d.drop 32)) ∧
      (∀ j, j ≠ k → t.session j = s.session j) ∧ t = { s with kcp := t.kcp }) ∧
  (∀ (id : W32) (sig : List Byte) (k : Nat) (s : State), s.slotFor id Session.handshake = some k → s.mcServes = true →
    ecdsaVerify (s.session k).hostKey (leBytes 64 (s.session k).h1.toNat ++ (s.session k).devSig) sig = false →
    ∃ t, exec (.finishH id sig) s = .next t ∧ t.session k = {} ∧ t.kcp.authFail = s.kcp.authFail + 1 ∧
      (t.recordAt s.err.seqNext).code = 0x0701 ∧ (t.recordAt s.err.seqNext).details = [2]) ∧
  (∀ (id : W32) (r : Byte) (k : Nat) (s : State), s.slotFor id (fun n => n.isOpen || n.handshake) = some k →
    ∃ t, exec (.close id r) s = .next t ∧ t.session k = {} ∧ (∀ f ∈ t.kcp.forwards, f.slot ≠ k) ∧
      (∀ j, j ≠ k → t.session j = s.session j) ∧ t = { s with kcp := t.kcp }) ∧
  (∀ (id : W32) (r : Byte) (s : State), s.slotFor id (fun n => n.isOpen || n.handshake) = none → exec (.close id r) s = .next s) ∧
  (∀ (k : Fin 8) (s : State), (s.session k.val).isOpen = true → s.eth.mode = .up → ∃ t, exec (.sessionIdleTimeout k) s = .next t ∧
    t.session k.val = {} ∧ t.eth.tx = s.eth.tx ++
      [.kcp (recordHeader 5 (s.session k.val).id (s.session k.val).txSeq.toNat ++ [1])] ∧ t = { s with kcp := t.kcp, eth := t.eth }) ∧
  (∀ (k : Fin 8) (s : State), (s.session k.val).isOpen = false → exec (.sessionIdleTimeout k) s = .next s)

/-- R438, R439, R441, R442, R448, R449: records and forwarding. A record whose tag does not verify is counted and does nothing else; one that
carries a sound IDENTITY request under a sequence number not yet accepted answers it and raises the highest number; a request number
whose reply is kept has that reply sent again, which is counted, and nothing runs. A message that is not a sound request is answered
BAD_MESSAGE to the head that forwarded it; an answer from another package ends the request it answers and is kept; a request whose
package does not answer ends with TIMEOUT. -/
def Obligations.RecordsAndForwarding : Prop :=
  (∀ (r : List Byte) (i : Nat) (s : State), s.mcServes = true → s.eth.mode = .up → 48 ≤ r.length → r.take 2 = [4, 1] → s.err.todo = [] →
    s.slotFor (BitVec.ofNat 32 (beNat ((r.drop 4).take 4))) Session.isOpen = some i → r.length ≤ (s.session i).recordMax.toNat →
    gcmOpen (beBytes 32 (s.session i).keyH2d.toNat) (gcmNonce (s.session i).ivH2d (beNat ((r.drop 8).take 8))) (r.take 16) (r.drop 16) = none →
    exec (.dataRecord r) s = .next { s with kcp := { s.kcp with tagFail := s.kcp.tagFail + 1 } }) ∧
  (∀ (r : List Byte) (i seq : Nat) (req : W32) (s : State), s.mcServes = true → s.eth.mode = .up → 48 ≤ r.length → r.take 2 = [4, 1] →
    s.err.todo = [] → s.inRecovery = false → s.slotFor (BitVec.ofNat 32 (beNat ((r.drop 4).take 4))) Session.isOpen = some i →
    r.length ≤ (s.session i).recordMax.toNat → 48 ≤ (s.session i).recordMax.toNat → seq = beNat ((r.drop 8).take 8) →
    gcmOpen (beBytes 32 (s.session i).keyH2d.toNat) (gcmNonce (s.session i).ivH2d seq) (r.take 16) (r.drop 16) =
      some (kcpMessage 0x0001 0 s.fab.pkgId.toNat req 0 []) →
    seq < 2 ^ 48 → (s.session i).rxTop = none → (s.session i).replies = [] → (s.session i).running = [] →
    ∃ t, exec (.dataRecord r) s = .next t ∧ t.repliedWith i req 0x0001 stOK s.identity ∧
      (t.session i).rxTop = some (BitVec.ofNat 64 seq) ∧ t = { s with kcp := t.kcp, eth := t.eth }) ∧
  (∀ (r : List Byte) (i seq : Nat) (m : List Byte) (req : W32) (p : KcpReply) (s : State), s.mcServes = true → s.eth.mode = .up →
    48 ≤ r.length → r.take 2 = [4, 1] → s.err.todo = [] → s.slotFor (BitVec.ofNat 32 (beNat ((r.drop 4).take 4))) Session.isOpen = some i →
    r.length ≤ (s.session i).recordMax.toNat → seq = beNat ((r.drop 8).take 8) →
    gcmOpen (beBytes 32 (s.session i).keyH2d.toNat) (gcmNonce (s.session i).ivH2d seq) (r.take 16) (r.drop 16) = some m →
    m.length = 16 → BitVec.ofNat 32 (beNat ((m.drop 4).take 4)) = req → seq < 2 ^ 48 → (s.session i).rxTop = none →
    (s.session i).replies = [p] → p.req = req → ∃ t, exec (.dataRecord r) s = .next t ∧ t.kcp.dupCnt = s.kcp.dupCnt + 1 ∧
      (t.session i).replies = [p] ∧ t = { s with kcp := t.kcp, eth := t.eth }) ∧
  (∀ (pkg : PkgId) (slot : Fin 8) (m : List Byte) (s : State), s.mcServes = false → s.err.todo = [] →
    exec (.kcpForwardArrive pkg slot m) s = .next s) ∧
  (∀ (pkg : PkgId) (slot : Fin 8) (m : List Byte) (q : KcpMsg) (s : State), s.mcServes = true → s.err.todo = [] →
    parseMessage m = some q → q.sound 9120 = false → (Tbl.look {} s.kcp.remote (8 * pkg.val + slot.val)).replies = [] →
    (Tbl.look {} s.kcp.remote (8 * pkg.val + slot.val)).running = [] → ∃ t r, exec (.kcpForwardArrive pkg slot m) s = .next t ∧
      (Tbl.look {} t.kcp.remote (8 * pkg.val + slot.val)).replies = [r] ∧ r.status = 1 ∧ r.req = q.req ∧
      t.kcp.sessions = s.kcp.sessions ∧ t.ctxs = s.ctxs ∧ t.vats = s.vats ∧ t.err = s.err ∧ (∀ a, t.byteAt a = s.byteAt a)) ∧
  (∀ (pkg : PkgId) (slot : Fin 8) (m : List Byte) (q : KcpMsg) (s : State), s.mc.mgmtReset = false → parseMessage m = some q →
    q.flags = 1 → { slot := slot.val, req := q.req, op := q.op, target := pkg.val } ∈ s.kcp.forwards →
    ∃ t, exec (.forwardReply pkg slot m) s = .next t ∧ t.repliedWith slot.val q.req q.op q.status.toNat q.payload ∧
      (∀ f ∈ t.kcp.forwards, ¬(f.slot = slot.val ∧ f.req = q.req)) ∧
      t = { s with kcp := t.kcp, eth := t.eth, fab := { s.fab with mail := t.fab.mail } }) ∧
  (∀ (k : Fin 8) (req : W32) (s : State), (∀ f ∈ s.kcp.forwards, ¬(f.slot = k.val ∧ f.req = req)) →
    exec (.forwardTimeout k req) s = .next s) ∧
  (∀ (k : Fin 8) (f : Forward) (s : State), s.kcp.forwards = [f] → f.slot = k.val → ∃ t, exec (.forwardTimeout k f.req) s = .next t ∧
    t.repliedWith k.val f.req f.op stTimeout [] ∧ t.kcp.forwards = [] ∧ t = { s with kcp := t.kcp, eth := t.eth })

/-- R68, R69: the sequencer's loads and stores where it may issue. On sequencer memory a load writes its destination with the little-endian
value, extended as its form says (x0 stays 0), and a store writes its bytes and no other; both retire 4 bytes on and
change no other plane, no vat and no memory. On a context address that translates and has a port, a load leaves the one request as an
outstanding operation and marks its destination, a store leaves its request; a misaligned access traps with cause 4 or 6. -/
def Obligations.SequencerLoadsAndStores : Prop :=
  (∀ (v : VatId) (rd rs1 : RegNo) (imm : BitVec 12) (z : BitVec 2) (u : Bool) (p : Nat) (a : W64) (s : State), p = s.activePlane v.val →
    a = s.x p rs1 + imm.signExtend 64 → s.seqReady v.val = true → s.regsFree p [rd, rs1] = true → s.err.todo = [] →
    a.toNat % 2 ^ z.toNat = 0 → inSeqMem a = true → ∃ t, exec (.seqLoad v rd rs1 imm z u) s = .next t ∧ t = { s with planes := t.planes } ∧
      (t.plane p).pc = (s.plane p).pc + 4 ∧ (t.plane p).minstret = (s.plane p).minstret + 1 ∧
      t.x p rd = (if rd = 0 then 0 else extendTo64 (2 ^ z.toNat) u ((s.plane p).memRead a.toNat (2 ^ z.toNat))) ∧
      (∀ r, r ≠ rd → t.x p r = s.x p r) ∧ (t.plane p).seqMem = (s.plane p).seqMem ∧ (∀ q, q ≠ p → t.plane q = s.plane q)) ∧
  (∀ (v : VatId) (rs1 rs2 : RegNo) (imm : BitVec 12) (z : BitVec 2) (p : Nat) (a : W64) (s : State), p = s.activePlane v.val →
    a = s.x p rs1 + imm.signExtend 64 → s.seqReady v.val = true → s.regsFree p [rs1, rs2] = true → s.err.todo = [] →
    a.toNat % 2 ^ z.toNat = 0 → inSeqMem a = true → ∃ t, exec (.seqStore v rs1 rs2 imm z) s = .next t ∧ t = { s with planes := t.planes } ∧
      (t.plane p).pc = (s.plane p).pc + 4 ∧ (t.plane p).memRead a.toNat (2 ^ z.toNat) = (s.x p rs2).toNat % 2 ^ (8 * 2 ^ z.toNat) ∧
      (∀ i, ¬(a.toNat % 2 ^ 18 ≤ i ∧ i < a.toNat % 2 ^ 18 + 2 ^ z.toNat) →
        Tbl.look 0 (t.plane p).seqMem i = Tbl.look 0 (s.plane p).seqMem i) ∧
      (∀ r, t.x p r = s.x p r) ∧ (∀ q, q ≠ p → t.plane q = s.plane q)) ∧
  (∀ (v : VatId) (rd rs1 : RegNo) (imm : BitVec 12) (z : BitVec 2) (u : Bool) (p c fa q : Nat) (a : W64) (s : State),
    p = s.activePlane v.val → a = s.x p rs1 + imm.signExtend 64 → s.seqReady v.val = true → s.regsFree p [rd, rs1] = true → s.err.todo = [] →
    a.toNat % 2 ^ z.toNat = 0 → inSeqMem a = false → s.seqLoads v.val (p % 2 == 1) < 16 → (s.plane p).ctx = some c →
    s.translate c a.toNat rightR = some fa → s.routeOf (vatPort v.val) (fa / 64 * 64) = .ok q →
    ∃ t o, exec (.seqLoad v rd rs1 imm z u) s = .next t ∧ t.fab.ops = s.fab.ops ++ [o] ∧ o.ctx = c ∧ o.port = vatPort v.val ∧
      o.addr.toNat = fa / 64 * 64 % 2 ^ 64 ∧ o.issuer = .seqLoad v.val (p % 2 == 1) rd (fa % 64) (2 ^ z.toNat) u ∧ o.expect = 1 ∧
      (t.plane p).pc = (s.plane p).pc + 4 ∧ (rd ≠ 0 → (t.plane p).busy.getLsbD rd.toNat = true) ∧ (∀ r, t.x p r = s.x p r) ∧
      (∀ b, t.byteAt b = s.byteAt b)) ∧
  (∀ (v : VatId) (rs1 rs2 : RegNo) (imm : BitVec 12) (z : BitVec 2) (p c fa q : Nat) (a : W64) (s : State),
    p = s.activePlane v.val → a = s.x p rs1 + imm.signExtend 64 → s.seqReady v.val = true → s.regsFree p [rs1, rs2] = true → s.err.todo = [] →
    a.toNat % 2 ^ z.toNat = 0 → inSeqMem a = false → s.seqStores v.val (p % 2 == 1) < 64 → (s.plane p).ctx = some c →
    s.translate c a.toNat rightW = some fa → s.routeOf (vatPort v.val) (fa / 64 * 64) = .ok q →
    ∃ t o, exec (.seqStore v rs1 rs2 imm z) s = .next t ∧ t.fab.ops = s.fab.ops ++ [o] ∧ o.ctx = c ∧
      o.addr.toNat = fa / 64 * 64 % 2 ^ 64 ∧ o.issuer = .seqStore v.val (p % 2 == 1) ∧ (t.plane p).pc = (s.plane p).pc + 4 ∧
      (∀ r, t.x p r = s.x p r) ∧ (∀ b, t.byteAt b = s.byteAt b)) ∧
  (∀ (i : Instr) (cause : Nat) (v : VatId) (rd rs1 : RegNo) (imm : BitVec 12) (z : BitVec 2) (u : Bool) (p c : Nat) (a : W64) (s : State),
    p = s.activePlane v.val → a = s.x p rs1 + imm.signExtend 64 → s.seqReady v.val = true → s.regsFree p [rd, rs1] = true →
    s.err.handlings = [] → a.toNat % 2 ^ z.toNat ≠ 0 → (s.plane p).ctx = some c →
    ((i = .seqLoad v rd rs1 imm z u ∧ cause = 4) ∨ (i = .seqStore v rs1 rd imm z ∧ cause = 6)) →
    ∃ w : State, exec i s = .next w.finish ∧ (w.vat v.val).causeCode.toNat = cause ∧ (w.vat v.val).tval = a ∧
      (w.vat v.val).causeCtx.toNat = c % 64 ∧ (w.ctx c).state = .faulted ∧ w.planes = s.planes ∧
      (w.recordAt s.err.seqNext).code = 0x0801 ∧ (w.recordAt s.err.seqNext).details = [BitVec.ofNat 64 cause, (s.plane p).pc, a] ∧
      (∀ b, w.byteAt b = s.byteAt b))

/-- R70, R202, R543: the atomics on sequencer memory. LR reads and reserves; SC stores and returns 0 where the reservation covers it, and
returns 1 and stores nothing otherwise; every other AMO and every vendor atomic writes its arithmetic of the old value and the operand
and returns the old value sign-extended. On a context address LR, SC and the AMOs that are no fabric atomic trap with
cause 7. -/
def Obligations.SequencerAtomics : Prop :=
  (∀ (v : VatId) (dbl : Bool) (rd rs1 rs2 : RegNo) (p n : Nat) (s : State), p = s.activePlane v.val → n = (if dbl then 8 else 4) →
    s.seqReady v.val = true → s.regsFree p [rd, rs1, rs2] = true → s.err.todo = [] → (s.x p rs1).toNat % n = 0 →
    inSeqMem (s.x p rs1) = true → ∃ t, exec (.seqAmo v .lr dbl rd rs1 rs2) s = .next t ∧ t = { s with planes := t.planes } ∧
      (t.plane p).resv = some (s.x p rs1, n) ∧ (t.plane p).pc = (s.plane p).pc + 4 ∧ (t.plane p).seqMem = (s.plane p).seqMem ∧
      (rd ≠ 0 → t.x p rd = extendTo64 n false ((s.plane p).memRead (s.x p rs1).toNat n))) ∧
  (∀ (v : VatId) (dbl : Bool) (rd rs1 rs2 : RegNo) (p n : Nat) (s : State), p = s.activePlane v.val → n = (if dbl then 8 else 4) →
    s.seqReady v.val = true → s.regsFree p [rd, rs1, rs2] = true → s.err.todo = [] → (s.x p rs1).toNat % n = 0 →
    inSeqMem (s.x p rs1) = true → ∃ t, exec (.seqAmo v .sc dbl rd rs1 rs2) s = .next t ∧ t = { s with planes := t.planes } ∧
      (t.plane p).resv = none ∧ (t.plane p).pc = (s.plane p).pc + 4 ∧
      ((s.plane p).resv = some (s.x p rs1, n) →
        (t.plane p).memRead (s.x p rs1).toNat n = (s.x p rs2).toNat % 2 ^ (8 * n) ∧ (rd ≠ 0 → t.x p rd = 0)) ∧
      ((s.plane p).resv ≠ some (s.x p rs1, n) → (t.plane p).seqMem = (s.plane p).seqMem ∧ (rd ≠ 0 → t.x p rd = 1))) ∧
  (∀ (v : VatId) (op : AmoOp) (dbl : Bool) (rd rs1 rs2 : RegNo) (p n : Nat) (s : State), p = s.activePlane v.val →
    n = (if dbl then 8 else 4) → op ≠ .lr → op ≠ .sc → s.seqReady v.val = true → s.regsFree p [rd, rs1, rs2] = true → s.err.todo = [] →
    (s.x p rs1).toNat % n = 0 → inSeqMem (s.x p rs1) = true → ∃ t, exec (.seqAmo v op dbl rd rs1 rs2) s = .next t ∧
      t = { s with planes := t.planes } ∧ (t.plane p).pc = (s.plane p).pc + 4 ∧
      (t.plane p).memRead (s.x p rs1).toNat n = amoNew op n ((s.plane p).memRead (s.x p rs1).toNat n) (s.x p rs2).toNat ∧
      (rd ≠ 0 → t.x p rd = extendTo64 n false ((s.plane p).memRead (s.x p rs1).toNat n))) ∧
  (∀ (i : Instr) (k n : Nat) (v : VatId) (rd rs1 rs2 : RegNo) (p old cmp : Nat) (s : State), p = s.activePlane v.val →
    s.seqReady v.val = true → s.regsFree p [rd, rs1, rs2] = true → s.err.todo = [] → (s.x p rs1).toNat % n = 0 →
    inSeqMem (s.x p rs1) = true → old = (s.plane p).memRead (s.x p rs1).toNat n →
    ((i = .amoaddF32 v rd rs1 rs2 ∧ k = 2 ∧ n = 4 ∧ cmp = 0) ∨ (i = .amoaddBf2 v rd rs1 rs2 ∧ k = 3 ∧ n = 4 ∧ cmp = 0) ∨
      (i = .amominF32 v rd rs1 rs2 ∧ k = 9 ∧ n = 4 ∧ cmp = 0) ∨ (i = .amomaxF32 v rd rs1 rs2 ∧ k = 10 ∧ n = 4 ∧ cmp = 0) ∨
      (i = .amocasD v rd rs1 rs2 ∧ k = 6 ∧ n = 8 ∧ cmp = (s.x p rd).toNat)) →
    ∃ t, exec i s = .next t ∧ t = { s with planes := t.planes } ∧ (t.plane p).pc = (s.plane p).pc + 4 ∧
      (t.plane p).memRead (s.x p rs1).toNat n = atomNew k old ((s.x p rs2).toNat % 2 ^ (8 * n)) cmp % 2 ^ (8 * n) ∧
      (rd ≠ 0 → t.x p rd = extendTo64 n false old)) ∧
  (∀ (v : VatId) (op : AmoOp) (dbl : Bool) (rd rs1 rs2 : RegNo) (p c : Nat) (s : State), p = s.activePlane v.val →
    s.seqReady v.val = true → s.regsFree p [rd, rs1, rs2] = true → s.err.handlings = [] → (s.x p rs1).toNat % 8 = 0 →
    inSeqMem (s.x p rs1) = false → (s.plane p).ctx = some c → op ∈ [AmoOp.lr, .sc, .xor, .and, .or, .minu, .maxu] →
    ∃ w : State, exec (.seqAmo v op dbl rd rs1 rs2) s = .next w.finish ∧ (w.vat v.val).causeCode = 7 ∧ (w.vat v.val).tval = s.x p rs1 ∧
      (w.ctx c).state = .faulted ∧ w.planes = s.planes ∧ w.fab.ops = s.fab.ops)

/-- R61, R71, R72, R84: tile groups. TGRP defines a rectangle of the array under an idle handle and returns 0, returns −1 for a rectangle that
is empty or leaves the array and −2 for a running handle, the definition kept. TRUN waits with its operands and, once every tile of its
rectangle is idle, retires and sends each its start command in the order of the array's distance; a count of 0 starts nothing. TWAIT
returns once the handle's group is idle. TSTAT reads a tile's status. TRUN and TWAIT on a handle that no TGRP defined trap with 29. -/
def Obligations.TileGroups : Prop :=
  (∀ (v : VatId) (rd rs1 rs2 : RegNo) (p h : Nat) (g : Group) (s : State), p = s.activePlane v.val → s.seqReady v.val = true →
    s.regsFree p [rd, rs1, rs2] = true → s.err.todo = [] → h = (s.x p rs2).toNat % 16 →
    g = { row := bitsAt (s.x p rs1).toNat 0 6, col := bitsAt (s.x p rs1).toNat 8 6, rows := bitsAt (s.x p rs1).toNat 16 6,
          cols := bitsAt (s.x p rs1).toNat 24 6 } →
    ∃ t, exec (.tgrp v rd rs1 rs2) s = .next t ∧ t = { s with planes := t.planes } ∧ (t.plane p).pc = (s.plane p).pc + 4 ∧
      (1 ≤ g.rows → 1 ≤ g.cols → g.row + g.rows ≤ 32 → g.col + g.cols ≤ 32 → s.groupIdle v.val h = true →
        t.group p h = g ∧ (rd ≠ 0 → t.x p rd = 0)) ∧
      (g.rows = 0 ∨ g.cols = 0 ∨ 32 < g.row + g.rows ∨ 32 < g.col + g.cols → (t.plane p).groups = (s.plane p).groups ∧
        (rd ≠ 0 → t.x p rd = -1)) ∧
      (1 ≤ g.rows → 1 ≤ g.cols → g.row + g.rows ≤ 32 → g.col + g.cols ≤ 32 → s.groupIdle v.val h = false →
        (t.plane p).groups = (s.plane p).groups ∧ (rd ≠ 0 → t.x p rd = -2)) ∧
      (∀ k, k ≠ h → t.group p k = s.group p k)) ∧
  (∀ (v : VatId) (rs1 rs2 : RegNo) (p : Nat) (s : State), p = s.activePlane v.val → s.seqReady v.val = true →
    s.regsFree p [rs1, rs2] = true → s.err.todo = [] → (s.group p ((s.x p rs1).toNat % 16)).defined = true →
    exec (.trun v rs1 rs2) s = .next (s.block p
      (.trun ((s.x p rs1).toNat % 16) (bitsAt (s.x p rs1).toNat 8 8) ((s.x p rs2).truncate 32)))) ∧
  (∀ (v : VatId) (p h entry : Nat) (count : W32) (s : State), p = s.activePlane v.val → (s.plane p).blocked = some (.trun h entry count) →
    s.tilesIdle v.val (s.group p h).tiles = true → count ≠ 0 → ∃ t base, exec (.trunRetire v) s = .next t ∧ s.tileClock v.val ≤ base ∧
      (t.plane p).blocked = none ∧ (t.plane p).pc = (s.plane p).pc + 4 ∧
      (∀ x ∈ (s.group p h).tiles, (t.tile v.val x).startAt = some (h, entry, count.toNat, base + startDelay (s.plane p).gals x)) ∧
      (∀ x, x ∉ (s.group p h).tiles → t.tile v.val x = s.tile v.val x) ∧
      t = { s with planes := t.planes, tiles := t.tiles, vats := t.vats }) ∧
  (∀ (v : VatId) (p h entry : Nat) (s : State), p = s.activePlane v.val → (s.plane p).blocked = some (.trun h entry 0) →
    s.tilesIdle v.val (s.group p h).tiles = true → ∃ t, exec (.trunRetire v) s = .next t ∧ t = { s with planes := t.planes } ∧
      (t.plane p).blocked = none ∧ (t.plane p).pc = (s.plane p).pc + 4) ∧
  (∀ (v : VatId) (p h entry : Nat) (count : W32) (s : State), p = s.activePlane v.val → (s.plane p).blocked = some (.trun h entry count) →
    s.tilesIdle v.val (s.group p h).tiles = false → exec (.trunRetire v) s = .next s) ∧
  (∀ (v : VatId) (rd rs1 : RegNo) (p h : Nat) (s : State), p = s.activePlane v.val → s.seqReady v.val = true →
    s.regsFree p [rd, rs1] = true → s.err.todo = [] → h = (s.x p rs1).toNat % 16 → (s.group p h).defined = true →
    ∃ t, exec (.twait v rd rs1) s = .next t ∧ t = { s with planes := t.planes } ∧
      (s.groupIdle v.val h = true → (t.plane p).blocked = none ∧ (t.plane p).pc = (s.plane p).pc + 4 ∧
        (rd ≠ 0 → t.x p rd = if (s.plane p).newFlags.getLsbD h then 1 else 0)) ∧
      (s.groupIdle v.val h = false → (t.plane p).blocked = some (.twait h rd) ∧ (t.plane p).pc = (s.plane p).pc)) ∧
  (∀ (v : VatId) (rd : RegNo) (p h : Nat) (s : State), p = s.activePlane v.val → (s.plane p).blocked = some (.twait h rd) →
    s.groupIdle v.val h = true → ∃ t, exec (.twaitComplete v) s = .next t ∧ t = { s with planes := t.planes } ∧
      (t.plane p).blocked = none ∧ (t.plane p).pc = (s.plane p).pc + 4 ∧
      (rd ≠ 0 → t.x p rd = if (s.plane p).newFlags.getLsbD h then 1 else 0)) ∧
  (∀ (v : VatId) (rd rs1 : RegNo) (p : Nat) (s : State), p = s.activePlane v.val → s.seqReady v.val = true →
    s.regsFree p [rd, rs1] = true → s.err.todo = [] → ∃ t, exec (.tstat v rd rs1) s = .next t ∧ t = { s with planes := t.planes } ∧
      (t.plane p).pc = (s.plane p).pc + 4 ∧ (rd ≠ 0 → t.x p rd = BitVec.ofNat 64 (s.tile v.val ((s.x p rs1).toNat % 1024)).status)) ∧
  (∀ (i : Instr) (v : VatId) (rd rs1 rs2 : RegNo) (p c : Nat) (s : State), p = s.activePlane v.val → s.seqReady v.val = true →
    s.regsFree p [rd, rs1, rs2] = true → s.err.handlings = [] → (s.plane p).ctx = some c →
    (s.group p ((s.x p rs1).toNat % 16)).defined = false → (i = .trun v rs1 rs2 ∨ i = .twait v rd rs1) →
    ∃ w : State, exec i s = .next w.finish ∧ (w.vat v.val).causeCode = 29 ∧ (w.ctx c).state = .faulted ∧ w.planes = s.planes)

/-- R71, R76 to R78, R72: ladle control. LDLGO starts an idle ladle at its descriptor, traps with 24 on one that runs and with 26 past
the descriptor table. LDLTAKE returns what its ladle finds, or waits for it; LDLRES with the outcome that was not
predicted squashes the speculative iterations and goes to the other target; LDLSTOP leaves the ladle idle with only its store iterations
that have cells to complete. A ladle issues its next load iteration only while its vat runs. -/
def Obligations.LadleControl : Prop :=
  (∀ (v : VatId) (rs1 rs2 : RegNo) (p k d : Nat) (s : State), p = s.activePlane v.val → s.seqReady v.val = true →
    s.regsFree p [rs1, rs2] = true → s.err.todo = [] → k = (s.x p rs1).toNat % 8 → d = (s.x p rs2).toNat % 512 →
    ((s.plane p).ladle k).idle (s.descOf p) = true → d < (s.plane p).descCount → ∃ t, exec (.ldlgo v rs1 rs2) s = .next t ∧
      t = { s with planes := t.planes } ∧ ((t.plane p).ladle k).running = true ∧ ((t.plane p).ladle k).next = some d ∧
      ((t.plane p).ladle k).issued = 0 ∧ ((t.plane p).ladle k).taken = 0 ∧ (t.plane p).pc = (s.plane p).pc + 4 ∧
      (∀ j, j ≠ k → (t.plane p).ladle j = (s.plane p).ladle j) ∧ (∀ r, t.x p r = s.x p r)) ∧
  (∀ (v : VatId) (rs1 rs2 : RegNo) (p k c : Nat) (s : State), p = s.activePlane v.val → s.seqReady v.val = true →
    s.regsFree p [rs1, rs2] = true → s.err.handlings = [] → (s.plane p).ctx = some c → k = (s.x p rs1).toNat % 8 →
    (((s.plane p).ladle k).idle (s.descOf p) = false ∨ (s.plane p).descCount ≤ (s.x p rs2).toNat % 512) →
    ∃ w : State, exec (.ldlgo v rs1 rs2) s = .next w.finish ∧ (w.ctx c).state = .faulted ∧ w.planes = s.planes ∧
      (w.vat v.val).causeCode = if ((s.plane p).ladle k).idle (s.descOf p) = false then 24 else 26) ∧
  (∀ (v : VatId) (rd rs1 : RegNo) (p k : Nat) (x : W64) (s : State), p = s.activePlane v.val → s.seqReady v.val = true →
    s.regsFree p [rd, rs1] = true → s.err.todo = [] → k = (s.x p rs1).toNat % 8 →
    ((s.plane p).ladle k).take (s.descOf p) = .returns x → ∃ t, exec (.ldltake v rd rs1) s = .next t ∧ t = { s with planes := t.planes } ∧
      (t.plane p).pc = (s.plane p).pc + 4 ∧ (rd ≠ 0 → t.x p rd = x) ∧
      (x = -1 → ((t.plane p).ladle k) = (s.plane p).ladle k) ∧
      (x = 0 → ((t.plane p).ladle k).taken = ((s.plane p).ladle k).taken + 1)) ∧
  (∀ (v : VatId) (rd rs1 : RegNo) (p k : Nat) (s : State), p = s.activePlane v.val → s.seqReady v.val = true →
    s.regsFree p [rd, rs1] = true → s.err.todo = [] → k = (s.x p rs1).toNat % 8 →
    ((s.plane p).ladle k).take (s.descOf p) = .waits → exec (.ldltake v rd rs1) s = .next (s.block p (.ldltake k rd false))) ∧
  (∀ (v : VatId) (rd : RegNo) (p k : Nat) (x : W64) (s : State), p = s.activePlane v.val → s.err.todo = [] →
    (s.plane p).blocked = some (.ldltake k rd false) → ((s.plane p).ladle k).take (s.descOf p) = .returns x →
    ∃ t, exec (.ldltakeComplete v) s = .next t ∧ t = { s with planes := t.planes } ∧ (t.plane p).blocked = none ∧
      (t.plane p).pc = (s.plane p).pc + 4 ∧ (rd ≠ 0 → t.x p rd = x)) ∧
  (∀ (v : VatId) (rs1 rs2 : RegNo) (p k d last : Nat) (o : Bool) (s : State), p = s.activePlane v.val → s.seqReady v.val = true →
    s.regsFree p [rs1, rs2] = true → s.err.todo = [] → k = (s.x p rs1).toNat % 8 → o = (s.x p rs2).getLsbD 0 →
    ((s.plane p).ladle k).branch = some (d, last) → o ≠ dPredict (s.descOf p d) → ∃ t, exec (.ldlres v rs1 rs2) s = .next t ∧
      ((t.plane p).ladle k).branch = none ∧ ((t.plane p).ladle k).issued = last + 1 ∧
      ((t.plane p).ladle k).next = dTarget (s.descOf p d) o ∧ (∀ i ∈ ((t.plane p).ladle k).iters, i.store = true ∨ i.n ≤ last) ∧
      (t.plane p).pc = (s.plane p).pc + 4 ∧ t.fab.mem = s.fab.mem) ∧
  (∀ (v : VatId) (rs1 rs2 : RegNo) (p k d last : Nat) (o : Bool) (s : State), p = s.activePlane v.val → s.seqReady v.val = true →
    s.regsFree p [rs1, rs2] = true → s.err.todo = [] → k = (s.x p rs1).toNat % 8 → o = (s.x p rs2).getLsbD 0 →
    ((s.plane p).ladle k).branch = some (d, last) → o = dPredict (s.descOf p d) → ∃ t, exec (.ldlres v rs1 rs2) s = .next t ∧
      ((t.plane p).ladle k).iters = ((s.plane p).ladle k).iters ∧ ((t.plane p).ladle k).issued = ((s.plane p).ladle k).issued ∧
      (t.plane p).pc = (s.plane p).pc + 4 ∧ t = { s with planes := t.planes }) ∧
  (∀ (v : VatId) (rs1 : RegNo) (p k : Nat) (s : State), p = s.activePlane v.val → s.seqReady v.val = true → s.regsFree p [rs1] = true →
    s.err.todo = [] → k = (s.x p rs1).toNat % 8 → ∃ t, exec (.ldlstop v rs1) s = .next t ∧ ((t.plane p).ladle k).running = false ∧
      ((t.plane p).ladle k).next = none ∧ ((t.plane p).ladle k).branch = none ∧
      (∀ i ∈ ((t.plane p).ladle k).iters, i.store = true ∧ i.cellsLeft ≠ 0) ∧ (t.plane p).pc = (s.plane p).pc + 4 ∧
      (∀ a, t.byteAt a = s.byteAt a)) ∧
  (∀ (v : VatId) (k : Fin 8) (s : State), (s.vat v.val).run ≠ .run → exec (.ladleIssue v k) s = .next s) ∧
  (∀ (v : VatId) (k : Fin 8) (p d : Nat) (s : State), p = s.activePlane v.val → (s.vat v.val).run = .run → (s.plane p).issuing = true →
    ((s.plane p).ladle k.val).running = true → ((s.plane p).ladle k.val).partial' (s.descOf p) = none → s.err.todo = [] →
    ((s.plane p).ladle k.val).next = some d → ((s.plane p).ladle k.val).mayStart (s.descOf p d) = true →
    ∃ t, exec (.ladleIssue v k) s = .next t ∧ ((t.plane p).ladle k.val).issued = ((s.plane p).ladle k.val).issued + 1 ∧
      ((t.plane p).ladle k.val).taken = ((s.plane p).ladle k.val).taken ∧ t.ctxs = s.ctxs ∧ (∀ a, t.byteAt a = s.byteAt a))

/-- R65, R70, R72, R79, R460, R542: fences, CSRs and the ends of a run. FFENCE, and FENCE as FFENCE of mask 0x100, returns once nothing of its
units is outstanding, with 1 exactly if a completion of them was delayed, and otherwise waits. A read of a listed CSR returns its value;
a write of mcycle or minstret discards what is written; a write of any other CSR and an access to one not listed trap with cause 2. ECALL
with a0 = 0 retires and ends the run, with any other a0 traps with cause 11; EBREAK traps with cause 3. BOUNDARY waits for the tiles. -/
def Obligations.FencesCsrsAndCalls : Prop :=
  (∀ (i : Instr) (v : VatId) (rd rs1 : RegNo) (mask : BitVec 9) (p c : Nat) (s : State), p = s.activePlane v.val → s.seqReady v.val = true →
    s.regsFree p [rd, rs1] = true → s.err.todo = [] → (s.plane p).ctx = some c →
    ((i = .ffence v rd rs1 ∧ mask = (s.x p rs1).truncate 9) ∨ (i = .fence v ∧ mask = 0x100 ∧ rd = 0)) →
    s.fab.ops.any (fenced v.val (p % 2 == 1) mask) = false → s.flexOpen c = false →
    (∀ k, k < 8 → mask.getLsbD k = true → ∀ x ∈ ((s.plane p).ladle k).iters, x.store = true → x.cellsLeft = 0) →
    ∃ t, exec i s = .next t ∧ t = { s with planes := t.planes } ∧ (t.plane p).blocked = none ∧ (t.plane p).pc = (s.plane p).pc + 4 ∧
      (t.plane p).delayed = (s.plane p).delayed &&& ~~~mask ∧
      (rd ≠ 0 → t.x p rd = if (s.plane p).delayed &&& mask = 0 then 0 else 1)) ∧
  (∀ (i : Instr) (v : VatId) (rd rs1 : RegNo) (mask : BitVec 9) (p : Nat) (s : State), p = s.activePlane v.val → s.seqReady v.val = true →
    s.regsFree p [rd, rs1] = true → s.err.todo = [] →
    ((i = .ffence v rd rs1 ∧ mask = (s.x p rs1).truncate 9) ∨ (i = .fence v ∧ mask = 0x100 ∧ rd = 0)) →
    s.fab.ops.any (fenced v.val (p % 2 == 1) mask) = true → exec i s = .next (s.block p (.ffence mask rd))) ∧
  (∀ (v : VatId) (rd : RegNo) (p : Nat) (s : State), p = s.activePlane v.val → (s.plane p).blocked = some (.ffence 0 rd) →
    ∃ t, exec (.ffenceComplete v) s = .next t ∧ t = { s with planes := t.planes } ∧ (t.plane p).blocked = none ∧
      (t.plane p).pc = (s.plane p).pc + 4 ∧ (rd ≠ 0 → t.x p rd = 0)) ∧
  (∀ (v : VatId) (rd : RegNo) (mask : BitVec 9) (p : Nat) (s : State), p = s.activePlane v.val →
    (s.plane p).blocked = some (.ffence mask rd) → s.fab.ops.any (fenced v.val (p % 2 == 1) mask) = true →
    exec (.ffenceComplete v) s = .next s) ∧
  (∀ (v : VatId) (op : CsrOp) (f : Bool) (csr : BitVec 12) (rd rs1 : RegNo) (p : Nat) (x : W64) (s : State), p = s.activePlane v.val →
    s.seqReady v.val = true → s.regsFree p [rd, rs1] = true → s.err.todo = [] →
    ((csr = 0xCC0 ∧ x = BitVec.ofNat 64 ((s.plane p).ctx.getD 0)) ∨ (csr = 0xCC1 ∧ x = BitVec.ofNat 64 v.val) ∨
      (csr = 0xCC3 ∧ x = (s.plane p).vbnd.zeroExtend 64) ∨ (csr ∈ [0xB00, 0xC00] ∧ x = (s.vat v.val).cycles) ∨
      (csr ∈ [0xB02, 0xC02] ∧ x = (s.plane p).minstret) ∨ (csr = 0xC01 ∧ x = s.clk.now) ∨ (csr ∈ [0xF11, 0xF12, 0xF13] ∧ x = 0) ∨
      (csr = 0xF14 ∧ x = BitVec.ofNat 64 v.val) ∨ (csr = 0x301 ∧ x = 0x8000000000001105)) →
    ((op ≠ .write ∧ rs1 = 0) ∨ csr ∈ [0xB00, 0xB02]) →
    ∃ t, exec (.csrAccess v op f csr rd rs1) s = .next t ∧ t = { s with planes := t.planes } ∧ (t.plane p).pc = (s.plane p).pc + 4 ∧
      (t.plane p).minstret = (s.plane p).minstret + 1 ∧ (rd ≠ 0 → t.x p rd = x)) ∧
  (∀ (v : VatId) (op : CsrOp) (f : Bool) (csr : BitVec 12) (rd rs1 : RegNo) (p c : Nat) (s : State), p = s.activePlane v.val →
    s.seqReady v.val = true → s.regsFree p [rd, rs1] = true → s.err.handlings = [] → (s.plane p).ctx = some c →
    ((csr ∈ [0xCC0, 0xCC1, 0xCC2, 0xCC3, 0xC00, 0xC01, 0xC02, 0x301, 0xF11, 0xF12, 0xF13, 0xF14] ∧ (op = .write ∨ rs1 ≠ 0)) ∨
      csr ∈ [0x300, 0x304, 0x305, 0x340, 0x341, 0x342]) →
    ∃ w : State, exec (.csrAccess v op f csr rd rs1) s = .next w.finish ∧ (w.vat v.val).causeCode = 2 ∧ (w.ctx c).state = .faulted ∧
      w.planes = s.planes) ∧
  (∀ (v : VatId) (p c : Nat) (s : State), p = s.activePlane v.val → s.seqReady v.val = true → s.regsFree p [10] = true → s.err.todo = [] →
    (s.plane p).ctx = some c → s.x p 10 = 0 → ∃ t, exec (.ecall v) s = .next t ∧ t = { s with planes := t.planes, ctxs := t.ctxs } ∧
      (t.plane p).issuing = false ∧ (t.plane p).pc = (s.plane p).pc + 4 ∧ t.ctx c = { s.ctx c with ending := true } ∧
      (∀ d, d ≠ c → t.ctx d = s.ctx d)) ∧
  (∀ (v : VatId) (p c : Nat) (s : State), p = s.activePlane v.val → s.seqReady v.val = true → s.regsFree p [10] = true →
    s.err.handlings = [] → (s.plane p).ctx = some c → s.x p 10 ≠ 0 → ∃ w : State, exec (.ecall v) s = .next w.finish ∧
      (w.vat v.val).causeCode = 11 ∧ (w.vat v.val).tval = s.x p 10 ∧ (w.ctx c).state = .faulted ∧ w.planes = s.planes) ∧
  (∀ (v : VatId) (p c : Nat) (s : State), p = s.activePlane v.val → s.seqReady v.val = true → s.err.handlings = [] →
    (s.plane p).ctx = some c → ∃ w : State, exec (.ebreak v) s = .next w.finish ∧ (w.vat v.val).causeCode = 3 ∧
      (w.vat v.val).tval = (s.plane p).pc ∧ (w.ctx c).state = .faulted ∧ w.planes = s.planes ∧
      (w.recordAt s.err.seqNext).code = 0x0801) ∧
  (∀ (v : VatId) (id : BitVec 12) (p : Nat) (s : State), p = s.activePlane v.val → s.seqReady v.val = true → s.err.todo = [] →
    exec (.boundary v id) s = .next (s.block p (.boundary id)))

/-- R68, R72, R543: the base instructions, fetched from sequencer memory at the pc. Arithmetic writes its destination and retires; LUI, AUIPC,
jumps and branches set the pc as RISC-V has them; DIVU by 0 gives all ones; the compressed C.LI and C.MV are their expansions; a
vendor word runs its command. A fetch outside sequencer memory traps with cause 1, an unlisted encoding with cause 2. A sequencer that may not
issue does nothing. That RV64IMAC is the base ISA's is from outside the spec (log 30). -/
def Obligations.BaseInstructions : Prop :=
  (∀ (v : VatId) (p w : Nat) (rd rs1 rs2 : RegNo) (x : W64) (s : State), p = s.activePlane v.val → s.seqReady v.val = true →
    s.err.todo = [] → (s.plane p).busy = 0 → inSeqMem (s.plane p).pc = true → inSeqMem ((s.plane p).pc + 2) = true →
    w = (s.plane p).memRead (s.plane p).pc.toNat 4 → rd = rvRd w → rs1 = rvRs1 w → rs2 = rvRs2 w →
    ((w % 128 = 0x33 ∧ rvF3 w = 0 ∧ rvF7 w = 0 ∧ x = s.x p rs1 + s.x p rs2) ∨
      (w % 128 = 0x33 ∧ rvF3 w = 0 ∧ rvF7 w = 0x20 ∧ x = s.x p rs1 - s.x p rs2) ∨
      (w % 128 = 0x13 ∧ rvF3 w = 0 ∧ x = s.x p rs1 + (rvImmI w).signExtend 64) ∨
      (w % 128 = 0x13 ∧ rvF3 w = 7 ∧ x = s.x p rs1 &&& (rvImmI w).signExtend 64) ∨
      (w % 128 = 0x33 ∧ rvF3 w = 0 ∧ rvF7 w = 1 ∧ x = s.x p rs1 * s.x p rs2) ∨
      (w % 128 = 0x33 ∧ rvF3 w = 5 ∧ rvF7 w = 1 ∧ s.x p rs2 = 0 ∧ x = -1) ∨
      (w % 128 = 0x37 ∧ x = (rvImmU w).signExtend 64) ∨ (w % 128 = 0x17 ∧ x = (s.plane p).pc + (rvImmU w).signExtend 64)) →
    ∃ t, exec (.seqBaseInstruction v) s = .next t ∧ t = { s with planes := t.planes } ∧ (t.plane p).pc = (s.plane p).pc + 4 ∧
      t.x p rd = (if rd = 0 then 0 else x) ∧ (∀ r, r ≠ rd → t.x p r = s.x p r) ∧ (t.plane p).seqMem = (s.plane p).seqMem) ∧
  (∀ (v : VatId) (p w : Nat) (s : State), p = s.activePlane v.val → s.seqReady v.val = true → s.err.todo = [] → (s.plane p).busy = 0 →
    inSeqMem (s.plane p).pc = true → inSeqMem ((s.plane p).pc + 2) = true → w = (s.plane p).memRead (s.plane p).pc.toNat 4 →
    ∃ t, exec (.seqBaseInstruction v) s = .next t ∧
      (w % 128 = 0x6F → (t.plane p).pc = (s.plane p).pc + (rvImmJ w).signExtend 64 ∧
        (rvRd w ≠ 0 → t.x p (rvRd w) = (s.plane p).pc + 4)) ∧
      (w % 128 = 0x67 → rvF3 w = 0 → (t.plane p).pc = (s.x p (rvRs1 w) + (rvImmI w).signExtend 64) &&& ~~~1 ∧
        (rvRd w ≠ 0 → t.x p (rvRd w) = (s.plane p).pc + 4)) ∧
      (w % 128 = 0x63 → rvF3 w = 0 → s.x p (rvRs1 w) = s.x p (rvRs2 w) → (t.plane p).pc = (s.plane p).pc + (rvImmB w).signExtend 64) ∧
      (w % 128 = 0x63 → rvF3 w = 0 → s.x p (rvRs1 w) ≠ s.x p (rvRs2 w) → (t.plane p).pc = (s.plane p).pc + 4) ∧
      (w % 128 = 0x63 → rvF3 w = 6 → (s.x p (rvRs1 w)).toNat < (s.x p (rvRs2 w)).toNat →
        (t.plane p).pc = (s.plane p).pc + (rvImmB w).signExtend 64)) ∧
  (∀ (v : VatId) (p h : Nat) (rd rs2 : RegNo) (s : State), p = s.activePlane v.val → s.seqReady v.val = true → s.err.todo = [] →
    (s.plane p).busy = 0 → inSeqMem (s.plane p).pc = true → h = (s.plane p).memRead (s.plane p).pc.toNat 2 → h % 4 ≠ 3 →
    rd = rvRd h → rs2 = BitVec.ofNat 5 (bitsAt h 2 5) → ∃ t, exec (.seqBaseInstruction v) s = .next t ∧
      (h / 8192 = 2 → h % 4 = 1 → (t.plane p).pc = (s.plane p).pc + 2 ∧
        (rd ≠ 0 → t.x p rd = (BitVec.ofNat 6 (bitsAt h 2 5 + 32 * bitsAt h 12 1)).signExtend 64)) ∧
      (h / 4096 = 8 → h % 4 = 2 → rs2 ≠ 0 → (t.plane p).pc = (s.plane p).pc + 2 ∧ (rd ≠ 0 → t.x p rd = s.x p rs2))) ∧
  (∀ (v : VatId) (p : Nat) (id : BitVec 12) (s : State), p = s.activePlane v.val → s.seqReady v.val = true → s.err.todo = [] →
    (s.plane p).busy = 0 → inSeqMem (s.plane p).pc = true → inSeqMem ((s.plane p).pc + 2) = true →
    (s.plane p).memRead (s.plane p).pc.toNat 4 = id.toNat * 2 ^ 20 + 0x500B →
    exec (.seqBaseInstruction v) s = exec (.boundary v id) s) ∧
  (∀ (v : VatId) (p c : Nat) (s : State), p = s.activePlane v.val → s.seqReady v.val = true → s.err.handlings = [] →
    (s.plane p).ctx = some c → (inSeqMem (s.plane p).pc = false ∨ (inSeqMem (s.plane p).pc = true ∧
      (s.plane p).memRead (s.plane p).pc.toNat 2 = 0)) →
    ∃ w : State, exec (.seqBaseInstruction v) s = .next w.finish ∧ (w.ctx c).state = .faulted ∧ w.planes = s.planes ∧
      (w.vat v.val).causeCode = if inSeqMem (s.plane p).pc = true then 2 else 1) ∧
  (∀ (i : Instr) (v : VatId) (rd rs1 rs2 : RegNo) (imm : BitVec 12) (z : BitVec 2) (u : Bool) (op : AmoOp) (co : CsrOp) (s : State),
    s.seqReady v.val = false → i ∈ [.seqLoad v rd rs1 imm z u, .seqStore v rs1 rs2 imm z, .seqAmo v op u rd rs1 rs2, .fence v,
      .csrAccess v co u imm rd rs1, .tgrp v rd rs1 rs2, .trun v rs1 rs2, .twait v rd rs1, .tstat v rd rs1, .ldlgo v rs1 rs2,
      .ldltake v rd rs1, .ldlres v rs1 rs2, .ldlstop v rs1, .ffence v rd rs1, .boundary v imm, .amoaddF32 v rd rs1 rs2,
      .amoaddBf2 v rd rs1 rs2, .amominF32 v rd rs1 rs2, .amomaxF32 v rd rs1 rs2, .amocasD v rd rs1 rs2, .ecall v, .ebreak v,
      .seqBaseInstruction v] → exec i s = .next s)

/-- R64 to R66, R85, R149, R151: BOUNDARY retires once no tile of its vat runs: it checkpoints the plane past itself, counts, notes its id
and time, lets a held schedule take effect, and drains a draining context; it swaps at once where a swap is armed and the shadow
context is eligible. A swap's end returns the vat to RUN. Arming, gating and the stop of a gated vat's banks do only that, and a column
fault retires its vat until the next self-test. -/
def Obligations.BoundariesSwapsAndGating : Prop :=
  (∀ (v : VatId) (id : BitVec 12) (p c : Nat) (s : State), p = s.activePlane v.val → (s.plane p).blocked = some (.boundary id) →
    (s.plane p).ctx = some c → (∀ e ∈ s.tiles, e.1 / 1024 = v.val → e.2.running = false) → (s.ctx c).state = .running →
    (s.vat v.val).replaying = none → (s.vat v.val).run = .run → (s.vat v.val).arm = false → (s.vat v.val).sliceHeld = none →
    (s.vat v.val).slice = 0 → s.err.todo = [] →
    ∃ t, exec (.boundaryRetire v) s = .next t ∧ t = { s with vats := t.vats, planes := t.planes, churn := t.churn } ∧
      (t.plane p).blocked = none ∧ (t.plane p).pc = (s.plane p).pc + 4 ∧ (t.plane p).vbnd = id ∧ (t.plane p).nb = (s.plane p).nb + 1 ∧
      (t.plane p).ckpt = some { id := id, pc := (s.plane p).pc + 4, x := (s.plane p).x, ladles := (s.plane p).ladles,
                                groups := (s.plane p).groups, nb := (s.plane p).nb + 1 } ∧
      (t.vat v.val).lastBoundaryId = id ∧ (t.vat v.val).lastBoundaryTime = s.clk.now ∧ (t.vat v.val).run = .run ∧
      (t.vat v.val).boundaryCnt = (s.vat v.val).boundaryCnt + 1 ∧ (∀ r ∈ t.churn.sent, r ∈ s.churn.sent ∨ (r.ctx = c ∧ r.plan.trigger = id)) ∧
      (∀ q, q ≠ p → t.plane q = s.plane q) ∧ (∀ w, w ≠ v.val → t.vat w = s.vat w)) ∧
  (∀ (v : VatId) (id : BitVec 12) (p c d : Nat) (s : State), p = s.activePlane v.val → (s.plane p).blocked = some (.boundary id) →
    (s.plane p).ctx = some c → (∀ e ∈ s.tiles, e.1 / 1024 = v.val → e.2.running = false) → (s.ctx c).state = .running →
    (s.vat v.val).replaying = none → s.eligible d = true → (s.ctx d).vat.toNat = v.val → s.shadowCtx v.val = some d →
    (s.vat v.val).run = .run → (s.vat v.val).arm = true → s.err.todo = [] →
    ∃ t, exec (.boundaryRetire v) s = .next t ∧ (t.vat v.val).run = .swap ∧ (t.vat v.val).plane = (!(s.vat v.val).plane) ∧
      (t.vat v.val).arm = false ∧ (t.vat v.val).sliceCount = 0 ∧ t.ctxs = s.ctxs ∧ t.fab.mem = s.fab.mem) ∧
  (∀ (v : VatId) (p : Nat) (id : BitVec 12) (x : Nat) (s : State), p = s.activePlane v.val → (s.plane p).blocked = some (.boundary id) →
    x < 1024 → (1024 * v.val + x, s.tile v.val x) ∈ s.tiles → (s.tile v.val x).running = true → exec (.boundaryRetire v) s = .next s) ∧
  (∀ (v : VatId) (c : Nat) (s : State), (s.vat v.val).run = .swap → s.activeCtx v.val = some c → c ∈ s.residents v.val →
    (s.ctx c).state = .running → ∃ t, exec (.swapComplete v) s = .next t ∧ t = { s with vats := t.vats } ∧
      t.vat v.val = { s.vat v.val with run := .run, swapCnt := (s.vat v.val).swapCnt + 1 } ∧ (∀ w, w ≠ v.val → t.vat w = s.vat w)) ∧
  (∀ (v : VatId) (s : State), (s.vat v.val).run ≠ .swap → exec (.swapComplete v) s = .next s) ∧
  (∀ (v : VatId) (s : State), s.vatReachable v.val = true → exec (.swapArm v) s = .next (s.onVat v.val fun x => { x with arm := true })) ∧
  (∀ (v : VatId) (s : State), (s.vat v.val).run = .idle → s.loading v.val = false →
    exec (.vatGate v) s = .next (s.onVat v.val fun x => { x with run := .gated, freqNow := 0 })) ∧
  (∀ (v : VatId) (s : State), ((s.vat v.val).run ≠ .idle ∨ s.loading v.val = true) → exec (.vatGate v) s = .next s) ∧
  (∀ (v : VatId) (s : State), (s.vat v.val).run = .gated → s.tileWork v.val = false →
    exec (.gatedBankStop v) s = .next (s.onVat v.val fun x => { x with banksOn := false })) ∧
  (∀ (v : VatId) (col : Fin 33) (s : State), s.vatIn v.val = false → exec (.columnFault v col) s = .next s) ∧
  (∀ (v : VatId) (col : Fin 33) (s : State), s.vatIn v.val = true → s.residents v.val = [] → s.err.handlings = [] → s.err.todo = [] →
    ∃ t, exec (.columnFault v col) s = .next t ∧ (t.vat v.val).run = .retired ∧ t.inv.vatMap.getLsbD v.val = false ∧
      t.inv.vatColumn.getLsbD v.val = true ∧ (t.vat v.val).fault.getLsbD 3 = true ∧
      (t.vat v.val).failedCols = (s.vat v.val).failedCols ++ [col.val] ∧ t.ctxs = s.ctxs ∧ (∀ w, w ≠ v.val → t.vat w = s.vat w) ∧
      (∀ a, t.byteAt a = s.byteAt a))

/-- R46, R47, R49, R52, R53, R59, R61: a tile. A start command puts it at its entry bundle in its cycle; a bundle of a tile that does not run
does nothing. A bundle that stores writes exactly the bytes of its tile-store slot, with the register as it is once what was due has landed,
and a bundle that loads writes exactly the low bytes of its register; the tile then goes to its next repeat, bundle or
iteration. An access outside the window, and bundle 240, trap with cause 28 and the address. -/
def Obligations.TileBundles : Prop :=
  (∀ (v : VatId) (x : TileId) (s : State), (s.tile v.val x.val).startAt = none → exec (.tileStart v x) s = .next s) ∧
  (∀ (v : VatId) (x : TileId) (h e n cyc : Nat) (s : State), (s.tile v.val x.val).startAt = some (h, e, n, cyc) → s.isFirst v.val cyc = true →
    s.standing (s.activePlane v.val) x.val = [] → ∃ t, exec (.tileStart v x) s = .next t ∧ t = { s with tiles := t.tiles } ∧
      (t.tile v.val x.val).busy = true ∧ (t.tile v.val x.val).startAt = none ∧ (t.tile v.val x.val).bundle = e ∧
      (t.tile v.val x.val).rep = 0 ∧ (t.tile v.val x.val).iter = 0 ∧ (t.tile v.val x.val).itersLeft = n ∧
      (t.tile v.val x.val).cycle = cyc ∧ (∀ r, t.tileReg v.val x.val r = s.tileReg v.val x.val r) ∧
      (∀ w y, 1024 * w + y ≠ 1024 * v.val + x.val → t.tile w y = s.tile w y)) ∧
  (∀ (v : VatId) (x : TileId) (e : Ecc) (s : State), ((s.tile v.val x.val).busy = false ∨ (s.tile v.val x.val).issuedAll = true) →
    exec (.bundleIssue v x e) s = .next s) ∧
  (∀ (v : VatId) (x : TileId) (e : Ecc) (p b lo n : Nat) (s : State), p = s.activePlane v.val → (s.tile v.val x.val).busy = true →
    (s.tile v.val x.val).issuedAll = false → (s.tile v.val x.val).startAt = none → s.isFirst v.val (s.tile v.val x.val).cycle = true →
    (s.plane p).gals = false → (s.tile v.val x.val).bundle < 240 → b = s.bundleAt p x.val (s.tile v.val x.val).bundle →
    s.activeRoutes p x.val b = [] → bMmop b = 2 →
    (lo, n) = s.memSlot p x.val b (s.tile v.val x.val).iter (s.tile v.val x.val).rep → lo + n ≤ (s.window p x.val).2 →
    ∃ t, exec (.bundleIssue v x e) s = .next t ∧
      (∀ i, i < n → t.byteAt (tileBase v.val x.val + (s.window p x.val).1 + lo + i) = BitVec.ofNat 8
        (bitsAt ((s.settle v.val x.val (s.tile v.val x.val).cycle).tileReg v.val x.val (bMreg b)).toNat (8 * i) 8)) ∧
      (∀ a, ¬(tileBase v.val x.val + (s.window p x.val).1 + lo ≤ a ∧ a < tileBase v.val x.val + (s.window p x.val).1 + lo + n) →
        t.byteAt a = s.byteAt a) ∧ t.ctxs = s.ctxs ∧ t.vats = s.vats) ∧
  (∀ (v : VatId) (x : TileId) (p b lo n : Nat) (s : State), p = s.activePlane v.val → (s.tile v.val x.val).busy = true →
    (s.tile v.val x.val).issuedAll = false → (s.tile v.val x.val).startAt = none → s.isFirst v.val (s.tile v.val x.val).cycle = true →
    (s.plane p).gals = false → (s.tile v.val x.val).bundle < 240 → b = s.bundleAt p x.val (s.tile v.val x.val).bundle →
    s.activeRoutes p x.val b = [] → bMmop b = 1 → bMop b = 0 → bVop b = 0 → (s.tile v.val x.val).drains = [] →
    (s.tile v.val x.val).vec = [] → (s.tile v.val x.val).mac = [] →
    (lo, n) = s.memSlot p x.val b (s.tile v.val x.val).iter (s.tile v.val x.val).rep → lo + n ≤ (s.window p x.val).2 →
    s.badIn (tileBase v.val x.val + (s.window p x.val).1 + lo) n = false → ∃ t, exec (.bundleIssue v x .clean) s = .next t ∧
      bitsAt (t.tileReg v.val x.val (bMreg b)).toNat 0 (8 * n) =
        leNat (s.bytesAt (tileBase v.val x.val + (s.window p x.val).1 + lo) n) ∧
      (∀ i, 8 * n ≤ i → (t.tileReg v.val x.val (bMreg b)).getLsbD i = (s.tileReg v.val x.val (bMreg b)).getLsbD i) ∧
      (∀ r, r < 512 → r ≠ bMreg b → t.tileReg v.val x.val r = s.tileReg v.val x.val r) ∧ t = { s with tiles := t.tiles }) ∧
  (∀ (v : VatId) (x : TileId) (e : Ecc) (p b : Nat) (s : State), p = s.activePlane v.val → (s.tile v.val x.val).busy = true →
    (s.tile v.val x.val).issuedAll = false → (s.tile v.val x.val).startAt = none → s.isFirst v.val (s.tile v.val x.val).cycle = true →
    (s.plane p).gals = false → (s.tile v.val x.val).bundle < 240 → b = s.bundleAt p x.val (s.tile v.val x.val).bundle →
    s.activeRoutes p x.val b = [] → bMmop b = 0 → ∃ t, exec (.bundleIssue v x e) s = .next t ∧
      (t.tile v.val x.val).cycle = (s.tile v.val x.val).cycle + 1 ∧ (∀ a, t.byteAt a = s.byteAt a) ∧
      ((s.tile v.val x.val).rep < bRepeat b → (t.tile v.val x.val).rep = (s.tile v.val x.val).rep + 1 ∧
        (t.tile v.val x.val).bundle = (s.tile v.val x.val).bundle) ∧
      (bRepeat b ≤ (s.tile v.val x.val).rep → bEnd b = false → (t.tile v.val x.val).rep = 0 ∧
        (t.tile v.val x.val).bundle = (s.tile v.val x.val).bundle + 1) ∧
      (bRepeat b ≤ (s.tile v.val x.val).rep → bEnd b = true → 2 ≤ (s.tile v.val x.val).itersLeft →
        (t.tile v.val x.val).bundle = (s.tile v.val x.val).entry ∧ (t.tile v.val x.val).iter = (s.tile v.val x.val).iter + 1 ∧
        (t.tile v.val x.val).itersLeft = (s.tile v.val x.val).itersLeft - 1) ∧
      (bRepeat b ≤ (s.tile v.val x.val).rep → bEnd b = true → (s.tile v.val x.val).itersLeft ≤ 1 →
        (t.tile v.val x.val).issuedAll = true)) ∧
  (∀ (v : VatId) (x : TileId) (e : Ecc) (p b lo n a c : Nat) (s : State), p = s.activePlane v.val → (s.tile v.val x.val).busy = true →
    (s.tile v.val x.val).issuedAll = false → (s.tile v.val x.val).startAt = none → s.isFirst v.val (s.tile v.val x.val).cycle = true →
    (s.plane p).gals = false → b = s.bundleAt p x.val (s.tile v.val x.val).bundle →
    (lo, n) = s.memSlot p x.val b (s.tile v.val x.val).iter (s.tile v.val x.val).rep → (s.plane p).ctx = some c →
    (s.ctx c).state = .running → s.err.handlings = [] →
    ((240 ≤ (s.tile v.val x.val).bundle ∧ a = tileBase v.val x.val + (s.window p x.val).1) ∨
      ((s.tile v.val x.val).bundle < 240 ∧ bMmop b ≠ 0 ∧ (s.window p x.val).2 < lo + n ∧
        a = tileBase v.val x.val + (s.window p x.val).1 + lo)) →
    ∃ w : State, exec (.bundleIssue v x e) s = .next w.finish ∧ (w.vat v.val).causeCode = 28 ∧ (w.vat v.val).tval = BitVec.ofNat 64 a ∧
      (w.vat v.val).fault.getLsbD 2 = true ∧ (w.ctx c).state = .faulted ∧ w.fab.mem = s.fab.mem)

/-- R46 to R48, R61, R119, R121: what the slots of a bundle leave behind. A vector operation's result lands its latency after its cycle, a
MAC's product three cycles after; a result that is due lands in the order of the list: a vector result writes the masked bits of its
registers and no other, a product the entries of its set and no entry past it, and either sets its sticky flags. A tile whose last bundle
has issued is idle once nothing is on its way, and leaves its current to the ballast. -/
def Obligations.TileResults : Prop :=
  (∀ (v : VatId) (x : TileId) (e : Ecc) (p b : Nat) (s : State), p = s.activePlane v.val → (s.tile v.val x.val).busy = true →
    (s.tile v.val x.val).issuedAll = false → (s.tile v.val x.val).startAt = none → s.isFirst v.val (s.tile v.val x.val).cycle = true →
    (s.plane p).gals = false → (s.tile v.val x.val).bundle < 240 → b = s.bundleAt p x.val (s.tile v.val x.val).bundle →
    s.activeRoutes p x.val b = [] → bMmop b = 0 → bMop b = 0 → bIterv b = false → bVop b = 0x20 → (s.tile v.val x.val).drains = [] →
    (s.tile v.val x.val).vec = [] → (s.tile v.val x.val).mac = [] → ∃ t r y, exec (.bundleIssue v x e) s = .next t ∧
      (t.tile v.val x.val).vec = [r] ∧ r.land = (s.tile v.val x.val).cycle + 3 ∧
      r.writes = [(bVd b, y, BitVec.allOnes 1024)] ∧ r.flags = 0 ∧
      (∀ i, i < 32 → lane y.toNat i = (lane (s.tileReg v.val x.val (bVs1 b)).toNat i + lane (s.tileReg v.val x.val (bVs2 b)).toNat i) %
        2 ^ 32) ∧ (∀ q, t.tileReg v.val x.val q = s.tileReg v.val x.val q)) ∧
  (∀ (v : VatId) (x : TileId) (e : Ecc) (p b : Nat) (s : State), p = s.activePlane v.val → (s.tile v.val x.val).busy = true →
    (s.tile v.val x.val).issuedAll = false → (s.tile v.val x.val).startAt = none → s.isFirst v.val (s.tile v.val x.val).cycle = true →
    (s.plane p).gals = false → (s.tile v.val x.val).bundle < 240 → b = s.bundleAt p x.val (s.tile v.val x.val).bundle →
    s.activeRoutes p x.val b = [] → bMmop b = 0 → bMop b = 1 → bVop b = 0 → (s.tile v.val x.val).drains = [] →
    (s.tile v.val x.val).vec = [] → (s.tile v.val x.val).mac = [] → ∃ t q, exec (.bundleIssue v x e) s = .next t ∧
      (t.tile v.val x.val).mac = [q] ∧ q.land = (s.tile v.val x.val).cycle + 3 ∧ q.mode = s.param p x.val 0 ∧ q.zero = false ∧
      (∀ r, t.tileReg v.val x.val r = s.tileReg v.val x.val r) ∧ (∀ k, t.accAt v.val x.val k = s.accAt v.val x.val k)) ∧
  (∀ (v : VatId) (x : TileId) (r : VecPending) (rest : List VecPending) (d : Nat) (y m : BitVec 1024) (s : State),
    (s.tile v.val x.val).vec = r :: rest → (s.tile v.val x.val).due r.land = true → r.writes = [(d, y, m)] → d < 512 →
    ∃ t, exec (.vectorResultLand v x) s = .next t ∧ t = { s with tiles := t.tiles, planes := t.planes } ∧
      (t.tile v.val x.val).vec = rest ∧ t.tileReg v.val x.val d = (s.tileReg v.val x.val d &&& ~~~m) ||| (y &&& m) ∧
      (∀ k, k < 512 → k ≠ d → t.tileReg v.val x.val k = s.tileReg v.val x.val k) ∧
      (if (s.vat v.val).plane = true then (t.tile v.val x.val).xflags1 = (s.tile v.val x.val).xflags1 ||| r.flags
        else (t.tile v.val x.val).xflags0 = (s.tile v.val x.val).xflags0 ||| r.flags)) ∧
  (∀ (v : VatId) (x : TileId) (q : MacPending) (rest : List MacPending) (s : State), (s.tile v.val x.val).mac = q :: rest →
    (s.tile v.val x.val).due q.land = true → ∃ t l, exec (.macResultLand v x) s = .next t ∧
      t = { s with tiles := t.tiles, planes := t.planes } ∧ (t.tile v.val x.val).mac = rest ∧
      l = (macLand q (fun i => s.accAt v.val x.val (512 * q.set + i)) fun i => s.tagAt v.val x.val (512 * q.set + i)).1 ∧
      l.length = setSize q.mode ∧
      (∀ i e, l[i]? = some e → t.accAt v.val x.val (512 * q.set + i) = e.1 ∧ t.tagAt v.val x.val (512 * q.set + i) = e.2) ∧
      (∀ k, (k < 512 * q.set ∨ 512 * q.set + l.length ≤ k) → t.accAt v.val x.val k = s.accAt v.val x.val k) ∧
      (∀ r, t.tileReg v.val x.val r = s.tileReg v.val x.val r)) ∧
  (∀ (i : Instr) (v : VatId) (x : TileId) (s : State), (s.tile v.val x.val).vec = [] → (s.tile v.val x.val).mac = [] →
    (i = .vectorResultLand v x ∨ i = .macResultLand v x) → exec i s = .next s) ∧
  (∀ (v : VatId) (x : TileId) (s : State), (s.tile v.val x.val).busy = true → (s.tile v.val x.val).issuedAll = true →
    (s.tile v.val x.val).vec = [] → (s.tile v.val x.val).mac = [] → (s.tile v.val x.val).drains = [] →
    ∃ t, exec (.tileIdle v x) s = .next t ∧ t = { s with tiles := t.tiles, vats := t.vats } ∧ (t.tile v.val x.val).busy = false ∧
      (t.vat v.val).ballast = (s.vat v.val).ballast + (s.tile v.val x.val).peakMa ∧
      (∀ r, t.tileReg v.val x.val r = s.tileReg v.val x.val r)) ∧
  (∀ (v : VatId) (x : TileId) (s : State), (s.tile v.val x.val).issuedAll = false → exec (.tileIdle v x) s = .next s)

/-- R48, R86, R108, R111, R112: arithmetic. A vector integer operation acts lane by lane modulo 2^32; an FP32 number rounds to itself;
an INT8 product sum lands in an INT32 entry modulo
2^32, with OF exactly where the exact sum does not fit. -/
def Obligations.TileArithmetic : Prop :=
  (∀ (vop rnd vs2 vs3 a b c : Nat) (nosat : Bool) (draw : Nat → Nat) (f : Nat → Nat → Nat),
    ((vop = 0x20 ∧ f = fun x y => (x + y) % 2 ^ 32) ∨ (vop = 0x21 ∧ f = fun x y => (x + 2 ^ 32 - y) % 2 ^ 32) ∨
      (vop = 0x22 ∧ f = fun x y => x * y % 2 ^ 32) ∨ (vop = 0x23 ∧ f = fun x y => x &&& y) ∨ (vop = 0x24 ∧ f = fun x y => x ||| y) ∨
      (vop = 0x25 ∧ f = fun x y => x ^^^ y) ∨ (vop = 0x26 ∧ f = fun x y => x * 2 ^ (y % 32) % 2 ^ 32) ∨
      (vop = 0x27 ∧ f = fun x y => x / 2 ^ (y % 32))) →
    ∃ r, vecResult vop rnd nosat draw vs2 vs3 a b c = ([(0, r, 2 ^ 1024 - 1)], 0) ∧ r < 2 ^ 1024 ∧
      ∀ i, i < 32 → lane r i = f (lane a i) (lane b i)) ∧
  (∀ x : Nat, x < 2 ^ 32 → (ofFp32 x).isNan = false → toFp32 .rne (ofFp32 x) = (x, 0)) ∧
  (∀ (q : MacPending) (kDim m n : Nat) (old : BitVec 128) (tag : AccTag) (sum : Int), macAcc q.mode = accINT32 → macBscale q.mode = false →
    macFmtA q.mode = 10 → macFmtB q.mode = 10 → sum = (List.range kDim).foldl (fun (z : Int) k =>
      z + signed 8 (elemAt 10 q.a.toNat (m * kDim + k)) * signed 8 (elemAt 10 q.b.toNat (n * kDim + k))) (signed 32 old.toNat) →
    macEntry q kDim m n old tag = ((BitVec.ofNat 128 (unsigned 32 sum), .none),
      if -2 ^ 31 ≤ sum ∧ sum < 2 ^ 31 then 0 else fOF))

/-- R157, R160, R164, R167, R169, R170: the banks serve the oldest request word by word. The last word of a load answers DATA with the cell;
a word of a store writes exactly its masked bytes, the last one answering ACK; an atomic writes its new value and answers the old
one; a ladle fill or a Separator result writes its half of the cell. A cream access does the same for a whole cell. Banks of a retained
unit, and banks with nothing queued, do nothing. No other byte of memory changes. -/
def Obligations.SramService : Prop :=
  (∀ (v : VatId) (x : TileId) (r : TReq) (rest : List TReq) (s : State), (s.vat v.val).tsRetained = false → (s.vat v.val).tsWaking = false →
    Tbl.look [] s.fab.tileReq (1024 * v.val + x.val) = r :: rest → Tbl.look [] s.fab.tileResp (1024 * v.val + x.val) = [] →
    Cell.opc r.head = opLD → Cell.pay r.head 8 1 = 1 → r.words = 1 → s.readerOf r.head = none → s.err.todo = [] →
    s.badIn (faLocal (Cell.pay r.head 0 8)) 64 = false → s.badIn (faLocal (Cell.pay r.head 0 8) + 32) 32 = false →
    exec (.tilestoreCellService v x .clean) s = .next
      (({ s with fab := { s.fab with tileReq := dropReq s.fab.tileReq (1024 * v.val + x.val) } } : State).launch
        (respond r.head opDATA 0 0 (s.tileHold v.val r).toNat (s.cellAt (faLocal (Cell.pay r.head 0 8)))))) ∧
  (∀ (v : VatId) (x : TileId) (r : TReq) (rest : List TReq) (a k : Nat) (d : BitVec 512) (s : State), (s.vat v.val).tsRetained = false →
    (s.vat v.val).tsWaking = false → Tbl.look [] s.fab.tileReq (1024 * v.val + x.val) = r :: rest →
    Tbl.look [] s.fab.tileResp (1024 * v.val + x.val) = [] → Cell.opc r.head = opST → Cell.pay r.head 8 1 = 1 → r.words = k → k < 2 →
    r.frags = [(1, d)] → a = faLocal (Cell.pay r.head 0 8) → s.badIn a 64 = false → s.err.todo = [] →
    ∃ t, exec (.tilestoreCellService v x .clean) s = .next t ∧
      (∀ i, i < 64 → t.byteAt (a + i) = if i / 32 = k ∧ bitAt (Cell.pay r.head 16 8) i = true then BitVec.ofNat 8 (bitsAt d.toNat (8 * i) 8)
        else s.byteAt (a + i)) ∧
      (∀ b, (b < a ∨ a + 64 ≤ b) → t.byteAt b = s.byteAt b) ∧ t.vats = s.vats ∧ t.ctxs = s.ctxs) ∧
  (∀ (v : VatId) (x : TileId) (r : TReq) (rest : List TReq) (a k n : Nat) (s : State), (s.vat v.val).tsRetained = false →
    (s.vat v.val).tsWaking = false → Tbl.look [] s.fab.tileReq (1024 * v.val + x.val) = r :: rest →
    Tbl.look [] s.fab.tileResp (1024 * v.val + x.val) = [] → Cell.opc r.head = opATOM → a = faLocal (Cell.pay r.head 0 8) →
    k = Cell.pay r.head 8 1 → n = atomWidth k → s.badIn (a / 32 * 32) 32 = false → s.err.todo = [] →
    ∃ t, exec (.tilestoreCellService v x .clean) s = .next t ∧
      t.wordAt a n = atomNew k (s.wordAt a n) (Cell.pay r.head 16 n) (Cell.pay r.head 24 8) % 2 ^ (8 * n) ∧
      (∀ b, (b < a ∨ a + n ≤ b) → t.byteAt b = s.byteAt b) ∧ t.vats = s.vats) ∧
  (∀ (v : VatId) (x : TileId) (r : TResp) (rest : List TResp) (e : Ecc) (s : State), (s.vat v.val).tsRetained = false →
    (s.vat v.val).tsWaking = false → Tbl.look [] s.fab.tileReq (1024 * v.val + x.val) = [] →
    Tbl.look [] s.fab.tileResp (1024 * v.val + x.val) = r :: rest → r.words = 0 → r.port = 64 →
    ∃ t, exec (.tilestoreCellService v x e) s = .next t ∧
      (∀ i, i < 32 → t.byteAt (tileBase v.val x.val + r.off + i) = BitVec.ofNat 8 (bitsAt r.data.toNat (8 * i) 8)) ∧
      (∀ b, (b < tileBase v.val x.val + r.off ∨ tileBase v.val x.val + r.off + 32 ≤ b) → t.byteAt b = s.byteAt b) ∧
      Tbl.look [] t.fab.tileResp (1024 * v.val + x.val) = { r with words := 1 } :: rest ∧ t = { s with fab := t.fab }) ∧
  (∀ (v : VatId) (x : TileId) (e : Ecc) (s : State), ((s.vat v.val).tsRetained = true ∨ (s.vat v.val).tsWaking = true ∨
    (Tbl.look [] s.fab.tileReq (1024 * v.val + x.val) = [] ∧ Tbl.look [] s.fab.tileResp (1024 * v.val + x.val) = [])) →
    exec (.tilestoreCellService v x e) s = .next s) ∧
  (∀ (c : HalfId) (bank : Byte) (r : TReq) (a : Nat) (s : State), (s.cream c.val).mode = .active → Tbl.look [] s.fab.creamQ c.val = [r] →
    Cell.opc r.head = opLD → Cell.pay r.head 8 1 = 1 → r.words = 0 → r.held = false → a = faLocal (Cell.pay r.head 0 8) → a % 64 = 0 →
    creamBank a = bank.toNat → s.badIn a 64 = false → s.err.todo = [] → ∃ t, exec (.creamBankAccess c bank .clean) s = .next t ∧
      t = ({ s with fab := { s.fab with creamQ := t.fab.creamQ } } : State).launch (respond r.head opDATA 0 0 0 (s.cellAt a)) ∧
      Tbl.look [] t.fab.creamQ c.val = [] ∧ (∀ b, t.byteAt b = s.byteAt b)) ∧
  (∀ (c : HalfId) (bank : Byte) (r : TReq) (a : Nat) (d : BitVec 512) (s : State), (s.cream c.val).mode = .active →
    Tbl.look [] s.fab.creamQ c.val = [r] → Cell.opc r.head = opST → Cell.pay r.head 8 1 = 1 → r.words = 0 → r.frags = [(1, d)] →
    a = faLocal (Cell.pay r.head 0 8) → a % 64 = 0 → creamBank a = bank.toNat → s.badIn a 64 = false → s.err.todo = [] →
    ∃ t, exec (.creamBankAccess c bank .clean) s = .next t ∧ Tbl.look [] t.fab.creamQ c.val = [] ∧
      (∀ i, i < 64 → t.byteAt (a + i) = if bitAt (Cell.pay r.head 16 8) i = true then BitVec.ofNat 8 (bitsAt d.toNat (8 * i) 8)
        else s.byteAt (a + i)) ∧ (∀ b, (b < a ∨ a + 64 ≤ b) → t.byteAt b = s.byteAt b)) ∧
  (∀ (c : HalfId) (bank : Byte) (e : Ecc) (s : State), ((s.cream c.val).mode ≠ .active ∨ Tbl.look [] s.fab.creamQ c.val = []) →
    exec (.creamBankAccess c bank e) s = .next s)

/-- R168, R170 to R176, R184: scrub, retention and wake. A scrub read of a clean word only moves on; a corrected one counts and is recorded as
CRM_CE, an uncorrectable one is held as bad and recorded as CRM_UE; a retained unit is not scrubbed. Retention begins only for a gated vat or
an idle enabled cream die; a wake that ends makes the unit active; one that does not in time retires the cream die. CRM_CTRL sets the enable
and clamps its idle time to 10. No byte of memory changes. -/
def Obligations.ScrubRetentionAndWake : Prop :=
  (∀ (v : VatId) (s : State), (s.vat v.val).tsRetained = false → (s.vat v.val).tsWaking = false → (s.vat v.val).run ≠ .retired →
    s.badIn (tileBase v.val 0 + 32 * (s.vat v.val).scrubAt) 32 = false → exec (.sramScrubRead (.tileStores v) .clean) s =
      .next (s.onVat v.val fun y => { y with scrubAt := (y.scrubAt + 1) % 2 ^ 24 })) ∧
  (∀ (c : HalfId) (lane : Nat) (s : State), (s.cream c.val).mode = .active → (s.cream c.val).scrubAt < 2 ^ 25 - 1 →
    s.badIn (creamBase c.val + 64 * (s.cream c.val).scrubAt) 64 = false → ∃ t, exec (.sramScrubRead (.cream c) (.corrected lane)) s = .next t ∧
      t = { s with creams := t.creams, err := t.err } ∧ (t.cream c.val).ce = (s.cream c.val).ce + 1 ∧
      (t.cream c.val).scrubAt = (s.cream c.val).scrubAt + 1 ∧ (t.recordAt s.err.seqNext).code = 0x6001 ∧
      (t.recordAt s.err.seqNext).severity = .corrected) ∧
  (∀ (v : VatId) (a : Nat) (s : State), (s.vat v.val).tsRetained = false → (s.vat v.val).tsWaking = false → (s.vat v.val).run ≠ .retired →
    (s.vat v.val).scrubAt < 2 ^ 24 → a = tileBase v.val 0 + 32 * (s.vat v.val).scrubAt →
    ∃ t, exec (.sramScrubRead (.tileStores v) .uncorrectable) s = .next t ∧
      (t.cream (v.val / 2)).tsUe = (s.cream (v.val / 2)).tsUe + 1 ∧ t.badIn a 32 = true ∧ (t.recordAt s.err.seqNext).code = 0x6002 ∧
      (∀ b, t.byteAt b = s.byteAt b)) ∧
  (∀ (u : Sram) (e : Ecc) (s : State), ((∃ v, u = .tileStores v ∧ (s.vat v.val).tsRetained = true) ∨
    (∃ c, u = .cream c ∧ (s.cream c.val).mode ≠ .active)) → exec (.sramScrubRead u e) s = .next s) ∧
  (∀ (v : VatId) (s : State), (s.vat v.val).run = .gated → s.tileWork v.val = false → (s.vat v.val).tsWaking = false →
    exec (.tilestoreRetentionEnter v) s = .next (s.onVat v.val fun x => { x with tsRetained := true, banksOn := false })) ∧
  (∀ (v : VatId) (s : State), ((s.vat v.val).run ≠ .gated ∨ s.tileWork v.val = true) → exec (.tilestoreRetentionEnter v) s = .next s) ∧
  (∀ (c : HalfId) (s : State), (s.cream c.val).mode = .active → (s.cream c.val).retEn = true → Tbl.look [] s.fab.creamQ c.val = [] →
    exec (.creamRetentionEnter c) s = .next (s.onCream c.val fun x => { x with mode := .retention })) ∧
  (∀ (c : HalfId) (s : State), ((s.cream c.val).retEn = false ∨ Tbl.look [] s.fab.creamQ c.val ≠ []) →
    exec (.creamRetentionEnter c) s = .next s) ∧
  (∀ (c : HalfId) (s : State), (s.cream c.val).waking = true → exec (.sramWakeComplete (.cream c)) s =
    .next (s.onCream c.val fun x => { x with mode := .active, waking := false })) ∧
  (∀ (v : VatId) (s : State), (s.vat v.val).tsWaking = true → (s.vat v.val).wakeThen = none → exec (.sramWakeComplete (.tileStores v)) s =
    .next (s.onVat v.val fun y => { y with tsRetained := false, tsWaking := false, wakeThen := none })) ∧
  (∀ (c : HalfId) (s : State), (s.cream c.val).waking = false → exec (.creamWakeTimeout c) s = .next s) ∧
  (∀ (c : HalfId) (s : State), (s.cream c.val).waking = true → s.err.handlings = [] → s.err.todo = [] →
    ∃ t, exec (.creamWakeTimeout c) s = .next t ∧ (t.cream c.val).mode = .retired ∧ t.inv.creamMap.getLsbD c.val = false ∧
      t.inv.creamRetired.getLsbD c.val = true ∧ (t.recordAt s.err.seqNext).code = 0x0904 ∧ (∀ b, t.byteAt b = s.byteAt b)) ∧
  (∀ (c : HalfId) (x : W32) (s : State), (s.cream c.val).mode = .active → ∃ t, exec (.crmCtrlWrite c x) s = .next t ∧
    t = { s with creams := t.creams } ∧ (t.cream c.val).retEn = x.getLsbD 0 ∧ (t.cream c.val).retIdle.toNat = max 10 (x.toNat / 65536) ∧
    (t.cream c.val).mode = .active ∧ (∀ d, d ≠ c.val → t.cream d = s.cream d)) ∧
  (∀ (c : HalfId) (x : W32) (s : State), (s.cream c.val).mode ∈ [.reset, .retired] → exec (.crmCtrlWrite c x) s = .next s)

/-- R134 to R144: culture loads. In standby a load is answered STATE, without a target or past the operands' ranges RANGE. A target whose
context is not FREE is refused with code 16 and CULTURE_REFUSED; one that may load leaves the load waiting without an answer. CHECK answers the
first broken rule for every target. STREAM answers code 18 to an image whose digest has changed; otherwise it commits: the
context is LOADED in the target's plane, and no other plane or context changes. -/
def Obligations.CultureLoads : Prop :=
  (∀ (k : Fin 8) (req : W32) (im : W64) (sh : Byte) (ts : List (Byte × Byte)) (s : State), s.svc.standby = true →
    ∃ t, exec (.cultureLoad (.session k) req im sh ts) s = .next t ∧ t = { s with kcp := t.kcp, eth := t.eth } ∧
      t.repliedWith k.val req 0x0010 stState []) ∧
  (∀ (k : Fin 8) (req : W32) (im : W64) (sh : Byte) (ts : List (Byte × Byte)) (s : State), s.svc.standby = false →
    s.svc.draining = false → (ts = [] ∨ 32 < ts.length ∨ 15 < sh.toNat ∨ ∃ x ∈ ts, 32 ≤ x.1.toNat ∨ 64 ≤ x.2.toNat) →
    ∃ t, exec (.cultureLoad (.session k) req im sh ts) s = .next t ∧ t = { s with kcp := t.kcp, eth := t.eth } ∧
      t.repliedWith k.val req 0x0010 stRange []) ∧
  (∀ (k : Fin 8) (req : W32) (im : W64) (sh v c : Byte) (s : State), s.svc.standby = false → s.svc.draining = false → sh.toNat ≤ 15 →
    v.toNat < 32 → c.toNat < 64 → (s.ctx c.toNat).state ≠ .free → s.loads = [] →
    ∃ t, exec (.cultureLoad (.session k) req im sh [(v, c)]) s = .next t ∧
      t.repliedWith k.val req 0x0010 stResults (LoadResult.wire { code := 16 }) ∧ t.loads = [] ∧
      (t.recordAt s.err.seqNext).code = 0x0909 ∧ t.ctxs = s.ctxs ∧ t.fab = s.fab) ∧
  (∀ (k : Fin 8) (req : W32) (im : W64) (sh v c : Byte) (s : State), s.svc.standby = false → s.svc.draining = false → sh.toNat ≤ 15 →
    v.toNat < 32 → c.toNat < 64 → s.refuseTarget [(v, c)] (v, c) = none → s.loads = [] →
    ∃ t l, exec (.cultureLoad (.session k) req im sh [(v, c)]) s = .next t ∧ t = { s with loads := [l], vats := t.vats, nextLoad := t.nextLoad } ∧
      l.image = im ∧ l.shift = sh.toNat ∧ l.streaming = false ∧
      l.targets = [{ vat := v.toNat, ctx := c.toNat, plane := !(s.vat v.toNat).plane }]) ∧
  (∀ (n : Nat) (s : State), s.loads = [] → exec (.loadCheckComplete n) s = .next s ∧ exec (.loadStreamComplete n) s = .next s) ∧
  (∀ (k : Fin 8) (l : Load) (g : LoadTarget) (r : LoadResult) (s : State), s.loads = [l] → l.streaming = false → l.src = .session k →
    l.targets = [g] → g.result = none → checkImage (s.image l.image.toNat) = some r → ∃ t, exec (.loadCheckComplete l.id) s = .next t ∧
      t.loads = [] ∧ t.ctxs = s.ctxs ∧ t.planes = s.planes ∧ t.fab = s.fab ∧
      t.repliedWith k.val l.req 0x0010 (if r.code = 0 then stOK else stResults) r.wire) ∧
  (∀ (k : Fin 8) (l : Load) (g : LoadTarget) (s : State), s.loads = [l] → l.streaming = true → l.src = .session k → l.targets = [g] →
    g.result = none → imageDigest (s.image l.image.toNat) ≠ l.digest → ∃ t, exec (.loadStreamComplete l.id) s = .next t ∧
      t.loads = [] ∧ t.ctxs = s.ctxs ∧ t.planes = s.planes ∧ t.fab = s.fab ∧
      t.repliedWith k.val l.req 0x0010 stResults (LoadResult.wire { code := 18 })) ∧
  (∀ (k : Fin 8) (l : Load) (g : LoadTarget) (s : State), s.loads = [l] → l.streaming = true → l.src = .session k → l.targets = [g] →
    g.result = none → imageDigest (s.image l.image.toNat) = l.digest → (s.ctx g.ctx).state = .free → g.vat < 32 →
    ∃ t, exec (.loadStreamComplete l.id) s = .next t ∧ t.loads = [] ∧ (t.ctx g.ctx).state = .loaded ∧
      (t.ctx g.ctx).vat.toNat = g.vat ∧ (t.ctx g.ctx).plane = g.plane ∧ (t.ctx g.ctx).resident = true ∧ (t.ctx g.ctx).digest = l.digest ∧
      (t.ctx g.ctx).commitTime = s.clk.now ∧ (t.plane (planeIx g.vat g.plane)).ctx = some g.ctx ∧
      (∀ p, p ≠ planeIx g.vat g.plane → t.plane p = s.plane p) ∧ (∀ d, d ≠ g.ctx → t.ctx d = s.ctx d) ∧
      t.repliedWith k.val l.req 0x0010 stOK (LoadResult.wire {}))

/-- R200, R203, R204, R225, R226: responses and notices at their issuer. A cell that does not belong to its command does nothing; a response that no
operation awaits is counted as late and dropped. DATA gives an outstanding sequencer load its value, extended, and frees its register; ACK ends
a store; SOUR makes the load a load access fault with the record of its cause. NACK_BUSY makes the operation wait and its retry sends
every cell again under a new tag; NACK_REFUSED and silence past the bound end it. -/
def Obligations.FabricResponses : Prop :=
  (∀ (c : Cell) (i : Instr) (op : Nat) (s : State), s.isMine c op = false →
    (i, op) ∈ [(Instr.ld c, opLD), (.st c, opST), (.std c, opSTD), (.atom c, opATOM), (.msg c, opMSG), (.msgd c, opMSGD), (.data c, opDATA),
      (.ack c, opACK), (.sour c, opSOUR), (.nackBusy c, opNACKBUSY), (.nackRefused c, opNACKREFUSED)] → exec i s = .next s) ∧
  (∀ (c : Cell) (i : Instr) (op : Nat) (s : State), s.isMine c op = true → s.err.todo = [] → s.opOf (Cell.dport c) (Cell.tag c) = none →
    (i, op) ∈ [(Instr.data c, opDATA), (.ack c, opACK), (.sour c, opSOUR), (.nackBusy c, opNACKBUSY), (.nackRefused c, opNACKREFUSED)] →
    exec i s = .next { s with fab := { s.fab with flight := s.fab.flight.erase c, lateCnt := s.fab.lateCnt + 1 } }) ∧
  (∀ (c : Cell) (o : Op) (v : Nat) (b : Bool) (rd : RegNo) (off n : Nat) (z : Bool) (s : State), s.isMine c opDATA = true →
    s.err.todo = [] → s.opOf (Cell.dport c) (Cell.tag c) = some o → o.issuer = .seqLoad v b rd off n z → o.got = [] → o.expect = 1 →
    o.waiting = false → o.reading = false → o.voided = false → bitsAt (Cell.frag c) 0 2 = 0 → rd ≠ 0 →
    ∃ t, exec (.data c) s = .next t ∧ t.x (planeIx v b) rd = extendTo64 n z (bitsAt c.payload.toNat (8 * off) (8 * n)) ∧
      (t.plane (planeIx v b)).busy.getLsbD rd.toNat = false ∧ (∀ r, r ≠ rd → t.x (planeIx v b) r = s.x (planeIx v b) r) ∧
      t.opOf (Cell.dport c) (Cell.tag c) = none ∧ t.fab.mem = s.fab.mem ∧ t.ctxs = s.ctxs ∧ t.err = s.err) ∧
  (∀ (c : Cell) (o : Op) (v : Nat) (b : Bool) (s : State), s.isMine c opACK = true → s.err.todo = [] →
    s.opOf (Cell.dport c) (Cell.tag c) = some o → o.issuer = .seqStore v b → o.got = [] → o.expect = 1 → o.waiting = false →
    o.reading = false → o.voided = false → bitsAt (Cell.frag c) 0 2 = 0 → ∃ t, exec (.ack c) s = .next t ∧
      t.opOf (Cell.dport c) (Cell.tag c) = none ∧ t.fab.mem = s.fab.mem ∧ t.ctxs = s.ctxs ∧ t.err = s.err ∧
      (∀ p r, t.x p r = s.x p r)) ∧
  (∀ (c : Cell) (o : Op) (v : Nat) (b : Bool) (rd : RegNo) (off n x : Nat) (z : Bool) (s : State), s.isMine c opSOUR = true →
    s.opOf (Cell.dport c) (Cell.tag c) = some o → o.issuer = .seqLoad v b rd off n z → o.got = [] → o.expect = 1 → o.waiting = false →
    o.reading = false → o.voided = false → bitsAt (Cell.frag c) 0 2 = 0 → bitsAt (Cell.frag c) 4 4 ∈ [1, 2, 3, 4, 5, 6, 10] →
    (s.plane (planeIx v b)).ctx = some x → (s.ctx x).state = .running → s.err.handlings = [] →
    ∃ w : State, exec (.sour c) s = .next w.finish ∧ (w.vat v).causeCode = 5 ∧ (w.ctx x).state = .faulted ∧
      (w.recordAt s.err.seqNext).code = BitVec.ofNat 16 (0x0A00 + bitsAt (Cell.frag c) 4 4) ∧
      w.fab.sourCnt = s.fab.sourCnt + 1 ∧ w.fab.mem = s.fab.mem) ∧
  (∀ (c : Cell) (o : Op) (s : State), s.isMine c opNACKBUSY = true → s.opOf (Cell.dport c) (Cell.tag c) = some o → s.fab.ops = [o] →
    exec (.nackBusy c) s = .next { s with fab := { s.fab with flight := s.fab.flight.erase c,
                                                               ops := [{ o with waiting := true, heard := s.clk.now }] } }) ∧
  (∀ (port : PortId) (o : Op) (s : State), s.fab.ops = [o] → s.fab.withheld = [] → o.port = port.val →
    o.waiting = true → ∃ t o1, exec (.busyRetry port o.tag) s = .next t ∧
    t.fab.ops = [o1] ∧ o1.waiting = false ∧ o1.retried = true ∧ o1.backoffUs = min 8 (2 * o.backoffUs) ∧ o1.issuer = o.issuer ∧
    o1.cells = o.cells.map (fun c => Cell.withTag c o1.tag.toNat) ∧ o1.tag ≠ o.tag ∧ t.fab.busyRetryCnt = s.fab.busyRetryCnt + 1 ∧
    (port.val, o.tag) ∈ t.fab.withheld.map (fun w => (w.1, w.2.1)) ∧ t.fab.mem = s.fab.mem) ∧
  (∀ (port : PortId) (o : Op) (s : State), s.fab.ops = [o] → o.port = port.val → o.waiting = false →
    exec (.busyRetry port o.tag) s = .next s) ∧
  (∀ (c : Cell) (o : Op) (s : State), s.isMine c opNACKREFUSED = true → s.err.todo = [] → s.opOf (Cell.dport c) (Cell.tag c) = some o →
    o.issuer = .controller → o.got = [] → o.expect = 1 → o.voided = false → ∃ t, exec (.nackRefused c) s = .next t ∧
      t.opOf (Cell.dport c) (Cell.tag c) = none ∧ t.fab.refusedCnt = s.fab.refusedCnt + 1 ∧ t.fab.mem = s.fab.mem) ∧
  (∀ (port : PortId) (o : Op) (s : State), s.fab.ops = [o] → o.port = port.val → s.silent o = false →
    exec (.opTimeout port o.tag) s = .next s) ∧
  (∀ (port : PortId) (o : Op) (s : State), s.fab.ops = [o] → o.port = port.val → s.silent o = true → o.issuer = .controller → o.got = [] →
    o.expect = 1 → o.voided = false → s.err.todo = [] → ∃ t, exec (.opTimeout port o.tag) s = .next t ∧ t.fab.ops = [] ∧
      t.fab.timeoutCnt = s.fab.timeoutCnt + 1 ∧ t.fab.sourCnt = s.fab.sourCnt + 1 ∧
      (port.val, o.tag) ∈ t.fab.withheld.map (fun w => (w.1, w.2.1)) ∧ t.fab.mem = s.fab.mem)

/-- R158, R200 to R202, R205, R207, R216, R222, R226: requests at their target. A load or atomic that may be performed joins its target's queue; one
that may not is answered SOUR with its cause; one of a filtered context is discarded; one over its quota is refused. A store's or
message's cells gather until all are in; then a store is queued with its data and a message is delivered to its mailbox and acknowledged.
Flow control stops and restarts a class; a cell that no hop may forward is dropped and counted; a dark notice and a keepalive are noted. -/
def Obligations.FabricRequests : Prop :=
  (∀ (i : Instr) (op : Nat) (c : Cell) (v x off : Nat) (s : State), s.isMine c op = true → (i, op) ∈ [(Instr.ld c, opLD), (.atom c, opATOM)] →
    s.filtered c = false → s.overQuota c = false → s.refuseCause c = none → regionOf (faLocal (Cell.pay c 0 8)) = .tile v x off →
    s.roomAt (faLocal (Cell.pay c 0 8)) 1 = true → (s.vat v).run = .run → (s.vat v).tsRetained = false → (s.vat v).tsWaking = false →
    ∃ t, exec i s = .next t ∧ t.fab.flight = s.fab.flight.erase c ∧
      Tbl.look [] t.fab.tileReq (1024 * v + x) = Tbl.look [] s.fab.tileReq (1024 * v + x) ++ [{ head := c, arrived := s.clk.now }] ∧
      (∀ k, k ≠ 1024 * v + x → Tbl.look [] t.fab.tileReq k = Tbl.look [] s.fab.tileReq k) ∧ t.fab.creamQ = s.fab.creamQ ∧
      t.fab.hbmQ = s.fab.hbmQ ∧ t.fab.mem = s.fab.mem ∧ (∀ w, t.vat w = s.vat w)) ∧
  (∀ (i : Instr) (op : Nat) (c : Cell) (x : SourCause) (s : State), s.isMine c op = true → (i, op) ∈ [(Instr.ld c, opLD), (.atom c, opATOM)] →
    s.filtered c = false → s.overQuota c = false → s.refuseCause c = some x →
    exec i s = .next ((s.landed c).launchAll (sourAnswers c x))) ∧
  (∀ (i : Instr) (op : Nat) (c : Cell) (s : State), s.isMine c op = true → s.filtered c = true →
    (i, op) ∈ [(Instr.ld c, opLD), (.atom c, opATOM), (.st c, opST), (.std c, opSTD), (.msg c, opMSG), (.msgd c, opMSGD)] →
    exec i s = .next (s.landed c)) ∧
  (∀ (i : Instr) (op : Nat) (c : Cell) (s : State), s.isMine c op = true → (i, op) ∈ [(Instr.ld c, opLD), (.atom c, opATOM)] →
    s.filtered c = false → s.overQuota c = true → exec i s = .next ((s.landed c).launch (respond c opNACKREFUSED 0 2 0 0))) ∧
  (∀ (i : Instr) (op : Nat) (c : Cell) (s : State), s.isMine c op = true → (i, op) ∈ [(Instr.st c, opST), (.msg c, opMSG)] →
    s.filtered c = false → s.overQuota c = false → s.fab.asm = [] → 1 ≤ fragCount c → ∃ t a, exec i s = .next t ∧ t.fab.asm = [a] ∧
      a.head = some c ∧ a.frags = [] ∧ a.refused = false ∧ a.of c = true ∧ t.fab.flight = s.fab.flight.erase c ∧
      t.fab.mem = s.fab.mem ∧ t.fab.mail = s.fab.mail ∧ t = { s with fab := t.fab }) ∧
  (∀ (c h : Cell) (a : Assembly) (v x off : Nat) (s : State), s.isMine c opSTD = true → s.filtered c = false → s.fab.asm = [a] →
    a.of c = true → a.head = some h → a.frags = [] → a.refused = false → Cell.opc h = opST → Cell.pay h 8 1 = 1 → Cell.frag c = 1 →
    s.refuseCause h = none → regionOf (faLocal (Cell.pay h 0 8)) = .tile v x off → s.roomAt (faLocal (Cell.pay h 0 8)) 2 = true →
    (s.vat v).run = .run → (s.vat v).tsRetained = false → (s.vat v).tsWaking = false → ∃ t, exec (.std c) s = .next t ∧ t.fab.asm = [] ∧
      Tbl.look [] t.fab.tileReq (1024 * v + x) =
        Tbl.look [] s.fab.tileReq (1024 * v + x) ++ [{ head := h, frags := [(1, c.payload)], arrived := s.clk.now }] ∧
      t.fab.mem = s.fab.mem) ∧
  (∀ (c h : Cell) (a : Assembly) (s : State), s.isMine c opMSGD = true → s.filtered c = false → s.fab.asm = [a] → a.of c = true →
    a.head = some h → a.frags = [] → a.refused = false → Cell.opc h = opMSG → Cell.pay h 4 4 = 64 → Cell.frag c = 1 →
    s.isDark (Cell.dport h) = false → s.strayWeights h = false → ∃ t, exec (.msgd c) s = .next t ∧ t.fab.asm = [] ∧
      t.fab.mail = s.fab.mail ++ [{ port := Cell.dport h, mailbox := BitVec.ofNat 32 (Cell.pay h 0 4), pkg := Cell.spkg h,
                                    sport := Cell.sport h, bytes := leBytes 64 c.payload.toNat }] ∧
      t.fab.mem = s.fab.mem) ∧
  (∀ (c : Cell) (s : State), opListed (Cell.opc c) = true → Cell.cls c ≠ 3 → exec (.badCell c) s = .next s) ∧
  (∀ (c : Cell) (s : State), opListed (Cell.opc c) = false → s.fab.badRecTime = none → ∃ t, exec (.badCell c) s = .next t ∧
    t.fab.flight = s.fab.flight.erase c ∧ t.fab.dropCnt = s.fab.dropCnt + 1 ∧ (t.recordAt s.err.seqNext).code = 0x0A09 ∧
    t.fab.mem = s.fab.mem ∧ t = { s with fab := t.fab, err := t.err }) ∧
  (∀ (hop : Nat) (cl : BitVec 2) (r : Bool) (s : State), cl ≠ 0 → (hop, cl.toNat, r) ∉ s.fab.stopped →
    exec (.xoff hop cl r) s = .next { s with fab := { s.fab with stopped := s.fab.stopped ++ [(hop, cl.toNat, r)] } }) ∧
  (∀ (hop : Nat) (r : Bool) (s : State), exec (.xoff hop 0 r) s = .next s) ∧
  (∀ (hop : Nat) (cl : BitVec 2) (r : Bool) (s : State), hop < 64 → s.fab.held = [] → exec (.xon hop cl r) s =
    .next { s with fab := { s.fab with stopped := s.fab.stopped.filter fun k => k != (hop, cl.toNat, r) } }) ∧
  (∀ (port : PortId) (d : PkgId) (target : PortId) (s : State), ∃ t, exec (.keepalive port d target) s = .next t ∧
    t = { s with fab := t.fab } ∧ t.fab.mem = s.fab.mem ∧ t.fab.ops.length = s.fab.ops.length ∧
    (∀ o ∈ t.fab.ops, o.port = port.val → o.dpkg = d.val → d.val ≠ s.fab.pkgId.toNat → o.heard = s.clk.now)) ∧
  (∀ (p : PortId) (d : PkgId) (q : PortId) (s : State), s.holdsFrom p.val d.val q.val = true → exec (.keepaliveSend p d q) s =
    .next { s with fab := { s.fab with keepalives := s.fab.keepalives ++ [(p.val, d.val, q.val)] } }) ∧
  (∀ (p : PortId) (d : PkgId) (q : PortId) (s : State), s.holdsFrom p.val d.val q.val = false → exec (.keepaliveSend p d q) s = .next s) ∧
  (∀ (p q : PortId) (s : State), s.isDark q.val = false → exec (.darkNotice p q) s =
    .next { s with fab := { s.fab with noticed := Tbl.upd 0 s.fab.noticed p.val fun m => bvSet m q.val false } }) ∧
  (∀ (p q : PortId) (s : State), s.isDark q.val = true → s.fab.ops = [] → s.err.todo = [] → exec (.darkNotice p q) s =
    .next { s with fab := { s.fab with noticed := Tbl.upd 0 s.fab.noticed p.val fun m => bvSet m q.val true } })

/-- R18, R21, R231, R235, R236, R241, R243 to R245, R248, R251, R259, R388: the Churn. A frame boundary comes at the next multiple of 10,240 ns, and the
guard 40 ns before one; a boundary of a Churn that does not run changes neither it nor the fabric. A failed cell is counted and a resend
counts until it has failed nine times, which takes its wavelength out. A flex request joins the controller, replacing the context's
older one; at the boundary one whose port has another owner is refused, a feasible one is granted and owns its port, and another
waits until its frames are spent. A release frees the ports named. A lost bundle leaves the lane map to rebuild, and the loss of a
control bundle or a seam retires the die. -/
def Obligations.ChurnFramesAndFlexRows : Prop :=
  (∀ (steps : List (Nat × Int)) (s : State), s.rings.built = false → s.churn.running = false → s.err.todo = [] → s.clk.locked = true →
    s.time + 10240 < 2 ^ 64 → (∀ g, (s.engine g).incoming = none) → ∃ t, exec (.frameBoundary steps []) s = .next t ∧
      t = { s.elapseToFrame 0 with engines := t.engines } ∧ t.time % 10240 = 0 ∧ s.time < t.time ∧ t.time ≤ s.time + 10240 ∧
      (∀ g, (t.engine g).rowRetired = (s.engine g).rowRetired ∧ (t.engine g).weights = (s.engine g).weights)) ∧
  (∀ (k : Fin 9) (x : Int) (s : State), s.rings.built = false → s.churn.running = false → s.err.todo = [] → s.clk.locked = false →
    (∀ g, (s.engine g).incoming = none) → 1500 < x.natAbs → Tbl.look 0 s.clk.skewRecTime k.val = 0 →
    ∃ t, exec (.frameBoundary [] [(k, x)]) s = .next t ∧ t.clk.skewCnt = s.clk.skewCnt + 1 ∧
      (t.recordAt s.err.seqNext).code = 0x0301 ∧ (t.recordAt s.err.seqNext).severity = .corrected ∧ t.fab = s.fab ∧ t.ctxs = s.ctxs) ∧
  (∀ s : State, s.clk.locked = true → s.time + 10240 < 2 ^ 64 → ∃ t, exec .guardStart s = .next t ∧ t.churn = { s.churn with guard := true } ∧
    (t.time + 40) % 10240 = 0 ∧ s.time < t.time ∧ t.time ≤ s.time + 10240 ∧ t.fab = s.fab ∧ t.ctxs = s.ctxs ∧ t.planes = s.planes) ∧
  (∀ (w : Wavelength) (s : State), ∃ t, exec (.cellCrcFail w) s = .next t ∧ t = { s with churn := { s.churn with fails := t.churn.fails } } ∧
    Tbl.look 0 t.churn.fails w.modulator.val = Tbl.look 0 s.churn.fails w.modulator.val + 1 ∧
    (∀ k, k ≠ w.modulator.val → Tbl.look 0 t.churn.fails k = Tbl.look 0 s.churn.fails k)) ∧
  (∀ (w : Wavelength) (s : State), Tbl.look 0 s.churn.fails w.modulator.val < 9 → exec (.resendRequest w) s =
    .next { s with churn := { s.churn with resendCnt := s.churn.resendCnt + 1 } }) ∧
  (∀ (w : Wavelength) (s : State), 9 ≤ Tbl.look 0 s.churn.fails w.modulator.val → ∃ t, exec (.resendRequest w) s = .next t ∧
    t = { s with churn := t.churn, rings := t.rings } ∧ (w.modulator.val, w.filter.val) ∈ t.churn.failed ∧
    t.churn.resendCnt = s.churn.resendCnt ∧ ((s.ring w.filter.val).state = .locked → (t.ring w.filter.val).verifying = true)) ∧
  (∀ (c : CtxId) (r : FlexReq) (s : State), s.churn.sent = [r] → r.ctx = c.val → (∀ x ∈ s.churn.pending, x.ctx ≠ c.val) →
    ∃ t n, exec (.flexRequest c) s = .next t ∧ t = { s with churn := { s.churn with sent := [], pending := t.churn.pending } } ∧
      t.churn.pending = s.churn.pending ++ [{ r with first := n, waited := 0 }] ∧
      n = s.frame + (if s.churn.guard = true ∨ 10200 ≤ s.time % 10240 then 2 else 1)) ∧
  (∀ (c : CtxId) (r old : FlexReq) (s : State), s.churn.sent = [r] → r.ctx = c.val → s.churn.pending = [old] → old.ctx = c.val →
    ∃ t, exec (.flexRequest c) s = .next t ∧ t.churn.refuseCnt = s.churn.refuseCnt + 1 ∧
      (Tbl.look {} t.churn.outcomes old.port).outcome = 3 ∧ t.churn.pending.map FlexReq.plan = [r.plan] ∧
      (t.recordAt s.err.seqNext).code = 0x0C01 ∧ t.churn.rows = s.churn.rows) ∧
  (∀ (f : Nat) (r : FlexReq) (t s : State), t = s.flexEvaluate f → s.churn.pending = [r] → s.churn.sent = [] → r.first ≤ f →
    ((∃ o, Tbl.look none s.churn.owners r.port = some o ∧ o ≠ r.ctx) → t.churn.pending = [] ∧ t.churn.refuseCnt = s.churn.refuseCnt + 1 ∧
      (Tbl.look {} t.churn.outcomes r.port).outcome = 3 ∧ t.churn.rows = s.churn.rows ∧ t.churn.owners = s.churn.owners) ∧
    ((∀ o, Tbl.look none s.churn.owners r.port = some o → o = r.ctx) → r.port < 16 → s.feasible (s.rowsWith [r]) = false →
      t.churn.rows = s.churn.rows ∧ t.churn.owners = s.churn.owners ∧
      (r.waited < s.churn.flexWait.toNat → t.churn.pending.map FlexReq.waited = [r.waited + 1] ∧ t.churn.refuseCnt = s.churn.refuseCnt) ∧
      (s.churn.flexWait.toNat ≤ r.waited → t.churn.pending = [] ∧ t.churn.refuseCnt = s.churn.refuseCnt + 1)) ∧
    ((∀ o, Tbl.look none s.churn.owners r.port = some o → o = r.ctx) → r.plan.isDefault = false →
      s.feasible (s.rowsWith [r]) = true → t.churn.pending = [] ∧ Tbl.look none t.churn.owners r.port = some r.ctx ∧
      t.churn.grantCnt = s.churn.grantCnt + 1 ∧ t.churn.refuseCnt = s.churn.refuseCnt ∧
      (∀ j, 1 ≤ j → j < 16 → (t.row r.port).getD j 0 = min ((s.row r.port).getD j 0) ((s.wantedRow r).getD j 0)) ∧
      (∀ p, p ≠ r.port → t.row p = s.row p))) ∧
  (∀ (p : HalfId) (j : Fin 16) (ring : RingId) (s : State), s.churn.retunes = [] → exec (.retuneSettleTimeout p j ring) s = .next s) ∧
  (∀ (p : HalfId) (j : Fin 16) (ring : RingId) (x : Retune) (s : State), s.churn.retunes = [x] → x.port = p.val → 0 < x.moved →
    0 < x.row.getD j.val 0 → ∃ t, exec (.retuneSettleTimeout p j ring) s = .next t ∧ t.churn.retuneFailCnt = s.churn.retuneFailCnt + 1 ∧
      t.churn.retunes = [{ x with moved := x.moved - 1, row := x.row.set j.val (x.row.getD j.val 0 - 1) }] ∧
      (t.recordAt s.err.seqNext).code = 0x0C02 ∧ (t.recordAt s.err.seqNext).severity = .corrected ∧ t.churn.rows = s.churn.rows) ∧
  (∀ (mask : W32) (s : State), ∃ t, exec (.chnFlexRelease mask) s = .next t ∧
    t = { s with churn := { s.churn with owners := t.churn.owners, releasing := t.churn.releasing } } ∧
    (∀ p, p < 16 → mask.getLsbD p = true → Tbl.look none t.churn.owners p = none ∧
      ((Tbl.look none s.churn.owners p).isSome = true → t.churn.releasing.getLsbD p = true)) ∧
    (∀ p, p < 16 → mask.getLsbD p = false → Tbl.look none t.churn.owners p = Tbl.look none s.churn.owners p ∧
      t.churn.releasing.getLsbD p = s.churn.releasing.getLsbD p)) ∧
  (∀ (c : HalfId) (g : Fin 10) (s : State), ∃ t, exec (.signalBundleFail c g) s = .next t ∧
    t = { s with board := { s.board with bundles := t.board.bundles, bundlesLost := t.board.bundlesLost },
                 churn := { s.churn with rebuild := t.churn.rebuild } } ∧
    (Tbl.look 0 t.board.bundles c.val).getLsbD g.val = false ∧ (Tbl.look 0 t.board.bundlesLost c.val).getLsbD g.val = true ∧
    t.churn.rebuild.getLsbD c.val = true ∧ (∀ d, d ≠ c.val → Tbl.look 0 t.board.bundles d = Tbl.look 0 s.board.bundles d)) ∧
  (∀ (d : DieId) (c : HalfId) (s : State), c.val / 2 = d.val → s.inv.dieRetired.getLsbD d.val = true →
    exec (.seamGroupFail d) s = .next s ∧ exec (.controlBundleFail c) s = .next s) ∧
  (∀ (d : DieId) (c : HalfId) (s : State), c.val / 2 = d.val → s.inv.dieRetired.getLsbD d.val = false →
    ∃ t, exec (.seamGroupFail d) s = .next t ∧ exec (.controlBundleFail c) s = .next t ∧ t.inv.dieRetired.getLsbD d.val = true ∧
      t.inv.cdMap.getLsbD d.val = false)

/-- R262, R271 to R284: the ring loops. A pilot-tone window that a ring in VERIFY passes locks and calibrates it; on a locked ring a passed
window changes nothing and a failed one is a mislock, recorded, whose third within 3,600 s ends the ring and whose first two start its
sequence. HOLD freezes a locked ring and its end returns it to VERIFY; a fault of a ring in service is counted and takes its twin
where that is COLD. A full acquisition locks at the lowest good dip. The hash is counted each time, and a field's estimate is
valid from 32 locked rings on. A correction of a locked ring moves its code by at most 64 steps. -/
def Obligations.RingLoops : Prop :=
  (∀ (e : RingId) (amps : List Nat) (s : State), (s.ring e.val).state = .locked → (s.ring e.val).verifying = false →
    toneOk (s.ring e.val).pilot.toNat amps = true → exec (.pilotWindowEnd e amps) s = .next s) ∧
  (∀ (e : RingId) (amps : List Nat) (s : State), (s.ring e.val).state = .verify → toneOk (s.ring e.val).pilot.toNat amps = true →
    ∃ t, exec (.pilotWindowEnd e amps) s = .next t ∧ t = { s with rings := t.rings } ∧ (t.ring e.val).state = .locked ∧
      (t.ring e.val).lockDac = (s.ring e.val).dac ∧ t.rings.calCnt = s.rings.calCnt + 1 ∧
      (t.ring e.val).calCount = (if (s.ring e.val).calCount = 65535 then 65535 else (s.ring e.val).calCount + 1) ∧
      (∀ k, k ≠ e.val → t.ring k = s.ring k)) ∧
  (∀ (e : RingId) (amps : List Nat) (s : State), (s.ring e.val).state ∈ [.locked, .verify] → (s.ring e.val).mislocks = [] →
    toneOk (s.ring e.val).pilot.toNat amps = false → ∃ t, exec (.pilotWindowEnd e amps) s = .next t ∧
      t = { s with rings := t.rings, err := t.err } ∧ t.rings.mislockCnt = s.rings.mislockCnt + 1 ∧ (t.ring e.val).state = .acquire ∧
      (t.ring e.val).step = .coldReset ∧ (t.ring e.val).mislocks = [s.clk.now] ∧ (t.recordAt s.err.seqNext).code = 0x0D01 ∧
      (t.recordAt s.err.seqNext).severity = .corrected ∧ (∀ k, k ≠ e.val → t.ring k = s.ring k)) ∧
  (∀ (e : RingId) (amps : List Nat) (x y : W64) (s : State), (s.ring e.val).state = .locked → (s.ring e.val).mislocks = [x, y] →
    s.time ≤ y.toNat + 3600000000000 → s.time ≤ x.toNat + 3600000000000 → e.val < guideEnd → e.val % 3 ≠ 2 →
    (s.ring (twinOf e.val)).state = .cold → (s.ring (twinOf e.val)).kind = kindTWIN → toneOk (s.ring e.val).pilot.toNat amps = false →
    ∃ t, exec (.pilotWindowEnd e amps) s = .next t ∧ (t.ring e.val).state = .retired ∧
      (t.ring (twinOf e.val)).state = .acquire ∧ (t.ring (twinOf e.val)).step = .fullAcquisition ∧
      (t.ring (twinOf e.val)).chan = (s.ring e.val).chan ∧ (t.ring (twinOf e.val)).kind = (s.ring e.val).kind ∧
      (t.ring (twinOf e.val)).pilot = (s.ring e.val).pilot ∧ (∀ k, k ≠ e.val → k ≠ twinOf e.val → t.ring k = s.ring k)) ∧
  (∀ (e : RingId) (n : Nat) (s : State), (s.ring e.val).state.inService = true → exec (.misframe e n) s =
    .next { s with rings := { s.rings with misframeCnt := s.rings.misframeCnt + BitVec.ofNat 32 n } }) ∧
  (∀ (e : RingId) (s : State), (s.ring e.val).state = .locked → ∃ t, exec (.ringHold e) s = .next t ∧
    t = { s with rings := { s.rings with table := t.rings.table } } ∧ (t.ring e.val).state = .hold ∧
    (t.ring e.val).dac = (s.ring e.val).dac ∧ (∀ k, k ≠ e.val → t.ring k = s.ring k)) ∧
  (∀ (e : RingId) (s : State), (s.ring e.val).state = .hold → ∃ t, exec (.ringHoldEnd e) s = .next t ∧
    t = { s with rings := { s.rings with table := t.rings.table } } ∧
    (t.ring e.val).state = (if (s.ring e.val).step = .suspended then .acquire else .verify) ∧
    (t.ring e.val).step = (if (s.ring e.val).step = .suspended then .coldReset else .none) ∧ (∀ k, k ≠ e.val → t.ring k = s.ring k)) ∧
  (∀ (e : RingId) (cause : RingCause) (s : State), (s.ring e.val).state.inService = false → exec (.ringFault e cause) s = .next s) ∧
  (∀ (e : RingId) (cause : RingCause) (s : State), (s.ring e.val).state.inService = true → e.val < guideEnd → e.val % 3 ≠ 2 →
    (s.ring (twinOf e.val)).state = .cold → (s.ring (twinOf e.val)).kind = kindTWIN → ∃ t, exec (.ringFault e cause) s = .next t ∧
      t = { s with rings := t.rings, err := t.err } ∧ t.rings.faultCnt = s.rings.faultCnt + 1 ∧ (t.ring e.val).state = .retired ∧
      (t.ring (twinOf e.val)).state = .acquire ∧ (t.ring (twinOf e.val)).chan = (s.ring e.val).chan ∧
      (t.recordAt s.err.seqNext).code = 0x0D03 ∧ (t.recordAt (s.err.seqNext + 1)).code = 0x0D02) ∧
  (∀ (e : RingId) (cause : RingCause) (s : State), (s.ring e.val).state.inService = true → arrayBase ≤ e.val →
    ∃ t, exec (.ringFault e cause) s = .next t ∧ (t.ring e.val).state = .fault ∧ t.rings.faultCnt = s.rings.faultCnt + 1 ∧
      (∀ k, k ≠ e.val → t.ring k = s.ring k)) ∧
  (∀ (e : RingId) (dips : List Dip) (s : State), (s.ring e.val).step ≠ .fullAcquisition → exec (.acquisitionComplete e dips) s = .next s) ∧
  (∀ (e : RingId) (dips : List Dip) (d : Dip) (s : State), (s.ring e.val).step = .fullAcquisition → d ∈ dips → 4096 ≤ d.code →
    d.code ≤ 65535 → toneOk (s.ring e.val).pilot.toNat d.amps = true →
    (∀ x ∈ dips, 4096 ≤ x.code → x.code ≤ 65535 → toneOk (s.ring e.val).pilot.toNat x.amps = true → d.code ≤ x.code) →
    ∃ t, exec (.acquisitionComplete e dips) s = .next t ∧ t = { s with rings := t.rings } ∧ (t.ring e.val).state = .locked ∧
      (t.ring e.val).dac.toNat = d.code ∧ t.rings.calCnt = s.rings.calCnt + 1 ∧ (∀ k, k ≠ e.val → t.ring k = s.ring k)) ∧
  (∀ s : State, s.rings.built = true → ∃ t, exec .tableHashCompute s = .next t ∧
    t = { s with rings := { s.rings with hash := digestOf s.hashedTable, hashSeq := s.rings.hashSeq + 1 } }) ∧
  (∀ (f : FieldId) (s : State), s.rings.built = false → exec (.tempEstimate f) s = .next s) ∧
  (∀ (f : FieldId) (n : Nat) (s : State), s.rings.built = true → s.brokenIn (48 + f.val) = 0 →
    n = (s.rings.table.filter fun e => e.2.state == .locked && e.2.kind.toNat ≤ 2 && ringField e.1 == f.val).length → 32 ≤ n → n < 65536 →
    s.err.todo = [] → ∃ t, exec (.tempEstimate f) s = .next t ∧ (Tbl.look {} t.rings.est f.val).valid = true ∧
      (Tbl.look {} t.rings.est f.val).rings.toNat = n ∧ (Tbl.look {} t.rings.est f.val).slope = (Tbl.look {} s.rings.est f.val).slope ∧
      t.rings.table = s.rings.table ∧ (∀ g, g ≠ f.val → Tbl.look {} t.rings.est g = Tbl.look {} s.rings.est g)) ∧
  (∀ (est : Nat → Int) (loop : Tbl Int) (e : Nat) (r : Ring), r.state = .locked →
    ((ringStep est loop [] e r).1.dac.toNat ≤ r.dac.toNat + 64 ∧ r.dac.toNat ≤ (ringStep est loop [] e r).1.dac.toNat + 64))

/-- R289 to R303: the Separator. A doorbell of an enabled ring posts its jobs at the engine; an idle engine takes the next context's turn: a matrix
that is not the context's, or a broken range, ends the job and DONE takes its index plus one; a resident matrix starts it now, and any
other starts a reload, whose weights port 52 brings and whose end makes it resident. A job writes one record per vector, in which a
masked row and every row of an invalid vector read 0x80 and a vector of zeros scores 0; a job of unreadable input faults its
context. A pass masks a faulty weight near zero and retires the row of any other. -/
def Obligations.SeparatorJobsAndPasses : Prop :=
  (∀ (c : CtxId) (s : State), ((s.ctx c.val).resident = false ∨ ringOn (s.ctx c.val).sepRing.toNat = false) →
    exec (.sepDoorbell c) s = .next s) ∧
  (∀ (c : CtxId) (b : List Byte) (g : Nat) (s : State), (s.ctx c.val).resident = true → ringOn (s.ctx c.val).sepRing.toNat = true →
    s.sepRead c.val (ringHeader (s.ctx c.val).sepRing.toNat) 12 = some b → g = (s.ctx c.val).vat.toNat / 2 →
    ∃ t, exec (.sepDoorbell c) s = .next t ∧ t = { s with engines := t.engines } ∧ (∀ h, h ≠ g → t.engine h = s.engine h) ∧
      Tbl.look none (t.engine g).posted c.val =
        (if leNat (b.take 4) = leNat (b.drop 8) then none else some (BitVec.ofNat 32 (leNat (b.take 4))))) ∧
  (∀ (g : HalfId) (s : State), s.err.todo = [] → ((s.engine g.val).mode ≠ .idle ∨ (s.engine g.val).turn = none) →
    exec (.sepJobStart g) s = .next s) ∧
  (∀ (g : HalfId) (c r n st : Nat) (b x : List Byte) (d : BitVec 512) (s : State), (s.engine g.val).mode = .idle →
    (s.engine g.val).turn = some c → s.err.todo = [] → r = (s.ctx c).sepRing.toNat → s.sepRead c (ringHeader r) 12 = some b →
    n = leNat (b.drop 8) → s.sepRead c (slotAddr r n) 64 = some x → d = BitVec.ofNat 512 (leNat x) →
    (((s.matrixCodes c (jobMatrix d)).isNone = true ∧ st = 0x0E02) ∨
     ((s.matrixCodes c (jobMatrix d)).isSome = true ∧ jobSound d = false ∧ st = 0x0E01)) →
    ∃ t, exec (.sepJobStart g) s = .next t ∧ (t.engine g.val).mode = .idle ∧ (t.engine g.val).job = none ∧
      (t.engine g.val).jobCnt = (s.engine g.val).jobCnt + 1 ∧ (t.engine g.val).lastServed = c ∧
      t.sepRead c (ringHeader r + 8 : Nat) 4 = some (leBytes 4 ((n + 1) % 2 ^ 32)) ∧
      (t.recordAt s.err.seqNext).code.toNat = st ∧ (t.recordAt s.err.seqNext).severity = .info ∧ t.ctxs = s.ctxs ∧
      (∀ y, (∀ w k a, (w, k) ∈ [(Int.ofNat (slotAddr r n + 0x2A), 2), (Int.ofNat (slotAddr r n + 0x30), 16),
        (Int.ofNat (ringHeader r + 8), 4)] → s.windowed c w k = some a → y < a ∨ a + k ≤ y) → t.byteAt y = s.byteAt y)) ∧
  (∀ (g : HalfId) (c r n : Nat) (b x : List Byte) (d : BitVec 512) (s : State), (s.engine g.val).mode = .idle →
    (s.engine g.val).turn = some c → s.err.todo = [] → r = (s.ctx c).sepRing.toNat → s.sepRead c (ringHeader r) 12 = some b →
    n = leNat (b.drop 8) → s.sepRead c (slotAddr r n) 64 = some x → d = BitVec.ofNat 512 (leNat x) →
    (s.matrixCodes c (jobMatrix d)).isSome = true → jobSound d = true → (s.engine g.val).matValid = true →
    (s.engine g.val).matCtx.toNat = c → (s.engine g.val).matId = jobMatrix d → ∃ t, exec (.sepJobStart g) s = .next t ∧
      t = { s with engines := t.engines } ∧ (t.engine g.val).mode = .run ∧ (∀ h, h ≠ g.val → t.engine h = s.engine h) ∧
      ∃ j, (t.engine g.val).job = some j ∧ j.ctx = c ∧ j.index = BitVec.ofNat 32 n ∧ j.desc = d ∧ j.start = s.clk.now ∧ j.reloaded = false) ∧
  (∀ (g : HalfId) (c r n : Nat) (b x : List Byte) (d : BitVec 512) (s : State), (s.engine g.val).mode = .idle →
    (s.engine g.val).turn = some c → s.err.todo = [] → r = (s.ctx c).sepRing.toNat → s.sepRead c (ringHeader r) 12 = some b →
    n = leNat (b.drop 8) → s.sepRead c (slotAddr r n) 64 = some x → d = BitVec.ofNat 512 (leNat x) →
    (s.matrixCodes c (jobMatrix d)).isSome = true → jobSound d = true → (s.engine g.val).matValid = false →
    ∃ t, exec (.sepJobStart g) s = .next t ∧ (t.engine g.val).mode = .reload ∧ (t.engine g.val).want = some (c, jobMatrix d) ∧
      (∃ j, (t.engine g.val).job = some j ∧ j.reloaded = true ∧ j.ctx = c) ∧ t.fab.mem = s.fab.mem ∧
      (s.mc.mgmtReset = true → t = { s with engines := t.engines })) ∧
  (∀ (g : HalfId) (p : PortId) (codes : List Byte) (s : State), (p.val ≠ 52 ∨ codes.length ≠ 4096 ∨ (s.engine g.val).mode ≠ .reload) →
    exec (.sepWeightMsg g p codes) s = .next s) ∧
  (∀ (g : HalfId) (p : PortId) (codes : List Byte) (s : State), p.val = 52 → codes.length = 4096 → (s.engine g.val).mode = .reload →
    ∃ t, exec (.sepWeightMsg g p codes) s = .next t ∧ (t.engine g.val).incoming = some codes ∧ (t.engine g.val).mode = .reload ∧
      t = { s with engines := t.engines, fab := { s.fab with mail := t.fab.mail } }) ∧
  (∀ (g : HalfId) (s : State), ((s.engine g.val).mode ≠ .reload ∨ (s.engine g.val).settling = false ∨ (s.engine g.val).want = none) →
    exec (.sepReloadComplete g) s = .next s) ∧
  (∀ (g : HalfId) (c : CtxId) (w : W32) (s : State), (s.engine g.val).mode = .reload → (s.engine g.val).settling = true →
    (s.engine g.val).want = some (c.val, w) → s.faultyWeights g.val = [] → ∃ t, exec (.sepReloadComplete g) s = .next t ∧
      t = { s with engines := t.engines, free := t.free } ∧ (t.engine g.val).matValid = true ∧ (t.engine g.val).matId = w ∧
      (t.engine g.val).matCtx.toNat = c.val ∧ (t.engine g.val).reloadCnt = (s.engine g.val).reloadCnt + 1 ∧
      (t.engine g.val).calCnt = (s.engine g.val).calCnt + 1 ∧ (t.engine g.val).lastCal = s.clk.now ∧
      (t.engine g.val).mode = (if (s.engine g.val).job.isSome then .run else .idle) ∧ (t.engine g.val).want = none) ∧
  (∀ (g : HalfId) (s : State), s.err.todo = [] → (s.engine g.val).mode ≠ .run → exec (.sepJobEnd g) s = .next s) ∧
  (∀ (g : HalfId) (j : SepJob) (xs : List Byte) (a : Nat) (s : State), (s.engine g.val).mode = .run → (s.engine g.val).job = some j →
    s.err.todo = [] → jobVectors j.desc = 1 → jobMode j.desc = 0 → s.sepRead j.ctx (jobIn j.desc 0) 64 = some xs →
    s.windowed j.ctx (jobOut j.desc 0) 64 = some a → ∃ t, exec (.sepJobEnd g) s = .next t ∧ (t.engine g.val).mode = .idle ∧
      (t.engine g.val).job = none ∧ (t.engine g.val).jobCnt = (s.engine g.val).jobCnt + 1 ∧
      (t.engine g.val).vecCnt = (s.engine g.val).vecCnt + 1 ∧ t.err = s.err ∧ t.ctxs = s.ctxs) ∧
  (∀ (g : HalfId) (j : SepJob) (s : State), (s.engine g.val).mode = .run → (s.engine g.val).job = some j → s.err.todo = [] →
    s.err.handlings = [] → jobVectors j.desc = 1 → s.sepRead j.ctx (jobIn j.desc 0) 64 = none → (s.ctx j.ctx).state = .running → j.ctx < 64 →
    ∃ u : State, exec (.sepJobEnd g) s = .next u.finish ∧ (u.ctx j.ctx).state = .faulted ∧ (u.recordAt s.err.seqNext).code = 0x0E03 ∧
      (u.engine g.val).mode = .idle ∧ (u.engine g.val).vecCnt = (s.engine g.val).vecCnt) ∧
  (∀ (e : Engine) (c k n a i : Nat) (d : BitVec 512) (xs : List Byte) (mask : W64) (s : State), jobMode d = 0 →
    s.sepRead c (jobIn d n) 64 = some xs → s.windowed c (jobOut d n) 64 = some a → i < 64 →
    (∀ x ∈ xs, e4m3 x = some 0) →
    (SepRun.vector { st := s } e c k d n mask).st.byteAt (a + i) = (if mask.getLsbD i then 0x80 else 0)) ∧
  (∀ (e : Engine) (c k n a i : Nat) (d : BitVec 512) (xs : List Byte) (mask : W64) (s : State), jobMode d = 0 →
    s.sepRead c (jobIn d n) 64 = some xs → s.windowed c (jobOut d n) 64 = some a → i < 64 → (∃ x ∈ xs, e4m3 x = none) →
    (SepRun.vector { st := s } e c k d n mask).st.byteAt (a + i) = 0x80) ∧
  (∀ (e : Engine) (d : BitVec 512) (k n : Nat) (xs : List Int), ∀ q ∈ (e.scores d k n xs).1, -127 ≤ q ∧ q ≤ 127) ∧
  (∀ (g : HalfId) (l : List (Nat × Int)) (s : State), (s.engine g.val).matValid = false → exec (.sepCalPass g l) s = .next s) ∧
  (∀ (g : HalfId) (i : Nat) (x : Int) (s : State), (s.engine g.val).matValid = true → s.faultyWeights g.val = [i] → i < 4096 →
    ∃ t, exec (.sepCalPass g [(i, x)]) s = .next t ∧ (t.engine g.val).calCnt = (s.engine g.val).calCnt + 1 ∧
      (t.engine g.val).lastCal = s.clk.now ∧ t.fab.mem = s.fab.mem ∧
      (x.natAbs ≤ 1000 → i ∈ (t.engine g.val).weightMasked ∧ (t.recordAt s.err.seqNext).code = 0x0E04) ∧
      (1000 < x.natAbs → (t.engine g.val).rowRetired.getLsbD (i / 64) = true ∧ (t.recordAt s.err.seqNext).code = 0x0E05))

/-- R310, R312 to R319, R323, R324: the HBM controllers. A one-cell load answers its cell with DELAY's bucket; a full-mask store writes its 64
bytes, a partial one exactly its masked bytes, and an atomic its new word in the buffer, which every later reader sees. An
uncorrectable load is answered SOUR and recorded; memory keeps its bytes. A refresh window writes the buffers back and
applies a held scrub period; the scrubber steps through its cells and counts what it finds; a stack without requests enters
self-refresh only during a compute reset. -/
def Obligations.HbmControllers : Prop :=
  (∀ (p : PseudoId) (i h : Nat) (e : Ecc) (s : State), ((Tbl.look [] s.fab.hbmQ p.val)[i]? = none ∨
    (s.stack (hbmStack p.val)).mode ≠ .run ∨ mayServe (Tbl.look [] s.fab.hbmQ p.val) i = false) →
    exec (.hbmRequestService p i h e) s = .next s) ∧
  (∀ (p : PseudoId) (h a : Nat) (r : TReq) (rest : List TReq) (s : State), (s.stack (hbmStack p.val)).mode = .run →
    Tbl.look [] s.fab.hbmQ p.val = r :: rest → Cell.opc r.head = opLD → Cell.pay r.head 8 1 = 1 → a = faLocal (Cell.pay r.head 0 8) →
    s.badIn a 64 = false → s.err.todo = [] → ∃ t, exec (.hbmRequestService p 0 h .clean) s = .next t ∧
      t = ({ s with fab := { s.fab with hbmQ := t.fab.hbmQ } } : State).launch
        (respond r.head opDATA 0 0 (bucketOf h).toNat (s.hbmCell p.val a)) ∧
      Tbl.look [] t.fab.hbmQ p.val = rest ∧ (∀ b, t.byteAt b = s.byteAt b)) ∧
  (∀ (p : PseudoId) (h a : Nat) (r : TReq) (rest : List TReq) (s : State), (s.stack (hbmStack p.val)).mode = .run →
    Tbl.look [] s.fab.hbmQ p.val = r :: rest → Cell.opc r.head = opLD → Cell.pay r.head 8 1 = 1 → a = faLocal (Cell.pay r.head 0 8) →
    a % 64 = 0 → s.badIn a 64 = false → (s.pseudo p.val).buffer = [] → s.err.todo = [] →
    ∃ t, exec (.hbmRequestService p 0 h .uncorrectable) s = .next t ∧ t.hbm.ue = s.hbm.ue + 1 ∧ t.hbm.lastUe.toNat = a % 2 ^ 64 ∧
      (t.recordAt s.err.seqNext).code = 0x0B02 ∧ (t.recordAt s.err.seqNext).severity = .info ∧ t.badIn a 64 = true ∧
      (∀ b, t.byteAt b = s.byteAt b)) ∧
  (∀ (p : PseudoId) (h a : Nat) (r : TReq) (rest : List TReq) (d : BitVec 512) (s : State), (s.stack (hbmStack p.val)).mode = .run →
    Tbl.look [] s.fab.hbmQ p.val = r :: rest → Cell.opc r.head = opST → Cell.pay r.head 8 1 = 1 → a = faLocal (Cell.pay r.head 0 8) →
    r.frags = [(1, d)] → (s.pseudo p.val).buffer = [] → s.badIn a 64 = false → s.err.todo = [] →
    ∃ t, exec (.hbmRequestService p 0 h .clean) s = .next t ∧ Tbl.look [] t.fab.hbmQ p.val = rest ∧
      (∀ i, i < 64 → t.byteAt (a + i) = if bitAt (Cell.pay r.head 16 8) i = true then BitVec.ofNat 8 (bitsAt d.toNat (8 * i) 8)
        else s.byteAt (a + i)) ∧ (∀ b, (b < a ∨ a + 64 ≤ b) → t.byteAt b = s.byteAt b)) ∧
  (∀ (p : PseudoId) (h a c k n : Nat) (r : TReq) (rest : List TReq) (s : State), (s.stack (hbmStack p.val)).mode = .run →
    Tbl.look [] s.fab.hbmQ p.val = r :: rest → Cell.opc r.head = opATOM → a = faLocal (Cell.pay r.head 0 8) → c = a / 64 * 64 →
    k = Cell.pay r.head 8 1 → n = atomWidth k → (s.pseudo p.val).buffer = [] → s.badIn c 64 = false → s.err.todo = [] →
    ∃ t, exec (.hbmRequestService p 0 h .clean) s = .next t ∧ t.fab.mem = s.fab.mem ∧
      t.hbmCell p.val c = putWord (s.cellAt c) (a % 64) n
        (atomNew k (getWord (s.cellAt c) (a % 64) n) (Cell.pay r.head 16 n) (Cell.pay r.head 24 8))) ∧
  (∀ (k : StackId) (s : State), (s.stack k.val).mode ≠ .run → exec (.refreshWindow k) s = .next s) ∧
  (∀ (k : StackId) (p a : Nat) (c : BitVec 512) (s : State), (s.stack k.val).mode = .run → s.hbm.scrubHeld = none → p ∈ stackPseudos k.val →
    (s.pseudo p).buffer = [(a, c)] → (∀ q, q ≠ p → (s.pseudo q).buffer = []) → ∃ t, exec (.refreshWindow k) s = .next t ∧
      (∀ q, (t.pseudo q).buffer = []) ∧ t.cellAt a = c ∧ (∀ b, (b < a ∨ a + 64 ≤ b) → t.byteAt b = s.byteAt b) ∧
      t.hbm.scrubHours = s.hbm.scrubHours) ∧
  (∀ (k : StackId) (h : Byte) (s : State), (s.stack k.val).mode = .run → s.hbm.scrubHeld = some h → (∀ q, (s.pseudo q).buffer = []) →
    ∃ t, exec (.refreshWindow k) s = .next t ∧ (t.stack k.val).scrubHours = h ∧ t.fab = s.fab ∧
      ((∀ j, j < 32 → j ≠ k.val → s.stackIn j = true → (s.stack j).scrubHours = h) → t.hbm.scrubHours = h ∧ t.hbm.scrubHeld = none) ∧
      (∀ j, j < 32 → j ≠ k.val → s.stackIn j = true → (s.stack j).scrubHours ≠ h →
        t.hbm.scrubHours = s.hbm.scrubHours ∧ t.hbm.scrubHeld = some h)) ∧
  (∀ (p : PseudoId) (a : Nat) (s : State), (s.stack (hbmStack p.val)).mode = .run → s.err.todo = [] → (s.pseudo p.val).scrubAt + 1 < 2 ^ 24 →
    a = hbmAddress s.hbm.salt p.val ((s.pseudo p.val).scrubAt / 4) + 64 * ((s.pseudo p.val).scrubAt % 4) → s.badIn a 64 = false →
    exec (.hbmScrubRead p .clean) s = .next (s.onPseudo p.val fun y => { y with scrubAt := y.scrubAt + 1 }) ∧
    ∃ t, exec (.hbmScrubRead p .uncorrectable) s = .next t ∧ t.hbm.ue = s.hbm.ue + 1 ∧ t.hbm.lastUe = BitVec.ofNat 64 a ∧
      (t.stack (hbmStack p.val)).ue = (s.stack (hbmStack p.val)).ue + 1 ∧ (t.recordAt s.err.seqNext).code = 0x0B02 ∧
      (t.pseudo p.val).scrubAt = (s.pseudo p.val).scrubAt + 1 ∧ t.fab.mem = s.fab.mem ∧ t.ctxs = s.ctxs) ∧
  (∀ (p : PseudoId) (a die : Nat) (s : State), (s.stack (hbmStack p.val)).mode = .run → s.err.todo = [] →
    (s.pseudo p.val).scrubAt + 1 < 2 ^ 24 → (s.pseudo p.val).hits = [] → (s.pseudo p.val).ceRecTime = none →
    a = hbmAddress s.hbm.salt p.val ((s.pseudo p.val).scrubAt / 4) + 64 * ((s.pseudo p.val).scrubAt % 4) → s.badIn a 64 = false →
    ∃ t, exec (.hbmScrubRead p (.corrected die)) s = .next t ∧ t = { s with hbm := t.hbm, err := t.err } ∧ t.hbm.ce = s.hbm.ce + 1 ∧
      (t.stack (hbmStack p.val)).ce = (s.stack (hbmStack p.val)).ce + 1 ∧ (t.recordAt s.err.seqNext).code = 0x0B01 ∧
      (t.pseudo p.val).marked = (s.pseudo p.val).marked) ∧
  (∀ (k : StackId) (s : State), s.err.resets = [] → exec (.selfRefreshEnter k) s = .next s) ∧
  (∀ (k : StackId) (time : W64) (s : State), (.compute, time) ∈ s.err.resets → (s.stack k.val).mode = .run → (∀ q, (s.pseudo q).buffer = []) →
    (∀ q, Tbl.look [] s.fab.hbmQ q = []) → ∃ t, exec (.selfRefreshEnter k) s = .next t ∧ (t.stack k.val).mode = .selfRefresh ∧
      t = { s with hbm := t.hbm } ∧ (∀ j, j ≠ k.val → t.stack j = s.stack j))

/-- R331 to R337, R351: how a link comes up and goes down. Training starts from DOWN and MISCABLED; it ends UP with the greatest width its usable
lanes allow and sequence numbers from zero, MISCABLED for its own package id, and DOWN without a lane or at five seconds. A lost lane in use
starts a fast retrain, which keeps the replay buffer and the sequence numbers; one that is not up in time goes DOWN, and its replay
buffer is emptied. The retry timer and LNK_RETRAIN train what is down and retrain what is up; a held field takes effect at
the idle window. -/
def Obligations.LinksTrainAndFall : Prop :=
  (∀ (l : LinkId) (s : State), (s.link l.val).mode ∈ [.down, .miscabled] → exec (.linkTrainingStart l) s = .next
    (s.onLink l.val fun k => { k with mode := .training, trains := k.trains + 1, miscable := 0 })) ∧
  (∀ (l : LinkId) (s : State), (s.link l.val).mode ∉ [.down, .miscabled] → exec (.linkTrainingStart l) s = .next s) ∧
  (∀ (l : LinkId) (o : TrainObs) (s : State), s.err.todo = [] → (s.link l.val).mode ≠ .training → exec (.linkTrainingEnd l o) s = .next s) ∧
  (∀ (l : LinkId) (o : TrainObs) (w u : Nat) (s : State), s.err.todo = [] → (s.link l.val).mode = .training → (s.link l.val).everUp = false →
    (s.link l.val).queue = [] → s.lnk.routes = [] → s.lnk.mismatched = [] → u = (s.link l.val).usable o → w = widthOf (popcount 8 u) → w ≠ 0 →
    s.miscableOf l.val o = 0 → ∃ t, exec (.linkTrainingEnd l o) s = .next t ∧ t = { s with lnk := t.lnk, err := t.err } ∧
      (t.link l.val).mode = .up ∧ (t.link l.val).width.toNat = w ∧ (t.link l.val).lanes.toNat = lowestLanes u w ∧
      (t.link l.val).peerPkg = o.peerPkg ∧ (t.link l.val).peerLink = o.peerLink ∧ (t.link l.val).rtt = o.rttNs ∧
      (t.link l.val).txSeq = 0 ∧ (t.link l.val).rxSeq = 0 ∧ (t.link l.val).replay = (s.link l.val).replay ∧
      t.route o.peerPkg.toNat 0 = (routeWord l.val o.peerPkg.toNat 0 8).toNat ∧ (t.recordAt s.err.seqNext).code = 0x0F01 ∧
      (w < 8 → (t.recordAt (s.err.seqNext + 1)).code = 0x0F02) ∧ (∀ k, k ≠ l.val → t.link k = s.link k)) ∧
  (∀ (l : LinkId) (o : TrainObs) (s : State), s.err.todo = [] → s.err.handlings = [] → (s.link l.val).mode = .training →
    (s.link l.val).usable o ≠ 0 → o.peerPkg = s.fab.pkgId → ∃ t, exec (.linkTrainingEnd l o) s = .next t ∧
      (t.link l.val).mode = .miscabled ∧ (t.link l.val).miscable = 1 ∧ (t.link l.val).width = 0 ∧
      (t.recordAt s.err.seqNext).code = 0x0F05 ∧ (t.recordAt s.err.seqNext).severity = .unit ∧ t.fab.mem = s.fab.mem) ∧
  (∀ (l : LinkId) (c : Instr) (o : TrainObs) (s : State), s.err.todo = [] → s.err.handlings = [] →
    ((c = .linkTrainingTimeout l ∧ (s.link l.val).mode = .training) ∨
      (c = .linkTrainingEnd l o ∧ (s.link l.val).mode = .training ∧ (s.link l.val).usable o = 0) ∨ (c = .linkDown l ∧ (s.link l.val).mode ∈ [.up, .retrain]) ∨
      (c = .fastRetrainEnd l none ∧ (s.link l.val).mode = .retrain)) → ∃ t, exec c s = .next t ∧ (t.link l.val).mode = .down ∧
      (t.link l.val).width = 0 ∧ (t.link l.val).lanes = 0 ∧ (t.link l.val).downs = (s.link l.val).downs + 1 ∧
      ((s.link l.val).mode ≠ .training → (t.link l.val).replay = []) ∧ (t.recordAt s.err.seqNext).code = 0x0F03 ∧
      (t.recordAt s.err.seqNext).severity = .unit ∧ t.fab.mem = s.fab.mem) ∧
  (∀ (l : LinkId) (s : State), (s.link l.val).mode ≠ .training → exec (.linkTrainingTimeout l) s = .next s) ∧
  (∀ (l : LinkId) (s : State), (s.link l.val).mode ∉ [.up, .retrain] → exec (.linkDown l) s = .next s) ∧
  (∀ (l : LinkId) (lane : Fin 8) (s : State), (s.link l.val).lanes.getLsbD lane.val = true → (s.link l.val).mode = .up →
    (s.link l.val).queue = [] → ∃ t, exec (.laneLossOfSignal l lane) s = .next t ∧ t = { s with lnk := { s.lnk with links := t.lnk.links } } ∧
      t.link l.val = { s.link l.val with mode := .retrain, trains := (s.link l.val).trains + 1, failRun := 0 } ∧
      (∀ k, k ≠ l.val → t.link k = s.link k)) ∧
  (∀ (l : LinkId) (lane : Fin 8) (s : State), (s.link l.val).lanes.getLsbD lane.val = false → exec (.laneLossOfSignal l lane) s = .next s) ∧
  (∀ (l : LinkId) (o : TrainObs) (w u : Nat) (s : State), s.err.todo = [] → (s.link l.val).mode = .retrain → (s.link l.val).everUp = true →
    (s.link l.val).queue = [] → s.lnk.routes = [] → s.lnk.mismatched = [] → u = (s.link l.val).usable o → w = widthOf (popcount 8 u) → w ≠ 0 →
    o.peerPkg = (s.link l.val).peerPkg → s.miscableOf l.val o = 0 → ∃ t, exec (.fastRetrainEnd l (some o)) s = .next t ∧
      t = { s with lnk := t.lnk, err := t.err } ∧ (t.link l.val).mode = .up ∧ (t.link l.val).width.toNat = w ∧
      (t.link l.val).replay = (s.link l.val).replay ∧ (t.link l.val).txSeq = (s.link l.val).txSeq ∧
      (t.link l.val).rxSeq = (s.link l.val).rxSeq ∧ (t.recordAt s.err.seqNext).code = 0x0F04 ∧
      (w < (s.link l.val).width.toNat → (t.recordAt (s.err.seqNext + 1)).code = 0x0F02)) ∧
  (∀ (l : LinkId) (o : Option TrainObs) (s : State), s.err.todo = [] → (s.link l.val).mode ≠ .retrain →
    exec (.fastRetrainEnd l o) s = .next s) ∧
  (∀ (l : LinkId) (s : State), (s.link l.val).mode ∈ [.down, .miscabled] → exec (.linkRetryTimer l) s = .next
    (s.onLink l.val fun k => { k with mode := .training, trains := k.trains + 1, miscable := 0 })) ∧
  (∀ (l : LinkId) (s : State), (s.link l.val).mode = .up → (s.link l.val).queue = [] → ∃ t, exec (.linkRetryTimer l) s = .next t ∧
    (t.link l.val).mode = (if s.lnk.autoWiden = true ∧ (s.link l.val).width.toNat < 8 then .retrain else .up) ∧
    (t.link l.val).replay = (s.link l.val).replay ∧ (∀ k, k ≠ l.val → t.link k = s.link k)) ∧
  (∀ (mask : W64) (s : State), (∀ k, (s.link k).queue = []) → ∃ t, exec (.lnkRetrain mask) s = .next t ∧
    t = { s with lnk := { s.lnk with links := t.lnk.links } } ∧
    ∀ l, l < 64 → (t.link l).mode = (if mask.getLsbD l = false then (s.link l).mode else if (s.link l).mode = .up then .retrain
      else if (s.link l).mode ∈ [.down, .miscabled] then .training else (s.link l).mode)) ∧
  (∀ (l : LinkId) (s : State), (s.link l.val).laneHeld = none → (s.link l.val).disableHeld = none → exec (.linkIdleWindow l) s = .next s) ∧
  (∀ (l : LinkId) (m : Byte) (s : State), (s.link l.val).mode = .up → (s.link l.val).queue = [] → (s.link l.val).laneHeld = some m → m ≠ 0 →
    (s.link l.val).disableHeld = none → (s.link l.val).disable = false → ∃ t, exec (.linkIdleWindow l) s = .next t ∧
      (t.link l.val).laneMask = m ∧ (t.link l.val).laneHeld = none ∧
      (t.link l.val).mode = (if m = (s.link l.val).laneMask then .up else .retrain) ∧ (∀ k, k ≠ l.val → t.link k = s.link k))

/-- R330, R338 to R343, R345, R346: what crosses a link. A group in order is taken and its cells reach the hub; one that failed its CRC is counted and
one out of order is discarded. An acknowledgement frees the replay buffer through its group; a NAK replays, and the ninth in a row for one
group starts a fast retrain. An entry's effective weight is its weight times the width of its path while the link is up to VIA.
Notices are kept and expire to zero; a hub sends its own as one message. A response in transit without a path is dropped
and counted, a request is answered; a partial message is discarded. -/
def Obligations.LinkCellsAndRoutes : Prop :=
  (∀ (l : LinkId) (q : BitVec 12) (ok : Bool) (cs : List Cell) (s : State), ((s.link l.val).mode ≠ .up ∨ (ok = true ∧ q ≠ (s.link l.val).rxSeq)) →
    exec (.linkGroupReceive l q ok cs) s = .next s) ∧
  (∀ (l : LinkId) (q : BitVec 12) (cs : List Cell) (s : State), (s.link l.val).mode = .up → exec (.linkGroupReceive l q false cs) s =
    .next (s.onLink l.val fun k => { k with crcErr := k.crcErr + 1 })) ∧
  (∀ (l : LinkId) (c : Cell) (p : Nat) (s : State), (s.link l.val).mode = .up → Cell.opc c ∈ [opLD, opATOM] → Cell.cls c ≠ 3 →
    Cell.dpkg c = s.fab.pkgId.toNat → s.filtered c = false → s.hubPort (l.val / 16) c = some p → s.severedPair (48 + l.val / 16) p = false →
    exec (.linkGroupReceive l (s.link l.val).rxSeq true [c]) s =
      .next ((s.onLink l.val fun k => { k with rxSeq := k.rxSeq + 1 }).fly (Cell.withDport c p))) ∧
  (∀ (l : LinkId) (q : BitVec 12) (s : State), (∀ e ∈ (s.link l.val).replay, e.1 ≠ q) →
    exec (.linkAck l q) s = .next s ∧ exec (.linkNak l q) s = .next s) ∧
  (∀ (l : LinkId) (q : BitVec 12) (cs : List Cell) (pre rest : List (BitVec 12 × List Cell)) (s : State),
    (s.link l.val).replay = pre ++ (q, cs) :: rest → (∀ e ∈ pre, e.1 ≠ q) → (s.link l.val).queue = [] →
    ∃ t, exec (.linkAck l q) s = .next t ∧ t = { s with lnk := { s.lnk with links := t.lnk.links } } ∧
      t.link l.val = { s.link l.val with replay := rest, failRun := 0 } ∧ (∀ k, k ≠ l.val → t.link k = s.link k)) ∧
  (∀ (l : LinkId) (q : BitVec 12) (s : State), (s.link l.val).mode = .up → (∃ e ∈ (s.link l.val).replay, e.1 = q) →
    (s.link l.val).queue = [] → ∃ t, exec (.linkNak l q) s = .next t ∧ (t.link l.val).replay = (s.link l.val).replay ∧
      (((s.link l.val).failSeq ≠ q ∨ (s.link l.val).failRun < 8) → (t.link l.val).mode = .up ∧
        (t.link l.val).replays = (s.link l.val).replays + 1 ∧ (t.link l.val).failSeq = q ∧
        (t.link l.val).failRun = (if (s.link l.val).failSeq = q then (s.link l.val).failRun + 1 else 1)) ∧
      ((s.link l.val).failSeq = q → 8 ≤ (s.link l.val).failRun → (t.link l.val).mode = .retrain)) ∧
  (∀ (d j w : Nat) (s : State), w = s.route d j → d ≠ s.fab.pkgId.toNat → (s.link (routeLink w)).mode = .up →
    (s.link (routeLink w)).peerPkg.toNat = routeVia w → (s.link (routeLink w)).width.toNat ≤ 8 → s.routeEff d j ≤ 120 ∧
      s.routeEff d j = routeWeight w * (if routeVia w = d then (s.link (routeLink w)).width.toNat
        else min (s.link (routeLink w)).width.toNat (s.reported (routeVia w) d))) ∧
  (∀ (d j : Nat) (s : State), ((s.link (routeLink (s.route d j))).mode ≠ .up ∨
    (s.link (routeLink (s.route d j))).peerPkg.toNat ≠ routeVia (s.route d j)) → s.routeEff d j = 0) ∧
  (∀ (p : PkgId) (b : List Byte) (s : State), ∃ t, exec (.linkStateNotice p b) s = .next t ∧ Tbl.look [] t.lnk.notices p.val = b ∧
    t = { s with lnk := { s.lnk with notices := t.lnk.notices }, fab := { s.fab with mail := t.fab.mail } } ∧
    (∀ k, k ≠ p.val → Tbl.look [] t.lnk.notices k = Tbl.look [] s.lnk.notices k)) ∧
  (∀ (p : PkgId) (s : State), ∃ t, exec (.noticeExpire p) s = .next t ∧ t = { s with lnk := { s.lnk with notices := t.lnk.notices } } ∧
    (∀ d, t.reported p.val d = 0) ∧ (∀ k d, k ≠ p.val → t.reported k d = s.reported k d)) ∧
  (∀ (hub : Fin 4) (s : State), (∀ l, l < 64 → l / 16 = hub.val → (s.link l).mode ≠ .up) → exec (.linkStateNoticeSend hub) s = .next s) ∧
  (∀ (hub : Fin 4) (l : LinkId) (s : State), l.val / 16 = hub.val → (s.link l.val).mode = .up →
    (∀ k, k < 64 → k / 16 = hub.val → k ≠ l.val → (s.link k).mode ≠ .up) → (s.link l.val).replay = [] → ∃ t o,
      exec (.linkStateNoticeSend hub) s = .next t ∧ t.fab.ops = s.fab.ops ++ [o] ∧ o.port = 48 + hub.val ∧ o.issuer = .controller ∧
      (t.link l.val).replay.map (fun e => e.2.head?) = o.cells.map some ∧ t.fab.mem = s.fab.mem ∧ t.err = s.err) ∧
  (∀ (l : LinkId) (c : Cell) (s : State), ((s.link l.val).mode ≠ .up ∨ Cell.dpkg c = s.fab.pkgId.toNat ∨ opListed (Cell.opc c) = false) →
    exec (.transitCell l c) s = .next s) ∧
  (∀ (l : LinkId) (c : Cell) (s : State), (s.link l.val).mode = .up → Cell.dpkg c ≠ s.fab.pkgId.toNat → opIsResponse (Cell.opc c) = true →
    s.transitEntries (Cell.dpkg c) = [] → ∃ t, exec (.transitCell l c) s = .next t ∧ t.lnk.transitDrop = s.lnk.transitDrop + 1 ∧
      t.fab = s.fab ∧ (s.lnk.transitRecTime = none → (t.recordAt s.err.seqNext).code = 0x0F07)) ∧
  (∀ (l : LinkId) (c : Cell) (s : State), (s.link l.val).mode = .up → Cell.dpkg c ≠ s.fab.pkgId.toNat → Cell.opc c ∈ [opLD, opST, opATOM, opMSG] →
    Cell.cls c ≠ 0 → s.transitEntries (Cell.dpkg c) = [] → exec (.transitCell l c) s = .next (s.launchAll (sourAnswers c .unreachable))) ∧
  (∀ (l : LinkId) (c : Cell) (j : Nat) (s : State), (s.link l.val).mode = .up → Cell.dpkg c ≠ s.fab.pkgId.toNat → opListed (Cell.opc c) = true →
    s.transitEntries (Cell.dpkg c) = [j] → ∃ t, exec (.transitCell l c) s = .next t ∧
      t = ({ s with lnk := { s.lnk with credit := t.lnk.credit } } : State).sendLink (routeLink (s.route (Cell.dpkg c) j)) c) ∧
  (∀ (hub : Fin 4) (p : PkgId) (c : CtxId) (tag : W16) (s : State), ∃ t, exec (.reassemblyTimeout hub p c tag) s = .next t ∧
    t = { s with fab := { s.fab with asm := t.fab.asm } } ∧
    (∀ a, a ∈ t.fab.asm ↔ a ∈ s.fab.asm ∧ ¬(a.port = 64 + hub.val ∧ a.pkg = p.val ∧ (a.ctx = c.val ∨ a.ctx = 64) ∧ a.tag = tag)))

/-- R355, R356, R358 to R360, R366, R367: the modules. A seated module starts acceptance while the light controller runs; a failed step rejects it, and
an accepted spare stands by with its powers commissioned. A sample gives each line its mean and the module its level, which rises at −2, −3, −4
and −10 dB and falls only 0.5 dB above; the first level alarms and queues a scheduled swap. Telemetry is read outside a management
reset. Extraction of a cage that feeds nothing empties it; a sector without its source is dark, as are its memory ports, until a
source relights it. -/
def Obligations.LaserModulesAndFade : Prop :=
  (∀ (m : CageId) (s : State), s.inv.cages.getLsbD m.val = true → exec (.cagePresence m) s = .next s) ∧
  (∀ (m : CageId) (s : State), s.inv.cages.getLsbD m.val = false → ∃ t, exec (.cagePresence m) s = .next t ∧
    t = { s with inv := { s.inv with cages := t.inv.cages }, las := { s.las with cages := t.las.cages } } ∧
    t.inv.cages.getLsbD m.val = true ∧ (t.cage m.val).latchOpen = false ∧
    (t.cage m.val).mode = (if s.lightRuns then .accepting else (s.cage m.val).mode)) ∧
  (∀ (m : CageId) (o : AcceptObs) (s : State), (s.cage m.val).mode ≠ .accepting → exec (.acceptanceComplete m o) s = .next s) ∧
  (∀ (m : CageId) (o : AcceptObs) (n : Nat) (s : State), (s.cage m.val).mode = .accepting → AcceptObs.failed o = some n →
    ∃ t, exec (.acceptanceComplete m o) s = .next t ∧ t = { s with las := { s.las with cages := t.las.cages }, err := t.err } ∧
      (t.cage m.val).mode = .rejected ∧ (t.cage m.val).lit = false ∧ (t.recordAt s.err.seqNext).code = 0x1005 ∧
      (t.recordAt s.err.seqNext).details = [BitVec.ofNat 64 m.val, BitVec.ofNat 64 n]) ∧
  (∀ (m : CageId) (o : AcceptObs) (s : State), (s.cage m.val).mode = .accepting → AcceptObs.failed o = none → 16 ≤ m.val →
    s.fedBy m.val = none → s.las.dark = 0 → s.err.todo = [] → (Tbl.look {} s.fru.commissioned m.val).serial ≠ o.serial →
    ∃ t, exec (.acceptanceComplete m o) s = .next t ∧
      t = { s with las := { s.las with cages := t.las.cages }, fru := { s.fru with commissioned := t.fru.commissioned } } ∧
      (t.cage m.val).mode = .standby ∧ (t.cage m.val).lit = true ∧ (t.cage m.val).level = 0 ∧
      (∀ n, n < 32 → Tbl.look 0 (t.cage m.val).ref n = o.powers.getD n 0) ∧ (Tbl.look {} t.fru.commissioned m.val).serial = o.serial ∧
      (Tbl.look {} t.fru.commissioned m.val).powers = o.powers) ∧
  (∀ (m : CageId) (p : List Int) (s : State), s.err.todo = [] → (s.lightRuns = false ∨ (s.cage m.val).lit = false) →
    exec (.linePowerSample m p) s = .next s) ∧
  (∀ (m : CageId) (p : List Int) (s : State), s.err.todo = [] → s.lightRuns = true → (s.cage m.val).lit = true → s.fedBy m.val = none →
    ∃ t, exec (.linePowerSample m p) s = .next t ∧ (t.cage m.val).mode = (s.cage m.val).mode ∧
      (∀ n, n < 32 → Tbl.look 0 (t.cage m.val).line n = meanUp ((p.getD n 0 :: Tbl.look [] (s.cage m.val).taps n).take 10)) ∧
      (t.cage m.val).level = fadeLevel (s.cage m.val).level (t.cage m.val).worstDelta ∧ t.las.queue = s.las.queue ∧
      ((s.cage m.val).level = 0 → 0 < (t.cage m.val).level → (t.recordAt s.err.seqNext).code = 0x1001)) ∧
  (∀ (m : CageId) (k : HalfId) (p : List Int) (s : State), s.err.todo = [] → s.lightRuns = true → (s.cage m.val).lit = true →
    s.fedBy m.val = some k.val → (s.sector k.val).swap = none → s.las.queue = [] → (s.cage m.val).level = 0 → (s.cage m.val).lowLines = 0 →
    ((s.cage m.val).sample p).level = 1 → ∃ t, exec (.linePowerSample m p) s = .next t ∧ (t.cage m.val).level = 1 ∧
      t.las.queue = [{ sector := k.val, kind := .scheduled, source := m.val, due := false }] ∧ t.rings = s.rings) ∧
  (∀ w : Int, fadeLevel 0 w = if w ≤ -1000 then 4 else if w ≤ -400 then 3 else if w ≤ -300 then 2 else if w ≤ -200 then 1 else 0) ∧
  (∀ (old : Nat) (w : Int), 1 ≤ old → old ≤ 4 → fadeLevel old w < old → fadeAt.getD (old - 1) 0 + 50 ≤ w) ∧
  (∀ (m : CageId) (a f : Bool) (x : Int) (s : State), s.mc.mgmtReset = true → s.err.todo = [] →
    exec (.laserTelemetry m a x f) s = .next s) ∧
  (∀ (m : CageId) (f : Bool) (x : Int) (s : State), s.mc.mgmtReset = false → s.lightRuns = true → (s.cage m.val).lit = true →
    s.fedBy m.val = none → ∃ u : State, exec (.laserTelemetry m true x f) s = .next u.finish ∧ (u.cage m.val).temp = BitVec.ofInt 8 x ∧
      (u.cage m.val).missed = 0 ∧ (u.cage m.val).expedite = (decide (75 < x) || f) ∧ u.las.queue = s.las.queue) ∧
  (∀ (m : CageId) (f : Bool) (x : Int) (s : State), s.mc.mgmtReset = false → s.lightRuns = true → (s.cage m.val).lit = true →
    s.fedBy m.val = none → s.err.todo = [] → ∃ t, exec (.laserTelemetry m false x f) s = .next t ∧
      t = { s with las := { s.las with cages := t.las.cages } } ∧ (t.cage m.val).missed = (s.cage m.val).missed + 1 ∧
      (9 ≤ (s.cage m.val).missed → (t.cage m.val).expedite = true)) ∧
  (∀ (m : CageId) (s : State), s.inv.cages.getLsbD m.val = false → exec (.cageExtract m) s = .next s) ∧
  (∀ (m : CageId) (s : State), s.inv.cages.getLsbD m.val = true → s.fedBy m.val = none → s.err.todo = [] →
    (∀ k, (s.sector k).swap = none) → ∃ t, exec (.cageExtract m) s = .next t ∧ t.inv.cages.getLsbD m.val = false ∧
      (t.cage m.val).mode = .empty ∧ (t.cage m.val).lit = false ∧
      t = { s with inv := { s.inv with cages := t.inv.cages }, las := { s.las with cages := t.las.cages } }) ∧
  (∀ (k : HalfId) (s : State), (s.sector k.val).source = none → exec (.lasSectorDark k) s = .next s) ∧
  (∀ (k : HalfId) (m : CageId) (c : Instr) (s : State), (s.sector k.val).source = some m.val → (s.sector k.val).swap = none →
    (c = .lasSectorDark k ∨ (c = .cageExtract m ∧ s.inv.cages.getLsbD m.val = true ∧ s.fedBy m.val = some k.val ∧
      ∀ j, (s.sector j).swap = none)) →
    s.dieIn (k.val / 2) = false → s.err.handlings = [] → s.err.todo = [] → (∀ i, i < 4 → (s.link (4 * k.val + i)).mode = .down) →
    s.isDark (16 + 2 * k.val) = false → s.isDark (17 + 2 * k.val) = false → s.ethAlive = false → ∃ t, exec c s = .next t ∧
      (t.sector k.val).source = none ∧ t.las.dark.getLsbD k.val = true ∧ (t.recordAt s.err.seqNext).code = 0x1006 ∧
      (t.recordAt s.err.seqNext).severity = .unit ∧ t.isDark (16 + 2 * k.val) = true ∧ t.isDark (17 + 2 * k.val) = true ∧
      t.stackIn (2 * k.val) = false ∧ t.stackIn (2 * k.val + 1) = false ∧ t.fab.mem = s.fab.mem) ∧
  (∀ (k : HalfId) (m : Nat) (s : State), (s.cage m).lowLines = 0 → ((s.relightSector k.val m).sector k.val).source = some m ∧
    (s.relightSector k.val m).las.dark.getLsbD k.val = false ∧ (s.relightSector k.val m).isDark (16 + 2 * k.val) = false ∧
    ((s.relightSector k.val m).cage m).mode = .active)

/-- R361, R362, R364, R365, R368: swaps. A scheduled swap whose delay is over begins on the lowest eligible spare and verifies it; without one the
source stays and LAS_NO_SPARE says so. A verified target arms; one that cannot be verified is OUT. At the crossfade's end the sector runs on its
target, and the confirmation counts the swap, records it and holds the old source OUT, or in STANDBY after a RETURN. A release of a feeding cage
arms an EMERGENCY swap at once; a release of any other cage only switches it off, and a latch closed again starts acceptance. -/
def Obligations.LightSwaps : Prop :=
  (∀ (k : HalfId) (e : SwapReq) (c : Instr) (s : State), s.err.todo = [] → s.las.queue = [e] → e.sector = k.val → (s.sector k.val).swap = none →
    s.targets = [] → s.fit 16 = true → e.source ≠ 16 → ((c = .scheduledSwapDue k ∧ e.kind = .scheduled) ∨
      (c = .swapBegin k ∧ e.due = true ∧ e.kind ∈ [.emergency, .expedited, .scheduled])) →
    ∃ t, exec c s = .next t ∧ t = { s with las := t.las } ∧ t.las.queue = [] ∧ (t.sector k.val).source = (s.sector k.val).source ∧
      (t.sector k.val).swap = some { kind := e.kind, source := e.source, target := 16,
                                     phase := if e.kind = .emergency then .armed else .verifying } ∧
      (∀ j, j ≠ k.val → t.sector j = s.sector j) ∧ t.las.cages = s.las.cages) ∧
  (∀ (k : HalfId) (s : State), s.err.todo = [] → s.las.queue = [] → exec (.swapBegin k) s = .next s ∧ exec (.scheduledSwapDue k) s = .next s) ∧
  (∀ (k : HalfId) (e : SwapReq) (s : State), s.err.todo = [] → s.err.handlings = [] → s.las.queue = [e] → e.sector = k.val → e.due = true →
    e.kind ≠ .ret → e.source < 16 → (s.sector k.val).swap = none → s.targets = [] → (∀ m, 16 ≤ m → m < 20 → s.fit m = false) →
    (∀ j, (s.sector j).swap = none) → s.las.noSpare.getLsbD k.val = false → ∃ t, exec (.swapBegin k) s = .next t ∧
      (t.recordAt s.err.seqNext).code = 0x1004 ∧ (t.recordAt s.err.seqNext).severity = .unit ∧ t.las.queue = [e] ∧
      t.las.noSpare.getLsbD k.val = true ∧ t.sector k.val = s.sector k.val ∧ t.las.cages = s.las.cages) ∧
  (∀ (k : HalfId) (x : Swap) (s : State), (s.sector k.val).swap = some x → x.phase = .verifying → ∃ t, exec (.swapTargetVerified k) s = .next t ∧
    t = { s with las := { s.las with sectors := t.las.sectors } } ∧
    t.sector k.val = { s.sector k.val with swap := some { x with phase := .armed } } ∧ (∀ j, j ≠ k.val → t.sector j = s.sector j)) ∧
  (∀ (k : HalfId) (s : State), s.phaseIs k.val .verifying = false → s.err.todo = [] → exec (.swapTargetVerified k) s = .next s ∧
    exec (.swapVerifyTimeout k) s = .next s) ∧
  (∀ (k : HalfId) (x : Swap) (s : State), (s.sector k.val).swap = some x → x.phase = .verifying → x.kind = .ret → s.err.todo = [] →
    ∃ t, exec (.swapVerifyTimeout k) s = .next t ∧ t = { s with las := t.las, err := t.err } ∧ (t.cage x.target).mode = .out ∧
      t.sector k.val = { s.sector k.val with swap := none } ∧ (t.recordAt s.err.seqNext).code = 0x1003 ∧ t.las.queue = s.las.queue) ∧
  (∀ (k : HalfId) (s : State), s.phaseIs k.val .crossfade = false → exec (.crossfadeEnd k) s = .next s) ∧
  (∀ (k : HalfId) (x : Swap) (s : State), (s.sector k.val).swap = some x → x.phase = .crossfade → s.err.todo = [] →
    (s.cage x.target).mode ≠ .released → (s.cage x.source).lowLines = (s.cage x.target).lowLines → ∃ t, exec (.crossfadeEnd k) s = .next t ∧
      t = { s with las := t.las } ∧ t.sector k.val = { source := some x.target, swap := some { x with phase := .confirming } } ∧
      (t.cage x.target).mode = .active ∧ (∀ j, j ≠ k.val → t.sector j = s.sector j)) ∧
  (∀ (k : HalfId) (s : State), s.phaseIs k.val .confirming = false → exec (.swapConfirm k) s = .next s) ∧
  (∀ (k : HalfId) (x : Swap) (s : State), (s.sector k.val).swap = some x → x.phase = .confirming → ∃ t, exec (.swapConfirm k) s = .next t ∧
    t = { s with las := t.las, err := t.err } ∧ t.sector k.val = { s.sector k.val with swap := none } ∧
    t.las.swapCnt = s.las.swapCnt + 1 ∧ t.las.emergCnt = (if x.kind = .emergency then s.las.emergCnt + 1 else s.las.emergCnt) ∧
    ((s.cage x.source).mode = .active → (t.cage x.source).mode = (if x.kind = .ret then .standby else .out)) ∧
    ((s.cage x.source).mode = .released → (t.cage x.source).lit = false) ∧
    (t.recordAt s.err.seqNext).code = 0x1002 ∧ (t.recordAt s.err.seqNext).severity = .corrected) ∧
  (∀ (m : CageId) (s : State), s.err.todo = [] → (s.cage m.val).mode ∈ [.active, .standby, .out, .accepting] → s.inUse m.val = false →
    ∃ t, exec (.latchRelease m) s = .next t ∧ t = { s with las := { s.las with cages := t.las.cages } } ∧
      (t.cage m.val).mode = .released ∧ (t.cage m.val).latchOpen = true ∧ (t.cage m.val).lit = false ∧
      (∀ j, j ≠ m.val → t.cage j = s.cage j)) ∧
  (∀ (m : CageId) (k : HalfId) (s : State), s.err.todo = [] → (s.cage m.val).mode = .active → s.fedBy m.val = some k.val →
    (s.sector k.val).swap = none → s.las.queue = [] → s.targets = [] → s.fit 16 = true → ∃ t, exec (.latchRelease m) s = .next t ∧
      (t.cage m.val).mode = .released ∧ (t.cage m.val).lit = (s.cage m.val).lit ∧ (t.sector k.val).source = some m.val ∧
      (t.sector k.val).swap = some { kind := .emergency, source := m.val, target := 16, phase := .armed } ∧ t = { s with las := t.las }) ∧
  (∀ (m : CageId) (s : State), s.inv.cages.getLsbD m.val = true → s.lightRuns = true → (s.cage m.val).mode = .released →
    ∃ t, exec (.latchClose m) s = .next t ∧ (t.cage m.val).mode = .accepting ∧ (t.cage m.val).latchOpen = false ∧
      t = { s with las := { s.las with cages := t.las.cages } }) ∧
  (∀ (m : CageId) (s : State), (s.cage m.val).mode ∉ [.released, .empty] → exec (.latchClose m) s =
    .next (s.onCage m.val fun x => { x with latchOpen := false }))

/-- R423 to R425, R427 to R434: the host port. Training brings a live port up at the speed that its usable lanes and MODE allow; a lane's loss
narrows, retrains or drops it, and a retry starts training. Other frames are dropped and counted. A request on a READY pair is translated
and issued as a store or a load from port 52, a SEND into its ring's next slot; a wrong key, an unsupported operation and a full ring are
answered with their NAK, and a pair that is not READY ignores requests. A message whose cells are done is acknowledged, a
failed one answered by NAK with a record. Notifications halve and double the pair's rate. -/
def Obligations.HostPortAndQueuePairs : Prop :=
  (∀ (g : Byte) (s : State), s.err.todo = [] → (s.ethAlive = false ∨ s.eth.mode = .up) → exec (.ethLinkTrain g) s = .next s) ∧
  (∀ (g : Byte) (w : Nat) (s : State), s.err.todo = [] → s.ethAlive = true → s.eth.mode ≠ .up →
    w = Ethernet.wanted { s.eth with signal := g } → w ≠ 0 → ∃ t, exec (.ethLinkTrain g) s = .next t ∧
      t = { s with eth := { s.eth with signal := g, mode := .up, speed := BitVec.ofNat 2 w, retraining := false }, err := t.err } ∧
      (t.recordAt s.err.seqNext).code = 0x0602 ∧ (t.recordAt s.err.seqNext).severity = .info) ∧
  (∀ (g : Byte) (s : State), s.err.todo = [] → s.ethAlive = true → s.eth.mode ≠ .up → s.eth.retraining = false →
    Ethernet.wanted { s.eth with signal := g } = 0 →
    exec (.ethLinkTrain g) s = .next { s with eth := { s.eth with signal := g, mode := .down, speed := 0 } }) ∧
  (∀ e : Ethernet, (e.wanted = 1 ↔ e.usable = 255 ∧ e.cfgMode ≠ 2) ∧
    (e.wanted = 2 ↔ e.usable.toNat % 16 = 15 ∧ e.cfgMode ≠ 1 ∧ (e.usable = 255 → e.cfgMode = 2)) ∧ e.wanted ≤ 2) ∧
  (∀ (g : Byte) (s : State), s.eth.mode ≠ .down → exec (.ethRetry g) s = .next s) ∧
  (∀ (g : Byte) (s : State), s.eth.mode = .down → s.ethAlive = true → exec (.ethRetry g) s = .next
    { s with eth := { s.eth with signal := g, mode := if Ethernet.wanted { s.eth with signal := g } = 0 then .down else .training } }) ∧
  (∀ (l : Fin 8) (b : Bool) (e : Ethernet) (s : State), s.err.todo = [] → s.err.handlings = [] → s.ethAlive = true → s.eth.mode = .up →
    e = { s.eth with signal := bvSet s.eth.signal l.val b } → ∃ t, exec (.ethLaneChange l b) s = .next t ∧ t.fab = s.fab ∧ t.ctxs = s.ctxs ∧
      t.eth.signal.getLsbD l.val = b ∧ (e.wanted = s.eth.speed.toNat → t = { s with eth := e }) ∧
      (e.wanted ≠ s.eth.speed.toNat → e.wanted = 0 → t.eth.mode = .down ∧ t.eth.speed = 0 ∧
        (t.recordAt s.err.seqNext).code = 0x0601 ∧ (t.recordAt s.err.seqNext).severity = .unit) ∧
      (e.wanted ≠ s.eth.speed.toNat → e.wanted ≠ 0 → t.eth.mode = .training ∧ t.eth.speed = 0 ∧
        (e.wanted = 2 → (t.recordAt s.err.seqNext).code = 0x0603))) ∧
  (∀ (k : NetFrame) (s : State), s.eth.mode = .up → exec (.networkFrame k) s = .next (if k = .other then
    { s with eth := { s.eth with rxDrop := s.eth.rxDrop + 1 } } else { s with eth := { s.eth with tx := s.eth.tx ++ [.net k] } })) ∧
  (∀ (k : NetFrame) (b : Byte) (s : State), s.eth.mode ≠ .up → exec (.networkFrame k) s = .next s ∧ exec (.pfcPauseFrame b) s = .next s) ∧
  (∀ (b : Byte) (s : State), s.eth.mode = .up → exec (.pfcPauseFrame b) s = .next
    { s with eth := { s.eth with pfcRx := s.eth.pfcRx + 1, paused := b &&& BitVec.ofNat 8 (bitsAt s.eth.cfg.toNat 8 8) } }) ∧
  (∀ (q : QpId) (psn : BitVec 24) (key : W32) (va : W64) (n : Nat) (bytes : List Byte) (s : State), (s.qp q.val).state ≠ .ready →
    exec (.rdmaWrite q psn key va bytes false) s = .next s ∧ exec (.rdmaRead q psn key va n false) s = .next s ∧
    exec (.send q psn bytes false) s = .next s ∧ exec (.roceUnsupportedOp q psn) s = .next s) ∧
  (∀ (q : QpId) (psn : BitVec 24) (key : W32) (va : W64) (bytes : List Byte) (s : State), (s.qp q.val).state = .error → s.eth.mode = .up →
    (s.qp q.val).cnpTime = none → ∃ t, exec (.rdmaWrite q psn key va bytes true) s = .next t ∧ t.eth.tx = s.eth.tx ++ [.cnp q.val] ∧
      t.eth.cnpTx = s.eth.cnpTx + 1 ∧ t.qp q.val = { s.qp q.val with cnpTime := some s.clk.now } ∧ t.fab = s.fab) ∧
  (∀ (q : QpId) (psn : BitVec 24) (key : W32) (va : W64) (n : Nat) (bytes : List Byte) (c : Instr) (x : HostTx) (s : State),
    (s.qp q.val).state = .ready → s.eth.mode = .up → bytes.length ≤ 2 ^ 30 → n ≤ 2 ^ 30 →
    ((c = .rdmaWrite q psn key va bytes false ∧ (s.qp q.val).rkey ≠ key ∧ x = .nakAccess q.val psn) ∨
     (c = .rdmaRead q psn key va n false ∧ (s.qp q.val).rkey ≠ key ∧ x = .nakAccess q.val psn) ∨
     (c = .send q psn bytes false ∧ 64 * (s.qp q.val).slotSize.toNat < bytes.length + 16 ∧ x = .nakInvalid q.val psn) ∨
     (c = .roceUnsupportedOp q psn ∧ x = .nakInvalid q.val psn)) →
    ∃ t, exec c s = .next t ∧ t.eth.tx = s.eth.tx ++ [x] ∧ (t.qp q.val).state = .error ∧ (t.qp q.val).msgs = [] ∧ t.fab = s.fab ∧
      t.ctxs = s.ctxs ∧ t.err = s.err ∧ (∀ k, k ≠ q.val → t.qp k = s.qp k)) ∧
  (∀ (q : QpId) (psn : BitVec 24) (key : W32) (va : W64) (bytes : List Byte) (fa p : Nat) (s : State), (s.qp q.val).state = .ready →
    s.eth.mode = .up → (s.qp q.val).rkey = key → (s.qp q.val).msgs = [] → 0 < (s.qp q.val).credit.toNat → 0 < bytes.length →
    va.toNat % 64 + bytes.length ≤ 64 → s.translate (s.qp q.val).ctx.toNat (64 * (va.toNat / 64)) rightW true = some fa →
    s.routeOf 52 fa = .ok p → ∃ t m o, exec (.rdmaWrite q psn key va bytes false) s = .next t ∧ (t.qp q.val).msgs = [m] ∧ m.psn = psn ∧
      m.issued = true ∧ m.left = 1 ∧ m.isRead = false ∧ m.data = bytes ∧ t.fab.ops = s.fab.ops ++ [o] ∧ o.issuer = .rdmaWrite q.val m.id ∧
      o.port = 52 ∧ o.addr = BitVec.ofNat 64 fa ∧ t.eth.tx = s.eth.tx ∧ (∀ b, t.byteAt b = s.byteAt b)) ∧
  (∀ (q : QpId) (psn : BitVec 24) (key : W32) (va : W64) (n fa p : Nat) (s : State), (s.qp q.val).state = .ready →
    s.eth.mode = .up → (s.qp q.val).rkey = key → (s.qp q.val).msgs = [] → 0 < (s.qp q.val).credit.toNat → 0 < n →
    va.toNat % 64 + n ≤ 64 → s.translate (s.qp q.val).ctx.toNat (64 * (va.toNat / 64)) rightR true = some fa →
    s.routeOf 52 fa = .ok p → ∃ t m o, exec (.rdmaRead q psn key va n false) s = .next t ∧ (t.qp q.val).msgs = [m] ∧ m.psn = psn ∧
      m.issued = true ∧ m.left = 1 ∧ m.isRead = true ∧ m.length = n ∧ t.fab.ops = s.fab.ops ++ [o] ∧ o.issuer = .rdmaRead q.val m.id 0 ∧
      o.port = 52 ∧ o.addr = BitVec.ofNat 64 fa ∧ t.eth.tx = s.eth.tx ∧ (∀ b, t.byteAt b = s.byteAt b)) ∧
  (∀ (q : QpId) (psn : BitVec 24) (bytes : List Byte) (a : W64) (fb fa p n : Nat) (s : State), (s.qp q.val).state = .ready →
    s.eth.mode = .up → (s.qp q.val).msgs = [] → 0 < (s.qp q.val).credit.toNat → bytes.length + 16 ≤ 64 * (s.qp q.val).slotSize.toNat →
    s.translate (s.qp q.val).ctx.toNat (s.qp q.val).ringBase.toNat rightR true = some fb → faPkg fb = s.fab.pkgId.toNat →
    n = (s.qp q.val).sendSeq.toNat → n < leNat (s.localBytes (faLocal fb) 8) + (s.qp q.val).slots.toNat →
    a = (s.qp q.val).ringBase + BitVec.ofNat 64 (64 + 64 * (s.qp q.val).slotSize.toNat * (n % (s.qp q.val).slots.toNat)) →
    (s.qp q.val).slots ≠ 0 → a.toNat % 64 + (bytes.length + 16) ≤ 64 →
    s.translate (s.qp q.val).ctx.toNat (64 * (a.toNat / 64)) rightW true = some fa → s.routeOf 52 fa = .ok p →
    ∃ t m o, exec (.send q psn bytes false) s = .next t ∧ (t.qp q.val).msgs = [m] ∧ m.isSend = true ∧ m.addr = a ∧
      m.data = leBytes 8 bytes.length ++ leBytes 8 n ++ bytes ∧ m.issued = true ∧ (t.qp q.val).sendSeq = (s.qp q.val).sendSeq + 1 ∧
      t.fab.ops = s.fab.ops ++ [o] ∧ o.addr = BitVec.ofNat 64 fa ∧ t.eth.tx = s.eth.tx ∧ (∀ b, t.byteAt b = s.byteAt b)) ∧
  (∀ (q : QpId) (psn : BitVec 24) (bytes : List Byte) (fb : Nat) (s : State), (s.qp q.val).state = .ready → s.eth.mode = .up →
    bytes.length + 16 ≤ 64 * (s.qp q.val).slotSize.toNat → bytes.length ≤ 2 ^ 30 →
    s.translate (s.qp q.val).ctx.toNat (s.qp q.val).ringBase.toNat rightR true = some fb → faPkg fb = s.fab.pkgId.toNat →
    leNat (s.localBytes (faLocal fb) 8) + (s.qp q.val).slots.toNat ≤ (s.qp q.val).sendSeq.toNat →
    ∃ t, exec (.send q psn bytes false) s = .next t ∧ t.eth.tx = s.eth.tx ++ [.nakRnr q.val psn (s.eth.cfg.extractLsb' 24 5)] ∧
      (t.qp q.val).refusedCnt = (s.qp q.val).refusedCnt + 1 ∧ (t.qp q.val).state = .ready ∧ (t.qp q.val).msgs = (s.qp q.val).msgs ∧
      t.fab = s.fab ∧ t.err = s.err) ∧
  (∀ (q : QpId) (m : QpMsg) (s : State), s.eth.mode = .up → (s.qp q.val).msgs = [m] → m.issued = true → m.isRead = false → m.left = 0 →
    (m.fails = [] → (s.pump q.val).eth.tx = s.eth.tx ++ [.rdmaAck q.val m.psn] ∧ ((s.pump q.val).qp q.val).msgs = [] ∧
      ((s.pump q.val).qp q.val).state = (s.qp q.val).state) ∧
    (∀ i cause a rest, m.fails = (i, .sour cause, a) :: rest →
      (s.pump q.val).eth.tx = s.eth.tx ++ [if cause = .segment then .nakAccess q.val m.psn else .nakOperational q.val m.psn] ∧
      ((s.pump q.val).qp q.val).state = .error ∧ ((s.pump q.val).recordAt s.err.seqNext).code = 0x0604 ∧ (s.pump q.val).ctxs = s.ctxs)) ∧
  (∀ (q : QpId) (s : State), ∃ t, exec (.cnpReceived q) s = .next t ∧ t.eth.cnpRx = s.eth.cnpRx + 1 ∧
    t.qp q.val = { s.qp q.val with rateShift := (s.qp q.val).rateShift + 1 } ∧ t = { s with eth := t.eth } ∧ t.eth.tx = s.eth.tx) ∧
  (∀ (q : QpId) (s : State), exec (.cnpRateRecover q) s = .next (s.onQp q.val fun x => { x with rateShift := x.rateShift - 1 }))

/-- R194: the HBM interleave. For a local address a in [40:0] and g = a[40:8], the pseudo-channel is g[10:0] xor g[21:11] rotated left by ROT1
mod 11, xor g[32:22] rotated left by ROT2 mod 11, xor MASK, and the granule within it is g[32:11]; its port is memory port 16 + h[4:0].
The mapping from g to the pseudo-channel and the index is a bijection. -/
def Obligations.HbmInterleave : Prop :=
  (∀ (salt : BitVec 19) (a : BitVec 41) (g : BitVec 33) (r1 r2 : Nat), g = a.extractLsb' 8 33 → r1 = (salt.extractLsb' 0 4).toNat % 11 →
    r2 = (salt.extractLsb' 4 4).toNat % 11 → hbmPseudo salt a.toNat = (g.extractLsb' 0 11 ^^^ (g.extractLsb' 11 11).rotateLeft r1 ^^^
      (g.extractLsb' 22 11).rotateLeft r2 ^^^ salt.extractLsb' 8 11).toNat ∧ hbmIndex a.toNat = (g.extractLsb' 11 22).toNat) ∧
  (∀ (s : State) (a : BitVec 41), s.portOf a.toNat = some (16 + hbmPseudo s.hbm.salt a.toNat % 32)) ∧
  (∀ (salt : BitVec 19) (a b : BitVec 41), hbmPseudo salt a.toNat = hbmPseudo salt b.toNat → hbmIndex a.toNat = hbmIndex b.toNat →
    a.extractLsb' 8 33 = b.extractLsb' 8 33) ∧
  (∀ (salt : BitVec 19) (p i : Nat), p < 2048 → i < 2 ^ 22 → hbmPseudo salt (hbmAddress salt p i) = p ∧ hbmIndex (hbmAddress salt p i) = i ∧
    hbmAddress salt p i < 2 ^ 41 ∧ hbmAddress salt p i % 256 = 0)

/-- R92: the trits of a T2 byte. Trit i of a byte B up to 242 is ⌊B / 3^i⌋ mod 3, whose codes 0, 1 and 2 stand for 0, +1 and −1; a byte from 243 on
decodes as five zero trits, and a MAC that uses it sets T2INV, which no other byte sets. -/
def Obligations.TritBytes : Prop :=
  (∀ B i : Nat, B ≤ 242 → i < 5 → (tritsOf B).1.length = 5 ∧ (tritsOf B).1.getD i 0 ∈ [(0 : Int), 1, -1] ∧
    ((tritsOf B).1.getD i 0 = 0 ↔ B / 3 ^ i % 3 = 0) ∧ ((tritsOf B).1.getD i 0 = 1 ↔ B / 3 ^ i % 3 = 1) ∧
    ((tritsOf B).1.getD i 0 = -1 ↔ B / 3 ^ i % 3 = 2)) ∧
  (∀ B : Nat, 242 < B → (tritsOf B).1 = [0, 0, 0, 0, 0]) ∧
  (∀ b step n k : Nat, (tritElem b step n k).2 &&& fT2INV = (if 242 < bitsAt b (8 * (8 * n + (4 * step + k) / 5)) 8 then fT2INV else 0))

/-- R6, R186: memory reads back what is written. Bytes stored from an address on read there and nowhere else; a stored cell and a stored
little-endian word read whole; a cleared range reads 0. Each keeps the canonical form. -/
def Obligations.MemoryReadsBack : Prop :=
  (∀ (s : State) (a i : Nat) (l : List Byte), (s.setBytes a l).byteAt i = if a ≤ i ∧ i < a + l.length then l.getD (i - a) 0 else s.byteAt i) ∧
  (∀ (s : State) (a i m : Nat) (l : List Byte), (s.setMasked a m l).byteAt i =
    if a ≤ i ∧ i < a + l.length ∧ m.testBit (i - a) = true then l.getD (i - a) 0 else s.byteAt i) ∧
  (∀ (s : State) (a : Nat) (c : BitVec 512), (s.setCell a c).cellAt a = c) ∧
  (∀ (s : State) (a n x : Nat), (s.setBytes a (leBytes n x)).wordAt a n = x % 2 ^ (8 * n)) ∧
  (∀ (s : State) (a n i : Nat), (s.clearRange a n).byteAt i = if a ≤ i ∧ i < a + n then 0 else s.byteAt i) ∧
  (∀ (s : State) (a n m : Nat) (l : List Byte), s.memoryWf = true → (s.setBytes a l).memoryWf = true ∧ (s.setMasked a m l).memoryWf = true ∧
    (s.clearRange a n).memoryWf = true) ∧
  (∀ s u : State, s.memoryWf = true → u.memoryWf = true → (∀ i, s.byteAt i = u.byteAt i) → s.fab.mem = u.fab.mem)

/-- The memory keeps its canonical form over every step: its addresses rise strictly and no entry is the 0 that an unlisted
address reads as (R186 lays the memory out; the form and the 0 are the model's choice, log 2). -/
def Obligations.MemoryStaysCanonical : Prop :=
  ∀ s t : State, s.memoryWf = true → step s = .next t → t.memoryWf = true

/-- The module before its input power: no command waits, memory lists nothing and is canonical, every context is FREE, every vat in RESET with its
root stopped, nothing has passed, and the registers that the spec gives a reset value other than 0 read it: R23 to R85, R195, R259, R306, R325,
R351, R369, R399, R424, R440, R525 and their kin. That unwritten memory and the
sequencer registers read 0 and that the variant is A are the model's choice (log 2). -/
def Obligations.MachineAtReset : Prop :=
  State.reset.memoryWf = true ∧ State.reset.pending = [] ∧ State.reset.clk.now = 0 ∧ State.reset.clk.locked = false ∧
  (∀ a, State.reset.byteAt a = 0) ∧ (∀ c, (State.reset.ctx c).state = .free) ∧
  (∀ v, (State.reset.vat v).run = .reset ∧ (State.reset.vat v).freqNow = 0) ∧ (∀ p r, State.reset.x p r = 0) ∧
  (∀ l, (State.reset.link l).mode = .down) ∧ State.reset.err.ring = [] ∧ State.reset.err.seqNext = 0 ∧
  (∀ w x, (w, x) ∈ [(0x0400_0018, 0x14), (0x0600_0008, 0x0E33_0800), (0x0700_0008, 0x001E_003C), (0x0800_0400, 8), (0x0A00_0008, 0xFA),
    (0x0A00_000C, 0x1F40_07D0), (0x0B00_0010, 0xC), (0x0C00_0008, 8), (0x0E00_0000, 0x3E8), (0x0F00_0010, 1), (0x0F00_1018, 0xFF),
    (0x1000_0000, 0xA01), (0x1100_0010, 0x1C200), (0x4000_0010, 0x20), (0x4000_0020, 0x64), (0x6000_0010, 0x0064_0000)] →
    State.reset.regWord w = some x)
end

