-- ==== Sys2Proof/Laws/Tbl.lean ====
section
/-! SUPPORT. What reading and writing a sparse table do, in any table: a read after a write to the same key gives the value
written, other keys read as before, and the canonical form is kept. -/

namespace Sys2Proof

theorem Tbl.look_filter_ne {α : Type} (d : α) (t : Tbl α) (k j : Nat) (h : j ≠ k) :
    Tbl.look d (t.filter (fun e => !(e.1 == k))) j = Tbl.look d t j := by
  induction t with
  | nil => rfl
  | cons e t ih => grind [Tbl.look]

theorem Tbl.look_filter_same {α : Type} (d : α) (t : Tbl α) (k : Nat) :
    Tbl.look d (t.filter (fun e => !(e.1 == k))) k = d := by
  induction t with
  | nil => rfl
  | cons e t ih => grind [Tbl.look]

theorem Tbl.look_list {α : Type} (d : α) (t : Tbl α) (k j : Nat) (v : α) :
    Tbl.look d (Tbl.list t k v) j = if j = k then v else Tbl.look d t j := by
  induction t with
  | nil => grind [Tbl.look, Tbl.list]
  | cons e t ih => grind [Tbl.look, Tbl.list]

/-- A read after a write. -/
theorem Tbl.look_put {α : Type} [DecidableEq α] (d : α) (t : Tbl α) (k j : Nat) (v : α) :
    Tbl.look d (Tbl.put d t k v) j = if j = k then v else Tbl.look d t j := by
  unfold Tbl.put
  by_cases hv : v = d
  · by_cases hj : j = k
    · subst hj; simp [hv, Tbl.look_filter_same]
    · simp [hv, hj, Tbl.look_filter_ne d t k j hj]
  · simp [hv, Tbl.look_list]

@[simp] theorem Tbl.look_put_same {α : Type} [DecidableEq α] (d : α) (t : Tbl α) (k : Nat) (v : α) :
    Tbl.look d (Tbl.put d t k v) k = v := by simp [Tbl.look_put]

theorem Tbl.look_put_ne {α : Type} [DecidableEq α] (d : α) (t : Tbl α) (k j : Nat) (v : α) (h : j ≠ k) :
    Tbl.look d (Tbl.put d t k v) j = Tbl.look d t j := by simp [Tbl.look_put, h]

theorem Tbl.look_upd {α : Type} [DecidableEq α] (d : α) (t : Tbl α) (k j : Nat) (f : α → α) :
    Tbl.look d (Tbl.upd d t k f) j = if j = k then f (Tbl.look d t k) else Tbl.look d t j := by
  simp [Tbl.upd, Tbl.look_put]

@[simp] theorem Tbl.look_upd_same {α : Type} [DecidableEq α] (d : α) (t : Tbl α) (k : Nat) (f : α → α) :
    Tbl.look d (Tbl.upd d t k f) k = f (Tbl.look d t k) := by simp [Tbl.look_upd]

theorem Tbl.look_mapVals {α : Type} [DecidableEq α] (d : α) (f : Nat → α → α) (t : Tbl α) (k : Nat) (h : f k d = d) :
    Tbl.look d (Tbl.mapVals d f t) k = f k (Tbl.look d t k) := by
  induction t with
  | nil => simp [Tbl.mapVals, Tbl.look, h]
  | cons e t ih =>
    simp only [Tbl.mapVals, List.foldr_cons, Tbl.look_put] at ih ⊢
    simp only [Tbl.look]
    grind

/-! ## The canonical form -/

theorem Tbl.wfFrom_weaken {α : Type} [DecidableEq α] (d : α) (t : Tbl α) (lo hi : Nat) (h : lo ≤ hi)
    (w : Tbl.wfFrom d (some hi) t = true) : Tbl.wfFrom d (some lo) t = true := by
  cases t with
  | nil => rfl
  | cons e t =>
    obtain ⟨i, x⟩ := e
    simp only [Tbl.wfFrom, Bool.and_eq_true, decide_eq_true_eq] at w ⊢
    exact ⟨⟨by omega, w.1.2⟩, w.2⟩

theorem Tbl.wfFrom_none {α : Type} [DecidableEq α] (d : α) (t : Tbl α) (lo : Nat)
    (w : Tbl.wfFrom d (some lo) t = true) : Tbl.wfFrom d none t = true := by
  cases t with
  | nil => rfl
  | cons e t =>
    obtain ⟨i, x⟩ := e
    simp only [Tbl.wfFrom, Bool.and_eq_true, decide_eq_true_eq] at w ⊢
    exact ⟨⟨trivial, w.1.2⟩, w.2⟩

theorem Tbl.wfFrom_filter {α : Type} [DecidableEq α] (d : α) (p : Nat × α → Bool) (t : Tbl α) (lo : Option Nat)
    (w : Tbl.wfFrom d lo t = true) : Tbl.wfFrom d lo (t.filter p) = true := by
  induction t generalizing lo with
  | nil => rfl
  | cons e t ih =>
    have ht := ih (some e.1) (by simp only [Tbl.wfFrom, Bool.and_eq_true] at w; exact w.2)
    rw [List.filter_cons]
    split
    · simp only [Tbl.wfFrom, Bool.and_eq_true] at w ⊢
      exact ⟨w.1, ht⟩
    · cases lo with
      | none => exact Tbl.wfFrom_none d _ e.1 ht
      | some l =>
        simp only [Tbl.wfFrom, Bool.and_eq_true, decide_eq_true_eq] at w
        exact Tbl.wfFrom_weaken d _ l e.1 (by omega) ht

theorem Tbl.wfFrom_list {α : Type} [DecidableEq α] (d : α) (t : Tbl α) (k : Nat) (v : α) (lo : Option Nat)
    (hv : v ≠ d) (hk : ∀ l, lo = some l → l < k) (w : Tbl.wfFrom d lo t = true) :
    Tbl.wfFrom d lo (Tbl.list t k v) = true := by
  induction t generalizing lo with
  | nil => cases lo <;> grind [Tbl.list, Tbl.wfFrom]
  | cons e t ih => cases lo <;> grind [Tbl.list, Tbl.wfFrom]

/-- A write keeps the canonical form. -/
theorem Tbl.wf_put {α : Type} [DecidableEq α] (d : α) (t : Tbl α) (k : Nat) (v : α)
    (w : Tbl.wf d t = true) : Tbl.wf d (Tbl.put d t k v) = true := by
  unfold Tbl.put
  split
  · exact Tbl.wfFrom_filter d _ t none w
  · rename_i hv
    exact Tbl.wfFrom_list d t k v none hv (fun l hl => by cases hl) w

theorem Tbl.wf_mapVals {α : Type} [DecidableEq α] (d : α) (f : Nat → α → α) (t : Tbl α) :
    Tbl.wf d (Tbl.mapVals d f t) = true := by
  induction t with
  | nil => rfl
  | cons e t ih => exact Tbl.wf_put d _ _ _ ih

theorem Tbl.wf_filter {α : Type} [DecidableEq α] (d : α) (p : Nat × α → Bool) (t : Tbl α)
    (w : Tbl.wf d t = true) : Tbl.wf d (t.filter p) = true := Tbl.wfFrom_filter d p t none w

end Sys2Proof
end

