-- ==== Sys2Proof/Laws/Memory.lean ====
section
/-! SUPPORT. Reading and writing memory: a byte reads back where it was written and every other byte reads as before, and every
operation on memory keeps the canonical form. -/

namespace Sys2Proof.Machine

/-! ## Reads after writes -/

theorem State.byteAt_setByte (s : State) (a i : Nat) (b : Byte) : (s.setByte a b).byteAt i = if i = a then b else s.byteAt i :=
  Tbl.look_put 0 s.fab.mem a i b

@[simp] theorem State.byteAt_setByte_same (s : State) (a : Nat) (b : Byte) : (s.setByte a b).byteAt a = b := by
  simp [State.byteAt_setByte]

theorem State.byteAt_setByte_ne (s : State) (a i : Nat) (b : Byte) (h : i ≠ a) : (s.setByte a b).byteAt i = s.byteAt i := by
  simp [State.byteAt_setByte, h]

/-- Bytes below the first address written read as before. -/
theorem State.byteAt_setBytes_below (l : List Byte) (s : State) (a i : Nat) (h : i < a) : (s.setBytes a l).byteAt i = s.byteAt i := by
  induction l generalizing s a with
  | nil => rfl
  | cons b l ih => rw [State.setBytes, ih _ _ (by omega), State.byteAt_setByte_ne _ _ _ _ (by omega)]

theorem State.byteAt_setMasked_below (l : List Byte) (s : State) (a m i : Nat) (h : i < a) :
    (s.setMasked a m l).byteAt i = s.byteAt i := by
  induction l generalizing s a m with
  | nil => rfl
  | cons b l ih =>
    rw [State.setMasked, ih _ _ _ (by omega)]
    split
    · exact State.byteAt_setByte_ne _ _ _ _ (by omega)
    · rfl

/-! ## The canonical form -/

theorem Memory.wf_setByte (s : State) (a : Nat) (b : Byte) (w : Memory.wf s.fab.mem = true) :
    Memory.wf (s.setByte a b).fab.mem = true := Tbl.wf_put 0 s.fab.mem a b w

theorem Memory.wf_setBytes (l : List Byte) (s : State) (a : Nat) (w : Memory.wf s.fab.mem = true) :
    Memory.wf (s.setBytes a l).fab.mem = true := by
  induction l generalizing s a with
  | nil => exact w
  | cons b l ih => exact ih _ _ (Memory.wf_setByte s a b w)

theorem Memory.wf_setMasked (l : List Byte) (s : State) (a m : Nat) (w : Memory.wf s.fab.mem = true) :
    Memory.wf (s.setMasked a m l).fab.mem = true := by
  induction l generalizing s a m with
  | nil => exact w
  | cons b l ih =>
    rw [State.setMasked]
    refine ih _ _ _ ?_
    split
    · exact Memory.wf_setByte s a b w
    · exact w

theorem Memory.wf_setCell (s : State) (a : Nat) (c : BitVec 512) (w : Memory.wf s.fab.mem = true) :
    Memory.wf (s.setCell a c).fab.mem = true := Memory.wf_setBytes _ s a w

theorem Memory.wf_clearRange (s : State) (a n : Nat) (w : Memory.wf s.fab.mem = true) :
    Memory.wf (s.clearRange a n).fab.mem = true := Tbl.wf_filter 0 _ s.fab.mem w

theorem Memory.wf_reset : Memory.wf State.reset.fab.mem = true := rfl

/-! ## What writing memory leaves -/

theorem State.setBytes_fab (l : List Byte) (s : State) (a : Nat) :
    s.setBytes a l = { s with fab := { s.fab with mem := (s.setBytes a l).fab.mem } } := by
  induction l generalizing s a with
  | nil => rfl
  | cons b l ih => rw [State.setBytes]; conv_lhs => rw [ih]
                   rfl

theorem State.setMasked_fab (l : List Byte) (s : State) (a m : Nat) :
    s.setMasked a m l = { s with fab := { s.fab with mem := (s.setMasked a m l).fab.mem } } := by
  induction l generalizing s a m with
  | nil => rfl
  | cons b l ih =>
    rw [State.setMasked]
    split
    · conv_lhs => rw [ih]
      rfl
    · exact ih s (a + 1) (m / 2)

end Sys2Proof.Machine
end

