-- ==== Sys2Proof/Laws/MemoryKept.lean ====
section
/-! SUPPORT. What the operations of the machine do to memory. A lemma named _mem says that its operation leaves every byte
of memory as it was; one named _wf says that an operation that may write memory, or takes all of it away, keeps the canonical
form. -/

namespace Sys2Proof.Machine

/-! ## How the operations are put together -/

theorem ite_mem (c : Prop) [Decidable c] (a b : State) :
    (if c then a else b).fab.mem = if c then a.fab.mem else b.fab.mem := apply_ite (fun x => x.fab.mem) c a b

theorem foldl_mem {α : Type} (f : State → α → State) (s : State) (l : List α) (h : ∀ a x, (f a x).fab.mem = a.fab.mem) :
    (l.foldl f s).fab.mem = s.fab.mem := by
  induction l generalizing s with
  | nil => rfl
  | cons x l ih => rw [List.foldl_cons, ih, h]

theorem foldl_wf {α : Type} (f : State → α → State) (s : State) (l : List α) (w : Memory.wf s.fab.mem = true)
    (h : ∀ a x, Memory.wf a.fab.mem = true → Memory.wf (f a x).fab.mem = true) : Memory.wf (l.foldl f s).fab.mem = true := by
  induction l generalizing s with
  | nil => exact w
  | cons x l ih => exact ih _ (h _ _ w)

/-! ## Ops -/

theorem State.onVat_mem (s : State) (v : Nat) (f : Vat → Vat) : (State.onVat s v f).fab.mem = s.fab.mem := by
  unfold State.onVat
  dsimp only

theorem State.onPlane_mem (s : State) (p : Nat) (f : Plane → Plane) : (State.onPlane s p f).fab.mem = s.fab.mem := by
  unfold State.onPlane
  simp only

theorem State.onTile_mem (s : State) (v t : Nat) (f : Tile → Tile) : (State.onTile s v t f).fab.mem = s.fab.mem := by
  unfold State.onTile
  simp only

theorem State.onCtx_mem (s : State) (c : Nat) (f : Ctx → Ctx) : (State.onCtx s c f).fab.mem = s.fab.mem := by
  unfold State.onCtx
  simp only

theorem State.onCream_mem (s : State) (c : Nat) (f : Cream → Cream) : (State.onCream s c f).fab.mem = s.fab.mem := by
  unfold State.onCream
  simp only

theorem State.onEngine_mem (s : State) (e : Nat) (f : Engine → Engine) : (State.onEngine s e f).fab.mem = s.fab.mem := by
  unfold State.onEngine
  simp only

theorem State.onPort_mem (s : State) (p : Nat) (f : Port → Port) : (State.onPort s p f).fab.mem = s.fab.mem := by
  unfold State.onPort
  simp only

theorem State.onRing_mem (s : State) (e : Nat) (f : Ring → Ring) : (State.onRing s e f).fab.mem = s.fab.mem := by
  unfold State.onRing
  dsimp only

theorem State.onStack_mem (s : State) (k : Nat) (f : Stack → Stack) : (State.onStack s k f).fab.mem = s.fab.mem := by
  unfold State.onStack
  dsimp only

theorem State.onPseudo_mem (s : State) (p : Nat) (f : Pseudo → Pseudo) : (State.onPseudo s p f).fab.mem = s.fab.mem := by
  unfold State.onPseudo
  simp only

theorem State.onLink_mem (s : State) (l : Nat) (f : Link → Link) : (State.onLink s l f).fab.mem = s.fab.mem := by
  unfold State.onLink
  simp only

theorem State.onCage_mem (s : State) (m : Nat) (f : Cage → Cage) : (State.onCage s m f).fab.mem = s.fab.mem := by
  unfold State.onCage
  simp only

theorem State.onSector_mem (s : State) (j : Nat) (f : Sector → Sector) : (State.onSector s j f).fab.mem = s.fab.mem := by
  unfold State.onSector
  dsimp only

theorem State.onQp_mem (s : State) (q : Nat) (f : Qp → Qp) : (State.onQp s q f).fab.mem = s.fab.mem := by
  unfold State.onQp
  simp only

theorem State.onSession_mem (s : State) (k : Nat) (f : Session → Session) : (State.onSession s k f).fab.mem = s.fab.mem := by
  unfold State.onSession
  dsimp only

theorem State.takeFree_mem (s : State) : (State.takeFree s).2.fab.mem = s.fab.mem := by
  unfold State.takeFree
  simp only

/-! ## Cells -/

theorem State.spray_mem (s : State) (d : Nat) (js : List Nat) : (State.spray s d js).2.fab.mem = s.fab.mem := by
  unfold State.spray
  dsimp only
  repeat' split
  all_goals simp

theorem State.sendLink_mem (s : State) (l : Nat) (c : Cell) : (State.sendLink s l c).fab.mem = s.fab.mem := by
  unfold State.sendLink
  simp only [State.onLink_mem]

theorem State.fly_mem (s : State) (c : Cell) : (State.fly s c).fab.mem = s.fab.mem := by
  unfold State.fly
  simp only

theorem State.launch_mem (s : State) (c : Cell) : (State.launch s c).fab.mem = s.fab.mem := by
  grind [State.launch, State.fly_mem, State.spray_mem, State.sendLink_mem, foldl_mem]

theorem State.launchAll_mem (s : State) (cs : List Cell) : (State.launchAll s cs).fab.mem = s.fab.mem := by
  unfold State.launchAll
  simp only [State.launch_mem, implies_true, foldl_mem]

theorem State.relaunch_mem (s : State) : (State.relaunch s).fab.mem = s.fab.mem := by
  unfold State.relaunch
  simp only [State.launchAll_mem]

theorem State.drainLink_mem (s : State) (l : Nat) : (State.drainLink s l).fab.mem = s.fab.mem := by
  unfold State.drainLink
  simp only [State.sendLink_mem, State.onLink_mem, implies_true, foldl_mem]

theorem State.takeTag_mem (s : State) (port : Nat) : (State.takeTag s port).2.fab.mem = s.fab.mem := by
  unfold State.takeTag
  simp only

theorem State.withhold_mem (s : State) (port : Nat) (tag : W16) (dpkg : Nat) : (State.withhold s port tag dpkg).fab.mem =
    s.fab.mem := by
  unfold State.withhold
  simp only

theorem State.sendMsg_mem (s : State) (issuer : Issuer) (dpkg dport mailbox : Nat) (m : List Byte) : (State.sendMsg s issuer
    dpkg dport mailbox m).fab.mem = s.fab.mem := by
  unfold State.sendMsg
  dsimp only
  simp [State.takeTag_mem, State.launchAll_mem]

/-! ## Records -/

theorem State.hostSend_mem (s : State) (x : HostTx) : (State.hostSend s x).fab.mem = s.fab.mem := by
  unfold State.hostSend
  simp only [ite_mem, ite_self]

theorem State.sealTo_mem (s : State) (k : Nat) (m : List Byte) : (State.sealTo s k m).fab.mem = s.fab.mem := by
  unfold State.sealTo
  simp only [State.onSession_mem, State.hostSend_mem, ite_mem, ite_self]

theorem State.sendNotification_mem (s : State) (n : Notification) : (State.sendNotification s n).fab.mem = s.fab.mem := by
  unfold State.sendNotification
  simp only [State.sealTo_mem, State.sendMsg_mem, ite_mem, ite_self, implies_true, foldl_mem]

theorem State.addNotification_mem (s : State) (opcode : W16) (payload : List Byte) : (State.addNotification s opcode
    payload).2.fab.mem = s.fab.mem := by
  unfold State.addNotification
  simp only [State.sendNotification_mem]

theorem State.pushRecord_mem (s : State) (r : ErrRec) : (State.pushRecord s r).fab.mem = s.fab.mem := by
  unfold State.pushRecord
  dsimp only

theorem State.note_mem (s : State) (code : W16) (sev : Severity) (unit : W16) (details : List W64) (ctx : Option Nat) :
    (State.note s code sev unit details ctx).fab.mem = s.fab.mem := by
  unfold State.note
  simp only [State.pushRecord_mem]

theorem State.notify_mem (s : State) (opcode : W16) (payload : List Byte) : (State.notify s opcode payload).fab.mem = s.fab.mem := by
  grind [State.notify, State.addNotification_mem, State.note_mem, foldl_mem]

theorem State.notifyService_mem (s : State) (reason : Nat) : (State.notifyService s reason).fab.mem = s.fab.mem := by
  unfold State.notifyService
  simp only [State.notify_mem]

theorem State.begin_mem (s : State) (sc : Scope) (t : Todo) (seq : W64) : (State.begin s sc t seq).fab.mem = s.fab.mem := by
  unfold State.begin
  dsimp only

theorem State.announce_mem (s : State) (r : ErrRec) : (State.announce s r).fab.mem = s.fab.mem := by
  unfold State.announce
  simp only [State.onCtx_mem, State.notify_mem, State.pushRecord_mem, ite_mem, ite_self]

theorem State.record_mem (s : State) (code : W16) (sev : Severity) (unit : W16) (ctx : Option Nat) (details : List W64)
    (start : Option Scope) (designed : Bool) (remote : Bool) (todo : Option Todo) : (State.record s code sev unit ctx
    details start designed remote todo).fab.mem = s.fab.mem := by
  have put (r : ErrRec) : (if 2 ≤ sev.code then s.announce r else s.pushRecord r).fab.mem = s.fab.mem := by
    rw [ite_mem, State.announce_mem, State.pushRecord_mem, ite_self]
  unfold State.record
  dsimp only
  split
  · split
    · split
      · rw [State.begin_mem, put]
      · exact put _
    · split
      · rw [State.begin_mem, put]
      · exact put _
  · split
    · exact put _
    · split
      · rw [State.begin_mem, put]
      · exact put _

theorem State.reply_mem (s : State) (src : KcpSrc) (req : W32) (opcode : W16) (status : Nat) (payload : List Byte) (more :
    Bool) : (State.reply s src req opcode status payload more).fab.mem = s.fab.mem := by
  unfold State.reply
  dsimp only
  repeat' split
  all_goals first | with_reducible rfl | simp only [State.sealTo_mem, State.onSession_mem, State.sendMsg_mem]

theorem State.endHandling_mem (s : State) (sc : Scope) : (State.endHandling s sc).fab.mem = s.fab.mem := by
  unfold State.endHandling
  dsimp only

theorem State.ctxFault_mem (s : State) (c : Nat) (code : W16) (unit : W16) (details : List W64) (sev : Severity) (designed :
    Bool) (remote : Bool) (start : Option Scope) : (State.ctxFault s c code unit details sev designed remote start).fab.mem
    = s.fab.mem := by
  unfold State.ctxFault
  dsimp only
  repeat' split
  all_goals first | with_reducible rfl | simp only [State.record_mem, State.onCtx_mem]

/-! ## VatOps -/

theorem State.voidOps_mem (s : State) (p k : Nat) (f : Nat → Bool) : (State.voidOps s p k f).fab.mem = s.fab.mem := by
  unfold State.voidOps
  simp only

theorem State.squashLadle_mem (s : State) (p k : Nat) : (State.squashLadle s p k).fab.mem = s.fab.mem := by
  unfold State.squashLadle
  simp only [State.onPlane_mem, State.voidOps_mem, State.onVat_mem, ite_mem, ite_self]

theorem State.squashPlane_mem (s : State) (p : Nat) : (State.squashPlane s p).fab.mem = s.fab.mem := by
  unfold State.squashPlane
  simp only [State.squashLadle_mem, implies_true, foldl_mem]

theorem State.stopTiles_mem (s : State) (v : Nat) : (State.stopTiles s v).fab.mem = s.fab.mem := by
  unfold State.stopTiles
  dsimp only
  first | with_reducible rfl | simp only [State.onTile_mem, State.onVat_mem, implies_true, foldl_mem]

theorem State.refreshRun_mem (s : State) (v : Nat) : (State.refreshRun s v).fab.mem = s.fab.mem := by
  unfold State.refreshRun
  simp only [State.onVat_mem]

theorem State.swapStart_mem (s : State) (v : Nat) : (State.swapStart s v).fab.mem = s.fab.mem := by
  unfold State.swapStart
  dsimp only
  first | with_reducible rfl | simp only [State.stopTiles_mem, State.squashPlane_mem, State.onVat_mem]

theorem State.swapIfEligible_mem (s : State) (v : Nat) : (State.swapIfEligible s v).fab.mem = s.fab.mem := by
  grind [State.swapIfEligible, State.swapStart_mem, foldl_mem]

theorem State.swapAway_mem (s : State) (c : Nat) : (State.swapAway s c).fab.mem = s.fab.mem := by
  unfold State.swapAway
  simp only [State.swapIfEligible_mem, ite_mem, ite_self]

theorem State.emptyPlane_mem (s : State) (c : Nat) : (State.emptyPlane s c).fab.mem = s.fab.mem := by
  unfold State.emptyPlane
  simp only [State.onCtx_mem, State.onPlane_mem, State.onVat_mem, ite_mem, ite_self]

theorem State.flexRefuse_mem (s : State) (r : FlexReq) : (State.flexRefuse s r).fab.mem = s.fab.mem := by
  unfold State.flexRefuse
  simp only [State.note_mem]

theorem State.flexRefuseAll_mem (s : State) (f : FlexReq → Bool) : (State.flexRefuseAll s f).fab.mem = s.fab.mem := by
  unfold State.flexRefuseAll
  simp only [State.flexRefuse_mem, implies_true, foldl_mem]

theorem State.flexRelease_mem (s : State) (p : Nat) : (State.flexRelease s p).fab.mem = s.fab.mem := by
  unfold State.flexRelease
  simp only

theorem State.flexReleaseCtx_mem (s : State) (c : Nat) : (State.flexReleaseCtx s c).fab.mem = s.fab.mem := by
  unfold State.flexReleaseCtx
  simp only [State.flexRelease_mem, ite_mem, ite_self, implies_true, foldl_mem]

theorem State.failRequests_mem (s : State) (tile cream hbm : Nat → Bool) (asm : Assembly → Bool) (all : Bool) :
    (State.failRequests s tile cream hbm asm all).fab.mem = s.fab.mem := by
  unfold State.failRequests
  simp only [State.launchAll_mem, implies_true, foldl_mem]

theorem State.failPort_mem (s : State) (p : Nat) : (State.failPort s p).fab.mem = s.fab.mem := by
  unfold State.failPort
  simp only [State.failRequests_mem]

theorem State.darkPort_mem (s : State) (p : Nat) : (State.darkPort s p).fab.mem = s.fab.mem := by
  unfold State.darkPort
  simp only [State.onPort_mem, State.flexRefuseAll_mem, State.flexRelease_mem, State.failPort_mem, State.note_mem, ite_mem,
      ite_self]

theorem State.removeJobs_mem (s : State) (c : Nat) : (State.removeJobs s c).fab.mem = s.fab.mem := by
  unfold State.removeJobs
  simp only [State.onEngine_mem, ite_mem, ite_self, implies_true, foldl_mem]

theorem State.qpsError_mem (s : State) (c : Nat) : (State.qpsError s c).fab.mem = s.fab.mem := by
  unfold State.qpsError
  dsimp only

theorem State.qpDestroyed_mem (s : State) (q : Nat) : (State.qpDestroyed s q).fab.mem = s.fab.mem := by
  unfold State.qpDestroyed
  dsimp only
  first | with_reducible rfl | simp only [State.hostSend_mem, State.onQp_mem, implies_true, foldl_mem]

theorem State.qpsDestroy_mem (s : State) (c : Nat) : (State.qpsDestroy s c).fab.mem = s.fab.mem := by
  unfold State.qpsDestroy
  simp only [State.qpDestroyed_mem, ite_mem, ite_self, implies_true, foldl_mem]

theorem State.noteRefused_mem (s : State) (t : LoadTarget) (r : LoadResult) : (State.noteRefused s t r).fab.mem = s.fab.mem := by
  unfold State.noteRefused
  simp only [State.note_mem]

theorem State.failTargets_mem (s : State) (id : Nat) (f : LoadTarget → Bool) (r : LoadResult) : (State.failTargets s id f
    r).fab.mem = s.fab.mem := by
  unfold State.failTargets
  dsimp only
  repeat' split
  all_goals simp [State.noteRefused_mem, foldl_mem]

theorem State.finishLoads_mem (s : State) : (State.finishLoads s).fab.mem = s.fab.mem := by
  unfold State.finishLoads
  simp only [State.reply_mem, implies_true, foldl_mem]

theorem State.abortLoads_mem (s : State) (f : LoadTarget → Bool) : (State.abortLoads s f).fab.mem = s.fab.mem := by
  unfold State.abortLoads
  simp only [State.finishLoads_mem, State.failTargets_mem, implies_true, foldl_mem]

theorem State.purge_mem (s : State) (p c : Nat) : (State.purge s p c).fab.mem = s.fab.mem := by
  unfold State.purge
  simp only

theorem State.dropOps_mem (s : State) (f : Op → Bool) : (State.dropOps s f).fab.mem = s.fab.mem := by
  unfold State.dropOps
  simp only [State.withhold_mem, implies_true, foldl_mem]

theorem State.dropReads_mem (s : State) (c : Nat) : (State.dropReads s c).fab.mem = s.fab.mem := by
  unfold State.dropReads
  simp only

/-! ## Resets -/

theorem State.sendAbort_mem (s : State) (c kind : Nat) (seq : W64) (code : W16) : (State.sendAbort s c kind seq
    code).fab.mem = s.fab.mem := by
  have key (l : List Nat) (f : Nat → Cell) (n : W32) : ({ (l.foldl (fun a d => a.launch (f d)) s).onCtx c
      (fun x => { x with remoteHold := true }) with
      err := { (l.foldl (fun a d => a.launch (f d)) s).err with abortTx := n } } : State).fab.mem = s.fab.mem :=
    (State.onCtx_mem (l.foldl (fun a d => a.launch (f d)) s) c fun x => { x with remoteHold := true }).trans
      (foldl_mem _ _ _ fun a d => State.launch_mem ..)
  exact key ..

theorem State.sendReset_mem (s : State) (c : Nat) : (State.sendReset s c).fab.mem = s.fab.mem := by
  unfold State.sendReset
  simp only [State.onCtx_mem, State.sendAbort_mem, ite_mem, ite_self]

theorem State.sendGroupAbort_mem (s : State) (c : Nat) : (State.sendGroupAbort s c).fab.mem = s.fab.mem := by
  unfold State.sendGroupAbort
  simp only [State.onCtx_mem, State.sendAbort_mem, ite_mem, ite_self]

theorem State.stopWork_mem (s : State) (c : Nat) : (State.stopWork s c).fab.mem = s.fab.mem := by
  unfold State.stopWork
  simp only [State.dropReads_mem, State.onPlane_mem, State.squashPlane_mem, State.stopTiles_mem, State.refreshRun_mem,
      State.swapAway_mem, State.removeJobs_mem, ite_mem, ite_self]

theorem State.faultStop_mem (s : State) (c : Nat) : (State.faultStop s c).fab.mem = s.fab.mem := by
  unfold State.faultStop
  simp only [State.sendGroupAbort_mem, State.flexRefuseAll_mem, State.qpsError_mem, State.flexReleaseCtx_mem, State.stopWork_mem]

theorem State.ctxReset_mem (s : State) (c : Nat) : (State.ctxReset s c).fab.mem = s.fab.mem := by
  unfold State.ctxReset
  simp only [State.flexRefuseAll_mem, State.flexReleaseCtx_mem, State.stopWork_mem, State.sendReset_mem, State.qpsError_mem,
      State.sendGroupAbort_mem, State.dropOps_mem, State.purge_mem, State.onCtx_mem, ite_mem, ite_self]

theorem State.freeCtx_mem (s : State) (c : Nat) : (State.freeCtx s c).fab.mem = s.fab.mem := by
  unfold State.freeCtx
  dsimp only
  simp [State.flexReleaseCtx_mem, State.abortLoads_mem, State.qpsDestroy_mem, State.emptyPlane_mem, State.onCtx_mem]

theorem State.wipeVat_mem (s : State) (v : Nat) (flags : Bool) : (State.wipeVat s v flags).fab.mem = s.fab.mem := by
  unfold State.wipeVat
  simp only [State.onVat_mem]

theorem State.takeOver_mem (s : State) (f : ResetKind → Bool) : (State.takeOver s f).fab.mem = s.fab.mem := by
  unfold State.takeOver
  simp only

theorem State.startReset_mem (s : State) (k : ResetKind) : (State.startReset s k).fab.mem = s.fab.mem := by
  unfold State.startReset
  simp only

theorem State.vatReset_mem (s : State) (v : Nat) (hang : Bool) : (State.vatReset s v hang).fab.mem = s.fab.mem := by
  unfold State.vatReset
  simp only [State.dropOps_mem, State.purge_mem, State.sendReset_mem, State.removeJobs_mem, State.onCtx_mem,
      State.wipeVat_mem, State.stopTiles_mem, State.startReset_mem, State.onVat_mem, State.abortLoads_mem,
      State.ctxFault_mem, State.takeOver_mem, ite_mem, ite_self, implies_true, foldl_mem]

theorem State.wipeDie_wf (s : State) (d : Nat) (hm : Memory.wf s.fab.mem = true) : Memory.wf (State.wipeDie s d).fab.mem = true := by
  grind [State.wipeDie, State.wipeVat_mem, State.stopTiles_mem, State.onVat_mem, State.darkPort_mem, State.onCream_mem,
      Memory.wf_clearRange, foldl_mem, foldl_wf]

theorem State.loseContexts_mem (s : State) (vs : List Nat) : (State.loseContexts s vs).fab.mem = s.fab.mem := by
  unfold State.loseContexts
  simp only [State.ctxFault_mem, implies_true, foldl_mem]

theorem State.mendSensors_mem (s : State) (f : Nat → Bool) : (State.mendSensors s f).fab.mem = s.fab.mem := by
  unfold State.mendSensors
  simp only

theorem State.dieReset_wf (s : State) (d : Nat) (hm : Memory.wf s.fab.mem = true) : Memory.wf (State.dieReset s d).fab.mem = true := by
  unfold State.dieReset
  simp +contextual only [State.loseContexts_mem, State.mendSensors_mem, State.abortLoads_mem, State.startReset_mem,
      State.takeOver_mem, State.wipeDie_wf, hm]

theorem State.computeReset_wf (s : State) (hm : Memory.wf s.fab.mem = true) : Memory.wf (State.computeReset s).fab.mem = true := by
  unfold State.computeReset
  dsimp only
  first | exact hm | simp +contextual only [State.loseContexts_mem, State.mendSensors_mem, State.abortLoads_mem,
      State.startReset_mem, State.takeOver_mem, State.wipeDie_wf, implies_true, foldl_wf, hm]

theorem State.dropRails_wf (s : State) : Memory.wf (State.dropRails s).fab.mem = true := rfl

theorem State.powerOnReset_wf (s : State) : Memory.wf (State.powerOnReset s).fab.mem = true := rfl

theorem State.closeSession_mem (s : State) (k reason : Nat) : (State.closeSession s k reason).fab.mem = s.fab.mem := by
  unfold State.closeSession
  simp only [State.onSession_mem, State.hostSend_mem, ite_mem, ite_self]

theorem State.linkFall_mem (s : State) (l : Nat) : (State.linkFall s l).fab.mem = s.fab.mem := by
  unfold State.linkFall
  simp only [State.onLink_mem, State.launchAll_mem, State.launch_mem, implies_true, foldl_mem]

theorem State.lockMonitor_mem (s : State) : (State.lockMonitor s).fab.mem = s.fab.mem := by
  unfold State.lockMonitor
  simp only

theorem State.mgmtResetWork_mem (s : State) : (State.mgmtResetWork s).fab.mem = s.fab.mem := by
  unfold State.mgmtResetWork
  simp only [State.closeSession_mem, State.record_mem, State.linkFall_mem, State.lockMonitor_mem, ite_mem, ite_self,
      implies_true, foldl_mem]

theorem State.dumpStart_mem (s : State) (trigger : Nat) (seq : W64) : (State.dumpStart s trigger seq).fab.mem = s.fab.mem := by
  unfold State.dumpStart
  simp only [State.note_mem, ite_mem, ite_self]

theorem State.haltWork_mem (s : State) (kind : Nat) (seq : W64) : (State.haltWork s kind seq).fab.mem = s.fab.mem := by
  unfold State.haltWork
  simp only [State.ctxFault_mem, State.onVat_mem, State.stopTiles_mem, State.dumpStart_mem, State.announce_mem, implies_true,
      foldl_mem]

theorem State.doTodo_wf (s : State) (t : Todo) (hm : Memory.wf s.fab.mem = true) : Memory.wf (State.doTodo s t).fab.mem = true := by
  cases t with
  | faultStop c => simpa only [State.doTodo, State.faultStop_mem] using hm
  | ctxReset c => simpa only [State.doTodo, State.ctxReset_mem] using hm
  | vat v hang => simpa only [State.doTodo, State.vatReset_mem] using hm
  | die d => exact State.dieReset_wf _ _ hm
  | compute => exact State.computeReset_wf _ hm
  | mgmt => simpa only [State.doTodo, State.mgmtResetWork_mem] using hm
  | halt k q => simpa only [State.doTodo, State.haltWork_mem] using hm

theorem State.drainTodo_wf (n : Nat) (s : State) (hm : Memory.wf s.fab.mem = true) : Memory.wf (State.drainTodo n s).fab.mem
    = true := by
  induction n generalizing s with
  | zero => exact hm
  | succ n ih =>
    rw [State.drainTodo]
    split
    · exact hm
    · exact ih _ (State.doTodo_wf _ _ hm)

theorem State.finish_wf (s : State) (hm : Memory.wf s.fab.mem = true) : Memory.wf (State.finish s).fab.mem = true := by
  unfold State.finish
  simp +contextual only [State.drainTodo_wf, hm]

/-! ## EthLink -/

theorem State.ethFall_mem (s : State) : (State.ethFall s).fab.mem = s.fab.mem := by
  unfold State.ethFall
  dsimp only
  simp [State.record_mem]

theorem State.ethSettle_mem (s : State) : (State.ethSettle s).fab.mem = s.fab.mem := by
  unfold State.ethSettle
  dsimp only
  repeat' split
  all_goals first | with_reducible rfl | simp only [State.ethFall_mem, State.note_mem]

theorem State.ethTrained_mem (s : State) (signal : Byte) : (State.ethTrained s signal).fab.mem = s.fab.mem := by
  unfold State.ethTrained
  dsimp only
  repeat' split
  all_goals simp [State.ethFall_mem, State.note_mem]

theorem State.ethLight_mem (s : State) (lane : Nat) (lost : Bool) : (State.ethLight s lane lost).fab.mem = s.fab.mem := by
  unfold State.ethLight
  simp only [State.ethSettle_mem]

/-! ## Issue -/

theorem State.countSour_mem (s : State) (st : Status) : (State.countSour s st).fab.mem = s.fab.mem := by
  unfold State.countSour
  dsimp only
  repeat' split
  all_goals with_reducible rfl

theorem State.sendOp_mem (s : State) (port ctx : Nat) (issuer : Issuer) (fa expect : Nat) (build : Nat → Nat → Nat → List
    Cell) : (State.sendOp s port ctx issuer fa expect build).2.fab.mem = s.fab.mem := by
  unfold State.sendOp
  dsimp only
  repeat' split
  all_goals simp [State.takeTag_mem, State.launchAll_mem]

theorem State.trap_mem (s : State) (p cause : Nat) (tval : W64) (code : W16) (details : List W64) : (State.trap s p cause
    tval code details).fab.mem = s.fab.mem := by
  unfold State.trap
  dsimp only
  repeat' split
  all_goals first | with_reducible rfl | simp only [State.ctxFault_mem, State.onVat_mem]

theorem State.noteDelayed_mem (s : State) (p u : Nat) (st : Status) : (State.noteDelayed s p u st).fab.mem = s.fab.mem := by
  unfold State.noteDelayed
  simp only [State.onPlane_mem, ite_mem, ite_self]

theorem State.seqDone_mem (s : State) (p : Nat) (st : Status) (rd : Option RegNo) (value : W64) (addr : W64) (tag : W16)
    (isLoad : Bool) : (State.seqDone s p st rd value addr tag isLoad).fab.mem = s.fab.mem := by
  unfold State.seqDone
  dsimp only
  repeat' split
  all_goals simp [State.onPlane_mem, State.trap_mem, State.noteDelayed_mem]

theorem State.ladleCells_mem (s : State) (p k iter n : Nat) (st : Status) (addr : W64) (tag : W16) : (State.ladleCells s p k
    iter n st addr tag).fab.mem = s.fab.mem := by
  unfold State.ladleCells
  dsimp only
  first | with_reducible rfl | simp only [State.onPlane_mem]

theorem State.ladleStored_mem (s : State) (p k iter n : Nat) (st : Status) (addr : W64) (tag : W16) : (State.ladleStored s p
    k iter n st addr tag).fab.mem = s.fab.mem := by
  unfold State.ladleStored
  simp only [State.onPlane_mem, State.noteDelayed_mem, State.ladleCells_mem, State.trap_mem, ite_mem, ite_self]

/-! ## Banks -/

theorem State.setBad_mem (s : State) (a : Nat) : (State.setBad s a).fab.mem = s.fab.mem := by
  unfold State.setBad
  dsimp only

theorem State.clearBad_mem (s : State) (a n : Nat) : (State.clearBad s a n).fab.mem = s.fab.mem := by
  unfold State.clearBad
  simp only

theorem State.sramCorrected_mem (s : State) (a lane : Nat) : (State.sramCorrected s a lane).fab.mem = s.fab.mem := by
  unfold State.sramCorrected
  simp only [State.note_mem, State.onCream_mem]

theorem State.sramUncorrectable_mem (s : State) (a : Nat) (side : W64) : (State.sramUncorrectable s a side).fab.mem = s.fab.mem := by
  unfold State.sramUncorrectable
  simp only [State.note_mem, State.onCream_mem]

theorem State.sramRead_mem (s : State) (a n : Nat) (ecc : Ecc) (side : W64) : (State.sramRead s a n ecc side).2.fab.mem =
    s.fab.mem := by
  unfold State.sramRead
  split
  · exact State.sramUncorrectable_mem ..
  · cases ecc
    · rfl
    · exact State.sramCorrected_mem ..
    · exact (State.sramUncorrectable_mem ..).trans (State.setBad_mem ..)

theorem State.setHbmCell_wf (s : State) (p a : Nat) (c : BitVec 512) (hm : Memory.wf s.fab.mem = true) : Memory.wf
    (State.setHbmCell s p a c).fab.mem = true := by
  grind [State.setHbmCell, State.onPseudo_mem, Memory.wf_setCell, foldl_mem, foldl_wf]

theorem State.bufferCell_wf (s : State) (p a : Nat) (hm : Memory.wf s.fab.mem = true) : Memory.wf (State.bufferCell s p
    a).fab.mem = true := by
  unfold State.bufferCell
  dsimp only
  repeat' split
  all_goals first | exact hm | simp +contextual only [State.onPseudo_mem, Memory.wf_setCell, implies_true, foldl_wf, hm]

theorem State.flushBuffer_wf (s : State) (p : Nat) (hm : Memory.wf s.fab.mem = true) : Memory.wf (State.flushBuffer s
    p).fab.mem = true := by
  unfold State.flushBuffer
  simp +contextual only [State.onPseudo_mem, Memory.wf_setCell, implies_true, foldl_wf, hm]

theorem State.noteHbmCe_mem (s : State) (p : Nat) : (State.noteHbmCe s p).fab.mem = s.fab.mem := by
  unfold State.noteHbmCe
  simp only [State.note_mem, State.onPseudo_mem, ite_mem, ite_self]

theorem State.markDie_mem (s : State) (p die : Nat) : (State.markDie s p die).fab.mem = s.fab.mem := by
  unfold State.markDie
  simp only [State.note_mem, State.onPseudo_mem, State.record_mem, ite_mem, ite_self]

theorem State.hbmCorrected_mem (s : State) (p a die : Nat) : (State.hbmCorrected s p a die).fab.mem = s.fab.mem := by
  unfold State.hbmCorrected
  simp only [State.onStack_mem, State.onPseudo_mem, State.markDie_mem, State.noteHbmCe_mem]

theorem State.hbmUncorrectable_mem (s : State) (p a : Nat) (scrub : Bool) : (State.hbmUncorrectable s p a scrub).fab.mem =
    s.fab.mem := by
  unfold State.hbmUncorrectable
  dsimp only
  simp [State.onStack_mem, State.note_mem]

theorem State.hbmRead_mem (s : State) (p a : Nat) (ecc : Ecc) (scrub : Bool) : (State.hbmRead s p a ecc scrub).2.fab.mem =
    s.fab.mem := by
  unfold State.hbmRead
  split
  · rw [State.hbmUncorrectable_mem]
  · cases ecc
    · rfl
    · rw [State.hbmCorrected_mem]
    · rw [State.hbmUncorrectable_mem, State.setBad_mem]

theorem State.setLocalCell_wf (s : State) (a : Nat) (c : BitVec 512) (hm : Memory.wf s.fab.mem = true) : Memory.wf
    (State.setLocalCell s a c).fab.mem = true := by
  grind [State.setLocalCell, State.setHbmCell_wf, Memory.wf_setCell, foldl_mem, foldl_wf]

/-! ## Rdma -/

theorem State.onMsg_mem (s : State) (q id : Nat) (f : QpMsg → QpMsg) : (State.onMsg s q id f).fab.mem = s.fab.mem := by
  unfold State.onMsg
  simp only [State.onQp_mem]

theorem State.rdmaCell_mem (s : State) (q id i : Nat) (st : Status) (addr : W64) (data : Option (BitVec 512)) :
    (State.rdmaCell s q id i st addr data).fab.mem = s.fab.mem := by
  unfold State.rdmaCell
  simp only [State.onMsg_mem]

theorem State.rdmaFails_mem (s : State) (q : Nat) (psn : BitVec 24) (st : Status) (addr : W64) : (State.rdmaFails s q psn st
    addr).fab.mem = s.fab.mem := by
  unfold State.rdmaFails
  simp only [State.note_mem, State.onQp_mem, State.hostSend_mem]

theorem State.rdmaNak_mem (s : State) (q : Nat) (x : HostTx) : (State.rdmaNak s q x).fab.mem = s.fab.mem := by
  unfold State.rdmaNak
  simp only [State.onQp_mem, State.hostSend_mem]

theorem State.rdmaRefuse_mem (s : State) (q : Nat) (psn : BitVec 24) : (State.rdmaRefuse s q psn).fab.mem = s.fab.mem := by
  unfold State.rdmaRefuse
  simp only [State.onQp_mem, State.hostSend_mem]

theorem State.rdmaPacket_mem (s t : State) (q : Nat) (m : QpMsg) (h : State.rdmaPacket s q m = some t) : t.fab.mem = s.fab.mem := by
  unfold State.rdmaPacket at h
  dsimp only at h
  split at h
  · cases h; exact State.rdmaFails_mem ..
  · split at h
    · cases h; exact (State.onMsg_mem ..).trans (State.hostSend_mem ..)
    · cases h

theorem State.rdmaDone_mem (s : State) (q : Nat) (m : QpMsg) : (State.rdmaDone s q m).fab.mem = s.fab.mem := by
  unfold State.rdmaDone
  simp only [State.onQp_mem]

theorem State.rdmaHead_mem (s t : State) (q : Nat) (h : State.rdmaHead s q = some t) : t.fab.mem = s.fab.mem := by
  unfold State.rdmaHead at h
  split at h
  · cases h
  · split at h
    · cases h
    · split at h
      · split at h
        · exact State.rdmaPacket_mem _ _ _ _ h
        · cases h; exact State.rdmaDone_mem ..
      · split at h
        · split at h
          · cases h; exact State.rdmaFails_mem ..
          · cases h; exact (State.rdmaDone_mem ..).trans (State.hostSend_mem ..)
        · cases h

theorem State.rdmaIssue_mem (s : State) (q : Nat) (m : QpMsg) : (State.rdmaIssue s q m).fab.mem = s.fab.mem := by
  grind [State.rdmaIssue, State.onMsg_mem, State.rdmaCell_mem, State.countSour_mem, State.sendOp_mem, foldl_mem]

theorem State.rdmaPump_mem (n q : Nat) (s : State) : (State.rdmaPump n q s).fab.mem = s.fab.mem := by
  induction n generalizing s with
  | zero => rfl
  | succ n ih =>
    rw [State.rdmaPump]
    split
    · exact (ih _).trans (State.rdmaIssue_mem ..)
    · split
      · exact (ih _).trans (State.rdmaHead_mem _ _ _ ‹_›)
      · rfl

theorem State.pump_mem (s : State) (q : Nat) : (State.pump s q).fab.mem = s.fab.mem := State.rdmaPump_mem ..

theorem State.markCe_mem (s : State) (q : Nat) (ce : Bool) : (State.markCe s q ce).fab.mem = s.fab.mem := by
  unfold State.markCe
  simp only [State.onQp_mem, State.hostSend_mem, ite_mem, ite_self]

theorem State.takeMsg_mem (s : State) (q : Nat) (m : QpMsg) : (State.takeMsg s q m).fab.mem = s.fab.mem := by
  unfold State.takeMsg
  simp only [State.rdmaRefuse_mem, State.pump_mem, State.onQp_mem, ite_mem, ite_self]

theorem State.rdmaRequest_mem (s : State) (q : Nat) (psn : BitVec 24) (length : Nat) (ce : Bool) (f : State → State) (hf : ∀
    a, (f a).fab.mem = a.fab.mem) : (State.rdmaRequest s q psn length ce f).fab.mem = s.fab.mem := by
  unfold State.rdmaRequest
  dsimp only
  split
  · split
    · exact (State.rdmaNak_mem ..).trans (State.markCe_mem ..)
    · exact (hf _).trans (State.markCe_mem ..)
  · exact State.markCe_mem ..

theorem State.ringHead_mem (s : State) (q : Nat) : (State.ringHead s q).2.fab.mem = s.fab.mem := by
  unfold State.ringHead
  dsimp only
  repeat' split
  all_goals simp [State.takeFree_mem]

theorem State.takeSend_mem (s : State) (q : Nat) (psn : BitVec 24) (bytes : List Byte) : (State.takeSend s q psn
    bytes).fab.mem = s.fab.mem := by
  unfold State.takeSend
  simp only [State.rdmaNak_mem, State.ringHead_mem, State.rdmaRefuse_mem, State.takeMsg_mem, State.onQp_mem, ite_mem, ite_self]

/-! ## Fabric -/

theorem State.endOp_mem (s : State) (o : Op) : (State.endOp s o).fab.mem = s.fab.mem := by
  unfold State.endOp
  simp only [State.withhold_mem, ite_mem, ite_self]

theorem State.setOp_mem (s : State) (o : Op) : (State.setOp s o).fab.mem = s.fab.mem := by
  unfold State.setOp
  simp only

theorem State.forwardFails_mem (s : State) (slot : Nat) (req : W32) (status : Nat) : (State.forwardFails s slot req
    status).fab.mem = s.fab.mem := by
  unfold State.forwardFails
  dsimp only
  repeat' split
  all_goals first | with_reducible rfl | simp only [State.reply_mem]

theorem State.finishOp_mem (s : State) (o : Op) (data : BitVec 512) : (State.finishOp s o data).fab.mem = s.fab.mem := by
  unfold State.finishOp
  dsimp only
  repeat' split
  all_goals first | with_reducible rfl | simp only [State.countSour_mem, State.endOp_mem, State.seqDone_mem,
      State.ladleStored_mem, State.pump_mem, State.rdmaCell_mem, State.forwardFails_mem, implies_true, foldl_mem]

theorem State.takeResponse_mem (s : State) (o : Op) (i : Nat) (st : Status) (data : BitVec 512) : (State.takeResponse s o i
    st data).fab.mem = s.fab.mem := by
  unfold State.takeResponse
  dsimp only
  split
  · generalize (if s.inWindow _ _ _ 64 then _ else Status.sour SourCause.window) = own
    split
    · rw [ite_mem, State.endOp_mem, State.countSour_mem, State.setOp_mem, ite_self]
    · split
      · rw [ite_mem, State.endOp_mem, State.ladleCells_mem, State.countSour_mem, State.setOp_mem, ite_self]
      · dsimp only
        rw [State.countSour_mem, State.setOp_mem]
  · rw [ite_mem, State.pump_mem, State.endOp_mem, State.rdmaCell_mem, State.countSour_mem, State.setOp_mem, ite_self]
  · rw [ite_mem, State.endOp_mem, State.finishOp_mem, ite_self]

theorem State.failOp_mem (s : State) (o : Op) (st : Status) : (State.failOp s o st).fab.mem = s.fab.mem := by
  grind [State.failOp, State.takeResponse_mem, foldl_mem]

theorem State.lateResponse_mem (s : State) : (State.lateResponse s).fab.mem = s.fab.mem := by
  unfold State.lateResponse
  dsimp only

theorem State.landed_mem (s : State) (c : Cell) : (State.landed s c).fab.mem = s.fab.mem := by
  unfold State.landed
  simp only

theorem State.response_wf (s : State) (c : Cell) (st : Status) (hm : Memory.wf s.fab.mem = true) : Memory.wf (State.response
    s c st).fab.mem = true := by
  unfold State.response
  dsimp only
  repeat' split
  all_goals simp +contextual [State.landed_mem, State.lateResponse_mem, State.takeResponse_mem, State.finish_wf, hm]

theorem State.refused_wf (s : State) (c : Cell) (hm : Memory.wf s.fab.mem = true) : Memory.wf (State.refused s c).fab.mem = true := by
  unfold State.refused
  dsimp only
  repeat' split
  all_goals simp +contextual [State.landed_mem, State.lateResponse_mem, State.failOp_mem, State.finish_wf, hm]

theorem State.nackedBusy_mem (s : State) (c : Cell) : (State.nackedBusy s c).fab.mem = s.fab.mem := by
  unfold State.nackedBusy
  dsimp only
  repeat' split
  all_goals simp [State.landed_mem, State.lateResponse_mem, State.setOp_mem]

theorem State.resendBusy_mem (s : State) (port : Nat) (tag : W16) : (State.resendBusy s port tag).fab.mem = s.fab.mem := by
  unfold State.resendBusy
  dsimp only
  repeat' split
  all_goals first | with_reducible rfl | simp only [State.withhold_mem, State.takeTag_mem, State.launchAll_mem]

theorem State.darkNotice_wf (s : State) (source dark : Nat) (hm : Memory.wf s.fab.mem = true) : Memory.wf (State.darkNotice
    s source dark).fab.mem = true := by
  unfold State.darkNotice
  dsimp only
  repeat' split
  all_goals simp +contextual [State.failOp_mem, State.finish_wf, implies_true, foldl_mem, hm]

theorem State.dropBad_mem (s : State) (c : Cell) : (State.dropBad s c).fab.mem = s.fab.mem := by
  unfold State.dropBad
  simp only [State.landed_mem, State.note_mem, ite_mem, ite_self]

theorem State.answerSour_mem (s : State) (c : Cell) (cause : SourCause) : (State.answerSour s c cause).fab.mem = s.fab.mem := by
  unfold State.answerSour
  simp only [State.launchAll_mem]

theorem State.touch_mem (s : State) (a : Nat) : (State.touch s a).2.fab.mem = s.fab.mem := by
  unfold State.touch
  dsimp only
  repeat' split
  all_goals simp [State.onVat_mem, State.onCream_mem, State.onStack_mem]

theorem State.enqueue_mem (s : State) (a : Nat) (r : TReq) : (State.enqueue s a r).fab.mem = s.fab.mem := by
  unfold State.enqueue
  dsimp only
  repeat' split
  all_goals first | with_reducible rfl | simp only [State.touch_mem]

theorem State.accept_mem (s : State) (head : Cell) (frags : List (Nat × BitVec 512)) : (State.accept s head frags).fab.mem =
    s.fab.mem := by
  grind [State.accept, State.answerSour_mem, State.enqueue_mem, foldl_mem]

theorem State.arrive_mem (s : State) (c : Cell) : (State.arrive s c).fab.mem = s.fab.mem := by
  unfold State.arrive
  simp only [State.landed_mem, State.launch_mem, State.fly_mem, State.accept_mem, ite_mem, ite_self]

theorem State.deliver_mem (s : State) (h : Cell) (frags : List (Nat × BitVec 512)) : (State.deliver s h frags).fab.mem = s.fab.mem := by
  unfold State.deliver
  simp only [State.launch_mem, ite_mem, ite_self]

theorem State.assembled_mem (s : State) (a : Assembly) : (State.assembled s a).fab.mem = s.fab.mem := by
  unfold State.assembled
  dsimp only
  repeat' split
  all_goals first | with_reducible rfl | simp only [State.deliver_mem, State.accept_mem]

theorem State.keepAsm_mem (s : State) (c : Cell) (a : Assembly) : (State.keepAsm s c a).fab.mem = s.fab.mem := by
  unfold State.keepAsm
  simp only [State.fly_mem, State.assembled_mem, ite_mem, ite_self]

theorem State.assemble_mem (s : State) (c : Cell) : (State.assemble s c).fab.mem = s.fab.mem := by
  unfold State.assemble
  dsimp only
  repeat' split
  all_goals simp [State.landed_mem, State.keepAsm_mem, State.launch_mem]

/-! ## Links -/

theorem State.respray_mem (s : State) (l : Nat) : (State.respray s l).fab.mem = s.fab.mem := by
  unfold State.respray
  simp only [State.launch_mem, State.onLink_mem, implies_true, foldl_mem]

theorem State.fastRetrain_mem (s : State) (l : Nat) : (State.fastRetrain s l).fab.mem = s.fab.mem := by
  unfold State.fastRetrain
  simp only [State.onLink_mem, State.respray_mem, ite_mem, ite_self]

theorem State.linkToDown_mem (s : State) (l : Nat) : (State.linkToDown s l).fab.mem = s.fab.mem := by
  unfold State.linkToDown
  dsimp only
  repeat' split
  all_goals simp [State.linkFall_mem, State.onLink_mem, State.record_mem]

theorem State.linkHold_mem (s : State) (l : Nat) (m : LinkMode) : (State.linkHold s l m).fab.mem = s.fab.mem := by
  grind [State.linkHold, State.onLink_mem, State.linkFall_mem, foldl_mem]

theorem State.linkMiscabled_mem (s : State) (l cause : Nat) : (State.linkMiscabled s l cause).fab.mem = s.fab.mem := by
  unfold State.linkMiscabled
  simp only [State.record_mem, State.onLink_mem, State.linkHold_mem]

theorem State.linkTrain_mem (s : State) (l : Nat) : (State.linkTrain s l).fab.mem = s.fab.mem := by
  grind [State.linkTrain, State.onLink_mem, foldl_mem]

theorem State.setRoute_mem (s : State) (d j : Nat) (w : W32) : (State.setRoute s d j w).fab.mem = s.fab.mem := by
  unfold State.setRoute
  simp only

theorem State.checkRoute_mem (s : State) (d j : Nat) : (State.checkRoute s d j).fab.mem = s.fab.mem := by
  unfold State.checkRoute
  simp only [State.note_mem, ite_mem, ite_self]

theorem State.fillSlot_mem (s : State) (d : Nat) (w : W32) : (State.fillSlot s d w).fab.mem = s.fab.mem := by
  grind [State.fillSlot, State.setRoute_mem, foldl_mem]

theorem State.routeFill_mem (s : State) (l : Nat) : (State.routeFill s l).fab.mem = s.fab.mem := by
  unfold State.routeFill
  simp only [State.fillSlot_mem, ite_mem, ite_self, implies_true, foldl_mem]

theorem State.peerChanged_mem (s : State) (l old : Nat) : (State.peerChanged s l old).fab.mem = s.fab.mem := by
  unfold State.peerChanged
  dsimp only
  first | with_reducible rfl | simp only [State.setRoute_mem, State.note_mem, ite_mem, ite_self, implies_true, foldl_mem]

theorem State.linkUp_mem (s : State) (l old : Nat) : (State.linkUp s l old).fab.mem = s.fab.mem := by
  unfold State.linkUp
  simp only [State.onLink_mem, State.routeFill_mem, State.peerChanged_mem, State.checkRoute_mem, State.drainLink_mem, ite_mem,
      ite_self, implies_true, foldl_mem]

theorem State.linkNarrow_mem (s : State) (l : Nat) : (State.linkNarrow s l).fab.mem = s.fab.mem := by
  unfold State.linkNarrow
  simp only [State.note_mem]

theorem State.trainingEnds_mem (s : State) (l : Nat) (obs : TrainObs) : (State.trainingEnds s l obs).fab.mem = s.fab.mem := by
  unfold State.trainingEnds
  dsimp only
  repeat' split
  all_goals simp [State.onLink_mem, State.linkToDown_mem, State.linkUp_mem, State.note_mem, State.linkNarrow_mem,
      State.linkMiscabled_mem, ite_mem, foldl_mem]

theorem State.retrainEnds_mem (s : State) (l : Nat) (obs : Option TrainObs) : (State.retrainEnds s l obs).fab.mem = s.fab.mem := by
  unfold State.retrainEnds
  dsimp only
  repeat' split
  all_goals first | with_reducible rfl | simp only [State.linkToDown_mem, State.note_mem, State.linkUp_mem, State.onLink_mem,
      State.linkNarrow_mem, State.linkMiscabled_mem]

theorem State.retryLink_mem (s : State) (l : Nat) : (State.retryLink s l).fab.mem = s.fab.mem := by
  grind [State.retryLink, State.linkTrain_mem, State.fastRetrain_mem, foldl_mem]

theorem State.lnkRetrain_mem (s : State) (mask : Nat) : (State.lnkRetrain s mask).fab.mem = s.fab.mem := by
  unfold State.lnkRetrain
  simp only [State.linkTrain_mem, State.fastRetrain_mem, implies_true, foldl_mem]

theorem State.setLaneLost_mem (s : State) (l lane : Nat) (lost : Bool) : (State.setLaneLost s l lane lost).fab.mem = s.fab.mem := by
  unfold State.setLaneLost
  simp only [State.onLink_mem, State.fastRetrain_mem, ite_mem, ite_self]

theorem State.applyLnkCfg_mem (s : State) (l : Nat) (mask : Byte) (disable : Bool) : (State.applyLnkCfg s l mask
    disable).fab.mem = s.fab.mem := by
  unfold State.applyLnkCfg
  simp only [State.onLink_mem, State.linkHold_mem, State.linkTrain_mem, State.fastRetrain_mem, ite_mem, ite_self]

theorem State.writeLnkCfg_mem (s : State) (l : Nat) (value : Nat) : (State.writeLnkCfg s l value).fab.mem = s.fab.mem := by
  unfold State.writeLnkCfg
  dsimp only
  repeat' split
  all_goals simp [State.onLink_mem, State.applyLnkCfg_mem]

theorem State.transitDrop_mem (s : State) : (State.transitDrop s).fab.mem = s.fab.mem := by
  unfold State.transitDrop
  simp only [State.note_mem, ite_mem, ite_self]

theorem State.transit_mem (s : State) (c : Cell) : (State.transit s c).fab.mem = s.fab.mem := by
  grind [State.transit, State.spray_mem, State.sendLink_mem, State.launchAll_mem, State.transitDrop_mem, foldl_mem]

theorem State.hubTidy_mem (s : State) (e : Assembly) : (State.hubTidy s e).fab.mem = s.fab.mem := by
  unfold State.hubTidy
  simp only

theorem State.hubHead_mem (s : State) (hub : Nat) (c : Cell) : (State.hubHead s hub c).fab.mem = s.fab.mem := by
  unfold State.hubHead
  dsimp only
  repeat' split
  all_goals first | with_reducible rfl | simp only [State.launchAll_mem, State.hubTidy_mem, State.fly_mem, implies_true, foldl_mem]

theorem State.hubData_mem (s : State) (hub : Nat) (c : Cell) : (State.hubData s hub c).fab.mem = s.fab.mem := by
  unfold State.hubData
  dsimp only
  repeat' split
  all_goals simp [State.hubTidy_mem, State.fly_mem, State.launch_mem]

theorem State.hubArrive_mem (s : State) (l : Nat) (c : Cell) : (State.hubArrive s l c).fab.mem = s.fab.mem := by
  grind [State.hubArrive, State.dropBad_mem, State.transit_mem, State.launchAll_mem, State.fly_mem, State.hubHead_mem,
      State.hubData_mem, foldl_mem]

theorem State.groupIn_mem (s : State) (l : Nat) (seq : BitVec 12) (crcOk : Bool) (cells : List Cell) : (State.groupIn s l
    seq crcOk cells).fab.mem = s.fab.mem := by
  unfold State.groupIn
  simp only [State.onLink_mem, State.hubArrive_mem, ite_mem, ite_self, implies_true, foldl_mem]

theorem State.groupsAcked_mem (s : State) (l : Nat) (seq : BitVec 12) : (State.groupsAcked s l seq).fab.mem = s.fab.mem := by
  unfold State.groupsAcked
  simp only [State.drainLink_mem, State.onLink_mem, ite_mem, ite_self]

theorem State.groupNaked_mem (s : State) (l : Nat) (seq : BitVec 12) : (State.groupNaked s l seq).fab.mem = s.fab.mem := by
  unfold State.groupNaked
  simp only [State.fastRetrain_mem, State.onLink_mem, ite_mem, ite_self]

theorem State.sendNotices_mem (s : State) (hub : Nat) : (State.sendNotices s hub).fab.mem = s.fab.mem := by
  unfold State.sendNotices
  dsimp only
  simp [State.takeTag_mem, State.sendLink_mem, foldl_mem]

/-! ## Clocks -/

theorem State.noteOverride_mem (s : State) (v : Nat) : (State.noteOverride s v).fab.mem = s.fab.mem := by
  unfold State.noteOverride
  simp only [State.note_mem, State.onVat_mem, ite_mem, ite_self]

theorem State.noteFallback_mem (s : State) (v : Nat) : (State.noteFallback s v).fab.mem = s.fab.mem := by
  unfold State.noteFallback
  simp only [State.note_mem, State.onVat_mem, ite_mem, ite_self]

theorem State.droop_mem (s : State) (v : Nat) : (State.droop s v).fab.mem = s.fab.mem := by
  unfold State.droop
  simp only [State.onVat_mem, State.noteFallback_mem, ite_mem, ite_self]

theorem State.loseRef_mem (s : State) (byFrequency : Bool) : (State.loseRef s byFrequency).fab.mem = s.fab.mem := by
  unfold State.loseRef
  simp only [State.note_mem, ite_mem, ite_self]

theorem State.retireDie_mem (s : State) (d : Nat) : (State.retireDie s d).fab.mem = s.fab.mem := by
  unfold State.retireDie
  simp only [State.onVat_mem, State.onPort_mem, State.onCream_mem, implies_true, foldl_mem]

theorem State.retireDieFor_wf (s : State) (d cause : Nat) (code : W16) (details : List W64) (hm : Memory.wf s.fab.mem =
    true) : Memory.wf (State.retireDieFor s d cause code details).fab.mem = true := by
  unfold State.retireDieFor
  simp +contextual only [State.record_mem, State.retireDie_mem, State.abortLoads_mem, State.endHandling_mem,
      State.takeOver_mem, State.finish_wf, hm]

theorem State.clockLoss_wf (s : State) (d : Nat) (hm : Memory.wf s.fab.mem = true) : Memory.wf (State.clockLoss s d).fab.mem
    = true := by
  unfold State.clockLoss
  dsimp only
  repeat' split
  all_goals simp +contextual [State.record_mem, State.announce_mem, State.finish_wf, State.retireDieFor_wf, hm]

theorem State.pllFail_wf (s : State) (f : Nat) (hm : Memory.wf s.fab.mem = true) : Memory.wf (State.pllFail s f).fab.mem = true := by
  unfold State.pllFail
  dsimp only
  repeat' split
  all_goals first | exact hm | simp +contextual only [State.record_mem, State.finish_wf, hm]

/-! ## Power -/

theorem State.sampleEnergy_mem (s : State) (cv : W16) (a b : BitVec 9) : (State.sampleEnergy s cv a b).fab.mem = s.fab.mem := by
  unfold State.sampleEnergy
  simp only

theorem State.lowerCap_mem (s : State) : (State.lowerCap s).fab.mem = s.fab.mem := by
  unfold State.lowerCap
  simp only

theorem State.enforceStep_wf (s : State) (hm : Memory.wf s.fab.mem = true) : Memory.wf (State.enforceStep s).fab.mem = true := by
  unfold State.enforceStep
  dsimp only
  repeat' split
  all_goals simp +contextual [State.record_mem, State.lowerCap_mem, State.note_mem, State.finish_wf, hm]

theorem State.enterEnforce_wf (s : State) (hm : Memory.wf s.fab.mem = true) : Memory.wf (State.enterEnforce s).fab.mem = true := by
  unfold State.enterEnforce
  simp +contextual only [State.enforceStep_wf, hm]

theorem State.enterGrace_mem (s : State) : (State.enterGrace s).fab.mem = s.fab.mem := by
  unfold State.enterGrace
  dsimp only
  first | with_reducible rfl | simp only [State.notify_mem]

theorem State.comparePower_wf (s : State) (hm : Memory.wf s.fab.mem = true) : Memory.wf (State.comparePower s).fab.mem = true := by
  unfold State.comparePower
  dsimp only
  repeat' split
  all_goals simp +contextual [State.enterGrace_mem, State.note_mem, State.enforceStep_wf, State.enterEnforce_wf, hm]

theorem State.raiseCap_mem (s : State) : (State.raiseCap s).fab.mem = s.fab.mem := by
  unfold State.raiseCap
  simp only [ite_mem, ite_self]

theorem State.setLimit_mem (s : State) (w : Nat) : (State.setLimit s w).fab.mem = s.fab.mem := by
  unfold State.setLimit
  simp only

theorem State.lugLost_mem (s : State) (pairB : Bool) : (State.lugLost s pairB).fab.mem = s.fab.mem := by
  unfold State.lugLost
  simp only [State.note_mem]

theorem State.noteRetired_mem (s : State) (unit : W16) (cause : Nat) : (State.noteRetired s unit cause).fab.mem = s.fab.mem := by
  unfold State.noteRetired
  simp only [State.record_mem]

theorem State.dropVat_mem (s : State) (v : Nat) : (State.dropVat s v).fab.mem = s.fab.mem := by
  unfold State.dropVat
  dsimp only
  first | with_reducible rfl | simp only [State.ctxFault_mem, State.onVat_mem, State.abortLoads_mem, State.stopTiles_mem,
      State.failRequests_mem, implies_true, foldl_mem]

theorem State.retireVat_mem (s : State) (v cause : Nat) : (State.retireVat s v cause).fab.mem = s.fab.mem := by
  unfold State.retireVat
  dsimp only
  first | with_reducible rfl | simp only [State.dropVat_mem, State.noteRetired_mem]

theorem State.retireCream_mem (s : State) (c cause : Nat) : (State.retireCream s c cause).fab.mem = s.fab.mem := by
  unfold State.retireCream
  simp only [State.onCream_mem, State.noteRetired_mem, State.failRequests_mem]

theorem State.retireStack_mem (s : State) (k cause : Nat) : (State.retireStack s k cause).fab.mem = s.fab.mem := by
  unfold State.retireStack
  simp only [State.onStack_mem, State.noteRetired_mem, State.failRequests_mem]

theorem State.haltSoon_mem (s : State) (kind : Nat) (seq : W64) : (State.haltSoon s kind seq).fab.mem = s.fab.mem := by
  unfold State.haltSoon
  dsimp only

theorem State.railOut_wf (s : State) (r : Rail) (mv : Nat) (hm : Memory.wf s.fab.mem = true) : Memory.wf (State.railOut s r
    mv).fab.mem = true := by
  have vat (v : Nat) (l : List W64) : Memory.wf (if 3 ≤ l.length then
      (((({ s with board := { s.board with pwrOk := false }, pwr := { s.pwr with badRails := r :: s.pwr.badRails } } : State).onVat v
        fun x => { x with railFaults := l }).record 0x0401 .unit (unitRail (railNum r)) none
        [BitVec.ofNat 64 (railNum r), BitVec.ofNat 64 mv] none).retireVat v 4)
      else (({ s with board := { s.board with pwrOk := false }, pwr := { s.pwr with badRails := r :: s.pwr.badRails } } : State).onVat v
        fun x => { x with railFaults := l }).record 0x0401 .unit (unitRail (railNum r)) none
        [BitVec.ofNat 64 (railNum r), BitVec.ofNat 64 mv] (some (.vat v))).fab.mem = true := by
    rw [ite_mem, State.retireVat_mem, State.record_mem, State.record_mem, State.onVat_mem, ite_self]
    exact hm
  unfold State.railOut
  apply State.finish_wf
  cases r
  case vat v => exact vat _ _
  case ret v => exact vat _ _
  all_goals
    simp only [State.record_mem, State.retireCream_mem, State.retireStack_mem, State.haltSoon_mem]
    exact hm

theorem State.irDrop_mem (s : State) (v loss : Nat) (raise : Bool) : (State.irDrop s v loss raise).fab.mem = s.fab.mem := by
  unfold State.irDrop
  dsimp only
  repeat' split
  all_goals first | with_reducible rfl | simp only [State.retireVat_mem, State.note_mem, State.onVat_mem]

theorem State.powerLost_wf (s : State) : Memory.wf (State.powerLost s).fab.mem = true := rfl

theorem State.powerOn_wf (s : State) (refValid : Bool) : Memory.wf (State.powerOn s refValid).fab.mem = true := by
  unfold State.powerOn
  simp +contextual only [State.note_mem, State.powerLost_wf, ite_mem, ite_self]

theorem State.inputTrip_wf (s : State) : Memory.wf (State.inputTrip s).fab.mem = true := by
  unfold State.inputTrip
  simp +contextual only [State.powerLost_wf]

/-! ## Thermal -/

theorem State.setLevel_mem (s : State) (r l : Nat) : (State.setLevel s r l).fab.mem = s.fab.mem := by
  unfold State.setLevel
  simp only [State.note_mem, ite_mem, ite_self]

theorem State.raiseLevel_mem (s : State) (r : Nat) : (State.raiseLevel s r).fab.mem = s.fab.mem := by
  unfold State.raiseLevel
  simp only [State.setLevel_mem, ite_mem, ite_self]

theorem State.breakSensor_mem (s : State) (r k cause : Nat) : (State.breakSensor s r k cause).fab.mem = s.fab.mem := by
  unfold State.breakSensor
  simp only [State.note_mem, ite_mem, ite_self]

theorem State.checkBlind_mem (s : State) (r : Nat) : (State.checkBlind s r).fab.mem = s.fab.mem := by
  unfold State.checkBlind
  simp only [State.record_mem, ite_mem, ite_self]

theorem State.readSensor_mem (s : State) (r k : Nat) (v : Int) : (State.readSensor s r k v).fab.mem = s.fab.mem := by
  unfold State.readSensor
  simp only [State.breakSensor_mem, ite_mem, ite_self]

theorem State.checkDisagree_mem (s : State) (f : Nat) : (State.checkDisagree s f).fab.mem = s.fab.mem := by
  unfold State.checkDisagree
  simp only [State.note_mem, ite_mem, ite_self]

theorem State.trip_wf (s : State) (source region : Nat) (temp : Int) (hm : Memory.wf s.fab.mem = true) : Memory.wf
    (State.trip s source region temp).fab.mem = true := by
  unfold State.trip
  dsimp only
  repeat' split
  all_goals first | exact hm | simp +contextual only [State.dropRails_wf]

theorem State.fieldCritical_mem (s : State) (f : Nat) : (State.fieldCritical s f).fab.mem = s.fab.mem := by
  unfold State.fieldCritical
  simp only

theorem State.checkTrip_wf (s : State) (r : Nat) (hm : Memory.wf s.fab.mem = true) : Memory.wf (State.checkTrip s r).fab.mem
    = true := by
  unfold State.checkTrip
  dsimp only
  repeat' split
  all_goals first | exact hm | simp +contextual only [State.trip_wf, hm]

theorem State.roundOf_wf (s : State) (r : Nat) (hm : Memory.wf s.fab.mem = true) : Memory.wf (State.roundOf s r).fab.mem = true := by
  unfold State.roundOf
  simp +contextual only [State.fieldCritical_mem, State.checkDisagree_mem, State.checkBlind_mem, State.raiseLevel_mem,
      State.checkTrip_wf, ite_mem, ite_self, hm]

theorem State.thermalRound_wf (s : State) (readings : List Reading) (hm : Memory.wf s.fab.mem = true) : Memory.wf
    (State.thermalRound s readings).fab.mem = true := by
  grind [State.thermalRound, State.readSensor_mem, State.finish_wf, State.roundOf_wf, foldl_mem, foldl_wf]

theorem State.decayLevels_mem (s : State) : (State.decayLevels s).fab.mem = s.fab.mem := by
  unfold State.decayLevels
  simp only [State.setLevel_mem, ite_mem, ite_self, implies_true, foldl_mem]

theorem State.recordTrip_mem (s : State) : (State.recordTrip s).fab.mem = s.fab.mem := by
  unfold State.recordTrip
  simp only [State.announce_mem, ite_mem, ite_self]

theorem State.creamSample_mem (s : State) (c : Nat) : (State.creamSample s c).fab.mem = s.fab.mem := by
  unfold State.creamSample
  simp only [State.onCream_mem, State.note_mem, ite_mem, ite_self]

theorem State.stackSample_mem (s : State) (k : Nat) : (State.stackSample s k).fab.mem = s.fab.mem := by
  unfold State.stackSample
  simp only [State.onStack_mem, State.note_mem, ite_mem, ite_self]

/-! ## Time -/

theorem State.elapse_mem (s : State) (n : Nat) : (State.elapse s n).fab.mem = s.fab.mem := by
  unfold State.elapse
  simp only [ite_mem, ite_self]

theorem State.elapseToFrame_mem (s : State) (d : Nat) : (State.elapseToFrame s d).fab.mem = s.fab.mem := by
  unfold State.elapseToFrame
  simp only [State.elapse_mem]

/-! ## Rings -/

theorem State.ringNote_mem (s : State) (code : W16) (e : Nat) (details : List Nat) (sev : Severity) : (State.ringNote s code
    e details sev).fab.mem = s.fab.mem := by
  unfold State.ringNote
  simp only [State.note_mem]

theorem State.remedy_mem (s : State) (e : Nat) : (State.remedy s e).fab.mem = s.fab.mem := by
  unfold State.remedy
  dsimp only
  repeat' split
  all_goals simp [State.onRing_mem, State.ringNote_mem, State.setLaneLost_mem]

theorem State.enterFault_mem (s : State) (e : Nat) (step : RingStep) : (State.enterFault s e step).fab.mem = s.fab.mem := by
  unfold State.enterFault
  simp only [State.onRing_mem]

theorem State.ringFails_mem (s : State) (e : Nat) (cause : RingCause) : (State.ringFails s e cause).fab.mem = s.fab.mem := by
  unfold State.ringFails
  simp only [State.remedy_mem, State.ringNote_mem, State.enterFault_mem]

theorem State.calibrate_mem (s : State) (e : Nat) : (State.calibrate s e).fab.mem = s.fab.mem := by
  unfold State.calibrate
  simp only [State.onRing_mem]

theorem State.takeOut_mem (s : State) (e : Nat) : (State.takeOut s e).fab.mem = s.fab.mem := by
  unfold State.takeOut
  simp only [State.remedy_mem, State.onRing_mem, ite_mem, ite_self]

theorem State.mislock_mem (s : State) (e found : Nat) : (State.mislock s e found).fab.mem = s.fab.mem := by
  unfold State.mislock
  simp only [State.ringNote_mem, State.takeOut_mem, State.onRing_mem, ite_mem, ite_self]

theorem State.replaceFailed_mem (s : State) (m d : Nat) : (State.replaceFailed s m d).fab.mem = s.fab.mem := by
  unfold State.replaceFailed
  dsimp only
  repeat' split
  all_goals simp [State.takeOut_mem]

theorem State.windowCleared_mem (s : State) (e : Nat) : (State.windowCleared s e).fab.mem = s.fab.mem := by
  unfold State.windowCleared
  simp only [State.onRing_mem, State.replaceFailed_mem, implies_true, foldl_mem]

theorem State.windowEnds_mem (s : State) (e : Nat) (amps : List Nat) : (State.windowEnds s e amps).fab.mem = s.fab.mem := by
  unfold State.windowEnds
  dsimp only
  repeat' split
  all_goals simp [State.mislock_mem, State.windowCleared_mem, State.calibrate_mem]

theorem State.acquired_mem (s : State) (e : Nat) (dips : List Dip) : (State.acquired s e dips).fab.mem = s.fab.mem := by
  unfold State.acquired
  dsimp only
  repeat' split
  all_goals simp [State.onRing_mem, State.calibrate_mem, State.ringFails_mem]

theorem State.ringsAtBoundary_mem (s : State) (steps : List (Nat × Int)) : (State.ringsAtBoundary s steps).fab.mem = s.fab.mem := by
  unfold State.ringsAtBoundary
  dsimp only
  repeat' split
  all_goals simp [State.ringNote_mem, foldl_mem]

theorem State.buildRings_mem (s : State) : (State.buildRings s).fab.mem = s.fab.mem := by
  unfold State.buildRings
  simp only [State.takeFree_mem]

theorem State.hashRings_mem (s : State) : (State.hashRings s).fab.mem = s.fab.mem := by
  unfold State.hashRings
  simp only [ite_mem, ite_self]

theorem State.estimate_wf (s : State) (f : Nat) (hm : Memory.wf s.fab.mem = true) : Memory.wf (State.estimate s f).fab.mem = true := by
  unfold State.estimate
  dsimp only
  repeat' split
  all_goals simp +contextual [State.takeFree_mem, State.note_mem, State.checkBlind_mem, State.checkDisagree_mem,
      State.finish_wf, hm]

/-! ## Light -/

theorem State.lineUp_mem (s : State) (k n : Nat) : (State.lineUp s k n).fab.mem = s.fab.mem := by
  unfold State.lineUp
  simp only [State.onRing_mem, State.lnkRetrain_mem, State.setLaneLost_mem, State.ethLight_mem, ite_mem, ite_self,
      implies_true, foldl_mem]

theorem State.lineDown_mem (s : State) (m k n : Nat) : (State.lineDown s m k n).fab.mem = s.fab.mem := by
  unfold State.lineDown
  simp only [State.note_mem, State.setLaneLost_mem, State.ethLight_mem, ite_mem, ite_self, implies_true, foldl_mem]

theorem State.linesChange_mem (s : State) (m k : Nat) (old new : W32) : (State.linesChange s m k old new).fab.mem = s.fab.mem := by
  unfold State.linesChange
  simp only [State.lineDown_mem, State.lineUp_mem, ite_mem, ite_self, implies_true, foldl_mem]

theorem State.tidySwaps_mem (s : State) : (State.tidySwaps s).fab.mem = s.fab.mem := by
  unfold State.tidySwaps
  simp only

theorem State.askSwap_mem (s : State) (k m : Nat) (kind : SwapKind) : (State.askSwap s k m kind).fab.mem = s.fab.mem := by
  unfold State.askSwap
  simp only [ite_mem, ite_self]

theorem State.startSwap_mem (s : State) (e : SwapReq) (t : Nat) : (State.startSwap s e t).fab.mem = s.fab.mem := by
  unfold State.startSwap
  simp only [State.onSector_mem]

theorem State.beginSwap_mem (s : State) (k : Nat) : (State.beginSwap s k).fab.mem = s.fab.mem := by
  unfold State.beginSwap
  dsimp only
  repeat' split
  all_goals simp [State.startSwap_mem, State.onSector_mem, State.notifyService_mem, State.record_mem]

theorem State.sectorDie_wf (s : State) (d : Nat) (hm : Memory.wf s.fab.mem = true) : Memory.wf (State.sectorDie s d).fab.mem
    = true := by
  unfold State.sectorDie
  dsimp only
  repeat' split
  all_goals simp +contextual [State.retireDie_mem, State.abortLoads_mem, State.endHandling_mem, State.takeOver_mem,
      State.finish_wf, hm]

theorem State.darkMemory_mem (s : State) (k : Nat) : (State.darkMemory s k).fab.mem = s.fab.mem := by
  unfold State.darkMemory
  simp only [State.onPort_mem, State.failRequests_mem, State.note_mem, ite_mem, ite_self]

theorem State.sectorDark_wf (s : State) (k m : Nat) (hm : Memory.wf s.fab.mem = true) : Memory.wf (State.sectorDark s k
    m).fab.mem = true := by
  grind [State.sectorDark, State.record_mem, State.onSector_mem, State.tidySwaps_mem, State.darkMemory_mem,
      State.linkToDown_mem, State.ethLight_mem, State.sectorDie_wf, foldl_mem, foldl_wf]

theorem State.relightSector_mem (s : State) (k m : Nat) : (State.relightSector s k m).fab.mem = s.fab.mem := by
  unfold State.relightSector
  simp only [State.onCage_mem, State.onSector_mem, State.onPort_mem, State.note_mem, State.linkTrain_mem, State.ethLight_mem,
      State.linesChange_mem, ite_mem, ite_self, implies_true, foldl_mem]

theorem State.lightAtBoundary_mem (s : State) : (State.lightAtBoundary s).fab.mem = s.fab.mem := by
  grind [State.lightAtBoundary, State.relightSector_mem, foldl_mem]

theorem State.acceptStart_mem (s : State) (m : Nat) : (State.acceptStart s m).fab.mem = s.fab.mem := by
  unfold State.acceptStart
  simp only [State.onCage_mem, ite_mem, ite_self]

theorem State.commission_mem (s : State) (m : Nat) (o : AcceptObs) : (State.commission s m o).2.fab.mem = s.fab.mem := by
  unfold State.commission
  dsimp only
  repeat' split
  all_goals simp

theorem State.accepted_mem (s : State) (m : Nat) (o : AcceptObs) : (State.accepted s m o).fab.mem = s.fab.mem := by
  unfold State.accepted
  dsimp only
  repeat' split
  all_goals simp [State.commission_mem, State.onCage_mem, State.linesChange_mem, State.askSwap_mem]

theorem State.assignSectors_wf (s : State) (hm : Memory.wf s.fab.mem = true) : Memory.wf (State.assignSectors s).fab.mem = true := by
  grind [State.assignSectors, State.onCage_mem, State.onSector_mem, State.sectorDark_wf, foldl_mem, foldl_wf]

theorem State.holdLines_mem (s : State) (m k : Nat) : (State.holdLines s m k).fab.mem = s.fab.mem := by
  unfold State.holdLines
  simp only [State.onRing_mem, implies_true, foldl_mem]

theorem State.fadeAlarm_mem (s : State) (m : Nat) : (State.fadeAlarm s m).fab.mem = s.fab.mem := by
  unfold State.fadeAlarm
  simp only [State.notify_mem, State.note_mem]

theorem State.levelSwaps_mem (s : State) (m k old new : Nat) : (State.levelSwaps s m k old new).fab.mem = s.fab.mem := by
  unfold State.levelSwaps
  simp only [State.askSwap_mem, State.holdLines_mem, ite_mem, ite_self]

theorem State.sampleLines_mem (s : State) (m : Nat) (powers : List Int) : (State.sampleLines s m powers).fab.mem = s.fab.mem := by
  grind [State.sampleLines, State.onCage_mem, State.fadeAlarm_mem, State.linesChange_mem, State.levelSwaps_mem, foldl_mem]

theorem State.telemetry_mem (s : State) (m : Nat) (answered : Bool) (temp : Int) (fault : Bool) : (State.telemetry s m
    answered temp fault).fab.mem = s.fab.mem := by
  grind [State.telemetry, State.checkBlind_mem, State.readSensor_mem, State.onCage_mem, State.askSwap_mem, foldl_mem]

theorem State.setPhase_mem (s : State) (k : Nat) (p : SwapPhase) : (State.setPhase s k p).fab.mem = s.fab.mem := by
  unfold State.setPhase
  simp only [State.onSector_mem]

theorem State.verifyFails_mem (s : State) (k : Nat) : (State.verifyFails s k).fab.mem = s.fab.mem := by
  unfold State.verifyFails
  dsimp only
  repeat' split
  all_goals simp [State.note_mem, State.onCage_mem, State.onSector_mem, State.beginSwap_mem, State.tidySwaps_mem]

theorem State.onTarget_mem (s : State) (k : Nat) (x : Swap) : (State.onTarget s k x).fab.mem = s.fab.mem := by
  unfold State.onTarget
  simp only [State.onCage_mem, State.onSector_mem, State.linesChange_mem, State.tidySwaps_mem, State.askSwap_mem, ite_mem, ite_self]

theorem State.confirmSwap_mem (s : State) (k : Nat) : (State.confirmSwap s k).fab.mem = s.fab.mem := by
  unfold State.confirmSwap
  dsimp only
  repeat' split
  all_goals simp [State.onCage_mem, State.onSector_mem, State.note_mem]

theorem State.releaseSource_mem (s : State) (k m : Nat) : (State.releaseSource s k m).fab.mem = s.fab.mem := by
  unfold State.releaseSource
  dsimp only
  repeat' split
  all_goals first | with_reducible rfl | simp only [State.beginSwap_mem, State.askSwap_mem, State.onSector_mem]

theorem State.releaseTarget_mem (s : State) (m : Nat) : (State.releaseTarget s m).fab.mem = s.fab.mem := by
  unfold State.releaseTarget
  dsimp only
  repeat' split
  all_goals first | with_reducible rfl | simp only [State.onSector_mem, State.beginSwap_mem]

theorem State.latchOpens_mem (s : State) (m : Nat) : (State.latchOpens s m).fab.mem = s.fab.mem := by
  unfold State.latchOpens
  dsimp only
  repeat' split
  all_goals first | with_reducible rfl | simp only [State.onCage_mem, State.releaseSource_mem, State.releaseTarget_mem]

theorem State.extract_wf (s : State) (m : Nat) (hm : Memory.wf s.fab.mem = true) : Memory.wf (State.extract s m).fab.mem = true := by
  unfold State.extract
  dsimp only
  repeat' split
  all_goals simp +contextual [State.onCage_mem, State.releaseTarget_mem, State.onTarget_mem, State.sectorDark_wf, hm]

/-! ## Separator -/

theorem State.sepWrite_wf (s t : State) (c : Nat) (x : Int) (b : List Byte) (h : State.sepWrite s c x b = some t) (hm :
    Memory.wf s.fab.mem = true) : Memory.wf t.fab.mem = true := by
  unfold State.sepWrite at h
  cases e : s.windowed c x b.length with
  | none => rw [e] at h; cases h
  | some a =>
    rw [e] at h
    cases h
    apply Memory.wf_setBytes
    rw [ite_mem, State.clearBad_mem, ite_self]
    exact hm

theorem State.doorbell_mem (s : State) (c : Nat) : (State.doorbell s c).fab.mem = s.fab.mem := by
  unfold State.doorbell
  extract_lets x r
  split
  · rfl
  · generalize s.sepRead c _ _ = o
    cases o
    · rfl
    · rw [State.onEngine_mem]

theorem sepWrite_getD_wf (s : State) (hm : Memory.wf s.fab.mem = true) (c : Nat) (x : Int) (b : List Byte) :
    Memory.wf ((s.sepWrite c x b).getD s).fab.mem = true := by
  cases e : s.sepWrite c x b with
  | none => exact hm
  | some t => exact State.sepWrite_wf _ _ _ _ _ e hm

theorem State.jobDone_wf (s : State) (g c n : Nat) (hm : Memory.wf s.fab.mem = true) : Memory.wf (State.jobDone s g c
    n).fab.mem = true := by
  unfold State.jobDone
  dsimp only
  rw [State.onEngine_mem]
  exact sepWrite_getD_wf _ hm _ _ _

theorem State.jobSlot_wf (s : State) (c n status flags : Nat) (start stop : W64) (hm : Memory.wf s.fab.mem = true) :
    Memory.wf (State.jobSlot s c n status flags start stop).fab.mem = true := sepWrite_getD_wf _ (sepWrite_getD_wf _ hm _ _ _) _ _ _

theorem State.jobRefused_wf (s : State) (g c n status : Nat) (code : W16) (hm : Memory.wf s.fab.mem = true) : Memory.wf
    (State.jobRefused s g c n status code).fab.mem = true := by
  unfold State.jobRefused
  simp +contextual only [State.takeFree_mem, State.note_mem, State.jobDone_wf, State.jobSlot_wf, hm]

theorem State.jobFault_wf (s : State) (g c n flags : Nat) (start stop : W64) (hm : Memory.wf s.fab.mem = true) : Memory.wf
    (State.jobFault s g c n flags start stop).fab.mem = true := by
  unfold State.jobFault
  simp +contextual only [State.ctxFault_mem, State.jobDone_wf, State.jobSlot_wf, hm]

theorem State.sendMatrix_mem (s : State) (g : Nat) : (State.sendMatrix s g).fab.mem = s.fab.mem := by
  grind [State.sendMatrix, State.sendMsg_mem, foldl_mem]

theorem State.jobRuns_mem (s : State) (g : Nat) : (State.jobRuns s g).fab.mem = s.fab.mem := by
  unfold State.jobRuns
  dsimp only
  simp [State.onEngine_mem]

theorem State.jobStart_wf (s : State) (g : Nat) (hm : Memory.wf s.fab.mem = true) : Memory.wf (State.jobStart s g).fab.mem = true := by
  have key (P : State → Prop) (hP : ∀ a : State, Memory.wf a.fab.mem = true → P a) : P (s.jobStart g) := by
    have turn (m : SepMode) (t : Option Nat) (f : Nat → State) (hf : ∀ c, P (f c)) :
        P (match m, t with | .idle, some c => f c | _, _ => s) := by
      split
      · exact hf _
      · exact hP _ hm
    have read (m : Option (List Byte) → (Unit → State) → (List Byte → State) → State) (h0 : ∀ a f, m none a f = a ())
        (h1 : ∀ b a f, m (some b) a f = f b) (o : Option (List Byte)) (a : Unit → State) (f : List Byte → State)
        (ha : P (a ())) (hf : ∀ b, P (f b)) : P (m o a f) := by
      cases o
      · rw [h0]; exact ha
      · rw [h1]; exact hf _
    unfold State.jobStart
    extract_lets e
    clear_value e
    refine turn _ _ _ fun c => ?_
    extract_lets r
    refine read _ (fun _ _ => rfl) (fun _ _ _ => rfl) _ _ _ ?_ fun b => ?_
    · apply hP
      rw [State.ctxFault_mem, State.onEngine_mem]
      exact hm
    · extract_lets n
      refine read _ (fun _ _ => rfl) (fun _ _ _ => rfl) _ _ _ ?_ fun x => ?_
      · exact hP _ (State.jobFault_wf _ _ _ _ _ _ _ ((State.takeFree_mem s).symm ▸ hm))
      · extract_lets d job
        clear_value d job
        split
        · exact hP _ (State.jobRefused_wf _ _ _ _ _ _ hm)
        · split
          · exact hP _ (State.jobRefused_wf _ _ _ _ _ _ hm)
          · split
            · apply hP
              rw [State.jobRuns_mem, State.onEngine_mem]
              exact hm
            · apply hP
              rw [State.sendMatrix_mem, State.onEngine_mem]
              exact hm
  exact key _ fun a h => h

theorem State.measureWeight_mem (s : State) (g i : Nat) (r : Int) : (State.measureWeight s g i r).fab.mem = s.fab.mem := by
  unfold State.measureWeight
  simp only [State.note_mem, State.onEngine_mem, ite_mem, ite_self]

theorem State.calPass_mem (s : State) (g : Nat) (residuals : List (Nat × Int)) : (State.calPass s g residuals).fab.mem = s.fab.mem := by
  unfold State.calPass
  simp only [State.takeFree_mem, State.measureWeight_mem, State.onEngine_mem, implies_true, foldl_mem]

theorem State.reloadComplete_mem (s : State) (g : Nat) : (State.reloadComplete s g).fab.mem = s.fab.mem := by
  unfold State.reloadComplete
  dsimp only
  repeat' split
  all_goals simp [State.onEngine_mem, State.calPass_mem, State.jobRuns_mem]

theorem State.jobEnd_wf (s : State) (g : Nat) (hm : Memory.wf s.fab.mem = true) : Memory.wf (State.jobEnd s g).fab.mem = true := by
  have vector (r : SepRun) (e : Engine) (c k : Nat) (d : BitVec 512) (n : Nat) (m : W64) (h : Memory.wf r.st.fab.mem = true) :
      Memory.wf (r.vector e c k d n m).st.fab.mem = true := by
    unfold SepRun.vector
    split
    · exact h
    · split
      · exact h
      · dsimp only
        split
        · split
          · exact State.sepWrite_wf _ _ _ _ _ ‹_› h
          · exact h
        · split
          · exact State.sepWrite_wf _ _ _ _ _ ‹_› h
          · exact h
        · exact h
  have vectors (l : List Nat) (r : SepRun) (e : Engine) (c k : Nat) (d : BitVec 512) (m : Nat → W64)
      (h : Memory.wf r.st.fab.mem = true) :
      Memory.wf (l.foldl (fun (r : SepRun) n => r.vector e c k d n (m n)) r).st.fab.mem = true := by
    induction l generalizing r with
    | nil => exact h
    | cons n l ih => exact ih _ (vector _ _ _ _ _ _ _ h)
  have finish (r : SepRun) (c : Nat) (d : BitVec 512) (h : Memory.wf r.st.fab.mem = true) :
      Memory.wf (r.finish c d).st.fab.mem = true := by
    unfold SepRun.finish
    split
    · exact h
    · rename_i hf
      clear hf
      generalize List.range 64 = l
      generalize hb : r.best = best
      clear hb
      induction l generalizing r with
      | nil => exact h
      | cons i l ih =>
        apply ih
        dsimp only
        split
        · exact h
        · split
          · exact State.sepWrite_wf _ _ _ _ _ ‹_› h
          · exact h
  unfold State.jobEnd
  dsimp only
  split
  · have run (l : List Nat) (e : Engine) (c k : Nat) (d : BitVec 512) (m : Nat → W64) :=
      finish _ c d (vectors l { st := s.takeFree.2 } e c k d m ((State.takeFree_mem s).symm ▸ hm))
    split
    · apply State.jobFault_wf
      rw [State.onEngine_mem]
      exact run _ _ _ _ _ _
    · apply State.jobDone_wf
      apply State.jobSlot_wf
      rw [State.onEngine_mem]
      exact run _ _ _ _ _ _
  · exact hm

theorem State.takeWeights_mem (s : State) (g : Nat) : (State.takeWeights s g).fab.mem = s.fab.mem := by
  unfold State.takeWeights
  dsimp only
  repeat' split
  all_goals first | with_reducible rfl | simp only [State.takeFree_mem, State.onEngine_mem]

theorem State.maskRows_mem (s : State) : (State.maskRows s).fab.mem = s.fab.mem := by
  unfold State.maskRows
  simp only [State.onEngine_mem, implies_true, foldl_mem]

theorem State.sepAtBoundary_mem (s : State) : (State.sepAtBoundary s).fab.mem = s.fab.mem := by
  unfold State.sepAtBoundary
  simp only [State.maskRows_mem, State.takeWeights_mem, implies_true, foldl_mem]

/-! ## Churn -/

theorem State.setRow_mem (s : State) (p : Nat) (r : List Nat) : (State.setRow s p r).fab.mem = s.fab.mem := by
  unfold State.setRow
  simp only

theorem State.releaseRows_mem (s : State) : (State.releaseRows s).fab.mem = s.fab.mem := by
  unfold State.releaseRows
  simp only [State.setRow_mem, implies_true, foldl_mem]

theorem State.raiseRow_mem (s : State) (p : Nat) : (State.raiseRow s p).fab.mem = s.fab.mem := by
  unfold State.raiseRow
  simp only [State.setRow_mem, ite_mem, ite_self, implies_true, foldl_mem]

theorem State.raiseRows_mem (s : State) (ports : List Nat) : (State.raiseRows s ports).fab.mem = s.fab.mem := by
  unfold State.raiseRows
  simp only [State.raiseRow_mem, implies_true, foldl_mem]

theorem State.flexArrive_mem (s : State) (c : Nat) : (State.flexArrive s c).fab.mem = s.fab.mem := by
  unfold State.flexArrive
  dsimp only
  repeat' split
  all_goals simp [State.flexRefuse_mem, foldl_mem]

theorem State.flexGrant_mem (s : State) (f : Nat) (r : FlexReq) : (State.flexGrant s f r).fab.mem = s.fab.mem := by
  unfold State.flexGrant
  simp only [State.setRow_mem]

theorem State.flexEvaluate_mem (s : State) (f : Nat) : (State.flexEvaluate s f).fab.mem = s.fab.mem := by
  grind [State.flexEvaluate, State.flexRefuseAll_mem, State.flexGrant_mem, foldl_mem]

theorem State.retunesDone_mem (s : State) (f : Nat) : (State.retunesDone s f).fab.mem = s.fab.mem := by
  unfold State.retunesDone
  dsimp only
  first | with_reducible rfl | simp only [State.setRow_mem, State.noteDelayed_mem, ite_mem, ite_self, implies_true, foldl_mem]

theorem State.retuneFails_mem (s : State) (p j ring : Nat) : (State.retuneFails s p j ring).fab.mem = s.fab.mem := by
  unfold State.retuneFails
  dsimp only
  repeat' split
  all_goals simp [State.note_mem, State.onRing_mem]

theorem State.flexReleaseMask_mem (s : State) (mask : Nat) : (State.flexReleaseMask s mask).fab.mem = s.fab.mem := by
  unfold State.flexReleaseMask
  simp only [State.flexRelease_mem, implies_true, foldl_mem]

theorem State.resend_mem (s : State) (m d : Nat) : (State.resend s m d).fab.mem = s.fab.mem := by
  unfold State.resend
  simp only [State.onRing_mem, ite_mem, ite_self]

theorem State.tsvLost_wf (s : State) (d : Nat) (hm : Memory.wf s.fab.mem = true) : Memory.wf (State.tsvLost s d).fab.mem = true := by
  grind [State.tsvLost, State.finish_wf, State.retireDieFor_wf, foldl_mem, foldl_wf]

theorem State.failedBack_mem (s : State) (f : Nat) : (State.failedBack s f).fab.mem = s.fab.mem := by
  unfold State.failedBack
  simp only

theorem State.selectSpares_mem (s : State) (f : Nat) (out : List WaveEnd) : (State.selectSpares s f out).fab.mem = s.fab.mem := by
  grind [State.selectSpares, foldl_mem]

theorem State.chargeFlex_mem (s : State) (w : WaveEnd) : (State.chargeFlex s w).fab.mem = s.fab.mem := by
  unfold State.chargeFlex
  simp only [State.setRow_mem, State.onPort_mem, ite_mem, ite_self]

theorem State.returnFlex_mem (s : State) (slot home : Nat) : (State.returnFlex s slot home).fab.mem = s.fab.mem := by
  unfold State.returnFlex
  simp only [State.setRow_mem, ite_mem, ite_self]

theorem State.forceColumn_mem (q n : Nat) (s : State) : (State.forceColumn q n s).fab.mem = s.fab.mem := by
  induction n generalizing s with
  | zero => rfl
  | succ n ih =>
    rw [State.forceColumn]
    split
    · rfl
    · dsimp only
      generalize List.foldl _ none allHalves = o
      cases o
      · rfl
      · exact (ih _).trans (State.setRow_mem ..)

theorem State.forceColumns_mem (s : State) : (State.forceColumns s).fab.mem = s.fab.mem := by
  unfold State.forceColumns
  apply foldl_mem
  intro a q
  split
  · rfl
  · rw [State.note_mem, State.forceColumn_mem]

theorem State.portAtBoundary_mem (s : State) (f : Nat) (lost : List WaveEnd) (p : Nat) : (State.portAtBoundary s f lost
    p).fab.mem = s.fab.mem := by
  unfold State.portAtBoundary
  simp only [State.onPort_mem, State.setRow_mem, State.note_mem, ite_mem, ite_self]

theorem State.sever_wf (s : State) (a b : Nat) (hm : Memory.wf s.fab.mem = true) : Memory.wf (State.sever s a b).fab.mem = true := by
  unfold State.sever
  dsimp only
  repeat' split
  all_goals simp +contextual [State.record_mem, State.finish_wf, State.retireDieFor_wf, hm]

theorem State.serviceAtBoundary_wf (s : State) (f : Nat) (hm : Memory.wf s.fab.mem = true) : Memory.wf
    (State.serviceAtBoundary s f).fab.mem = true := by
  grind [State.serviceAtBoundary, State.failedBack_mem, State.selectSpares_mem, State.chargeFlex_mem,
      State.portAtBoundary_mem, State.forceColumns_mem, State.returnFlex_mem, State.tsvLost_wf, State.sever_wf, foldl_mem,
      foldl_wf]

theorem State.silencePorts_mem (s : State) : (State.silencePorts s).fab.mem = s.fab.mem := by
  unfold State.silencePorts
  simp only

theorem State.relightPort_mem (s : State) (p : Nat) : (State.relightPort s p).fab.mem = s.fab.mem := by
  unfold State.relightPort
  simp only [State.setRow_mem, State.note_mem, State.onPort_mem, ite_mem, ite_self]

theorem State.relightPorts_mem (s : State) : (State.relightPorts s).fab.mem = s.fab.mem := by
  unfold State.relightPorts
  dsimp only
  simp [State.relightPort_mem, foldl_mem]

theorem State.syncMarks_mem (s : State) (skews : List (Fin 9 × Int)) : (State.syncMarks s skews).fab.mem = s.fab.mem := by
  unfold State.syncMarks
  simp only [State.note_mem, ite_mem, ite_self, implies_true, foldl_mem]

theorem State.churnAtBoundary_wf (s : State) (f : Nat) (hm : Memory.wf s.fab.mem = true) : Memory.wf (State.churnAtBoundary
    s f).fab.mem = true := by
  unfold State.churnAtBoundary
  split
  · exact hm
  · dsimp only
    rw [State.flexEvaluate_mem, State.raiseRows_mem, State.releaseRows_mem]
    apply State.serviceAtBoundary_wf
    rw [State.lightAtBoundary_mem, State.relightPorts_mem, State.silencePorts_mem, State.retunesDone_mem]
    exact hm

theorem State.boundary_wf (s : State) (steps : List (Nat × Int)) (skews : List (Fin 9 × Int)) (hm : Memory.wf s.fab.mem =
    true) : Memory.wf (State.boundary s steps skews).fab.mem = true := by
  unfold State.boundary
  simp +contextual only [State.elapseToFrame_mem, State.syncMarks_mem, State.sepAtBoundary_mem, State.ringsAtBoundary_mem,
      State.finish_wf, State.churnAtBoundary_wf, hm]

theorem State.openChurn_mem (s : State) : (State.openChurn s).fab.mem = s.fab.mem := by
  unfold State.openChurn
  dsimp only
  first | with_reducible rfl | simp only [State.setRow_mem, State.onPort_mem, ite_mem, ite_self, implies_true, foldl_mem]

/-! ## Kcp -/

theorem State.sendClose_mem (s : State) (id : W32) (reason : Nat) : (State.sendClose s id reason).fab.mem = s.fab.mem := by
  unfold State.sendClose
  simp only [State.hostSend_mem]

theorem State.authFails_mem (s : State) (id : W32) (step : Nat) : (State.authFails s id step).fab.mem = s.fab.mem := by
  unfold State.authFails
  simp only [State.sendClose_mem, State.note_mem]

theorem State.helloD_mem (s : State) (slot : Nat) (body : List Byte) : (State.helloD s slot body).fab.mem = s.fab.mem := by
  unfold State.helloD
  simp only [State.takeFree_mem, State.onSession_mem, State.hostSend_mem]

theorem State.hello_mem (s : State) (body : List Byte) : (State.hello s body).fab.mem = s.fab.mem := by
  unfold State.hello
  dsimp only
  repeat' split
  all_goals simp [State.sendClose_mem, State.helloD_mem, State.authFails_mem]

theorem State.finishHello_mem (s : State) (id : W32) (sig : List Byte) : (State.finishHello s id sig).fab.mem = s.fab.mem := by
  unfold State.finishHello
  dsimp only
  repeat' split
  all_goals first | with_reducible rfl | simp only [State.onSession_mem, State.authFails_mem]

theorem State.dropSession_mem (s : State) (k : Nat) : (State.dropSession s k).fab.mem = s.fab.mem := by
  unfold State.dropSession
  simp only [State.onSession_mem]

theorem State.cfgRefuse_mem (s : State) (addr : Nat) (w : Writer) (value : Nat) : (State.cfgRefuse s addr w value).fab.mem =
    s.fab.mem := by
  unfold State.cfgRefuse
  simp only [State.note_mem]

theorem State.writeSeg_mem (s : State) (i : Nat) (e : BitVec 128) (w : Writer) : (State.writeSeg s i e w).2.fab.mem = s.fab.mem := by
  grind [State.writeSeg, State.cfgRefuse_mem, State.note_mem]

theorem State.writeRoute_mem (s : State) (d j v : Nat) : (State.writeRoute s d j v).fab.mem = s.fab.mem := by
  unfold State.writeRoute
  simp only [State.checkRoute_mem, State.setRoute_mem]

theorem State.setSubs_mem (s : State) (src : KcpSrc) (mask : Byte) : (State.setSubs s src mask).fab.mem = s.fab.mem := by
  unfold State.setSubs
  dsimp only
  repeat' split
  all_goals simp [State.onSession_mem]

/-! ## Contexts -/

theorem State.ungate_mem (s : State) (v : Nat) : (State.ungate s v).fab.mem = s.fab.mem := by
  unfold State.ungate
  simp only [State.onVat_mem, ite_mem, ite_self]

theorem State.swapIdleActive_mem (s : State) (v : Nat) : (State.swapIdleActive s v).fab.mem = s.fab.mem := by
  grind [State.swapIdleActive, State.swapIfEligible_mem, foldl_mem]

theorem State.launchCtx_mem (s : State) (c : Nat) : (State.launchCtx s c).fab.mem = s.fab.mem := by
  unfold State.launchCtx
  simp only [State.onPlane_mem, State.onCtx_mem, State.swapIdleActive_mem, State.refreshRun_mem, State.ungate_mem]

theorem State.tryLaunch_mem (s : State) (c : Nat) : (State.tryLaunch s c).2.fab.mem = s.fab.mem := by
  grind [State.tryLaunch, State.onCtx_mem, State.launchCtx_mem, foldl_mem]

theorem State.pauseNow_mem (s : State) (c : Nat) : (State.pauseNow s c).fab.mem = s.fab.mem := by
  unfold State.pauseNow
  simp only [State.onCtx_mem, State.flexReleaseCtx_mem, State.onPlane_mem, State.refreshRun_mem, State.swapAway_mem]

theorem State.pauseRunning_mem (s : State) (c : Nat) : (State.pauseRunning s c).fab.mem = s.fab.mem := by
  unfold State.pauseRunning
  simp only [State.onCtx_mem, State.pauseNow_mem, ite_mem, ite_self]

theorem State.tryPause_mem (s : State) (c : Nat) : (State.tryPause s c).2.fab.mem = s.fab.mem := by
  grind [State.tryPause, State.onCtx_mem, State.pauseRunning_mem, foldl_mem]

theorem State.tryCreate_mem (s : State) (c : Nat) (group : W16) (seed : W64) : (State.tryCreate s c group seed).2.fab.mem =
    s.fab.mem := by
  grind [State.tryCreate, State.onCtx_mem, foldl_mem]

theorem State.tryDestroy_wf (s : State) (c : Nat) (who : Option (KcpSrc × W32)) (hm : Memory.wf s.fab.mem = true) :
    Memory.wf (State.tryDestroy s c who).2.fab.mem = true := by
  unfold State.tryDestroy
  dsimp only
  repeat' split
  all_goals simp +contextual [State.freeCtx_mem, State.onCtx_mem, State.onVat_mem, State.begin_mem, State.endHandling_mem,
      State.finish_wf, hm]

theorem State.endRun_mem (s : State) (c : Nat) : (State.endRun s c).fab.mem = s.fab.mem := by
  unfold State.endRun
  simp only [State.onCtx_mem, State.note_mem, State.flexReleaseCtx_mem, State.onPlane_mem, State.refreshRun_mem, State.swapAway_mem]

theorem State.hangFault_mem (s : State) (c : Nat) : (State.hangFault s c).fab.mem = s.fab.mem := by
  unfold State.hangFault
  simp only [State.onCtx_mem, State.ctxFault_mem]

theorem State.applyHeld_mem (s : State) (c : Nat) : (State.applyHeld s c).fab.mem = s.fab.mem := by
  unfold State.applyHeld
  simp only [State.onCtx_mem, State.pauseRunning_mem, State.launchCtx_mem, ite_mem, ite_self]

theorem State.replaysEnd_mem (s : State) (v : Nat) : (State.replaysEnd s v).fab.mem = s.fab.mem := by
  unfold State.replaysEnd
  simp only [State.onPlane_mem, State.endHandling_mem, State.onVat_mem, State.swapIdleActive_mem, State.refreshRun_mem,
      State.applyHeld_mem, ite_mem, ite_self, implies_true, foldl_mem]

theorem State.hang_wf (s : State) (v : Nat) (hm : Memory.wf s.fab.mem = true) : Memory.wf (State.hang s v).fab.mem = true := by
  unfold State.hang
  dsimp only
  repeat' split
  all_goals simp +contextual [State.replaysEnd_mem, State.hangFault_mem, State.onVat_mem, State.record_mem, State.finish_wf, hm]

theorem State.afterHangReset_wf (s : State) (v : Nat) (hm : Memory.wf s.fab.mem = true) : Memory.wf (State.afterHangReset s
    v).fab.mem = true := by
  unfold State.afterHangReset
  simp +contextual only [State.onVat_mem, State.replaysEnd_mem, State.hangFault_mem, State.finish_wf, implies_true, foldl_mem, hm]

theorem State.replay_mem (s : State) (v : Nat) : (State.replay s v).fab.mem = s.fab.mem := by
  unfold State.replay
  dsimp only
  repeat' split
  all_goals simp [State.onVat_mem, State.onCtx_mem, State.onPlane_mem, State.refreshRun_mem, State.swapStart_mem]

theorem State.replayPass_mem (s : State) (v c : Nat) : (State.replayPass s v c).fab.mem = s.fab.mem := by
  unfold State.replayPass
  simp only [State.onPlane_mem, State.onVat_mem, State.record_mem, State.onCtx_mem, State.replaysEnd_mem]

theorem State.resetEnds_mem (s : State) (c : Nat) : (State.resetEnds s c).fab.mem = s.fab.mem := by
  grind [State.resetEnds, State.endHandling_mem, State.onCtx_mem, State.replaysEnd_mem, State.freeCtx_mem, State.reply_mem,
      foldl_mem]

theorem State.abortArrives_wf (s : State) (x : Cell) (hm : Memory.wf s.fab.mem = true) : Memory.wf (State.abortArrives s
    x).fab.mem = true := by
  unfold State.abortArrives
  dsimp only
  repeat' split
  all_goals first | exact hm | simp +contextual only [State.purge_mem, State.ctxFault_mem, State.finish_wf, implies_true,
      foldl_mem, hm]

theorem State.ctxCommand_mem (s : State) (src : KcpSrc) (req : W32) (op : W16) (c : Byte) (f : Nat → Nat × State) (hf : ∀ c,
    (f c).2.fab.mem = s.fab.mem) : (State.ctxCommand s src req op c f).fab.mem = s.fab.mem := by
  unfold State.ctxCommand
  split
  · exact (State.reply_mem ..).trans (hf _)
  · exact State.reply_mem ..

/-! ## Service -/

theorem State.enterStandby_mem (s : State) : (State.enterStandby s).fab.mem = s.fab.mem := by
  unfold State.enterStandby
  simp only [State.tryPause_mem, ite_mem, ite_self, implies_true, foldl_mem]

theorem State.leaveStandby_mem (s : State) (cause : Nat) : (State.leaveStandby s cause).fab.mem = s.fab.mem := by
  unfold State.leaveStandby
  simp only [State.note_mem, ite_mem, ite_self]

theorem State.gate_mem (s : State) (v : Nat) : (State.gate s v).fab.mem = s.fab.mem := by
  unfold State.gate
  simp only [State.onVat_mem]

theorem State.standbyReached_mem (s : State) : (State.standbyReached s).fab.mem = s.fab.mem := by
  unfold State.standbyReached
  simp only [State.gate_mem, State.note_mem, State.notifyService_mem, ite_mem, ite_self, implies_true, foldl_mem]

theorem State.countPress_mem (s : State) (cls ms : Nat) : (State.countPress s cls ms).fab.mem = s.fab.mem := by
  unfold State.countPress
  simp only [State.note_mem]

theorem State.longPress_mem (s : State) (ms : Nat) : (State.longPress s ms).fab.mem = s.fab.mem := by
  unfold State.longPress
  dsimp only
  repeat' split
  all_goals first | with_reducible rfl | simp only [State.enterStandby_mem, State.countPress_mem, State.leaveStandby_mem]

theorem State.releaseButton_mem (s : State) (ms : Nat) : (State.releaseButton s ms).fab.mem = s.fab.mem := by
  unfold State.releaseButton
  simp only [State.countPress_mem, State.notifyService_mem, State.longPress_mem, ite_mem, ite_self]

theorem State.jtag_mem (s : State) (ir : JtagIr) (dr : W32) : (State.jtag s ir dr).fab.mem = s.fab.mem := by
  unfold State.jtag
  simp only

/-! ## Boot -/

theorem State.deriveIdentity_mem (s : State) : (State.deriveIdentity s).fab.mem = s.fab.mem := by
  unfold State.deriveIdentity
  simp only [State.record_mem, ite_mem, ite_self]

theorem State.latchImage_mem (s : State) : (State.latchImage s).fab.mem = s.fab.mem := by
  unfold State.latchImage
  simp only

theorem State.applyRecord_mem (s : State) (powerOn : Bool) : (State.applyRecord s powerOn).fab.mem = s.fab.mem := by
  unfold State.applyRecord
  simp only [State.note_mem, ite_mem, ite_self]

theorem State.readFru_mem (s : State) : (State.readFru s).fab.mem = s.fab.mem := by
  unfold State.readFru
  simp only

theorem State.testRetires_mem (s : State) (unit : W16) (cause : Nat) : (State.testRetires s unit cause).fab.mem = s.fab.mem := by
  unfold State.testRetires
  simp only [State.record_mem]

theorem State.testRetiresVat_mem (s : State) (v cause : Nat) : (State.testRetiresVat s v cause).fab.mem = s.fab.mem := by
  unfold State.testRetiresVat
  dsimp only
  simp [State.dropVat_mem, State.testRetires_mem]

theorem State.testRetiresDie_mem (s : State) (d cause : Nat) : (State.testRetiresDie s d cause).fab.mem = s.fab.mem := by
  unfold State.testRetiresDie
  simp only [State.loseContexts_mem, State.testRetires_mem, State.endHandling_mem, State.takeOver_mem, State.retireDie_mem]

theorem State.columnTest_mem (s : State) (v : Nat) (fails : List Nat) : (State.columnTest s v fails).fab.mem = s.fab.mem := by
  unfold State.columnTest
  split
  · exact State.onVat_mem ..
  · exact State.onVat_mem ..
  · exact (State.testRetiresVat_mem ..).trans (State.onVat_mem ..)

theorem State.dieWithoutVats_mem (s : State) (d : Nat) : (State.dieWithoutVats s d).fab.mem = s.fab.mem := by
  unfold State.dieWithoutVats
  simp only [State.testRetiresDie_mem, ite_mem, ite_self]

theorem State.dieTest_mem (s : State) (d : Nat) (o : StepObs) : (State.dieTest s d o).fab.mem = s.fab.mem := by
  unfold State.dieTest
  simp only [State.testRetiresDie_mem, State.columnTest_mem, State.onVat_mem, State.onCream_mem, State.testRetires_mem,
      State.dieWithoutVats_mem, ite_mem, ite_self, implies_true, foldl_mem]

theorem State.dieMaps_mem (s : State) (d : Nat) : (State.dieMaps s d).fab.mem = s.fab.mem := by
  unfold State.dieMaps
  simp only [ite_mem, ite_self]

theorem State.dieOpens_mem (s : State) (d : Nat) : (State.dieOpens s d).fab.mem = s.fab.mem := by
  unfold State.dieOpens
  simp only [State.onVat_mem, State.onPort_mem, State.onCream_mem, ite_mem, ite_self, implies_true, foldl_mem]

theorem State.katEnds_mem (s : State) (v : Nat) (signature : W64) (fails : List Nat) : (State.katEnds s v signature
    fails).fab.mem = s.fab.mem := by
  unfold State.katEnds
  simp only [State.note_mem, State.testRetiresVat_mem, State.dieWithoutVats_mem, State.columnTest_mem, State.onVat_mem,
      ite_mem, ite_self]

theorem State.enterStep_mem (s : State) (k : Nat) : (State.enterStep s k).fab.mem = s.fab.mem := by
  unfold State.enterStep
  dsimp only
  repeat' split
  all_goals first | with_reducible rfl | simp only [State.acceptStart_mem, implies_true, foldl_mem]

theorem State.markStep_mem (s : State) (k : Nat) : (State.markStep s k).fab.mem = s.fab.mem := by
  unfold State.markStep
  simp only [State.note_mem]

theorem State.recover_mem (s : State) (cause : Nat) : (State.recover s cause).fab.mem = s.fab.mem := by
  unfold State.recover
  simp only [State.record_mem, State.enterStep_mem, ite_mem, ite_self]

theorem State.bootMc_mem (s : State) (o : StepObs) (powerOn : Bool) : (State.bootMc s o powerOn).fab.mem = s.fab.mem := by
  grind [State.bootMc, State.deriveIdentity_mem, State.readFru_mem, State.applyRecord_mem, State.latchImage_mem, State.recover_mem]

theorem State.bootChurn_wf (s : State) (o : StepObs) (hm : Memory.wf s.fab.mem = true) : Memory.wf (State.bootChurn s
    o).fab.mem = true := by
  unfold State.bootChurn
  simp +contextual only [State.openChurn_mem, State.hashRings_mem, State.buildRings_mem, State.ethSettle_mem,
      State.assignSectors_wf, hm]

theorem State.bootHbm_wf (s : State) (o : StepObs) (hm : Memory.wf s.fab.mem = true) : Memory.wf (State.bootHbm s o).fab.mem
    = true := by
  unfold State.bootHbm
  dsimp only
  first | exact hm | simp +contextual only [State.record_mem, State.onStack_mem, Memory.wf_clearRange, ite_mem, ite_self,
      implies_true, foldl_mem, hm]

theorem State.bootLinks_mem (s : State) : (State.bootLinks s).fab.mem = s.fab.mem := by
  unfold State.bootLinks
  simp only [State.linkTrain_mem, implies_true, foldl_mem]

theorem State.bootDies_mem (s : State) (o : StepObs) : (State.bootDies s o).fab.mem = s.fab.mem := by
  unfold State.bootDies
  simp only [State.dieTest_mem, State.dieMaps_mem, State.retireDie_mem, implies_true, foldl_mem]

theorem State.runHeld_mem (s : State) : (State.runHeld s).fab.mem = s.fab.mem := by
  grind [State.runHeld, State.begin_mem, foldl_mem]

theorem State.bootReady_mem (s : State) : (State.bootReady s).fab.mem = s.fab.mem := by
  unfold State.bootReady
  simp only [State.dieOpens_mem, State.runHeld_mem, State.note_mem, ite_mem, ite_self, implies_true, foldl_mem]

theorem State.stepEnds_wf (s : State) (o : StepObs) (hm : Memory.wf s.fab.mem = true) : Memory.wf (State.stepEnds s
    o).fab.mem = true := by
  unfold State.stepEnds
  dsimp only
  repeat' split
  all_goals simp +contextual [State.markStep_mem, State.enterStep_mem, State.bootMc_mem, State.bootLinks_mem,
      State.bootDies_mem, State.bootReady_mem, State.bootChurn_wf, State.bootHbm_wf, hm]

theorem State.partBound_mem (s : State) (p : Part) : (State.partBound s p).fab.mem = s.fab.mem := by
  unfold State.partBound
  dsimp only
  repeat' split
  all_goals simp [State.dieWithoutVats_mem, State.testRetiresVat_mem, State.testRetiresDie_mem, State.onCream_mem,
      State.testRetires_mem, State.onStack_mem, State.onCage_mem]

theorem State.stepBound_wf (s : State) (unfinished : List Part) (hm : Memory.wf s.fab.mem = true) : Memory.wf
    (State.stepBound s unfinished).fab.mem = true := by
  grind [State.stepBound, State.partBound_mem, State.onRing_mem, State.stepEnds_wf, foldl_mem, foldl_wf]

theorem State.askVat_mem (s : State) (v : Nat) : (State.askVat s v).fab.mem = s.fab.mem := by
  unfold State.askVat
  simp only [State.begin_mem, ite_mem, ite_self]

theorem State.hold_mem (s : State) (k : ResetKind) : (State.hold s k).fab.mem = s.fab.mem := by
  unfold State.hold
  simp only [ite_mem, ite_self]

theorem State.askDie_mem (s : State) (d : Nat) : (State.askDie s d).fab.mem = s.fab.mem := by
  unfold State.askDie
  simp only [State.hold_mem, State.begin_mem, ite_mem, ite_self]

theorem State.askCompute_mem (s : State) : (State.askCompute s).fab.mem = s.fab.mem := by
  unfold State.askCompute
  simp only [State.hold_mem, State.leaveStandby_mem, State.begin_mem, ite_mem, ite_self]

theorem State.askMgmt_mem (s : State) : (State.askMgmt s).fab.mem = s.fab.mem := by
  unfold State.askMgmt
  simp only [ite_mem, ite_self]

theorem State.resetNote_mem (s : State) (kind : Nat) (unit : W16) (began : W64) : (State.resetNote s kind unit
    began).fab.mem = s.fab.mem := by
  unfold State.resetNote
  simp only [State.note_mem]

theorem State.vatDone_wf (s : State) (v : Nat) (began : W64) (hm : Memory.wf s.fab.mem = true) : Memory.wf (State.vatDone s
    v began).fab.mem = true := by
  unfold State.vatDone
  dsimp only
  repeat' split
  all_goals simp +contextual [State.resetNote_mem, State.onVat_mem, State.endHandling_mem, State.afterHangReset_wf, hm]

theorem State.dieDone_mem (s : State) (d : Nat) (o : StepObs) (began : W64) : (State.dieDone s d o began).fab.mem = s.fab.mem := by
  unfold State.dieDone
  simp only [State.endHandling_mem, State.resetNote_mem, State.dieOpens_mem, State.dieMaps_mem, State.dieTest_mem]

theorem State.dieReturns_mem (s : State) (d : Nat) : (State.dieReturns s d).fab.mem = s.fab.mem := by
  unfold State.dieReturns
  simp only [ite_mem, ite_self]

theorem State.computeDies_mem (s : State) (o : StepObs) : (State.computeDies s o).fab.mem = s.fab.mem := by
  unfold State.computeDies
  simp only [State.dieReturns_mem, State.dieTest_mem, State.dieOpens_mem, State.dieMaps_mem, State.retireDie_mem, ite_mem,
      ite_self, implies_true, foldl_mem]

theorem State.leaveHalt_mem (s : State) : (State.leaveHalt s).fab.mem = s.fab.mem := by
  unfold State.leaveHalt
  simp only [ite_mem, ite_self]

theorem State.computeDone_mem (s : State) (o : StepObs) (began : W64) : (State.computeDone s o began).fab.mem = s.fab.mem := by
  unfold State.computeDone
  simp only [State.leaveHalt_mem, State.endHandling_mem, State.resetNote_mem, State.computeDies_mem]

theorem State.mgmtDone_mem (s : State) (o : StepObs) (began : W64) : (State.mgmtDone s o began).fab.mem = s.fab.mem := by
  unfold State.mgmtDone
  simp only [State.bootMc_mem, State.recover_mem, State.enterStep_mem, State.markStep_mem, State.sendMatrix_mem,
      State.resetNote_mem, ite_mem, ite_self, implies_true, foldl_mem]

theorem State.resetDone_wf (s : State) (k : ResetKind) (o : StepObs) (hm : Memory.wf s.fab.mem = true) : Memory.wf
    (State.resetDone s k o).fab.mem = true := by
  unfold State.resetDone
  dsimp only
  repeat' split
  all_goals simp +contextual [State.dieDone_mem, State.computeDone_mem, State.mgmtDone_mem, State.vatDone_wf, hm]

theorem State.overrun_mem (s : State) (seq : W64) : (State.overrun s seq).fab.mem = s.fab.mem := by
  grind [State.overrun, State.record_mem, foldl_mem]

theorem State.onDump_mem (s : State) (f : Dump → Dump) : (State.onDump s f).fab.mem = s.fab.mem := by
  unfold State.onDump
  simp only

theorem State.dumpRead_mem (s : State) (answer : Option (List Byte)) : (State.dumpRead s answer).fab.mem = s.fab.mem := by
  unfold State.dumpRead
  simp only [State.onDump_mem, ite_mem, ite_self]

theorem State.dumpEnds_mem (s : State) : (State.dumpEnds s).fab.mem = s.fab.mem := by
  unfold State.dumpEnds
  simp only [State.note_mem, State.onDump_mem, ite_mem, ite_self]

theorem State.dumpReleased_mem (s : State) : (State.dumpReleased s).fab.mem = s.fab.mem := by
  unfold State.dumpReleased
  simp only [State.onDump_mem, ite_mem, ite_self]

theorem State.raiseSvn_mem (s : State) : (State.raiseSvn s).fab.mem = s.fab.mem := by
  unfold State.raiseSvn
  simp only [State.note_mem, ite_mem, ite_self]

theorem State.eraseRegion_mem (s : State) (isCfg : Bool) : (State.eraseRegion s isCfg).fab.mem = s.fab.mem := by
  unfold State.eraseRegion
  simp only

theorem State.fwDone_mem (s : State) : (State.fwDone s).fab.mem = s.fab.mem := by
  unfold State.fwDone
  dsimp only
  repeat' split
  all_goals first | with_reducible rfl | simp only [State.reply_mem, State.askMgmt_mem, State.note_mem]

theorem State.journal_mem (s : State) : (State.journal s).fab.mem = s.fab.mem := by
  unfold State.journal
  simp only [ite_mem, ite_self]

theorem State.raiseHandover_mem (s : State) (source : HandoverSource) : (State.raiseHandover s source).fab.mem = s.fab.mem := by
  unfold State.raiseHandover
  simp only [State.record_mem, State.askMgmt_mem, ite_mem, ite_self]

theorem State.takeover_mem (s : State) : (State.takeover s).fab.mem = s.fab.mem := by
  unfold State.takeover
  simp only [State.lockMonitor_mem, ite_mem, ite_self]

theorem State.retake_mem (s : State) : (State.retake s).fab.mem = s.fab.mem := by
  unfold State.retake
  simp only [State.lockMonitor_mem, State.journal_mem, State.note_mem, ite_mem, ite_self]

theorem State.selftestFails_mem (s : State) (mcB : Bool) (test : Nat) : (State.selftestFails s mcB test).fab.mem = s.fab.mem := by
  unfold State.selftestFails
  dsimp only
  repeat' split
  all_goals simp [State.record_mem, State.retake_mem, State.askMgmt_mem, State.raiseHandover_mem]

/-! ## Hbm -/

theorem State.hbmStoreCell_wf (s : State) (p a mask : Nat) (data : BitVec 512) (ecc : Ecc) (hm : Memory.wf s.fab.mem = true)
    : Memory.wf (State.hbmStoreCell s p a mask data ecc).2.fab.mem = true := by
  grind [State.hbmStoreCell, State.clearBad_mem, State.hbmRead_mem, State.setHbmCell_wf, foldl_mem, foldl_wf]

theorem State.hbmAtom_wf (s : State) (p : Nat) (c : Cell) (bucket : Nat) (ecc : Ecc) (hm : Memory.wf s.fab.mem = true) :
    Memory.wf (State.hbmAtom s p c bucket ecc).fab.mem = true := by
  unfold State.hbmAtom
  dsimp only
  repeat' split
  all_goals first | exact hm | simp +contextual only [State.hbmRead_mem, State.launch_mem, State.bufferCell_wf,
      State.setHbmCell_wf, hm]

theorem State.hbmServe_wf (s : State) (p : Nat) (r : TReq) (holdNs : Nat) (ecc : Ecc) (hm : Memory.wf s.fab.mem = true) :
    Memory.wf (State.hbmServe s p r holdNs ecc).fab.mem = true := by
  have load (a : State) (x : Nat × Nat) (h : Memory.wf a.fab.mem = true) (b : Bool) (e : Ecc) : Memory.wf
      (if b then (true, a) else a.hbmRead p x.1 e false).2.fab.mem = true := by
    cases b
    · exact (State.hbmRead_mem a p x.1 e false).symm ▸ h
    · exact h
  have st (l : List (Nat × Nat)) (a : Bool × State) (h : Memory.wf a.2.fab.mem = true) : Memory.wf
      (l.foldl (fun (acc : Bool × State) x => (acc.1 && (acc.2.hbmStoreCell p x.1 (Cell.pay r.head (16 + 8 * x.2) 8)
        ((r.frags.lookup (x.2 + 1)).getD 0) (if x.2 = 0 then ecc else .clean)).1,
        (acc.2.hbmStoreCell p x.1 (Cell.pay r.head (16 + 8 * x.2) 8)
        ((r.frags.lookup (x.2 + 1)).getD 0) (if x.2 = 0 then ecc else .clean)).2)) a).2.fab.mem = true := by
    induction l generalizing a with
    | nil => exact h
    | cons x l ih => exact ih _ (State.hbmStoreCell_wf _ _ _ _ _ _ h)
  unfold State.hbmServe
  dsimp only
  split
  · exact State.hbmAtom_wf _ _ _ _ _ hm
  · split
    · apply foldl_wf _ _ _ hm
      intro a x h
      rw [ite_mem, State.launch_mem, State.launch_mem, ite_self]
      exact load a x h _ _
    · rw [ite_mem, State.launch_mem, State.launch_mem, ite_self]
      exact st _ _ hm

theorem State.hbmService_wf (s : State) (p index holdNs : Nat) (ecc : Ecc) (hm : Memory.wf s.fab.mem = true) : Memory.wf
    (State.hbmService s p index holdNs ecc).fab.mem = true := by
  unfold State.hbmService
  dsimp only
  repeat' split
  all_goals simp +contextual [State.finish_wf, State.hbmServe_wf, hm]

theorem State.refresh_wf (s : State) (k : Nat) (hm : Memory.wf s.fab.mem = true) : Memory.wf (State.refresh s k).fab.mem = true := by
  have flush : Memory.wf ((stackPseudos k).foldl State.flushBuffer s).fab.mem = true :=
    foldl_wf _ _ _ hm fun a x h => State.flushBuffer_wf a x h
  unfold State.refresh
  split
  · exact hm
  · generalize (stackPseudos k).foldl State.flushBuffer s = s1 at flush
    dsimp only
    split
    · exact flush
    · split
      · dsimp only; rw [State.onStack_mem]; exact flush
      · rw [State.onStack_mem]; exact flush

theorem State.hbmScrub_mem (s : State) (p : Nat) (ecc : Ecc) : (State.hbmScrub s p ecc).fab.mem = s.fab.mem := by
  unfold State.hbmScrub
  simp only [State.hbmRead_mem, State.onPseudo_mem, ite_mem, ite_self]

theorem State.selfRefresh_wf (s : State) (k : Nat) (hm : Memory.wf s.fab.mem = true) : Memory.wf (State.selfRefresh s
    k).fab.mem = true := by
  unfold State.selfRefresh
  dsimp only
  split
  · rw [State.onStack_mem]
    exact foldl_wf _ _ _ hm fun a x h => State.flushBuffer_wf a x h
  · exact hm

/-! ## Ladles -/

theorem State.sourFill_mem (s : State) (v : Nat) (ts : Nat) : (State.sourFill s v ts).fab.mem = s.fab.mem := by
  unfold State.sourFill
  simp only

theorem State.loadCellFails_mem (s : State) (p k iter ts : Nat) (cause : SourCause) (addr : Nat) : (State.loadCellFails s p
    k iter ts cause addr).fab.mem = s.fab.mem := by
  unfold State.loadCellFails
  simp only [State.ladleCells_mem, State.countSour_mem, State.sourFill_mem, ite_mem, ite_self]

theorem State.storeCellFails_mem (s : State) (p k iter : Nat) (cause : SourCause) (addr : Nat) : (State.storeCellFails s p k
    iter cause addr).fab.mem = s.fab.mem := by
  unfold State.storeCellFails
  simp only [State.onPlane_mem, State.ladleStored_mem, State.countSour_mem]

theorem State.sendLadleLoad_mem (s : State) (p k iter ctx cls : Nat) (cells : List (Nat × Nat)) : (State.sendLadleLoad s p k
    iter ctx cls cells).fab.mem = s.fab.mem := by
  grind [State.sendLadleLoad, State.sendOp_mem, State.loadCellFails_mem, foldl_mem]

theorem State.sendLadleStore_mem (s : State) (p k iter ctx cls : Nat) (cells : List (Nat × Nat)) : (State.sendLadleStore s p
    k iter ctx cls cells).fab.mem = s.fab.mem := by
  unfold State.sendLadleStore
  dsimp only
  repeat' split
  all_goals first | with_reducible rfl | simp only [State.storeCellFails_mem, State.takeTag_mem, implies_true, foldl_mem]

theorem State.issueCells_mem (s : State) (p k : Nat) (it : LadleIter) (lo n : Nat) : (State.issueCells s p k it lo
    n).fab.mem = s.fab.mem := by
  unfold State.issueCells
  simp only [State.storeCellFails_mem, State.loadCellFails_mem, State.sendLadleStore_mem, State.sendLadleLoad_mem, ite_mem,
      ite_self, implies_true, foldl_mem]

theorem State.issueIter_mem (s : State) (p k : Nat) (it : LadleIter) : (State.issueIter s p k it).fab.mem = s.fab.mem := by
  unfold State.issueIter
  simp only [State.onPlane_mem, State.issueCells_mem, ite_mem, ite_self]

theorem State.ladleIssue_wf (s : State) (v k : Nat) (hm : Memory.wf s.fab.mem = true) : Memory.wf (State.ladleIssue s v
    k).fab.mem = true := by
  unfold State.ladleIssue
  dsimp only
  repeat' split
  all_goals simp +contextual [State.issueIter_mem, State.onPlane_mem, State.finish_wf, hm]

theorem State.mispredict_mem (s : State) (p k d last : Nat) (outcome : Bool) : (State.mispredict s p k d last
    outcome).fab.mem = s.fab.mem := by
  unfold State.mispredict
  simp only [State.onPlane_mem, State.voidOps_mem, State.onVat_mem, ite_mem, ite_self]

theorem State.ladleResolve_mem (s : State) (p k : Nat) (outcome : Bool) : (State.ladleResolve s p k outcome).fab.mem = s.fab.mem := by
  unfold State.ladleResolve
  dsimp only
  repeat' split
  all_goals simp [State.onPlane_mem, State.mispredict_mem]

/-! ## Tiles -/

theorem State.writeReg_mem (s : State) (v t r value mask : Nat) : (State.writeReg s v t r value mask).fab.mem = s.fab.mem := by
  unfold State.writeReg
  dsimp only
  first | with_reducible rfl | simp only [State.onTile_mem]

theorem State.writeAcc_mem (s : State) (v t base : Nat) (new : List (BitVec 128 × AccTag)) : (State.writeAcc s v t base
    new).fab.mem = s.fab.mem := by
  unfold State.writeAcc
  simp only [State.onTile_mem]

theorem State.raiseFlags_mem (s : State) (v t : Nat) (f : Flags) : (State.raiseFlags s v t f).fab.mem = s.fab.mem := by
  unfold State.raiseFlags
  simp only [State.onTile_mem, State.onPlane_mem, ite_mem, ite_self]

theorem State.drew_mem (s : State) (p t : Nat) : (State.drew s p t).fab.mem = s.fab.mem := by
  unfold State.drew
  simp only [State.onPlane_mem]

theorem State.landVector_mem (s : State) (v t : Nat) (r : VecPending) : (State.landVector s v t r).fab.mem = s.fab.mem := by
  unfold State.landVector
  simp only [State.raiseFlags_mem, State.writeReg_mem, implies_true, foldl_mem]

theorem State.landMac_mem (s : State) (v t : Nat) (q : MacPending) : (State.landMac s v t q).fab.mem = s.fab.mem := by
  unfold State.landMac
  dsimp only
  simp [State.raiseFlags_mem, State.writeAcc_mem]

theorem State.settle_mem (s : State) (v t cycle : Nat) : (State.settle s v t cycle).fab.mem = s.fab.mem := by
  unfold State.settle
  simp only [State.onTile_mem, State.landVector_mem, State.landMac_mem, implies_true, foldl_mem]

theorem State.drainCycle_mem (s : State) (v t : Nat) (d : Drain) : (State.drainCycle s v t d).fab.mem = s.fab.mem := by
  unfold State.drainCycle
  simp only [State.writeReg_mem, State.writeAcc_mem, State.raiseFlags_mem, State.drew_mem, ite_mem, ite_self]

theorem State.drainStep_mem (s : State) (v t : Nat) : (State.drainStep s v t).fab.mem = s.fab.mem := by
  unfold State.drainStep
  simp only [State.drainCycle_mem, State.onTile_mem, implies_true, foldl_mem]

theorem State.galsTake_mem (s : State) (v p n t l c : Nat) : (State.galsTake s v p n t l c).2.fab.mem = s.fab.mem := by
  induction n generalizing t l with
  | zero => rfl
  | succ n ih =>
    rw [State.galsTake]
    split
    · exact State.onTile_mem ..
    · split
      · rfl
      · split
        · rfl
        · split
          · rfl
          · split
            · split
              · exact ih ..
              · rfl
            · rfl

theorem State.takeLink_mem (s : State) (v p t l cycle : Nat) : (State.takeLink s v p t l cycle).2.fab.mem = s.fab.mem := by
  unfold State.takeLink
  split
  · exact State.galsTake_mem ..
  · rfl

theorem State.driveLink_mem (s : State) (v p t o cycle word : Nat) : (State.driveLink s v p t o cycle word).fab.mem = s.fab.mem := by
  unfold State.driveLink
  dsimp only
  repeat' split
  all_goals first | with_reducible rfl | simp only [State.onTile_mem]

theorem State.tileStart_mem (s : State) (v t : Nat) : (State.tileStart s v t).fab.mem = s.fab.mem := by
  unfold State.tileStart
  dsimp only
  repeat' split
  all_goals first | with_reducible rfl | simp only [State.writeReg_mem, State.onTile_mem, ite_mem, ite_self, implies_true,
      foldl_mem]

theorem State.macSlot_mem (s : State) (v t b : Nat) : (State.macSlot s v t b).fab.mem = s.fab.mem := by
  unfold State.macSlot
  simp only [State.onTile_mem, ite_mem, ite_self]

theorem State.vectorSlot_mem (s src : State) (v t b : Nat) : (State.vectorSlot s src v t b).fab.mem = s.fab.mem := by
  unfold State.vectorSlot
  dsimp only
  split
  · rfl
  · split
    · exact (State.drew_mem ..).trans (State.onTile_mem ..)
    · exact State.onTile_mem ..

theorem State.routeWordIn_mem (s src : State) (v p t cycle w : Nat) : (State.routeWordIn s src v p t cycle w).2.fab.mem =
    s.fab.mem := by
  unfold State.routeWordIn
  split
  · exact State.takeLink_mem ..
  · split <;> rfl

theorem State.switchSlot_mem (s src : State) (v t : Nat) (ws : List Nat) (cycle : Nat) : (State.switchSlot s src v t ws
    cycle).fab.mem = s.fab.mem := by
  have links (l : List Nat) (a : List (Nat × Nat) × State) : (l.foldl (fun (a : List (Nat × Nat) × State) x =>
      ((x, (a.2.takeLink v (s.activePlane v) t x cycle).1) :: a.1, (a.2.takeLink v (s.activePlane v) t x cycle).2)) a).2.fab.mem =
      a.2.fab.mem := by
    induction l generalizing a with
    | nil => rfl
    | cons x l ih => rw [List.foldl_cons, ih, State.takeLink_mem]
  have drive (o : Nat) (word : Nat) (b : State) (f : Nat → Bool) (l : List Nat) : (l.foldl (fun (b : State) o =>
      if f o then b.driveLink v (s.activePlane v) t o cycle word else b) b).fab.mem = b.fab.mem := by
    apply foldl_mem
    intro b o
    rw [ite_mem, State.driveLink_mem, ite_self]
  unfold State.switchSlot
  dsimp only
  refine (foldl_mem _ _ _ ?_).trans (links _ _)
  intro a w
  split
  · exact (State.writeReg_mem ..).trans (drive 0 _ _ _ _)
  · exact drive 0 _ _ _ _

theorem State.tileFault_wf (s : State) (v _t addr : Nat) (hm : Memory.wf s.fab.mem = true) : Memory.wf (State.tileFault s v
    _t addr).fab.mem = true := by
  unfold State.tileFault
  simp +contextual only [State.trap_mem, State.finish_wf, hm]

theorem State.tileUe_wf (s : State) (v t addr : Nat) (hm : Memory.wf s.fab.mem = true) : Memory.wf (State.tileUe s v t
    addr).fab.mem = true := by
  unfold State.tileUe
  simp +contextual only [State.trap_mem, State.finish_wf, hm]

theorem State.readAll_mem (s : State) (ecc : Ecc) (l : List (Nat × Nat)) : (State.readAll s ecc l).2.fab.mem = s.fab.mem := by
  induction l generalizing s ecc with
  | nil => rfl
  | cons x l ih =>
    have h := State.sramRead_mem s x.1 x.2 ecc sideTile
    rw [State.readAll]
    split
    · rename_i e; rw [e] at h; exact h
    · rename_i e; rw [e] at h; exact (ih _ _).trans h

theorem State.issueBundle_wf (s : State) (v t : Nat) (ecc : Ecc) (hm : Memory.wf s.fab.mem = true) : Memory.wf
    (State.issueBundle s v t ecc).fab.mem = true := by
  grind [State.issueBundle, State.settle_mem, State.readAll_mem, State.vectorSlot_mem, State.drainStep_mem, State.macSlot_mem,
      State.writeReg_mem, State.clearBad_mem, State.switchSlot_mem, State.onTile_mem, State.tileFault_wf, State.tileUe_wf,
      Memory.wf_setBytes, foldl_mem, foldl_wf]

theorem State.islandGate_mem (s : State) (v t : Nat) : (State.islandGate s v t).2.fab.mem = s.fab.mem := by
  unfold State.islandGate
  dsimp only
  repeat' split
  all_goals simp [State.onTile_mem, State.onVat_mem, foldl_mem]

theorem State.tileIssue_wf (s : State) (v t : Nat) (ecc : Ecc) (hm : Memory.wf s.fab.mem = true) : Memory.wf
    (State.tileIssue s v t ecc).fab.mem = true := by
  grind [State.tileIssue, State.islandGate_mem, State.issueBundle_wf, foldl_mem, foldl_wf]

theorem State.vectorLands_mem (s : State) (v t : Nat) : (State.vectorLands s v t).fab.mem = s.fab.mem := by
  grind [State.vectorLands, State.landVector_mem, State.onTile_mem, foldl_mem]

theorem State.macLands_mem (s : State) (v t : Nat) : (State.macLands s v t).fab.mem = s.fab.mem := by
  grind [State.macLands, State.landMac_mem, State.onTile_mem, foldl_mem]

theorem State.runOut_mem (s : State) (v t n : Nat) : (State.runOut s v t n).fab.mem = s.fab.mem := by
  induction n generalizing s with
  | zero => rfl
  | succ n ih =>
    rw [State.runOut]
    split
    · rfl
    · rw [ih, State.onTile_mem, State.drainStep_mem, State.settle_mem]

theorem State.tileIdles_mem (s : State) (v t : Nat) : (State.tileIdles s v t).fab.mem = s.fab.mem := by
  unfold State.tileIdles
  dsimp only
  split
  · exact (State.onVat_mem ..).trans ((State.onTile_mem ..).trans (State.runOut_mem ..))
  · rfl

/-! ## Sequencer -/

theorem State.seqDo_wf (s : State) (v : Nat) (rs : List RegNo) (f : State → Nat → State) (hf : ∀ p, Memory.wf s.fab.mem =
    true → Memory.wf (f s p).fab.mem = true) (hm : Memory.wf s.fab.mem = true) : Memory.wf (State.seqDo s v rs f).fab.mem =
    true := by
  unfold State.seqDo
  dsimp only
  split
  · exact State.finish_wf _ (hf _ hm)
  · exact hm

theorem State.retireSeq_mem (s : State) (p len : Nat) : (State.retireSeq s p len).fab.mem = s.fab.mem := by
  unfold State.retireSeq
  simp only [State.onPlane_mem]

theorem State.retireWith_mem (s : State) (p len : Nat) (rd : RegNo) (x : W64) : (State.retireWith s p len rd x).fab.mem =
    s.fab.mem := by
  unfold State.retireWith
  simp only [State.retireSeq_mem, State.onPlane_mem]

theorem State.block_mem (s : State) (p : Nat) (b : Blocked) : (State.block s p b).fab.mem = s.fab.mem := by
  unfold State.block
  simp only [State.onPlane_mem]

theorem State.unblock_mem (s : State) (p : Nat) : (State.unblock s p).fab.mem = s.fab.mem := by
  unfold State.unblock
  simp only [State.onPlane_mem]

theorem State.seqTgrp_mem (s : State) (p len : Nat) (rd rs1 rs2 : RegNo) : (State.seqTgrp s p len rd rs1 rs2).fab.mem = s.fab.mem := by
  unfold State.seqTgrp
  simp only [State.retireWith_mem, State.onPlane_mem, ite_mem, ite_self]

theorem State.seqTrun_mem (s : State) (p : Nat) (rs1 rs2 : RegNo) : (State.seqTrun s p rs1 rs2).fab.mem = s.fab.mem := by
  unfold State.seqTrun
  simp only [State.trap_mem, State.block_mem, ite_mem, ite_self]

theorem State.trunRetire_mem (s : State) (v : Nat) : (State.trunRetire s v).fab.mem = s.fab.mem := by
  unfold State.trunRetire
  dsimp only
  repeat' split
  all_goals first | with_reducible rfl | simp only [State.retireSeq_mem, State.unblock_mem, State.onTile_mem, State.onVat_mem,
      State.onPlane_mem, implies_true, foldl_mem]

theorem State.twaitDone_mem (s : State) (p h : Nat) (rd : RegNo) : (State.twaitDone s p h rd).fab.mem = s.fab.mem := by
  unfold State.twaitDone
  simp only [State.retireWith_mem, State.unblock_mem, ite_mem, ite_self]

theorem State.seqTwait_mem (s : State) (p : Nat) (rd rs1 : RegNo) : (State.seqTwait s p rd rs1).fab.mem = s.fab.mem := by
  unfold State.seqTwait
  dsimp only
  repeat' split
  all_goals first | with_reducible rfl | simp only [State.trap_mem, State.twaitDone_mem, State.block_mem]

theorem State.seqTstat_mem (s : State) (p len : Nat) (rd rs1 : RegNo) : (State.seqTstat s p len rd rs1).fab.mem = s.fab.mem := by
  unfold State.seqTstat
  simp only [State.retireWith_mem]

theorem State.seqLdlgo_mem (s : State) (p len : Nat) (rs1 rs2 : RegNo) : (State.seqLdlgo s p len rs1 rs2).fab.mem = s.fab.mem := by
  unfold State.seqLdlgo
  simp only [State.trap_mem, State.retireSeq_mem, State.onPlane_mem, ite_mem, ite_self]

theorem State.takeStep_mem (s : State) (p k : Nat) (rd : RegNo) : (State.takeStep s p k rd).fab.mem = s.fab.mem := by
  unfold State.takeStep
  dsimp only
  repeat' split
  all_goals simp [State.noteDelayed_mem, State.onPlane_mem, State.retireWith_mem, State.unblock_mem, State.block_mem,
      State.trap_mem, State.issueIter_mem]

theorem State.seqLdltake_mem (s : State) (p : Nat) (rd rs1 : RegNo) : (State.seqLdltake s p rd rs1).fab.mem = s.fab.mem := by
  unfold State.seqLdltake
  simp only [State.takeStep_mem]

theorem State.ldltakeAgain_wf (s : State) (v : Nat) (hm : Memory.wf s.fab.mem = true) : Memory.wf (State.ldltakeAgain s
    v).fab.mem = true := by
  unfold State.ldltakeAgain
  dsimp only
  repeat' split
  all_goals simp +contextual [State.takeStep_mem, State.retireWith_mem, State.unblock_mem, State.finish_wf, hm]

theorem State.seqLdlres_mem (s : State) (p len : Nat) (rs1 rs2 : RegNo) : (State.seqLdlres s p len rs1 rs2).fab.mem = s.fab.mem := by
  unfold State.seqLdlres
  simp only [State.retireSeq_mem, State.ladleResolve_mem]

theorem State.seqLdlstop_mem (s : State) (p len : Nat) (rs1 : RegNo) : (State.seqLdlstop s p len rs1).fab.mem = s.fab.mem := by
  unfold State.seqLdlstop
  simp only [State.retireSeq_mem, State.onPlane_mem, State.squashLadle_mem]

theorem State.fenceDone_mem (s : State) (p : Nat) (mask : BitVec 9) (rd : RegNo) : (State.fenceDone s p mask rd).fab.mem =
    s.fab.mem := by
  unfold State.fenceDone
  simp only [State.retireWith_mem, State.onPlane_mem, State.unblock_mem, ite_mem, ite_self]

theorem State.seqFfence_mem (s : State) (p : Nat) (rd : RegNo) (mask : BitVec 9) : (State.seqFfence s p rd mask).fab.mem =
    s.fab.mem := by
  unfold State.seqFfence
  simp only [State.fenceDone_mem, State.block_mem]

theorem State.seqBoundary_mem (s : State) (p : Nat) (id : BitVec 12) : (State.seqBoundary s p id).fab.mem = s.fab.mem := by
  unfold State.seqBoundary
  simp only [State.block_mem]

theorem State.setBusy_mem (s : State) (p : Nat) (rd : RegNo) : (State.setBusy s p rd).fab.mem = s.fab.mem := by
  unfold State.setBusy
  simp only [State.onPlane_mem, ite_mem, ite_self]

theorem State.seqFails_mem (s : State) (p len : Nat) (cause : SourCause) (addr : W64) (isLoad : Bool) : (State.seqFails s p
    len cause addr isLoad).fab.mem = s.fab.mem := by
  unfold State.seqFails
  simp only [State.seqDone_mem, State.countSour_mem, State.retireSeq_mem]

theorem State.seqLoadOp_mem (s : State) (p len : Nat) (rd rs1 : RegNo) (imm : BitVec 12) (size : BitVec 2) (zeroExt : Bool)
    : (State.seqLoadOp s p len rd rs1 imm size zeroExt).fab.mem = s.fab.mem := by
  grind [State.seqLoadOp, State.trap_mem, State.retireWith_mem, State.seqFails_mem, State.sendOp_mem, State.retireSeq_mem,
      State.setBusy_mem, foldl_mem]

theorem State.seqStoreOp_mem (s : State) (p len : Nat) (rs1 rs2 : RegNo) (imm : BitVec 12) (size : BitVec 2) :
    (State.seqStoreOp s p len rs1 rs2 imm size).fab.mem = s.fab.mem := by
  grind [State.seqStoreOp, State.trap_mem, State.retireSeq_mem, State.onPlane_mem, State.seqFails_mem, State.sendOp_mem, foldl_mem]

theorem State.seqAtomic_mem (s : State) (p len : Nat) (asub : Option Nat) (dbl : Bool) (rd rs1 : RegNo) (operand compare :
    Nat) (new : Nat → Nat) : (State.seqAtomic s p len asub dbl rd rs1 operand compare new).fab.mem = s.fab.mem := by
  have send (port c : Nat) (i : Issuer) (fa e : Nat) (b : Nat → Nat → Nat → List Cell) (r : Option SourCause × State)
      (h : s.sendOp port c i fa e b = r) : r.2.fab.mem = s.fab.mem := h ▸ State.sendOp_mem ..
  unfold State.seqAtomic
  dsimp only
  generalize (if dbl = true then 8 else 4) = n
  split
  · exact State.trap_mem ..
  · split
    · exact (State.retireWith_mem ..).trans (State.onPlane_mem ..)
    · split
      · exact State.trap_mem ..
      · split
        · rfl
        · split
          · exact State.seqFails_mem ..
          · split
            · rename_i e
              exact (State.retireSeq_mem ..).trans ((State.setBusy_mem ..).trans (send _ _ _ _ _ _ _ e))
            · rename_i e
              exact (State.seqFails_mem ..).trans (send _ _ _ _ _ _ _ e)

theorem State.seqLr_mem (s : State) (p len : Nat) (dbl : Bool) (rd rs1 : RegNo) : (State.seqLr s p len dbl rd rs1).fab.mem =
    s.fab.mem := by
  unfold State.seqLr
  simp only [State.trap_mem, State.retireWith_mem, State.onPlane_mem, ite_mem, ite_self]

theorem State.seqSc_mem (s : State) (p len : Nat) (dbl : Bool) (rd rs1 rs2 : RegNo) : (State.seqSc s p len dbl rd rs1
    rs2).fab.mem = s.fab.mem := by
  unfold State.seqSc
  simp only [State.trap_mem, State.retireWith_mem, State.onPlane_mem, ite_mem, ite_self]

theorem State.seqAmoOp_mem (s : State) (p len : Nat) (op : AmoOp) (dbl : Bool) (rd rs1 rs2 : RegNo) : (State.seqAmoOp s p
    len op dbl rd rs1 rs2).fab.mem = s.fab.mem := by
  unfold State.seqAmoOp
  dsimp only
  repeat' split
  all_goals simp [State.seqLr_mem, State.seqSc_mem, State.seqAtomic_mem]

theorem State.seqVendor_mem (s : State) (p len k : Nat) (rd rs1 rs2 : RegNo) : (State.seqVendor s p len k rd rs1
    rs2).fab.mem = s.fab.mem := by
  unfold State.seqVendor
  simp only [State.seqAtomic_mem]

theorem State.seqCsr_mem (s : State) (p len : Nat) (op : CsrOp) (immForm : Bool) (csr : BitVec 12) (rd rs1 : RegNo) :
    (State.seqCsr s p len op immForm csr rd rs1).fab.mem = s.fab.mem := by
  unfold State.seqCsr
  dsimp only
  repeat' split
  all_goals simp [State.trap_mem, State.retireWith_mem]

theorem State.seqEcall_mem (s : State) (p len : Nat) : (State.seqEcall s p len).fab.mem = s.fab.mem := by
  unfold State.seqEcall
  dsimp only
  repeat' split
  all_goals simp [State.onCtx_mem, State.onPlane_mem, State.retireSeq_mem, State.trap_mem]

theorem State.seqEbreak_mem (s : State) (p : Nat) : (State.seqEbreak s p).fab.mem = s.fab.mem := by
  unfold State.seqEbreak
  simp only [State.trap_mem]

/-! ## Rv -/

theorem State.seqJump_mem (s : State) (p len : Nat) (rd : RegNo) (target : W64) : (State.seqJump s p len rd target).fab.mem
    = s.fab.mem := by
  unfold State.seqJump
  dsimp only
  simp [State.onPlane_mem]

theorem State.illegal_mem (s : State) (p raw : Nat) : (State.illegal s p raw).fab.mem = s.fab.mem := by
  unfold State.illegal
  simp only [State.trap_mem]

theorem State.runVendor_mem (s : State) (p len raw w : Nat) : (State.runVendor s p len raw w).fab.mem = s.fab.mem := by
  unfold State.runVendor
  dsimp only
  repeat' split
  all_goals first | with_reducible rfl | simp only [State.seqTgrp_mem, State.seqTrun_mem, State.seqTwait_mem,
      State.seqTstat_mem, State.seqLdlgo_mem, State.seqLdltake_mem, State.seqLdlres_mem, State.seqLdlstop_mem,
      State.seqFfence_mem, State.seqBoundary_mem, State.illegal_mem, State.seqVendor_mem]

theorem State.runMemory_mem (s : State) (p len raw w : Nat) : (State.runMemory s p len raw w).fab.mem = s.fab.mem := by
  unfold State.runMemory
  dsimp only
  repeat' split
  all_goals first | with_reducible rfl | simp only [State.illegal_mem, State.seqLoadOp_mem, State.seqStoreOp_mem,
      State.seqAmoOp_mem]

theorem State.runSystem_mem (s : State) (p len raw w : Nat) : (State.runSystem s p len raw w).fab.mem = s.fab.mem := by
  unfold State.runSystem
  dsimp only
  repeat' split
  all_goals simp [State.seqEcall_mem, State.seqEbreak_mem, State.seqCsr_mem, State.illegal_mem]

theorem State.runInstr_mem (s : State) (p len raw w : Nat) : (State.runInstr s p len raw w).fab.mem = s.fab.mem := by
  unfold State.runInstr
  dsimp only
  repeat' split
  all_goals simp [State.runVendor_mem, State.runMemory_mem, State.runSystem_mem, State.seqJump_mem, State.illegal_mem,
      State.retireSeq_mem, State.seqFfence_mem, State.retireWith_mem]

theorem State.seqStep_mem (s : State) (p : Nat) : (State.seqStep s p).fab.mem = s.fab.mem := by
  unfold State.seqStep
  dsimp only
  repeat' split
  all_goals first | with_reducible rfl | simp only [State.trap_mem, State.runInstr_mem, State.illegal_mem]

/-! ## Sram -/

theorem State.tileStoreWord_wf (s : State) (a mask word : Nat) (ecc : Ecc) (hm : Memory.wf s.fab.mem = true) : Memory.wf
    (State.tileStoreWord s a mask word ecc).2.fab.mem = true := by
  grind [State.tileStoreWord, State.clearBad_mem, State.sramRead_mem, Memory.wf_setBytes, Memory.wf_setMasked, foldl_mem, foldl_wf]

theorem State.ladleRead_mem (s : State) (o : Op) (i : Nat) (ok : Bool) (data : BitVec 512) : (State.ladleRead s o i ok
    data).fab.mem = s.fab.mem := by
  unfold State.ladleRead
  dsimp only
  repeat' split
  all_goals first | with_reducible rfl | simp only [State.onPlane_mem, State.setOp_mem, State.launchAll_mem, State.finishOp_mem]

theorem State.serveTileReq_wf (s : State) (v t : Nat) (r : TReq) (ecc : Ecc) (hm : Memory.wf s.fab.mem = true) : Memory.wf
    (State.serveTileReq s v t r ecc).fab.mem = true := by
  have rd (a n : Nat) (e : Ecc) : Memory.wf (s.sramRead a n e sideFabric).2.fab.mem = true := (State.sramRead_mem ..).symm ▸ hm
  have wr (a m d : Nat) (e : Ecc) : Memory.wf (s.tileStoreWord a m d e).2.fab.mem = true :=
    State.tileStoreWord_wf _ _ _ _ _ hm
  have la (a : State) (c : Cell) (h : Memory.wf a.fab.mem = true) : Memory.wf (a.launch c).fab.mem = true :=
    (State.launch_mem a c).symm ▸ h
  unfold State.serveTileReq
  dsimp only
  split
  · split
    · exact la _ _ (Memory.wf_setBytes _ _ _ (rd _ _ _))
    · exact la _ _ (rd _ _ _)
  · split
    · split
      · exact rd _ _ _
      · split
        · rw [State.ladleRead_mem]; exact rd _ _ _
        · rw [ite_mem, State.launch_mem, State.launch_mem, ite_self]; exact rd _ _ _
    · split
      · exact wr _ _ _ _
      · rw [ite_mem, State.launch_mem, State.launch_mem, ite_self]; exact wr _ _ _ _

theorem State.serveTileResp_wf (s : State) (v t : Nat) (r : TResp) (hm : Memory.wf s.fab.mem = true) : Memory.wf
    (State.serveTileResp s v t r).fab.mem = true := by
  have store (p : Prop) [Decidable p] (a : Nat) (l : List Byte) : Memory.wf (if p then
      (s.clearBad a 32).setBytes a l else s).fab.mem = true := by
    split
    · apply Memory.wf_setBytes
      rw [State.clearBad_mem]
      exact hm
    · exact hm
  have st := store (r.port = 64 ∨ (s.opOf r.port r.tag.toNat).any (fun o => !o.voided)) (tileBase v t + r.off + 32 * r.words)
    (leBytes 32 (halfOf r.data (r.words == 1)))
  unfold State.serveTileResp
  dsimp only
  revert st
  generalize (if (r.port = 64 ∨ (s.opOf r.port r.tag.toNat).any (fun o => !o.voided) = true) then
      (s.clearBad (tileBase v t + r.off + 32 * r.words) 32).setBytes (tileBase v t + r.off + 32 * r.words)
        (leBytes 32 (halfOf r.data (r.words == 1))) else s) = s1
  intro st
  split
  · exact st
  · split
    · exact st
    · rename_i o _
      generalize hs : ({ s1 with fab := _ } : State) = s2
      have h2 : Memory.wf s2.fab.mem = true := by rw [← hs]; exact st
      split
      · rw [State.endOp_mem]
        split
        · split
          · exact h2
          · rw [State.ladleCells_mem]; exact h2
        · exact h2
      · split
        · split
          · exact h2
          · rw [State.ladleCells_mem]; exact h2
        · exact h2

theorem State.tileService_wf (s : State) (v t : Nat) (ecc : Ecc) (hm : Memory.wf s.fab.mem = true) : Memory.wf
    (State.tileService s v t ecc).fab.mem = true := by
  unfold State.tileService
  dsimp only
  repeat' split
  all_goals simp +contextual [State.finish_wf, State.serveTileReq_wf, State.serveTileResp_wf, hm]

theorem State.creamAccess_wf (s : State) (c bank : Nat) (ecc : Ecc) (hm : Memory.wf s.fab.mem = true) : Memory.wf
    (State.creamAccess s c bank ecc).fab.mem = true := by
  grind [State.creamAccess, State.sramRead_mem, State.clearBad_mem, State.launch_mem, Memory.wf_setBytes, Memory.wf_setMasked,
      State.finish_wf, foldl_mem, foldl_wf]

theorem State.scrub_mem (s : State) (u : Sram) (ecc : Ecc) : (State.scrub s u ecc).fab.mem = s.fab.mem := by
  unfold State.scrub
  dsimp only
  repeat' split
  all_goals first | with_reducible rfl | simp only [State.sramRead_mem, State.onVat_mem, State.onCream_mem]

theorem State.woken_mem (s : State) (u : Sram) : (State.woken s u).fab.mem = s.fab.mem := by
  unfold State.woken
  dsimp only
  repeat' split
  all_goals first | with_reducible rfl | simp only [State.onVat_mem, State.swapIdleActive_mem, State.refreshRun_mem,
      State.onCream_mem]

theorem State.writeCrmCtrl_mem (s : State) (c : Nat) (value : W32) : (State.writeCrmCtrl s c value).fab.mem = s.fab.mem := by
  unfold State.writeCrmCtrl
  simp only [State.onCream_mem, ite_mem, ite_self]

/-! ## Vats -/

theorem State.flexTrigger_mem (s : State) (c : Nat) (id : BitVec 12) : (State.flexTrigger s c id).fab.mem = s.fab.mem := by
  unfold State.flexTrigger
  dsimp only
  repeat' split
  all_goals with_reducible rfl

theorem State.boundarySwap_mem (s : State) (v : Nat) (fresh : Bool) : (State.boundarySwap s v fresh).fab.mem = s.fab.mem := by
  unfold State.boundarySwap
  simp only [State.onVat_mem, State.swapStart_mem, ite_mem, ite_self]

theorem State.boundaryRetire_wf (s : State) (v : Nat) (hm : Memory.wf s.fab.mem = true) : Memory.wf (State.boundaryRetire s
    v).fab.mem = true := by
  grind [State.boundaryRetire, State.onVat_mem, State.flexTrigger_mem, State.onPlane_mem, State.onCtx_mem,
      State.squashPlane_mem, State.replayPass_mem, State.boundarySwap_mem, State.finish_wf, foldl_mem, foldl_wf]

theorem State.swapDone_mem (s : State) (v : Nat) : (State.swapDone s v).fab.mem = s.fab.mem := by
  unfold State.swapDone
  simp only [State.swapIdleActive_mem, State.refreshRun_mem, State.onVat_mem, ite_mem, ite_self]

theorem State.swapArm_mem (s : State) (v : Nat) : (State.swapArm s v).fab.mem = s.fab.mem := by
  unfold State.swapArm
  simp only [State.onVat_mem, ite_mem, ite_self]

theorem State.vatGate_mem (s : State) (v : Nat) : (State.vatGate s v).fab.mem = s.fab.mem := by
  unfold State.vatGate
  simp only [State.onVat_mem, ite_mem, ite_self]

theorem State.bankStop_mem (s : State) (v : Nat) : (State.bankStop s v).fab.mem = s.fab.mem := by
  unfold State.bankStop
  simp only [State.onVat_mem, ite_mem, ite_self]

theorem State.columnFault_wf (s : State) (v col : Nat) (hm : Memory.wf s.fab.mem = true) : Memory.wf (State.columnFault s v
    col).fab.mem = true := by
  unfold State.columnFault
  split
  · exact hm
  · dsimp only
    apply State.finish_wf
    dsimp only
    rw [State.onVat_mem, State.dropVat_mem, State.noteRetired_mem]
    exact hm

/-! ## Loads -/

theorem State.acceptLoad_mem (s : State) (src : KcpSrc) (req : W32) (image : W64) (shift : Nat) (ts : List (Byte × Byte)) :
    (State.acceptLoad s src req image shift ts).fab.mem = s.fab.mem := by
  grind [State.acceptLoad, State.noteRefused_mem, State.ungate_mem, State.finishLoads_mem, foldl_mem]

theorem State.checkLoad_mem (s : State) (l : Load) (img : Image) : (State.checkLoad s l img).fab.mem = s.fab.mem := by
  grind [State.checkLoad, State.failTargets_mem, foldl_mem]

theorem State.loadMem_wf (s : State) (img : Image) (v : Nat) (p : Plane) (hm : Memory.wf s.fab.mem = true) : Memory.wf
    (State.loadMem s img v p).fab.mem = true := by
  unfold State.loadMem
  split
  · apply foldl_wf _ _ _ hm
    intro a x h
    apply Memory.wf_setBytes
    rw [State.clearBad_mem]
    exact h
  · exact hm

theorem State.commitTarget_wf (s : State) (l : Load) (img : Image) (t : LoadTarget) (hm : Memory.wf s.fab.mem = true) :
    Memory.wf (State.commitTarget s l img t).fab.mem = true := by
  unfold State.commitTarget
  simp +contextual only [State.onPlane_mem, State.onCtx_mem, State.loadMem_wf, hm]

theorem State.streamLoad_wf (s : State) (l : Load) (img : Image) (hm : Memory.wf s.fab.mem = true) : Memory.wf
    (State.streamLoad s l img).fab.mem = true := by
  grind [State.streamLoad, State.failTargets_mem, State.commitTarget_wf, foldl_mem, foldl_wf]

/-! ## Registers -/

theorem State.writeSwapCtrl_mem (s : State) (v x : Nat) : (State.writeSwapCtrl s v x).fab.mem = s.fab.mem := by
  unfold State.writeSwapCtrl
  simp only [State.onVat_mem, State.swapArm_mem, ite_mem, ite_self]

theorem State.writeVatCtrl_mem (s : State) (v x : Nat) : (State.writeVatCtrl s v x).fab.mem = s.fab.mem := by
  unfold State.writeVatCtrl
  simp only [State.onVat_mem]

theorem State.writeFlexWait_mem (s : State) (x : Nat) : (State.writeFlexWait s x).fab.mem = s.fab.mem := by
  unfold State.writeFlexWait
  simp only

theorem State.writeHbmCtrl_mem (s : State) (x : Nat) : (State.writeHbmCtrl s x).fab.mem = s.fab.mem := by
  unfold State.writeHbmCtrl
  simp only [ite_mem, ite_self]

theorem State.writeEthCfg_mem (s : State) (x : Nat) : (State.writeEthCfg s x).fab.mem = s.fab.mem := by
  unfold State.writeEthCfg
  simp only [State.ethSettle_mem, ite_mem, ite_self]

theorem State.writeErrStatus_mem (s : State) (x : Nat) : (State.writeErrStatus s x).fab.mem = s.fab.mem := by
  unfold State.writeErrStatus
  simp only [State.dumpReleased_mem, ite_mem, ite_self]

theorem State.writeResetReq_mem (s : State) (x : Nat) : (State.writeResetReq s x).fab.mem = s.fab.mem := by
  unfold State.writeResetReq
  simp only [State.dumpStart_mem, State.askCompute_mem, State.askMgmt_mem, State.askDie_mem, State.askVat_mem, ite_mem, ite_self]

theorem State.writeSvcCtrl_mem (s : State) (x : Nat) : (State.writeSvcCtrl s x).fab.mem = s.fab.mem := by
  unfold State.writeSvcCtrl
  simp only [State.leaveStandby_mem, State.lockMonitor_mem, ite_mem, ite_self]

theorem State.frozen_mem (s : State) (runs : Bool) (w : Writer) (off x : Nat) (f : State → State) (hf : (f s).fab.mem =
    s.fab.mem) : (State.frozen s runs w off x f).2.fab.mem = s.fab.mem := by
  unfold State.frozen
  split
  · exact State.cfgRefuse_mem ..
  · exact hf

theorem State.writeCtxBlock_mem (s : State) (w : Writer) (off x : Nat) : (State.writeCtxBlock s w off x).2.fab.mem = s.fab.mem := by
  unfold State.writeCtxBlock
  dsimp only
  repeat' split
  all_goals first | with_reducible rfl | simp only [State.frozen_mem, State.onCtx_mem]

theorem State.writeSepBlock_mem (s : State) (w : Writer) (off x : Nat) : (State.writeSepBlock s w off x).2.fab.mem = s.fab.mem := by
  unfold State.writeSepBlock
  dsimp only
  repeat' split
  all_goals first | with_reducible rfl | simp only [State.frozen_mem, State.onCtx_mem]

theorem State.writeHbmBlock_mem (s : State) (w : Writer) (off x : Nat) : (State.writeHbmBlock s w off x).2.fab.mem = s.fab.mem := by
  unfold State.writeHbmBlock
  dsimp only
  repeat' split
  all_goals first | with_reducible rfl | simp only [State.frozen_mem, State.writeHbmCtrl_mem]

theorem State.writeFabBlock_mem (s : State) (o x : Nat) : (State.writeFabBlock s o x).fab.mem = s.fab.mem := by
  unfold State.writeFabBlock
  dsimp only
  repeat' split
  all_goals simp

theorem State.writeLnkBlock_mem (s : State) (o x : Nat) : (State.writeLnkBlock s o x).fab.mem = s.fab.mem := by
  unfold State.writeLnkBlock
  simp only [State.lnkRetrain_mem, State.writeLnkCfg_mem, State.writeRoute_mem, ite_mem, ite_self]

theorem State.writeMcBlock_mem (s : State) (o x : Nat) : (State.writeMcBlock s o x).fab.mem = s.fab.mem := by
  unfold State.writeMcBlock
  dsimp only
  repeat' split
  all_goals simp [State.raiseHandover_mem]

theorem State.writePwrBlock_mem (s : State) (o x : Nat) : (State.writePwrBlock s o x).fab.mem = s.fab.mem := by
  unfold State.writePwrBlock
  dsimp only
  repeat' split
  all_goals simp [State.setLimit_mem]

theorem State.writeSvcBlock_mem (s : State) (o x : Nat) : (State.writeSvcBlock s o x).fab.mem = s.fab.mem := by
  unfold State.writeSvcBlock
  dsimp only
  repeat' split
  all_goals first | with_reducible rfl | simp only [State.writeSvcCtrl_mem]

theorem State.writeKcpCfg_mem (s : State) (x : Nat) : (State.writeKcpCfg s x).fab.mem = s.fab.mem := by
  unfold State.writeKcpCfg
  dsimp only

theorem State.writeLasCtrl_mem (s : State) (x : Nat) : (State.writeLasCtrl s x).fab.mem = s.fab.mem := by
  unfold State.writeLasCtrl
  simp only

theorem State.writeTileReg_mem (s : State) (v t o x : Nat) : (State.writeTileReg s v t o x).fab.mem = s.fab.mem := by
  unfold State.writeTileReg
  dsimp only
  repeat' split
  all_goals first | with_reducible rfl | simp only [State.onTile_mem]

theorem State.writeVatBlock_mem (s : State) (v o x : Nat) : (State.writeVatBlock s v o x).fab.mem = s.fab.mem := by
  unfold State.writeVatBlock
  split
  · split
    · exact State.writeTileReg_mem ..
    · rfl
  · split
    · exact State.writeSwapCtrl_mem ..
    · exact State.onVat_mem ..
    · exact State.onVat_mem ..
    · rfl

theorem State.writeWord_mem (s : State) (w : Writer) (off x : Nat) : (State.writeWord s w off x).2.fab.mem = s.fab.mem := by
  unfold State.writeWord
  dsimp only
  repeat' split
  all_goals first | with_reducible rfl | simp only [State.writeMcBlock_mem, State.writeVatCtrl_mem, State.writePwrBlock_mem,
      State.writeEthCfg_mem, State.writeKcpCfg_mem, State.writeCtxBlock_mem, State.writeErrStatus_mem,
      State.writeResetReq_mem, State.writeFabBlock_mem, State.writeHbmBlock_mem, State.writeFlexWait_mem,
      State.flexReleaseMask_mem, State.writeSepBlock_mem, State.writeLnkBlock_mem, State.writeLasCtrl_mem,
      State.writeSvcBlock_mem, State.writeVatBlock_mem, State.writeCrmCtrl_mem]

theorem State.writeSegPiece_mem (s : State) (w : Writer) (off n x : Nat) : (State.writeSegPiece s w off n x).2.fab.mem = s.fab.mem := by
  unfold State.writeSegPiece
  simp only [State.writeSeg_mem]

theorem State.regWrite_wf (s t : State) (wr : Writer) (addr n x : Nat) (r : Bool) (h : State.regWrite s wr addr n x = .ok
    (r, t)) (hm : Memory.wf s.fab.mem = true) : Memory.wf t.fab.mem = true := by
  have key (P : Except SourCause (Bool × State) → Prop) (e : ∀ c, P (.error c))
      (k : ∀ p : Bool × State, Memory.wf p.2.fab.mem = true → P (.ok p)) : P (s.regWrite wr addr n x) := by
    unfold State.regWrite
    split
    · exact e _
    · extract_lets off
      split
      · exact e _
      · split
        · exact k _ ((State.writeSegPiece_mem s wr off n x).symm ▸ hm)
        · have h1 := (State.writeWord_mem s wr off (bitsAt x 0 32)).symm ▸ hm
          split
          rename_i r1 s1 e1
          rw [e1] at h1
          split
          · have h2 := (State.writeWord_mem s1 wr (off + 4) (bitsAt x 32 32)).symm ▸ h1
            split
            rename_i e2
            rw [e2] at h2
            exact k _ (State.finish_wf _ h2)
          · exact k _ (State.finish_wf _ h1)
  exact key (fun z => ∀ p, z = .ok p → Memory.wf p.2.fab.mem = true) (fun c p h => nomatch h)
    (fun p w q h => by cases h; exact w) _ h

theorem State.kcpWrite_wf (s : State) (src : KcpSrc) (req : W32) (addr n x : Nat) (hm : Memory.wf s.fab.mem = true) :
    Memory.wf (State.kcpWrite s src req addr n x).fab.mem = true := by
  unfold State.kcpWrite
  split
  · rw [State.reply_mem]; exact hm
  · split
    · rw [State.reply_mem]; exact hm
    · rw [State.reply_mem]; exact hm
    · dsimp only
      rw [State.reply_mem]
      exact State.regWrite_wf _ _ _ _ _ _ _ ‹_› hm

/-! ## Monitor -/

theorem State.print_mem (s : State) (l : List MonLine) : (State.print s l).fab.mem = s.fab.mem := by
  unfold State.print
  dsimp only

theorem State.done_mem (s : State) : (State.done s).fab.mem = s.fab.mem := by
  unfold State.done
  simp only [State.print_mem]

theorem State.fail_mem (s : State) (why : String) : (State.fail s why).fab.mem = s.fab.mem := by
  unfold State.fail
  simp only [State.print_mem]

theorem State.monitor_mem (s : State) (locked rom : Bool) (f : State → State) (hf : ∀ a, (f a).fab.mem = a.fab.mem) :
    (State.monitor s locked rom f).fab.mem = s.fab.mem := by
  unfold State.monitor
  split
  · rfl
  · dsimp only
    split
    · exact State.fail_mem ..
    · split
      · exact State.fail_mem ..
      · exact hf _

theorem State.monitor_wf (s : State) (locked rom : Bool) (f : State → State) (hf : ∀ a, Memory.wf a.fab.mem = true →
    Memory.wf (f a).fab.mem = true) (hm : Memory.wf s.fab.mem = true) : Memory.wf (State.monitor s locked rom f).fab.mem =
    true := by
  grind [State.monitor, State.fail_mem, foldl_mem, foldl_wf]

theorem State.printHelp_mem (s : State) : (State.printHelp s).fab.mem = s.fab.mem := by
  unfold State.printHelp
  simp only [State.done_mem, State.print_mem]

theorem State.printRings_mem (s : State) (e : Option Nat) : (State.printRings s e).fab.mem = s.fab.mem := by
  unfold State.printRings
  dsimp only
  repeat' split
  all_goals first | with_reducible rfl | simp only [State.done_mem, State.print_mem, State.fail_mem]

theorem State.pokeMem_wf (s : State) (a n x : Nat) (hm : Memory.wf s.fab.mem = true) : Memory.wf (State.pokeMem s a n
    x).2.fab.mem = true := by
  unfold State.pokeMem
  dsimp only
  repeat' split
  all_goals first | exact hm | simp +contextual only [State.setLocalCell_wf, hm]

theorem State.notePoke_mem (s : State) (addr value : W64) (outcome : Nat) : (State.notePoke s addr value outcome).fab.mem =
    s.fab.mem := by
  unfold State.notePoke
  simp only [State.note_mem]

theorem State.pokeReg_wf (s : State) (addr : W64) (n : Nat) (value : W64) (hm : Memory.wf s.fab.mem = true) : Memory.wf
    (State.pokeReg s addr n value).fab.mem = true := by
  unfold State.pokeReg
  split
  · rw [State.fail_mem, State.notePoke_mem]; exact hm
  · split
    · rw [State.done_mem, State.print_mem, State.notePoke_mem]; exact hm
    · rw [State.fail_mem, State.notePoke_mem]
      exact State.regWrite_wf _ _ _ _ _ _ _ ‹_› hm
    · rw [State.done_mem, State.print_mem, State.notePoke_mem]
      exact State.regWrite_wf _ _ _ _ _ _ _ ‹_› hm

theorem State.pokeCell_wf (s : State) (addr : W64) (n : Nat) (value : W64) (hm : Memory.wf s.fab.mem = true) : Memory.wf
    (State.pokeCell s addr n value).fab.mem = true := by
  grind [State.pokeCell, State.done_mem, State.print_mem, State.notePoke_mem, State.pokeMem_wf, foldl_mem, foldl_wf]

theorem State.poke_wf (s : State) (addr : W64) (n : Nat) (value : W64) (hm : Memory.wf s.fab.mem = true) : Memory.wf
    (State.poke s addr n value).fab.mem = true := by
  grind [State.poke, State.fail_mem, State.notePoke_mem, State.pokeReg_wf, State.pokeCell_wf, foldl_mem, foldl_wf]

theorem State.answered_mem (s : State) (st : Nat) : (State.answered s st).fab.mem = s.fab.mem := by
  unfold State.answered
  simp only [State.done_mem, State.fail_mem, ite_mem, ite_self]

theorem State.offerChallenge_mem (s : State) : (State.offerChallenge s).fab.mem = s.fab.mem := by
  unfold State.offerChallenge
  simp only [State.fail_mem, State.takeFree_mem, State.print_mem, ite_mem, ite_self]

theorem State.unlockFails_mem (s : State) (step : Nat) : (State.unlockFails s step).fab.mem = s.fab.mem := by
  unfold State.unlockFails
  simp only [State.fail_mem, State.note_mem]

theorem State.answerChallenge_mem (s : State) (key sig : List Byte) : (State.answerChallenge s key sig).fab.mem = s.fab.mem := by
  unfold State.answerChallenge
  dsimp only
  repeat' split
  all_goals first | with_reducible rfl | simp only [State.unlockFails_mem, State.done_mem, State.print_mem, State.note_mem]

/-! ## Requests -/

theorem State.forward_mem (s : State) (k : Fin 8) (m : KcpMsg) (bytes : List Byte) : (State.forward s k m bytes).fab.mem =
    s.fab.mem := by
  unfold State.forward
  simp only [State.reply_mem, State.onSession_mem, State.sendMsg_mem, ite_mem, ite_self]

theorem State.takeMail_mem (s : State) (pkg : Nat) (message : List Byte) : (State.takeMail s pkg message).fab.mem = s.fab.mem := by
  unfold State.takeMail
  simp only

theorem State.forwardReturns_mem (s : State) (pkg k : Nat) (bytes : List Byte) : (State.forwardReturns s pkg k
    bytes).fab.mem = s.fab.mem := by
  unfold State.forwardReturns
  dsimp only
  repeat' split
  all_goals first | with_reducible rfl | simp only [State.takeMail_mem, State.sealTo_mem, State.onSession_mem]

end Sys2Proof.Machine
end

