-- ==== Sys2Proof/Laws/PerInstr.lean ====
section
/-! SUPPORT. A law of every command: a row of the table is never shut out by its checks, for some command of the row is well formed. -/

namespace Sys2Proof.Laws

/-- Some well-formed command has the same row as i. -/
def CanBeSent.Statement (i : Instr) : Prop := ∃ j : Instr, j.ctorIdx = i.ctorIdx ∧ j.wf = true

/-- A cell whose header carries only an opcode (R197). -/
def bareCell (op : Nat) : Cell := { hdr := BitVec.ofNat 64 (op * 2 ^ 35), payload := 0 }

theorem CanBeSent.powerApplied (refValid : Bool) : CanBeSent.Statement (.powerApplied refValid) := ⟨.powerApplied refValid, rfl, rfl⟩
theorem CanBeSent.undervoltageTrip : CanBeSent.Statement .undervoltageTrip := ⟨.undervoltageTrip, rfl, rfl⟩
theorem CanBeSent.overvoltageTrip : CanBeSent.Statement .overvoltageTrip := ⟨.overvoltageTrip, rfl, rfl⟩
theorem CanBeSent.inputRestart (refValid : Bool) : CanBeSent.Statement (.inputRestart refValid) := ⟨.inputRestart refValid, rfl, rfl⟩
theorem CanBeSent.resetNAssert : CanBeSent.Statement .resetNAssert := ⟨.resetNAssert, rfl, rfl⟩
theorem CanBeSent.resetNRelease : CanBeSent.Statement .resetNRelease := ⟨.resetNRelease, rfl, rfl⟩
theorem CanBeSent.lugPairLoss (pairB : Bool) : CanBeSent.Statement (.lugPairLoss pairB) := ⟨.lugPairLoss pairB, rfl, rfl⟩
theorem CanBeSent.lugClampRecompute (centivolts : W16)
    : CanBeSent.Statement (.lugClampRecompute centivolts) := ⟨.lugClampRecompute centivolts, rfl, rfl⟩
theorem CanBeSent.leakDetect : CanBeSent.Statement .leakDetect := ⟨.leakDetect, rfl, rfl⟩
theorem CanBeSent.i2cStatusWrite (bytes : List Byte) : CanBeSent.Statement (.i2cStatusWrite bytes) := ⟨.i2cStatusWrite bytes, rfl, rfl⟩
theorem CanBeSent.buttonRelease (heldMs : Nat) : CanBeSent.Statement (.buttonRelease heldMs) := ⟨.buttonRelease heldMs, rfl, rfl⟩
theorem CanBeSent.identifyExpire : CanBeSent.Statement .identifyExpire := ⟨.identifyExpire, rfl, rfl⟩
theorem CanBeSent.buttonHold10s : CanBeSent.Statement .buttonHold10s := ⟨.buttonHold10s, rfl, rfl⟩
theorem CanBeSent.standbyEntered : CanBeSent.Statement .standbyEntered := ⟨.standbyEntered, rfl, rfl⟩
theorem CanBeSent.exitStandby : CanBeSent.Statement .exitStandby := ⟨.exitStandby, rfl, rfl⟩
theorem CanBeSent.ident (on : Bool) : CanBeSent.Statement (.ident on) := ⟨.ident on, rfl, rfl⟩
theorem CanBeSent.faultClr : CanBeSent.Statement .faultClr := ⟨.faultClr, rfl, rfl⟩
theorem CanBeSent.lockMon : CanBeSent.Statement .lockMon := ⟨.lockMon, rfl, rfl⟩
theorem CanBeSent.registerWrite (w : Writer) (addr : BitVec 46) (wide : Bool) (value : W64)
    : CanBeSent.Statement (.registerWrite w addr wide value) := ⟨.registerWrite w addr wide value, rfl, rfl⟩
theorem CanBeSent.seqBaseInstruction (v : VatId) : CanBeSent.Statement (.seqBaseInstruction v) := ⟨.seqBaseInstruction v, rfl, rfl⟩
theorem CanBeSent.seqLoad (v : VatId) (rd rs1 : RegNo) (imm : BitVec 12) (size : BitVec 2) (zeroExt : Bool)
    : CanBeSent.Statement (.seqLoad v rd rs1 imm size zeroExt) := ⟨.seqLoad v rd rs1 imm 0 false, rfl, rfl⟩
theorem CanBeSent.seqStore (v : VatId) (rs1 rs2 : RegNo) (imm : BitVec 12) (size : BitVec 2)
    : CanBeSent.Statement (.seqStore v rs1 rs2 imm size) := ⟨.seqStore v rs1 rs2 imm size, rfl, rfl⟩
theorem CanBeSent.seqAmo (v : VatId) (op : AmoOp) (dbl : Bool) (rd rs1 rs2 : RegNo)
    : CanBeSent.Statement (.seqAmo v op dbl rd rs1 rs2) := ⟨.seqAmo v op dbl rd rs1 rs2, rfl, rfl⟩
theorem CanBeSent.fence (v : VatId) : CanBeSent.Statement (.fence v) := ⟨.fence v, rfl, rfl⟩
theorem CanBeSent.csrAccess (v : VatId) (op : CsrOp) (immForm : Bool) (csr : BitVec 12) (rd rs1 : RegNo)
    : CanBeSent.Statement (.csrAccess v op immForm csr rd rs1) := ⟨.csrAccess v op immForm csr rd rs1, rfl, rfl⟩
theorem CanBeSent.tgrp (v : VatId) (rd rs1 rs2 : RegNo) : CanBeSent.Statement (.tgrp v rd rs1 rs2) := ⟨.tgrp v rd rs1 rs2, rfl, rfl⟩
theorem CanBeSent.trun (v : VatId) (rs1 rs2 : RegNo) : CanBeSent.Statement (.trun v rs1 rs2) := ⟨.trun v rs1 rs2, rfl, rfl⟩
theorem CanBeSent.trunRetire (v : VatId) : CanBeSent.Statement (.trunRetire v) := ⟨.trunRetire v, rfl, rfl⟩
theorem CanBeSent.tileStart (v : VatId) (t : TileId) : CanBeSent.Statement (.tileStart v t) := ⟨.tileStart v t, rfl, rfl⟩
theorem CanBeSent.bundleIssue (v : VatId) (t : TileId) (ecc : Ecc) : CanBeSent.Statement (.bundleIssue v t ecc) := ⟨.bundleIssue v t ecc, rfl, rfl⟩
theorem CanBeSent.vectorResultLand (v : VatId) (t : TileId) : CanBeSent.Statement (.vectorResultLand v t) := ⟨.vectorResultLand v t, rfl, rfl⟩
theorem CanBeSent.macResultLand (v : VatId) (t : TileId) : CanBeSent.Statement (.macResultLand v t) := ⟨.macResultLand v t, rfl, rfl⟩
theorem CanBeSent.tileIdle (v : VatId) (t : TileId) : CanBeSent.Statement (.tileIdle v t) := ⟨.tileIdle v t, rfl, rfl⟩
theorem CanBeSent.twait (v : VatId) (rd rs1 : RegNo) : CanBeSent.Statement (.twait v rd rs1) := ⟨.twait v rd rs1, rfl, rfl⟩
theorem CanBeSent.twaitComplete (v : VatId) : CanBeSent.Statement (.twaitComplete v) := ⟨.twaitComplete v, rfl, rfl⟩
theorem CanBeSent.tstat (v : VatId) (rd rs1 : RegNo) : CanBeSent.Statement (.tstat v rd rs1) := ⟨.tstat v rd rs1, rfl, rfl⟩
theorem CanBeSent.ldlgo (v : VatId) (rs1 rs2 : RegNo) : CanBeSent.Statement (.ldlgo v rs1 rs2) := ⟨.ldlgo v rs1 rs2, rfl, rfl⟩
theorem CanBeSent.ladleIssue (v : VatId) (k : Fin 8) : CanBeSent.Statement (.ladleIssue v k) := ⟨.ladleIssue v k, rfl, rfl⟩
theorem CanBeSent.ldltake (v : VatId) (rd rs1 : RegNo) : CanBeSent.Statement (.ldltake v rd rs1) := ⟨.ldltake v rd rs1, rfl, rfl⟩
theorem CanBeSent.ldltakeComplete (v : VatId) : CanBeSent.Statement (.ldltakeComplete v) := ⟨.ldltakeComplete v, rfl, rfl⟩
theorem CanBeSent.ldlres (v : VatId) (rs1 rs2 : RegNo) : CanBeSent.Statement (.ldlres v rs1 rs2) := ⟨.ldlres v rs1 rs2, rfl, rfl⟩
theorem CanBeSent.ldlstop (v : VatId) (rs1 : RegNo) : CanBeSent.Statement (.ldlstop v rs1) := ⟨.ldlstop v rs1, rfl, rfl⟩
theorem CanBeSent.ffence (v : VatId) (rd rs1 : RegNo) : CanBeSent.Statement (.ffence v rd rs1) := ⟨.ffence v rd rs1, rfl, rfl⟩
theorem CanBeSent.ffenceComplete (v : VatId) : CanBeSent.Statement (.ffenceComplete v) := ⟨.ffenceComplete v, rfl, rfl⟩
theorem CanBeSent.boundary (v : VatId) (id : BitVec 12) : CanBeSent.Statement (.boundary v id) := ⟨.boundary v id, rfl, rfl⟩
theorem CanBeSent.boundaryRetire (v : VatId) : CanBeSent.Statement (.boundaryRetire v) := ⟨.boundaryRetire v, rfl, rfl⟩
theorem CanBeSent.swapComplete (v : VatId) : CanBeSent.Statement (.swapComplete v) := ⟨.swapComplete v, rfl, rfl⟩
theorem CanBeSent.amoaddF32 (v : VatId) (rd rs1 rs2 : RegNo) : CanBeSent.Statement (.amoaddF32 v rd rs1 rs2) := ⟨.amoaddF32 v rd rs1 rs2, rfl, rfl⟩
theorem CanBeSent.amoaddBf2 (v : VatId) (rd rs1 rs2 : RegNo) : CanBeSent.Statement (.amoaddBf2 v rd rs1 rs2) := ⟨.amoaddBf2 v rd rs1 rs2, rfl, rfl⟩
theorem CanBeSent.amominF32 (v : VatId) (rd rs1 rs2 : RegNo) : CanBeSent.Statement (.amominF32 v rd rs1 rs2) := ⟨.amominF32 v rd rs1 rs2, rfl, rfl⟩
theorem CanBeSent.amomaxF32 (v : VatId) (rd rs1 rs2 : RegNo) : CanBeSent.Statement (.amomaxF32 v rd rs1 rs2) := ⟨.amomaxF32 v rd rs1 rs2, rfl, rfl⟩
theorem CanBeSent.amocasD (v : VatId) (rd rs1 rs2 : RegNo) : CanBeSent.Statement (.amocasD v rd rs1 rs2) := ⟨.amocasD v rd rs1 rs2, rfl, rfl⟩
theorem CanBeSent.ecall (v : VatId) : CanBeSent.Statement (.ecall v) := ⟨.ecall v, rfl, rfl⟩
theorem CanBeSent.ebreak (v : VatId) : CanBeSent.Statement (.ebreak v) := ⟨.ebreak v, rfl, rfl⟩
theorem CanBeSent.swapArm (v : VatId) : CanBeSent.Statement (.swapArm v) := ⟨.swapArm v, rfl, rfl⟩
theorem CanBeSent.vatGate (v : VatId) : CanBeSent.Statement (.vatGate v) := ⟨.vatGate v, rfl, rfl⟩
theorem CanBeSent.gatedBankStop (v : VatId) : CanBeSent.Statement (.gatedBankStop v) := ⟨.gatedBankStop v, rfl, rfl⟩
theorem CanBeSent.columnFault (v : VatId) (col : Fin 33) : CanBeSent.Statement (.columnFault v col) := ⟨.columnFault v col, rfl, rfl⟩
theorem CanBeSent.cultureLoad (src : KcpSrc) (req : W32) (image : W64) (shift : Byte) (targets : List (Byte × Byte))
    : CanBeSent.Statement (.cultureLoad src req image shift targets) := ⟨.cultureLoad src req image shift targets, rfl, rfl⟩
theorem CanBeSent.loadCheckComplete (load : Nat) : CanBeSent.Statement (.loadCheckComplete load) := ⟨.loadCheckComplete load, rfl, rfl⟩
theorem CanBeSent.loadStreamComplete (load : Nat) : CanBeSent.Statement (.loadStreamComplete load) := ⟨.loadStreamComplete load, rfl, rfl⟩
theorem CanBeSent.tilestoreCellService (v : VatId) (t : TileId) (ecc : Ecc)
    : CanBeSent.Statement (.tilestoreCellService v t ecc) := ⟨.tilestoreCellService v t ecc, rfl, rfl⟩
theorem CanBeSent.creamBankAccess (c : HalfId) (bank : Byte) (ecc : Ecc)
    : CanBeSent.Statement (.creamBankAccess c bank ecc) := ⟨.creamBankAccess c bank ecc, rfl, rfl⟩
theorem CanBeSent.sramScrubRead (u : Sram) (ecc : Ecc) : CanBeSent.Statement (.sramScrubRead u ecc) := ⟨.sramScrubRead u ecc, rfl, rfl⟩
theorem CanBeSent.tilestoreRetentionEnter (v : VatId) : CanBeSent.Statement (.tilestoreRetentionEnter v) := ⟨.tilestoreRetentionEnter v, rfl, rfl⟩
theorem CanBeSent.creamRetentionEnter (c : HalfId) : CanBeSent.Statement (.creamRetentionEnter c) := ⟨.creamRetentionEnter c, rfl, rfl⟩
theorem CanBeSent.sramWakeComplete (u : Sram) : CanBeSent.Statement (.sramWakeComplete u) := ⟨.sramWakeComplete u, rfl, rfl⟩
theorem CanBeSent.creamWakeTimeout (c : HalfId) : CanBeSent.Statement (.creamWakeTimeout c) := ⟨.creamWakeTimeout c, rfl, rfl⟩
theorem CanBeSent.creamThrottleSample (c : HalfId) : CanBeSent.Statement (.creamThrottleSample c) := ⟨.creamThrottleSample c, rfl, rfl⟩
theorem CanBeSent.crmCtrlWrite (c : HalfId) (value : W32) : CanBeSent.Statement (.crmCtrlWrite c value) := ⟨.crmCtrlWrite c value, rfl, rfl⟩
theorem CanBeSent.ld (cell : Cell) : CanBeSent.Statement (.ld cell) := ⟨.ld (bareCell 1), rfl, by decide⟩
theorem CanBeSent.st (cell : Cell) : CanBeSent.Statement (.st cell) := ⟨.st (bareCell 2), rfl, by decide⟩
theorem CanBeSent.std (cell : Cell) : CanBeSent.Statement (.std cell) := ⟨.std (bareCell 3), rfl, by decide⟩
theorem CanBeSent.atom (cell : Cell) : CanBeSent.Statement (.atom cell) := ⟨.atom (bareCell 4), rfl, by decide⟩
theorem CanBeSent.msg (cell : Cell) : CanBeSent.Statement (.msg cell) := ⟨.msg (bareCell 5), rfl, by decide⟩
theorem CanBeSent.msgd (cell : Cell) : CanBeSent.Statement (.msgd cell) := ⟨.msgd (bareCell 6), rfl, by decide⟩
theorem CanBeSent.data (cell : Cell) : CanBeSent.Statement (.data cell) := ⟨.data (bareCell 8), rfl, by decide⟩
theorem CanBeSent.ack (cell : Cell) : CanBeSent.Statement (.ack cell) := ⟨.ack (bareCell 9), rfl, by decide⟩
theorem CanBeSent.sour (cell : Cell) : CanBeSent.Statement (.sour cell) := ⟨.sour (bareCell 10), rfl, by decide⟩
theorem CanBeSent.nackBusy (cell : Cell) : CanBeSent.Statement (.nackBusy cell) := ⟨.nackBusy (bareCell 11), rfl, by decide⟩
theorem CanBeSent.nackRefused (cell : Cell) : CanBeSent.Statement (.nackRefused cell) := ⟨.nackRefused (bareCell 12), rfl, by decide⟩
theorem CanBeSent.badCell (cell : Cell) : CanBeSent.Statement (.badCell cell) := ⟨.badCell cell, rfl, rfl⟩
theorem CanBeSent.busyRetry (port : PortId) (tag : W16) : CanBeSent.Statement (.busyRetry port tag) := ⟨.busyRetry port tag, rfl, rfl⟩
theorem CanBeSent.xoff (hop : Nat) (cls : BitVec 2) (response : Bool)
    : CanBeSent.Statement (.xoff hop cls response) := ⟨.xoff hop cls response, rfl, rfl⟩
theorem CanBeSent.xon (hop : Nat) (cls : BitVec 2) (response : Bool)
    : CanBeSent.Statement (.xon hop cls response) := ⟨.xon hop cls response, rfl, rfl⟩
theorem CanBeSent.keepalive (port : PortId) (fromPkg : PkgId) (target : PortId)
    : CanBeSent.Statement (.keepalive port fromPkg target) := ⟨.keepalive port fromPkg target, rfl, rfl⟩
theorem CanBeSent.opTimeout (port : PortId) (tag : W16) : CanBeSent.Statement (.opTimeout port tag) := ⟨.opTimeout port tag, rfl, rfl⟩
theorem CanBeSent.darkNotice (source dark : PortId) : CanBeSent.Statement (.darkNotice source dark) := ⟨.darkNotice source dark, rfl, rfl⟩
theorem CanBeSent.frameBoundary (steps : List (Nat × Int)) (skews : List (Fin 9 × Int))
    : CanBeSent.Statement (.frameBoundary steps skews) := ⟨.frameBoundary steps skews, rfl, rfl⟩
theorem CanBeSent.guardStart : CanBeSent.Statement .guardStart := ⟨.guardStart, rfl, rfl⟩
theorem CanBeSent.cellCrcFail (w : Wavelength) : CanBeSent.Statement (.cellCrcFail w) := ⟨.cellCrcFail w, rfl, rfl⟩
theorem CanBeSent.resendRequest (w : Wavelength) : CanBeSent.Statement (.resendRequest w) := ⟨.resendRequest w, rfl, rfl⟩
theorem CanBeSent.flexRequest (c : CtxId) : CanBeSent.Statement (.flexRequest c) := ⟨.flexRequest c, rfl, rfl⟩
theorem CanBeSent.retuneSettleTimeout (p : HalfId) (j : Fin 16) (ring : RingId)
    : CanBeSent.Statement (.retuneSettleTimeout p j ring) := ⟨.retuneSettleTimeout p j ring, rfl, rfl⟩
theorem CanBeSent.chnFlexRelease (mask : W32) : CanBeSent.Statement (.chnFlexRelease mask) := ⟨.chnFlexRelease mask, rfl, rfl⟩
theorem CanBeSent.signalBundleFail (c : HalfId) (g : Fin 10) : CanBeSent.Statement (.signalBundleFail c g) := ⟨.signalBundleFail c g, rfl, rfl⟩
theorem CanBeSent.controlBundleFail (c : HalfId) : CanBeSent.Statement (.controlBundleFail c) := ⟨.controlBundleFail c, rfl, rfl⟩
theorem CanBeSent.seamGroupFail (d : DieId) : CanBeSent.Statement (.seamGroupFail d) := ⟨.seamGroupFail d, rfl, rfl⟩
theorem CanBeSent.pilotWindowEnd (e : RingId) (amps : List Nat) : CanBeSent.Statement (.pilotWindowEnd e amps) := ⟨.pilotWindowEnd e amps, rfl, rfl⟩
theorem CanBeSent.misframe (e : RingId) (cells : Nat) : CanBeSent.Statement (.misframe e cells) := ⟨.misframe e cells, rfl, rfl⟩
theorem CanBeSent.ringHold (e : RingId) : CanBeSent.Statement (.ringHold e) := ⟨.ringHold e, rfl, rfl⟩
theorem CanBeSent.ringFault (e : RingId) (cause : RingCause) : CanBeSent.Statement (.ringFault e cause) := ⟨.ringFault e cause, rfl, rfl⟩
theorem CanBeSent.acquisitionComplete (e : RingId) (dips : List Dip)
    : CanBeSent.Statement (.acquisitionComplete e dips) := ⟨.acquisitionComplete e [], rfl, rfl⟩
theorem CanBeSent.tableHashCompute : CanBeSent.Statement .tableHashCompute := ⟨.tableHashCompute, rfl, rfl⟩
theorem CanBeSent.tempEstimate (f : FieldId) : CanBeSent.Statement (.tempEstimate f) := ⟨.tempEstimate f, rfl, rfl⟩
theorem CanBeSent.sepDoorbell (c : CtxId) : CanBeSent.Statement (.sepDoorbell c) := ⟨.sepDoorbell c, rfl, rfl⟩
theorem CanBeSent.sepJobStart (s : HalfId) : CanBeSent.Statement (.sepJobStart s) := ⟨.sepJobStart s, rfl, rfl⟩
theorem CanBeSent.sepWeightMsg (s : HalfId) (fromPort : PortId) (codes : List Byte)
    : CanBeSent.Statement (.sepWeightMsg s fromPort codes) := ⟨.sepWeightMsg s fromPort codes, rfl, rfl⟩
theorem CanBeSent.sepReloadComplete (s : HalfId) : CanBeSent.Statement (.sepReloadComplete s) := ⟨.sepReloadComplete s, rfl, rfl⟩
theorem CanBeSent.sepJobEnd (s : HalfId) : CanBeSent.Statement (.sepJobEnd s) := ⟨.sepJobEnd s, rfl, rfl⟩
theorem CanBeSent.sepCalPass (s : HalfId) (residuals : List (Nat × Int))
    : CanBeSent.Statement (.sepCalPass s residuals) := ⟨.sepCalPass s residuals, rfl, rfl⟩
theorem CanBeSent.refreshWindow (s : StackId) : CanBeSent.Statement (.refreshWindow s) := ⟨.refreshWindow s, rfl, rfl⟩
theorem CanBeSent.hbmRequestService (p : PseudoId) (index : Nat) (holdNs : Nat) (ecc : Ecc)
    : CanBeSent.Statement (.hbmRequestService p index holdNs ecc) := ⟨.hbmRequestService p index holdNs ecc, rfl, rfl⟩
theorem CanBeSent.hbmScrubRead (p : PseudoId) (ecc : Ecc) : CanBeSent.Statement (.hbmScrubRead p ecc) := ⟨.hbmScrubRead p ecc, rfl, rfl⟩
theorem CanBeSent.hbmTempSample (s : StackId) : CanBeSent.Statement (.hbmTempSample s) := ⟨.hbmTempSample s, rfl, rfl⟩
theorem CanBeSent.selfRefreshEnter (s : StackId) : CanBeSent.Statement (.selfRefreshEnter s) := ⟨.selfRefreshEnter s, rfl, rfl⟩
theorem CanBeSent.linkTrainingStart (l : LinkId) : CanBeSent.Statement (.linkTrainingStart l) := ⟨.linkTrainingStart l, rfl, rfl⟩
theorem CanBeSent.linkTrainingEnd (l : LinkId) (obs : TrainObs) : CanBeSent.Statement (.linkTrainingEnd l obs) := ⟨.linkTrainingEnd l obs, rfl, rfl⟩
theorem CanBeSent.linkTrainingTimeout (l : LinkId) : CanBeSent.Statement (.linkTrainingTimeout l) := ⟨.linkTrainingTimeout l, rfl, rfl⟩
theorem CanBeSent.linkGroupReceive (l : LinkId) (seq : BitVec 12) (crcOk : Bool) (cells : List Cell)
    : CanBeSent.Statement (.linkGroupReceive l seq crcOk cells) := ⟨.linkGroupReceive l seq crcOk [], rfl, rfl⟩
theorem CanBeSent.linkAck (l : LinkId) (seq : BitVec 12) : CanBeSent.Statement (.linkAck l seq) := ⟨.linkAck l seq, rfl, rfl⟩
theorem CanBeSent.linkNak (l : LinkId) (seq : BitVec 12) : CanBeSent.Statement (.linkNak l seq) := ⟨.linkNak l seq, rfl, rfl⟩
theorem CanBeSent.linkIdleWindow (l : LinkId) : CanBeSent.Statement (.linkIdleWindow l) := ⟨.linkIdleWindow l, rfl, rfl⟩
theorem CanBeSent.laneLossOfSignal (l : LinkId) (lane : Fin 8)
    : CanBeSent.Statement (.laneLossOfSignal l lane) := ⟨.laneLossOfSignal l lane, rfl, rfl⟩
theorem CanBeSent.fastRetrainEnd (l : LinkId) (obs : Option TrainObs)
    : CanBeSent.Statement (.fastRetrainEnd l obs) := ⟨.fastRetrainEnd l obs, rfl, rfl⟩
theorem CanBeSent.linkDown (l : LinkId) : CanBeSent.Statement (.linkDown l) := ⟨.linkDown l, rfl, rfl⟩
theorem CanBeSent.linkRetryTimer (l : LinkId) : CanBeSent.Statement (.linkRetryTimer l) := ⟨.linkRetryTimer l, rfl, rfl⟩
theorem CanBeSent.lnkRetrain (mask : W64) : CanBeSent.Statement (.lnkRetrain mask) := ⟨.lnkRetrain mask, rfl, rfl⟩
theorem CanBeSent.linkStateNotice (pkg : PkgId) (widths : List Byte)
    : CanBeSent.Statement (.linkStateNotice pkg widths) := ⟨.linkStateNotice pkg (List.replicate 32 0), rfl, by simp [Instr.wf]⟩
theorem CanBeSent.linkStateNoticeSend (hub : Fin 4) : CanBeSent.Statement (.linkStateNoticeSend hub) := ⟨.linkStateNoticeSend hub, rfl, rfl⟩
theorem CanBeSent.noticeExpire (pkg : PkgId) : CanBeSent.Statement (.noticeExpire pkg) := ⟨.noticeExpire pkg, rfl, rfl⟩
theorem CanBeSent.transitCell (l : LinkId) (cell : Cell) : CanBeSent.Statement (.transitCell l cell) := ⟨.transitCell l cell, rfl, rfl⟩
theorem CanBeSent.reassemblyTimeout (hub : Fin 4) (pkg : PkgId) (c : CtxId) (tag : W16)
    : CanBeSent.Statement (.reassemblyTimeout hub pkg c tag) := ⟨.reassemblyTimeout hub pkg c tag, rfl, rfl⟩
theorem CanBeSent.cagePresence (m : CageId) : CanBeSent.Statement (.cagePresence m) := ⟨.cagePresence m, rfl, rfl⟩
theorem CanBeSent.acceptanceComplete (m : CageId) (obs : AcceptObs)
    : CanBeSent.Statement (.acceptanceComplete m obs) := ⟨.acceptanceComplete m { obs with failedStep := some 0 }, rfl, rfl⟩
theorem CanBeSent.cageExtract (m : CageId) : CanBeSent.Statement (.cageExtract m) := ⟨.cageExtract m, rfl, rfl⟩
theorem CanBeSent.linePowerSample (m : CageId) (powers : List Int)
    : CanBeSent.Statement (.linePowerSample m powers) := ⟨.linePowerSample m (List.replicate 32 0), rfl, by simp [Instr.wf]⟩
theorem CanBeSent.laserTelemetry (m : CageId) (answered : Bool) (temp : Int) (faultFlag : Bool)
    : CanBeSent.Statement (.laserTelemetry m answered temp faultFlag) := ⟨.laserTelemetry m answered temp faultFlag, rfl, rfl⟩
theorem CanBeSent.scheduledSwapDue (sector : HalfId) : CanBeSent.Statement (.scheduledSwapDue sector) := ⟨.scheduledSwapDue sector, rfl, rfl⟩
theorem CanBeSent.swapBegin (sector : HalfId) : CanBeSent.Statement (.swapBegin sector) := ⟨.swapBegin sector, rfl, rfl⟩
theorem CanBeSent.swapTargetVerified (sector : HalfId) : CanBeSent.Statement (.swapTargetVerified sector) := ⟨.swapTargetVerified sector, rfl, rfl⟩
theorem CanBeSent.swapVerifyTimeout (sector : HalfId) : CanBeSent.Statement (.swapVerifyTimeout sector) := ⟨.swapVerifyTimeout sector, rfl, rfl⟩
theorem CanBeSent.crossfadeEnd (sector : HalfId) : CanBeSent.Statement (.crossfadeEnd sector) := ⟨.crossfadeEnd sector, rfl, rfl⟩
theorem CanBeSent.swapConfirm (sector : HalfId) : CanBeSent.Statement (.swapConfirm sector) := ⟨.swapConfirm sector, rfl, rfl⟩
theorem CanBeSent.latchRelease (m : CageId) : CanBeSent.Statement (.latchRelease m) := ⟨.latchRelease m, rfl, rfl⟩
theorem CanBeSent.latchClose (m : CageId) : CanBeSent.Statement (.latchClose m) := ⟨.latchClose m, rfl, rfl⟩
theorem CanBeSent.lasSectorDark (sector : HalfId) : CanBeSent.Statement (.lasSectorDark sector) := ⟨.lasSectorDark sector, rfl, rfl⟩
theorem CanBeSent.refLost (byFrequency : Bool) : CanBeSent.Statement (.refLost byFrequency) := ⟨.refLost byFrequency, rfl, rfl⟩
theorem CanBeSent.refRestored : CanBeSent.Statement .refRestored := ⟨.refRestored, rfl, rfl⟩
theorem CanBeSent.revertLocked : CanBeSent.Statement .revertLocked := ⟨.revertLocked, rfl, rfl⟩
theorem CanBeSent.dieClockLoss (d : Fin 9) : CanBeSent.Statement (.dieClockLoss d) := ⟨.dieClockLoss d, rfl, rfl⟩
theorem CanBeSent.fieldPllFail (f : FieldId) : CanBeSent.Statement (.fieldPllFail f) := ⟨.fieldPllFail f, rfl, rfl⟩
theorem CanBeSent.vatFreqStep (v : VatId) : CanBeSent.Statement (.vatFreqStep v) := ⟨.vatFreqStep v, rfl, rfl⟩
theorem CanBeSent.droopDetect (v : VatId) (eighths : Fin 5) : CanBeSent.Statement (.droopDetect v eighths) := ⟨.droopDetect v eighths, rfl, rfl⟩
theorem CanBeSent.fallbackRelease (v : VatId) : CanBeSent.Statement (.fallbackRelease v) := ⟨.fallbackRelease v, rfl, rfl⟩
theorem CanBeSent.railFault (r : Rail) (millivolts : Nat) : CanBeSent.Statement (.railFault r millivolts) := ⟨.railFault r millivolts, rfl, rfl⟩
theorem CanBeSent.irDropCheck (losses : List (VatId × Nat)) : CanBeSent.Statement (.irDropCheck losses) := ⟨.irDropCheck losses, rfl, rfl⟩
theorem CanBeSent.energySample (centivolts : W16) (ampsA ampsB : BitVec 9)
    : CanBeSent.Statement (.energySample centivolts ampsA ampsB) := ⟨.energySample centivolts ampsA ampsB, rfl, rfl⟩
theorem CanBeSent.powerCompare : CanBeSent.Statement .powerCompare := ⟨.powerCompare, rfl, rfl⟩
theorem CanBeSent.graceExpire : CanBeSent.Statement .graceExpire := ⟨.graceExpire, rfl, rfl⟩
theorem CanBeSent.lugOvercurrent (pairB : Bool) : CanBeSent.Statement (.lugOvercurrent pairB) := ⟨.lugOvercurrent pairB, rfl, rfl⟩
theorem CanBeSent.releaseStep : CanBeSent.Statement .releaseStep := ⟨.releaseStep, rfl, rfl⟩
theorem CanBeSent.powerLimit (src : KcpSrc) (req : W32) (watts : W32)
    : CanBeSent.Statement (.powerLimit src req watts) := ⟨.powerLimit src req watts, rfl, rfl⟩
theorem CanBeSent.thermalSample (readings : List Reading) : CanBeSent.Statement (.thermalSample readings) := ⟨.thermalSample [], rfl, rfl⟩
theorem CanBeSent.thermTripRecord : CanBeSent.Statement .thermTripRecord := ⟨.thermTripRecord, rfl, rfl⟩
theorem CanBeSent.sensorSelfCheck (failing : List (Region × Fin 8))
    : CanBeSent.Statement (.sensorSelfCheck failing) := ⟨.sensorSelfCheck [], rfl, rfl⟩
theorem CanBeSent.thermalLevelDecay : CanBeSent.Statement .thermalLevelDecay := ⟨.thermalLevelDecay, rfl, rfl⟩
theorem CanBeSent.ethLinkTrain (signal : Byte) : CanBeSent.Statement (.ethLinkTrain signal) := ⟨.ethLinkTrain signal, rfl, rfl⟩
theorem CanBeSent.ethRetry (signal : Byte) : CanBeSent.Statement (.ethRetry signal) := ⟨.ethRetry signal, rfl, rfl⟩
theorem CanBeSent.ethLaneChange (lane : Fin 8) (usable : Bool)
    : CanBeSent.Statement (.ethLaneChange lane usable) := ⟨.ethLaneChange lane usable, rfl, rfl⟩
theorem CanBeSent.networkFrame (kind : NetFrame) : CanBeSent.Statement (.networkFrame kind) := ⟨.networkFrame kind, rfl, rfl⟩
theorem CanBeSent.rdmaWrite (q : QpId) (psn : BitVec 24) (rkey : W32) (va : W64) (bytes : List Byte) (ce : Bool)
    : CanBeSent.Statement (.rdmaWrite q psn rkey va bytes ce) := ⟨.rdmaWrite q psn rkey va bytes ce, rfl, rfl⟩
theorem CanBeSent.rdmaRead (q : QpId) (psn : BitVec 24) (rkey : W32) (va : W64) (length : Nat) (ce : Bool)
    : CanBeSent.Statement (.rdmaRead q psn rkey va length ce) := ⟨.rdmaRead q psn rkey va length ce, rfl, rfl⟩
theorem CanBeSent.send (q : QpId) (psn : BitVec 24) (bytes : List Byte) (ce : Bool)
    : CanBeSent.Statement (.send q psn bytes ce) := ⟨.send q psn bytes ce, rfl, rfl⟩
theorem CanBeSent.roceUnsupportedOp (q : QpId) (psn : BitVec 24)
    : CanBeSent.Statement (.roceUnsupportedOp q psn) := ⟨.roceUnsupportedOp q psn, rfl, rfl⟩
theorem CanBeSent.cnpReceived (q : QpId) : CanBeSent.Statement (.cnpReceived q) := ⟨.cnpReceived q, rfl, rfl⟩
theorem CanBeSent.cnpRateRecover (q : QpId) : CanBeSent.Statement (.cnpRateRecover q) := ⟨.cnpRateRecover q, rfl, rfl⟩
theorem CanBeSent.helloH (body : List Byte) : CanBeSent.Statement (.helloH body) := ⟨.helloH body, rfl, rfl⟩
theorem CanBeSent.finishH (session : W32) (sig : List Byte)
    : CanBeSent.Statement (.finishH session sig) := ⟨.finishH session (List.replicate 132 0), rfl, by simp [Instr.wf]⟩
theorem CanBeSent.dataRecord (record : List Byte) : CanBeSent.Statement (.dataRecord record) := ⟨.dataRecord record, rfl, rfl⟩
theorem CanBeSent.close (session : W32) (reason : Byte) : CanBeSent.Statement (.close session reason) := ⟨.close session reason, rfl, rfl⟩
theorem CanBeSent.sessionIdleTimeout (slot : Fin 8) : CanBeSent.Statement (.sessionIdleTimeout slot) := ⟨.sessionIdleTimeout slot, rfl, rfl⟩
theorem CanBeSent.identity (src : KcpSrc) (req : W32) : CanBeSent.Statement (.identity src req) := ⟨.identity src req, rfl, rfl⟩
theorem CanBeSent.attest (src : KcpSrc) (req : W32) (nonce : BitVec 512)
    : CanBeSent.Statement (.attest src req nonce) := ⟨.attest src req nonce, rfl, rfl⟩
theorem CanBeSent.ctxCreate (src : KcpSrc) (req : W32) (c : Byte) (group : W16) (seed : W64)
    : CanBeSent.Statement (.ctxCreate src req c group seed) := ⟨.ctxCreate src req c group seed, rfl, rfl⟩
theorem CanBeSent.ctxLaunch (src : KcpSrc) (req : W32) (c : Byte) : CanBeSent.Statement (.ctxLaunch src req c) := ⟨.ctxLaunch src req c, rfl, rfl⟩
theorem CanBeSent.ctxPause (src : KcpSrc) (req : W32) (c : Byte) : CanBeSent.Statement (.ctxPause src req c) := ⟨.ctxPause src req c, rfl, rfl⟩
theorem CanBeSent.ctxDestroy (src : KcpSrc) (req : W32) (c : Byte) : CanBeSent.Statement (.ctxDestroy src req c) := ⟨.ctxDestroy src req c, rfl, rfl⟩
theorem CanBeSent.segMap (src : KcpSrc) (req : W32) (c : Byte) (seg : W16) (entry : BitVec 128)
    : CanBeSent.Statement (.segMap src req c seg entry) := ⟨.segMap src req c seg entry, rfl, rfl⟩
theorem CanBeSent.qpCreate (src : KcpSrc) (req : W32) (q : W16) (c : Byte) (rkey : W32) (credit slotSize : W16) (slots : W32) (ringBase : W64) (peer : QpPeer)
    : CanBeSent.Statement (.qpCreate src req q c rkey credit slotSize slots ringBase peer) := ⟨.qpCreate src req q c rkey credit slotSize slots ringBase peer, rfl, rfl⟩
theorem CanBeSent.qpDestroy (src : KcpSrc) (req : W32) (q : W16) : CanBeSent.Statement (.qpDestroy src req q) := ⟨.qpDestroy src req q, rfl, rfl⟩
theorem CanBeSent.regRead (src : KcpSrc) (req : W32) (reads : List (W64 × Byte))
    : CanBeSent.Statement (.regRead src req reads) := ⟨.regRead src req reads, rfl, rfl⟩
theorem CanBeSent.regWrite (src : KcpSrc) (req : W32) (addr : W64) (width : Byte) (value : W64)
    : CanBeSent.Statement (.regWrite src req addr width value) := ⟨.regWrite src req addr width value, rfl, rfl⟩
theorem CanBeSent.errRead (src : KcpSrc) (req : W32) (first : W64) (maxCount : W16)
    : CanBeSent.Statement (.errRead src req first maxCount) := ⟨.errRead src req first maxCount, rfl, rfl⟩
theorem CanBeSent.dumpRead (src : KcpSrc) (req : W32) (offset length : W32)
    : CanBeSent.Statement (.dumpRead src req offset length) := ⟨.dumpRead src req offset length, rfl, rfl⟩
theorem CanBeSent.routeWrite (src : KcpSrc) (req : W32) (d j : Byte) (value : W32)
    : CanBeSent.Statement (.routeWrite src req d j value) := ⟨.routeWrite src req d j value, rfl, rfl⟩
theorem CanBeSent.notifySubscribe (src : KcpSrc) (req : W32) (mask : Byte)
    : CanBeSent.Statement (.notifySubscribe src req mask) := ⟨.notifySubscribe src req mask, rfl, rfl⟩
theorem CanBeSent.notifyAck (src : KcpSrc) (req : W32) (seq : W32)
    : CanBeSent.Statement (.notifyAck src req seq) := ⟨.notifyAck src req seq, rfl, rfl⟩
theorem CanBeSent.notifyResend : CanBeSent.Statement .notifyResend := ⟨.notifyResend, rfl, rfl⟩
theorem CanBeSent.kcpForwardArrive (pkg : PkgId) (slot : Fin 8) (message : List Byte)
    : CanBeSent.Statement (.kcpForwardArrive pkg slot message) := ⟨.kcpForwardArrive pkg slot message, rfl, rfl⟩
theorem CanBeSent.forwardReply (pkg : PkgId) (slot : Fin 8) (message : List Byte)
    : CanBeSent.Statement (.forwardReply pkg slot message) := ⟨.forwardReply pkg slot message, rfl, rfl⟩
theorem CanBeSent.forwardTimeout (slot : Fin 8) (req : W32) : CanBeSent.Statement (.forwardTimeout slot req) := ⟨.forwardTimeout slot req, rfl, rfl⟩
theorem CanBeSent.drainComplete (c : CtxId) : CanBeSent.Statement (.drainComplete c) := ⟨.drainComplete c, rfl, rfl⟩
theorem CanBeSent.ctxEnded (c : CtxId) : CanBeSent.Statement (.ctxEnded c) := ⟨.ctxEnded c, rfl, rfl⟩
theorem CanBeSent.faultStopQuiet (c : CtxId) : CanBeSent.Statement (.faultStopQuiet c) := ⟨.faultStopQuiet c, rfl, rfl⟩
theorem CanBeSent.contextReset (c : CtxId) : CanBeSent.Statement (.contextReset c) := ⟨.contextReset c, rfl, rfl⟩
theorem CanBeSent.contextResetComplete (c : CtxId) : CanBeSent.Statement (.contextResetComplete c) := ⟨.contextResetComplete c, rfl, rfl⟩
theorem CanBeSent.abort (cell : Cell) : CanBeSent.Statement (.abort cell) := ⟨.abort (bareCell 16), rfl, by decide⟩
theorem CanBeSent.abortFilterExpire (pkg : PkgId) (c : CtxId) : CanBeSent.Statement (.abortFilterExpire pkg c) := ⟨.abortFilterExpire pkg c, rfl, rfl⟩
theorem CanBeSent.abortHoldRelease (c : CtxId) : CanBeSent.Statement (.abortHoldRelease c) := ⟨.abortHoldRelease c, rfl, rfl⟩
theorem CanBeSent.vatHang (v : VatId) : CanBeSent.Statement (.vatHang v) := ⟨.vatHang v, rfl, rfl⟩
theorem CanBeSent.replayStart (v : VatId) : CanBeSent.Statement (.replayStart v) := ⟨.replayStart v, rfl, rfl⟩
theorem CanBeSent.vatReset (v : VatId) : CanBeSent.Statement (.vatReset v) := ⟨.vatReset v, rfl, rfl⟩
theorem CanBeSent.dieReset (d : DieId) : CanBeSent.Statement (.dieReset d) := ⟨.dieReset d, rfl, rfl⟩
theorem CanBeSent.computeReset : CanBeSent.Statement .computeReset := ⟨.computeReset, rfl, rfl⟩
theorem CanBeSent.mgmtReset : CanBeSent.Statement .mgmtReset := ⟨.mgmtReset, rfl, rfl⟩
theorem CanBeSent.resetDone (k : ResetKind) (obs : StepObs) : CanBeSent.Statement (.resetDone k obs) := ⟨.resetDone k obs, rfl, rfl⟩
theorem CanBeSent.handlingOverrun (seq : W64) : CanBeSent.Statement (.handlingOverrun seq) := ⟨.handlingOverrun seq, rfl, rfl⟩
theorem CanBeSent.dump : CanBeSent.Statement .dump := ⟨.dump, rfl, rfl⟩
theorem CanBeSent.dumpEntryRead (bytes : List Byte) : CanBeSent.Statement (.dumpEntryRead bytes) := ⟨.dumpEntryRead bytes, rfl, rfl⟩
theorem CanBeSent.dumpReadTimeout : CanBeSent.Statement .dumpReadTimeout := ⟨.dumpReadTimeout, rfl, rfl⟩
theorem CanBeSent.dumpDone : CanBeSent.Statement .dumpDone := ⟨.dumpDone, rfl, rfl⟩
theorem CanBeSent.dumpRelease : CanBeSent.Statement .dumpRelease := ⟨.dumpRelease, rfl, rfl⟩
theorem CanBeSent.bringUpStepEnd (obs : StepObs) : CanBeSent.Statement (.bringUpStepEnd obs) := ⟨.bringUpStepEnd obs, rfl, rfl⟩
theorem CanBeSent.bringUpStepBound (unfinished : List Part)
    : CanBeSent.Statement (.bringUpStepBound unfinished) := ⟨.bringUpStepBound unfinished, rfl, rfl⟩
theorem CanBeSent.katRunComplete (v : VatId) (signature : W64) (columnFails : List Nat)
    : CanBeSent.Statement (.katRunComplete v signature columnFails) := ⟨.katRunComplete v signature columnFails, rfl, rfl⟩
theorem CanBeSent.svnRaised : CanBeSent.Statement .svnRaised := ⟨.svnRaised, rfl, rfl⟩
theorem CanBeSent.enterRecovery : CanBeSent.Statement .enterRecovery := ⟨.enterRecovery, rfl, rfl⟩
theorem CanBeSent.fwBegin (src : KcpSrc) (req : W32) (kind : Byte) (total : W32)
    : CanBeSent.Statement (.fwBegin src req kind total) := ⟨.fwBegin src req kind total, rfl, rfl⟩
theorem CanBeSent.fwWrite (src : KcpSrc) (req : W32) (offset : W32) (bytes : List Byte)
    : CanBeSent.Statement (.fwWrite src req offset bytes) := ⟨.fwWrite src req offset bytes, rfl, rfl⟩
theorem CanBeSent.fwCommit (src : KcpSrc) (req : W32) (hash : BitVec 512)
    : CanBeSent.Statement (.fwCommit src req hash) := ⟨.fwCommit src req hash, rfl, rfl⟩
theorem CanBeSent.fwUpdated : CanBeSent.Statement .fwUpdated := ⟨.fwUpdated, rfl, rfl⟩
theorem CanBeSent.journalWrite : CanBeSent.Statement .journalWrite := ⟨.journalWrite, rfl, rfl⟩
theorem CanBeSent.mcWatchdogExpire : CanBeSent.Statement .mcWatchdogExpire := ⟨.mcWatchdogExpire, rfl, rfl⟩
theorem CanBeSent.mcHandover (source : HandoverSource) : CanBeSent.Statement (.mcHandover source) := ⟨.mcHandover source, rfl, rfl⟩
theorem CanBeSent.handoverTakeover : CanBeSent.Statement .handoverTakeover := ⟨.handoverTakeover, rfl, rfl⟩
theorem CanBeSent.overlapEnd : CanBeSent.Statement .overlapEnd := ⟨.overlapEnd, rfl, rfl⟩
theorem CanBeSent.mcRetake : CanBeSent.Statement .mcRetake := ⟨.mcRetake, rfl, rfl⟩
theorem CanBeSent.mcSelftestFail (mcB : Bool) (test : Nat) : CanBeSent.Statement (.mcSelftestFail mcB test) := ⟨.mcSelftestFail mcB test, rfl, rfl⟩
theorem CanBeSent.uartBreak : CanBeSent.Statement .uartBreak := ⟨.uartBreak, rfl, rfl⟩
theorem CanBeSent.monLineTooLong : CanBeSent.Statement .monLineTooLong := ⟨.monLineTooLong, rfl, rfl⟩
theorem CanBeSent.monHelp : CanBeSent.Statement .monHelp := ⟨.monHelp, rfl, rfl⟩
theorem CanBeSent.monId : CanBeSent.Statement .monId := ⟨.monId, rfl, rfl⟩
theorem CanBeSent.monTime : CanBeSent.Statement .monTime := ⟨.monTime, rfl, rfl⟩
theorem CanBeSent.monTemp : CanBeSent.Statement .monTemp := ⟨.monTemp, rfl, rfl⟩
theorem CanBeSent.monPwr : CanBeSent.Statement .monPwr := ⟨.monPwr, rfl, rfl⟩
theorem CanBeSent.monLanes : CanBeSent.Statement .monLanes := ⟨.monLanes, rfl, rfl⟩
theorem CanBeSent.monRings (entry : Option Nat) : CanBeSent.Statement (.monRings entry) := ⟨.monRings entry, rfl, rfl⟩
theorem CanBeSent.monLaser : CanBeSent.Statement .monLaser := ⟨.monLaser, rfl, rfl⟩
theorem CanBeSent.monCtx : CanBeSent.Statement .monCtx := ⟨.monCtx, rfl, rfl⟩
theorem CanBeSent.monErr (seq : Option Nat) (n : Option Nat) : CanBeSent.Statement (.monErr seq n) := ⟨.monErr seq n, rfl, rfl⟩
theorem CanBeSent.monLog (n : Nat) : CanBeSent.Statement (.monLog n) := ⟨.monLog n, rfl, rfl⟩
theorem CanBeSent.monLogFollow : CanBeSent.Statement .monLogFollow := ⟨.monLogFollow, rfl, rfl⟩
theorem CanBeSent.peek (addr : W64) (wide : Bool) : CanBeSent.Statement (.peek addr wide) := ⟨.peek addr wide, rfl, rfl⟩
theorem CanBeSent.poke (addr : W64) (wide : Bool) (value : W64) : CanBeSent.Statement (.poke addr wide value) := ⟨.poke addr wide value, rfl, rfl⟩
theorem CanBeSent.monDump : CanBeSent.Statement .monDump := ⟨.monDump, rfl, rfl⟩
theorem CanBeSent.monDumpInfo : CanBeSent.Statement .monDumpInfo := ⟨.monDumpInfo, rfl, rfl⟩
theorem CanBeSent.monDumpRead (offset length : Nat) : CanBeSent.Statement (.monDumpRead offset length) := ⟨.monDumpRead offset length, rfl, rfl⟩
theorem CanBeSent.monCtxPause (n : Nat) : CanBeSent.Statement (.monCtxPause n) := ⟨.monCtxPause n, rfl, rfl⟩
theorem CanBeSent.monCtxLaunch (n : Nat) : CanBeSent.Statement (.monCtxLaunch n) := ⟨.monCtxLaunch n, rfl, rfl⟩
theorem CanBeSent.monCtxDestroy (n : Nat) : CanBeSent.Statement (.monCtxDestroy n) := ⟨.monCtxDestroy n, rfl, rfl⟩
theorem CanBeSent.unlock : CanBeSent.Statement .unlock := ⟨.unlock, rfl, rfl⟩
theorem CanBeSent.unlockResponse (key sig : List Byte)
    : CanBeSent.Statement (.unlockResponse key sig) := ⟨.unlockResponse (List.replicate 133 0) (List.replicate 132 0), rfl, by simp [Instr.wf]⟩
theorem CanBeSent.unlockEnd : CanBeSent.Statement .unlockEnd := ⟨.unlockEnd, rfl, rfl⟩
theorem CanBeSent.unlockIdleTimeout : CanBeSent.Statement .unlockIdleTimeout := ⟨.unlockIdleTimeout, rfl, rfl⟩
theorem CanBeSent.unlockLockoutExpire : CanBeSent.Statement .unlockLockoutExpire := ⟨.unlockLockoutExpire, rfl, rfl⟩
theorem CanBeSent.bypass : CanBeSent.Statement .bypass := ⟨.bypass, rfl, rfl⟩
theorem CanBeSent.idcode : CanBeSent.Statement .idcode := ⟨.idcode, rfl, rfl⟩
theorem CanBeSent.samplePreload : CanBeSent.Statement .samplePreload := ⟨.samplePreload, rfl, rfl⟩
theorem CanBeSent.extest : CanBeSent.Statement .extest := ⟨.extest, rfl, rfl⟩
theorem CanBeSent.buttonPress : CanBeSent.Statement .buttonPress := ⟨.buttonPress, rfl, rfl⟩
theorem CanBeSent.buttonHold3s : CanBeSent.Statement .buttonHold3s := ⟨.buttonHold3s, rfl, rfl⟩
theorem CanBeSent.ringHoldEnd (e : RingId) : CanBeSent.Statement (.ringHoldEnd e) := ⟨.ringHoldEnd e, rfl, rfl⟩
theorem CanBeSent.mcaSelftestPass : CanBeSent.Statement .mcaSelftestPass := ⟨.mcaSelftestPass, rfl, rfl⟩
theorem CanBeSent.keepaliveSend (port : PortId) (toPkg : PkgId) (toPort : PortId)
    : CanBeSent.Statement (.keepaliveSend port toPkg toPort) := ⟨.keepaliveSend port toPkg toPort, rfl, rfl⟩
theorem CanBeSent.pfcPauseFrame (priorities : Byte) : CanBeSent.Statement (.pfcPauseFrame priorities) := ⟨.pfcPauseFrame priorities, rfl, rfl⟩
theorem CanBeSent.monSyntaxError : CanBeSent.Statement .monSyntaxError := ⟨.monSyntaxError, rfl, rfl⟩
theorem CanBeSent.logFollowKeypress : CanBeSent.Statement .logFollowKeypress := ⟨.logFollowKeypress, rfl, rfl⟩

end Sys2Proof.Laws
end

