-- ==== Sys2Proof/Laws/State.lean ====
section
/-! SUPPORT. What rewriting one numbered unit does to every other field of the state, and to the units beside it. -/

namespace Sys2Proof.Machine

/-! ## State.onVat -/

@[simp] theorem State.onVat_board (s : State) (k : Nat) (f : Vat → Vat) : (s.onVat k f).board = s.board := rfl
@[simp] theorem State.onVat_inv (s : State) (k : Nat) (f : Vat → Vat) : (s.onVat k f).inv = s.inv := rfl
@[simp] theorem State.onVat_fuses (s : State) (k : Nat) (f : Vat → Vat) : (s.onVat k f).fuses = s.fuses := rfl
@[simp] theorem State.onVat_fru (s : State) (k : Nat) (f : Vat → Vat) : (s.onVat k f).fru = s.fru := rfl
@[simp] theorem State.onVat_clk (s : State) (k : Nat) (f : Vat → Vat) : (s.onVat k f).clk = s.clk := rfl
@[simp] theorem State.onVat_planes (s : State) (k : Nat) (f : Vat → Vat) : (s.onVat k f).planes = s.planes := rfl
@[simp] theorem State.onVat_tiles (s : State) (k : Nat) (f : Vat → Vat) : (s.onVat k f).tiles = s.tiles := rfl
@[simp] theorem State.onVat_loads (s : State) (k : Nat) (f : Vat → Vat) : (s.onVat k f).loads = s.loads := rfl
@[simp] theorem State.onVat_nextLoad (s : State) (k : Nat) (f : Vat → Vat) : (s.onVat k f).nextLoad = s.nextLoad := rfl
@[simp] theorem State.onVat_ctxs (s : State) (k : Nat) (f : Vat → Vat) : (s.onVat k f).ctxs = s.ctxs := rfl
@[simp] theorem State.onVat_creams (s : State) (k : Nat) (f : Vat → Vat) : (s.onVat k f).creams = s.creams := rfl
@[simp] theorem State.onVat_hbm (s : State) (k : Nat) (f : Vat → Vat) : (s.onVat k f).hbm = s.hbm := rfl
@[simp] theorem State.onVat_fab (s : State) (k : Nat) (f : Vat → Vat) : (s.onVat k f).fab = s.fab := rfl
@[simp] theorem State.onVat_churn (s : State) (k : Nat) (f : Vat → Vat) : (s.onVat k f).churn = s.churn := rfl
@[simp] theorem State.onVat_rings (s : State) (k : Nat) (f : Vat → Vat) : (s.onVat k f).rings = s.rings := rfl
@[simp] theorem State.onVat_sepPeriod (s : State) (k : Nat) (f : Vat → Vat) : (s.onVat k f).sepPeriod = s.sepPeriod := rfl
@[simp] theorem State.onVat_engines (s : State) (k : Nat) (f : Vat → Vat) : (s.onVat k f).engines = s.engines := rfl
@[simp] theorem State.onVat_lnk (s : State) (k : Nat) (f : Vat → Vat) : (s.onVat k f).lnk = s.lnk := rfl
@[simp] theorem State.onVat_las (s : State) (k : Nat) (f : Vat → Vat) : (s.onVat k f).las = s.las := rfl
@[simp] theorem State.onVat_pwr (s : State) (k : Nat) (f : Vat → Vat) : (s.onVat k f).pwr = s.pwr := rfl
@[simp] theorem State.onVat_thm (s : State) (k : Nat) (f : Vat → Vat) : (s.onVat k f).thm = s.thm := rfl
@[simp] theorem State.onVat_eth (s : State) (k : Nat) (f : Vat → Vat) : (s.onVat k f).eth = s.eth := rfl
@[simp] theorem State.onVat_kcp (s : State) (k : Nat) (f : Vat → Vat) : (s.onVat k f).kcp = s.kcp := rfl
@[simp] theorem State.onVat_err (s : State) (k : Nat) (f : Vat → Vat) : (s.onVat k f).err = s.err := rfl
@[simp] theorem State.onVat_mc (s : State) (k : Nat) (f : Vat → Vat) : (s.onVat k f).mc = s.mc := rfl
@[simp] theorem State.onVat_svc (s : State) (k : Nat) (f : Vat → Vat) : (s.onVat k f).svc = s.svc := rfl
@[simp] theorem State.onVat_free (s : State) (k : Nat) (f : Vat → Vat) : (s.onVat k f).free = s.free := rfl
@[simp] theorem State.onVat_pending (s : State) (k : Nat) (f : Vat → Vat) : (s.onVat k f).pending = s.pending := rfl
theorem State.onVat_vat (s : State) (k j : Nat) (f : Vat → Vat) :
    (s.onVat k f).vat j = if j = k then f (s.vat k) else s.vat j := Tbl.look_upd _ _ _ _ _
@[simp] theorem State.onVat_vat_same (s : State) (k : Nat) (f : Vat → Vat) : (s.onVat k f).vat k = f (s.vat k) :=
  Tbl.look_upd_same _ _ _ _

/-! ## State.onPlane -/

@[simp] theorem State.onPlane_board (s : State) (k : Nat) (f : Plane → Plane) : (s.onPlane k f).board = s.board := rfl
@[simp] theorem State.onPlane_inv (s : State) (k : Nat) (f : Plane → Plane) : (s.onPlane k f).inv = s.inv := rfl
@[simp] theorem State.onPlane_fuses (s : State) (k : Nat) (f : Plane → Plane) : (s.onPlane k f).fuses = s.fuses := rfl
@[simp] theorem State.onPlane_fru (s : State) (k : Nat) (f : Plane → Plane) : (s.onPlane k f).fru = s.fru := rfl
@[simp] theorem State.onPlane_clk (s : State) (k : Nat) (f : Plane → Plane) : (s.onPlane k f).clk = s.clk := rfl
@[simp] theorem State.onPlane_vats (s : State) (k : Nat) (f : Plane → Plane) : (s.onPlane k f).vats = s.vats := rfl
@[simp] theorem State.onPlane_tiles (s : State) (k : Nat) (f : Plane → Plane) : (s.onPlane k f).tiles = s.tiles := rfl
@[simp] theorem State.onPlane_loads (s : State) (k : Nat) (f : Plane → Plane) : (s.onPlane k f).loads = s.loads := rfl
@[simp] theorem State.onPlane_nextLoad (s : State) (k : Nat) (f : Plane → Plane) : (s.onPlane k f).nextLoad = s.nextLoad := rfl
@[simp] theorem State.onPlane_ctxs (s : State) (k : Nat) (f : Plane → Plane) : (s.onPlane k f).ctxs = s.ctxs := rfl
@[simp] theorem State.onPlane_creams (s : State) (k : Nat) (f : Plane → Plane) : (s.onPlane k f).creams = s.creams := rfl
@[simp] theorem State.onPlane_hbm (s : State) (k : Nat) (f : Plane → Plane) : (s.onPlane k f).hbm = s.hbm := rfl
@[simp] theorem State.onPlane_fab (s : State) (k : Nat) (f : Plane → Plane) : (s.onPlane k f).fab = s.fab := rfl
@[simp] theorem State.onPlane_churn (s : State) (k : Nat) (f : Plane → Plane) : (s.onPlane k f).churn = s.churn := rfl
@[simp] theorem State.onPlane_rings (s : State) (k : Nat) (f : Plane → Plane) : (s.onPlane k f).rings = s.rings := rfl
@[simp] theorem State.onPlane_sepPeriod (s : State) (k : Nat) (f : Plane → Plane) : (s.onPlane k f).sepPeriod = s.sepPeriod := rfl
@[simp] theorem State.onPlane_engines (s : State) (k : Nat) (f : Plane → Plane) : (s.onPlane k f).engines = s.engines := rfl
@[simp] theorem State.onPlane_lnk (s : State) (k : Nat) (f : Plane → Plane) : (s.onPlane k f).lnk = s.lnk := rfl
@[simp] theorem State.onPlane_las (s : State) (k : Nat) (f : Plane → Plane) : (s.onPlane k f).las = s.las := rfl
@[simp] theorem State.onPlane_pwr (s : State) (k : Nat) (f : Plane → Plane) : (s.onPlane k f).pwr = s.pwr := rfl
@[simp] theorem State.onPlane_thm (s : State) (k : Nat) (f : Plane → Plane) : (s.onPlane k f).thm = s.thm := rfl
@[simp] theorem State.onPlane_eth (s : State) (k : Nat) (f : Plane → Plane) : (s.onPlane k f).eth = s.eth := rfl
@[simp] theorem State.onPlane_kcp (s : State) (k : Nat) (f : Plane → Plane) : (s.onPlane k f).kcp = s.kcp := rfl
@[simp] theorem State.onPlane_err (s : State) (k : Nat) (f : Plane → Plane) : (s.onPlane k f).err = s.err := rfl
@[simp] theorem State.onPlane_mc (s : State) (k : Nat) (f : Plane → Plane) : (s.onPlane k f).mc = s.mc := rfl
@[simp] theorem State.onPlane_svc (s : State) (k : Nat) (f : Plane → Plane) : (s.onPlane k f).svc = s.svc := rfl
@[simp] theorem State.onPlane_free (s : State) (k : Nat) (f : Plane → Plane) : (s.onPlane k f).free = s.free := rfl
@[simp] theorem State.onPlane_pending (s : State) (k : Nat) (f : Plane → Plane) : (s.onPlane k f).pending = s.pending := rfl
theorem State.onPlane_plane (s : State) (k j : Nat) (f : Plane → Plane) :
    (s.onPlane k f).plane j = if j = k then f (s.plane k) else s.plane j := Tbl.look_upd _ _ _ _ _
@[simp] theorem State.onPlane_plane_same (s : State) (k : Nat) (f : Plane → Plane) : (s.onPlane k f).plane k = f (s.plane k) :=
  Tbl.look_upd_same _ _ _ _

/-! ## State.onCtx -/

@[simp] theorem State.onCtx_board (s : State) (k : Nat) (f : Ctx → Ctx) : (s.onCtx k f).board = s.board := rfl
@[simp] theorem State.onCtx_inv (s : State) (k : Nat) (f : Ctx → Ctx) : (s.onCtx k f).inv = s.inv := rfl
@[simp] theorem State.onCtx_fuses (s : State) (k : Nat) (f : Ctx → Ctx) : (s.onCtx k f).fuses = s.fuses := rfl
@[simp] theorem State.onCtx_fru (s : State) (k : Nat) (f : Ctx → Ctx) : (s.onCtx k f).fru = s.fru := rfl
@[simp] theorem State.onCtx_clk (s : State) (k : Nat) (f : Ctx → Ctx) : (s.onCtx k f).clk = s.clk := rfl
@[simp] theorem State.onCtx_vats (s : State) (k : Nat) (f : Ctx → Ctx) : (s.onCtx k f).vats = s.vats := rfl
@[simp] theorem State.onCtx_planes (s : State) (k : Nat) (f : Ctx → Ctx) : (s.onCtx k f).planes = s.planes := rfl
@[simp] theorem State.onCtx_tiles (s : State) (k : Nat) (f : Ctx → Ctx) : (s.onCtx k f).tiles = s.tiles := rfl
@[simp] theorem State.onCtx_loads (s : State) (k : Nat) (f : Ctx → Ctx) : (s.onCtx k f).loads = s.loads := rfl
@[simp] theorem State.onCtx_nextLoad (s : State) (k : Nat) (f : Ctx → Ctx) : (s.onCtx k f).nextLoad = s.nextLoad := rfl
@[simp] theorem State.onCtx_creams (s : State) (k : Nat) (f : Ctx → Ctx) : (s.onCtx k f).creams = s.creams := rfl
@[simp] theorem State.onCtx_hbm (s : State) (k : Nat) (f : Ctx → Ctx) : (s.onCtx k f).hbm = s.hbm := rfl
@[simp] theorem State.onCtx_fab (s : State) (k : Nat) (f : Ctx → Ctx) : (s.onCtx k f).fab = s.fab := rfl
@[simp] theorem State.onCtx_churn (s : State) (k : Nat) (f : Ctx → Ctx) : (s.onCtx k f).churn = s.churn := rfl
@[simp] theorem State.onCtx_rings (s : State) (k : Nat) (f : Ctx → Ctx) : (s.onCtx k f).rings = s.rings := rfl
@[simp] theorem State.onCtx_sepPeriod (s : State) (k : Nat) (f : Ctx → Ctx) : (s.onCtx k f).sepPeriod = s.sepPeriod := rfl
@[simp] theorem State.onCtx_engines (s : State) (k : Nat) (f : Ctx → Ctx) : (s.onCtx k f).engines = s.engines := rfl
@[simp] theorem State.onCtx_lnk (s : State) (k : Nat) (f : Ctx → Ctx) : (s.onCtx k f).lnk = s.lnk := rfl
@[simp] theorem State.onCtx_las (s : State) (k : Nat) (f : Ctx → Ctx) : (s.onCtx k f).las = s.las := rfl
@[simp] theorem State.onCtx_pwr (s : State) (k : Nat) (f : Ctx → Ctx) : (s.onCtx k f).pwr = s.pwr := rfl
@[simp] theorem State.onCtx_thm (s : State) (k : Nat) (f : Ctx → Ctx) : (s.onCtx k f).thm = s.thm := rfl
@[simp] theorem State.onCtx_eth (s : State) (k : Nat) (f : Ctx → Ctx) : (s.onCtx k f).eth = s.eth := rfl
@[simp] theorem State.onCtx_kcp (s : State) (k : Nat) (f : Ctx → Ctx) : (s.onCtx k f).kcp = s.kcp := rfl
@[simp] theorem State.onCtx_err (s : State) (k : Nat) (f : Ctx → Ctx) : (s.onCtx k f).err = s.err := rfl
@[simp] theorem State.onCtx_mc (s : State) (k : Nat) (f : Ctx → Ctx) : (s.onCtx k f).mc = s.mc := rfl
@[simp] theorem State.onCtx_svc (s : State) (k : Nat) (f : Ctx → Ctx) : (s.onCtx k f).svc = s.svc := rfl
@[simp] theorem State.onCtx_free (s : State) (k : Nat) (f : Ctx → Ctx) : (s.onCtx k f).free = s.free := rfl
@[simp] theorem State.onCtx_pending (s : State) (k : Nat) (f : Ctx → Ctx) : (s.onCtx k f).pending = s.pending := rfl
theorem State.onCtx_ctx (s : State) (k j : Nat) (f : Ctx → Ctx) :
    (s.onCtx k f).ctx j = if j = k then f (s.ctx k) else s.ctx j := Tbl.look_upd _ _ _ _ _
@[simp] theorem State.onCtx_ctx_same (s : State) (k : Nat) (f : Ctx → Ctx) : (s.onCtx k f).ctx k = f (s.ctx k) :=
  Tbl.look_upd_same _ _ _ _

/-! ## State.onCream -/

@[simp] theorem State.onCream_board (s : State) (k : Nat) (f : Cream → Cream) : (s.onCream k f).board = s.board := rfl
@[simp] theorem State.onCream_inv (s : State) (k : Nat) (f : Cream → Cream) : (s.onCream k f).inv = s.inv := rfl
@[simp] theorem State.onCream_fuses (s : State) (k : Nat) (f : Cream → Cream) : (s.onCream k f).fuses = s.fuses := rfl
@[simp] theorem State.onCream_fru (s : State) (k : Nat) (f : Cream → Cream) : (s.onCream k f).fru = s.fru := rfl
@[simp] theorem State.onCream_clk (s : State) (k : Nat) (f : Cream → Cream) : (s.onCream k f).clk = s.clk := rfl
@[simp] theorem State.onCream_vats (s : State) (k : Nat) (f : Cream → Cream) : (s.onCream k f).vats = s.vats := rfl
@[simp] theorem State.onCream_planes (s : State) (k : Nat) (f : Cream → Cream) : (s.onCream k f).planes = s.planes := rfl
@[simp] theorem State.onCream_tiles (s : State) (k : Nat) (f : Cream → Cream) : (s.onCream k f).tiles = s.tiles := rfl
@[simp] theorem State.onCream_loads (s : State) (k : Nat) (f : Cream → Cream) : (s.onCream k f).loads = s.loads := rfl
@[simp] theorem State.onCream_nextLoad (s : State) (k : Nat) (f : Cream → Cream) : (s.onCream k f).nextLoad = s.nextLoad := rfl
@[simp] theorem State.onCream_ctxs (s : State) (k : Nat) (f : Cream → Cream) : (s.onCream k f).ctxs = s.ctxs := rfl
@[simp] theorem State.onCream_hbm (s : State) (k : Nat) (f : Cream → Cream) : (s.onCream k f).hbm = s.hbm := rfl
@[simp] theorem State.onCream_fab (s : State) (k : Nat) (f : Cream → Cream) : (s.onCream k f).fab = s.fab := rfl
@[simp] theorem State.onCream_churn (s : State) (k : Nat) (f : Cream → Cream) : (s.onCream k f).churn = s.churn := rfl
@[simp] theorem State.onCream_rings (s : State) (k : Nat) (f : Cream → Cream) : (s.onCream k f).rings = s.rings := rfl
@[simp] theorem State.onCream_sepPeriod (s : State) (k : Nat) (f : Cream → Cream) : (s.onCream k f).sepPeriod = s.sepPeriod := rfl
@[simp] theorem State.onCream_engines (s : State) (k : Nat) (f : Cream → Cream) : (s.onCream k f).engines = s.engines := rfl
@[simp] theorem State.onCream_lnk (s : State) (k : Nat) (f : Cream → Cream) : (s.onCream k f).lnk = s.lnk := rfl
@[simp] theorem State.onCream_las (s : State) (k : Nat) (f : Cream → Cream) : (s.onCream k f).las = s.las := rfl
@[simp] theorem State.onCream_pwr (s : State) (k : Nat) (f : Cream → Cream) : (s.onCream k f).pwr = s.pwr := rfl
@[simp] theorem State.onCream_thm (s : State) (k : Nat) (f : Cream → Cream) : (s.onCream k f).thm = s.thm := rfl
@[simp] theorem State.onCream_eth (s : State) (k : Nat) (f : Cream → Cream) : (s.onCream k f).eth = s.eth := rfl
@[simp] theorem State.onCream_kcp (s : State) (k : Nat) (f : Cream → Cream) : (s.onCream k f).kcp = s.kcp := rfl
@[simp] theorem State.onCream_err (s : State) (k : Nat) (f : Cream → Cream) : (s.onCream k f).err = s.err := rfl
@[simp] theorem State.onCream_mc (s : State) (k : Nat) (f : Cream → Cream) : (s.onCream k f).mc = s.mc := rfl
@[simp] theorem State.onCream_svc (s : State) (k : Nat) (f : Cream → Cream) : (s.onCream k f).svc = s.svc := rfl
@[simp] theorem State.onCream_free (s : State) (k : Nat) (f : Cream → Cream) : (s.onCream k f).free = s.free := rfl
@[simp] theorem State.onCream_pending (s : State) (k : Nat) (f : Cream → Cream) : (s.onCream k f).pending = s.pending := rfl
theorem State.onCream_cream (s : State) (k j : Nat) (f : Cream → Cream) :
    (s.onCream k f).cream j = if j = k then f (s.cream k) else s.cream j := Tbl.look_upd _ _ _ _ _
@[simp] theorem State.onCream_cream_same (s : State) (k : Nat) (f : Cream → Cream) : (s.onCream k f).cream k = f (s.cream k) :=
  Tbl.look_upd_same _ _ _ _

/-! ## State.onEngine -/

@[simp] theorem State.onEngine_board (s : State) (k : Nat) (f : Engine → Engine) : (s.onEngine k f).board = s.board := rfl
@[simp] theorem State.onEngine_inv (s : State) (k : Nat) (f : Engine → Engine) : (s.onEngine k f).inv = s.inv := rfl
@[simp] theorem State.onEngine_fuses (s : State) (k : Nat) (f : Engine → Engine) : (s.onEngine k f).fuses = s.fuses := rfl
@[simp] theorem State.onEngine_fru (s : State) (k : Nat) (f : Engine → Engine) : (s.onEngine k f).fru = s.fru := rfl
@[simp] theorem State.onEngine_clk (s : State) (k : Nat) (f : Engine → Engine) : (s.onEngine k f).clk = s.clk := rfl
@[simp] theorem State.onEngine_vats (s : State) (k : Nat) (f : Engine → Engine) : (s.onEngine k f).vats = s.vats := rfl
@[simp] theorem State.onEngine_planes (s : State) (k : Nat) (f : Engine → Engine) : (s.onEngine k f).planes = s.planes := rfl
@[simp] theorem State.onEngine_tiles (s : State) (k : Nat) (f : Engine → Engine) : (s.onEngine k f).tiles = s.tiles := rfl
@[simp] theorem State.onEngine_loads (s : State) (k : Nat) (f : Engine → Engine) : (s.onEngine k f).loads = s.loads := rfl
@[simp] theorem State.onEngine_nextLoad (s : State) (k : Nat) (f : Engine → Engine) : (s.onEngine k f).nextLoad = s.nextLoad := rfl
@[simp] theorem State.onEngine_ctxs (s : State) (k : Nat) (f : Engine → Engine) : (s.onEngine k f).ctxs = s.ctxs := rfl
@[simp] theorem State.onEngine_creams (s : State) (k : Nat) (f : Engine → Engine) : (s.onEngine k f).creams = s.creams := rfl
@[simp] theorem State.onEngine_hbm (s : State) (k : Nat) (f : Engine → Engine) : (s.onEngine k f).hbm = s.hbm := rfl
@[simp] theorem State.onEngine_fab (s : State) (k : Nat) (f : Engine → Engine) : (s.onEngine k f).fab = s.fab := rfl
@[simp] theorem State.onEngine_churn (s : State) (k : Nat) (f : Engine → Engine) : (s.onEngine k f).churn = s.churn := rfl
@[simp] theorem State.onEngine_rings (s : State) (k : Nat) (f : Engine → Engine) : (s.onEngine k f).rings = s.rings := rfl
@[simp] theorem State.onEngine_sepPeriod (s : State) (k : Nat) (f : Engine → Engine) : (s.onEngine k f).sepPeriod = s.sepPeriod := rfl
@[simp] theorem State.onEngine_lnk (s : State) (k : Nat) (f : Engine → Engine) : (s.onEngine k f).lnk = s.lnk := rfl
@[simp] theorem State.onEngine_las (s : State) (k : Nat) (f : Engine → Engine) : (s.onEngine k f).las = s.las := rfl
@[simp] theorem State.onEngine_pwr (s : State) (k : Nat) (f : Engine → Engine) : (s.onEngine k f).pwr = s.pwr := rfl
@[simp] theorem State.onEngine_thm (s : State) (k : Nat) (f : Engine → Engine) : (s.onEngine k f).thm = s.thm := rfl
@[simp] theorem State.onEngine_eth (s : State) (k : Nat) (f : Engine → Engine) : (s.onEngine k f).eth = s.eth := rfl
@[simp] theorem State.onEngine_kcp (s : State) (k : Nat) (f : Engine → Engine) : (s.onEngine k f).kcp = s.kcp := rfl
@[simp] theorem State.onEngine_err (s : State) (k : Nat) (f : Engine → Engine) : (s.onEngine k f).err = s.err := rfl
@[simp] theorem State.onEngine_mc (s : State) (k : Nat) (f : Engine → Engine) : (s.onEngine k f).mc = s.mc := rfl
@[simp] theorem State.onEngine_svc (s : State) (k : Nat) (f : Engine → Engine) : (s.onEngine k f).svc = s.svc := rfl
@[simp] theorem State.onEngine_free (s : State) (k : Nat) (f : Engine → Engine) : (s.onEngine k f).free = s.free := rfl
@[simp] theorem State.onEngine_pending (s : State) (k : Nat) (f : Engine → Engine) : (s.onEngine k f).pending = s.pending := rfl
theorem State.onEngine_engine (s : State) (k j : Nat) (f : Engine → Engine) :
    (s.onEngine k f).engine j = if j = k then f (s.engine k) else s.engine j := Tbl.look_upd _ _ _ _ _
@[simp] theorem State.onEngine_engine_same (s : State) (k : Nat) (f : Engine → Engine) : (s.onEngine k f).engine k = f (s.engine k) :=
  Tbl.look_upd_same _ _ _ _

/-! ## State.onPort -/

@[simp] theorem State.onPort_board (s : State) (k : Nat) (f : Port → Port) : (s.onPort k f).board = s.board := rfl
@[simp] theorem State.onPort_inv (s : State) (k : Nat) (f : Port → Port) : (s.onPort k f).inv = s.inv := rfl
@[simp] theorem State.onPort_fuses (s : State) (k : Nat) (f : Port → Port) : (s.onPort k f).fuses = s.fuses := rfl
@[simp] theorem State.onPort_fru (s : State) (k : Nat) (f : Port → Port) : (s.onPort k f).fru = s.fru := rfl
@[simp] theorem State.onPort_clk (s : State) (k : Nat) (f : Port → Port) : (s.onPort k f).clk = s.clk := rfl
@[simp] theorem State.onPort_vats (s : State) (k : Nat) (f : Port → Port) : (s.onPort k f).vats = s.vats := rfl
@[simp] theorem State.onPort_planes (s : State) (k : Nat) (f : Port → Port) : (s.onPort k f).planes = s.planes := rfl
@[simp] theorem State.onPort_tiles (s : State) (k : Nat) (f : Port → Port) : (s.onPort k f).tiles = s.tiles := rfl
@[simp] theorem State.onPort_loads (s : State) (k : Nat) (f : Port → Port) : (s.onPort k f).loads = s.loads := rfl
@[simp] theorem State.onPort_nextLoad (s : State) (k : Nat) (f : Port → Port) : (s.onPort k f).nextLoad = s.nextLoad := rfl
@[simp] theorem State.onPort_ctxs (s : State) (k : Nat) (f : Port → Port) : (s.onPort k f).ctxs = s.ctxs := rfl
@[simp] theorem State.onPort_creams (s : State) (k : Nat) (f : Port → Port) : (s.onPort k f).creams = s.creams := rfl
@[simp] theorem State.onPort_hbm (s : State) (k : Nat) (f : Port → Port) : (s.onPort k f).hbm = s.hbm := rfl
@[simp] theorem State.onPort_fab (s : State) (k : Nat) (f : Port → Port) : (s.onPort k f).fab = s.fab := rfl
@[simp] theorem State.onPort_rings (s : State) (k : Nat) (f : Port → Port) : (s.onPort k f).rings = s.rings := rfl
@[simp] theorem State.onPort_sepPeriod (s : State) (k : Nat) (f : Port → Port) : (s.onPort k f).sepPeriod = s.sepPeriod := rfl
@[simp] theorem State.onPort_engines (s : State) (k : Nat) (f : Port → Port) : (s.onPort k f).engines = s.engines := rfl
@[simp] theorem State.onPort_lnk (s : State) (k : Nat) (f : Port → Port) : (s.onPort k f).lnk = s.lnk := rfl
@[simp] theorem State.onPort_las (s : State) (k : Nat) (f : Port → Port) : (s.onPort k f).las = s.las := rfl
@[simp] theorem State.onPort_pwr (s : State) (k : Nat) (f : Port → Port) : (s.onPort k f).pwr = s.pwr := rfl
@[simp] theorem State.onPort_thm (s : State) (k : Nat) (f : Port → Port) : (s.onPort k f).thm = s.thm := rfl
@[simp] theorem State.onPort_eth (s : State) (k : Nat) (f : Port → Port) : (s.onPort k f).eth = s.eth := rfl
@[simp] theorem State.onPort_kcp (s : State) (k : Nat) (f : Port → Port) : (s.onPort k f).kcp = s.kcp := rfl
@[simp] theorem State.onPort_err (s : State) (k : Nat) (f : Port → Port) : (s.onPort k f).err = s.err := rfl
@[simp] theorem State.onPort_mc (s : State) (k : Nat) (f : Port → Port) : (s.onPort k f).mc = s.mc := rfl
@[simp] theorem State.onPort_svc (s : State) (k : Nat) (f : Port → Port) : (s.onPort k f).svc = s.svc := rfl
@[simp] theorem State.onPort_free (s : State) (k : Nat) (f : Port → Port) : (s.onPort k f).free = s.free := rfl
@[simp] theorem State.onPort_pending (s : State) (k : Nat) (f : Port → Port) : (s.onPort k f).pending = s.pending := rfl
theorem State.onPort_port (s : State) (k j : Nat) (f : Port → Port) :
    (s.onPort k f).port j = if j = k then f (s.port k) else s.port j := Tbl.look_upd _ _ _ _ _
@[simp] theorem State.onPort_port_same (s : State) (k : Nat) (f : Port → Port) : (s.onPort k f).port k = f (s.port k) :=
  Tbl.look_upd_same _ _ _ _

/-! ## State.onRing -/

@[simp] theorem State.onRing_board (s : State) (k : Nat) (f : Ring → Ring) : (s.onRing k f).board = s.board := rfl
@[simp] theorem State.onRing_inv (s : State) (k : Nat) (f : Ring → Ring) : (s.onRing k f).inv = s.inv := rfl
@[simp] theorem State.onRing_fuses (s : State) (k : Nat) (f : Ring → Ring) : (s.onRing k f).fuses = s.fuses := rfl
@[simp] theorem State.onRing_fru (s : State) (k : Nat) (f : Ring → Ring) : (s.onRing k f).fru = s.fru := rfl
@[simp] theorem State.onRing_clk (s : State) (k : Nat) (f : Ring → Ring) : (s.onRing k f).clk = s.clk := rfl
@[simp] theorem State.onRing_vats (s : State) (k : Nat) (f : Ring → Ring) : (s.onRing k f).vats = s.vats := rfl
@[simp] theorem State.onRing_planes (s : State) (k : Nat) (f : Ring → Ring) : (s.onRing k f).planes = s.planes := rfl
@[simp] theorem State.onRing_tiles (s : State) (k : Nat) (f : Ring → Ring) : (s.onRing k f).tiles = s.tiles := rfl
@[simp] theorem State.onRing_loads (s : State) (k : Nat) (f : Ring → Ring) : (s.onRing k f).loads = s.loads := rfl
@[simp] theorem State.onRing_nextLoad (s : State) (k : Nat) (f : Ring → Ring) : (s.onRing k f).nextLoad = s.nextLoad := rfl
@[simp] theorem State.onRing_ctxs (s : State) (k : Nat) (f : Ring → Ring) : (s.onRing k f).ctxs = s.ctxs := rfl
@[simp] theorem State.onRing_creams (s : State) (k : Nat) (f : Ring → Ring) : (s.onRing k f).creams = s.creams := rfl
@[simp] theorem State.onRing_hbm (s : State) (k : Nat) (f : Ring → Ring) : (s.onRing k f).hbm = s.hbm := rfl
@[simp] theorem State.onRing_fab (s : State) (k : Nat) (f : Ring → Ring) : (s.onRing k f).fab = s.fab := rfl
@[simp] theorem State.onRing_churn (s : State) (k : Nat) (f : Ring → Ring) : (s.onRing k f).churn = s.churn := rfl
@[simp] theorem State.onRing_sepPeriod (s : State) (k : Nat) (f : Ring → Ring) : (s.onRing k f).sepPeriod = s.sepPeriod := rfl
@[simp] theorem State.onRing_engines (s : State) (k : Nat) (f : Ring → Ring) : (s.onRing k f).engines = s.engines := rfl
@[simp] theorem State.onRing_lnk (s : State) (k : Nat) (f : Ring → Ring) : (s.onRing k f).lnk = s.lnk := rfl
@[simp] theorem State.onRing_las (s : State) (k : Nat) (f : Ring → Ring) : (s.onRing k f).las = s.las := rfl
@[simp] theorem State.onRing_pwr (s : State) (k : Nat) (f : Ring → Ring) : (s.onRing k f).pwr = s.pwr := rfl
@[simp] theorem State.onRing_thm (s : State) (k : Nat) (f : Ring → Ring) : (s.onRing k f).thm = s.thm := rfl
@[simp] theorem State.onRing_eth (s : State) (k : Nat) (f : Ring → Ring) : (s.onRing k f).eth = s.eth := rfl
@[simp] theorem State.onRing_kcp (s : State) (k : Nat) (f : Ring → Ring) : (s.onRing k f).kcp = s.kcp := rfl
@[simp] theorem State.onRing_err (s : State) (k : Nat) (f : Ring → Ring) : (s.onRing k f).err = s.err := rfl
@[simp] theorem State.onRing_mc (s : State) (k : Nat) (f : Ring → Ring) : (s.onRing k f).mc = s.mc := rfl
@[simp] theorem State.onRing_svc (s : State) (k : Nat) (f : Ring → Ring) : (s.onRing k f).svc = s.svc := rfl
@[simp] theorem State.onRing_free (s : State) (k : Nat) (f : Ring → Ring) : (s.onRing k f).free = s.free := rfl
@[simp] theorem State.onRing_pending (s : State) (k : Nat) (f : Ring → Ring) : (s.onRing k f).pending = s.pending := rfl
theorem State.onRing_ring (s : State) (k j : Nat) (f : Ring → Ring) :
    (s.onRing k f).ring j = if j = k then f (s.ring k) else s.ring j := Tbl.look_upd _ _ _ _ _
@[simp] theorem State.onRing_ring_same (s : State) (k : Nat) (f : Ring → Ring) : (s.onRing k f).ring k = f (s.ring k) :=
  Tbl.look_upd_same _ _ _ _

/-! ## State.onStack -/

@[simp] theorem State.onStack_board (s : State) (k : Nat) (f : Stack → Stack) : (s.onStack k f).board = s.board := rfl
@[simp] theorem State.onStack_inv (s : State) (k : Nat) (f : Stack → Stack) : (s.onStack k f).inv = s.inv := rfl
@[simp] theorem State.onStack_fuses (s : State) (k : Nat) (f : Stack → Stack) : (s.onStack k f).fuses = s.fuses := rfl
@[simp] theorem State.onStack_fru (s : State) (k : Nat) (f : Stack → Stack) : (s.onStack k f).fru = s.fru := rfl
@[simp] theorem State.onStack_clk (s : State) (k : Nat) (f : Stack → Stack) : (s.onStack k f).clk = s.clk := rfl
@[simp] theorem State.onStack_vats (s : State) (k : Nat) (f : Stack → Stack) : (s.onStack k f).vats = s.vats := rfl
@[simp] theorem State.onStack_planes (s : State) (k : Nat) (f : Stack → Stack) : (s.onStack k f).planes = s.planes := rfl
@[simp] theorem State.onStack_tiles (s : State) (k : Nat) (f : Stack → Stack) : (s.onStack k f).tiles = s.tiles := rfl
@[simp] theorem State.onStack_loads (s : State) (k : Nat) (f : Stack → Stack) : (s.onStack k f).loads = s.loads := rfl
@[simp] theorem State.onStack_nextLoad (s : State) (k : Nat) (f : Stack → Stack) : (s.onStack k f).nextLoad = s.nextLoad := rfl
@[simp] theorem State.onStack_ctxs (s : State) (k : Nat) (f : Stack → Stack) : (s.onStack k f).ctxs = s.ctxs := rfl
@[simp] theorem State.onStack_creams (s : State) (k : Nat) (f : Stack → Stack) : (s.onStack k f).creams = s.creams := rfl
@[simp] theorem State.onStack_fab (s : State) (k : Nat) (f : Stack → Stack) : (s.onStack k f).fab = s.fab := rfl
@[simp] theorem State.onStack_churn (s : State) (k : Nat) (f : Stack → Stack) : (s.onStack k f).churn = s.churn := rfl
@[simp] theorem State.onStack_rings (s : State) (k : Nat) (f : Stack → Stack) : (s.onStack k f).rings = s.rings := rfl
@[simp] theorem State.onStack_sepPeriod (s : State) (k : Nat) (f : Stack → Stack) : (s.onStack k f).sepPeriod = s.sepPeriod := rfl
@[simp] theorem State.onStack_engines (s : State) (k : Nat) (f : Stack → Stack) : (s.onStack k f).engines = s.engines := rfl
@[simp] theorem State.onStack_lnk (s : State) (k : Nat) (f : Stack → Stack) : (s.onStack k f).lnk = s.lnk := rfl
@[simp] theorem State.onStack_las (s : State) (k : Nat) (f : Stack → Stack) : (s.onStack k f).las = s.las := rfl
@[simp] theorem State.onStack_pwr (s : State) (k : Nat) (f : Stack → Stack) : (s.onStack k f).pwr = s.pwr := rfl
@[simp] theorem State.onStack_thm (s : State) (k : Nat) (f : Stack → Stack) : (s.onStack k f).thm = s.thm := rfl
@[simp] theorem State.onStack_eth (s : State) (k : Nat) (f : Stack → Stack) : (s.onStack k f).eth = s.eth := rfl
@[simp] theorem State.onStack_kcp (s : State) (k : Nat) (f : Stack → Stack) : (s.onStack k f).kcp = s.kcp := rfl
@[simp] theorem State.onStack_err (s : State) (k : Nat) (f : Stack → Stack) : (s.onStack k f).err = s.err := rfl
@[simp] theorem State.onStack_mc (s : State) (k : Nat) (f : Stack → Stack) : (s.onStack k f).mc = s.mc := rfl
@[simp] theorem State.onStack_svc (s : State) (k : Nat) (f : Stack → Stack) : (s.onStack k f).svc = s.svc := rfl
@[simp] theorem State.onStack_free (s : State) (k : Nat) (f : Stack → Stack) : (s.onStack k f).free = s.free := rfl
@[simp] theorem State.onStack_pending (s : State) (k : Nat) (f : Stack → Stack) : (s.onStack k f).pending = s.pending := rfl
theorem State.onStack_stack (s : State) (k j : Nat) (f : Stack → Stack) :
    (s.onStack k f).stack j = if j = k then f (s.stack k) else s.stack j := Tbl.look_upd _ _ _ _ _
@[simp] theorem State.onStack_stack_same (s : State) (k : Nat) (f : Stack → Stack) : (s.onStack k f).stack k = f (s.stack k) :=
  Tbl.look_upd_same _ _ _ _

/-! ## State.onPseudo -/

@[simp] theorem State.onPseudo_board (s : State) (k : Nat) (f : Pseudo → Pseudo) : (s.onPseudo k f).board = s.board := rfl
@[simp] theorem State.onPseudo_inv (s : State) (k : Nat) (f : Pseudo → Pseudo) : (s.onPseudo k f).inv = s.inv := rfl
@[simp] theorem State.onPseudo_fuses (s : State) (k : Nat) (f : Pseudo → Pseudo) : (s.onPseudo k f).fuses = s.fuses := rfl
@[simp] theorem State.onPseudo_fru (s : State) (k : Nat) (f : Pseudo → Pseudo) : (s.onPseudo k f).fru = s.fru := rfl
@[simp] theorem State.onPseudo_clk (s : State) (k : Nat) (f : Pseudo → Pseudo) : (s.onPseudo k f).clk = s.clk := rfl
@[simp] theorem State.onPseudo_vats (s : State) (k : Nat) (f : Pseudo → Pseudo) : (s.onPseudo k f).vats = s.vats := rfl
@[simp] theorem State.onPseudo_planes (s : State) (k : Nat) (f : Pseudo → Pseudo) : (s.onPseudo k f).planes = s.planes := rfl
@[simp] theorem State.onPseudo_tiles (s : State) (k : Nat) (f : Pseudo → Pseudo) : (s.onPseudo k f).tiles = s.tiles := rfl
@[simp] theorem State.onPseudo_loads (s : State) (k : Nat) (f : Pseudo → Pseudo) : (s.onPseudo k f).loads = s.loads := rfl
@[simp] theorem State.onPseudo_nextLoad (s : State) (k : Nat) (f : Pseudo → Pseudo) : (s.onPseudo k f).nextLoad = s.nextLoad := rfl
@[simp] theorem State.onPseudo_ctxs (s : State) (k : Nat) (f : Pseudo → Pseudo) : (s.onPseudo k f).ctxs = s.ctxs := rfl
@[simp] theorem State.onPseudo_creams (s : State) (k : Nat) (f : Pseudo → Pseudo) : (s.onPseudo k f).creams = s.creams := rfl
@[simp] theorem State.onPseudo_fab (s : State) (k : Nat) (f : Pseudo → Pseudo) : (s.onPseudo k f).fab = s.fab := rfl
@[simp] theorem State.onPseudo_churn (s : State) (k : Nat) (f : Pseudo → Pseudo) : (s.onPseudo k f).churn = s.churn := rfl
@[simp] theorem State.onPseudo_rings (s : State) (k : Nat) (f : Pseudo → Pseudo) : (s.onPseudo k f).rings = s.rings := rfl
@[simp] theorem State.onPseudo_sepPeriod (s : State) (k : Nat) (f : Pseudo → Pseudo) : (s.onPseudo k f).sepPeriod = s.sepPeriod := rfl
@[simp] theorem State.onPseudo_engines (s : State) (k : Nat) (f : Pseudo → Pseudo) : (s.onPseudo k f).engines = s.engines := rfl
@[simp] theorem State.onPseudo_lnk (s : State) (k : Nat) (f : Pseudo → Pseudo) : (s.onPseudo k f).lnk = s.lnk := rfl
@[simp] theorem State.onPseudo_las (s : State) (k : Nat) (f : Pseudo → Pseudo) : (s.onPseudo k f).las = s.las := rfl
@[simp] theorem State.onPseudo_pwr (s : State) (k : Nat) (f : Pseudo → Pseudo) : (s.onPseudo k f).pwr = s.pwr := rfl
@[simp] theorem State.onPseudo_thm (s : State) (k : Nat) (f : Pseudo → Pseudo) : (s.onPseudo k f).thm = s.thm := rfl
@[simp] theorem State.onPseudo_eth (s : State) (k : Nat) (f : Pseudo → Pseudo) : (s.onPseudo k f).eth = s.eth := rfl
@[simp] theorem State.onPseudo_kcp (s : State) (k : Nat) (f : Pseudo → Pseudo) : (s.onPseudo k f).kcp = s.kcp := rfl
@[simp] theorem State.onPseudo_err (s : State) (k : Nat) (f : Pseudo → Pseudo) : (s.onPseudo k f).err = s.err := rfl
@[simp] theorem State.onPseudo_mc (s : State) (k : Nat) (f : Pseudo → Pseudo) : (s.onPseudo k f).mc = s.mc := rfl
@[simp] theorem State.onPseudo_svc (s : State) (k : Nat) (f : Pseudo → Pseudo) : (s.onPseudo k f).svc = s.svc := rfl
@[simp] theorem State.onPseudo_free (s : State) (k : Nat) (f : Pseudo → Pseudo) : (s.onPseudo k f).free = s.free := rfl
@[simp] theorem State.onPseudo_pending (s : State) (k : Nat) (f : Pseudo → Pseudo) : (s.onPseudo k f).pending = s.pending := rfl
theorem State.onPseudo_pseudo (s : State) (k j : Nat) (f : Pseudo → Pseudo) :
    (s.onPseudo k f).pseudo j = if j = k then f (s.pseudo k) else s.pseudo j := Tbl.look_upd _ _ _ _ _
@[simp] theorem State.onPseudo_pseudo_same (s : State) (k : Nat) (f : Pseudo → Pseudo) : (s.onPseudo k f).pseudo k = f (s.pseudo k) :=
  Tbl.look_upd_same _ _ _ _

/-! ## State.onLink -/

@[simp] theorem State.onLink_board (s : State) (k : Nat) (f : Link → Link) : (s.onLink k f).board = s.board := rfl
@[simp] theorem State.onLink_inv (s : State) (k : Nat) (f : Link → Link) : (s.onLink k f).inv = s.inv := rfl
@[simp] theorem State.onLink_fuses (s : State) (k : Nat) (f : Link → Link) : (s.onLink k f).fuses = s.fuses := rfl
@[simp] theorem State.onLink_fru (s : State) (k : Nat) (f : Link → Link) : (s.onLink k f).fru = s.fru := rfl
@[simp] theorem State.onLink_clk (s : State) (k : Nat) (f : Link → Link) : (s.onLink k f).clk = s.clk := rfl
@[simp] theorem State.onLink_vats (s : State) (k : Nat) (f : Link → Link) : (s.onLink k f).vats = s.vats := rfl
@[simp] theorem State.onLink_planes (s : State) (k : Nat) (f : Link → Link) : (s.onLink k f).planes = s.planes := rfl
@[simp] theorem State.onLink_tiles (s : State) (k : Nat) (f : Link → Link) : (s.onLink k f).tiles = s.tiles := rfl
@[simp] theorem State.onLink_loads (s : State) (k : Nat) (f : Link → Link) : (s.onLink k f).loads = s.loads := rfl
@[simp] theorem State.onLink_nextLoad (s : State) (k : Nat) (f : Link → Link) : (s.onLink k f).nextLoad = s.nextLoad := rfl
@[simp] theorem State.onLink_ctxs (s : State) (k : Nat) (f : Link → Link) : (s.onLink k f).ctxs = s.ctxs := rfl
@[simp] theorem State.onLink_creams (s : State) (k : Nat) (f : Link → Link) : (s.onLink k f).creams = s.creams := rfl
@[simp] theorem State.onLink_hbm (s : State) (k : Nat) (f : Link → Link) : (s.onLink k f).hbm = s.hbm := rfl
@[simp] theorem State.onLink_fab (s : State) (k : Nat) (f : Link → Link) : (s.onLink k f).fab = s.fab := rfl
@[simp] theorem State.onLink_churn (s : State) (k : Nat) (f : Link → Link) : (s.onLink k f).churn = s.churn := rfl
@[simp] theorem State.onLink_rings (s : State) (k : Nat) (f : Link → Link) : (s.onLink k f).rings = s.rings := rfl
@[simp] theorem State.onLink_sepPeriod (s : State) (k : Nat) (f : Link → Link) : (s.onLink k f).sepPeriod = s.sepPeriod := rfl
@[simp] theorem State.onLink_engines (s : State) (k : Nat) (f : Link → Link) : (s.onLink k f).engines = s.engines := rfl
@[simp] theorem State.onLink_las (s : State) (k : Nat) (f : Link → Link) : (s.onLink k f).las = s.las := rfl
@[simp] theorem State.onLink_pwr (s : State) (k : Nat) (f : Link → Link) : (s.onLink k f).pwr = s.pwr := rfl
@[simp] theorem State.onLink_thm (s : State) (k : Nat) (f : Link → Link) : (s.onLink k f).thm = s.thm := rfl
@[simp] theorem State.onLink_eth (s : State) (k : Nat) (f : Link → Link) : (s.onLink k f).eth = s.eth := rfl
@[simp] theorem State.onLink_kcp (s : State) (k : Nat) (f : Link → Link) : (s.onLink k f).kcp = s.kcp := rfl
@[simp] theorem State.onLink_err (s : State) (k : Nat) (f : Link → Link) : (s.onLink k f).err = s.err := rfl
@[simp] theorem State.onLink_mc (s : State) (k : Nat) (f : Link → Link) : (s.onLink k f).mc = s.mc := rfl
@[simp] theorem State.onLink_svc (s : State) (k : Nat) (f : Link → Link) : (s.onLink k f).svc = s.svc := rfl
@[simp] theorem State.onLink_free (s : State) (k : Nat) (f : Link → Link) : (s.onLink k f).free = s.free := rfl
@[simp] theorem State.onLink_pending (s : State) (k : Nat) (f : Link → Link) : (s.onLink k f).pending = s.pending := rfl
theorem State.onLink_link (s : State) (k j : Nat) (f : Link → Link) :
    (s.onLink k f).link j = if j = k then f (s.link k) else s.link j := Tbl.look_upd _ _ _ _ _
@[simp] theorem State.onLink_link_same (s : State) (k : Nat) (f : Link → Link) : (s.onLink k f).link k = f (s.link k) :=
  Tbl.look_upd_same _ _ _ _

/-! ## State.onCage -/

@[simp] theorem State.onCage_board (s : State) (k : Nat) (f : Cage → Cage) : (s.onCage k f).board = s.board := rfl
@[simp] theorem State.onCage_inv (s : State) (k : Nat) (f : Cage → Cage) : (s.onCage k f).inv = s.inv := rfl
@[simp] theorem State.onCage_fuses (s : State) (k : Nat) (f : Cage → Cage) : (s.onCage k f).fuses = s.fuses := rfl
@[simp] theorem State.onCage_fru (s : State) (k : Nat) (f : Cage → Cage) : (s.onCage k f).fru = s.fru := rfl
@[simp] theorem State.onCage_clk (s : State) (k : Nat) (f : Cage → Cage) : (s.onCage k f).clk = s.clk := rfl
@[simp] theorem State.onCage_vats (s : State) (k : Nat) (f : Cage → Cage) : (s.onCage k f).vats = s.vats := rfl
@[simp] theorem State.onCage_planes (s : State) (k : Nat) (f : Cage → Cage) : (s.onCage k f).planes = s.planes := rfl
@[simp] theorem State.onCage_tiles (s : State) (k : Nat) (f : Cage → Cage) : (s.onCage k f).tiles = s.tiles := rfl
@[simp] theorem State.onCage_loads (s : State) (k : Nat) (f : Cage → Cage) : (s.onCage k f).loads = s.loads := rfl
@[simp] theorem State.onCage_nextLoad (s : State) (k : Nat) (f : Cage → Cage) : (s.onCage k f).nextLoad = s.nextLoad := rfl
@[simp] theorem State.onCage_ctxs (s : State) (k : Nat) (f : Cage → Cage) : (s.onCage k f).ctxs = s.ctxs := rfl
@[simp] theorem State.onCage_creams (s : State) (k : Nat) (f : Cage → Cage) : (s.onCage k f).creams = s.creams := rfl
@[simp] theorem State.onCage_hbm (s : State) (k : Nat) (f : Cage → Cage) : (s.onCage k f).hbm = s.hbm := rfl
@[simp] theorem State.onCage_fab (s : State) (k : Nat) (f : Cage → Cage) : (s.onCage k f).fab = s.fab := rfl
@[simp] theorem State.onCage_churn (s : State) (k : Nat) (f : Cage → Cage) : (s.onCage k f).churn = s.churn := rfl
@[simp] theorem State.onCage_rings (s : State) (k : Nat) (f : Cage → Cage) : (s.onCage k f).rings = s.rings := rfl
@[simp] theorem State.onCage_sepPeriod (s : State) (k : Nat) (f : Cage → Cage) : (s.onCage k f).sepPeriod = s.sepPeriod := rfl
@[simp] theorem State.onCage_engines (s : State) (k : Nat) (f : Cage → Cage) : (s.onCage k f).engines = s.engines := rfl
@[simp] theorem State.onCage_lnk (s : State) (k : Nat) (f : Cage → Cage) : (s.onCage k f).lnk = s.lnk := rfl
@[simp] theorem State.onCage_pwr (s : State) (k : Nat) (f : Cage → Cage) : (s.onCage k f).pwr = s.pwr := rfl
@[simp] theorem State.onCage_thm (s : State) (k : Nat) (f : Cage → Cage) : (s.onCage k f).thm = s.thm := rfl
@[simp] theorem State.onCage_eth (s : State) (k : Nat) (f : Cage → Cage) : (s.onCage k f).eth = s.eth := rfl
@[simp] theorem State.onCage_kcp (s : State) (k : Nat) (f : Cage → Cage) : (s.onCage k f).kcp = s.kcp := rfl
@[simp] theorem State.onCage_err (s : State) (k : Nat) (f : Cage → Cage) : (s.onCage k f).err = s.err := rfl
@[simp] theorem State.onCage_mc (s : State) (k : Nat) (f : Cage → Cage) : (s.onCage k f).mc = s.mc := rfl
@[simp] theorem State.onCage_svc (s : State) (k : Nat) (f : Cage → Cage) : (s.onCage k f).svc = s.svc := rfl
@[simp] theorem State.onCage_free (s : State) (k : Nat) (f : Cage → Cage) : (s.onCage k f).free = s.free := rfl
@[simp] theorem State.onCage_pending (s : State) (k : Nat) (f : Cage → Cage) : (s.onCage k f).pending = s.pending := rfl
theorem State.onCage_cage (s : State) (k j : Nat) (f : Cage → Cage) :
    (s.onCage k f).cage j = if j = k then f (s.cage k) else s.cage j := Tbl.look_upd _ _ _ _ _
@[simp] theorem State.onCage_cage_same (s : State) (k : Nat) (f : Cage → Cage) : (s.onCage k f).cage k = f (s.cage k) :=
  Tbl.look_upd_same _ _ _ _

/-! ## State.onSector -/

@[simp] theorem State.onSector_board (s : State) (k : Nat) (f : Sector → Sector) : (s.onSector k f).board = s.board := rfl
@[simp] theorem State.onSector_inv (s : State) (k : Nat) (f : Sector → Sector) : (s.onSector k f).inv = s.inv := rfl
@[simp] theorem State.onSector_fuses (s : State) (k : Nat) (f : Sector → Sector) : (s.onSector k f).fuses = s.fuses := rfl
@[simp] theorem State.onSector_fru (s : State) (k : Nat) (f : Sector → Sector) : (s.onSector k f).fru = s.fru := rfl
@[simp] theorem State.onSector_clk (s : State) (k : Nat) (f : Sector → Sector) : (s.onSector k f).clk = s.clk := rfl
@[simp] theorem State.onSector_vats (s : State) (k : Nat) (f : Sector → Sector) : (s.onSector k f).vats = s.vats := rfl
@[simp] theorem State.onSector_planes (s : State) (k : Nat) (f : Sector → Sector) : (s.onSector k f).planes = s.planes := rfl
@[simp] theorem State.onSector_tiles (s : State) (k : Nat) (f : Sector → Sector) : (s.onSector k f).tiles = s.tiles := rfl
@[simp] theorem State.onSector_loads (s : State) (k : Nat) (f : Sector → Sector) : (s.onSector k f).loads = s.loads := rfl
@[simp] theorem State.onSector_nextLoad (s : State) (k : Nat) (f : Sector → Sector) : (s.onSector k f).nextLoad = s.nextLoad := rfl
@[simp] theorem State.onSector_ctxs (s : State) (k : Nat) (f : Sector → Sector) : (s.onSector k f).ctxs = s.ctxs := rfl
@[simp] theorem State.onSector_creams (s : State) (k : Nat) (f : Sector → Sector) : (s.onSector k f).creams = s.creams := rfl
@[simp] theorem State.onSector_hbm (s : State) (k : Nat) (f : Sector → Sector) : (s.onSector k f).hbm = s.hbm := rfl
@[simp] theorem State.onSector_fab (s : State) (k : Nat) (f : Sector → Sector) : (s.onSector k f).fab = s.fab := rfl
@[simp] theorem State.onSector_churn (s : State) (k : Nat) (f : Sector → Sector) : (s.onSector k f).churn = s.churn := rfl
@[simp] theorem State.onSector_rings (s : State) (k : Nat) (f : Sector → Sector) : (s.onSector k f).rings = s.rings := rfl
@[simp] theorem State.onSector_sepPeriod (s : State) (k : Nat) (f : Sector → Sector) : (s.onSector k f).sepPeriod = s.sepPeriod := rfl
@[simp] theorem State.onSector_engines (s : State) (k : Nat) (f : Sector → Sector) : (s.onSector k f).engines = s.engines := rfl
@[simp] theorem State.onSector_lnk (s : State) (k : Nat) (f : Sector → Sector) : (s.onSector k f).lnk = s.lnk := rfl
@[simp] theorem State.onSector_pwr (s : State) (k : Nat) (f : Sector → Sector) : (s.onSector k f).pwr = s.pwr := rfl
@[simp] theorem State.onSector_thm (s : State) (k : Nat) (f : Sector → Sector) : (s.onSector k f).thm = s.thm := rfl
@[simp] theorem State.onSector_eth (s : State) (k : Nat) (f : Sector → Sector) : (s.onSector k f).eth = s.eth := rfl
@[simp] theorem State.onSector_kcp (s : State) (k : Nat) (f : Sector → Sector) : (s.onSector k f).kcp = s.kcp := rfl
@[simp] theorem State.onSector_err (s : State) (k : Nat) (f : Sector → Sector) : (s.onSector k f).err = s.err := rfl
@[simp] theorem State.onSector_mc (s : State) (k : Nat) (f : Sector → Sector) : (s.onSector k f).mc = s.mc := rfl
@[simp] theorem State.onSector_svc (s : State) (k : Nat) (f : Sector → Sector) : (s.onSector k f).svc = s.svc := rfl
@[simp] theorem State.onSector_free (s : State) (k : Nat) (f : Sector → Sector) : (s.onSector k f).free = s.free := rfl
@[simp] theorem State.onSector_pending (s : State) (k : Nat) (f : Sector → Sector) : (s.onSector k f).pending = s.pending := rfl
theorem State.onSector_sector (s : State) (k j : Nat) (f : Sector → Sector) :
    (s.onSector k f).sector j = if j = k then f (s.sector k) else s.sector j := Tbl.look_upd _ _ _ _ _
@[simp] theorem State.onSector_sector_same (s : State) (k : Nat) (f : Sector → Sector) : (s.onSector k f).sector k = f (s.sector k) :=
  Tbl.look_upd_same _ _ _ _

/-! ## State.onQp -/

@[simp] theorem State.onQp_board (s : State) (k : Nat) (f : Qp → Qp) : (s.onQp k f).board = s.board := rfl
@[simp] theorem State.onQp_inv (s : State) (k : Nat) (f : Qp → Qp) : (s.onQp k f).inv = s.inv := rfl
@[simp] theorem State.onQp_fuses (s : State) (k : Nat) (f : Qp → Qp) : (s.onQp k f).fuses = s.fuses := rfl
@[simp] theorem State.onQp_fru (s : State) (k : Nat) (f : Qp → Qp) : (s.onQp k f).fru = s.fru := rfl
@[simp] theorem State.onQp_clk (s : State) (k : Nat) (f : Qp → Qp) : (s.onQp k f).clk = s.clk := rfl
@[simp] theorem State.onQp_vats (s : State) (k : Nat) (f : Qp → Qp) : (s.onQp k f).vats = s.vats := rfl
@[simp] theorem State.onQp_planes (s : State) (k : Nat) (f : Qp → Qp) : (s.onQp k f).planes = s.planes := rfl
@[simp] theorem State.onQp_tiles (s : State) (k : Nat) (f : Qp → Qp) : (s.onQp k f).tiles = s.tiles := rfl
@[simp] theorem State.onQp_loads (s : State) (k : Nat) (f : Qp → Qp) : (s.onQp k f).loads = s.loads := rfl
@[simp] theorem State.onQp_nextLoad (s : State) (k : Nat) (f : Qp → Qp) : (s.onQp k f).nextLoad = s.nextLoad := rfl
@[simp] theorem State.onQp_ctxs (s : State) (k : Nat) (f : Qp → Qp) : (s.onQp k f).ctxs = s.ctxs := rfl
@[simp] theorem State.onQp_creams (s : State) (k : Nat) (f : Qp → Qp) : (s.onQp k f).creams = s.creams := rfl
@[simp] theorem State.onQp_hbm (s : State) (k : Nat) (f : Qp → Qp) : (s.onQp k f).hbm = s.hbm := rfl
@[simp] theorem State.onQp_fab (s : State) (k : Nat) (f : Qp → Qp) : (s.onQp k f).fab = s.fab := rfl
@[simp] theorem State.onQp_churn (s : State) (k : Nat) (f : Qp → Qp) : (s.onQp k f).churn = s.churn := rfl
@[simp] theorem State.onQp_rings (s : State) (k : Nat) (f : Qp → Qp) : (s.onQp k f).rings = s.rings := rfl
@[simp] theorem State.onQp_sepPeriod (s : State) (k : Nat) (f : Qp → Qp) : (s.onQp k f).sepPeriod = s.sepPeriod := rfl
@[simp] theorem State.onQp_engines (s : State) (k : Nat) (f : Qp → Qp) : (s.onQp k f).engines = s.engines := rfl
@[simp] theorem State.onQp_lnk (s : State) (k : Nat) (f : Qp → Qp) : (s.onQp k f).lnk = s.lnk := rfl
@[simp] theorem State.onQp_las (s : State) (k : Nat) (f : Qp → Qp) : (s.onQp k f).las = s.las := rfl
@[simp] theorem State.onQp_pwr (s : State) (k : Nat) (f : Qp → Qp) : (s.onQp k f).pwr = s.pwr := rfl
@[simp] theorem State.onQp_thm (s : State) (k : Nat) (f : Qp → Qp) : (s.onQp k f).thm = s.thm := rfl
@[simp] theorem State.onQp_kcp (s : State) (k : Nat) (f : Qp → Qp) : (s.onQp k f).kcp = s.kcp := rfl
@[simp] theorem State.onQp_err (s : State) (k : Nat) (f : Qp → Qp) : (s.onQp k f).err = s.err := rfl
@[simp] theorem State.onQp_mc (s : State) (k : Nat) (f : Qp → Qp) : (s.onQp k f).mc = s.mc := rfl
@[simp] theorem State.onQp_svc (s : State) (k : Nat) (f : Qp → Qp) : (s.onQp k f).svc = s.svc := rfl
@[simp] theorem State.onQp_free (s : State) (k : Nat) (f : Qp → Qp) : (s.onQp k f).free = s.free := rfl
@[simp] theorem State.onQp_pending (s : State) (k : Nat) (f : Qp → Qp) : (s.onQp k f).pending = s.pending := rfl
theorem State.onQp_qp (s : State) (k j : Nat) (f : Qp → Qp) :
    (s.onQp k f).qp j = if j = k then f (s.qp k) else s.qp j := Tbl.look_upd _ _ _ _ _
@[simp] theorem State.onQp_qp_same (s : State) (k : Nat) (f : Qp → Qp) : (s.onQp k f).qp k = f (s.qp k) :=
  Tbl.look_upd_same _ _ _ _

/-! ## State.onSession -/

@[simp] theorem State.onSession_board (s : State) (k : Nat) (f : Session → Session) : (s.onSession k f).board = s.board := rfl
@[simp] theorem State.onSession_inv (s : State) (k : Nat) (f : Session → Session) : (s.onSession k f).inv = s.inv := rfl
@[simp] theorem State.onSession_fuses (s : State) (k : Nat) (f : Session → Session) : (s.onSession k f).fuses = s.fuses := rfl
@[simp] theorem State.onSession_fru (s : State) (k : Nat) (f : Session → Session) : (s.onSession k f).fru = s.fru := rfl
@[simp] theorem State.onSession_clk (s : State) (k : Nat) (f : Session → Session) : (s.onSession k f).clk = s.clk := rfl
@[simp] theorem State.onSession_vats (s : State) (k : Nat) (f : Session → Session) : (s.onSession k f).vats = s.vats := rfl
@[simp] theorem State.onSession_planes (s : State) (k : Nat) (f : Session → Session) : (s.onSession k f).planes = s.planes := rfl
@[simp] theorem State.onSession_tiles (s : State) (k : Nat) (f : Session → Session) : (s.onSession k f).tiles = s.tiles := rfl
@[simp] theorem State.onSession_loads (s : State) (k : Nat) (f : Session → Session) : (s.onSession k f).loads = s.loads := rfl
@[simp] theorem State.onSession_nextLoad (s : State) (k : Nat) (f : Session → Session) : (s.onSession k f).nextLoad = s.nextLoad := rfl
@[simp] theorem State.onSession_ctxs (s : State) (k : Nat) (f : Session → Session) : (s.onSession k f).ctxs = s.ctxs := rfl
@[simp] theorem State.onSession_creams (s : State) (k : Nat) (f : Session → Session) : (s.onSession k f).creams = s.creams := rfl
@[simp] theorem State.onSession_hbm (s : State) (k : Nat) (f : Session → Session) : (s.onSession k f).hbm = s.hbm := rfl
@[simp] theorem State.onSession_fab (s : State) (k : Nat) (f : Session → Session) : (s.onSession k f).fab = s.fab := rfl
@[simp] theorem State.onSession_churn (s : State) (k : Nat) (f : Session → Session) : (s.onSession k f).churn = s.churn := rfl
@[simp] theorem State.onSession_rings (s : State) (k : Nat) (f : Session → Session) : (s.onSession k f).rings = s.rings := rfl
@[simp] theorem State.onSession_sepPeriod (s : State) (k : Nat) (f : Session → Session) : (s.onSession k f).sepPeriod = s.sepPeriod := rfl
@[simp] theorem State.onSession_engines (s : State) (k : Nat) (f : Session → Session) : (s.onSession k f).engines = s.engines := rfl
@[simp] theorem State.onSession_lnk (s : State) (k : Nat) (f : Session → Session) : (s.onSession k f).lnk = s.lnk := rfl
@[simp] theorem State.onSession_las (s : State) (k : Nat) (f : Session → Session) : (s.onSession k f).las = s.las := rfl
@[simp] theorem State.onSession_pwr (s : State) (k : Nat) (f : Session → Session) : (s.onSession k f).pwr = s.pwr := rfl
@[simp] theorem State.onSession_thm (s : State) (k : Nat) (f : Session → Session) : (s.onSession k f).thm = s.thm := rfl
@[simp] theorem State.onSession_eth (s : State) (k : Nat) (f : Session → Session) : (s.onSession k f).eth = s.eth := rfl
@[simp] theorem State.onSession_err (s : State) (k : Nat) (f : Session → Session) : (s.onSession k f).err = s.err := rfl
@[simp] theorem State.onSession_mc (s : State) (k : Nat) (f : Session → Session) : (s.onSession k f).mc = s.mc := rfl
@[simp] theorem State.onSession_svc (s : State) (k : Nat) (f : Session → Session) : (s.onSession k f).svc = s.svc := rfl
@[simp] theorem State.onSession_free (s : State) (k : Nat) (f : Session → Session) : (s.onSession k f).free = s.free := rfl
@[simp] theorem State.onSession_pending (s : State) (k : Nat) (f : Session → Session) : (s.onSession k f).pending = s.pending := rfl
theorem State.onSession_session (s : State) (k j : Nat) (f : Session → Session) :
    (s.onSession k f).session j = if j = k then f (s.session k) else s.session j := Tbl.look_upd _ _ _ _ _
@[simp] theorem State.onSession_session_same (s : State) (k : Nat) (f : Session → Session) : (s.onSession k f).session k = f (s.session k) :=
  Tbl.look_upd_same _ _ _ _

/-! ## State.onTile -/

@[simp] theorem State.onTile_board (s : State) (v t : Nat) (f : Tile → Tile) : (s.onTile v t f).board = s.board := rfl
@[simp] theorem State.onTile_inv (s : State) (v t : Nat) (f : Tile → Tile) : (s.onTile v t f).inv = s.inv := rfl
@[simp] theorem State.onTile_fuses (s : State) (v t : Nat) (f : Tile → Tile) : (s.onTile v t f).fuses = s.fuses := rfl
@[simp] theorem State.onTile_fru (s : State) (v t : Nat) (f : Tile → Tile) : (s.onTile v t f).fru = s.fru := rfl
@[simp] theorem State.onTile_clk (s : State) (v t : Nat) (f : Tile → Tile) : (s.onTile v t f).clk = s.clk := rfl
@[simp] theorem State.onTile_vats (s : State) (v t : Nat) (f : Tile → Tile) : (s.onTile v t f).vats = s.vats := rfl
@[simp] theorem State.onTile_planes (s : State) (v t : Nat) (f : Tile → Tile) : (s.onTile v t f).planes = s.planes := rfl
@[simp] theorem State.onTile_loads (s : State) (v t : Nat) (f : Tile → Tile) : (s.onTile v t f).loads = s.loads := rfl
@[simp] theorem State.onTile_nextLoad (s : State) (v t : Nat) (f : Tile → Tile) : (s.onTile v t f).nextLoad = s.nextLoad := rfl
@[simp] theorem State.onTile_ctxs (s : State) (v t : Nat) (f : Tile → Tile) : (s.onTile v t f).ctxs = s.ctxs := rfl
@[simp] theorem State.onTile_creams (s : State) (v t : Nat) (f : Tile → Tile) : (s.onTile v t f).creams = s.creams := rfl
@[simp] theorem State.onTile_hbm (s : State) (v t : Nat) (f : Tile → Tile) : (s.onTile v t f).hbm = s.hbm := rfl
@[simp] theorem State.onTile_fab (s : State) (v t : Nat) (f : Tile → Tile) : (s.onTile v t f).fab = s.fab := rfl
@[simp] theorem State.onTile_churn (s : State) (v t : Nat) (f : Tile → Tile) : (s.onTile v t f).churn = s.churn := rfl
@[simp] theorem State.onTile_rings (s : State) (v t : Nat) (f : Tile → Tile) : (s.onTile v t f).rings = s.rings := rfl
@[simp] theorem State.onTile_sepPeriod (s : State) (v t : Nat) (f : Tile → Tile) : (s.onTile v t f).sepPeriod = s.sepPeriod := rfl
@[simp] theorem State.onTile_engines (s : State) (v t : Nat) (f : Tile → Tile) : (s.onTile v t f).engines = s.engines := rfl
@[simp] theorem State.onTile_lnk (s : State) (v t : Nat) (f : Tile → Tile) : (s.onTile v t f).lnk = s.lnk := rfl
@[simp] theorem State.onTile_las (s : State) (v t : Nat) (f : Tile → Tile) : (s.onTile v t f).las = s.las := rfl
@[simp] theorem State.onTile_pwr (s : State) (v t : Nat) (f : Tile → Tile) : (s.onTile v t f).pwr = s.pwr := rfl
@[simp] theorem State.onTile_thm (s : State) (v t : Nat) (f : Tile → Tile) : (s.onTile v t f).thm = s.thm := rfl
@[simp] theorem State.onTile_eth (s : State) (v t : Nat) (f : Tile → Tile) : (s.onTile v t f).eth = s.eth := rfl
@[simp] theorem State.onTile_kcp (s : State) (v t : Nat) (f : Tile → Tile) : (s.onTile v t f).kcp = s.kcp := rfl
@[simp] theorem State.onTile_err (s : State) (v t : Nat) (f : Tile → Tile) : (s.onTile v t f).err = s.err := rfl
@[simp] theorem State.onTile_mc (s : State) (v t : Nat) (f : Tile → Tile) : (s.onTile v t f).mc = s.mc := rfl
@[simp] theorem State.onTile_svc (s : State) (v t : Nat) (f : Tile → Tile) : (s.onTile v t f).svc = s.svc := rfl
@[simp] theorem State.onTile_free (s : State) (v t : Nat) (f : Tile → Tile) : (s.onTile v t f).free = s.free := rfl
@[simp] theorem State.onTile_pending (s : State) (v t : Nat) (f : Tile → Tile) : (s.onTile v t f).pending = s.pending := rfl
@[simp] theorem State.onTile_tile_same (s : State) (v t : Nat) (f : Tile → Tile) : (s.onTile v t f).tile v t = f (s.tile v t) :=
  Tbl.look_upd_same _ _ _ _

/-! ## State.takeFree, State.setByte -/

@[simp] theorem State.takeFree_board (s : State) : s.takeFree.2.board = s.board := rfl
@[simp] theorem State.takeFree_inv (s : State) : s.takeFree.2.inv = s.inv := rfl
@[simp] theorem State.takeFree_fuses (s : State) : s.takeFree.2.fuses = s.fuses := rfl
@[simp] theorem State.takeFree_fru (s : State) : s.takeFree.2.fru = s.fru := rfl
@[simp] theorem State.takeFree_clk (s : State) : s.takeFree.2.clk = s.clk := rfl
@[simp] theorem State.takeFree_vats (s : State) : s.takeFree.2.vats = s.vats := rfl
@[simp] theorem State.takeFree_planes (s : State) : s.takeFree.2.planes = s.planes := rfl
@[simp] theorem State.takeFree_tiles (s : State) : s.takeFree.2.tiles = s.tiles := rfl
@[simp] theorem State.takeFree_loads (s : State) : s.takeFree.2.loads = s.loads := rfl
@[simp] theorem State.takeFree_nextLoad (s : State) : s.takeFree.2.nextLoad = s.nextLoad := rfl
@[simp] theorem State.takeFree_ctxs (s : State) : s.takeFree.2.ctxs = s.ctxs := rfl
@[simp] theorem State.takeFree_creams (s : State) : s.takeFree.2.creams = s.creams := rfl
@[simp] theorem State.takeFree_hbm (s : State) : s.takeFree.2.hbm = s.hbm := rfl
@[simp] theorem State.takeFree_fab (s : State) : s.takeFree.2.fab = s.fab := rfl
@[simp] theorem State.takeFree_churn (s : State) : s.takeFree.2.churn = s.churn := rfl
@[simp] theorem State.takeFree_rings (s : State) : s.takeFree.2.rings = s.rings := rfl
@[simp] theorem State.takeFree_sepPeriod (s : State) : s.takeFree.2.sepPeriod = s.sepPeriod := rfl
@[simp] theorem State.takeFree_engines (s : State) : s.takeFree.2.engines = s.engines := rfl
@[simp] theorem State.takeFree_lnk (s : State) : s.takeFree.2.lnk = s.lnk := rfl
@[simp] theorem State.takeFree_las (s : State) : s.takeFree.2.las = s.las := rfl
@[simp] theorem State.takeFree_pwr (s : State) : s.takeFree.2.pwr = s.pwr := rfl
@[simp] theorem State.takeFree_thm (s : State) : s.takeFree.2.thm = s.thm := rfl
@[simp] theorem State.takeFree_eth (s : State) : s.takeFree.2.eth = s.eth := rfl
@[simp] theorem State.takeFree_kcp (s : State) : s.takeFree.2.kcp = s.kcp := rfl
@[simp] theorem State.takeFree_err (s : State) : s.takeFree.2.err = s.err := rfl
@[simp] theorem State.takeFree_mc (s : State) : s.takeFree.2.mc = s.mc := rfl
@[simp] theorem State.takeFree_svc (s : State) : s.takeFree.2.svc = s.svc := rfl
@[simp] theorem State.takeFree_pending (s : State) : s.takeFree.2.pending = s.pending := rfl
@[simp] theorem State.takeFree_fst (s : State) : s.takeFree.1 = s.free := rfl
@[simp] theorem State.setByte_board (s : State) (a : Nat) (b : Byte) : (s.setByte a b).board = s.board := rfl
@[simp] theorem State.setByte_inv (s : State) (a : Nat) (b : Byte) : (s.setByte a b).inv = s.inv := rfl
@[simp] theorem State.setByte_fuses (s : State) (a : Nat) (b : Byte) : (s.setByte a b).fuses = s.fuses := rfl
@[simp] theorem State.setByte_fru (s : State) (a : Nat) (b : Byte) : (s.setByte a b).fru = s.fru := rfl
@[simp] theorem State.setByte_clk (s : State) (a : Nat) (b : Byte) : (s.setByte a b).clk = s.clk := rfl
@[simp] theorem State.setByte_vats (s : State) (a : Nat) (b : Byte) : (s.setByte a b).vats = s.vats := rfl
@[simp] theorem State.setByte_planes (s : State) (a : Nat) (b : Byte) : (s.setByte a b).planes = s.planes := rfl
@[simp] theorem State.setByte_tiles (s : State) (a : Nat) (b : Byte) : (s.setByte a b).tiles = s.tiles := rfl
@[simp] theorem State.setByte_loads (s : State) (a : Nat) (b : Byte) : (s.setByte a b).loads = s.loads := rfl
@[simp] theorem State.setByte_nextLoad (s : State) (a : Nat) (b : Byte) : (s.setByte a b).nextLoad = s.nextLoad := rfl
@[simp] theorem State.setByte_ctxs (s : State) (a : Nat) (b : Byte) : (s.setByte a b).ctxs = s.ctxs := rfl
@[simp] theorem State.setByte_creams (s : State) (a : Nat) (b : Byte) : (s.setByte a b).creams = s.creams := rfl
@[simp] theorem State.setByte_hbm (s : State) (a : Nat) (b : Byte) : (s.setByte a b).hbm = s.hbm := rfl
@[simp] theorem State.setByte_churn (s : State) (a : Nat) (b : Byte) : (s.setByte a b).churn = s.churn := rfl
@[simp] theorem State.setByte_rings (s : State) (a : Nat) (b : Byte) : (s.setByte a b).rings = s.rings := rfl
@[simp] theorem State.setByte_sepPeriod (s : State) (a : Nat) (b : Byte) : (s.setByte a b).sepPeriod = s.sepPeriod := rfl
@[simp] theorem State.setByte_engines (s : State) (a : Nat) (b : Byte) : (s.setByte a b).engines = s.engines := rfl
@[simp] theorem State.setByte_lnk (s : State) (a : Nat) (b : Byte) : (s.setByte a b).lnk = s.lnk := rfl
@[simp] theorem State.setByte_las (s : State) (a : Nat) (b : Byte) : (s.setByte a b).las = s.las := rfl
@[simp] theorem State.setByte_pwr (s : State) (a : Nat) (b : Byte) : (s.setByte a b).pwr = s.pwr := rfl
@[simp] theorem State.setByte_thm (s : State) (a : Nat) (b : Byte) : (s.setByte a b).thm = s.thm := rfl
@[simp] theorem State.setByte_eth (s : State) (a : Nat) (b : Byte) : (s.setByte a b).eth = s.eth := rfl
@[simp] theorem State.setByte_kcp (s : State) (a : Nat) (b : Byte) : (s.setByte a b).kcp = s.kcp := rfl
@[simp] theorem State.setByte_err (s : State) (a : Nat) (b : Byte) : (s.setByte a b).err = s.err := rfl
@[simp] theorem State.setByte_mc (s : State) (a : Nat) (b : Byte) : (s.setByte a b).mc = s.mc := rfl
@[simp] theorem State.setByte_svc (s : State) (a : Nat) (b : Byte) : (s.setByte a b).svc = s.svc := rfl
@[simp] theorem State.setByte_free (s : State) (a : Nat) (b : Byte) : (s.setByte a b).free = s.free := rfl
@[simp] theorem State.setByte_pending (s : State) (a : Nat) (b : Byte) : (s.setByte a b).pending = s.pending := rfl

end Sys2Proof.Machine
end

