-- ==== Sys2Proof/Laws/Shared.lean ====
section
/-! SUPPORT. What the shared operations can do. Sending cells, writing records, raising notifications, answering requests and
faulting a context rewrite only what State.besidesSent leaves out; the work list of a command with nothing on it does nothing. -/

namespace Sys2Proof.Machine

/-- The state without what sending and reporting rewrite: the cells on their way with their operations and tags, the links'
queues and credits, the sessions and notifications, the host port, the error unit, the contexts and the service logic. -/
def State.besidesSent (s : State) : State :=
  { s with
    fab := { s.fab with flight := [], held := [], ops := [], nextTag := [] }
    lnk := { s.lnk with links := [], credit := [] }
    kcp := State.reset.kcp
    eth := State.reset.eth
    err := State.reset.err
    ctxs := []
    svc := State.reset.svc }

/-! ## What follows from keeping the rest -/

section
variable {s t : State} (h : t.besidesSent = s.besidesSent)
include h

theorem State.mem_of_besidesSent : t.fab.mem = s.fab.mem := congrArg (fun x => x.fab.mem) h
theorem State.byteAt_of_besidesSent (a : Nat) : t.byteAt a = s.byteAt a := by
  unfold State.byteAt; rw [State.mem_of_besidesSent h]
theorem State.vats_of_besidesSent : t.vats = s.vats := congrArg (fun x => x.vats) h
theorem State.planes_of_besidesSent : t.planes = s.planes := congrArg (fun x => x.planes) h
theorem State.tiles_of_besidesSent : t.tiles = s.tiles := congrArg (fun x => x.tiles) h
theorem State.clk_of_besidesSent : t.clk = s.clk := congrArg (fun x => x.clk) h
theorem State.pwr_of_besidesSent : t.pwr = s.pwr := congrArg (fun x => x.pwr) h
theorem State.mc_of_besidesSent : t.mc = s.mc := congrArg (fun x => x.mc) h
theorem State.pending_of_besidesSent : t.pending = s.pending := congrArg (fun x => x.pending) h

end

theorem State.besidesSent_ite (c : Prop) [Decidable c] (a b : State) :
    (if c then a else b).besidesSent = if c then a.besidesSent else b.besidesSent := apply_ite _ _ _ _

theorem State.besidesSent_foldl {α : Type} (f : State → α → State) (h : ∀ a x, (f a x).besidesSent = a.besidesSent)
    (l : List α) (s : State) : (l.foldl f s).besidesSent = s.besidesSent := by
  induction l generalizing s with
  | nil => rfl
  | cons x l ih => rw [List.foldl_cons, ih, h]

/-! ## Sending -/

@[simp] theorem State.besidesSent_fly (s : State) (c : Cell) : (s.fly c).besidesSent = s.besidesSent := rfl
@[simp] theorem State.besidesSent_sendLink (s : State) (l : Nat) (c : Cell) : (s.sendLink l c).besidesSent = s.besidesSent := rfl

@[simp] theorem State.besidesSent_spray (s : State) (d : Nat) (js : List Nat) : (s.spray d js).2.besidesSent = s.besidesSent := by
  unfold State.spray
  dsimp only
  split <;> rfl

@[simp] theorem State.besidesSent_launch (s : State) (c : Cell) : (s.launch c).besidesSent = s.besidesSent := by
  unfold State.launch
  dsimp only
  split
  · split <;> rfl
  · split
    · rfl
    · have h := State.besidesSent_spray s c.dpkg (s.activeEntries c.dpkg)
      split
      · rename_i j s1 e
        rw [e] at h
        exact h
      · rename_i s1 e
        rw [e] at h
        split
        · rw [State.besidesSent_foldl State.fly (fun _ _ => rfl)]; exact h
        · exact h

@[simp] theorem State.besidesSent_launchAll (s : State) (cs : List Cell) : (s.launchAll cs).besidesSent = s.besidesSent :=
  State.besidesSent_foldl _ State.besidesSent_launch cs s

@[simp] theorem State.besidesSent_takeTag (s : State) (p : Nat) : (s.takeTag p).2.besidesSent = s.besidesSent := rfl

@[simp] theorem State.besidesSent_sendMsg (s : State) (i : Issuer) (d p m : Nat) (b : List Byte) :
    (s.sendMsg i d p m b).besidesSent = s.besidesSent := by
  unfold State.sendMsg
  exact State.besidesSent_launchAll _ _

/-! ## Records, notifications and replies -/

@[simp] theorem State.besidesSent_hostSend (s : State) (x : HostTx) : (s.hostSend x).besidesSent = s.besidesSent := by
  unfold State.hostSend
  split <;> rfl

@[simp] theorem State.besidesSent_onSession (s : State) (k : Nat) (f : Session → Session) :
    (s.onSession k f).besidesSent = s.besidesSent := rfl

@[simp] theorem State.besidesSent_onCtx (s : State) (c : Nat) (f : Ctx → Ctx) : (s.onCtx c f).besidesSent = s.besidesSent := rfl

@[simp] theorem State.besidesSent_sealTo (s : State) (k : Nat) (m : List Byte) : (s.sealTo k m).besidesSent = s.besidesSent := by
  unfold State.sealTo
  dsimp only
  split
  · rfl
  · split
    · rfl
    · rw [State.besidesSent_hostSend]; rfl

@[simp] theorem State.besidesSent_sendNotification (s : State) (n : Notification) :
    (s.sendNotification n).besidesSent = s.besidesSent := by
  unfold State.sendNotification
  dsimp only
  rw [State.besidesSent_foldl, State.besidesSent_foldl]
  · intro a k; split <;> simp
  · intro a x; split <;> simp

@[simp] theorem State.besidesSent_addNotification (s : State) (o : W16) (p : List Byte) :
    (s.addNotification o p).2.besidesSent = s.besidesSent := by
  unfold State.addNotification
  exact State.besidesSent_sendNotification _ _

@[simp] theorem State.besidesSent_pushRecord (s : State) (r : ErrRec) : (s.pushRecord r).besidesSent = s.besidesSent := rfl

/-- A record outside any handling only enters the ring. -/
theorem State.note_err (s : State) (code : W16) (sev : Severity) (u : W16) (d : List W64) (c : Option Nat) :
    s.note code sev u d c = { s with err := (s.note code sev u d c).err } := rfl

@[simp] theorem State.besidesSent_note (s : State) (code : W16) (sev : Severity) (u : W16) (d : List W64) (c : Option Nat) :
    (s.note code sev u d c).besidesSent = s.besidesSent := rfl

@[simp] theorem State.besidesSent_notify (s : State) (o : W16) (p : List Byte) : (s.notify o p).besidesSent = s.besidesSent := by
  unfold State.notify
  have h := State.besidesSent_addNotification s o p
  split
  · rename_i s1 e; rw [e] at h; exact h
  · rename_i s1 e; rw [e] at h; exact h

@[simp] theorem State.besidesSent_notifyService (s : State) (r : Nat) : (s.notifyService r).besidesSent = s.besidesSent :=
  State.besidesSent_notify _ _ _

/-- Starting a handling leaves its work to the end of the command. -/
theorem State.begin_err (s : State) (sc : Scope) (t : Todo) (q : W64) : s.begin sc t q = { s with err := (s.begin sc t q).err } := rfl

@[simp] theorem State.besidesSent_begin (s : State) (sc : Scope) (t : Todo) (q : W64) :
    (s.begin sc t q).besidesSent = s.besidesSent := rfl

@[simp] theorem State.besidesSent_announce (s : State) (r : ErrRec) : (s.announce r).besidesSent = s.besidesSent := by
  unfold State.announce
  split
  · rfl
  · dsimp only
    rw [State.besidesSent_notify]
    split <;> split <;> rfl

@[simp] theorem State.besidesSent_record (s : State) (code : W16) (sev : Severity) (u : W16) (c : Option Nat) (d : List W64)
    (st : Option Scope) (dg rm : Bool) (td : Option Todo) : (s.record code sev u c d st dg rm td).besidesSent = s.besidesSent := by
  have put : ∀ r : ErrRec, (if 2 ≤ sev.code then s.announce r else s.pushRecord r).besidesSent = s.besidesSent := by
    intro r; split <;> simp
  unfold State.record
  dsimp only
  split
  · split
    · split
      · rw [State.besidesSent_begin, put]
      · exact put _
    · split
      · rw [State.besidesSent_begin, put]
      · exact put _
  · split
    · exact put _
    · split
      · rw [State.besidesSent_begin, put]
      · exact put _

@[simp] theorem State.besidesSent_reply (s : State) (src : KcpSrc) (q : W32) (o : W16) (st : Nat) (p : List Byte) (m : Bool) :
    (s.reply src q o st p m).besidesSent = s.besidesSent := by
  unfold State.reply
  dsimp only
  split
  · rw [State.besidesSent_sealTo]; rfl
  · rw [State.besidesSent_sendMsg]; rfl

@[simp] theorem State.besidesSent_ctxFault (s : State) (c : Nat) (code u : W16) (d : List W64) (sev : Severity) (dg rm : Bool)
    (st : Option Scope) : (s.ctxFault c code u d sev dg rm st).besidesSent = s.besidesSent := by
  unfold State.ctxFault
  split
  · rfl
  · split
    · simp
    · rfl
  · dsimp only
    rw [State.besidesSent_record]; rfl

/-! ## The end of a command -/

/-- With no work called for, the end of a command does nothing. -/
theorem State.finish_of_todo_nil (s : State) (h : s.err.todo = []) : s.finish = s := by
  unfold State.finish
  rw [State.drainTodo]
  split
  · rfl
  · rename_i t ts e; rw [h] at e; cases e

/-- Work on the list is done oldest first. -/
theorem State.drainTodo_cons (n : Nat) (s : State) (t : Todo) (ts : List Todo) (h : s.err.todo = t :: ts) :
    State.drainTodo (n + 1) s = State.drainTodo n (State.doTodo { s with err := { s.err with todo := ts } } t) := by
  rw [State.drainTodo]
  split
  · rename_i e; rw [h] at e; cases e
  · rename_i a as e; rw [h] at e; cases e; rfl

end Sys2Proof.Machine
end

