-- ==== Sys2Proof/Tests/Slice0.lean ====
section
/-! SUPPORT. Tests: an ill-formed command for each check of WellFormed.lean, the manual's worked examples and the published vectors of
the standards it names, and for each statement of Certificates/Slice0/Obligations.lean states and operands that meet its hypotheses
together, clause by clause. -/

namespace Sys2Proof.Tests
open Sys2Proof Sys2Proof.Machine

/-! ## Ill-formed commands -/

theorem test_wf_load_zero_extends_no_doubleword : Instr.wf (.seqLoad 0 1 2 0 3 true) = false := by decide
theorem test_wf_cell_carries_its_opcode : Instr.wf (.ld { hdr := 0, payload := 0 }) = false ∧ Instr.wf (.abort { hdr := 0, payload := 0 }) = false := by decide
theorem test_wf_dip_code_has_16_bits : Instr.wf (.acquisitionComplete 0 [{ code := 65536, amps := [] }]) = false := by decide
theorem test_wf_group_has_8_cells : Instr.wf (.linkGroupReceive 0 0 true (List.replicate 9 { hdr := 0, payload := 0 })) = false := by decide
theorem test_wf_notice_has_32_bytes : Instr.wf (.linkStateNotice 1 []) = false := by decide
theorem test_wf_acceptance_has_32_powers : Instr.wf (.acceptanceComplete 0 { failedStep := none, powers := [], serial := 0 }) = false := by decide
theorem test_wf_line_sample_has_32_powers : Instr.wf (.linePowerSample 0 []) = false := by decide
theorem test_wf_sensor_is_in_place :
    Instr.wf (.thermalSample [{ region := .field 1, sensor := 2, value := 40 }]) = false ∧
    Instr.wf (.sensorSelfCheck [(.stack 0, 4)]) = false ∧ Instr.wf (.sensorSelfCheck [(.cage 0, 1)]) = false := by decide
theorem test_wf_finish_signature : Instr.wf (.finishH 1 []) = false := by decide
theorem test_wf_unlock_key_and_signature : Instr.wf (.unlockResponse (List.replicate 133 0) []) = false ∧
    Instr.wf (.unlockResponse [] (List.replicate 132 0)) = false := by decide +kernel

/-! ## Worked examples (03, 06, 10) and published vectors (FIPS 180-4, FIPS 197, the GCM paper's case 13) -/

theorem test_log8_products : log8Product 0x5C 0xB0 = .fin true 0xB504F3 (-22) ∧ log8Product 0x21 0x38 = .fin false 0x8B95C2 (-28) := by decide
theorem test_fp32_to_e4m3 :
    toElem 5 false .rne (ofFp32 0x3E99999A) = (0x2A, fNX) ∧ toElem 5 false .rne (ofFp32 0x43960000) = (0x79, fNX) ∧
    toElem 5 false .rne (ofFp32 0x43E60000) = (0x7E, fNX) ∧ toElem 5 false .rne (ofFp32 0x43EB0000) = (0x7E, fSAT ||| fNX) ∧
    toElem 5 true .rne (ofFp32 0x43EB0000) = (0x7F, fOF ||| fNX) ∧ toElem 5 false .rne (ofFp32 0xBA9D4952) = (0x81, fUF ||| fNX) := by decide +kernel
theorem test_partial_sums_in_two_orders :
    (laneAdd (laneAdd 0x4B800000 0x3F800000).1 0x3F800000).1 = 0x4B800000 ∧
    (laneAdd (laneAdd 0x3F800000 0x3F800000).1 0x4B800000).1 = 0x4B800001 := by decide
theorem test_hbm_place_one_address : hbmPseudo 0 0x012345678900 = 936 ∧ hbmIndex 0x012345678900 = 0x2468AC := by decide
theorem test_hbm_colliding_stride : hbmPseudo 0 (0x80100 * 2) = 0 ∧ hbmPseudo 1 (0x80100 * 1) = 3 ∧ hbmPseudo 1 (0x80100 * 2) = 6 := by decide
theorem test_sha512_abc : beNat (sha512 (ascii "abc")) =
    0xddaf35a193617abacc417349ae20413112e6fa4e89a97ea20a9eeee64b55d39a2192992a274fc1a836ba3c23a3feebbd454d4423643ce80e2a9ac94fa54ca49f := by
  decide +kernel
theorem test_aes256_block : beNat (aesBlock (aesKeys ((List.range 32).map (BitVec.ofNat 8))) (beBytes 16 0x00112233445566778899aabbccddeeff)) =
    0x8ea2b7ca516745bfeafc49904b496089 := by decide +kernel
theorem test_gcm_empty : beNat (gcmSeal (List.replicate 32 0) (List.replicate 12 0) [] []) = 0x530f8afbc74536b9a963b4f1c4cb738b := by
  decide +kernel

/-! ## States and operands of the witnesses -/

/-- Contexts, vats and units with a few fields set. -/
def tReady : State :=
  { State.reset with
    board := { inputOn := true, rails := true, pwrOk := true },
    inv := { vatMap := 0xFFFFFFFF, cdMap := 0xFF, creamMap := 0xFFFF, iod := true, stackMap := 0xFFFFFFFF },
    clk := { locked := true, refValid := true, now := 1000000000 },
    mc := { State.reset.mc with step := 8, state := .ready, mcbReady := true, mcaReady := true } }

/-- Context 5 in the active plane of vat 2. -/
def tCtx (st : CtxLife) (r : RunState) : State :=
  { tReady with
    vats := [(2, { run := r, freqNow := 40 })]
    planes := [(4, { ctx := some 5, issuing := st.runs, entry := 0x100, initSp := 0x8000 })]
    ctxs := [(5, { state := st, group := 7, resident := true, vat := 2 })] }

def tRun : State := tCtx .running .run

/-- A monitor that serves, unlocked. -/
def tMon : State := { tRun with svc := { State.reset.svc with unlocked := true } }

def tRecovery : State := { tReady with mc := { State.reset.mc with step := 3, state := .recovery, mcbReady := true } }

/-- Bring-up in step n. -/
def tBoot (n : BitVec 4) : State := { tReady with mc := { State.reset.mc with step := n, mcbReady := true } }

/-- Session k open. -/
def tOpen (s : State) (k : Nat) : State := s.onSession k fun n => { n with isOpen := true, id := 1, recordMax := 1400 }

/-- A key and a signature of the unlock message under it: with r = t = H(m), the signed point is the sum of the base point and the
key, so the key is the point with x-coordinate H(m) less the base point. -/
def tKey : List Byte := p521Encode (some
  (0x1e4d8afed2187fa2159be8533ae3b61fd0cbe3bb2dbaea5b1440b9b277357d898e9d02fd182ad62fd94d1235f8344cbe632dcaf21c62b97b9d38f357c1306257667,
   0xefe561ec5400217da82caaf7092852037f9d15c1c55fe4263ff885f548333f7ff3bdb4a554fd6949c4972aeb6575c43861418c10249ef1053688fa1221859ab4ea))

def tSig : List Byte := beBytes 66
  0xbd333bdf22185c2943b407bcc971aa5984ac9eeb57a96f9e581d6d4fda9fc730941f22f30642df1838ee60d74349b6a8516e2f0b886d918a037a0ac8a3a197e ++ beBytes 66
  0xbd333bdf22185c2943b407bcc971aa5984ac9eeb57a96f9e581d6d4fda9fc730941f22f30642df1838ee60d74349b6a8516e2f0b886d918a037a0ac8a3a197e

def tObs : StepObs := { refValid := true, flashError := false, failedStacks := [], columnFails := [], seamLost := [], controlLost := [],
                        bundlesLost := [], creamFails := [], mcbOk := true }

/-- A staged configuration record. -/
def tCfg : Staging := { isCfg := true, total := 256, bytes := [(0, 0x56), (1, 0x4C), (2, 0x56), (3, 0x47), (4, 1)] }

/-- An ABORT of group 7 from context 5. -/
def tAbortCell : Cell := { hdr := 0, payload := 0x02050007 }

/-- The same for the transcript hash 0 and the device signature [2]. -/
def tKey2 : List Byte := p521Encode (some
  (0x18049f1d0cc043ec08e6a45d8476869dcb8106d84e79fa9a9553623cd64e356b7e99a858f901141ffff5ade63147abe5768e4a8dac5a48981c0d4765d97e7722215,
   0x7dd850d236e9c231c9cc1dcb9ad1598371fb03be1e3628061006f22836f8270ac09860443282f674e27ad19d87c13b478eab7df5ed0da191a1bb6cd4e0ad6fc0fc))

def tSig2 : List Byte := beBytes 66
  0x5c7385c2a6857aff8f7f5e8ab5aa30bc8297034eb38a35d2b886c354bd82e86e8439ca0eeb802358efb999c375a24e881e11c39e2feabdbe86f4dcd28b83fccb ++ beBytes 66
  0x5c7385c2a6857aff8f7f5e8ab5aa30bc8297034eb38a35d2b886c354bd82e86e8439ca0eeb802358efb999c375a24e881e11c39e2feabdbe86f4dcd28b83fccb

def tHand : State :=
  { tReady with
    fru := { State.reset.fru with hostKeys := [digestOf tKey2] }
    kcp := { State.reset.kcp with
      sessions := [(7, { handshake := true, id := 9, hostKey := tKey2, devSig := [2], devScalar := 1, hostEph := p521Encode p521G })] } }

/-- A HELLO_H body with the base point as both keys. -/
def tHello : List Byte := p521Encode p521G ++ List.replicate 32 0 ++ [5, 0] ++ p521Encode p521G

/-- A DATA record of session id 1 under the zero key, with sequence number 2. -/
def tRecord (m : List Byte) : List Byte :=
  recordHeader 4 1 2 ++ gcmSeal (beBytes 32 0) (gcmNonce 0 2) (recordHeader 4 1 2) m

/-- Context 5 running, its plane as the test sets it. Register 1 holds the first address of sequencer memory and register 2 the
context address 0x48; segment 0 is cream die 0, readable and writable. -/
def tSeq (f : Plane → Plane) : State :=
  ({ tRun with fab := { State.reset.fab with seg := [(2560, 2 ^ 104 + 2 ^ 105 + 2 ^ 106 + 0x7FFFFFFF * 2 ^ 64 + 0x020000000000)] } } : State).onPlane 4
    fun x => f { x with x := [(1, 0xFFFFFFFFFFFC0000), (2, 0x48), (3, 0x1122334455667788), (6, 0xFFFFFFFFFFFC0004)], pc := 0xFFFFFFFFFFFC0100 }

/-- The same with a word of code at the pc. -/
def tCode (w : Nat) : State := tSeq fun x => x.memWrite 0xFFFFFFFFFFFC0100 4 w

/-- A load descriptor of two iterations of one cell, DEPTH 2, at entry 0, then the end. -/
def tDesc : BitVec 512 :=
  BitVec.ofNat 512 (1 * 2 ^ 160 + 1 * 2 ^ 176 + 2 * 2 ^ 288 + 2 * 2 ^ 325 + 0xFFFF * 2 ^ 352 + 0xFFFF * 2 ^ 368)

def tLadle (l : Ladle) : State := tSeq fun x => { x with desc := [(0, tDesc)], descCount := 1, ladles := [(1, l)], x := [(1, 1), (2, 0)] }

/-- Tile 3 of vat 2 at bundle 239 of its program, which is b; its window is its whole tile store. -/
def tTile (b : Nat) (f : Tile → Tile) : State :=
  (tRun.onPlane 4 fun x => { x with params := [(64 * 3 + 1, 0x100)], bundles := [(240 * 3 + 239, BitVec.ofNat 128 b)] }).onTile 2 3
    fun _ => f { busy := true, bundle := 239, entry := 239, itersLeft := 1, cycle := 50, regs := [(4, some 0xFFFFFFFF)] }

/-- A store, and a load, of 128 bytes of register 5 at the last address of the window. -/
def tStore : Nat := 2 * 2 ^ 54 + 5 * 2 ^ 45 + 0x3FFC * 2 ^ 31 + 3 * 2 ^ 29
def tLoad : Nat := tStore - 2 ^ 54

/-- An INT8 repeat into INT32 entries. -/
def tMac : MacPending := { land := 49, set := 1, zero := false, mode := 0x1AA, a := 0, b := 0, step := 0, sa := 0, sb := 0 }

/-- A cell within package 0 to a port, from a port, of class 1 and context 5 with tag 9. -/
def tCell (op dport sport frag payload : Nat) : Cell :=
  { hdr := mkHdr 0 dport 0 sport op 1 5 9 frag, payload := BitVec.ofNat 512 payload }

/-- A request for one cell at an address, of kind k, with its mask or operand. -/
def tReqCell (op a k x : Nat) : Cell := tCell op 1 5 0 (a + k * 2 ^ 64 + x * 2 ^ 128)

/-- The tile store of tile 3 of vat 2 with one request, and cream die 0 with one. -/
def tTs (r : TReq) : State :=
  { tTile 0 id with fab := { State.reset.fab with tileReq := [(1024 * 2 + 3, [r])], mem := [(0x030040180001, 0x5A)] } }
def tCr (r : TReq) : State :=
  { tRun with
    creams := [(0, { mode := .active })]
    fab := { State.reset.fab with creamQ := [(0, [r])], mem := [(0x020000000041, 0x5A)] } }

/-- An outstanding sequencer load of context 5. -/
def tOp (i : Issuer) : Op := { port := 1, tag := 9, ctx := 5, issuer := i, addr := 0, cells := [tReqCell opLD 0x020000000000 1 0] }
def tOps (o : Op) (c : Cell) : State := { tRun with fab := { State.reset.fab with ops := [o], flight := [c] } }

def tLoadRow : Load :=
  { id := 4, src := .session 0, req := 9, image := 0, shift := 2, targets := [{ vat := 31, ctx := 63, plane := false }] }

/-- A load from package 3. -/
def tFar : Cell := { hdr := mkHdr 0 1 3 5 opLD 1 5 9 0, payload := BitVec.ofNat 512 (0x030000000000 + 2 ^ 64) }

/-- Context 5 with a Separator ring in tile 0 of its vat and one job posted: a RAW job of one vector with matrix 3. -/
def tSep (f : Engine → Engine) : State :=
  let b : Nat := 0x030040000000
  (({ tRun.onPlane 4 (fun x => { x with params := [(1, 0x100)] }) with
      fab := { State.reset.fab with mem := [(b, 1), (b + 65, 1), (b + 77, 2), (b + 80, 64), (b + 88, 1), (b + 96, 3)] } } : State).onCtx 5
    fun c => { c with sepRing := 0x2000, matrices := [{ id := 3, codes := List.replicate 4096 0 }] }).onEngine 1
    fun _ => f { posted := [(5, some 1)] }

/-- Its descriptor. -/
def tJob : BitVec 512 := BitVec.ofNat 512 (2 ^ 8 + 2 * 2 ^ 104 + 64 * 2 ^ 128 + 2 ^ 192 + 3 * 2 ^ 256)
def tJobBytes : List Byte := leBytes 64 tJob.toNat
def tHead : List Byte := 1 :: List.replicate 11 0

def tRing (e : Nat) (r : Ring) : State := { tReady with rings := { State.reset.rings with built := true, table := [(e, r)] } }

/-- HBM stack 31 running with one request at pseudo-channel 2047, whose granule 0 is at 0x7FF00. -/
def tHbm (q : List TReq) : State :=
  { tRun with
    hbm := { State.reset.hbm with running := true, stackTbl := [(31, { mode := .run })] }
    fab := { State.reset.fab with hbmQ := (if q = [] then [] else [(2047, q)]), mem := [(0x7FF01, 0x5A)] } }

def tLink (k : Link) : State := { tReady with lnk := { State.reset.lnk with links := [(63, k)] } }

def tTrain : TrainObs := { usable := 0xFF, peerPkg := 7, peerLink := 5, peerSerial := 9, rttNs := 1400 }

/-- The light controller running, with cages m and sectors as given. -/
def tLas (cages : Tbl Cage) (sectors : Tbl Sector) : State :=
  { tReady with
    board := { inputOn := true, rails := true, pwrOk := true, las12v := true }
    inv := { State.reset.inv with cages := 0xFFFFF, vatMap := 0xFFFFFFFF }
    las := { State.reset.las with cages := cages, sectors := sectors } }

def tSwap (p : SwapPhase) (k : SwapKind) : State :=
  tLas [(15, { mode := .active, lit := true }), (16, { mode := .standby, lit := true })]
    [(15, { source := some 15, swap := some { kind := k, source := 15, target := 16, phase := p } })]

def tQueue (k : SwapKind) : State :=
  let s := tLas [(15, { mode := .active, lit := true }), (16, { mode := .standby, lit := true })] [(15, { source := some 15 })]
  { s with las := { s.las with queue := [{ sector := 15, kind := k, source := 15 }] } }

/-- Queue pair 1023 ready for context 5 on segment 0, which the host may use, with the host port up. -/
def tQp (q : Qp) : State :=
  { tRun with
    clk := { tRun.clk with dieLock := 0x1FF }
    fab := { State.reset.fab with seg := [(2560, 2 ^ 104 + 2 ^ 105 + 2 ^ 106 + 2 ^ 108 + 0x7FFFFFFF * 2 ^ 64 + 0x020000000000)] }
    eth := { State.reset.eth with mode := .up, speed := 1, signal := 0xFF, qps := [(1023, q)] } }

def tReadyQp : Qp := { state := .ready, ctx := 5, rkey := 7, slotSize := 1, slots := 4 }

def tMsg : QpMsg :=
  { id := 3, psn := 9, isRead := false, isSend := false, length := 4, addr := 0, left := 0, issued := true, data := [], got := [],
    fails := [], sent := 0, worst := .ok 0 }

def tAccept : AcceptObs := { failedStep := none, powers := List.replicate 32 1000, serial := 77 }

def tS0 : State := ({ State.reset with board.tripWait := true } : State)
def tS1 : State := ({ State.reset with board.inputOn := true, board.resetN := false } : State)
def tS2 : State := ({ State.reset with pwr.energyFrac := 9999 } : State)
def tS3 : State := ({ State.reset with pwr.samples := List.replicate 100 1400001 } : State)
def tS4 : State := ({ tReady with pwr.state := .grace } : State)
def tS5 : State := ({ State.reset with pwr.state := .grace, pwr.samples := List.replicate 10 1400001 } : State)
def tS6 : State := ({ State.reset with pwr.cap := 33, pwr.samples := List.replicate 10 1400001 } : State)
def tS7 : State := ({ State.reset with pwr.state := .release, pwr.cap := 78 } : State)
def tS8 : State := ({ State.reset with pwr.state := .release, pwr.cap := 79 } : State)
def tS9 : State := ({ State.reset with pwr.lugA := true, pwr.lugB := true } : State)
def tS10 : State := ({ State.reset with pwr.lugA := true } : State)
def tS11 : State := ({ tReady with thm.sensors := [(8, { value := 110, seen := true })] } : State)
def tS12 : State := ({ tReady with thm.vatLevel := [(3, 2)] } : State)
def tS13 : State := ({ State.reset with thm.trip := true } : State)
def tS14 : State := ({ tReady with thm.trip := true, thm.source := 5 } : State)
def tS15 : State := ({ tReady with creams := [(15, { mode := .active })] } : State)
def tS16 : State := ({ tReady with vats := [(0, { run := .run, freqNow := 32, fixed := true, freq := some 32 })] } : State)
def tS17 : State := ({ tReady with vats := [(31, { run := .run, freqNow := 80, fixed := true, freq := some 80 })] } : State)
def tS18 : State := ({ tReady with vats := [(0, { run := .run, freqNow := 40 })] } : State)
def tS19 : State := ({ tReady with vats := [(0, { run := .run, freqNow := 40, lastStretch := some 5, cycles := 1028 })] } : State)
def tS20 : State := ({ tReady with vats := [(0, { run := .run, freqNow := 32, lastStretch := some 5, cycles := 5, fallbackCap := some 32 })] } :
  State)
def tS21 : State := ({ tReady with vats := [(7, { fallbackCap := some 40 })] } : State)
def tS22 : State := ({ tReady with clk.source := .reverting } : State)
def tS23 : State := ({ tReady with clk.source := .holdover } : State)
def tS24 : State := ({ State.reset with pending := [.dump, .leakDetect] } : State)
def tS25 : State := ({ State.reset with svc.btnDown := true } : State)
def tS26 : State := ({ tReady with svc.btnDown := true } : State)
def tS27 : State := ({ tReady with svc.standby := true, svc.draining := true, vats := [(2, { run := .idle }), (5, { run := .run })] } : State)
def tS28 : State := ({ tReady with svc.standby := true, mc.state := .standby } : State)
def tS29 : State := ({ State.reset with svc.identTimer := true } : State)
def tS30 : State := ({ State.reset with svc.unlocked := true } : State)
def tS31 : State := ({ State.reset with board.resetN := false } : State)
def tS32 : State := ({ tReady with svc.following := true } : State)
def tS33 : State := ({ tReady with mc.mgmtReset := true } : State)
def tS34 : State := ({ tMon with creams := [(0, { mode := .active })] } : State)
def tS35 : State := ({ tMon with err.dump.valid := true, err.dump.bytes := [1] } : State)
def tS36 : State := ({ tMon with ctxs := [(5, { state := .loaded, resident := true, vat := 2 })], vats := [(2, { run := .idle })] } : State)
def tS37 : State := ({ tMon with ctxs := [(5, { state := .paused, resident := true, vat := 2 })], vats := [(2, { run := .idle })] } : State)
def tS38 : State := ({ tReady with svc.challenge := some ([1], 0), fru.hostKeys := [digestOf tKey] } : State)
def tS39 : State := tBoot 1
def tS40 : State := tBoot 4
def tS41 : State := tBoot 7
def tS42 : State := ({ tReady with mc.fwVerified := true, mc.raiseSvn := true, mc.svn := 127, fuses.svnMin := 126 } : State)
def tS43 : State := ({ tReady with mc.svn := 4, fuses.svnMin := 4 } : State)
def tS44 : State := ({ tRecovery with mc.staging := some { isCfg := false, total := 67 } } : State)
def tS45 : State := ({ tRecovery with mc.staging := some tCfg } : State)
def tS46 : State := ({ tRecovery with mc.staging := some tCfg, mc.committing := some (.session 0, 9, true) } : State)
def tS47 : State := ({ tReady with mc.handover := true, mc.journalCmd := 5 } : State)
def tS48 : State := ({ tReady with mc.handover := true, mc.journalSessions := [(7, { isOpen := true, txSeq := 4 })] } : State)
def tS49 : State := ({ tReady with mc.owner := true } : State)
def tS50 : State := ({ tReady with inv.vatColumn := 0x80000000, inv.vatMap := 0 } : State)
def tS51 : State := ({ tReady with inv.vatMap := 0x7FFFFFFF } : State)
def tS52 : State := ({ tReady with err.resets := [(.vat 31, 5)], vats := [(31, { run := .reset })] } : State)
def tS53 : State := ({ tReady with err.handlings := [{ scope := .compute, seq := 3 }] } : State)
def tS54 : State := ({ tReady with err.handlings := [{ scope := .vat 31, seq := 7 }] } : State)
def tS55 : State := ({ tReady with err.dump.busy := true } : State)
def tS56 : State := ({ tReady with err.dump.valid := true } : State)
def tS57 : State :=
  ({ tReady with err.dump.busy := true, err.dump.plan := [(unitVat 31, 2)], err.dump.entries := 4094, err.dump.size := 1000, err.dump.misses := 3 } :
  State)
def tS58 : State :=
  ({ tReady with err.dump.busy := true, err.dump.plan := [(unitVat 31, 2)], err.dump.entries := 4094, err.dump.size := 1000, err.dump.misses := 2 } :
  State)
def tS59 : State := ({ State.reset with err.dump.valid := true } : State)
def tS60 : State := tOpen tReady 7
def tS61 : State := tOpen tRun 7
def tS62 : State := tOpen (tCtx .loaded .idle) 0
def tS63 : State := tOpen tRun 0
def tS64 : State := tOpen (tRun.onVat 2 fun x => { x with plane := true }) 0
def tS65 : State := (tCtx .draining .run).onCtx 5 fun x => { x with drained := true }
def tS66 : State := ({ tRun with fab.ops := [{ port := 1, tag := 0, ctx := 5, issuer := .seqStore 2 false, addr := 0, cells := [] }] } : State)
def tS67 : State := tRun.onCtx 5 fun x => { x with ending := true }
def tS68 : State := ((tCtx .faulted .run).onCtx 5 fun x => { x with stopping := true })
def tS69 : State := tRun.onCtx 5 fun x => { x with resetting := true }
def tS70 : State := (tOpen tRun 6).onCtx 5 fun x => { x with resetting := true, state := .faulted, destroyAfter := [some (.session 6, 9)] }
def tS71 : State := ({ tRun with fab.filters := [(3, 5)] } : State)
def tS72 : State := tRun.onCtx 5 fun x => { x with remoteHold := true }
def tS73 : State := (tCtx .running .idle).onPlane 4 (fun x => { x with ckpt := some { pc := 0x40 } }) |>.onVat 2 fun x =>
  { x with suspects := [5, 9] }
def tS74 : State := (tOpen tRun 0).onQp 1023 fun x => { x with state := .ready }
def tS75 : State := (tOpen ({ tRun with err.seqNext := 4096, err.ring := [(4095, { seq := 4095, code := 5 })] } : State) 0)
def tS76 : State := (tOpen tRun 0)
def tS77 : State := tOpen ({ tRun with err.dump.valid := true, err.dump.bytes := [1, 2, 3] } : State) 0
def tS78 : State := tOpen ({ tRun with mc.owner := true } : State) 0
def tS79 : State := tOpen ({ tRun with kcp.pending := [{ seq := 3, opcode := 1, payload := [] }, { seq := 4, opcode := 1, payload := [] }] } :
  State) 0
def tS80 : State := ({ tReady with eth.mode := .up, kcp.helloSecond := 1, kcp.helloCount := 15 } : State)
def tS81 : State := ({ tReady with eth.mode := .up, kcp.helloSecond := 1 } : State)
def tS82 : State :=
  ({ tReady with eth.mode := .up, kcp.helloSecond := 1, kcp.sessions := (List.range 8).map fun k => (k, { isOpen := true, id := 1 }) } : State)
def tS83 : State := ({ tReady with eth.mode := .up, kcp.helloSecond := 1, kcp.helloCount := 16 } : State)
def tS84 : State := ({ tHand with kcp.forwards := [{ slot := 7, req := 3, op := 1, target := 3 }] } : State)
def tS85 : State := tOpen ({ tReady with eth.mode := .up } : State) 7
def tS86 : State := tOpen ({ tReady with eth.mode := .up } : State) 0
def tS87 : State := tOpen (({ tReady with eth.mode := .up } : State).onSession 0 fun n =>
  { n with replies := [{ opcode := 1, flags := 1, req := 9, status := 0, payload := [], target := 0 }] }) 0
def tS88 : State := tOpen ({ tReady with kcp.forwards := [{ slot := 7, req := 9, op := 1, target := 63 }] } : State) 7
def tS89 : State := tSeq fun x => { x with seqMem := [(7, 0x80)] }
def tS90 : State := tSeq fun x => { x with x := [(1, 0xFFFFFFFFFFFC0008)] }
def tS91 : State := tSeq fun x => { x with x := [], seqMem := [(0x3FFFF, 0x80)] }
def tS92 : State := tSeq id
def tS93 : State := tSeq fun x => { x with resv := some (0xFFFFFFFFFFFC0000, 8) }
def tS94 : State := tSeq fun x => { x with x := [(1, 0x2001001F), (2, 15)] }
def tS95 : State := tSeq fun x => { x with x := [(1, 0x2002001F), (2, 15)] }
def tS96 : State := (tSeq fun x => { x with x := [(1, 0x2001001F), (2, 15)] }).onTile 2 3 fun x => { x with busy := true, handle := 15 }
def tS97 : State := tSeq fun x => { x with x := [(1, 0xFF0F)], groups := [(15, { rows := 1, cols := 1 })] }
def tS98 : State := tSeq fun x => { x with blocked := some (.trun 15 255 0xFFFFFFFF), groups := [(15, { row := 31, rows := 1, cols := 3 })] }
def tS99 : State := tSeq fun x => { x with blocked := some (.trun 15 255 0), groups := [(15, { row := 31, rows := 1, cols := 3 })] }
def tS100 : State := (tSeq fun x => { x with blocked := some (.trun 15 255 1), groups := [(15, { rows := 1, cols := 3 })] }).onTile 2 2 fun x =>
  { x with busy := true }
def tS101 : State := tSeq fun x => { x with x := [(1, 15)], newFlags := 0x8000, groups := [(15, { rows := 1, cols := 1 })] }
def tS102 : State := (tSeq fun x => { x with x := [(1, 15)], groups := [(15, { rows := 1, cols := 1 })] }).onTile 2 0 fun x =>
  { x with busy := true, handle := 15 }
def tS103 : State := tSeq fun x => { x with blocked := some (.twait 15 7) }
def tS104 : State := (tSeq fun x => { x with x := [(1, 1023)] }).onTile 2 1023 fun x => { x with busy := true, xflags0 := 5 }
def tS105 : State := tLadle {}
def tS106 : State := tLadle { running := true, next := some 0 }
def tS107 : State := tLadle
  { running := true, next := some 0, nextJ := 1, issued := 1, iters := [{ n := 0, id := 0, desc := 0, j := 0, sent := 1 }] }
def tS108 : State := tLadle
  { running := true, next := some 0, nextJ := 1, issued := 1, iters := [{ n := 0, id := 0, desc := 0, j := 0, sent := 1, cellsLeft := 1 }] }
def tS109 : State := (tLadle
  { running := true, next := some 0, nextJ := 1, issued := 1, iters := [{ n := 0, id := 0, desc := 0, j := 0, sent := 1 }] }).onPlane 4 fun x =>
  { x with blocked := some (.ldltake 1 7 false) }
def tS110 : State := tLadle
  { running := true, next := some 0, branch := some (0, 0), issued := 2, iters := [{ n := 1, id := 1, desc := 0, j := 0, sent := 1 }] }
def tS111 : State := tSeq fun x => { x with x := [(1, 0x1FF)], delayed := 0x101 }
def tS112 : State :=
  ({ (tSeq fun x => { x with x := [(1, 0x1FF)] }) with fab.ops := [{ port := 1, tag := 0, ctx := 5, issuer := .seqStore 2 false, addr := 0, cells := [] }] }
  : State)
def tS113 : State := tSeq fun x => { x with blocked := some (.ffence 0 7) }
def tS114 : State :=
  ({ (tSeq fun x => { x with blocked := some (.ffence 0x100 7) }) with fab.ops := [{ port := 1, tag := 0, ctx := 5, issuer := .seqStore 2 false, addr := 0, cells := [] }] }
  : State)
def tS115 : State := tSeq fun x => { x with x := [(10, 1)] }
def tS116 : State := tCode 0x00310133
def tS117 : State := tCode 0x40310033
def tS118 : State := tCode 0xFFF00393
def tS119 : State := tCode 0x0FF1F393
def tS120 : State := tCode 0x023103B3
def tS121 : State := tCode 0x0201D3B3
def tS122 : State := tCode 0x800003B7
def tS123 : State := tCode 0x00001397
def tS124 : State := tCode 0x008003EF
def tS125 : State := tCode 0x003083E7
def tS126 : State := tCode 0xFE310EE3
def tS127 : State := tCode 0xFE210EE3
def tS128 : State := tCode 0xFE316EE3
def tS129 : State := tCode 0x53FD
def tS130 : State := tCode 0x838E
def tS131 : State := tCode 0xFFF0500B
def tS132 : State := tSeq fun x => { x with pc := 0 }
def tS133 : State := tSeq fun x => { x with blocked := some (.boundary 4095) }
def tS134 : State := (({ tSeq (fun x => { x with blocked := some (.boundary 4095) }) with vats := [(2, { run := .run, arm := true })] } :
  State).onPlane 5 fun x => { x with ctx := some 9 }).onCtx 9 fun x => { x with state := .running, resident := true, vat := 2, plane := true }
def tS135 : State := (tSeq fun x => { x with blocked := some (.boundary 4095) }).onTile 2 1023 fun x => { x with busy := true }
def tS136 : State := tRun.onVat 2 fun x => { x with run := .swap }
def tS137 : State := ({ tRun with vats := [(31, { run := .idle, freqNow := 32 })] } : State)
def tS138 : State := ({ tRun with vats := [(31, { run := .gated, banksOn := true })] } : State)
def tS139 : State := ({ tRun with inv.vatMap := 0 } : State)
def tS140 : State := tTile 0 fun x => { x with busy := false, startAt := some (15, 7, 2, 50) }
def tS141 : State := tTile tStore id
def tS142 : State := ({ (tTile tLoad id) with fab.mem := [(0x030040000000 + 0x1FFF80, 7)] } : State)
def tS143 : State := tTile (2 ^ 127) id
def tS144 : State := tTile (2 ^ 121) id
def tS145 : State := tTile 0 fun x => { x with bundle := 240 }
def tS146 : State := tTile (tStore + 2 ^ 31) id
def tS147 : State := tTile (0x20 * 2 ^ 90 + 7 * 2 ^ 81 + 4 * 2 ^ 72 + 4 * 2 ^ 63) id
def tS148 : State := tTile (2 ^ 118) id
def tS149 : State := tTile 0 fun x => { x with vec := [{ land := 49, writes := [(511, 5, 4)], flags := 3 }] }
def tS150 : State := tTile 0 fun x => { x with mac := [tMac] }
def tS151 : State := tTile 0 id
def tS152 : State := tTile 0 fun x => { x with issuedAll := true, peakMa := 9 }
def tS153 : State := tTs { head := tReqCell opLD 0x030040180000 1 0, words := 1 }
def tS154 : State := tTs { head := tReqCell opST 0x030040180000 1 0xFFFFFFFFFFFFFFFE, frags := [(1, 0x112233)], words := 0 }
def tS155 : State := tTs { head := tReqCell opST 0x030040180000 1 0xFFFFFFFFFFFFFFFE, frags := [(1, 0x112233)], words := 1 }
def tS156 : State := tTs { head := tReqCell opATOM 0x030040180000 0 7 }
def tS157 : State := tTs { head := tReqCell opATOM 0x03004018003C 10 7 }
def tS158 : State :=
  ({ tRun with fab.tileResp := [(1024 * 2 + 3, [{ off := 0x7FFC0, data := 0x1234, port := 64, tag := 0, index := 0, ok := true }])] } : State)
def tS159 : State := tCr { head := tReqCell opLD 0x020000000040 1 0 }
def tS160 : State := tCr { head := tReqCell opST 0x020000000040 1 0x8000000000000001, frags := [(1, 0x112233)] }
def tS161 : State := ({ tRun with vats := [(31, { run := .idle, scrubAt := 16777215 })] } : State)
def tS162 : State := ({ tRun with creams := [(15, { mode := .active, scrubAt := 33554430 })] } : State)
def tS163 : State := ({ tRun with vats := [(31, { tsRetained := true })] } : State)
def tS164 : State := ({ tRun with vats := [(31, { run := .gated })] } : State)
def tS165 : State := ({ tRun with creams := [(15, { mode := .active, retEn := true })] } : State)
def tS166 : State := ({ tRun with creams := [(15, { mode := .retention, waking := true })] } : State)
def tS167 : State := ({ tRun with vats := [(31, { run := .gated, tsRetained := true, tsWaking := true })] } : State)
def tS168 : State := ({ tRun with creams := [(15, { mode := .active })] } : State)
def tS169 : State := tOpen ({ tRun with svc.standby := true } : State) 0
def tS170 : State := tOpen ({ tRun with vats := [(31, { run := .idle })] } : State) 0
def tS171 : State := tOpen ({ tRun with loads := [tLoadRow] } : State) 0
def tS172 : State := tOpen ({ tRun with loads := [{ tLoadRow with streaming := true, digest := 1 }] } : State) 0
def tS173 : State := tOpen ({ tRun with loads := [{ tLoadRow with streaming := true }] } : State) 0
def tS174 : State := ({ tRun with fab.flight := [tCell opDATA 1 5 0 0] } : State)
def tS175 : State := ({ tRun with fab.flight := [tCell opSOUR 1 5 0 0] } : State)
def tS176 : State := (tOps (tOp (.seqLoad 2 false 7 60 4 false)) (tCell opDATA 1 5 0 (2 ^ 512 - 1))).onPlane 4 fun x => { x with busy := 0x80 }
def tS177 : State := tOps (tOp (.seqStore 2 false)) (tCell opACK 1 5 0 0)
def tS178 : State := tOps (tOp (.seqLoad 2 false 7 60 4 false)) (tCell opSOUR 1 5 0x30 0)
def tS179 : State := tOps (tOp (.seqStore 2 false)) (tCell opNACKBUSY 1 5 0 0)
def tS180 : State := tOps { tOp (.seqStore 2 false) with waiting := true, backoffUs := 8 } (tCell 0 0 0 0 0)
def tS181 : State := tOps (tOp (.seqStore 2 false)) (tCell 0 0 0 0 0)
def tS182 : State := tOps (tOp .controller) (tCell opNACKREFUSED 1 5 0 0)
def tS183 : State := tOps { tOp .controller with heard := 1000000000 } (tCell 0 0 0 0 0)
def tS184 : State := tOps (tOp .controller) (tCell 0 0 0 0 0)
def tS185 : State := ({ tRun with fab.filters := [(0, 5)] } : State)
def tS186 : State := ({ tRun with fab.rxQuota := 1, fab.tileReq := [(0, [{ head := tFar }])] } : State)
def tS187 : State :=
  ({ (tTile 0 id) with fab.asm := [{ port := 1, pkg := 0, ctx := 5, sport := 5, tag := 9, head := some (tReqCell opST 0x030040180000 1 0) }] } :
  State)
def tS188 : State :=
  ({ (tTile 0 id) with fab.asm := [{ port := 1, pkg := 0, ctx := 5, sport := 5, tag := 9, head := some (tCell opMSG 1 5 0 (64 * 2 ^ 32)) }] } : State)
def tS189 : State := ({ tRun with fab.flight := [tCell 0x1F 1 5 0 0] } : State)
def tS190 : State := ({ tRun with fab.stopped := [(63, 3, true)] } : State)
def tS191 : State := tTs { head := tReqCell opLD 0x030040180000 1 0 }
def tS192 : State := ({ tRun with fab.noticed := [(1, 0x10000000000000)] } : State)
def tS193 : State := ({ tRun with fab.dark := 0x10000000000000 } : State)
def tS194 : State := ({ tRun with clk.locked := false } : State)
def tS195 : State := ({ tRun with churn.fails := [(0, 8)] } : State)
def tS196 : State := ({ (tRing 3 { state := .locked }) with churn.fails := [(0, 9)] } : State)
def tS197 : State := ({ tRun with churn.sent := [{ ctx := 63, port := 1, plan := { trigger := 2, isDefault := false, count := [] } }] } : State)
def tS198 : State :=
  ({ tRun with clk.now := 20440, churn.sent := [{ ctx := 63, port := 1, plan := { trigger := 2, isDefault := false, count := [] } }] } : State)
def tS199 : State :=
  ({ tRun with churn.sent := [{ ctx := 63, port := 1, plan := { trigger := 2, isDefault := false, count := [] } }], churn.pending := [{ ctx := 63, port := 1, plan := { trigger := 3, isDefault := false, count := [] } }] }
  : State)
def tS200 : State :=
  (({ tRun with churn.pending := [{ ctx := 5, port := 1, plan := { trigger := 2, isDefault := false, count := [0, 4] }, first := 5 }] } :
  State)).flexEvaluate 5
def tS201 : State :=
  ({ tRun with churn.pending := [{ ctx := 5, port := 1, plan := { trigger := 2, isDefault := false, count := [0, 4] }, first := 5 }] } : State)
def tS202 : State :=
  ({ tRun with churn.retunes := [{ port := 1, row := [0, 0, 2], moved := 1, req := { ctx := 5, port := 1, plan := { trigger := 2, isDefault := false, count := [] } }, bucket := 0 }] }
  : State)
def tS203 : State := ({ tRun with churn.owners := [(0, some 5), (3, some 6), (15, some 7)] } : State)
def tS204 : State := ({ tRun with inv.dieRetired := 0x80 } : State)
def tS205 : State := tRing 131071 { state := .locked }
def tS206 : State := tRing 0 { state := .verify, dac := 70, calCount := 65535 }
def tS207 : State := tRing 0 { state := .locked }
def tS208 : State := tRing 0 { state := .verify }
def tS209 : State := (tRing 0 { state := .locked, chan := 3, mislocks := [0, 0] }).onRing 2 fun r => { r with state := .cold, kind := kindTWIN }
def tS210 : State := tRing 0 { state := .acquire }
def tS211 : State := tRing 0 { state := .locked, dac := 9 }
def tS212 : State := tRing 0 { state := .hold, step := .suspended }
def tS213 : State := tRing 0 { state := .hold }
def tS214 : State := tRing 0 { state := .cold }
def tS215 : State := (tRing 0 { state := .locked, chan := 3 }).onRing 2 fun r => { r with state := .cold, kind := kindTWIN }
def tS216 : State := tRing 65536 { state := .hold }
def tS217 : State := tRing 0 {}
def tS218 : State := tRing 0 { state := .acquire, step := .fullAcquisition }
def tS219 : State := ({ tReady with rings.built := true, rings.table := (List.range 32).map fun e => (e, { state := .locked }) } : State)
def tS220 : State := tSep fun e => { e with posted := [] }
def tS221 : State := tSep fun e => { e with mode := .run }
def tS222 : State := (tSep id).onCtx 5 fun c => { c with matrices := [] }
def tS223 : State := (tSep id).setByte 0x030040000050 0
def tS224 : State := tSep fun e => { e with matValid := true, matCtx := 5, matId := 3 }
def tS225 : State := tSep id
def tS226 : State := tSep fun e => { e with mode := .reload }
def tS227 : State := tSep fun e => { e with mode := .reload, settling := true, want := some (5, 3) }
def tS228 : State := tSep fun e => { e with mode := .run, job := some { ctx := 5, index := 0, desc := tJob } }
def tS229 : State :=
  ({ (tSep fun e => { e with mode := .run, job := some { ctx := 5, index := 0, desc := tJob } }) with fab.bad := [(0x6008000020, true)] } : State)
def tS230 : State := (tSep id).setByte 0x030040000100 0x7F
def tS231 : State := ({ (tSep fun e => { e with matValid := true }) with rings.table := [(65536 + 8191, { state := .fault })] } : State)
def tS232 : State := tHbm []
def tS233 : State := tHbm [{ head := tReqCell opLD 0x7FF00 1 0 }]
def tS234 : State := tHbm [{ head := tReqCell opST 0x7FF00 1 0xFFFFFFFFFFFFFFFD, frags := [(1, 0x123456)] }]
def tS235 : State := tHbm [{ head := tReqCell opATOM 0x7FF38 6 5 }]
def tS236 : State := (tHbm []).onPseudo 2047 fun x => { x with buffer := [(0x7FF00, 77)] }
def tS237 : State := ({ (tHbm []) with hbm.scrubHeld := some 24 } : State)
def tS238 : State := ({ (tHbm []) with err.resets := [(.compute, 5)] } : State)
def tS239 : State := tLink {}
def tS240 : State := tLink { mode := .miscabled, miscable := 2 }
def tS241 : State := tLink { mode := .up }
def tS242 : State := tLink { mode := .training }
def tS243 : State := tLink { mode := .up, width := 8, replay := [(4, [tFar])] }
def tS244 : State := tLink { mode := .retrain, width := 8, replay := [(4, [tFar])] }
def tS245 : State := tLink { mode := .up, lanes := 0x80 }
def tS246 : State := tLink { mode := .retrain, everUp := true, peerPkg := 7, txSeq := 5, rxSeq := 6, width := 8, replay := [(4, [tFar])] }
def tS247 : State := tLink { mode := .up, width := 6 }
def tS248 : State := tLink { mode := .up, width := 8 }
def tS249 : State := tLink { mode := .training, width := 6 }
def tS250 : State := tLink { mode := .up, laneHeld := some 1 }
def tS251 : State := tLink { mode := .up, laneHeld := some 0xFF }
def tS252 : State := tLink { mode := .up, rxSeq := 4 }
def tS253 : State := tLink { mode := .up, rxSeq := 4095 }
def tS254 : State := tLink { replay := [(4, [tFar])] }
def tS255 : State := tLink { mode := .up, replay := [(4, [tFar]), (5, []), (6, [tFar])] }
def tS256 : State := tLink { mode := .up, replay := [(4, [tFar])] }
def tS257 : State := tLink { mode := .up, failSeq := 4, failRun := 7, replay := [(4, [tFar])] }
def tS258 : State := tLink { mode := .up, failSeq := 4, failRun := 8, replay := [(4, [tFar])] }
def tS259 : State := ({ (tLink { mode := .up, peerPkg := 7, width := 8 }) with lnk.routes := [(127, 0xF01FF)] } : State)
def tS260 : State := ({ (tLink {}) with lnk.notices := [(63, [0x88])] } : State)
def tS261 : State := tLink { mode := .up, peerPkg := 7, width := 8 }
def tS262 : State := ({ (tLink {}) with fab.asm := [{ port := 67, pkg := 63, ctx := 5, sport := 5, tag := 9 }] } : State)
def tS263 : State := tLas [] []
def tS264 : State := tLas [(19, { mode := .accepting, lit := true })] []
def tS265 : State := tLas [(19, { mode := .standby, lit := true })] []
def tS266 : State := tLas [(19, { mode := .standby, lit := true, level := 2 })] []
def tS267 : State := tLas [(15, { mode := .active, lit := true })] [(15, { source := some 15 })]
def tS268 : State := tLas [(19, { mode := .standby, lit := true, missed := 9 })] []
def tS269 : State := ({ (tLas [(15, { mode := .active, lit := true })] [(15, { source := some 15 })]) with inv.stackMap := 0xFFFFFFFF } : State)
def tS270 : State := tLas [(16, { mode := .standby, lit := true })] []
def tS271 : State := tQueue .scheduled
def tS272 : State := tQueue .emergency
def tS273 : State := ({ (tQueue .expedited) with las.cages := [(15, { mode := .active, lit := true })] } : State)
def tS274 : State := tSwap .verifying .expedited
def tS275 : State := tSwap .armed .ret
def tS276 : State := tSwap .verifying .ret
def tS277 : State := tSwap .crossfade .expedited
def tS278 : State := tSwap .confirming .emergency
def tS279 : State := tSwap .confirming .ret
def tS280 : State := tLas [(15, { mode := .active, lit := true }), (16, { mode := .standby, lit := true })] [(15, { source := some 15 })]
def tS281 : State := tLas [(19, { mode := .released, latchOpen := true })] []
def tS282 : State := tLas [(19, { mode := .standby, latchOpen := true })] []
def tS283 : State := tQp {}
def tS284 : State := ({ (tQp {}) with eth.mode := .down } : State)
def tS285 : State := ({ (tQp {}) with eth.mode := .training } : State)
def tS286 : State := tQp { state := .error }
def tS287 : State := tQp tReadyQp
def tS288 : State := ({ (tQp { tReadyQp with sendSeq := 5 }) with fab.mem := [(0x020000000000, 2)] } : State)
def tS289 : State := ({ (tQp { tReadyQp with sendSeq := 6 }) with fab.mem := [(0x020000000000, 2)] } : State)
def tS290 : State := tQp { tReadyQp with msgs := [tMsg] }
def tS291 : State := tQp { tReadyQp with msgs := [{ tMsg with fails := [(0, .sour .segment, 4)] }] }
def tS292 : State := tQp { rateShift := 3 }
def tS293 : State := (State.reset.elapse 1)

/-! ## Witnesses of the statements -/

theorem test_input_power_and_reset_pin_witness : ((.undervoltageTrip : Instr) = .undervoltageTrip ∨ (.undervoltageTrip : Instr) =
  .overvoltageTrip) ∧ ((.overvoltageTrip : Instr) = .undervoltageTrip ∨ (.overvoltageTrip : Instr) = .overvoltageTrip) ∧ tS0.board.tripWait = true
  ∧ State.reset.board.tripWait = false ∧ (tS1.board.inputOn = true ∧ tS1.board.resetN = false ∧ tS1.thm.trip = false) :=
  ⟨by decide, by decide, by decide, by decide, by decide⟩

theorem test_energy_and_power_controller_witness : (tS2.pwr.energyFrac < 10000 ∧ tS2.pwr.energy.toNat + (tS2.pwr.energyFrac + (0xFFFF :
  W16).toNat * ((511 : BitVec 9).toNat + (511 : BitVec 9).toNat)) / 10000 < 2 ^ 64) ∧ (tS3.pwr.state = .normal ∧ tS3.pwr.normalSince = none ∧
  meanAbove tS3.pwr.samples 100 tS3.effLimit 100 = true) ∧ (tS4.pwr.state = .grace ∧ meanAbove tS4.pwr.samples 100 tS4.effLimit 100 = false) ∧
  ((((.graceExpire : Instr) = .graceExpire ∧ tS5.pwr.state = .grace) ∨ (∃ pairB, (.graceExpire : Instr) = .lugOvercurrent pairB ∧ tS5.pwr.state ≠
  .enforce)) ∧ meanAbove tS5.pwr.samples 10 tS5.effLimit 100 = true ∧ tS5.pwr.cap ≠ 32) ∧ ((((.lugOvercurrent true : Instr) = .graceExpire ∧
  tS6.pwr.state = .grace) ∨ (∃ pairB, (.lugOvercurrent true : Instr) = .lugOvercurrent pairB ∧ tS6.pwr.state ≠ .enforce)) ∧ meanAbove
  tS6.pwr.samples 10 tS6.effLimit 100 = true ∧ tS6.pwr.cap ≠ 32) ∧ (tS7.pwr.state = .release ∧ tS7.pwr.cap ≠ 0 ∧ tS7.pwr.cap.toNat + 1 <
  tS7.fuses.variant.ceiling) ∧ (tS8.pwr.state = .release ∧ tS8.fuses.variant.ceiling ≤ tS8.pwr.cap.toNat + 1) :=
  ⟨by decide, by decide, by decide, by decide, by decide, by decide, by decide⟩

theorem test_power_limit_and_lugs_witness : (tS9.pwr.lugA = true ∧ tS9.pwr.lugB = true) :=
  by decide

theorem test_thermal_sensors_and_levels_witness : (tReady.err.todo = [] ∧ (tReady.sensor (31 : VatId).val (7 : Fin 8).val).broken = false ∧
  tReady.brokenIn (31 : VatId).val = 0 ∧ -10 ≤ (140 : Int) ∧ (140 : Int) ≤ 140 ∧ ((tReady.sensor (31 : VatId).val (7 : Fin 8).val).seen = true →
  (140 : Int) - (tReady.sensor (31 : VatId).val (7 : Fin 8).val).value ≤ 10 ∧ (tReady.sensor (31 : VatId).val (7 : Fin 8).val).value - (140 : Int)
  ≤ 10)) ∧ (tReady.err.todo = [] ∧ (tReady.sensor (0 : VatId).val (0 : Fin 8).val).broken = false ∧ tReady.brokenIn (0 : VatId).val = 0 ∧ -10 ≤
  (-10 : Int) ∧ (-10 : Int) ≤ 140 ∧ ((tReady.sensor (0 : VatId).val (0 : Fin 8).val).seen = true → (-10 : Int) - (tReady.sensor (0 : VatId).val (0
  : Fin 8).val).value ≤ 10 ∧ (tReady.sensor (0 : VatId).val (0 : Fin 8).val).value - (-10 : Int) ≤ 10)) ∧ (tS11.err.todo = [] ∧ (tS11.sensor (1 :
  VatId).val (0 : Fin 8).val).broken = false ∧ tS11.brokenIn (1 : VatId).val = 0 ∧ -10 ≤ (100 : Int) ∧ (100 : Int) ≤ 140 ∧ ((tS11.sensor (1 :
  VatId).val (0 : Fin 8).val).seen = true → (100 : Int) - (tS11.sensor (1 : VatId).val (0 : Fin 8).val).value ≤ 10 ∧ (tS11.sensor (1 : VatId).val
  (0 : Fin 8).val).value - (100 : Int) ≤ 10)) ∧ (tReady.err.todo = [] ∧ (tReady.sensor (31 : VatId).val (7 : Fin 8).val).broken = false ∧
  tReady.brokenIn (31 : VatId).val = 0 ∧ (((.thermalSample [{ region := .vat 31, sensor := 7, value := 141 }] : Instr) = .thermalSample
  [{ region := .vat (31 : VatId), sensor := (7 : Fin 8), value := (141 : Int) }] ∧ ((141 : Int) < -10 ∨ 140 < (141 : Int))) ∨ (.thermalSample
  [{ region := .vat 31, sensor := 7, value := 141 }] : Instr) = .sensorSelfCheck [(.vat (31 : VatId), (7 : Fin 8))])) ∧ (tReady.err.todo = [] ∧
  (tReady.sensor (0 : VatId).val (0 : Fin 8).val).broken = false ∧ tReady.brokenIn (0 : VatId).val = 0 ∧ (((.thermalSample
  [{ region := .vat 0, sensor := 0, value := -11 }] : Instr) = .thermalSample
  [{ region := .vat (0 : VatId), sensor := (0 : Fin 8), value := (-11 : Int) }] ∧ ((-11 : Int) < -10 ∨ 140 < (-11 : Int))) ∨ (.thermalSample
  [{ region := .vat 0, sensor := 0, value := -11 }] : Instr) = .sensorSelfCheck [(.vat (0 : VatId), (0 : Fin 8))])) ∧ (tReady.err.todo = [] ∧
  (tReady.sensor (2 : VatId).val (0 : Fin 8).val).broken = false ∧ tReady.brokenIn (2 : VatId).val = 0 ∧ (((.sensorSelfCheck [(.vat 2, 0)] : Instr)
  = .thermalSample [{ region := .vat (2 : VatId), sensor := (0 : Fin 8), value := (0 : Int) }] ∧ ((0 : Int) < -10 ∨ 140 < (0 : Int))) ∨
  (.sensorSelfCheck [(.vat 2, 0)] : Instr) = .sensorSelfCheck [(.vat (2 : VatId), (0 : Fin 8))])) :=
  ⟨by decide, by decide, by decide, by decide, by decide, by decide⟩

theorem test_latched_shutdown_witness : tReady.thm.trip = false ∧ tS13.thm.trip = true ∧ tS14.thm.trip = true :=
  ⟨by decide, by decide, by decide⟩

theorem test_cream_and_stack_temperatures_witness : ((tS15.cream (15 : HalfId).val).mode ≠ .reset ∧ (tS15.cream (15 : HalfId).val).mode ≠
  .retired) ∧ (tReady.stack (31 : StackId).val).mode ≠ .retired :=
  ⟨by decide, by decide⟩

theorem test_rails_and_ir_drop_witness : (tReady.err.todo = [] ∧ tReady.vatIn (31 : VatId).val = true ∧ (200 : Nat) ≤ 200 ∧
  (tReady.err.resets.any fun r => r.1 == .compute) = false) ∧ (tReady.err.todo = [] ∧ tReady.vatIn (0 : VatId).val = true ∧ (50 : Nat) ≤ 200 ∧
  (tReady.err.resets.any fun r => r.1 == .compute) = false) :=
  ⟨by decide, by decide⟩

theorem test_vat_roots_witness : ((tS16.vat (0 : VatId).val).run = .run ∧ 32 ≤ (tS16.vat (0 : VatId).val).freqNow.toNat ∧ (tS16.vat (0 :
  VatId).val).freqNow.toNat ≤ tS16.fuses.variant.ceiling ∧ 32 ≤ tS16.fixedFreq (0 : VatId).val) ∧ ((tS17.vat (31 : VatId).val).run = .run ∧ 32 ≤
  (tS17.vat (31 : VatId).val).freqNow.toNat ∧ (tS17.vat (31 : VatId).val).freqNow.toNat ≤ tS17.fuses.variant.ceiling ∧ 32 ≤ tS17.fixedFreq (31 :
  VatId).val) ∧ (tReady.vat (3 : VatId).val).rootRuns = false ∧ ((tS18.vat (0 : VatId).val).rootRuns = true ∧ (tS18.vat (0 :
  VatId).val).lastStretch = none) ∧ ((tS19.vat (0 : VatId).val).rootRuns = true ∧ (tS19.vat (0 : VatId).val).lastStretch = some (5 : W64) ∧
  (tS19.vat (0 : VatId).val).cycles.toNat ≤ (5 : W64).toNat + 1023 ∧ 32 ≤ (tS19.vat (0 : VatId).val).freqNow.toNat) ∧ ((tS20.vat (0 :
  VatId).val).rootRuns = true ∧ (tS20.vat (0 : VatId).val).lastStretch = some (5 : W64) ∧ (tS20.vat (0 : VatId).val).cycles.toNat ≤ (5 : W64).toNat
  + 1023 ∧ 32 ≤ (tS20.vat (0 : VatId).val).freqNow.toNat) :=
  ⟨by decide, by decide, by decide, by decide, by decide, by decide⟩

theorem test_reference_and_die_clocks_witness : tReady.clk.source ≠ .holdover ∧ tS22.clk.source ≠ .holdover ∧ tS23.clk.source = .holdover ∧
  tS22.clk.source = .reverting ∧ Tbl.look 0 tReady.clk.plls (49 : FieldId).val = 0 :=
  ⟨by decide, by decide, by decide, by decide, by decide⟩

theorem test_idle_step_is_one_nanosecond_witness : (tReady.pending = [] ∧ tReady.clk.locked = true) ∧ (tS23.pending = [] ∧ tS23.clk.locked =
  true) ∧ (State.reset.pending = [] ∧ State.reset.clk.locked = false) :=
  ⟨by decide, by decide, by decide⟩

theorem test_step_runs_the_front_command_witness : tS24.pending = (.dump : Instr) :: ([.leakDetect] : List Instr) :=
  by decide

theorem test_service_button_witness : tS25.svc.btnDown = true ∧ (19 : Nat) < 20 ∧ (20 ≤ (20 : Nat) ∧ (20 : Nat) < 1000) ∧ (20 ≤ (999 : Nat) ∧
  (999 : Nat) < 1000) ∧ (1000 ≤ (1000 : Nat) ∧ (1000 : Nat) < 3000) ∧ (1000 ≤ (2999 : Nat) ∧ (2999 : Nat) < 3000) ∧ (3000 ≤ (3000 : Nat) ∧ (3000 :
  Nat) < 10000 ∧ tReady.mc.state = .ready) ∧ (3000 ≤ (9999 : Nat) ∧ (9999 : Nat) < 10000 ∧ tReady.mc.state = .ready) ∧ (tS26.svc.btnDown = true ∧
  tS26.svc.hold10 = false ∧ tS26.mc.state = .ready) :=
  ⟨by decide, by decide, by decide, by decide, by decide, by decide, by decide, by decide, by decide⟩

theorem test_standby_switches_and_tap_witness : (tS27.svc.standby = true ∧ tS27.svc.draining = true ∧ (∀ c, c < 64 → (tS27.ctx c).state.runs =
  false)) ∧ tS28.svc.standby = true ∧ tReady.svc.standby = false ∧ ((.lockMon : Instr) = .lockMon ∨ (.lockMon : Instr) = .unlockIdleTimeout) ∧
  ((.unlockIdleTimeout : Instr) = .lockMon ∨ (.unlockIdleTimeout : Instr) = .unlockIdleTimeout) ∧ tS31.board.resetN = false ∧
  State.reset.board.resetN = true :=
  ⟨by decide, by decide, by decide, by decide, by decide, by decide, by decide⟩

theorem test_register_writes_witness : State.reset.err.todo = [] ∧ ((0x3EFFFFFFFFFC : BitVec 46).toNat < windowBase ∨ (0x3EFFFFFFFFFC : BitVec
  46).toNat % (if (false : Bool) then 8 else 4) ≠ 0) ∧ ((0x3F0011000014 : BitVec 46).toNat < windowBase ∨ (0x3F0011000014 : BitVec 46).toNat % (if
  (true : Bool) then 8 else 4) ≠ 0) :=
  ⟨by decide, by decide, by decide⟩

theorem test_monitor_locked_set_witness : (tMon.monServes = true ∧ tMon.inRecovery = false ∧ ((.monHelp : Instr) = .monHelp ∨ (.monHelp : Instr)
  = .monId ∨ (.monHelp : Instr) = .monTime ∨ (.monHelp : Instr) = .monTemp ∨ (.monHelp : Instr) = .monPwr ∨ (.monHelp : Instr) = .monLanes ∨
  (.monHelp : Instr) = .monLaser ∨ (.monHelp : Instr) = .monCtx ∨ (∃ e, (.monHelp : Instr) = .monRings e ∧ ∀ i, e = some i → i < 131072) ∨ (∃ a n,
  (.monHelp : Instr) = .monErr a n) ∨ ∃ n, (.monHelp : Instr) = .monLog n)) ∧ (tReady.monServes = true ∧ tReady.inRecovery = false ∧ ((.monId :
  Instr) = .monHelp ∨ (.monId : Instr) = .monId ∨ (.monId : Instr) = .monTime ∨ (.monId : Instr) = .monTemp ∨ (.monId : Instr) = .monPwr ∨ (.monId
  : Instr) = .monLanes ∨ (.monId : Instr) = .monLaser ∨ (.monId : Instr) = .monCtx ∨ (∃ e, (.monId : Instr) = .monRings e ∧ ∀ i, e = some i → i <
  131072) ∨ (∃ a n, (.monId : Instr) = .monErr a n) ∨ ∃ n, (.monId : Instr) = .monLog n)) ∧ (tReady.monServes = true ∧ tReady.inRecovery = false ∧
  ((.monTime : Instr) = .monHelp ∨ (.monTime : Instr) = .monId ∨ (.monTime : Instr) = .monTime ∨ (.monTime : Instr) = .monTemp ∨ (.monTime : Instr)
  = .monPwr ∨ (.monTime : Instr) = .monLanes ∨ (.monTime : Instr) = .monLaser ∨ (.monTime : Instr) = .monCtx ∨ (∃ e, (.monTime : Instr) = .monRings
  e ∧ ∀ i, e = some i → i < 131072) ∨ (∃ a n, (.monTime : Instr) = .monErr a n) ∨ ∃ n, (.monTime : Instr) = .monLog n)) ∧ (tReady.monServes = true
  ∧ tReady.inRecovery = false ∧ ((.monTemp : Instr) = .monHelp ∨ (.monTemp : Instr) = .monId ∨ (.monTemp : Instr) = .monTime ∨ (.monTemp : Instr) =
  .monTemp ∨ (.monTemp : Instr) = .monPwr ∨ (.monTemp : Instr) = .monLanes ∨ (.monTemp : Instr) = .monLaser ∨ (.monTemp : Instr) = .monCtx ∨ (∃ e,
  (.monTemp : Instr) = .monRings e ∧ ∀ i, e = some i → i < 131072) ∨ (∃ a n, (.monTemp : Instr) = .monErr a n) ∨ ∃ n, (.monTemp : Instr) = .monLog
  n)) ∧ (tReady.monServes = true ∧ tReady.inRecovery = false ∧ ((.monPwr : Instr) = .monHelp ∨ (.monPwr : Instr) = .monId ∨ (.monPwr : Instr) =
  .monTime ∨ (.monPwr : Instr) = .monTemp ∨ (.monPwr : Instr) = .monPwr ∨ (.monPwr : Instr) = .monLanes ∨ (.monPwr : Instr) = .monLaser ∨ (.monPwr
  : Instr) = .monCtx ∨ (∃ e, (.monPwr : Instr) = .monRings e ∧ ∀ i, e = some i → i < 131072) ∨ (∃ a n, (.monPwr : Instr) = .monErr a n) ∨ ∃ n,
  (.monPwr : Instr) = .monLog n)) ∧ (tReady.monServes = true ∧ tReady.inRecovery = false ∧ ((.monLanes : Instr) = .monHelp ∨ (.monLanes : Instr) =
  .monId ∨ (.monLanes : Instr) = .monTime ∨ (.monLanes : Instr) = .monTemp ∨ (.monLanes : Instr) = .monPwr ∨ (.monLanes : Instr) = .monLanes ∨
  (.monLanes : Instr) = .monLaser ∨ (.monLanes : Instr) = .monCtx ∨ (∃ e, (.monLanes : Instr) = .monRings e ∧ ∀ i, e = some i → i < 131072) ∨ (∃ a
  n, (.monLanes : Instr) = .monErr a n) ∨ ∃ n, (.monLanes : Instr) = .monLog n)) ∧ (tReady.monServes = true ∧ tReady.inRecovery = false ∧
  ((.monLaser : Instr) = .monHelp ∨ (.monLaser : Instr) = .monId ∨ (.monLaser : Instr) = .monTime ∨ (.monLaser : Instr) = .monTemp ∨ (.monLaser :
  Instr) = .monPwr ∨ (.monLaser : Instr) = .monLanes ∨ (.monLaser : Instr) = .monLaser ∨ (.monLaser : Instr) = .monCtx ∨ (∃ e, (.monLaser : Instr)
  = .monRings e ∧ ∀ i, e = some i → i < 131072) ∨ (∃ a n, (.monLaser : Instr) = .monErr a n) ∨ ∃ n, (.monLaser : Instr) = .monLog n)) ∧
  (tRun.monServes = true ∧ tRun.inRecovery = false ∧ ((.monCtx : Instr) = .monHelp ∨ (.monCtx : Instr) = .monId ∨ (.monCtx : Instr) = .monTime ∨
  (.monCtx : Instr) = .monTemp ∨ (.monCtx : Instr) = .monPwr ∨ (.monCtx : Instr) = .monLanes ∨ (.monCtx : Instr) = .monLaser ∨ (.monCtx : Instr) =
  .monCtx ∨ (∃ e, (.monCtx : Instr) = .monRings e ∧ ∀ i, e = some i → i < 131072) ∨ (∃ a n, (.monCtx : Instr) = .monErr a n) ∨ ∃ n, (.monCtx :
  Instr) = .monLog n)) ∧ (tReady.monServes = true ∧ tReady.inRecovery = false ∧ ((.monRings (some 131071) : Instr) = .monHelp ∨ (.monRings (some
  131071) : Instr) = .monId ∨ (.monRings (some 131071) : Instr) = .monTime ∨ (.monRings (some 131071) : Instr) = .monTemp ∨ (.monRings (some
  131071) : Instr) = .monPwr ∨ (.monRings (some 131071) : Instr) = .monLanes ∨ (.monRings (some 131071) : Instr) = .monLaser ∨ (.monRings (some
  131071) : Instr) = .monCtx ∨ (∃ e, (.monRings (some 131071) : Instr) = .monRings e ∧ ∀ i, e = some i → i < 131072) ∨ (∃ a n, (.monRings (some
  131071) : Instr) = .monErr a n) ∨ ∃ n, (.monRings (some 131071) : Instr) = .monLog n)) ∧ (tReady.monServes = true ∧ tReady.inRecovery = false ∧
  ((.monErr (some 0) (some 5) : Instr) = .monHelp ∨ (.monErr (some 0) (some 5) : Instr) = .monId ∨ (.monErr (some 0) (some 5) : Instr) = .monTime ∨
  (.monErr (some 0) (some 5) : Instr) = .monTemp ∨ (.monErr (some 0) (some 5) : Instr) = .monPwr ∨ (.monErr (some 0) (some 5) : Instr) = .monLanes
  ∨ (.monErr (some 0) (some 5) : Instr) = .monLaser ∨ (.monErr (some 0) (some 5) : Instr) = .monCtx ∨ (∃ e, (.monErr (some 0) (some 5) : Instr) =
  .monRings e ∧ ∀ i, e = some i → i < 131072) ∨ (∃ a n, (.monErr (some 0) (some 5) : Instr) = .monErr a n) ∨ ∃ n, (.monErr (some 0) (some 5) :
  Instr) = .monLog n)) ∧ (tReady.monServes = true ∧ tReady.inRecovery = false ∧ ((.monLog 3 : Instr) = .monHelp ∨ (.monLog 3 : Instr) = .monId ∨
  (.monLog 3 : Instr) = .monTime ∨ (.monLog 3 : Instr) = .monTemp ∨ (.monLog 3 : Instr) = .monPwr ∨ (.monLog 3 : Instr) = .monLanes ∨ (.monLog 3 :
  Instr) = .monLaser ∨ (.monLog 3 : Instr) = .monCtx ∨ (∃ e, (.monLog 3 : Instr) = .monRings e ∧ ∀ i, e = some i → i < 131072) ∨ (∃ a n, (.monLog 3
  : Instr) = .monErr a n) ∨ ∃ n, (.monLog 3 : Instr) = .monLog n)) ∧ tReady.monServes = true ∧ (tReady.monServes = true ∧ tReady.inRecovery =
  false) ∧ (tS32.monServes = true ∧ tS32.svc.following = true) :=
  ⟨⟨by decide, by decide, by simp⟩, ⟨by decide, by decide, by simp⟩, ⟨by decide, by decide, by simp⟩, ⟨by decide, by decide, by simp⟩, ⟨by decide,
    by decide, by simp⟩, ⟨by decide, by decide, by simp⟩, ⟨by decide, by decide, by simp⟩, ⟨by decide, by decide, by simp⟩, ⟨by decide,
    by decide, by simp⟩, ⟨by decide, by decide, by simp⟩, ⟨by decide, by decide, by simp⟩, by decide, by decide, by decide⟩

theorem test_monitor_lock_and_silence_witness : (tReady.monServes = true ∧ tReady.inRecovery = false ∧ tReady.thm.trip = false ∧
  tReady.svc.unlocked = false ∧ ((∃ a w, (.peek 0 false : Instr) = .peek a w) ∨ (∃ a w x, (.peek 0 false : Instr) = .poke a w x) ∨ (.peek 0 false :
  Instr) = .monDump ∨ (.peek 0 false : Instr) = .monDumpInfo ∨ (∃ o l, (.peek 0 false : Instr) = .monDumpRead o l) ∨ (∃ n, (.peek 0 false : Instr)
  = .monCtxPause n) ∨ (∃ n, (.peek 0 false : Instr) = .monCtxLaunch n) ∨ ∃ n, (.peek 0 false : Instr) = .monCtxDestroy n) ∧ tReady.err.todo = []) ∧
  (tReady.monServes = true ∧ tReady.inRecovery = false ∧ tReady.thm.trip = false ∧ tReady.svc.unlocked = false ∧ ((∃ a w, (.poke 8 true 0 : Instr)
  = .peek a w) ∨ (∃ a w x, (.poke 8 true 0 : Instr) = .poke a w x) ∨ (.poke 8 true 0 : Instr) = .monDump ∨ (.poke 8 true 0 : Instr) = .monDumpInfo
  ∨ (∃ o l, (.poke 8 true 0 : Instr) = .monDumpRead o l) ∨ (∃ n, (.poke 8 true 0 : Instr) = .monCtxPause n) ∨ (∃ n, (.poke 8 true 0 : Instr) =
  .monCtxLaunch n) ∨ ∃ n, (.poke 8 true 0 : Instr) = .monCtxDestroy n) ∧ tReady.err.todo = []) ∧ (tReady.monServes = true ∧ tReady.inRecovery =
  false ∧ tReady.thm.trip = false ∧ tReady.svc.unlocked = false ∧ ((∃ a w, (.monDump : Instr) = .peek a w) ∨ (∃ a w x, (.monDump : Instr) = .poke a
  w x) ∨ (.monDump : Instr) = .monDump ∨ (.monDump : Instr) = .monDumpInfo ∨ (∃ o l, (.monDump : Instr) = .monDumpRead o l) ∨ (∃ n, (.monDump :
  Instr) = .monCtxPause n) ∨ (∃ n, (.monDump : Instr) = .monCtxLaunch n) ∨ ∃ n, (.monDump : Instr) = .monCtxDestroy n) ∧ tReady.err.todo = []) ∧
  (tReady.monServes = true ∧ tReady.inRecovery = false ∧ tReady.thm.trip = false ∧ tReady.svc.unlocked = false ∧ ((∃ a w, (.monDumpInfo : Instr) =
  .peek a w) ∨ (∃ a w x, (.monDumpInfo : Instr) = .poke a w x) ∨ (.monDumpInfo : Instr) = .monDump ∨ (.monDumpInfo : Instr) = .monDumpInfo ∨ (∃ o
  l, (.monDumpInfo : Instr) = .monDumpRead o l) ∨ (∃ n, (.monDumpInfo : Instr) = .monCtxPause n) ∨ (∃ n, (.monDumpInfo : Instr) = .monCtxLaunch n)
  ∨ ∃ n, (.monDumpInfo : Instr) = .monCtxDestroy n) ∧ tReady.err.todo = []) ∧ (tReady.monServes = true ∧ tReady.inRecovery = false ∧
  tReady.thm.trip = false ∧ tReady.svc.unlocked = false ∧ ((∃ a w, (.monDumpRead 0 4096 : Instr) = .peek a w) ∨ (∃ a w x, (.monDumpRead 0 4096 :
  Instr) = .poke a w x) ∨ (.monDumpRead 0 4096 : Instr) = .monDump ∨ (.monDumpRead 0 4096 : Instr) = .monDumpInfo ∨ (∃ o l, (.monDumpRead 0 4096 :
  Instr) = .monDumpRead o l) ∨ (∃ n, (.monDumpRead 0 4096 : Instr) = .monCtxPause n) ∨ (∃ n, (.monDumpRead 0 4096 : Instr) = .monCtxLaunch n) ∨ ∃
  n, (.monDumpRead 0 4096 : Instr) = .monCtxDestroy n) ∧ tReady.err.todo = []) ∧ (tReady.monServes = true ∧ tReady.inRecovery = false ∧
  tReady.thm.trip = false ∧ tReady.svc.unlocked = false ∧ ((∃ a w, (.monCtxPause 63 : Instr) = .peek a w) ∨ (∃ a w x, (.monCtxPause 63 : Instr) =
  .poke a w x) ∨ (.monCtxPause 63 : Instr) = .monDump ∨ (.monCtxPause 63 : Instr) = .monDumpInfo ∨ (∃ o l, (.monCtxPause 63 : Instr) = .monDumpRead
  o l) ∨ (∃ n, (.monCtxPause 63 : Instr) = .monCtxPause n) ∨ (∃ n, (.monCtxPause 63 : Instr) = .monCtxLaunch n) ∨ ∃ n, (.monCtxPause 63 : Instr) =
  .monCtxDestroy n) ∧ tReady.err.todo = []) ∧ (tReady.monServes = true ∧ tReady.inRecovery = false ∧ tReady.thm.trip = false ∧ tReady.svc.unlocked
  = false ∧ ((∃ a w, (.monCtxLaunch 63 : Instr) = .peek a w) ∨ (∃ a w x, (.monCtxLaunch 63 : Instr) = .poke a w x) ∨ (.monCtxLaunch 63 : Instr) =
  .monDump ∨ (.monCtxLaunch 63 : Instr) = .monDumpInfo ∨ (∃ o l, (.monCtxLaunch 63 : Instr) = .monDumpRead o l) ∨ (∃ n, (.monCtxLaunch 63 : Instr)
  = .monCtxPause n) ∨ (∃ n, (.monCtxLaunch 63 : Instr) = .monCtxLaunch n) ∨ ∃ n, (.monCtxLaunch 63 : Instr) = .monCtxDestroy n) ∧ tReady.err.todo =
  []) ∧ (tReady.monServes = true ∧ tReady.inRecovery = false ∧ tReady.thm.trip = false ∧ tReady.svc.unlocked = false ∧ ((∃ a w, (.monCtxDestroy 63
  : Instr) = .peek a w) ∨ (∃ a w x, (.monCtxDestroy 63 : Instr) = .poke a w x) ∨ (.monCtxDestroy 63 : Instr) = .monDump ∨ (.monCtxDestroy 63 :
  Instr) = .monDumpInfo ∨ (∃ o l, (.monCtxDestroy 63 : Instr) = .monDumpRead o l) ∨ (∃ n, (.monCtxDestroy 63 : Instr) = .monCtxPause n) ∨ (∃ n,
  (.monCtxDestroy 63 : Instr) = .monCtxLaunch n) ∨ ∃ n, (.monCtxDestroy 63 : Instr) = .monCtxDestroy n) ∧ tReady.err.todo = []) ∧
  (tS33.mc.mgmtReset = true ∧ tS33.err.todo = [] ∧ ((.monHelp : Instr) = .monHelp ∨ (.monHelp : Instr) = .monId ∨ (.monHelp : Instr) = .monTime ∨
  (.monHelp : Instr) = .monTemp ∨ (.monHelp : Instr) = .monPwr ∨ (.monHelp : Instr) = .monLanes ∨ (.monHelp : Instr) = .monLaser ∨ (.monHelp :
  Instr) = .monCtx ∨ (∃ e, (.monHelp : Instr) = .monRings e) ∨ (∃ a n, (.monHelp : Instr) = .monErr a n) ∨ (∃ n, (.monHelp : Instr) = .monLog n) ∨
  (.monHelp : Instr) = .monLogFollow ∨ (∃ a w, (.monHelp : Instr) = .peek a w) ∨ (∃ a w x, (.monHelp : Instr) = .poke a w x) ∨ (.monHelp : Instr) =
  .monDump ∨ (.monHelp : Instr) = .monDumpInfo ∨ (∃ o l, (.monHelp : Instr) = .monDumpRead o l) ∨ (∃ n, (.monHelp : Instr) = .monCtxPause n) ∨ (∃
  n, (.monHelp : Instr) = .monCtxLaunch n) ∨ (∃ n, (.monHelp : Instr) = .monCtxDestroy n) ∨ (.monHelp : Instr) = .unlock ∨ (∃ k g, (.monHelp :
  Instr) = .unlockResponse k g) ∨ (.monHelp : Instr) = .unlockEnd ∨ (.monHelp : Instr) = .monSyntaxError ∨ (.monHelp : Instr) = .monLineTooLong ∨
  (.monHelp : Instr) = .logFollowKeypress)) ∧ (tS33.mc.mgmtReset = true ∧ tS33.err.todo = [] ∧ ((.poke 8 true 0 : Instr) = .monHelp ∨ (.poke 8 true
  0 : Instr) = .monId ∨ (.poke 8 true 0 : Instr) = .monTime ∨ (.poke 8 true 0 : Instr) = .monTemp ∨ (.poke 8 true 0 : Instr) = .monPwr ∨ (.poke 8
  true 0 : Instr) = .monLanes ∨ (.poke 8 true 0 : Instr) = .monLaser ∨ (.poke 8 true 0 : Instr) = .monCtx ∨ (∃ e, (.poke 8 true 0 : Instr) =
  .monRings e) ∨ (∃ a n, (.poke 8 true 0 : Instr) = .monErr a n) ∨ (∃ n, (.poke 8 true 0 : Instr) = .monLog n) ∨ (.poke 8 true 0 : Instr) =
  .monLogFollow ∨ (∃ a w, (.poke 8 true 0 : Instr) = .peek a w) ∨ (∃ a w x, (.poke 8 true 0 : Instr) = .poke a w x) ∨ (.poke 8 true 0 : Instr) =
  .monDump ∨ (.poke 8 true 0 : Instr) = .monDumpInfo ∨ (∃ o l, (.poke 8 true 0 : Instr) = .monDumpRead o l) ∨ (∃ n, (.poke 8 true 0 : Instr) =
  .monCtxPause n) ∨ (∃ n, (.poke 8 true 0 : Instr) = .monCtxLaunch n) ∨ (∃ n, (.poke 8 true 0 : Instr) = .monCtxDestroy n) ∨ (.poke 8 true 0 :
  Instr) = .unlock ∨ (∃ k g, (.poke 8 true 0 : Instr) = .unlockResponse k g) ∨ (.poke 8 true 0 : Instr) = .unlockEnd ∨ (.poke 8 true 0 : Instr) =
  .monSyntaxError ∨ (.poke 8 true 0 : Instr) = .monLineTooLong ∨ (.poke 8 true 0 : Instr) = .logFollowKeypress)) ∧ (tS33.mc.mgmtReset = true ∧
  tS33.err.todo = [] ∧ ((.unlockResponse [] [] : Instr) = .monHelp ∨ (.unlockResponse [] [] : Instr) = .monId ∨ (.unlockResponse [] [] : Instr) =
  .monTime ∨ (.unlockResponse [] [] : Instr) = .monTemp ∨ (.unlockResponse [] [] : Instr) = .monPwr ∨ (.unlockResponse [] [] : Instr) = .monLanes ∨
  (.unlockResponse [] [] : Instr) = .monLaser ∨ (.unlockResponse [] [] : Instr) = .monCtx ∨ (∃ e, (.unlockResponse [] [] : Instr) = .monRings e) ∨
  (∃ a n, (.unlockResponse [] [] : Instr) = .monErr a n) ∨ (∃ n, (.unlockResponse [] [] : Instr) = .monLog n) ∨ (.unlockResponse [] [] : Instr) =
  .monLogFollow ∨ (∃ a w, (.unlockResponse [] [] : Instr) = .peek a w) ∨ (∃ a w x, (.unlockResponse [] [] : Instr) = .poke a w x) ∨
  (.unlockResponse [] [] : Instr) = .monDump ∨ (.unlockResponse [] [] : Instr) = .monDumpInfo ∨ (∃ o l, (.unlockResponse [] [] : Instr) =
  .monDumpRead o l) ∨ (∃ n, (.unlockResponse [] [] : Instr) = .monCtxPause n) ∨ (∃ n, (.unlockResponse [] [] : Instr) = .monCtxLaunch n) ∨ (∃ n,
  (.unlockResponse [] [] : Instr) = .monCtxDestroy n) ∨ (.unlockResponse [] [] : Instr) = .unlock ∨ (∃ k g, (.unlockResponse [] [] : Instr) =
  .unlockResponse k g) ∨ (.unlockResponse [] [] : Instr) = .unlockEnd ∨ (.unlockResponse [] [] : Instr) = .monSyntaxError ∨ (.unlockResponse [] []
  : Instr) = .monLineTooLong ∨ (.unlockResponse [] [] : Instr) = .logFollowKeypress)) :=
  ⟨⟨by decide, by decide, by decide, by decide, by simp, by decide⟩, ⟨by decide, by decide, by decide, by decide, by simp, by decide⟩, ⟨by decide,
    by decide, by decide, by decide, by simp, by decide⟩, ⟨by decide, by decide, by decide, by decide, by simp, by decide⟩, ⟨by decide, by decide,
    by decide, by decide, by simp, by decide⟩, ⟨by decide, by decide, by decide, by decide, by simp, by decide⟩, ⟨by decide, by decide, by decide,
    by decide, by simp, by decide⟩, ⟨by decide, by decide, by decide, by decide, by simp, by decide⟩, ⟨by decide, by decide, by simp⟩, ⟨by decide,
    by decide, by simp⟩, ⟨by decide, by decide, by simp⟩⟩

theorem test_peek_and_poke_witness : (tMon.monServes = true ∧ tMon.inRecovery = false ∧ tMon.thm.trip = false ∧ tMon.svc.unlocked = true ∧
  (0x3FFFFFFFFFF8 : W64).toNat % (if (true : Bool) then 8 else 4) = 0 ∧ (0x3FFFFFFFFFF8 : W64).toNat < 2 ^ 46) ∧ (tMon.monServes = true ∧
  tMon.inRecovery = false ∧ tMon.thm.trip = false ∧ tMon.svc.unlocked = true ∧ (0x3FFFFFFFFFFC : W64).toNat % (if (false : Bool) then 8 else 4) = 0
  ∧ (0x3FFFFFFFFFFC : W64).toNat < 2 ^ 46) ∧ (tS34.monServes = true ∧ tS34.inRecovery = false ∧ tS34.thm.trip = false ∧ tS34.svc.unlocked = true ∧
  tS34.err.todo = [] ∧ (0x020000000000 : W64).toNat % (if (true : Bool) then 8 else 4) = 0 ∧ regionOf (0x020000000000 : W64).toNat = .cream (0 :
  Nat) (0 : Nat) ∧ tS34.targetDown (0x020000000000 : W64).toNat = none ∧ tS34.badIn ((0x020000000000 : W64).toNat / 64 * 64) 64 = false) ∧
  (tS34.monServes = true ∧ tS34.inRecovery = false ∧ tS34.thm.trip = false ∧ tS34.svc.unlocked = true ∧ tS34.err.todo = [] ∧ (0x02007FFFFFFC :
  W64).toNat % (if (false : Bool) then 8 else 4) = 0 ∧ regionOf (0x02007FFFFFFC : W64).toNat = .cream (0 : Nat) (0x7FFFFFFC : Nat) ∧
  tS34.targetDown (0x02007FFFFFFC : W64).toNat = none ∧ tS34.badIn ((0x02007FFFFFFC : W64).toNat / 64 * 64) 64 = false) ∧ (tMon.monServes = true ∧
  tMon.inRecovery = false ∧ tMon.thm.trip = false ∧ tMon.svc.unlocked = true ∧ tMon.err.todo = [] ∧ (0x3F000A100000 : W64).toNat % (if (true :
  Bool) then 8 else 4) = 0 ∧ windowBase + 0xA100000 ≤ (0x3F000A100000 : W64).toNat ∧ (0x3F000A100000 : W64).toNat < windowBase + 0xA180000) ∧
  (tMon.monServes = true ∧ tMon.inRecovery = false ∧ tMon.thm.trip = false ∧ tMon.svc.unlocked = true ∧ tMon.err.todo = [] ∧ (0x3F000A17FFFC :
  W64).toNat % (if (false : Bool) then 8 else 4) = 0 ∧ windowBase + 0xA100000 ≤ (0x3F000A17FFFC : W64).toNat ∧ (0x3F000A17FFFC : W64).toNat <
  windowBase + 0xA180000) :=
  ⟨by decide, by decide, by decide, by decide, by decide, by decide⟩

theorem test_monitor_dump_and_contexts_witness : (tMon.monServes = true ∧ tMon.inRecovery = false ∧ tMon.thm.trip = false ∧ tMon.svc.unlocked =
  true ∧ tMon.err.dump.valid = false ∧ tMon.err.dump.busy = false) ∧ (tS35.monServes = true ∧ tS35.inRecovery = false ∧ tS35.thm.trip = false ∧
  tS35.svc.unlocked = true ∧ tS35.heldDump ≠ []) ∧ (tS35.monServes = true ∧ tS35.inRecovery = false ∧ tS35.thm.trip = false ∧ tS35.svc.unlocked =
  true ∧ tS35.heldDump ≠ [] ∧ (4096 : Nat) ≤ 4096) ∧ (tMon.monServes = true ∧ tMon.inRecovery = false ∧ tMon.thm.trip = false ∧ tMon.svc.unlocked =
  true ∧ (5 : Nat) < 64 ∧ (tMon.ctx (5 : Nat)).state = .running ∧ tMon.replayHolds (5 : Nat) = false ∧ tMon.isActive (5 : Nat) = true) ∧
  (tS36.monServes = true ∧ tS36.inRecovery = false ∧ tS36.thm.trip = false ∧ tS36.svc.unlocked = true ∧ (5 : Nat) < 64 ∧ tS36.svc.standby = false ∧
  tS36.svc.draining = false ∧ ((tS36.ctx (5 : Nat)).state = .loaded ∨ (tS36.ctx (5 : Nat)).state = .paused) ∧ tS36.replayHolds (5 : Nat) = false) ∧
  (tS37.monServes = true ∧ tS37.inRecovery = false ∧ tS37.thm.trip = false ∧ tS37.svc.unlocked = true ∧ (5 : Nat) < 64 ∧ tS37.svc.standby = false ∧
  tS37.svc.draining = false ∧ ((tS37.ctx (5 : Nat)).state = .loaded ∨ (tS37.ctx (5 : Nat)).state = .paused) ∧ tS37.replayHolds (5 : Nat) = false) ∧
  (tMon.monServes = true ∧ tMon.inRecovery = false ∧ tMon.thm.trip = false ∧ tMon.svc.unlocked = true ∧ (63 : Nat) < 64 ∧ (tMon.ctx (63 :
  Nat)).state = .free ∧ ((.monCtxPause 63 : Instr) = .monCtxPause (63 : Nat) ∨ (.monCtxPause 63 : Instr) = .monCtxLaunch (63 : Nat))) ∧
  (tMon.monServes = true ∧ tMon.inRecovery = false ∧ tMon.thm.trip = false ∧ tMon.svc.unlocked = true ∧ (0 : Nat) < 64 ∧ (tMon.ctx (0 : Nat)).state
  = .free ∧ ((.monCtxLaunch 0 : Instr) = .monCtxPause (0 : Nat) ∨ (.monCtxLaunch 0 : Instr) = .monCtxLaunch (0 : Nat))) ∧ (tS36.monServes = true ∧
  tS36.inRecovery = false ∧ tS36.thm.trip = false ∧ tS36.svc.unlocked = true ∧ (5 : Nat) < 64 ∧ (tS36.ctx (5 : Nat)).quiet = true) ∧
  (tMon.monServes = true ∧ tMon.inRecovery = false ∧ tMon.thm.trip = false ∧ tMon.svc.unlocked = true ∧ (63 : Nat) < 64 ∧ (tMon.ctx (63 :
  Nat)).quiet = true) :=
  ⟨by decide, by decide, by decide, by decide, by decide, by decide, by decide, by decide, by decide, by decide⟩

theorem test_monitor_unlock_witness : (tReady.monServes = true ∧ tReady.inRecovery = false ∧ tReady.svc.lockout = false) ∧ (tS38.monServes = true
  ∧ tS38.inRecovery = false ∧ tS38.svc.challenge = some (([1] : List Byte), (0 : W64)) ∧ tS38.time ≤ (0 : W64).toNat + 120000000000 ∧ ecdsaVerify
  (tKey : List Byte) (tS38.unlockMessage ([1] : List Byte) (0 : W64)) (tSig : List Byte) = true ∧ digestOf (tKey : List Byte) ∈ tS38.fru.hostKeys)
  ∧ (tReady.monServes = true ∧ tReady.inRecovery = false ∧ (tReady.svc.challenge = none ∨ ∃ n t0, tReady.svc.challenge = some (n, t0) ∧ (t0.toNat +
  120000000000 < tReady.time ∨ ecdsaVerify ([] : List Byte) (tReady.unlockMessage n t0) ([] : List Byte) = false ∨ digestOf ([] : List Byte) ∉
  tReady.fru.hostKeys))) ∧ (tMon.monServes = true ∧ tMon.inRecovery = false) :=
  ⟨by decide, by decide +kernel, ⟨by decide, by decide, Or.inl rfl⟩, by decide⟩

theorem test_bring_up_steps_witness : (tS39.mc.mgmtReset = false ∧ tS39.mc.step = 1 ∧ tS39.err.todo = [] ∧ ((∃ o, (.bringUpStepBound [] : Instr)
  = .bringUpStepEnd o) ∨ (.bringUpStepBound [] : Instr) = .bringUpStepBound [])) ∧ (tS39.mc.mgmtReset = false ∧ tS39.mc.step = 1 ∧ tS39.err.todo =
  [] ∧ ((∃ o, (.bringUpStepEnd tObs : Instr) = .bringUpStepEnd o) ∨ (.bringUpStepEnd tObs : Instr) = .bringUpStepBound [])) ∧ (tS40.mc.mgmtReset =
  false ∧ tS40.mc.step = 4 ∧ tS40.err.todo = [] ∧ (tObs : StepObs).failedStacks = []) ∧ (tS41.err.todo = [] ∧ tS41.mc.step = 7 ∧ tS41.inService (31
  : VatId).val = true ∧ tS41.mc.katDone.getLsbD (31 : VatId).val = false ∧ (tS41.vat (31 : VatId).val).katRuns = 0) ∧ (tS41.err.todo = [] ∧
  tS41.mc.step = 7 ∧ tS41.inService (31 : VatId).val = true ∧ (Config.katSignature 31 + 1 : W64) ≠ Config.katSignature (31 : VatId).val ∧
  tS41.mc.katDone.getLsbD (31 : VatId).val = false ∧ (tS41.vat (31 : VatId).val).katRuns = 0) ∧ (tS41.mc.mgmtReset = false ∧ tS41.mc.step = 7 ∧
  tS41.err.todo = [] ∧ tS41.err.halt = false ∧ tS41.mc.heldResets = []) :=
  ⟨⟨by decide, by decide, by decide, Or.inr rfl⟩, ⟨by decide, by decide, by decide, Or.inl ⟨_, rfl⟩⟩, by decide, by decide, ⟨by decide, by decide,
    by decide, by simp, by decide, by decide⟩, by decide⟩

theorem test_firmware_and_recovery_witness : (tS42.mc.step = 8 ∧ tS42.mc.fwVerified = true ∧ tS42.mc.raiseSvn = true ∧ tS42.fuses.svnMin.toNat <
  tS42.mc.svn.toNat) ∧ tS43.mc.svn.toNat ≤ tS43.fuses.svnMin.toNat ∧ (tRecovery.inRecovery = true ∧ tRecovery.mc.committing = none ∧ (0 :
  Byte).toNat < 2 ∧ ((0 : Byte) = 0 → (12582912 : W32).toNat ≤ imageMax) ∧ ((0 : Byte) = 1 → (12582912 : W32) = 256) ∧ tRecovery.err.dump.valid =
  false) ∧ (tRecovery.inRecovery = true ∧ tRecovery.mc.committing = none ∧ (1 : Byte).toNat < 2 ∧ ((1 : Byte) = 0 → (256 : W32).toNat ≤ imageMax) ∧
  ((1 : Byte) = 1 → (256 : W32) = 256) ∧ tRecovery.err.dump.valid = false) ∧ (tS44.inRecovery = true ∧ tS44.mc.staging = some
  ({ isCfg := false, total := 67 } : Staging) ∧ (64 : W32).toNat % 64 = 0 ∧ (64 : W32).toNat + ([1,2,3] : List Byte).length ≤
  ({ isCfg := false, total := 67 } : Staging).total) ∧ (tS45.inRecovery = true ∧ tS45.mc.committing = none ∧ tS45.mc.staging = some (tCfg :
  Staging) ∧ (tCfg : Staging).isCfg = true ∧ recordSound (tCfg : Staging).list = true) ∧ (tS46.mc.committing = some (.session (0 : Fin 8), (9 :
  W32), (true : Bool)) ∧ tS46.mc.staging = some (tCfg : Staging)) ∧ (tReady.inRecovery = false ∧ (tReady.session (0 : Fin 8).val).isOpen = false ∧
  ((∃ a b, (.fwBegin (.session 0) 9 0 0 : Instr) = .fwBegin (.session (0 : Fin 8)) (9 : W32) a b) ∨ (∃ a b, (.fwBegin (.session 0) 9 0 0 : Instr) =
  .fwWrite (.session (0 : Fin 8)) (9 : W32) a b) ∨ ∃ a, (.fwBegin (.session 0) 9 0 0 : Instr) = .fwCommit (.session (0 : Fin 8)) (9 : W32) a)) ∧
  (tReady.inRecovery = false ∧ (tReady.session (0 : Fin 8).val).isOpen = false ∧ ((∃ a b, (.fwWrite (.session 0) 9 0 [] : Instr) = .fwBegin
  (.session (0 : Fin 8)) (9 : W32) a b) ∨ (∃ a b, (.fwWrite (.session 0) 9 0 [] : Instr) = .fwWrite (.session (0 : Fin 8)) (9 : W32) a b) ∨ ∃ a,
  (.fwWrite (.session 0) 9 0 [] : Instr) = .fwCommit (.session (0 : Fin 8)) (9 : W32) a)) ∧ (tReady.inRecovery = false ∧ (tReady.session (0 : Fin
  8).val).isOpen = false ∧ ((∃ a b, (.fwCommit (.session 0) 9 0 : Instr) = .fwBegin (.session (0 : Fin 8)) (9 : W32) a b) ∨ (∃ a b, (.fwCommit
  (.session 0) 9 0 : Instr) = .fwWrite (.session (0 : Fin 8)) (9 : W32) a b) ∨ ∃ a, (.fwCommit (.session 0) 9 0 : Instr) = .fwCommit (.session (0 :
  Fin 8)) (9 : W32) a)) :=
  ⟨by decide, by decide, by decide, by decide, by decide, by decide +kernel, by decide, ⟨by decide, by decide, Or.inl ⟨_, _, rfl⟩⟩, ⟨by decide,
    by decide, Or.inr (Or.inl ⟨_, _, rfl⟩)⟩, ⟨by decide, by decide, Or.inr (Or.inr ⟨_, rfl⟩)⟩⟩

theorem test_controller_handover_witness : tReady.firmwareRuns = true ∧ (((.mcWatchdogExpire : Instr) = .mcWatchdogExpire ∨ ∃ src,
  (.mcWatchdogExpire : Instr) = .mcHandover src) ∧ tReady.mc.owner = false ∧ tReady.mc.handover = false ∧ tReady.mc.mgmtReset = false ∧ 2 ≤
  tReady.mc.step.toNat ∧ tReady.mc.mcbReady = true ∧ tReady.err.handlings = [] ∧ tReady.err.todo = []) ∧ (((.mcHandover .host : Instr) =
  .mcWatchdogExpire ∨ ∃ src, (.mcHandover .host : Instr) = .mcHandover src) ∧ tReady.mc.owner = false ∧ tReady.mc.handover = false ∧
  tReady.mc.mgmtReset = false ∧ 2 ≤ tReady.mc.step.toNat ∧ tReady.mc.mcbReady = true ∧ tReady.err.handlings = [] ∧ tReady.err.todo = []) ∧
  tS47.mc.handover = true ∧ (tS48.mc.handover = true ∧ tS48.mc.journalSessions = [((7 : Nat), ({ isOpen := true, txSeq := 4 } : Session))] ∧
  ({ isOpen := true, txSeq := 4 } : Session).isOpen = true) ∧ (tS49.mc.owner = true ∧ tS49.mc.overlap = false) ∧ (tS49.mc.owner = true ∧
  tS49.mc.mcaReady = true) ∧ (2 ≤ tReady.mc.step.toNat ∧ tReady.mc.mgmtReset = false ∧ tReady.mc.owner = false ∧ tReady.err.handlings = [] ∧
  tReady.err.todo = []) :=
  ⟨by decide, ⟨Or.inl rfl, by decide, by decide, by decide, by decide, by decide, by decide, by decide⟩, ⟨Or.inr ⟨_, rfl⟩, by decide, by decide,
    by decide, by decide, by decide, by decide, by decide⟩, by decide, by decide +kernel, by decide, by decide, by decide⟩

theorem test_unit_resets_witness : ((tReady.inv.vatMap.getLsbD (2 : VatId).val = true ∨ tReady.inv.vatColumn.getLsbD (2 : VatId).val = true) ∧
  tReady.dieIn ((2 : VatId).val / 4) = true ∧ tReady.inv.dieInReset.getLsbD ((2 : VatId).val / 4) = false ∧ tReady.resetRuns (.vat (2 : VatId)) =
  false ∧ tReady.residents (2 : VatId).val = [] ∧ tReady.err.todo = []) ∧ ((tS50.inv.vatMap.getLsbD (31 : VatId).val = true ∨
  tS50.inv.vatColumn.getLsbD (31 : VatId).val = true) ∧ tS50.dieIn ((31 : VatId).val / 4) = true ∧ tS50.inv.dieInReset.getLsbD ((31 : VatId).val /
  4) = false ∧ tS50.resetRuns (.vat (31 : VatId)) = false ∧ tS50.residents (31 : VatId).val = [] ∧ tS50.err.todo = []) ∧ (tS51.inv.vatMap.getLsbD
  (31 : VatId).val = false ∧ tS51.inv.vatColumn.getLsbD (31 : VatId).val = false ∧ tS51.err.todo = []) ∧ (tReady.mc.step = 8 ∧ tReady.dieIn (7 :
  DieId).val = true ∧ tReady.inv.dieInReset.getLsbD (7 : DieId).val = false ∧ tReady.err.todo = [] ∧ (∀ v, v / 4 = (7 : DieId).val →
  tReady.residents v = [])) ∧ (tS41.mc.step ≠ 8 ∧ tS41.err.todo = [] ∧ (.die 7 : ResetKind) ∉ tS41.mc.heldResets ∧ ((∃ d, (.dieReset 7 : Instr) =
  .dieReset d ∧ (.die 7 : ResetKind) = .die d) ∨ ((.dieReset 7 : Instr) = .computeReset ∧ (.die 7 : ResetKind) = .compute))) ∧ (tS41.mc.step ≠ 8 ∧
  tS41.err.todo = [] ∧ (.compute : ResetKind) ∉ tS41.mc.heldResets ∧ ((∃ d, (.computeReset : Instr) = .dieReset d ∧ (.compute : ResetKind) = .die
  d) ∨ ((.computeReset : Instr) = .computeReset ∧ (.compute : ResetKind) = .compute))) ∧ (tReady.mc.step = 8 ∧ tReady.resetRuns .compute = false ∧
  tReady.err.todo = [] ∧ tReady.svc.standby = false ∧ (∀ v, tReady.residents v = [])) ∧ (tRun.mc.mgmtReset = false ∧ 2 ≤ tRun.mc.step.toNat ∧
  tRun.err.todo = []) ∧ (tS52.err.resets = [(.vat (31 : VatId), (5 : W64))] ∧ (tS52.vat (31 : VatId).val).suspects = [] ∧ tS52.vatIn (31 :
  VatId).val = true ∧ tS52.err.todo = [] ∧ tS52.err.handlings = []) ∧ (tReady.resetRuns (.compute : ResetKind) = false ∧ tReady.err.todo = []) :=
  ⟨by decide, by decide, by decide, ⟨by decide, by decide, by decide, by decide, fun _ _ => rfl⟩, by decide, by decide, ⟨by decide, by decide,
    by decide, by decide, fun _ => rfl⟩, by decide, by decide, by decide⟩

theorem test_overruns_and_dumps_witness : ((∀ h ∈ tS53.err.handlings, h.seq ≠ (7 : W64)) ∧ tS53.err.todo = []) ∧ ((31 : Nat) < 32 ∧
  tS54.err.handlings = [{ scope := .vat (31 : Nat), seq := (7 : W64) }]) ∧ (tReady.err.dump.valid = false ∧ tReady.err.dump.busy = false) ∧
  (tS55.err.dump.valid = true ∨ tS55.err.dump.busy = true) ∧ (tS56.err.dump.valid = true ∨ tS56.err.dump.busy = true) ∧ (tS57.err.dump.busy = true
  ∧ tS57.mc.owner = false ∧ tS57.err.dump.plan = ((unitVat 31 : W16), (0 : Nat) + 2) :: ([] : List (W16 × Nat)) ∧ 66 ≤ tS57.err.dump.entries ∧
  tS57.err.dump.entries < 4095 ∧ tS57.unitDark (unitVat 31 : W16) = false ∧ tS57.err.dump.misses < 4 ∧ tS57.err.dump.size.toNat < 2 ^ 24 - 4096 ∧
  (List.replicate 4080 0 : List Byte).length % 16 = 0 ∧ (List.replicate 4080 0 : List Byte).length ≤ 4080) ∧ (tS58.err.dump.busy = true ∧
  tS58.mc.owner = false ∧ tS58.err.dump.plan = ((unitVat 31 : W16), (0 : Nat) + 2) :: ([] : List (W16 × Nat)) ∧ tS58.err.dump.entries < 4095 ∧
  tS58.unitDark (unitVat 31 : W16) = false ∧ tS58.err.dump.misses < 3 ∧ tS58.err.dump.size.toNat < 2 ^ 24 - 4096) ∧ (tS55.err.dump.busy = true ∧
  tS55.mc.owner = false) ∧ State.reset.err.dump.busy = false ∧ tS59.err.dump.valid = true ∧ State.reset.err.dump.valid = false :=
  ⟨by decide, by decide, by decide, by decide, by decide, by decide +kernel, by decide, by decide, by decide, by decide, by decide⟩

theorem test_context_commands_witness : ((63 : Byte).toNat < 64 ∧ (tS60.ctx (63 : Byte).toNat).state = .free) ∧ ((5 : Byte).toNat < 64 ∧
  (tS61.ctx (5 : Byte).toNat).state ≠ .free) ∧ (64 ≤ (64 : Byte).toNat ∧ ((∃ g x, (.ctxCreate (.session 7) 9 64 0 0 : Instr) = .ctxCreate (.session
  (7 : Fin 8)) (9 : W32) (64 : Byte) g x ∧ (0x11 : W16) = 0x0011) ∨ ((.ctxCreate (.session 7) 9 64 0 0 : Instr) = .ctxLaunch (.session (7 : Fin 8))
  (9 : W32) (64 : Byte) ∧ (0x11 : W16) = 0x0012) ∨ ((.ctxCreate (.session 7) 9 64 0 0 : Instr) = .ctxPause (.session (7 : Fin 8)) (9 : W32) (64 :
  Byte) ∧ (0x11 : W16) = 0x0013) ∨ ((.ctxCreate (.session 7) 9 64 0 0 : Instr) = .ctxDestroy (.session (7 : Fin 8)) (9 : W32) (64 : Byte) ∧ (0x11 :
  W16) = 0x0014))) ∧ (64 ≤ (64 : Byte).toNat ∧ ((∃ g x, (.ctxLaunch (.session 7) 9 64 : Instr) = .ctxCreate (.session (7 : Fin 8)) (9 : W32) (64 :
  Byte) g x ∧ (0x12 : W16) = 0x0011) ∨ ((.ctxLaunch (.session 7) 9 64 : Instr) = .ctxLaunch (.session (7 : Fin 8)) (9 : W32) (64 : Byte) ∧ (0x12 :
  W16) = 0x0012) ∨ ((.ctxLaunch (.session 7) 9 64 : Instr) = .ctxPause (.session (7 : Fin 8)) (9 : W32) (64 : Byte) ∧ (0x12 : W16) = 0x0013) ∨
  ((.ctxLaunch (.session 7) 9 64 : Instr) = .ctxDestroy (.session (7 : Fin 8)) (9 : W32) (64 : Byte) ∧ (0x12 : W16) = 0x0014))) ∧ (64 ≤ (255 :
  Byte).toNat ∧ ((∃ g x, (.ctxPause (.session 7) 9 255 : Instr) = .ctxCreate (.session (7 : Fin 8)) (9 : W32) (255 : Byte) g x ∧ (0x13 : W16) =
  0x0011) ∨ ((.ctxPause (.session 7) 9 255 : Instr) = .ctxLaunch (.session (7 : Fin 8)) (9 : W32) (255 : Byte) ∧ (0x13 : W16) = 0x0012) ∨
  ((.ctxPause (.session 7) 9 255 : Instr) = .ctxPause (.session (7 : Fin 8)) (9 : W32) (255 : Byte) ∧ (0x13 : W16) = 0x0013) ∨ ((.ctxPause
  (.session 7) 9 255 : Instr) = .ctxDestroy (.session (7 : Fin 8)) (9 : W32) (255 : Byte) ∧ (0x13 : W16) = 0x0014))) ∧ (64 ≤ (64 : Byte).toNat ∧
  ((∃ g x, (.ctxDestroy (.session 7) 9 64 : Instr) = .ctxCreate (.session (7 : Fin 8)) (9 : W32) (64 : Byte) g x ∧ (0x14 : W16) = 0x0011) ∨
  ((.ctxDestroy (.session 7) 9 64 : Instr) = .ctxLaunch (.session (7 : Fin 8)) (9 : W32) (64 : Byte) ∧ (0x14 : W16) = 0x0012) ∨ ((.ctxDestroy
  (.session 7) 9 64 : Instr) = .ctxPause (.session (7 : Fin 8)) (9 : W32) (64 : Byte) ∧ (0x14 : W16) = 0x0013) ∨ ((.ctxDestroy (.session 7) 9 64 :
  Instr) = .ctxDestroy (.session (7 : Fin 8)) (9 : W32) (64 : Byte) ∧ (0x14 : W16) = 0x0014))) ∧ ((5 : Byte).toNat < 64 ∧ (tS61.svc.standby = true
  ∨ (tS61.ctx (5 : Byte).toNat).state ∈ [.free, .running, .draining, .faulted])) ∧ ((5 : Byte).toNat < 64 ∧ tS62.svc.standby = false ∧
  tS62.svc.draining = false ∧ (tS62.ctx (5 : Byte).toNat).state = .loaded ∧ (tS62.ctx (5 : Byte).toNat).resident = true ∧ (tS62.ctx (5 :
  Byte).toNat).vat.toNat = (2 : Nat) ∧ tS62.activeCtx (2 : Nat) = some (5 : Byte).toNat ∧ tS62.activePlane (2 : Nat) = tS62.ctxPlane (5 :
  Byte).toNat ∧ (tS62.vat (2 : Nat)).run = .idle ∧ (tS62.vat (2 : Nat)).suspects = [] ∧ (tS62.vat (2 : Nat)).replaying = none) ∧ ((5 : Byte).toNat
  < 64 ∧ (tS63.ctx (5 : Byte).toNat).state = .running ∧ tS63.replayHolds (5 : Byte).toNat = false ∧ tS63.isActive (5 : Byte).toNat = true) ∧ ((5 :
  Byte).toNat < 64 ∧ (tS64.ctx (5 : Byte).toNat).state = .running ∧ tS64.replayHolds (5 : Byte).toNat = false ∧ tS64.isActive (5 : Byte).toNat =
  false) ∧ ((5 : Byte).toNat < 64 ∧ (tS62.ctx (5 : Byte).toNat).quiet = true) ∧ ((63 : Byte).toNat < 64 ∧ (tS62.ctx (63 : Byte).toNat).quiet =
  true) :=
  ⟨by decide, by decide, ⟨by decide, Or.inl ⟨_, _, rfl, rfl⟩⟩, ⟨by decide, Or.inr (Or.inl ⟨rfl, rfl⟩)⟩, ⟨by decide, Or.inr (Or.inr (Or.inl ⟨rfl,
    rfl⟩))⟩, ⟨by decide, Or.inr (Or.inr (Or.inr ⟨rfl, rfl⟩))⟩, by decide, by decide, by decide, by decide, by decide, by decide⟩

theorem test_context_stops_witness : ((tS65.ctx (5 : CtxId).val).state = .draining ∧ (tS65.ctx (5 : CtxId).val).drained = true ∧ tS65.busyOps (5
  : CtxId).val = false) ∧ (tS66.busyOps (5 : CtxId).val = true ∧ ((.drainComplete 5 : Instr) = .drainComplete (5 : CtxId) ∨ (.drainComplete 5 :
  Instr) = .ctxEnded (5 : CtxId) ∨ (.drainComplete 5 : Instr) = .faultStopQuiet (5 : CtxId))) ∧ (tS66.busyOps (5 : CtxId).val = true ∧ ((.ctxEnded
  5 : Instr) = .drainComplete (5 : CtxId) ∨ (.ctxEnded 5 : Instr) = .ctxEnded (5 : CtxId) ∨ (.ctxEnded 5 : Instr) = .faultStopQuiet (5 : CtxId))) ∧
  (tS66.busyOps (5 : CtxId).val = true ∧ ((.faultStopQuiet 5 : Instr) = .drainComplete (5 : CtxId) ∨ (.faultStopQuiet 5 : Instr) = .ctxEnded (5 :
  CtxId) ∨ (.faultStopQuiet 5 : Instr) = .faultStopQuiet (5 : CtxId))) ∧ ((tS67.ctx (5 : CtxId).val).state = .running ∧ (tS67.ctx (5 :
  CtxId).val).ending = true ∧ tS67.busyOps (5 : CtxId).val = false) ∧ ((tS68.ctx (5 : CtxId).val).stopping = true ∧ (tS68.ctx (5 :
  CtxId).val).resetting = false ∧ tS68.busyOps (5 : CtxId).val = false) ∧ (tRun.ctx (63 : CtxId).val).state = .free ∧ ((tRun.ctx (5 :
  CtxId).val).state ≠ .free ∧ tRun.err.todo = []) ∧ (tRun.ctx (5 : CtxId).val).resetting = false ∧ ((tS69.ctx (5 : CtxId).val).resetting = true ∧
  (tS69.ctx (5 : CtxId).val).destroyAfter = []) ∧ ((tS70.ctx (5 : CtxId).val).resetting = true ∧ (tS70.ctx (5 : CtxId).val).destroyAfter = [some
  (.session (6 : Fin 8), (9 : W32))]) :=
  ⟨by decide, by decide, by decide, by decide, by decide, by decide, by decide, by decide, by decide, by decide, by decide⟩

theorem test_aborts_and_replays_witness : ({ hdr := 0, payload := 0x01050007 } : Cell).pay 3 1 ≠ 2 ∧ ((tAbortCell : Cell).pay 3 1 = 2 ∧
  tRun.err.todo = [] ∧ tRun.err.handlings = []) ∧ tS72.fab.held = [] ∧ (tRun.vat (3 : VatId).val).run ∉ [.run, .swap] ∧ ((tRun.vat (2 :
  VatId).val).run = .run ∧ (tRun.vat (2 : VatId).val).replaying = none ∧ (5 : Nat) ∈ tRun.residents (2 : VatId).val ∧ (tRun.ctx (5 : Nat)).state =
  .running ∧ tRun.err.todo = [] ∧ tRun.err.handlings = [] ∧ tRun.loads = [] ∧ tRun.kcp.pending = []) ∧ ((tS73.vat (2 : VatId).val).suspects = (5 :
  Nat) :: ([9] : List Nat) ∧ (tS73.vat (2 : VatId).val).replaying = none ∧ (tS73.vat (2 : VatId).val).run = .idle ∧ tS73.isActive (5 : Nat) = true
  ∧ (tS73.ctx (5 : Nat)).vat.toNat = (2 : VatId).val ∧ (tS73.plane (tS73.ctxPlane (5 : Nat))).ckpt = some ({ pc := 0x40 } : Checkpoint)) ∧
  (tRun.vat (2 : VatId).val).suspects = [] :=
  ⟨by decide +kernel, by decide +kernel, by decide, by decide, by decide, by decide, by decide⟩

theorem test_identity_segments_and_queue_pairs_witness : ((63 : Byte).toNat < 64 ∧ (511 : W16).toNat < 512 ∧ (tS63.ctx (63 :
  Byte).toNat).state.runs = false ∧ segSound ((2 ^ 104 + 63 * 2 ^ 64 : BitVec 128) : BitVec 128).toNat = true ∧ ((2 ^ 104 + 63 * 2 ^ 64 : BitVec
  128) : BitVec 128).getLsbD 104 = true) ∧ ((5 : Byte).toNat < 64 ∧ (0 : W16).toNat < 512 ∧ (tS63.ctx (5 : Byte).toNat).state.runs = true) ∧ ((4 :
  Byte).toNat < 64 ∧ (0 : W16).toNat < 512 ∧ (tS63.ctx (4 : Byte).toNat).state.runs = false ∧ ((2 ^ 104 : BitVec 128) : BitVec 128).getLsbD 104 =
  true ∧ segSound ((2 ^ 104 : BitVec 128) : BitVec 128).toNat = false) ∧ ((1023 : W16).toNat < 1024 ∧ (63 : Byte).toNat < 64 ∧ 16 ≤ (4096 :
  W16).toNat ∧ (4096 : W16).toNat ≤ 4096 ∧ (tS63.qp (1023 : W16).toNat).state ≠ .ready) ∧ ((0 : W16).toNat < 1024 ∧ (0 : Byte).toNat < 64 ∧ 16 ≤
  (16 : W16).toNat ∧ (16 : W16).toNat ≤ 4096 ∧ (tS63.qp (0 : W16).toNat).state ≠ .ready) ∧ ((1023 : W16).toNat < 1024 ∧ (tS74.qp (1023 :
  W16).toNat).state ≠ .free) ∧ 1024 ≤ (1024 : W16).toNat :=
  ⟨by decide +kernel, by decide, by decide +kernel, by decide, by decide, by decide, by decide⟩

theorem test_registers_records_and_notifications_witness : tS63.regRead (0x3F0003000000 : W64).toNat (8 : Byte).toNat = .ok (1000000000 : Nat) ∧
  tS63.regRead (0 : W64).toNat (8 : Byte).toNat = .error .unmapped ∧ (tS63.inRecovery = false ∧ tS63.err.todo = []) ∧ (0x3F000A100000 ≤
  (0x3F000A100000 : W64).toNat ∧ (0x3F000A100000 : W64).toNat < 0x3F000A180000) ∧ (0x3F000A100000 ≤ (0x3F000A17FFF8 : W64).toNat ∧ (0x3F000A17FFF8
  : W64).toNat < 0x3F000A180000) ∧ (64 + 64 * (1 : W16).toNat ≤ (tS75.session (0 : Fin 8).val).recordMax.toNat ∧ tS75.err.seqNext.toNat ≤ 4096 ∧
  (4095 : W64).toNat + (1 : W16).toNat ≤ tS75.err.seqNext.toNat) ∧ (64 + 64 * (0 : W16).toNat ≤ (tS76.session (0 : Fin 8).val).recordMax.toNat ∧
  tS76.err.seqNext.toNat ≤ 4096 ∧ (0 : W64).toNat + (0 : W16).toNat ≤ tS76.err.seqNext.toNat) ∧ ((1348 : W32).toNat ≤ 8192 ∧ (1348 : W32).toNat +
  52 ≤ (tS77.session (0 : Fin 8).val).recordMax.toNat ∧ tS77.err.dump.valid = true ∧ tS77.mc.owner = false) ∧ ((8192 : W32).toNat ≤ 8192 ∧
  tS78.mc.owner = true) ∧ ((63 : Byte).toNat < 64 ∧ (15 : Byte).toNat < 16) :=
  ⟨by decide, by decide, by decide, by decide, by decide, by decide, by decide, by decide, by decide, by decide⟩

theorem test_sessions_witness : (tS80.mcServes = true ∧ tS80.eth.mode = .up ∧ tS80.kcp.helloSecond = tS80.time / 1000000000 ∧ tS80.kcp.helloCount
  < 16 ∧ allSlots.find? (fun j => !(tS80.session j).isOpen && !(tS80.session j).handshake) = some (0 : Nat) ∧ helloSound (tHello : List Byte) =
  true) ∧ (tS81.mcServes = true ∧ tS81.eth.mode = .up ∧ tS81.kcp.helloSecond = tS81.time / 1000000000 ∧ tS81.kcp.helloCount < 16 ∧ allSlots.find?
  (fun j => !(tS81.session j).isOpen && !(tS81.session j).handshake) = some (0 : Nat) ∧ helloSound ([] : List Byte) = false) ∧ (tS82.mcServes =
  true ∧ tS82.eth.mode = .up ∧ tS82.kcp.helloSecond = tS82.time / 1000000000 ∧ tS82.kcp.helloCount < 16 ∧ (∀ k, k < 8 → (tS82.session k).isOpen =
  true)) ∧ (tS83.kcp.helloSecond = tS83.time / 1000000000 ∧ 16 ≤ tS83.kcp.helloCount) ∧ (tHand.slotFor (9 : W32) Session.handshake = some (7 : Nat)
  ∧ tHand.mcServes = true ∧ ecdsaVerify (tHand.session (7 : Nat)).hostKey (leBytes 64 (tHand.session (7 : Nat)).h1.toNat ++ (tHand.session (7 :
  Nat)).devSig) (tSig2 : List Byte) = true ∧ digestOf (tHand.session (7 : Nat)).hostKey ∈ tHand.fru.hostKeys ∧ p521Ecdh (tHand.session (7 :
  Nat)).devScalar (tHand.session (7 : Nat)).hostEph = some ((beBytes 66 (p521G.map (·.1) |>.getD 0)) : List Byte)) ∧ (tHand.slotFor (9 : W32)
  Session.handshake = some (7 : Nat) ∧ tHand.mcServes = true ∧ ecdsaVerify (tHand.session (7 : Nat)).hostKey (leBytes 64 (tHand.session (7 :
  Nat)).h1.toNat ++ (tHand.session (7 : Nat)).devSig) ([] : List Byte) = false) ∧ tS84.slotFor (9 : W32) (fun n => n.isOpen || n.handshake) = some
  (7 : Nat) ∧ tHand.slotFor (8 : W32) (fun n => n.isOpen || n.handshake) = none ∧ ((tS85.session (7 : Fin 8).val).isOpen = true ∧ tS85.eth.mode =
  .up) ∧ (tReady.session (7 : Fin 8).val).isOpen = false :=
  ⟨by decide +kernel, by decide, by decide, by decide, by decide +kernel, by decide +kernel, by decide, by decide, by decide, by decide⟩

theorem test_records_and_forwarding_witness : (tS86.mcServes = true ∧ tS86.eth.mode = .up ∧ 48 ≤ ((recordHeader 4 1 2 ++ List.replicate 32 0) :
  List Byte).length ∧ ((recordHeader 4 1 2 ++ List.replicate 32 0) : List Byte).take 2 = [4, 1] ∧ tS86.err.todo = [] ∧ tS86.slotFor (BitVec.ofNat
  32 (beNat ((((recordHeader 4 1 2 ++ List.replicate 32 0) : List Byte).drop 4).take 4))) Session.isOpen = some (0 : Nat) ∧ ((recordHeader 4 1 2 ++
  List.replicate 32 0) : List Byte).length ≤ (tS86.session (0 : Nat)).recordMax.toNat ∧ gcmOpen (beBytes 32 (tS86.session (0 : Nat)).keyH2d.toNat)
  (gcmNonce (tS86.session (0 : Nat)).ivH2d (beNat ((((recordHeader 4 1 2 ++ List.replicate 32 0) : List Byte).drop 8).take 8))) (((recordHeader 4 1
  2 ++ List.replicate 32 0) : List Byte).take 16) (((recordHeader 4 1 2 ++ List.replicate 32 0) : List Byte).drop 16) = none) ∧ (tS86.mcServes =
  true ∧ tS86.eth.mode = .up ∧ 48 ≤ (tRecord (kcpMessage 1 0 0 9 0 []) : List Byte).length ∧ (tRecord (kcpMessage 1 0 0 9 0 []) : List Byte).take 2
  = [4, 1] ∧ tS86.err.todo = [] ∧ tS86.inRecovery = false ∧ tS86.slotFor (BitVec.ofNat 32 (beNat (((tRecord (kcpMessage 1 0 0 9 0 []) : List
  Byte).drop 4).take 4))) Session.isOpen = some (0 : Nat) ∧ (tRecord (kcpMessage 1 0 0 9 0 []) : List Byte).length ≤ (tS86.session (0 :
  Nat)).recordMax.toNat ∧ 48 ≤ (tS86.session (0 : Nat)).recordMax.toNat ∧ (2 : Nat) = beNat (((tRecord (kcpMessage 1 0 0 9 0 []) : List Byte).drop
  8).take 8) ∧ gcmOpen (beBytes 32 (tS86.session (0 : Nat)).keyH2d.toNat) (gcmNonce (tS86.session (0 : Nat)).ivH2d (2 : Nat)) ((tRecord (kcpMessage
  1 0 0 9 0 []) : List Byte).take 16) ((tRecord (kcpMessage 1 0 0 9 0 []) : List Byte).drop 16) = some (kcpMessage 0x0001 0 tS86.fab.pkgId.toNat (9
  : W32) 0 []) ∧ (2 : Nat) < 2 ^ 48 ∧ (tS86.session (0 : Nat)).rxTop = none ∧ (tS86.session (0 : Nat)).replies = [] ∧ (tS86.session (0 :
  Nat)).running = []) ∧ (tS87.mcServes = true ∧ tS87.eth.mode = .up ∧ 48 ≤ (tRecord (kcpMessage 1 0 0 9 0 []) : List Byte).length ∧ (tRecord
  (kcpMessage 1 0 0 9 0 []) : List Byte).take 2 = [4, 1] ∧ tS87.err.todo = [] ∧ tS87.slotFor (BitVec.ofNat 32 (beNat (((tRecord (kcpMessage 1 0 0 9
  0 []) : List Byte).drop 4).take 4))) Session.isOpen = some (0 : Nat) ∧ (tRecord (kcpMessage 1 0 0 9 0 []) : List Byte).length ≤ (tS87.session (0
  : Nat)).recordMax.toNat ∧ (2 : Nat) = beNat (((tRecord (kcpMessage 1 0 0 9 0 []) : List Byte).drop 8).take 8) ∧ gcmOpen (beBytes 32 (tS87.session
  (0 : Nat)).keyH2d.toNat) (gcmNonce (tS87.session (0 : Nat)).ivH2d (2 : Nat)) ((tRecord (kcpMessage 1 0 0 9 0 []) : List Byte).take 16) ((tRecord
  (kcpMessage 1 0 0 9 0 []) : List Byte).drop 16) = some (kcpMessage 1 0 0 9 0 [] : List Byte) ∧ (kcpMessage 1 0 0 9 0 [] : List Byte).length = 16
  ∧ BitVec.ofNat 32 (beNat (((kcpMessage 1 0 0 9 0 [] : List Byte).drop 4).take 4)) = (9 : W32) ∧ (2 : Nat) < 2 ^ 48 ∧ (tS87.session (0 :
  Nat)).rxTop = none ∧ (tS87.session (0 : Nat)).replies = [({ opcode := 1, flags := 1, req := 9, status := 0, payload := [], target := 0 } :
  KcpReply)] ∧ ({ opcode := 1, flags := 1, req := 9, status := 0, payload := [], target := 0 } : KcpReply).req = (9 : W32)) ∧ (State.reset.mcServes
  = false ∧ State.reset.err.todo = []) ∧ (tRun.mcServes = true ∧ tRun.err.todo = [] ∧ parseMessage (kcpMessage 1 1 0 9 0 [] : List Byte) = some
  ({ op := 1, flags := 1, target := 0, req := 9, status := 0, length := 0, payload := [] } : KcpMsg) ∧
  ({ op := 1, flags := 1, target := 0, req := 9, status := 0, length := 0, payload := [] } : KcpMsg).sound 9120 = false ∧ (Tbl.look {}
  tRun.kcp.remote (8 * (63 : PkgId).val + (7 : Fin 8).val)).replies = [] ∧ (Tbl.look {} tRun.kcp.remote (8 * (63 : PkgId).val + (7 : Fin
  8).val)).running = []) ∧ (tS88.mc.mgmtReset = false ∧ parseMessage (kcpMessage 1 1 0 9 3 [4] : List Byte) = some
  ({ op := 1, flags := 1, target := 0, req := 9, status := 3, length := 1, payload := [4] } : KcpMsg) ∧
  ({ op := 1, flags := 1, target := 0, req := 9, status := 3, length := 1, payload := [4] } : KcpMsg).flags = 1 ∧
  { slot := (7 : Fin 8).val, req := ({ op := 1, flags := 1, target := 0, req := 9, status := 3, length := 1, payload := [4] } : KcpMsg).req, op := ({ op := 1, flags := 1, target := 0, req := 9, status := 3, length := 1, payload := [4] } : KcpMsg).op, target := (63 : PkgId).val }
  ∈ tS88.kcp.forwards) ∧ (∀ f ∈ tRun.kcp.forwards, ¬(f.slot = (7 : Fin 8).val ∧ f.req = (9 : W32))) ∧ (tS88.kcp.forwards =
  [({ slot := 7, req := 9, op := 1, target := 63 } : Forward)] ∧ ({ slot := 7, req := 9, op := 1, target := 63 } : Forward).slot = (7 : Fin 8).val)
  :=
  ⟨by decide +kernel, by decide +kernel, by decide +kernel, by decide, by decide, by decide, by decide, by decide⟩

theorem test_sequencer_loads_and_stores_witness : ((4 : Nat) = tS89.activePlane (2 : VatId).val ∧ (0xFFFFFFFFFFFC0007 : W64) = tS89.x (4 : Nat)
  (1 : RegNo) + (7 : BitVec 12).signExtend 64 ∧ tS89.seqReady (2 : VatId).val = true ∧ tS89.regsFree (4 : Nat) [(7 : RegNo), (1 : RegNo)] = true ∧
  tS89.err.todo = [] ∧ (0xFFFFFFFFFFFC0007 : W64).toNat % 2 ^ (0 : BitVec 2).toNat = 0 ∧ inSeqMem (0xFFFFFFFFFFFC0007 : W64) = true) ∧ ((4 : Nat) =
  tS90.activePlane (2 : VatId).val ∧ (0xFFFFFFFFFFFC0000 : W64) = tS90.x (4 : Nat) (1 : RegNo) + (0xFF8 : BitVec 12).signExtend 64 ∧ tS90.seqReady
  (2 : VatId).val = true ∧ tS90.regsFree (4 : Nat) [(0 : RegNo), (1 : RegNo)] = true ∧ tS90.err.todo = [] ∧ (0xFFFFFFFFFFFC0000 : W64).toNat % 2 ^
  (3 : BitVec 2).toNat = 0 ∧ inSeqMem (0xFFFFFFFFFFFC0000 : W64) = true) ∧ ((4 : Nat) = tS91.activePlane (2 : VatId).val ∧ (0xFFFFFFFFFFFFFFFF :
  W64) = tS91.x (4 : Nat) (1 : RegNo) + (0xFFF : BitVec 12).signExtend 64 ∧ tS91.seqReady (2 : VatId).val = true ∧ tS91.regsFree (4 : Nat) [(1 :
  RegNo), (1 : RegNo)] = true ∧ tS91.err.todo = [] ∧ (0xFFFFFFFFFFFFFFFF : W64).toNat % 2 ^ (0 : BitVec 2).toNat = 0 ∧ inSeqMem (0xFFFFFFFFFFFFFFFF
  : W64) = true) ∧ ((4 : Nat) = tS92.activePlane (2 : VatId).val ∧ (0xFFFFFFFFFFFC0000 : W64) = tS92.x (4 : Nat) (1 : RegNo) + (0 : BitVec
  12).signExtend 64 ∧ tS92.seqReady (2 : VatId).val = true ∧ tS92.regsFree (4 : Nat) [(1 : RegNo), (3 : RegNo)] = true ∧ tS92.err.todo = [] ∧
  (0xFFFFFFFFFFFC0000 : W64).toNat % 2 ^ (3 : BitVec 2).toNat = 0 ∧ inSeqMem (0xFFFFFFFFFFFC0000 : W64) = true) ∧ ((4 : Nat) = tS92.activePlane (2
  : VatId).val ∧ (0xFFFFFFFFFFFC0006 : W64) = tS92.x (4 : Nat) (1 : RegNo) + (6 : BitVec 12).signExtend 64 ∧ tS92.seqReady (2 : VatId).val = true ∧
  tS92.regsFree (4 : Nat) [(1 : RegNo), (3 : RegNo)] = true ∧ tS92.err.todo = [] ∧ (0xFFFFFFFFFFFC0006 : W64).toNat % 2 ^ (1 : BitVec 2).toNat = 0
  ∧ inSeqMem (0xFFFFFFFFFFFC0006 : W64) = true) ∧ ((4 : Nat) = tS92.activePlane (2 : VatId).val ∧ (0x48 : W64) = tS92.x (4 : Nat) (2 : RegNo) + (0
  : BitVec 12).signExtend 64 ∧ tS92.seqReady (2 : VatId).val = true ∧ tS92.regsFree (4 : Nat) [(7 : RegNo), (2 : RegNo)] = true ∧ tS92.err.todo =
  [] ∧ (0x48 : W64).toNat % 2 ^ (3 : BitVec 2).toNat = 0 ∧ inSeqMem (0x48 : W64) = false ∧ tS92.seqLoads (2 : VatId).val ((4 : Nat) % 2 == 1) < 16
  ∧ (tS92.plane (4 : Nat)).ctx = some (5 : Nat) ∧ tS92.translate (5 : Nat) (0x48 : W64).toNat rightR = some (0x020000000048 : Nat) ∧ tS92.routeOf
  (vatPort (2 : VatId).val) ((0x020000000048 : Nat) / 64 * 64) = .ok (0 : Nat)) ∧ ((4 : Nat) = tS92.activePlane (2 : VatId).val ∧ (0x48 : W64) =
  tS92.x (4 : Nat) (2 : RegNo) + (0 : BitVec 12).signExtend 64 ∧ tS92.seqReady (2 : VatId).val = true ∧ tS92.regsFree (4 : Nat) [(2 : RegNo), (3 :
  RegNo)] = true ∧ tS92.err.todo = [] ∧ (0x48 : W64).toNat % 2 ^ (3 : BitVec 2).toNat = 0 ∧ inSeqMem (0x48 : W64) = false ∧ tS92.seqStores (2 :
  VatId).val ((4 : Nat) % 2 == 1) < 64 ∧ (tS92.plane (4 : Nat)).ctx = some (5 : Nat) ∧ tS92.translate (5 : Nat) (0x48 : W64).toNat rightW = some
  (0x020000000048 : Nat) ∧ tS92.routeOf (vatPort (2 : VatId).val) ((0x020000000048 : Nat) / 64 * 64) = .ok (0 : Nat)) ∧ ((4 : Nat) =
  tS92.activePlane (2 : VatId).val ∧ (0xFFFFFFFFFFFC0001 : W64) = tS92.x (4 : Nat) (1 : RegNo) + (1 : BitVec 12).signExtend 64 ∧ tS92.seqReady (2 :
  VatId).val = true ∧ tS92.regsFree (4 : Nat) [(7 : RegNo), (1 : RegNo)] = true ∧ tS92.err.handlings = [] ∧ (0xFFFFFFFFFFFC0001 : W64).toNat % 2 ^
  (1 : BitVec 2).toNat ≠ 0 ∧ (tS92.plane (4 : Nat)).ctx = some (5 : Nat) ∧ (((.seqLoad 2 7 1 1 1 true : Instr) = .seqLoad (2 : VatId) (7 : RegNo)
  (1 : RegNo) (1 : BitVec 12) (1 : BitVec 2) (true : Bool) ∧ (4 : Nat) = 4) ∨ ((.seqLoad 2 7 1 1 1 true : Instr) = .seqStore (2 : VatId) (1 :
  RegNo) (7 : RegNo) (1 : BitVec 12) (1 : BitVec 2) ∧ (4 : Nat) = 6))) ∧ ((4 : Nat) = tS92.activePlane (2 : VatId).val ∧ (0xFFFFFFFFFFFC0004 : W64)
  = tS92.x (4 : Nat) (1 : RegNo) + (4 : BitVec 12).signExtend 64 ∧ tS92.seqReady (2 : VatId).val = true ∧ tS92.regsFree (4 : Nat) [(7 : RegNo), (1
  : RegNo)] = true ∧ tS92.err.handlings = [] ∧ (0xFFFFFFFFFFFC0004 : W64).toNat % 2 ^ (3 : BitVec 2).toNat ≠ 0 ∧ (tS92.plane (4 : Nat)).ctx = some
  (5 : Nat) ∧ (((.seqStore 2 1 7 4 3 : Instr) = .seqLoad (2 : VatId) (7 : RegNo) (1 : RegNo) (4 : BitVec 12) (3 : BitVec 2) (true : Bool) ∧ (6 :
  Nat) = 4) ∨ ((.seqStore 2 1 7 4 3 : Instr) = .seqStore (2 : VatId) (1 : RegNo) (7 : RegNo) (4 : BitVec 12) (3 : BitVec 2) ∧ (6 : Nat) = 6))) :=
  ⟨by decide, by decide, by decide, by decide, by decide, by decide +kernel, by decide +kernel, by decide, by decide⟩

theorem test_sequencer_atomics_witness : ((4 : Nat) = tS89.activePlane (2 : VatId).val ∧ (8 : Nat) = (if (true : Bool) then 8 else 4) ∧
  tS89.seqReady (2 : VatId).val = true ∧ tS89.regsFree (4 : Nat) [(7 : RegNo), (1 : RegNo), (0 : RegNo)] = true ∧ tS89.err.todo = [] ∧ (tS89.x (4 :
  Nat) (1 : RegNo)).toNat % (8 : Nat) = 0 ∧ inSeqMem (tS89.x (4 : Nat) (1 : RegNo)) = true) ∧ ((4 : Nat) = tS93.activePlane (2 : VatId).val ∧ (8 :
  Nat) = (if (true : Bool) then 8 else 4) ∧ tS93.seqReady (2 : VatId).val = true ∧ tS93.regsFree (4 : Nat) [(7 : RegNo), (1 : RegNo), (3 : RegNo)]
  = true ∧ tS93.err.todo = [] ∧ (tS93.x (4 : Nat) (1 : RegNo)).toNat % (8 : Nat) = 0 ∧ inSeqMem (tS93.x (4 : Nat) (1 : RegNo)) = true) ∧ ((4 : Nat)
  = tS93.activePlane (2 : VatId).val ∧ (4 : Nat) = (if (false : Bool) then 8 else 4) ∧ tS93.seqReady (2 : VatId).val = true ∧ tS93.regsFree (4 :
  Nat) [(7 : RegNo), (1 : RegNo), (3 : RegNo)] = true ∧ tS93.err.todo = [] ∧ (tS93.x (4 : Nat) (1 : RegNo)).toNat % (4 : Nat) = 0 ∧ inSeqMem
  (tS93.x (4 : Nat) (1 : RegNo)) = true) ∧ ((4 : Nat) = tS89.activePlane (2 : VatId).val ∧ (4 : Nat) = (if (false : Bool) then 8 else 4) ∧ (.maxu :
  AmoOp) ≠ .lr ∧ (.maxu : AmoOp) ≠ .sc ∧ tS89.seqReady (2 : VatId).val = true ∧ tS89.regsFree (4 : Nat) [(6 : RegNo), (6 : RegNo), (3 : RegNo)] =
  true ∧ tS89.err.todo = [] ∧ (tS89.x (4 : Nat) (6 : RegNo)).toNat % (4 : Nat) = 0 ∧ inSeqMem (tS89.x (4 : Nat) (6 : RegNo)) = true) ∧ ((4 : Nat) =
  tS92.activePlane (2 : VatId).val ∧ tS92.seqReady (2 : VatId).val = true ∧ tS92.regsFree (4 : Nat) [(7 : RegNo), (1 : RegNo), (3 : RegNo)] = true
  ∧ tS92.err.todo = [] ∧ (tS92.x (4 : Nat) (1 : RegNo)).toNat % (4 : Nat) = 0 ∧ inSeqMem (tS92.x (4 : Nat) (1 : RegNo)) = true ∧ (0 : Nat) =
  (tS92.plane (4 : Nat)).memRead (tS92.x (4 : Nat) (1 : RegNo)).toNat (4 : Nat) ∧ (((.amoaddF32 2 7 1 3 : Instr) = .amoaddF32 (2 : VatId) (7 :
  RegNo) (1 : RegNo) (3 : RegNo) ∧ (2 : Nat) = 2 ∧ (4 : Nat) = 4 ∧ (0 : Nat) = 0) ∨ ((.amoaddF32 2 7 1 3 : Instr) = .amoaddBf2 (2 : VatId) (7 :
  RegNo) (1 : RegNo) (3 : RegNo) ∧ (2 : Nat) = 3 ∧ (4 : Nat) = 4 ∧ (0 : Nat) = 0) ∨ ((.amoaddF32 2 7 1 3 : Instr) = .amominF32 (2 : VatId) (7 :
  RegNo) (1 : RegNo) (3 : RegNo) ∧ (2 : Nat) = 9 ∧ (4 : Nat) = 4 ∧ (0 : Nat) = 0) ∨ ((.amoaddF32 2 7 1 3 : Instr) = .amomaxF32 (2 : VatId) (7 :
  RegNo) (1 : RegNo) (3 : RegNo) ∧ (2 : Nat) = 10 ∧ (4 : Nat) = 4 ∧ (0 : Nat) = 0) ∨ ((.amoaddF32 2 7 1 3 : Instr) = .amocasD (2 : VatId) (7 :
  RegNo) (1 : RegNo) (3 : RegNo) ∧ (2 : Nat) = 6 ∧ (4 : Nat) = 8 ∧ (0 : Nat) = (tS92.x (4 : Nat) (7 : RegNo)).toNat))) ∧ ((4 : Nat) =
  tS92.activePlane (2 : VatId).val ∧ tS92.seqReady (2 : VatId).val = true ∧ tS92.regsFree (4 : Nat) [(7 : RegNo), (1 : RegNo), (3 : RegNo)] = true
  ∧ tS92.err.todo = [] ∧ (tS92.x (4 : Nat) (1 : RegNo)).toNat % (4 : Nat) = 0 ∧ inSeqMem (tS92.x (4 : Nat) (1 : RegNo)) = true ∧ (0 : Nat) =
  (tS92.plane (4 : Nat)).memRead (tS92.x (4 : Nat) (1 : RegNo)).toNat (4 : Nat) ∧ (((.amoaddBf2 2 7 1 3 : Instr) = .amoaddF32 (2 : VatId) (7 :
  RegNo) (1 : RegNo) (3 : RegNo) ∧ (3 : Nat) = 2 ∧ (4 : Nat) = 4 ∧ (0 : Nat) = 0) ∨ ((.amoaddBf2 2 7 1 3 : Instr) = .amoaddBf2 (2 : VatId) (7 :
  RegNo) (1 : RegNo) (3 : RegNo) ∧ (3 : Nat) = 3 ∧ (4 : Nat) = 4 ∧ (0 : Nat) = 0) ∨ ((.amoaddBf2 2 7 1 3 : Instr) = .amominF32 (2 : VatId) (7 :
  RegNo) (1 : RegNo) (3 : RegNo) ∧ (3 : Nat) = 9 ∧ (4 : Nat) = 4 ∧ (0 : Nat) = 0) ∨ ((.amoaddBf2 2 7 1 3 : Instr) = .amomaxF32 (2 : VatId) (7 :
  RegNo) (1 : RegNo) (3 : RegNo) ∧ (3 : Nat) = 10 ∧ (4 : Nat) = 4 ∧ (0 : Nat) = 0) ∨ ((.amoaddBf2 2 7 1 3 : Instr) = .amocasD (2 : VatId) (7 :
  RegNo) (1 : RegNo) (3 : RegNo) ∧ (3 : Nat) = 6 ∧ (4 : Nat) = 8 ∧ (0 : Nat) = (tS92.x (4 : Nat) (7 : RegNo)).toNat))) ∧ ((4 : Nat) =
  tS92.activePlane (2 : VatId).val ∧ tS92.seqReady (2 : VatId).val = true ∧ tS92.regsFree (4 : Nat) [(7 : RegNo), (1 : RegNo), (3 : RegNo)] = true
  ∧ tS92.err.todo = [] ∧ (tS92.x (4 : Nat) (1 : RegNo)).toNat % (4 : Nat) = 0 ∧ inSeqMem (tS92.x (4 : Nat) (1 : RegNo)) = true ∧ (0 : Nat) =
  (tS92.plane (4 : Nat)).memRead (tS92.x (4 : Nat) (1 : RegNo)).toNat (4 : Nat) ∧ (((.amominF32 2 7 1 3 : Instr) = .amoaddF32 (2 : VatId) (7 :
  RegNo) (1 : RegNo) (3 : RegNo) ∧ (9 : Nat) = 2 ∧ (4 : Nat) = 4 ∧ (0 : Nat) = 0) ∨ ((.amominF32 2 7 1 3 : Instr) = .amoaddBf2 (2 : VatId) (7 :
  RegNo) (1 : RegNo) (3 : RegNo) ∧ (9 : Nat) = 3 ∧ (4 : Nat) = 4 ∧ (0 : Nat) = 0) ∨ ((.amominF32 2 7 1 3 : Instr) = .amominF32 (2 : VatId) (7 :
  RegNo) (1 : RegNo) (3 : RegNo) ∧ (9 : Nat) = 9 ∧ (4 : Nat) = 4 ∧ (0 : Nat) = 0) ∨ ((.amominF32 2 7 1 3 : Instr) = .amomaxF32 (2 : VatId) (7 :
  RegNo) (1 : RegNo) (3 : RegNo) ∧ (9 : Nat) = 10 ∧ (4 : Nat) = 4 ∧ (0 : Nat) = 0) ∨ ((.amominF32 2 7 1 3 : Instr) = .amocasD (2 : VatId) (7 :
  RegNo) (1 : RegNo) (3 : RegNo) ∧ (9 : Nat) = 6 ∧ (4 : Nat) = 8 ∧ (0 : Nat) = (tS92.x (4 : Nat) (7 : RegNo)).toNat))) ∧ ((4 : Nat) =
  tS92.activePlane (2 : VatId).val ∧ tS92.seqReady (2 : VatId).val = true ∧ tS92.regsFree (4 : Nat) [(7 : RegNo), (1 : RegNo), (3 : RegNo)] = true
  ∧ tS92.err.todo = [] ∧ (tS92.x (4 : Nat) (1 : RegNo)).toNat % (4 : Nat) = 0 ∧ inSeqMem (tS92.x (4 : Nat) (1 : RegNo)) = true ∧ (0 : Nat) =
  (tS92.plane (4 : Nat)).memRead (tS92.x (4 : Nat) (1 : RegNo)).toNat (4 : Nat) ∧ (((.amomaxF32 2 7 1 3 : Instr) = .amoaddF32 (2 : VatId) (7 :
  RegNo) (1 : RegNo) (3 : RegNo) ∧ (10 : Nat) = 2 ∧ (4 : Nat) = 4 ∧ (0 : Nat) = 0) ∨ ((.amomaxF32 2 7 1 3 : Instr) = .amoaddBf2 (2 : VatId) (7 :
  RegNo) (1 : RegNo) (3 : RegNo) ∧ (10 : Nat) = 3 ∧ (4 : Nat) = 4 ∧ (0 : Nat) = 0) ∨ ((.amomaxF32 2 7 1 3 : Instr) = .amominF32 (2 : VatId) (7 :
  RegNo) (1 : RegNo) (3 : RegNo) ∧ (10 : Nat) = 9 ∧ (4 : Nat) = 4 ∧ (0 : Nat) = 0) ∨ ((.amomaxF32 2 7 1 3 : Instr) = .amomaxF32 (2 : VatId) (7 :
  RegNo) (1 : RegNo) (3 : RegNo) ∧ (10 : Nat) = 10 ∧ (4 : Nat) = 4 ∧ (0 : Nat) = 0) ∨ ((.amomaxF32 2 7 1 3 : Instr) = .amocasD (2 : VatId) (7 :
  RegNo) (1 : RegNo) (3 : RegNo) ∧ (10 : Nat) = 6 ∧ (4 : Nat) = 8 ∧ (0 : Nat) = (tS92.x (4 : Nat) (7 : RegNo)).toNat))) ∧ ((4 : Nat) =
  tS92.activePlane (2 : VatId).val ∧ tS92.seqReady (2 : VatId).val = true ∧ tS92.regsFree (4 : Nat) [(7 : RegNo), (1 : RegNo), (3 : RegNo)] = true
  ∧ tS92.err.todo = [] ∧ (tS92.x (4 : Nat) (1 : RegNo)).toNat % (8 : Nat) = 0 ∧ inSeqMem (tS92.x (4 : Nat) (1 : RegNo)) = true ∧ (0 : Nat) =
  (tS92.plane (4 : Nat)).memRead (tS92.x (4 : Nat) (1 : RegNo)).toNat (8 : Nat) ∧ (((.amocasD 2 7 1 3 : Instr) = .amoaddF32 (2 : VatId) (7 : RegNo)
  (1 : RegNo) (3 : RegNo) ∧ (6 : Nat) = 2 ∧ (8 : Nat) = 4 ∧ (0 : Nat) = 0) ∨ ((.amocasD 2 7 1 3 : Instr) = .amoaddBf2 (2 : VatId) (7 : RegNo) (1 :
  RegNo) (3 : RegNo) ∧ (6 : Nat) = 3 ∧ (8 : Nat) = 4 ∧ (0 : Nat) = 0) ∨ ((.amocasD 2 7 1 3 : Instr) = .amominF32 (2 : VatId) (7 : RegNo) (1 :
  RegNo) (3 : RegNo) ∧ (6 : Nat) = 9 ∧ (8 : Nat) = 4 ∧ (0 : Nat) = 0) ∨ ((.amocasD 2 7 1 3 : Instr) = .amomaxF32 (2 : VatId) (7 : RegNo) (1 :
  RegNo) (3 : RegNo) ∧ (6 : Nat) = 10 ∧ (8 : Nat) = 4 ∧ (0 : Nat) = 0) ∨ ((.amocasD 2 7 1 3 : Instr) = .amocasD (2 : VatId) (7 : RegNo) (1 : RegNo)
  (3 : RegNo) ∧ (6 : Nat) = 6 ∧ (8 : Nat) = 8 ∧ (0 : Nat) = (tS92.x (4 : Nat) (7 : RegNo)).toNat))) ∧ ((4 : Nat) = tS92.activePlane (2 : VatId).val
  ∧ tS92.seqReady (2 : VatId).val = true ∧ tS92.regsFree (4 : Nat) [(7 : RegNo), (3 : RegNo), (0 : RegNo)] = true ∧ tS92.err.handlings = [] ∧
  (tS92.x (4 : Nat) (3 : RegNo)).toNat % 8 = 0 ∧ inSeqMem (tS92.x (4 : Nat) (3 : RegNo)) = false ∧ (tS92.plane (4 : Nat)).ctx = some (5 : Nat) ∧
  (.lr : AmoOp) ∈ [AmoOp.lr, .sc, .xor, .and, .or, .minu, .maxu]) ∧ ((4 : Nat) = tS92.activePlane (2 : VatId).val ∧ tS92.seqReady (2 : VatId).val =
  true ∧ tS92.regsFree (4 : Nat) [(7 : RegNo), (3 : RegNo), (0 : RegNo)] = true ∧ tS92.err.handlings = [] ∧ (tS92.x (4 : Nat) (3 : RegNo)).toNat %
  8 = 0 ∧ inSeqMem (tS92.x (4 : Nat) (3 : RegNo)) = false ∧ (tS92.plane (4 : Nat)).ctx = some (5 : Nat) ∧ (.maxu : AmoOp) ∈ [AmoOp.lr, .sc, .xor,
  .and, .or, .minu, .maxu]) :=
  ⟨by decide, by decide, by decide, by decide, by decide, by decide, by decide, by decide, by decide, by decide, by decide⟩

theorem test_tile_groups_witness : ((4 : Nat) = tS94.activePlane (2 : VatId).val ∧ tS94.seqReady (2 : VatId).val = true ∧ tS94.regsFree (4 : Nat)
  [(7 : RegNo), (1 : RegNo), (2 : RegNo)] = true ∧ tS94.err.todo = [] ∧ (15 : Nat) = (tS94.x (4 : Nat) (2 : RegNo)).toNat % 16 ∧
  ({ row := 31, col := 0, rows := 1, cols := 32 } : Group) =
  { row := bitsAt (tS94.x (4 : Nat) (1 : RegNo)).toNat 0 6, col := bitsAt (tS94.x (4 : Nat) (1 : RegNo)).toNat 8 6, rows := bitsAt (tS94.x (4 : Nat) (1 : RegNo)).toNat 16 6, cols := bitsAt (tS94.x (4 : Nat) (1 : RegNo)).toNat 24 6 })
  ∧ ((4 : Nat) = tS95.activePlane (2 : VatId).val ∧ tS95.seqReady (2 : VatId).val = true ∧ tS95.regsFree (4 : Nat) [(7 : RegNo), (1 : RegNo), (2 :
  RegNo)] = true ∧ tS95.err.todo = [] ∧ (15 : Nat) = (tS95.x (4 : Nat) (2 : RegNo)).toNat % 16 ∧ ({ row := 31, col := 0, rows := 2, cols := 32 } :
  Group) =
  { row := bitsAt (tS95.x (4 : Nat) (1 : RegNo)).toNat 0 6, col := bitsAt (tS95.x (4 : Nat) (1 : RegNo)).toNat 8 6, rows := bitsAt (tS95.x (4 : Nat) (1 : RegNo)).toNat 16 6, cols := bitsAt (tS95.x (4 : Nat) (1 : RegNo)).toNat 24 6 })
  ∧ ((4 : Nat) = tS96.activePlane (2 : VatId).val ∧ tS96.seqReady (2 : VatId).val = true ∧ tS96.regsFree (4 : Nat) [(7 : RegNo), (1 : RegNo), (2 :
  RegNo)] = true ∧ tS96.err.todo = [] ∧ (15 : Nat) = (tS96.x (4 : Nat) (2 : RegNo)).toNat % 16 ∧ ({ row := 31, col := 0, rows := 1, cols := 32 } :
  Group) =
  { row := bitsAt (tS96.x (4 : Nat) (1 : RegNo)).toNat 0 6, col := bitsAt (tS96.x (4 : Nat) (1 : RegNo)).toNat 8 6, rows := bitsAt (tS96.x (4 : Nat) (1 : RegNo)).toNat 16 6, cols := bitsAt (tS96.x (4 : Nat) (1 : RegNo)).toNat 24 6 })
  ∧ ((4 : Nat) = tS97.activePlane (2 : VatId).val ∧ tS97.seqReady (2 : VatId).val = true ∧ tS97.regsFree (4 : Nat) [(1 : RegNo), (2 : RegNo)] =
  true ∧ tS97.err.todo = [] ∧ (tS97.group (4 : Nat) ((tS97.x (4 : Nat) (1 : RegNo)).toNat % 16)).defined = true) ∧ ((4 : Nat) = tS98.activePlane (2
  : VatId).val ∧ (tS98.plane (4 : Nat)).blocked = some (.trun (15 : Nat) (255 : Nat) (0xFFFFFFFF : W32)) ∧ tS98.tilesIdle (2 : VatId).val
  (tS98.group (4 : Nat) (15 : Nat)).tiles = true ∧ (0xFFFFFFFF : W32) ≠ 0) ∧ ((4 : Nat) = tS99.activePlane (2 : VatId).val ∧ (tS99.plane (4 :
  Nat)).blocked = some (.trun (15 : Nat) (255 : Nat) 0) ∧ tS99.tilesIdle (2 : VatId).val (tS99.group (4 : Nat) (15 : Nat)).tiles = true) ∧ ((4 :
  Nat) = tS100.activePlane (2 : VatId).val ∧ (tS100.plane (4 : Nat)).blocked = some (.trun (15 : Nat) (255 : Nat) (1 : W32)) ∧ tS100.tilesIdle (2 :
  VatId).val (tS100.group (4 : Nat) (15 : Nat)).tiles = false) ∧ ((4 : Nat) = tS101.activePlane (2 : VatId).val ∧ tS101.seqReady (2 : VatId).val =
  true ∧ tS101.regsFree (4 : Nat) [(7 : RegNo), (1 : RegNo)] = true ∧ tS101.err.todo = [] ∧ (15 : Nat) = (tS101.x (4 : Nat) (1 : RegNo)).toNat % 16
  ∧ (tS101.group (4 : Nat) (15 : Nat)).defined = true) ∧ ((4 : Nat) = tS102.activePlane (2 : VatId).val ∧ tS102.seqReady (2 : VatId).val = true ∧
  tS102.regsFree (4 : Nat) [(7 : RegNo), (1 : RegNo)] = true ∧ tS102.err.todo = [] ∧ (15 : Nat) = (tS102.x (4 : Nat) (1 : RegNo)).toNat % 16 ∧
  (tS102.group (4 : Nat) (15 : Nat)).defined = true) ∧ ((4 : Nat) = tS103.activePlane (2 : VatId).val ∧ (tS103.plane (4 : Nat)).blocked = some
  (.twait (15 : Nat) (7 : RegNo)) ∧ tS103.groupIdle (2 : VatId).val (15 : Nat) = true) ∧ ((4 : Nat) = tS104.activePlane (2 : VatId).val ∧
  tS104.seqReady (2 : VatId).val = true ∧ tS104.regsFree (4 : Nat) [(7 : RegNo), (1 : RegNo)] = true ∧ tS104.err.todo = []) ∧ ((4 : Nat) =
  tS92.activePlane (2 : VatId).val ∧ tS92.seqReady (2 : VatId).val = true ∧ tS92.regsFree (4 : Nat) [(7 : RegNo), (1 : RegNo), (2 : RegNo)] = true
  ∧ tS92.err.handlings = [] ∧ (tS92.plane (4 : Nat)).ctx = some (5 : Nat) ∧ (tS92.group (4 : Nat) ((tS92.x (4 : Nat) (1 : RegNo)).toNat %
  16)).defined = false ∧ ((.trun 2 1 2 : Instr) = .trun (2 : VatId) (1 : RegNo) (2 : RegNo) ∨ (.trun 2 1 2 : Instr) = .twait (2 : VatId) (7 :
  RegNo) (1 : RegNo))) ∧ ((4 : Nat) = tS92.activePlane (2 : VatId).val ∧ tS92.seqReady (2 : VatId).val = true ∧ tS92.regsFree (4 : Nat) [(7 :
  RegNo), (1 : RegNo), (2 : RegNo)] = true ∧ tS92.err.handlings = [] ∧ (tS92.plane (4 : Nat)).ctx = some (5 : Nat) ∧ (tS92.group (4 : Nat) ((tS92.x
  (4 : Nat) (1 : RegNo)).toNat % 16)).defined = false ∧ ((.twait 2 7 1 : Instr) = .trun (2 : VatId) (1 : RegNo) (2 : RegNo) ∨ (.twait 2 7 1 :
  Instr) = .twait (2 : VatId) (7 : RegNo) (1 : RegNo))) :=
  ⟨by decide, by decide, by decide, by decide, by decide, by decide, by decide, by decide, by decide, by decide, by decide, by decide, by decide⟩

theorem test_ladle_control_witness : ((4 : Nat) = tS105.activePlane (2 : VatId).val ∧ tS105.seqReady (2 : VatId).val = true ∧ tS105.regsFree (4 :
  Nat) [(1 : RegNo), (2 : RegNo)] = true ∧ tS105.err.todo = [] ∧ (1 : Nat) = (tS105.x (4 : Nat) (1 : RegNo)).toNat % 8 ∧ (0 : Nat) = (tS105.x (4 :
  Nat) (2 : RegNo)).toNat % 512 ∧ ((tS105.plane (4 : Nat)).ladle (1 : Nat)).idle (tS105.descOf (4 : Nat)) = true ∧ (0 : Nat) < (tS105.plane (4 :
  Nat)).descCount) ∧ ((4 : Nat) = tS106.activePlane (2 : VatId).val ∧ tS106.seqReady (2 : VatId).val = true ∧ tS106.regsFree (4 : Nat) [(1 :
  RegNo), (2 : RegNo)] = true ∧ tS106.err.handlings = [] ∧ (tS106.plane (4 : Nat)).ctx = some (5 : Nat) ∧ (1 : Nat) = (tS106.x (4 : Nat) (1 :
  RegNo)).toNat % 8 ∧ (((tS106.plane (4 : Nat)).ladle (1 : Nat)).idle (tS106.descOf (4 : Nat)) = false ∨ (tS106.plane (4 : Nat)).descCount ≤
  (tS106.x (4 : Nat) (2 : RegNo)).toNat % 512)) ∧ ((4 : Nat) = tS105.activePlane (2 : VatId).val ∧ tS105.seqReady (2 : VatId).val = true ∧
  tS105.regsFree (4 : Nat) [(1 : RegNo), (1 : RegNo)] = true ∧ tS105.err.handlings = [] ∧ (tS105.plane (4 : Nat)).ctx = some (5 : Nat) ∧ (1 : Nat)
  = (tS105.x (4 : Nat) (1 : RegNo)).toNat % 8 ∧ (((tS105.plane (4 : Nat)).ladle (1 : Nat)).idle (tS105.descOf (4 : Nat)) = false ∨ (tS105.plane (4
  : Nat)).descCount ≤ (tS105.x (4 : Nat) (1 : RegNo)).toNat % 512)) ∧ ((4 : Nat) = tS105.activePlane (2 : VatId).val ∧ tS105.seqReady (2 :
  VatId).val = true ∧ tS105.regsFree (4 : Nat) [(7 : RegNo), (1 : RegNo)] = true ∧ tS105.err.todo = [] ∧ (1 : Nat) = (tS105.x (4 : Nat) (1 :
  RegNo)).toNat % 8 ∧ ((tS105.plane (4 : Nat)).ladle (1 : Nat)).take (tS105.descOf (4 : Nat)) = .returns (-1 : W64)) ∧ ((4 : Nat) =
  tS107.activePlane (2 : VatId).val ∧ tS107.seqReady (2 : VatId).val = true ∧ tS107.regsFree (4 : Nat) [(7 : RegNo), (1 : RegNo)] = true ∧
  tS107.err.todo = [] ∧ (1 : Nat) = (tS107.x (4 : Nat) (1 : RegNo)).toNat % 8 ∧ ((tS107.plane (4 : Nat)).ladle (1 : Nat)).take (tS107.descOf (4 :
  Nat)) = .returns (0 : W64)) ∧ ((4 : Nat) = tS108.activePlane (2 : VatId).val ∧ tS108.seqReady (2 : VatId).val = true ∧ tS108.regsFree (4 : Nat)
  [(7 : RegNo), (1 : RegNo)] = true ∧ tS108.err.todo = [] ∧ (1 : Nat) = (tS108.x (4 : Nat) (1 : RegNo)).toNat % 8 ∧ ((tS108.plane (4 : Nat)).ladle
  (1 : Nat)).take (tS108.descOf (4 : Nat)) = .waits) ∧ ((4 : Nat) = tS109.activePlane (2 : VatId).val ∧ tS109.err.todo = [] ∧ (tS109.plane (4 :
  Nat)).blocked = some (.ldltake (1 : Nat) (7 : RegNo) false) ∧ ((tS109.plane (4 : Nat)).ladle (1 : Nat)).take (tS109.descOf (4 : Nat)) = .returns
  (0 : W64)) ∧ ((4 : Nat) = tS110.activePlane (2 : VatId).val ∧ tS110.seqReady (2 : VatId).val = true ∧ tS110.regsFree (4 : Nat) [(1 : RegNo), (1 :
  RegNo)] = true ∧ tS110.err.todo = [] ∧ (1 : Nat) = (tS110.x (4 : Nat) (1 : RegNo)).toNat % 8 ∧ (true : Bool) = (tS110.x (4 : Nat) (1 :
  RegNo)).getLsbD 0 ∧ ((tS110.plane (4 : Nat)).ladle (1 : Nat)).branch = some ((0 : Nat), (0 : Nat)) ∧ (true : Bool) ≠ dPredict (tS110.descOf (4 :
  Nat) (0 : Nat))) ∧ ((4 : Nat) = tS110.activePlane (2 : VatId).val ∧ tS110.seqReady (2 : VatId).val = true ∧ tS110.regsFree (4 : Nat) [(1 :
  RegNo), (2 : RegNo)] = true ∧ tS110.err.todo = [] ∧ (1 : Nat) = (tS110.x (4 : Nat) (1 : RegNo)).toNat % 8 ∧ (false : Bool) = (tS110.x (4 : Nat)
  (2 : RegNo)).getLsbD 0 ∧ ((tS110.plane (4 : Nat)).ladle (1 : Nat)).branch = some ((0 : Nat), (0 : Nat)) ∧ (false : Bool) = dPredict (tS110.descOf
  (4 : Nat) (0 : Nat))) ∧ ((4 : Nat) = tS110.activePlane (2 : VatId).val ∧ tS110.seqReady (2 : VatId).val = true ∧ tS110.regsFree (4 : Nat) [(1 :
  RegNo)] = true ∧ tS110.err.todo = [] ∧ (1 : Nat) = (tS110.x (4 : Nat) (1 : RegNo)).toNat % 8) ∧ (tS92.vat (3 : VatId).val).run ≠ .run ∧ ((4 :
  Nat) = tS106.activePlane (2 : VatId).val ∧ (tS106.vat (2 : VatId).val).run = .run ∧ (tS106.plane (4 : Nat)).issuing = true ∧ ((tS106.plane (4 :
  Nat)).ladle (1 : Fin 8).val).running = true ∧ ((tS106.plane (4 : Nat)).ladle (1 : Fin 8).val).partial' (tS106.descOf (4 : Nat)) = none ∧
  tS106.err.todo = [] ∧ ((tS106.plane (4 : Nat)).ladle (1 : Fin 8).val).next = some (0 : Nat) ∧ ((tS106.plane (4 : Nat)).ladle (1 : Fin
  8).val).mayStart (tS106.descOf (4 : Nat) (0 : Nat)) = true) :=
  ⟨by decide, by decide, by decide, by decide, by decide, by decide, by decide, by decide, by decide, by decide, by decide, by decide⟩

theorem test_fences_csrs_and_calls_witness : ((4 : Nat) = tS111.activePlane (2 : VatId).val ∧ tS111.seqReady (2 : VatId).val = true ∧
  tS111.regsFree (4 : Nat) [(7 : RegNo), (1 : RegNo)] = true ∧ tS111.err.todo = [] ∧ (tS111.plane (4 : Nat)).ctx = some (5 : Nat) ∧ (((.ffence 2 7
  1 : Instr) = .ffence (2 : VatId) (7 : RegNo) (1 : RegNo) ∧ (0x1FF : BitVec 9) = (tS111.x (4 : Nat) (1 : RegNo)).truncate 9) ∨ ((.ffence 2 7 1 :
  Instr) = .fence (2 : VatId) ∧ (0x1FF : BitVec 9) = 0x100 ∧ (7 : RegNo) = 0)) ∧ tS111.fab.ops.any (fenced (2 : VatId).val ((4 : Nat) % 2 == 1)
  (0x1FF : BitVec 9)) = false ∧ tS111.flexOpen (5 : Nat) = false ∧ (∀ k, k < 8 → (0x1FF : BitVec 9).getLsbD k = true → ∀ x ∈ ((tS111.plane (4 :
  Nat)).ladle k).iters, x.store = true → x.cellsLeft = 0)) ∧ ((4 : Nat) = tS92.activePlane (2 : VatId).val ∧ tS92.seqReady (2 : VatId).val = true ∧
  tS92.regsFree (4 : Nat) [(0 : RegNo), (1 : RegNo)] = true ∧ tS92.err.todo = [] ∧ (tS92.plane (4 : Nat)).ctx = some (5 : Nat) ∧ (((.fence 2 :
  Instr) = .ffence (2 : VatId) (0 : RegNo) (1 : RegNo) ∧ (0x100 : BitVec 9) = (tS92.x (4 : Nat) (1 : RegNo)).truncate 9) ∨ ((.fence 2 : Instr) =
  .fence (2 : VatId) ∧ (0x100 : BitVec 9) = 0x100 ∧ (0 : RegNo) = 0)) ∧ tS92.fab.ops.any (fenced (2 : VatId).val ((4 : Nat) % 2 == 1) (0x100 :
  BitVec 9)) = false ∧ tS92.flexOpen (5 : Nat) = false ∧ (∀ k, k < 8 → (0x100 : BitVec 9).getLsbD k = true → ∀ x ∈ ((tS92.plane (4 : Nat)).ladle
  k).iters, x.store = true → x.cellsLeft = 0)) ∧ ((4 : Nat) = tS112.activePlane (2 : VatId).val ∧ tS112.seqReady (2 : VatId).val = true ∧
  tS112.regsFree (4 : Nat) [(7 : RegNo), (1 : RegNo)] = true ∧ tS112.err.todo = [] ∧ (((.ffence 2 7 1 : Instr) = .ffence (2 : VatId) (7 : RegNo) (1
  : RegNo) ∧ (0x1FF : BitVec 9) = (tS112.x (4 : Nat) (1 : RegNo)).truncate 9) ∨ ((.ffence 2 7 1 : Instr) = .fence (2 : VatId) ∧ (0x1FF : BitVec 9)
  = 0x100 ∧ (7 : RegNo) = 0)) ∧ tS112.fab.ops.any (fenced (2 : VatId).val ((4 : Nat) % 2 == 1) (0x1FF : BitVec 9)) = true) ∧ ((4 : Nat) =
  tS113.activePlane (2 : VatId).val ∧ (tS113.plane (4 : Nat)).blocked = some (.ffence 0 (7 : RegNo))) ∧ ((4 : Nat) = tS114.activePlane (2 :
  VatId).val ∧ (tS114.plane (4 : Nat)).blocked = some (.ffence (0x100 : BitVec 9) (7 : RegNo)) ∧ tS114.fab.ops.any (fenced (2 : VatId).val ((4 :
  Nat) % 2 == 1) (0x100 : BitVec 9)) = true) ∧ ((4 : Nat) = tS92.activePlane (2 : VatId).val ∧ tS92.seqReady (2 : VatId).val = true ∧ tS92.regsFree
  (4 : Nat) [(7 : RegNo), (0 : RegNo)] = true ∧ tS92.err.todo = [] ∧ (((0xCC0 : BitVec 12) = 0xCC0 ∧ (5 : W64) = BitVec.ofNat 64 ((tS92.plane (4 :
  Nat)).ctx.getD 0)) ∨ ((0xCC0 : BitVec 12) = 0xCC1 ∧ (5 : W64) = BitVec.ofNat 64 (2 : VatId).val) ∨ ((0xCC0 : BitVec 12) = 0xCC3 ∧ (5 : W64) =
  (tS92.plane (4 : Nat)).vbnd.zeroExtend 64) ∨ ((0xCC0 : BitVec 12) ∈ [0xB00, 0xC00] ∧ (5 : W64) = (tS92.vat (2 : VatId).val).cycles) ∨ ((0xCC0 :
  BitVec 12) ∈ [0xB02, 0xC02] ∧ (5 : W64) = (tS92.plane (4 : Nat)).minstret) ∨ ((0xCC0 : BitVec 12) = 0xC01 ∧ (5 : W64) = tS92.clk.now) ∨ ((0xCC0 :
  BitVec 12) ∈ [0xF11, 0xF12, 0xF13] ∧ (5 : W64) = 0) ∨ ((0xCC0 : BitVec 12) = 0xF14 ∧ (5 : W64) = BitVec.ofNat 64 (2 : VatId).val) ∨ ((0xCC0 :
  BitVec 12) = 0x301 ∧ (5 : W64) = 0x8000000000001105)) ∧ (((.setBits : CsrOp) ≠ .write ∧ (0 : RegNo) = 0) ∨ (0xCC0 : BitVec 12) ∈ [0xB00, 0xB02]))
  ∧ ((4 : Nat) = tS92.activePlane (2 : VatId).val ∧ tS92.seqReady (2 : VatId).val = true ∧ tS92.regsFree (4 : Nat) [(7 : RegNo), (3 : RegNo)] =
  true ∧ tS92.err.todo = [] ∧ (((0xB00 : BitVec 12) = 0xCC0 ∧ (0 : W64) = BitVec.ofNat 64 ((tS92.plane (4 : Nat)).ctx.getD 0)) ∨ ((0xB00 : BitVec
  12) = 0xCC1 ∧ (0 : W64) = BitVec.ofNat 64 (2 : VatId).val) ∨ ((0xB00 : BitVec 12) = 0xCC3 ∧ (0 : W64) = (tS92.plane (4 : Nat)).vbnd.zeroExtend
  64) ∨ ((0xB00 : BitVec 12) ∈ [0xB00, 0xC00] ∧ (0 : W64) = (tS92.vat (2 : VatId).val).cycles) ∨ ((0xB00 : BitVec 12) ∈ [0xB02, 0xC02] ∧ (0 : W64)
  = (tS92.plane (4 : Nat)).minstret) ∨ ((0xB00 : BitVec 12) = 0xC01 ∧ (0 : W64) = tS92.clk.now) ∨ ((0xB00 : BitVec 12) ∈ [0xF11, 0xF12, 0xF13] ∧ (0
  : W64) = 0) ∨ ((0xB00 : BitVec 12) = 0xF14 ∧ (0 : W64) = BitVec.ofNat 64 (2 : VatId).val) ∨ ((0xB00 : BitVec 12) = 0x301 ∧ (0 : W64) =
  0x8000000000001105)) ∧ (((.write : CsrOp) ≠ .write ∧ (3 : RegNo) = 0) ∨ (0xB00 : BitVec 12) ∈ [0xB00, 0xB02])) ∧ ((4 : Nat) = tS92.activePlane (2
  : VatId).val ∧ tS92.seqReady (2 : VatId).val = true ∧ tS92.regsFree (4 : Nat) [(7 : RegNo), (0 : RegNo)] = true ∧ tS92.err.todo = [] ∧ (((0x301 :
  BitVec 12) = 0xCC0 ∧ (0x8000000000001105 : W64) = BitVec.ofNat 64 ((tS92.plane (4 : Nat)).ctx.getD 0)) ∨ ((0x301 : BitVec 12) = 0xCC1 ∧
  (0x8000000000001105 : W64) = BitVec.ofNat 64 (2 : VatId).val) ∨ ((0x301 : BitVec 12) = 0xCC3 ∧ (0x8000000000001105 : W64) = (tS92.plane (4 :
  Nat)).vbnd.zeroExtend 64) ∨ ((0x301 : BitVec 12) ∈ [0xB00, 0xC00] ∧ (0x8000000000001105 : W64) = (tS92.vat (2 : VatId).val).cycles) ∨ ((0x301 :
  BitVec 12) ∈ [0xB02, 0xC02] ∧ (0x8000000000001105 : W64) = (tS92.plane (4 : Nat)).minstret) ∨ ((0x301 : BitVec 12) = 0xC01 ∧ (0x8000000000001105
  : W64) = tS92.clk.now) ∨ ((0x301 : BitVec 12) ∈ [0xF11, 0xF12, 0xF13] ∧ (0x8000000000001105 : W64) = 0) ∨ ((0x301 : BitVec 12) = 0xF14 ∧
  (0x8000000000001105 : W64) = BitVec.ofNat 64 (2 : VatId).val) ∨ ((0x301 : BitVec 12) = 0x301 ∧ (0x8000000000001105 : W64) = 0x8000000000001105))
  ∧ (((.clearBits : CsrOp) ≠ .write ∧ (0 : RegNo) = 0) ∨ (0x301 : BitVec 12) ∈ [0xB00, 0xB02])) ∧ ((4 : Nat) = tS92.activePlane (2 : VatId).val ∧
  tS92.seqReady (2 : VatId).val = true ∧ tS92.regsFree (4 : Nat) [(7 : RegNo), (0 : RegNo)] = true ∧ tS92.err.handlings = [] ∧ (tS92.plane (4 :
  Nat)).ctx = some (5 : Nat) ∧ (((0xCC2 : BitVec 12) ∈ [0xCC0, 0xCC1, 0xCC2, 0xCC3, 0xC00, 0xC01, 0xC02, 0x301, 0xF11, 0xF12, 0xF13, 0xF14] ∧
  ((.write : CsrOp) = .write ∨ (0 : RegNo) ≠ 0)) ∨ (0xCC2 : BitVec 12) ∈ [0x300, 0x304, 0x305, 0x340, 0x341, 0x342])) ∧ ((4 : Nat) =
  tS92.activePlane (2 : VatId).val ∧ tS92.seqReady (2 : VatId).val = true ∧ tS92.regsFree (4 : Nat) [(7 : RegNo), (0 : RegNo)] = true ∧
  tS92.err.handlings = [] ∧ (tS92.plane (4 : Nat)).ctx = some (5 : Nat) ∧ (((0x300 : BitVec 12) ∈ [0xCC0, 0xCC1, 0xCC2, 0xCC3, 0xC00, 0xC01, 0xC02,
  0x301, 0xF11, 0xF12, 0xF13, 0xF14] ∧ ((.setBits : CsrOp) = .write ∨ (0 : RegNo) ≠ 0)) ∨ (0x300 : BitVec 12) ∈ [0x300, 0x304, 0x305, 0x340, 0x341,
  0x342])) ∧ ((4 : Nat) = tS92.activePlane (2 : VatId).val ∧ tS92.seqReady (2 : VatId).val = true ∧ tS92.regsFree (4 : Nat) [10] = true ∧
  tS92.err.todo = [] ∧ (tS92.plane (4 : Nat)).ctx = some (5 : Nat) ∧ tS92.x (4 : Nat) 10 = 0) ∧ ((4 : Nat) = tS115.activePlane (2 : VatId).val ∧
  tS115.seqReady (2 : VatId).val = true ∧ tS115.regsFree (4 : Nat) [10] = true ∧ tS115.err.handlings = [] ∧ (tS115.plane (4 : Nat)).ctx = some (5 :
  Nat) ∧ tS115.x (4 : Nat) 10 ≠ 0) ∧ ((4 : Nat) = tS92.activePlane (2 : VatId).val ∧ tS92.seqReady (2 : VatId).val = true ∧ tS92.err.handlings = []
  ∧ (tS92.plane (4 : Nat)).ctx = some (5 : Nat)) ∧ ((4 : Nat) = tS92.activePlane (2 : VatId).val ∧ tS92.seqReady (2 : VatId).val = true ∧
  tS92.err.todo = []) :=
  ⟨by decide, by decide, by decide, by decide, by decide, by decide, by decide, by decide, by decide, by decide, by decide, by decide, by decide,
    by decide⟩

theorem test_base_instructions_witness : ((4 : Nat) = tS116.activePlane (2 : VatId).val ∧ tS116.seqReady (2 : VatId).val = true ∧ tS116.err.todo
  = [] ∧ (tS116.plane (4 : Nat)).busy = 0 ∧ inSeqMem (tS116.plane (4 : Nat)).pc = true ∧ inSeqMem ((tS116.plane (4 : Nat)).pc + 2) = true ∧
  (0x00310133 : Nat) = (tS116.plane (4 : Nat)).memRead (tS116.plane (4 : Nat)).pc.toNat 4 ∧ (2 : RegNo) = rvRd (0x00310133 : Nat) ∧ (2 : RegNo) =
  rvRs1 (0x00310133 : Nat) ∧ (3 : RegNo) = rvRs2 (0x00310133 : Nat) ∧ (((0x00310133 : Nat) % 128 = 0x33 ∧ rvF3 (0x00310133 : Nat) = 0 ∧ rvF7
  (0x00310133 : Nat) = 0 ∧ (0x11223344556677D0 : W64) = tS116.x (4 : Nat) (2 : RegNo) + tS116.x (4 : Nat) (3 : RegNo)) ∨ ((0x00310133 : Nat) % 128
  = 0x33 ∧ rvF3 (0x00310133 : Nat) = 0 ∧ rvF7 (0x00310133 : Nat) = 0x20 ∧ (0x11223344556677D0 : W64) = tS116.x (4 : Nat) (2 : RegNo) - tS116.x (4 :
  Nat) (3 : RegNo)) ∨ ((0x00310133 : Nat) % 128 = 0x13 ∧ rvF3 (0x00310133 : Nat) = 0 ∧ (0x11223344556677D0 : W64) = tS116.x (4 : Nat) (2 : RegNo) +
  (rvImmI (0x00310133 : Nat)).signExtend 64) ∨ ((0x00310133 : Nat) % 128 = 0x13 ∧ rvF3 (0x00310133 : Nat) = 7 ∧ (0x11223344556677D0 : W64) =
  tS116.x (4 : Nat) (2 : RegNo) &&& (rvImmI (0x00310133 : Nat)).signExtend 64) ∨ ((0x00310133 : Nat) % 128 = 0x33 ∧ rvF3 (0x00310133 : Nat) = 0 ∧
  rvF7 (0x00310133 : Nat) = 1 ∧ (0x11223344556677D0 : W64) = tS116.x (4 : Nat) (2 : RegNo) * tS116.x (4 : Nat) (3 : RegNo)) ∨ ((0x00310133 : Nat) %
  128 = 0x33 ∧ rvF3 (0x00310133 : Nat) = 5 ∧ rvF7 (0x00310133 : Nat) = 1 ∧ tS116.x (4 : Nat) (3 : RegNo) = 0 ∧ (0x11223344556677D0 : W64) = -1) ∨
  ((0x00310133 : Nat) % 128 = 0x37 ∧ (0x11223344556677D0 : W64) = (rvImmU (0x00310133 : Nat)).signExtend 64) ∨ ((0x00310133 : Nat) % 128 = 0x17 ∧
  (0x11223344556677D0 : W64) = (tS116.plane (4 : Nat)).pc + (rvImmU (0x00310133 : Nat)).signExtend 64))) ∧ ((4 : Nat) = tS117.activePlane (2 :
  VatId).val ∧ tS117.seqReady (2 : VatId).val = true ∧ tS117.err.todo = [] ∧ (tS117.plane (4 : Nat)).busy = 0 ∧ inSeqMem (tS117.plane (4 : Nat)).pc
  = true ∧ inSeqMem ((tS117.plane (4 : Nat)).pc + 2) = true ∧ (0x40310033 : Nat) = (tS117.plane (4 : Nat)).memRead (tS117.plane (4 : Nat)).pc.toNat
  4 ∧ (0 : RegNo) = rvRd (0x40310033 : Nat) ∧ (2 : RegNo) = rvRs1 (0x40310033 : Nat) ∧ (3 : RegNo) = rvRs2 (0x40310033 : Nat) ∧ (((0x40310033 :
  Nat) % 128 = 0x33 ∧ rvF3 (0x40310033 : Nat) = 0 ∧ rvF7 (0x40310033 : Nat) = 0 ∧ ((0x48 - 0x1122334455667788) : W64) = tS117.x (4 : Nat) (2 :
  RegNo) + tS117.x (4 : Nat) (3 : RegNo)) ∨ ((0x40310033 : Nat) % 128 = 0x33 ∧ rvF3 (0x40310033 : Nat) = 0 ∧ rvF7 (0x40310033 : Nat) = 0x20 ∧
  ((0x48 - 0x1122334455667788) : W64) = tS117.x (4 : Nat) (2 : RegNo) - tS117.x (4 : Nat) (3 : RegNo)) ∨ ((0x40310033 : Nat) % 128 = 0x13 ∧ rvF3
  (0x40310033 : Nat) = 0 ∧ ((0x48 - 0x1122334455667788) : W64) = tS117.x (4 : Nat) (2 : RegNo) + (rvImmI (0x40310033 : Nat)).signExtend 64) ∨
  ((0x40310033 : Nat) % 128 = 0x13 ∧ rvF3 (0x40310033 : Nat) = 7 ∧ ((0x48 - 0x1122334455667788) : W64) = tS117.x (4 : Nat) (2 : RegNo) &&& (rvImmI
  (0x40310033 : Nat)).signExtend 64) ∨ ((0x40310033 : Nat) % 128 = 0x33 ∧ rvF3 (0x40310033 : Nat) = 0 ∧ rvF7 (0x40310033 : Nat) = 1 ∧ ((0x48 -
  0x1122334455667788) : W64) = tS117.x (4 : Nat) (2 : RegNo) * tS117.x (4 : Nat) (3 : RegNo)) ∨ ((0x40310033 : Nat) % 128 = 0x33 ∧ rvF3 (0x40310033
  : Nat) = 5 ∧ rvF7 (0x40310033 : Nat) = 1 ∧ tS117.x (4 : Nat) (3 : RegNo) = 0 ∧ ((0x48 - 0x1122334455667788) : W64) = -1) ∨ ((0x40310033 : Nat) %
  128 = 0x37 ∧ ((0x48 - 0x1122334455667788) : W64) = (rvImmU (0x40310033 : Nat)).signExtend 64) ∨ ((0x40310033 : Nat) % 128 = 0x17 ∧ ((0x48 -
  0x1122334455667788) : W64) = (tS117.plane (4 : Nat)).pc + (rvImmU (0x40310033 : Nat)).signExtend 64))) ∧ ((4 : Nat) = tS118.activePlane (2 :
  VatId).val ∧ tS118.seqReady (2 : VatId).val = true ∧ tS118.err.todo = [] ∧ (tS118.plane (4 : Nat)).busy = 0 ∧ inSeqMem (tS118.plane (4 : Nat)).pc
  = true ∧ inSeqMem ((tS118.plane (4 : Nat)).pc + 2) = true ∧ (0xFFF00393 : Nat) = (tS118.plane (4 : Nat)).memRead (tS118.plane (4 : Nat)).pc.toNat
  4 ∧ (7 : RegNo) = rvRd (0xFFF00393 : Nat) ∧ (0 : RegNo) = rvRs1 (0xFFF00393 : Nat) ∧ (31 : RegNo) = rvRs2 (0xFFF00393 : Nat) ∧ (((0xFFF00393 :
  Nat) % 128 = 0x33 ∧ rvF3 (0xFFF00393 : Nat) = 0 ∧ rvF7 (0xFFF00393 : Nat) = 0 ∧ (-1 : W64) = tS118.x (4 : Nat) (0 : RegNo) + tS118.x (4 : Nat)
  (31 : RegNo)) ∨ ((0xFFF00393 : Nat) % 128 = 0x33 ∧ rvF3 (0xFFF00393 : Nat) = 0 ∧ rvF7 (0xFFF00393 : Nat) = 0x20 ∧ (-1 : W64) = tS118.x (4 : Nat)
  (0 : RegNo) - tS118.x (4 : Nat) (31 : RegNo)) ∨ ((0xFFF00393 : Nat) % 128 = 0x13 ∧ rvF3 (0xFFF00393 : Nat) = 0 ∧ (-1 : W64) = tS118.x (4 : Nat)
  (0 : RegNo) + (rvImmI (0xFFF00393 : Nat)).signExtend 64) ∨ ((0xFFF00393 : Nat) % 128 = 0x13 ∧ rvF3 (0xFFF00393 : Nat) = 7 ∧ (-1 : W64) = tS118.x
  (4 : Nat) (0 : RegNo) &&& (rvImmI (0xFFF00393 : Nat)).signExtend 64) ∨ ((0xFFF00393 : Nat) % 128 = 0x33 ∧ rvF3 (0xFFF00393 : Nat) = 0 ∧ rvF7
  (0xFFF00393 : Nat) = 1 ∧ (-1 : W64) = tS118.x (4 : Nat) (0 : RegNo) * tS118.x (4 : Nat) (31 : RegNo)) ∨ ((0xFFF00393 : Nat) % 128 = 0x33 ∧ rvF3
  (0xFFF00393 : Nat) = 5 ∧ rvF7 (0xFFF00393 : Nat) = 1 ∧ tS118.x (4 : Nat) (31 : RegNo) = 0 ∧ (-1 : W64) = -1) ∨ ((0xFFF00393 : Nat) % 128 = 0x37 ∧
  (-1 : W64) = (rvImmU (0xFFF00393 : Nat)).signExtend 64) ∨ ((0xFFF00393 : Nat) % 128 = 0x17 ∧ (-1 : W64) = (tS118.plane (4 : Nat)).pc + (rvImmU
  (0xFFF00393 : Nat)).signExtend 64))) ∧ ((4 : Nat) = tS119.activePlane (2 : VatId).val ∧ tS119.seqReady (2 : VatId).val = true ∧ tS119.err.todo =
  [] ∧ (tS119.plane (4 : Nat)).busy = 0 ∧ inSeqMem (tS119.plane (4 : Nat)).pc = true ∧ inSeqMem ((tS119.plane (4 : Nat)).pc + 2) = true ∧
  (0x0FF1F393 : Nat) = (tS119.plane (4 : Nat)).memRead (tS119.plane (4 : Nat)).pc.toNat 4 ∧ (7 : RegNo) = rvRd (0x0FF1F393 : Nat) ∧ (3 : RegNo) =
  rvRs1 (0x0FF1F393 : Nat) ∧ (31 : RegNo) = rvRs2 (0x0FF1F393 : Nat) ∧ (((0x0FF1F393 : Nat) % 128 = 0x33 ∧ rvF3 (0x0FF1F393 : Nat) = 0 ∧ rvF7
  (0x0FF1F393 : Nat) = 0 ∧ (0x88 : W64) = tS119.x (4 : Nat) (3 : RegNo) + tS119.x (4 : Nat) (31 : RegNo)) ∨ ((0x0FF1F393 : Nat) % 128 = 0x33 ∧ rvF3
  (0x0FF1F393 : Nat) = 0 ∧ rvF7 (0x0FF1F393 : Nat) = 0x20 ∧ (0x88 : W64) = tS119.x (4 : Nat) (3 : RegNo) - tS119.x (4 : Nat) (31 : RegNo)) ∨
  ((0x0FF1F393 : Nat) % 128 = 0x13 ∧ rvF3 (0x0FF1F393 : Nat) = 0 ∧ (0x88 : W64) = tS119.x (4 : Nat) (3 : RegNo) + (rvImmI (0x0FF1F393 :
  Nat)).signExtend 64) ∨ ((0x0FF1F393 : Nat) % 128 = 0x13 ∧ rvF3 (0x0FF1F393 : Nat) = 7 ∧ (0x88 : W64) = tS119.x (4 : Nat) (3 : RegNo) &&& (rvImmI
  (0x0FF1F393 : Nat)).signExtend 64) ∨ ((0x0FF1F393 : Nat) % 128 = 0x33 ∧ rvF3 (0x0FF1F393 : Nat) = 0 ∧ rvF7 (0x0FF1F393 : Nat) = 1 ∧ (0x88 : W64)
  = tS119.x (4 : Nat) (3 : RegNo) * tS119.x (4 : Nat) (31 : RegNo)) ∨ ((0x0FF1F393 : Nat) % 128 = 0x33 ∧ rvF3 (0x0FF1F393 : Nat) = 5 ∧ rvF7
  (0x0FF1F393 : Nat) = 1 ∧ tS119.x (4 : Nat) (31 : RegNo) = 0 ∧ (0x88 : W64) = -1) ∨ ((0x0FF1F393 : Nat) % 128 = 0x37 ∧ (0x88 : W64) = (rvImmU
  (0x0FF1F393 : Nat)).signExtend 64) ∨ ((0x0FF1F393 : Nat) % 128 = 0x17 ∧ (0x88 : W64) = (tS119.plane (4 : Nat)).pc + (rvImmU (0x0FF1F393 :
  Nat)).signExtend 64))) ∧ ((4 : Nat) = tS120.activePlane (2 : VatId).val ∧ tS120.seqReady (2 : VatId).val = true ∧ tS120.err.todo = [] ∧
  (tS120.plane (4 : Nat)).busy = 0 ∧ inSeqMem (tS120.plane (4 : Nat)).pc = true ∧ inSeqMem ((tS120.plane (4 : Nat)).pc + 2) = true ∧ (0x023103B3 :
  Nat) = (tS120.plane (4 : Nat)).memRead (tS120.plane (4 : Nat)).pc.toNat 4 ∧ (7 : RegNo) = rvRd (0x023103B3 : Nat) ∧ (2 : RegNo) = rvRs1
  (0x023103B3 : Nat) ∧ (3 : RegNo) = rvRs2 (0x023103B3 : Nat) ∧ (((0x023103B3 : Nat) % 128 = 0x33 ∧ rvF3 (0x023103B3 : Nat) = 0 ∧ rvF7 (0x023103B3
  : Nat) = 0 ∧ ((0x48 * 0x1122334455667788) : W64) = tS120.x (4 : Nat) (2 : RegNo) + tS120.x (4 : Nat) (3 : RegNo)) ∨ ((0x023103B3 : Nat) % 128 =
  0x33 ∧ rvF3 (0x023103B3 : Nat) = 0 ∧ rvF7 (0x023103B3 : Nat) = 0x20 ∧ ((0x48 * 0x1122334455667788) : W64) = tS120.x (4 : Nat) (2 : RegNo) -
  tS120.x (4 : Nat) (3 : RegNo)) ∨ ((0x023103B3 : Nat) % 128 = 0x13 ∧ rvF3 (0x023103B3 : Nat) = 0 ∧ ((0x48 * 0x1122334455667788) : W64) = tS120.x
  (4 : Nat) (2 : RegNo) + (rvImmI (0x023103B3 : Nat)).signExtend 64) ∨ ((0x023103B3 : Nat) % 128 = 0x13 ∧ rvF3 (0x023103B3 : Nat) = 7 ∧ ((0x48 *
  0x1122334455667788) : W64) = tS120.x (4 : Nat) (2 : RegNo) &&& (rvImmI (0x023103B3 : Nat)).signExtend 64) ∨ ((0x023103B3 : Nat) % 128 = 0x33 ∧
  rvF3 (0x023103B3 : Nat) = 0 ∧ rvF7 (0x023103B3 : Nat) = 1 ∧ ((0x48 * 0x1122334455667788) : W64) = tS120.x (4 : Nat) (2 : RegNo) * tS120.x (4 :
  Nat) (3 : RegNo)) ∨ ((0x023103B3 : Nat) % 128 = 0x33 ∧ rvF3 (0x023103B3 : Nat) = 5 ∧ rvF7 (0x023103B3 : Nat) = 1 ∧ tS120.x (4 : Nat) (3 : RegNo)
  = 0 ∧ ((0x48 * 0x1122334455667788) : W64) = -1) ∨ ((0x023103B3 : Nat) % 128 = 0x37 ∧ ((0x48 * 0x1122334455667788) : W64) = (rvImmU (0x023103B3 :
  Nat)).signExtend 64) ∨ ((0x023103B3 : Nat) % 128 = 0x17 ∧ ((0x48 * 0x1122334455667788) : W64) = (tS120.plane (4 : Nat)).pc + (rvImmU (0x023103B3
  : Nat)).signExtend 64))) ∧ ((4 : Nat) = tS121.activePlane (2 : VatId).val ∧ tS121.seqReady (2 : VatId).val = true ∧ tS121.err.todo = [] ∧
  (tS121.plane (4 : Nat)).busy = 0 ∧ inSeqMem (tS121.plane (4 : Nat)).pc = true ∧ inSeqMem ((tS121.plane (4 : Nat)).pc + 2) = true ∧ (0x0201D3B3 :
  Nat) = (tS121.plane (4 : Nat)).memRead (tS121.plane (4 : Nat)).pc.toNat 4 ∧ (7 : RegNo) = rvRd (0x0201D3B3 : Nat) ∧ (3 : RegNo) = rvRs1
  (0x0201D3B3 : Nat) ∧ (0 : RegNo) = rvRs2 (0x0201D3B3 : Nat) ∧ (((0x0201D3B3 : Nat) % 128 = 0x33 ∧ rvF3 (0x0201D3B3 : Nat) = 0 ∧ rvF7 (0x0201D3B3
  : Nat) = 0 ∧ (-1 : W64) = tS121.x (4 : Nat) (3 : RegNo) + tS121.x (4 : Nat) (0 : RegNo)) ∨ ((0x0201D3B3 : Nat) % 128 = 0x33 ∧ rvF3 (0x0201D3B3 :
  Nat) = 0 ∧ rvF7 (0x0201D3B3 : Nat) = 0x20 ∧ (-1 : W64) = tS121.x (4 : Nat) (3 : RegNo) - tS121.x (4 : Nat) (0 : RegNo)) ∨ ((0x0201D3B3 : Nat) %
  128 = 0x13 ∧ rvF3 (0x0201D3B3 : Nat) = 0 ∧ (-1 : W64) = tS121.x (4 : Nat) (3 : RegNo) + (rvImmI (0x0201D3B3 : Nat)).signExtend 64) ∨ ((0x0201D3B3
  : Nat) % 128 = 0x13 ∧ rvF3 (0x0201D3B3 : Nat) = 7 ∧ (-1 : W64) = tS121.x (4 : Nat) (3 : RegNo) &&& (rvImmI (0x0201D3B3 : Nat)).signExtend 64) ∨
  ((0x0201D3B3 : Nat) % 128 = 0x33 ∧ rvF3 (0x0201D3B3 : Nat) = 0 ∧ rvF7 (0x0201D3B3 : Nat) = 1 ∧ (-1 : W64) = tS121.x (4 : Nat) (3 : RegNo) *
  tS121.x (4 : Nat) (0 : RegNo)) ∨ ((0x0201D3B3 : Nat) % 128 = 0x33 ∧ rvF3 (0x0201D3B3 : Nat) = 5 ∧ rvF7 (0x0201D3B3 : Nat) = 1 ∧ tS121.x (4 : Nat)
  (0 : RegNo) = 0 ∧ (-1 : W64) = -1) ∨ ((0x0201D3B3 : Nat) % 128 = 0x37 ∧ (-1 : W64) = (rvImmU (0x0201D3B3 : Nat)).signExtend 64) ∨ ((0x0201D3B3 :
  Nat) % 128 = 0x17 ∧ (-1 : W64) = (tS121.plane (4 : Nat)).pc + (rvImmU (0x0201D3B3 : Nat)).signExtend 64))) ∧ ((4 : Nat) = tS122.activePlane (2 :
  VatId).val ∧ tS122.seqReady (2 : VatId).val = true ∧ tS122.err.todo = [] ∧ (tS122.plane (4 : Nat)).busy = 0 ∧ inSeqMem (tS122.plane (4 : Nat)).pc
  = true ∧ inSeqMem ((tS122.plane (4 : Nat)).pc + 2) = true ∧ (0x800003B7 : Nat) = (tS122.plane (4 : Nat)).memRead (tS122.plane (4 : Nat)).pc.toNat
  4 ∧ (7 : RegNo) = rvRd (0x800003B7 : Nat) ∧ (0 : RegNo) = rvRs1 (0x800003B7 : Nat) ∧ (0 : RegNo) = rvRs2 (0x800003B7 : Nat) ∧ (((0x800003B7 :
  Nat) % 128 = 0x33 ∧ rvF3 (0x800003B7 : Nat) = 0 ∧ rvF7 (0x800003B7 : Nat) = 0 ∧ (0xFFFFFFFF80000000 : W64) = tS122.x (4 : Nat) (0 : RegNo) +
  tS122.x (4 : Nat) (0 : RegNo)) ∨ ((0x800003B7 : Nat) % 128 = 0x33 ∧ rvF3 (0x800003B7 : Nat) = 0 ∧ rvF7 (0x800003B7 : Nat) = 0x20 ∧
  (0xFFFFFFFF80000000 : W64) = tS122.x (4 : Nat) (0 : RegNo) - tS122.x (4 : Nat) (0 : RegNo)) ∨ ((0x800003B7 : Nat) % 128 = 0x13 ∧ rvF3 (0x800003B7
  : Nat) = 0 ∧ (0xFFFFFFFF80000000 : W64) = tS122.x (4 : Nat) (0 : RegNo) + (rvImmI (0x800003B7 : Nat)).signExtend 64) ∨ ((0x800003B7 : Nat) % 128
  = 0x13 ∧ rvF3 (0x800003B7 : Nat) = 7 ∧ (0xFFFFFFFF80000000 : W64) = tS122.x (4 : Nat) (0 : RegNo) &&& (rvImmI (0x800003B7 : Nat)).signExtend 64)
  ∨ ((0x800003B7 : Nat) % 128 = 0x33 ∧ rvF3 (0x800003B7 : Nat) = 0 ∧ rvF7 (0x800003B7 : Nat) = 1 ∧ (0xFFFFFFFF80000000 : W64) = tS122.x (4 : Nat)
  (0 : RegNo) * tS122.x (4 : Nat) (0 : RegNo)) ∨ ((0x800003B7 : Nat) % 128 = 0x33 ∧ rvF3 (0x800003B7 : Nat) = 5 ∧ rvF7 (0x800003B7 : Nat) = 1 ∧
  tS122.x (4 : Nat) (0 : RegNo) = 0 ∧ (0xFFFFFFFF80000000 : W64) = -1) ∨ ((0x800003B7 : Nat) % 128 = 0x37 ∧ (0xFFFFFFFF80000000 : W64) = (rvImmU
  (0x800003B7 : Nat)).signExtend 64) ∨ ((0x800003B7 : Nat) % 128 = 0x17 ∧ (0xFFFFFFFF80000000 : W64) = (tS122.plane (4 : Nat)).pc + (rvImmU
  (0x800003B7 : Nat)).signExtend 64))) ∧ ((4 : Nat) = tS123.activePlane (2 : VatId).val ∧ tS123.seqReady (2 : VatId).val = true ∧ tS123.err.todo =
  [] ∧ (tS123.plane (4 : Nat)).busy = 0 ∧ inSeqMem (tS123.plane (4 : Nat)).pc = true ∧ inSeqMem ((tS123.plane (4 : Nat)).pc + 2) = true ∧
  (0x00001397 : Nat) = (tS123.plane (4 : Nat)).memRead (tS123.plane (4 : Nat)).pc.toNat 4 ∧ (7 : RegNo) = rvRd (0x00001397 : Nat) ∧ (0 : RegNo) =
  rvRs1 (0x00001397 : Nat) ∧ (0 : RegNo) = rvRs2 (0x00001397 : Nat) ∧ (((0x00001397 : Nat) % 128 = 0x33 ∧ rvF3 (0x00001397 : Nat) = 0 ∧ rvF7
  (0x00001397 : Nat) = 0 ∧ (0xFFFFFFFFFFFC1100 : W64) = tS123.x (4 : Nat) (0 : RegNo) + tS123.x (4 : Nat) (0 : RegNo)) ∨ ((0x00001397 : Nat) % 128
  = 0x33 ∧ rvF3 (0x00001397 : Nat) = 0 ∧ rvF7 (0x00001397 : Nat) = 0x20 ∧ (0xFFFFFFFFFFFC1100 : W64) = tS123.x (4 : Nat) (0 : RegNo) - tS123.x (4 :
  Nat) (0 : RegNo)) ∨ ((0x00001397 : Nat) % 128 = 0x13 ∧ rvF3 (0x00001397 : Nat) = 0 ∧ (0xFFFFFFFFFFFC1100 : W64) = tS123.x (4 : Nat) (0 : RegNo) +
  (rvImmI (0x00001397 : Nat)).signExtend 64) ∨ ((0x00001397 : Nat) % 128 = 0x13 ∧ rvF3 (0x00001397 : Nat) = 7 ∧ (0xFFFFFFFFFFFC1100 : W64) =
  tS123.x (4 : Nat) (0 : RegNo) &&& (rvImmI (0x00001397 : Nat)).signExtend 64) ∨ ((0x00001397 : Nat) % 128 = 0x33 ∧ rvF3 (0x00001397 : Nat) = 0 ∧
  rvF7 (0x00001397 : Nat) = 1 ∧ (0xFFFFFFFFFFFC1100 : W64) = tS123.x (4 : Nat) (0 : RegNo) * tS123.x (4 : Nat) (0 : RegNo)) ∨ ((0x00001397 : Nat) %
  128 = 0x33 ∧ rvF3 (0x00001397 : Nat) = 5 ∧ rvF7 (0x00001397 : Nat) = 1 ∧ tS123.x (4 : Nat) (0 : RegNo) = 0 ∧ (0xFFFFFFFFFFFC1100 : W64) = -1) ∨
  ((0x00001397 : Nat) % 128 = 0x37 ∧ (0xFFFFFFFFFFFC1100 : W64) = (rvImmU (0x00001397 : Nat)).signExtend 64) ∨ ((0x00001397 : Nat) % 128 = 0x17 ∧
  (0xFFFFFFFFFFFC1100 : W64) = (tS123.plane (4 : Nat)).pc + (rvImmU (0x00001397 : Nat)).signExtend 64))) ∧ ((4 : Nat) = tS124.activePlane (2 :
  VatId).val ∧ tS124.seqReady (2 : VatId).val = true ∧ tS124.err.todo = [] ∧ (tS124.plane (4 : Nat)).busy = 0 ∧ inSeqMem (tS124.plane (4 : Nat)).pc
  = true ∧ inSeqMem ((tS124.plane (4 : Nat)).pc + 2) = true ∧ (0x008003EF : Nat) = (tS124.plane (4 : Nat)).memRead (tS124.plane (4 : Nat)).pc.toNat
  4) ∧ ((4 : Nat) = tS125.activePlane (2 : VatId).val ∧ tS125.seqReady (2 : VatId).val = true ∧ tS125.err.todo = [] ∧ (tS125.plane (4 : Nat)).busy
  = 0 ∧ inSeqMem (tS125.plane (4 : Nat)).pc = true ∧ inSeqMem ((tS125.plane (4 : Nat)).pc + 2) = true ∧ (0x003083E7 : Nat) = (tS125.plane (4 :
  Nat)).memRead (tS125.plane (4 : Nat)).pc.toNat 4) ∧ ((4 : Nat) = tS126.activePlane (2 : VatId).val ∧ tS126.seqReady (2 : VatId).val = true ∧
  tS126.err.todo = [] ∧ (tS126.plane (4 : Nat)).busy = 0 ∧ inSeqMem (tS126.plane (4 : Nat)).pc = true ∧ inSeqMem ((tS126.plane (4 : Nat)).pc + 2) =
  true ∧ (0xFE310EE3 : Nat) = (tS126.plane (4 : Nat)).memRead (tS126.plane (4 : Nat)).pc.toNat 4) ∧ ((4 : Nat) = tS127.activePlane (2 : VatId).val
  ∧ tS127.seqReady (2 : VatId).val = true ∧ tS127.err.todo = [] ∧ (tS127.plane (4 : Nat)).busy = 0 ∧ inSeqMem (tS127.plane (4 : Nat)).pc = true ∧
  inSeqMem ((tS127.plane (4 : Nat)).pc + 2) = true ∧ (0xFE210EE3 : Nat) = (tS127.plane (4 : Nat)).memRead (tS127.plane (4 : Nat)).pc.toNat 4) ∧ ((4
  : Nat) = tS128.activePlane (2 : VatId).val ∧ tS128.seqReady (2 : VatId).val = true ∧ tS128.err.todo = [] ∧ (tS128.plane (4 : Nat)).busy = 0 ∧
  inSeqMem (tS128.plane (4 : Nat)).pc = true ∧ inSeqMem ((tS128.plane (4 : Nat)).pc + 2) = true ∧ (0xFE316EE3 : Nat) = (tS128.plane (4 :
  Nat)).memRead (tS128.plane (4 : Nat)).pc.toNat 4) ∧ ((4 : Nat) = tS129.activePlane (2 : VatId).val ∧ tS129.seqReady (2 : VatId).val = true ∧
  tS129.err.todo = [] ∧ (tS129.plane (4 : Nat)).busy = 0 ∧ inSeqMem (tS129.plane (4 : Nat)).pc = true ∧ (0x53FD : Nat) = (tS129.plane (4 :
  Nat)).memRead (tS129.plane (4 : Nat)).pc.toNat 2 ∧ (0x53FD : Nat) % 4 ≠ 3 ∧ (7 : RegNo) = rvRd (0x53FD : Nat) ∧ (31 : RegNo) = BitVec.ofNat 5
  (bitsAt (0x53FD : Nat) 2 5)) ∧ ((4 : Nat) = tS130.activePlane (2 : VatId).val ∧ tS130.seqReady (2 : VatId).val = true ∧ tS130.err.todo = [] ∧
  (tS130.plane (4 : Nat)).busy = 0 ∧ inSeqMem (tS130.plane (4 : Nat)).pc = true ∧ (0x838E : Nat) = (tS130.plane (4 : Nat)).memRead (tS130.plane (4
  : Nat)).pc.toNat 2 ∧ (0x838E : Nat) % 4 ≠ 3 ∧ (7 : RegNo) = rvRd (0x838E : Nat) ∧ (3 : RegNo) = BitVec.ofNat 5 (bitsAt (0x838E : Nat) 2 5)) ∧ ((4
  : Nat) = tS131.activePlane (2 : VatId).val ∧ tS131.seqReady (2 : VatId).val = true ∧ tS131.err.todo = [] ∧ (tS131.plane (4 : Nat)).busy = 0 ∧
  inSeqMem (tS131.plane (4 : Nat)).pc = true ∧ inSeqMem ((tS131.plane (4 : Nat)).pc + 2) = true ∧ (tS131.plane (4 : Nat)).memRead (tS131.plane (4 :
  Nat)).pc.toNat 4 = (4095 : BitVec 12).toNat * 2 ^ 20 + 0x500B) ∧ ((4 : Nat) = tS92.activePlane (2 : VatId).val ∧ tS92.seqReady (2 : VatId).val =
  true ∧ tS92.err.handlings = [] ∧ (tS92.plane (4 : Nat)).ctx = some (5 : Nat) ∧ (inSeqMem (tS92.plane (4 : Nat)).pc = false ∨ (inSeqMem
  (tS92.plane (4 : Nat)).pc = true ∧ (tS92.plane (4 : Nat)).memRead (tS92.plane (4 : Nat)).pc.toNat 2 = 0))) ∧ ((4 : Nat) = tS132.activePlane (2 :
  VatId).val ∧ tS132.seqReady (2 : VatId).val = true ∧ tS132.err.handlings = [] ∧ (tS132.plane (4 : Nat)).ctx = some (5 : Nat) ∧ (inSeqMem
  (tS132.plane (4 : Nat)).pc = false ∨ (inSeqMem (tS132.plane (4 : Nat)).pc = true ∧ (tS132.plane (4 : Nat)).memRead (tS132.plane (4 :
  Nat)).pc.toNat 2 = 0))) ∧ (tRun.seqReady (3 : VatId).val = false ∧ (.ebreak 3 : Instr) ∈ [.seqLoad (3 : VatId) (0 : RegNo) (0 : RegNo) (0 :
  BitVec 12) (0 : BitVec 2) (true : Bool), .seqStore (3 : VatId) (0 : RegNo) (0 : RegNo) (0 : BitVec 12) (0 : BitVec 2), .seqAmo (3 : VatId) (.lr :
  AmoOp) (true : Bool) (0 : RegNo) (0 : RegNo) (0 : RegNo), .fence (3 : VatId), .csrAccess (3 : VatId) (.write : CsrOp) (true : Bool) (0 : BitVec
  12) (0 : RegNo) (0 : RegNo), .tgrp (3 : VatId) (0 : RegNo) (0 : RegNo) (0 : RegNo), .trun (3 : VatId) (0 : RegNo) (0 : RegNo), .twait (3 : VatId)
  (0 : RegNo) (0 : RegNo), .tstat (3 : VatId) (0 : RegNo) (0 : RegNo), .ldlgo (3 : VatId) (0 : RegNo) (0 : RegNo), .ldltake (3 : VatId) (0 : RegNo)
  (0 : RegNo), .ldlres (3 : VatId) (0 : RegNo) (0 : RegNo), .ldlstop (3 : VatId) (0 : RegNo), .ffence (3 : VatId) (0 : RegNo) (0 : RegNo),
  .boundary (3 : VatId) (0 : BitVec 12), .amoaddF32 (3 : VatId) (0 : RegNo) (0 : RegNo) (0 : RegNo), .amoaddBf2 (3 : VatId) (0 : RegNo) (0 : RegNo)
  (0 : RegNo), .amominF32 (3 : VatId) (0 : RegNo) (0 : RegNo) (0 : RegNo), .amomaxF32 (3 : VatId) (0 : RegNo) (0 : RegNo) (0 : RegNo), .amocasD (3
  : VatId) (0 : RegNo) (0 : RegNo) (0 : RegNo), .ecall (3 : VatId), .ebreak (3 : VatId), .seqBaseInstruction (3 : VatId)]) :=
  ⟨by decide, by decide, by decide, by decide, by decide, by decide, by decide, by decide, by decide, by decide, by decide, by decide, by decide,
    by decide, by decide, by decide, by decide, by decide, by decide⟩

theorem test_boundaries_swaps_and_gating_witness : ((4 : Nat) = tS133.activePlane (2 : VatId).val ∧ (tS133.plane (4 : Nat)).blocked = some
  (.boundary (4095 : BitVec 12)) ∧ (tS133.plane (4 : Nat)).ctx = some (5 : Nat) ∧ (∀ e ∈ tS133.tiles, e.1 / 1024 = (2 : VatId).val → e.2.running =
  false) ∧ (tS133.ctx (5 : Nat)).state = .running ∧ (tS133.vat (2 : VatId).val).replaying = none ∧ (tS133.vat (2 : VatId).val).run = .run ∧
  (tS133.vat (2 : VatId).val).arm = false ∧ (tS133.vat (2 : VatId).val).sliceHeld = none ∧ (tS133.vat (2 : VatId).val).slice = 0 ∧ tS133.err.todo =
  []) ∧ ((4 : Nat) = tS134.activePlane (2 : VatId).val ∧ (tS134.plane (4 : Nat)).blocked = some (.boundary (4095 : BitVec 12)) ∧ (tS134.plane (4 :
  Nat)).ctx = some (5 : Nat) ∧ (∀ e ∈ tS134.tiles, e.1 / 1024 = (2 : VatId).val → e.2.running = false) ∧ (tS134.ctx (5 : Nat)).state = .running ∧
  (tS134.vat (2 : VatId).val).replaying = none ∧ tS134.eligible (9 : Nat) = true ∧ (tS134.ctx (9 : Nat)).vat.toNat = (2 : VatId).val ∧
  tS134.shadowCtx (2 : VatId).val = some (9 : Nat) ∧ (tS134.vat (2 : VatId).val).run = .run ∧ (tS134.vat (2 : VatId).val).arm = true ∧
  tS134.err.todo = []) ∧ ((4 : Nat) = tS135.activePlane (2 : VatId).val ∧ (tS135.plane (4 : Nat)).blocked = some (.boundary (4095 : BitVec 12)) ∧
  (1023 : Nat) < 1024 ∧ (1024 * (2 : VatId).val + (1023 : Nat), tS135.tile (2 : VatId).val (1023 : Nat)) ∈ tS135.tiles ∧ (tS135.tile (2 :
  VatId).val (1023 : Nat)).running = true) ∧ ((tS136.vat (2 : VatId).val).run = .swap ∧ tS136.activeCtx (2 : VatId).val = some (5 : Nat) ∧ (5 :
  Nat) ∈ tS136.residents (2 : VatId).val ∧ (tS136.ctx (5 : Nat)).state = .running) ∧ (tRun.vat (2 : VatId).val).run ≠ .swap ∧ tRun.vatReachable (31
  : VatId).val = true ∧ ((tS137.vat (31 : VatId).val).run = .idle ∧ tS137.loading (31 : VatId).val = false) ∧ ((tRun.vat (2 : VatId).val).run ≠
  .idle ∨ tRun.loading (2 : VatId).val = true) ∧ ((tS138.vat (31 : VatId).val).run = .gated ∧ tS138.tileWork (31 : VatId).val = false) ∧
  tS139.vatIn (31 : VatId).val = false ∧ (tRun.vatIn (31 : VatId).val = true ∧ tRun.residents (31 : VatId).val = [] ∧ tRun.err.handlings = [] ∧
  tRun.err.todo = []) :=
  ⟨by decide, by decide, by decide, by decide, by decide, by decide, by decide, by decide, by decide, by decide, by decide⟩

theorem test_tile_bundles_witness : (tRun.tile (2 : VatId).val (3 : TileId).val).startAt = none ∧ ((tS140.tile (2 : VatId).val (3 :
  TileId).val).startAt = some ((15 : Nat), (7 : Nat), (2 : Nat), (50 : Nat)) ∧ tS140.isFirst (2 : VatId).val (50 : Nat) = true ∧ tS140.standing
  (tS140.activePlane (2 : VatId).val) (3 : TileId).val = []) ∧ ((tRun.tile (2 : VatId).val (3 : TileId).val).busy = false ∨ (tRun.tile (2 :
  VatId).val (3 : TileId).val).issuedAll = true) ∧ ((4 : Nat) = tS141.activePlane (2 : VatId).val ∧ (tS141.tile (2 : VatId).val (3 :
  TileId).val).busy = true ∧ (tS141.tile (2 : VatId).val (3 : TileId).val).issuedAll = false ∧ (tS141.tile (2 : VatId).val (3 :
  TileId).val).startAt = none ∧ tS141.isFirst (2 : VatId).val (tS141.tile (2 : VatId).val (3 : TileId).val).cycle = true ∧ (tS141.plane (4 :
  Nat)).gals = false ∧ (tS141.tile (2 : VatId).val (3 : TileId).val).bundle < 240 ∧ (tStore : Nat) = tS141.bundleAt (4 : Nat) (3 : TileId).val
  (tS141.tile (2 : VatId).val (3 : TileId).val).bundle ∧ tS141.activeRoutes (4 : Nat) (3 : TileId).val (tStore : Nat) = [] ∧ bMmop (tStore : Nat) =
  2 ∧ ((0x7FF80 : Nat), (128 : Nat)) = tS141.memSlot (4 : Nat) (3 : TileId).val (tStore : Nat) (tS141.tile (2 : VatId).val (3 : TileId).val).iter
  (tS141.tile (2 : VatId).val (3 : TileId).val).rep ∧ (0x7FF80 : Nat) + (128 : Nat) ≤ (tS141.window (4 : Nat) (3 : TileId).val).2) ∧ ((4 : Nat) =
  tS142.activePlane (2 : VatId).val ∧ (tS142.tile (2 : VatId).val (3 : TileId).val).busy = true ∧ (tS142.tile (2 : VatId).val (3 :
  TileId).val).issuedAll = false ∧ (tS142.tile (2 : VatId).val (3 : TileId).val).startAt = none ∧ tS142.isFirst (2 : VatId).val (tS142.tile (2 :
  VatId).val (3 : TileId).val).cycle = true ∧ (tS142.plane (4 : Nat)).gals = false ∧ (tS142.tile (2 : VatId).val (3 : TileId).val).bundle < 240 ∧
  (tLoad : Nat) = tS142.bundleAt (4 : Nat) (3 : TileId).val (tS142.tile (2 : VatId).val (3 : TileId).val).bundle ∧ tS142.activeRoutes (4 : Nat) (3
  : TileId).val (tLoad : Nat) = [] ∧ bMmop (tLoad : Nat) = 1 ∧ bMop (tLoad : Nat) = 0 ∧ bVop (tLoad : Nat) = 0 ∧ (tS142.tile (2 : VatId).val (3 :
  TileId).val).drains = [] ∧ (tS142.tile (2 : VatId).val (3 : TileId).val).vec = [] ∧ (tS142.tile (2 : VatId).val (3 : TileId).val).mac = [] ∧
  ((0x7FF80 : Nat), (128 : Nat)) = tS142.memSlot (4 : Nat) (3 : TileId).val (tLoad : Nat) (tS142.tile (2 : VatId).val (3 : TileId).val).iter
  (tS142.tile (2 : VatId).val (3 : TileId).val).rep ∧ (0x7FF80 : Nat) + (128 : Nat) ≤ (tS142.window (4 : Nat) (3 : TileId).val).2 ∧ tS142.badIn
  (tileBase (2 : VatId).val (3 : TileId).val + (tS142.window (4 : Nat) (3 : TileId).val).1 + (0x7FF80 : Nat)) (128 : Nat) = false) ∧ ((4 : Nat) =
  tS143.activePlane (2 : VatId).val ∧ (tS143.tile (2 : VatId).val (3 : TileId).val).busy = true ∧ (tS143.tile (2 : VatId).val (3 :
  TileId).val).issuedAll = false ∧ (tS143.tile (2 : VatId).val (3 : TileId).val).startAt = none ∧ tS143.isFirst (2 : VatId).val (tS143.tile (2 :
  VatId).val (3 : TileId).val).cycle = true ∧ (tS143.plane (4 : Nat)).gals = false ∧ (tS143.tile (2 : VatId).val (3 : TileId).val).bundle < 240 ∧
  (2 ^ 127 : Nat) = tS143.bundleAt (4 : Nat) (3 : TileId).val (tS143.tile (2 : VatId).val (3 : TileId).val).bundle ∧ tS143.activeRoutes (4 : Nat)
  (3 : TileId).val (2 ^ 127 : Nat) = [] ∧ bMmop (2 ^ 127 : Nat) = 0) ∧ ((4 : Nat) = tS144.activePlane (2 : VatId).val ∧ (tS144.tile (2 : VatId).val
  (3 : TileId).val).busy = true ∧ (tS144.tile (2 : VatId).val (3 : TileId).val).issuedAll = false ∧ (tS144.tile (2 : VatId).val (3 :
  TileId).val).startAt = none ∧ tS144.isFirst (2 : VatId).val (tS144.tile (2 : VatId).val (3 : TileId).val).cycle = true ∧ (tS144.plane (4 :
  Nat)).gals = false ∧ (tS144.tile (2 : VatId).val (3 : TileId).val).bundle < 240 ∧ (2 ^ 121 : Nat) = tS144.bundleAt (4 : Nat) (3 : TileId).val
  (tS144.tile (2 : VatId).val (3 : TileId).val).bundle ∧ tS144.activeRoutes (4 : Nat) (3 : TileId).val (2 ^ 121 : Nat) = [] ∧ bMmop (2 ^ 121 : Nat)
  = 0) ∧ ((4 : Nat) = tS145.activePlane (2 : VatId).val ∧ (tS145.tile (2 : VatId).val (3 : TileId).val).busy = true ∧ (tS145.tile (2 : VatId).val
  (3 : TileId).val).issuedAll = false ∧ (tS145.tile (2 : VatId).val (3 : TileId).val).startAt = none ∧ tS145.isFirst (2 : VatId).val (tS145.tile (2
  : VatId).val (3 : TileId).val).cycle = true ∧ (tS145.plane (4 : Nat)).gals = false ∧ (0 : Nat) = tS145.bundleAt (4 : Nat) (3 : TileId).val
  (tS145.tile (2 : VatId).val (3 : TileId).val).bundle ∧ ((0 : Nat), (32 : Nat)) = tS145.memSlot (4 : Nat) (3 : TileId).val (0 : Nat) (tS145.tile
  (2 : VatId).val (3 : TileId).val).iter (tS145.tile (2 : VatId).val (3 : TileId).val).rep ∧ (tS145.plane (4 : Nat)).ctx = some (5 : Nat) ∧
  (tS145.ctx (5 : Nat)).state = .running ∧ tS145.err.handlings = [] ∧ ((240 ≤ (tS145.tile (2 : VatId).val (3 : TileId).val).bundle ∧
  (0x030040180000 : Nat) = tileBase (2 : VatId).val (3 : TileId).val + (tS145.window (4 : Nat) (3 : TileId).val).1) ∨ ((tS145.tile (2 : VatId).val
  (3 : TileId).val).bundle < 240 ∧ bMmop (0 : Nat) ≠ 0 ∧ (tS145.window (4 : Nat) (3 : TileId).val).2 < (0 : Nat) + (32 : Nat) ∧ (0x030040180000 :
  Nat) = tileBase (2 : VatId).val (3 : TileId).val + (tS145.window (4 : Nat) (3 : TileId).val).1 + (0 : Nat)))) ∧ ((4 : Nat) = tS146.activePlane (2
  : VatId).val ∧ (tS146.tile (2 : VatId).val (3 : TileId).val).busy = true ∧ (tS146.tile (2 : VatId).val (3 : TileId).val).issuedAll = false ∧
  (tS146.tile (2 : VatId).val (3 : TileId).val).startAt = none ∧ tS146.isFirst (2 : VatId).val (tS146.tile (2 : VatId).val (3 : TileId).val).cycle
  = true ∧ (tS146.plane (4 : Nat)).gals = false ∧ (tStore + 2 ^ 31 : Nat) = tS146.bundleAt (4 : Nat) (3 : TileId).val (tS146.tile (2 : VatId).val
  (3 : TileId).val).bundle ∧ ((0x7FFA0 : Nat), (128 : Nat)) = tS146.memSlot (4 : Nat) (3 : TileId).val (tStore + 2 ^ 31 : Nat) (tS146.tile (2 :
  VatId).val (3 : TileId).val).iter (tS146.tile (2 : VatId).val (3 : TileId).val).rep ∧ (tS146.plane (4 : Nat)).ctx = some (5 : Nat) ∧ (tS146.ctx
  (5 : Nat)).state = .running ∧ tS146.err.handlings = [] ∧ ((240 ≤ (tS146.tile (2 : VatId).val (3 : TileId).val).bundle ∧ (0x0300401FFFA0 : Nat) =
  tileBase (2 : VatId).val (3 : TileId).val + (tS146.window (4 : Nat) (3 : TileId).val).1) ∨ ((tS146.tile (2 : VatId).val (3 : TileId).val).bundle
  < 240 ∧ bMmop (tStore + 2 ^ 31 : Nat) ≠ 0 ∧ (tS146.window (4 : Nat) (3 : TileId).val).2 < (0x7FFA0 : Nat) + (128 : Nat) ∧ (0x0300401FFFA0 : Nat)
  = tileBase (2 : VatId).val (3 : TileId).val + (tS146.window (4 : Nat) (3 : TileId).val).1 + (0x7FFA0 : Nat)))) :=
  ⟨by decide, by decide, by decide, by decide, by decide, by decide, by decide, by decide, by decide⟩

theorem test_tile_results_witness : ((4 : Nat) = tS147.activePlane (2 : VatId).val ∧ (tS147.tile (2 : VatId).val (3 : TileId).val).busy = true ∧
  (tS147.tile (2 : VatId).val (3 : TileId).val).issuedAll = false ∧ (tS147.tile (2 : VatId).val (3 : TileId).val).startAt = none ∧ tS147.isFirst (2
  : VatId).val (tS147.tile (2 : VatId).val (3 : TileId).val).cycle = true ∧ (tS147.plane (4 : Nat)).gals = false ∧ (tS147.tile (2 : VatId).val (3 :
  TileId).val).bundle < 240 ∧ ((0x20 * 2 ^ 90 + 7 * 2 ^ 81 + 4 * 2 ^ 72 + 4 * 2 ^ 63) : Nat) = tS147.bundleAt (4 : Nat) (3 : TileId).val
  (tS147.tile (2 : VatId).val (3 : TileId).val).bundle ∧ tS147.activeRoutes (4 : Nat) (3 : TileId).val ((0x20 * 2 ^ 90 + 7 * 2 ^ 81 + 4 * 2 ^ 72 +
  4 * 2 ^ 63) : Nat) = [] ∧ bMmop ((0x20 * 2 ^ 90 + 7 * 2 ^ 81 + 4 * 2 ^ 72 + 4 * 2 ^ 63) : Nat) = 0 ∧ bMop ((0x20 * 2 ^ 90 + 7 * 2 ^ 81 + 4 * 2 ^
  72 + 4 * 2 ^ 63) : Nat) = 0 ∧ bIterv ((0x20 * 2 ^ 90 + 7 * 2 ^ 81 + 4 * 2 ^ 72 + 4 * 2 ^ 63) : Nat) = false ∧ bVop ((0x20 * 2 ^ 90 + 7 * 2 ^ 81 +
  4 * 2 ^ 72 + 4 * 2 ^ 63) : Nat) = 0x20 ∧ (tS147.tile (2 : VatId).val (3 : TileId).val).drains = [] ∧ (tS147.tile (2 : VatId).val (3 :
  TileId).val).vec = [] ∧ (tS147.tile (2 : VatId).val (3 : TileId).val).mac = []) ∧ ((4 : Nat) = tS148.activePlane (2 : VatId).val ∧ (tS148.tile (2
  : VatId).val (3 : TileId).val).busy = true ∧ (tS148.tile (2 : VatId).val (3 : TileId).val).issuedAll = false ∧ (tS148.tile (2 : VatId).val (3 :
  TileId).val).startAt = none ∧ tS148.isFirst (2 : VatId).val (tS148.tile (2 : VatId).val (3 : TileId).val).cycle = true ∧ (tS148.plane (4 :
  Nat)).gals = false ∧ (tS148.tile (2 : VatId).val (3 : TileId).val).bundle < 240 ∧ (2 ^ 118 : Nat) = tS148.bundleAt (4 : Nat) (3 : TileId).val
  (tS148.tile (2 : VatId).val (3 : TileId).val).bundle ∧ tS148.activeRoutes (4 : Nat) (3 : TileId).val (2 ^ 118 : Nat) = [] ∧ bMmop (2 ^ 118 : Nat)
  = 0 ∧ bMop (2 ^ 118 : Nat) = 1 ∧ bVop (2 ^ 118 : Nat) = 0 ∧ (tS148.tile (2 : VatId).val (3 : TileId).val).drains = [] ∧ (tS148.tile (2 :
  VatId).val (3 : TileId).val).vec = [] ∧ (tS148.tile (2 : VatId).val (3 : TileId).val).mac = []) ∧ ((tS149.tile (2 : VatId).val (3 :
  TileId).val).vec = ({ land := 49, writes := [(511, 5, 4)], flags := 3 } : VecPending) :: ([] : List VecPending) ∧ (tS149.tile (2 : VatId).val (3
  : TileId).val).due ({ land := 49, writes := [(511, 5, 4)], flags := 3 } : VecPending).land = true ∧
  ({ land := 49, writes := [(511, 5, 4)], flags := 3 } : VecPending).writes = [((511 : Nat), (5 : BitVec 1024), (4 : BitVec 1024))] ∧ (511 : Nat) <
  512) ∧ ((tS150.tile (2 : VatId).val (3 : TileId).val).mac = (tMac : MacPending) :: ([] : List MacPending) ∧ (tS150.tile (2 : VatId).val (3 :
  TileId).val).due (tMac : MacPending).land = true) ∧ ((tS151.tile (2 : VatId).val (3 : TileId).val).vec = [] ∧ (tS151.tile (2 : VatId).val (3 :
  TileId).val).mac = [] ∧ ((.vectorResultLand 2 3 : Instr) = .vectorResultLand (2 : VatId) (3 : TileId) ∨ (.vectorResultLand 2 3 : Instr) =
  .macResultLand (2 : VatId) (3 : TileId))) ∧ ((tS151.tile (2 : VatId).val (3 : TileId).val).vec = [] ∧ (tS151.tile (2 : VatId).val (3 :
  TileId).val).mac = [] ∧ ((.macResultLand 2 3 : Instr) = .vectorResultLand (2 : VatId) (3 : TileId) ∨ (.macResultLand 2 3 : Instr) =
  .macResultLand (2 : VatId) (3 : TileId))) ∧ ((tS152.tile (2 : VatId).val (3 : TileId).val).busy = true ∧ (tS152.tile (2 : VatId).val (3 :
  TileId).val).issuedAll = true ∧ (tS152.tile (2 : VatId).val (3 : TileId).val).vec = [] ∧ (tS152.tile (2 : VatId).val (3 : TileId).val).mac = [] ∧
  (tS152.tile (2 : VatId).val (3 : TileId).val).drains = []) ∧ (tS151.tile (2 : VatId).val (3 : TileId).val).issuedAll = false :=
  ⟨by decide, by decide, by decide +kernel, by decide +kernel, by decide, by decide, by decide, by decide⟩

theorem test_tile_arithmetic_witness : (((0x20 : Nat) = 0x20 ∧ (fun x y => (x + y) % 2 ^ 32 : Nat → Nat → Nat) = fun x y => (x + y) % 2 ^ 32) ∨
  ((0x20 : Nat) = 0x21 ∧ (fun x y => (x + y) % 2 ^ 32 : Nat → Nat → Nat) = fun x y => (x + 2 ^ 32 - y) % 2 ^ 32) ∨ ((0x20 : Nat) = 0x22 ∧ (fun x y
  => (x + y) % 2 ^ 32 : Nat → Nat → Nat) = fun x y => x * y % 2 ^ 32) ∨ ((0x20 : Nat) = 0x23 ∧ (fun x y => (x + y) % 2 ^ 32 : Nat → Nat → Nat) =
  fun x y => x &&& y) ∨ ((0x20 : Nat) = 0x24 ∧ (fun x y => (x + y) % 2 ^ 32 : Nat → Nat → Nat) = fun x y => x ||| y) ∨ ((0x20 : Nat) = 0x25 ∧ (fun
  x y => (x + y) % 2 ^ 32 : Nat → Nat → Nat) = fun x y => x ^^^ y) ∨ ((0x20 : Nat) = 0x26 ∧ (fun x y => (x + y) % 2 ^ 32 : Nat → Nat → Nat) = fun x
  y => x * 2 ^ (y % 32) % 2 ^ 32) ∨ ((0x20 : Nat) = 0x27 ∧ (fun x y => (x + y) % 2 ^ 32 : Nat → Nat → Nat) = fun x y => x / 2 ^ (y % 32))) ∧ ((0 :
  Nat) < 2 ^ 32 ∧ (ofFp32 (0 : Nat)).isNan = false) ∧ ((0x00000001 : Nat) < 2 ^ 32 ∧ (ofFp32 (0x00000001 : Nat)).isNan = false) ∧ ((0x7F7FFFFF :
  Nat) < 2 ^ 32 ∧ (ofFp32 (0x7F7FFFFF : Nat)).isNan = false) ∧ ((0xFF800000 : Nat) < 2 ^ 32 ∧ (ofFp32 (0xFF800000 : Nat)).isNan = false) ∧ (macAcc
  (tMac : MacPending).mode = accINT32 ∧ macBscale (tMac : MacPending).mode = false ∧ macFmtA (tMac : MacPending).mode = 10 ∧ macFmtB (tMac :
  MacPending).mode = 10 ∧ (-1 : Int) = (List.range (2 : Nat)).foldl (fun (z : Int) k => z + signed 8 (elemAt 10 (tMac : MacPending).a.toNat ((0 :
  Nat) * (2 : Nat) + k)) * signed 8 (elemAt 10 (tMac : MacPending).b.toNat ((0 : Nat) * (2 : Nat) + k))) (signed 32 (0xFFFFFFFF : BitVec
  128).toNat)) :=
  ⟨by simp, by decide, by decide, by decide, by decide, by decide +kernel⟩

theorem test_sram_service_witness : ((tS153.vat (2 : VatId).val).tsRetained = false ∧ (tS153.vat (2 : VatId).val).tsWaking = false ∧ Tbl.look []
  tS153.fab.tileReq (1024 * (2 : VatId).val + (3 : TileId).val) = ({ head := tReqCell opLD 0x030040180000 1 0, words := 1 } : TReq) :: ([] : List
  TReq) ∧ Tbl.look [] tS153.fab.tileResp (1024 * (2 : VatId).val + (3 : TileId).val) = [] ∧ Cell.opc
  ({ head := tReqCell opLD 0x030040180000 1 0, words := 1 } : TReq).head = opLD ∧ Cell.pay
  ({ head := tReqCell opLD 0x030040180000 1 0, words := 1 } : TReq).head 8 1 = 1 ∧ ({ head := tReqCell opLD 0x030040180000 1 0, words := 1 } :
  TReq).words = 1 ∧ tS153.readerOf ({ head := tReqCell opLD 0x030040180000 1 0, words := 1 } : TReq).head = none ∧ tS153.err.todo = [] ∧
  tS153.badIn (faLocal (Cell.pay ({ head := tReqCell opLD 0x030040180000 1 0, words := 1 } : TReq).head 0 8)) 64 = false ∧ tS153.badIn (faLocal
  (Cell.pay ({ head := tReqCell opLD 0x030040180000 1 0, words := 1 } : TReq).head 0 8) + 32) 32 = false) ∧ ((tS154.vat (2 : VatId).val).tsRetained
  = false ∧ (tS154.vat (2 : VatId).val).tsWaking = false ∧ Tbl.look [] tS154.fab.tileReq (1024 * (2 : VatId).val + (3 : TileId).val) =
  ({ head := tReqCell opST 0x030040180000 1 0xFFFFFFFFFFFFFFFE, frags := [(1, 0x112233)], words := 0 } : TReq) :: ([] : List TReq) ∧ Tbl.look []
  tS154.fab.tileResp (1024 * (2 : VatId).val + (3 : TileId).val) = [] ∧ Cell.opc
  ({ head := tReqCell opST 0x030040180000 1 0xFFFFFFFFFFFFFFFE, frags := [(1, 0x112233)], words := 0 } : TReq).head = opST ∧ Cell.pay
  ({ head := tReqCell opST 0x030040180000 1 0xFFFFFFFFFFFFFFFE, frags := [(1, 0x112233)], words := 0 } : TReq).head 8 1 = 1 ∧
  ({ head := tReqCell opST 0x030040180000 1 0xFFFFFFFFFFFFFFFE, frags := [(1, 0x112233)], words := 0 } : TReq).words = (0 : Nat) ∧ (0 : Nat) < 2 ∧
  ({ head := tReqCell opST 0x030040180000 1 0xFFFFFFFFFFFFFFFE, frags := [(1, 0x112233)], words := 0 } : TReq).frags = [(1, (0x112233 : BitVec
  512))] ∧ (0x030040180000 : Nat) = faLocal (Cell.pay
  ({ head := tReqCell opST 0x030040180000 1 0xFFFFFFFFFFFFFFFE, frags := [(1, 0x112233)], words := 0 } : TReq).head 0 8) ∧ tS154.badIn
  (0x030040180000 : Nat) 64 = false ∧ tS154.err.todo = []) ∧ ((tS155.vat (2 : VatId).val).tsRetained = false ∧ (tS155.vat (2 : VatId).val).tsWaking
  = false ∧ Tbl.look [] tS155.fab.tileReq (1024 * (2 : VatId).val + (3 : TileId).val) =
  ({ head := tReqCell opST 0x030040180000 1 0xFFFFFFFFFFFFFFFE, frags := [(1, 0x112233)], words := 1 } : TReq) :: ([] : List TReq) ∧ Tbl.look []
  tS155.fab.tileResp (1024 * (2 : VatId).val + (3 : TileId).val) = [] ∧ Cell.opc
  ({ head := tReqCell opST 0x030040180000 1 0xFFFFFFFFFFFFFFFE, frags := [(1, 0x112233)], words := 1 } : TReq).head = opST ∧ Cell.pay
  ({ head := tReqCell opST 0x030040180000 1 0xFFFFFFFFFFFFFFFE, frags := [(1, 0x112233)], words := 1 } : TReq).head 8 1 = 1 ∧
  ({ head := tReqCell opST 0x030040180000 1 0xFFFFFFFFFFFFFFFE, frags := [(1, 0x112233)], words := 1 } : TReq).words = (1 : Nat) ∧ (1 : Nat) < 2 ∧
  ({ head := tReqCell opST 0x030040180000 1 0xFFFFFFFFFFFFFFFE, frags := [(1, 0x112233)], words := 1 } : TReq).frags = [(1, (0x112233 : BitVec
  512))] ∧ (0x030040180000 : Nat) = faLocal (Cell.pay
  ({ head := tReqCell opST 0x030040180000 1 0xFFFFFFFFFFFFFFFE, frags := [(1, 0x112233)], words := 1 } : TReq).head 0 8) ∧ tS155.badIn
  (0x030040180000 : Nat) 64 = false ∧ tS155.err.todo = []) ∧ ((tS156.vat (2 : VatId).val).tsRetained = false ∧ (tS156.vat (2 : VatId).val).tsWaking
  = false ∧ Tbl.look [] tS156.fab.tileReq (1024 * (2 : VatId).val + (3 : TileId).val) = ({ head := tReqCell opATOM 0x030040180000 0 7 } : TReq) ::
  ([] : List TReq) ∧ Tbl.look [] tS156.fab.tileResp (1024 * (2 : VatId).val + (3 : TileId).val) = [] ∧ Cell.opc
  ({ head := tReqCell opATOM 0x030040180000 0 7 } : TReq).head = opATOM ∧ (0x030040180000 : Nat) = faLocal (Cell.pay
  ({ head := tReqCell opATOM 0x030040180000 0 7 } : TReq).head 0 8) ∧ (0 : Nat) = Cell.pay ({ head := tReqCell opATOM 0x030040180000 0 7 } :
  TReq).head 8 1 ∧ (4 : Nat) = atomWidth (0 : Nat) ∧ tS156.badIn ((0x030040180000 : Nat) / 32 * 32) 32 = false ∧ tS156.err.todo = []) ∧ ((tS157.vat
  (2 : VatId).val).tsRetained = false ∧ (tS157.vat (2 : VatId).val).tsWaking = false ∧ Tbl.look [] tS157.fab.tileReq (1024 * (2 : VatId).val + (3 :
  TileId).val) = ({ head := tReqCell opATOM 0x03004018003C 10 7 } : TReq) :: ([] : List TReq) ∧ Tbl.look [] tS157.fab.tileResp (1024 * (2 :
  VatId).val + (3 : TileId).val) = [] ∧ Cell.opc ({ head := tReqCell opATOM 0x03004018003C 10 7 } : TReq).head = opATOM ∧ (0x03004018003C : Nat) =
  faLocal (Cell.pay ({ head := tReqCell opATOM 0x03004018003C 10 7 } : TReq).head 0 8) ∧ (10 : Nat) = Cell.pay
  ({ head := tReqCell opATOM 0x03004018003C 10 7 } : TReq).head 8 1 ∧ (4 : Nat) = atomWidth (10 : Nat) ∧ tS157.badIn ((0x03004018003C : Nat) / 32 *
  32) 32 = false ∧ tS157.err.todo = []) ∧ ((tS158.vat (2 : VatId).val).tsRetained = false ∧ (tS158.vat (2 : VatId).val).tsWaking = false ∧ Tbl.look
  [] tS158.fab.tileReq (1024 * (2 : VatId).val + (3 : TileId).val) = [] ∧ Tbl.look [] tS158.fab.tileResp (1024 * (2 : VatId).val + (3 :
  TileId).val) = ({ off := 0x7FFC0, data := 0x1234, port := 64, tag := 0, index := 0, ok := true } : TResp) :: ([] : List TResp) ∧
  ({ off := 0x7FFC0, data := 0x1234, port := 64, tag := 0, index := 0, ok := true } : TResp).words = 0 ∧
  ({ off := 0x7FFC0, data := 0x1234, port := 64, tag := 0, index := 0, ok := true } : TResp).port = 64) ∧ ((tRun.vat (2 : VatId).val).tsRetained =
  true ∨ (tRun.vat (2 : VatId).val).tsWaking = true ∨ (Tbl.look [] tRun.fab.tileReq (1024 * (2 : VatId).val + (3 : TileId).val) = [] ∧ Tbl.look []
  tRun.fab.tileResp (1024 * (2 : VatId).val + (3 : TileId).val) = [])) ∧ ((tS159.cream (0 : HalfId).val).mode = .active ∧ Tbl.look []
  tS159.fab.creamQ (0 : HalfId).val = [({ head := tReqCell opLD 0x020000000040 1 0 } : TReq)] ∧ Cell.opc
  ({ head := tReqCell opLD 0x020000000040 1 0 } : TReq).head = opLD ∧ Cell.pay ({ head := tReqCell opLD 0x020000000040 1 0 } : TReq).head 8 1 = 1 ∧
  ({ head := tReqCell opLD 0x020000000040 1 0 } : TReq).words = 0 ∧ ({ head := tReqCell opLD 0x020000000040 1 0 } : TReq).held = false ∧
  (0x020000000040 : Nat) = faLocal (Cell.pay ({ head := tReqCell opLD 0x020000000040 1 0 } : TReq).head 0 8) ∧ (0x020000000040 : Nat) % 64 = 0 ∧
  creamBank (0x020000000040 : Nat) = (1 : Byte).toNat ∧ tS159.badIn (0x020000000040 : Nat) 64 = false ∧ tS159.err.todo = []) ∧ ((tS160.cream (0 :
  HalfId).val).mode = .active ∧ Tbl.look [] tS160.fab.creamQ (0 : HalfId).val =
  [({ head := tReqCell opST 0x020000000040 1 0x8000000000000001, frags := [(1, 0x112233)] } : TReq)] ∧ Cell.opc
  ({ head := tReqCell opST 0x020000000040 1 0x8000000000000001, frags := [(1, 0x112233)] } : TReq).head = opST ∧ Cell.pay
  ({ head := tReqCell opST 0x020000000040 1 0x8000000000000001, frags := [(1, 0x112233)] } : TReq).head 8 1 = 1 ∧
  ({ head := tReqCell opST 0x020000000040 1 0x8000000000000001, frags := [(1, 0x112233)] } : TReq).words = 0 ∧
  ({ head := tReqCell opST 0x020000000040 1 0x8000000000000001, frags := [(1, 0x112233)] } : TReq).frags = [(1, (0x112233 : BitVec 512))] ∧
  (0x020000000040 : Nat) = faLocal (Cell.pay ({ head := tReqCell opST 0x020000000040 1 0x8000000000000001, frags := [(1, 0x112233)] } : TReq).head
  0 8) ∧ (0x020000000040 : Nat) % 64 = 0 ∧ creamBank (0x020000000040 : Nat) = (1 : Byte).toNat ∧ tS160.badIn (0x020000000040 : Nat) 64 = false ∧
  tS160.err.todo = []) ∧ ((tRun.cream (15 : HalfId).val).mode ≠ .active ∨ Tbl.look [] tRun.fab.creamQ (15 : HalfId).val = []) :=
  ⟨by decide +kernel, by decide +kernel, by decide +kernel, by decide +kernel, by decide +kernel, by decide +kernel, by decide, by decide +kernel,
    by decide +kernel, by decide⟩

theorem test_scrub_retention_and_wake_witness : ((tS161.vat (31 : VatId).val).tsRetained = false ∧ (tS161.vat (31 : VatId).val).tsWaking = false
  ∧ (tS161.vat (31 : VatId).val).run ≠ .retired ∧ tS161.badIn (tileBase (31 : VatId).val 0 + 32 * (tS161.vat (31 : VatId).val).scrubAt) 32 = false)
  ∧ ((tS162.cream (15 : HalfId).val).mode = .active ∧ (tS162.cream (15 : HalfId).val).scrubAt < 2 ^ 25 - 1 ∧ tS162.badIn (creamBase (15 :
  HalfId).val + 64 * (tS162.cream (15 : HalfId).val).scrubAt) 64 = false) ∧ ((tS161.vat (31 : VatId).val).tsRetained = false ∧ (tS161.vat (31 :
  VatId).val).tsWaking = false ∧ (tS161.vat (31 : VatId).val).run ≠ .retired ∧ (tS161.vat (31 : VatId).val).scrubAt < 2 ^ 24 ∧ (0x0303FFFFFFE0 :
  Nat) = tileBase (31 : VatId).val 0 + 32 * (tS161.vat (31 : VatId).val).scrubAt) ∧ ((∃ v, (.tileStores 31 : Sram) = .tileStores v ∧ (tS163.vat
  v.val).tsRetained = true) ∨ (∃ c, (.tileStores 31 : Sram) = .cream c ∧ (tS163.cream c.val).mode ≠ .active)) ∧ ((∃ v, (.cream 15 : Sram) =
  .tileStores v ∧ (tRun.vat v.val).tsRetained = true) ∨ (∃ c, (.cream 15 : Sram) = .cream c ∧ (tRun.cream c.val).mode ≠ .active)) ∧ ((tS164.vat (31
  : VatId).val).run = .gated ∧ tS164.tileWork (31 : VatId).val = false ∧ (tS164.vat (31 : VatId).val).tsWaking = false) ∧ ((tRun.vat (2 :
  VatId).val).run ≠ .gated ∨ tRun.tileWork (2 : VatId).val = true) ∧ ((tS165.cream (15 : HalfId).val).mode = .active ∧ (tS165.cream (15 :
  HalfId).val).retEn = true ∧ Tbl.look [] tS165.fab.creamQ (15 : HalfId).val = []) ∧ ((tRun.cream (15 : HalfId).val).retEn = false ∨ Tbl.look []
  tRun.fab.creamQ (15 : HalfId).val ≠ []) ∧ (tS166.cream (15 : HalfId).val).waking = true ∧ ((tS167.vat (31 : VatId).val).tsWaking = true ∧
  (tS167.vat (31 : VatId).val).wakeThen = none) ∧ (tRun.cream (15 : HalfId).val).waking = false ∧ ((tS166.cream (15 : HalfId).val).waking = true ∧
  tS166.err.handlings = [] ∧ tS166.err.todo = []) ∧ (tS168.cream (15 : HalfId).val).mode = .active ∧ (tRun.cream (15 : HalfId).val).mode ∈ [.reset,
  .retired] :=
  ⟨by decide, by decide, by decide, by decide, by decide, by decide, by decide, by decide, by decide, by decide, by decide, by decide, by decide,
    by decide, by decide⟩

theorem test_culture_loads_witness : tS169.svc.standby = true ∧ (tS63.svc.standby = false ∧ tS63.svc.draining = false ∧ (([] : List (Byte ×
  Byte)) = [] ∨ 32 < ([] : List (Byte × Byte)).length ∨ 15 < (0 : Byte).toNat ∨ ∃ x ∈ ([] : List (Byte × Byte)), 32 ≤ x.1.toNat ∨ 64 ≤ x.2.toNat))
  ∧ (tS63.svc.standby = false ∧ tS63.svc.draining = false ∧ (([(0, 0)] : List (Byte × Byte)) = [] ∨ 32 < ([(0, 0)] : List (Byte × Byte)).length ∨
  15 < (16 : Byte).toNat ∨ ∃ x ∈ ([(0, 0)] : List (Byte × Byte)), 32 ≤ x.1.toNat ∨ 64 ≤ x.2.toNat)) ∧ (tS63.svc.standby = false ∧ tS63.svc.draining
  = false ∧ (([(32, 0)] : List (Byte × Byte)) = [] ∨ 32 < ([(32, 0)] : List (Byte × Byte)).length ∨ 15 < (15 : Byte).toNat ∨ ∃ x ∈ ([(32, 0)] :
  List (Byte × Byte)), 32 ≤ x.1.toNat ∨ 64 ≤ x.2.toNat)) ∧ (tS63.svc.standby = false ∧ tS63.svc.draining = false ∧ (([(31, 64)] : List (Byte ×
  Byte)) = [] ∨ 32 < ([(31, 64)] : List (Byte × Byte)).length ∨ 15 < (15 : Byte).toNat ∨ ∃ x ∈ ([(31, 64)] : List (Byte × Byte)), 32 ≤ x.1.toNat ∨
  64 ≤ x.2.toNat)) ∧ (tS63.svc.standby = false ∧ tS63.svc.draining = false ∧ ((List.replicate 33 (0, 0) : List (Byte × Byte)) = [] ∨ 32 <
  (List.replicate 33 (0, 0) : List (Byte × Byte)).length ∨ 15 < (15 : Byte).toNat ∨ ∃ x ∈ (List.replicate 33 (0, 0) : List (Byte × Byte)), 32 ≤
  x.1.toNat ∨ 64 ≤ x.2.toNat)) ∧ (tS63.svc.standby = false ∧ tS63.svc.draining = false ∧ (15 : Byte).toNat ≤ 15 ∧ (31 : Byte).toNat < 32 ∧ (5 :
  Byte).toNat < 64 ∧ (tS63.ctx (5 : Byte).toNat).state ≠ .free ∧ tS63.loads = []) ∧ (tS170.svc.standby = false ∧ tS170.svc.draining = false ∧ (15 :
  Byte).toNat ≤ 15 ∧ (31 : Byte).toNat < 32 ∧ (63 : Byte).toNat < 64 ∧ tS170.refuseTarget [((31 : Byte), (63 : Byte))] ((31 : Byte), (63 : Byte)) =
  none ∧ tS170.loads = []) ∧ tRun.loads = [] ∧ (tS171.loads = [(tLoadRow : Load)] ∧ (tLoadRow : Load).streaming = false ∧ (tLoadRow : Load).src =
  .session (0 : Fin 8) ∧ (tLoadRow : Load).targets = [({ vat := 31, ctx := 63, plane := false } : LoadTarget)] ∧
  ({ vat := 31, ctx := 63, plane := false } : LoadTarget).result = none ∧ checkImage (tS171.image (tLoadRow : Load).image.toNat) = some
  (((checkImage ((tOpen ({ tRun with loads := [tLoadRow] } : State) 0).image 0)).getD {}) : LoadResult)) ∧ (tS172.loads =
  [({ tLoadRow with streaming := true, digest := 1 } : Load)] ∧ ({ tLoadRow with streaming := true, digest := 1 } : Load).streaming = true ∧
  ({ tLoadRow with streaming := true, digest := 1 } : Load).src = .session (0 : Fin 8) ∧ ({ tLoadRow with streaming := true, digest := 1 } :
  Load).targets = [({ vat := 31, ctx := 63, plane := false } : LoadTarget)] ∧ ({ vat := 31, ctx := 63, plane := false } : LoadTarget).result = none
  ∧ imageDigest (tS172.image ({ tLoadRow with streaming := true, digest := 1 } : Load).image.toNat) ≠
  ({ tLoadRow with streaming := true, digest := 1 } : Load).digest) ∧ (tS173.loads = [({ tLoadRow with streaming := true } : Load)] ∧
  ({ tLoadRow with streaming := true } : Load).streaming = true ∧ ({ tLoadRow with streaming := true } : Load).src = .session (0 : Fin 8) ∧
  ({ tLoadRow with streaming := true } : Load).targets = [({ vat := 31, ctx := 63, plane := false } : LoadTarget)] ∧
  ({ vat := 31, ctx := 63, plane := false } : LoadTarget).result = none ∧ imageDigest (tS173.image ({ tLoadRow with streaming := true } :
  Load).image.toNat) = ({ tLoadRow with streaming := true } : Load).digest ∧ (tS173.ctx ({ vat := 31, ctx := 63, plane := false } :
  LoadTarget).ctx).state = .free ∧ ({ vat := 31, ctx := 63, plane := false } : LoadTarget).vat < 32) :=
  ⟨by decide, by decide, by decide, by decide, by decide, by decide, by decide, by decide, by decide, by decide +kernel, by decide +kernel,
    by decide +kernel⟩

theorem test_fabric_responses_witness : (tRun.isMine (tReqCell opLD 0 1 0 : Cell) (opST : Nat) = false ∧ ((.st (tReqCell opLD 0 1 0) : Instr),
  (opST : Nat)) ∈ [(Instr.ld (tReqCell opLD 0 1 0 : Cell), opLD), (.st (tReqCell opLD 0 1 0 : Cell), opST), (.std (tReqCell opLD 0 1 0 : Cell),
  opSTD), (.atom (tReqCell opLD 0 1 0 : Cell), opATOM), (.msg (tReqCell opLD 0 1 0 : Cell), opMSG), (.msgd (tReqCell opLD 0 1 0 : Cell), opMSGD),
  (.data (tReqCell opLD 0 1 0 : Cell), opDATA), (.ack (tReqCell opLD 0 1 0 : Cell), opACK), (.sour (tReqCell opLD 0 1 0 : Cell), opSOUR),
  (.nackBusy (tReqCell opLD 0 1 0 : Cell), opNACKBUSY), (.nackRefused (tReqCell opLD 0 1 0 : Cell), opNACKREFUSED)]) ∧ (tS174.isMine (tCell opDATA
  1 5 0 0 : Cell) (opDATA : Nat) = true ∧ tS174.err.todo = [] ∧ tS174.opOf (Cell.dport (tCell opDATA 1 5 0 0 : Cell)) (Cell.tag (tCell opDATA 1 5 0
  0 : Cell)) = none ∧ ((.data (tCell opDATA 1 5 0 0) : Instr), (opDATA : Nat)) ∈ [(Instr.data (tCell opDATA 1 5 0 0 : Cell), opDATA), (.ack (tCell
  opDATA 1 5 0 0 : Cell), opACK), (.sour (tCell opDATA 1 5 0 0 : Cell), opSOUR), (.nackBusy (tCell opDATA 1 5 0 0 : Cell), opNACKBUSY),
  (.nackRefused (tCell opDATA 1 5 0 0 : Cell), opNACKREFUSED)]) ∧ (tS175.isMine (tCell opSOUR 1 5 0 0 : Cell) (opSOUR : Nat) = true ∧
  tS175.err.todo = [] ∧ tS175.opOf (Cell.dport (tCell opSOUR 1 5 0 0 : Cell)) (Cell.tag (tCell opSOUR 1 5 0 0 : Cell)) = none ∧ ((.sour (tCell
  opSOUR 1 5 0 0) : Instr), (opSOUR : Nat)) ∈ [(Instr.data (tCell opSOUR 1 5 0 0 : Cell), opDATA), (.ack (tCell opSOUR 1 5 0 0 : Cell), opACK),
  (.sour (tCell opSOUR 1 5 0 0 : Cell), opSOUR), (.nackBusy (tCell opSOUR 1 5 0 0 : Cell), opNACKBUSY), (.nackRefused (tCell opSOUR 1 5 0 0 :
  Cell), opNACKREFUSED)]) ∧ (tS176.isMine (tCell opDATA 1 5 0 (2 ^ 512 - 1) : Cell) opDATA = true ∧ tS176.err.todo = [] ∧ tS176.opOf (Cell.dport
  (tCell opDATA 1 5 0 (2 ^ 512 - 1) : Cell)) (Cell.tag (tCell opDATA 1 5 0 (2 ^ 512 - 1) : Cell)) = some (tOp (.seqLoad 2 false 7 60 4 false) : Op)
  ∧ (tOp (.seqLoad 2 false 7 60 4 false) : Op).issuer = .seqLoad (2 : Nat) (false : Bool) (7 : RegNo) (60 : Nat) (4 : Nat) (false : Bool) ∧ (tOp
  (.seqLoad 2 false 7 60 4 false) : Op).got = [] ∧ (tOp (.seqLoad 2 false 7 60 4 false) : Op).expect = 1 ∧ (tOp (.seqLoad 2 false 7 60 4 false) :
  Op).waiting = false ∧ (tOp (.seqLoad 2 false 7 60 4 false) : Op).reading = false ∧ (tOp (.seqLoad 2 false 7 60 4 false) : Op).voided = false ∧
  bitsAt (Cell.frag (tCell opDATA 1 5 0 (2 ^ 512 - 1) : Cell)) 0 2 = 0 ∧ (7 : RegNo) ≠ 0) ∧ (tS177.isMine (tCell opACK 1 5 0 0 : Cell) opACK = true
  ∧ tS177.err.todo = [] ∧ tS177.opOf (Cell.dport (tCell opACK 1 5 0 0 : Cell)) (Cell.tag (tCell opACK 1 5 0 0 : Cell)) = some (tOp (.seqStore 2
  false) : Op) ∧ (tOp (.seqStore 2 false) : Op).issuer = .seqStore (2 : Nat) (false : Bool) ∧ (tOp (.seqStore 2 false) : Op).got = [] ∧ (tOp
  (.seqStore 2 false) : Op).expect = 1 ∧ (tOp (.seqStore 2 false) : Op).waiting = false ∧ (tOp (.seqStore 2 false) : Op).reading = false ∧ (tOp
  (.seqStore 2 false) : Op).voided = false ∧ bitsAt (Cell.frag (tCell opACK 1 5 0 0 : Cell)) 0 2 = 0) ∧ (tS178.isMine (tCell opSOUR 1 5 0x30 0 :
  Cell) opSOUR = true ∧ tS178.opOf (Cell.dport (tCell opSOUR 1 5 0x30 0 : Cell)) (Cell.tag (tCell opSOUR 1 5 0x30 0 : Cell)) = some (tOp (.seqLoad
  2 false 7 60 4 false) : Op) ∧ (tOp (.seqLoad 2 false 7 60 4 false) : Op).issuer = .seqLoad (2 : Nat) (false : Bool) (7 : RegNo) (60 : Nat) (4 :
  Nat) (false : Bool) ∧ (tOp (.seqLoad 2 false 7 60 4 false) : Op).got = [] ∧ (tOp (.seqLoad 2 false 7 60 4 false) : Op).expect = 1 ∧ (tOp
  (.seqLoad 2 false 7 60 4 false) : Op).waiting = false ∧ (tOp (.seqLoad 2 false 7 60 4 false) : Op).reading = false ∧ (tOp (.seqLoad 2 false 7 60
  4 false) : Op).voided = false ∧ bitsAt (Cell.frag (tCell opSOUR 1 5 0x30 0 : Cell)) 0 2 = 0 ∧ bitsAt (Cell.frag (tCell opSOUR 1 5 0x30 0 : Cell))
  4 4 ∈ [1, 2, 3, 4, 5, 6, 10] ∧ (tS178.plane (planeIx (2 : Nat) (false : Bool))).ctx = some (5 : Nat) ∧ (tS178.ctx (5 : Nat)).state = .running ∧
  tS178.err.handlings = []) ∧ (tS179.isMine (tCell opNACKBUSY 1 5 0 0 : Cell) opNACKBUSY = true ∧ tS179.opOf (Cell.dport (tCell opNACKBUSY 1 5 0 0
  : Cell)) (Cell.tag (tCell opNACKBUSY 1 5 0 0 : Cell)) = some (tOp (.seqStore 2 false) : Op) ∧ tS179.fab.ops = [(tOp (.seqStore 2 false) : Op)]) ∧
  (tS180.fab.ops = [({ tOp (.seqStore 2 false) with waiting := true, backoffUs := 8 } : Op)] ∧ tS180.fab.withheld = [] ∧
  ({ tOp (.seqStore 2 false) with waiting := true, backoffUs := 8 } : Op).port = (1 : PortId).val ∧
  ({ tOp (.seqStore 2 false) with waiting := true, backoffUs := 8 } : Op).waiting = true) ∧ (tS181.fab.ops = [(tOp (.seqStore 2 false) : Op)] ∧
  (tOp (.seqStore 2 false) : Op).port = (1 : PortId).val ∧ (tOp (.seqStore 2 false) : Op).waiting = false) ∧ (tS182.isMine (tCell opNACKREFUSED 1 5
  0 0 : Cell) opNACKREFUSED = true ∧ tS182.err.todo = [] ∧ tS182.opOf (Cell.dport (tCell opNACKREFUSED 1 5 0 0 : Cell)) (Cell.tag (tCell
  opNACKREFUSED 1 5 0 0 : Cell)) = some (tOp .controller : Op) ∧ (tOp .controller : Op).issuer = .controller ∧ (tOp .controller : Op).got = [] ∧
  (tOp .controller : Op).expect = 1 ∧ (tOp .controller : Op).voided = false) ∧ (tS183.fab.ops = [({ tOp .controller with heard := 1000000000 } :
  Op)] ∧ ({ tOp .controller with heard := 1000000000 } : Op).port = (1 : PortId).val ∧ tS183.silent ({ tOp .controller with heard := 1000000000 } :
  Op) = false) ∧ (tS184.fab.ops = [(tOp .controller : Op)] ∧ (tOp .controller : Op).port = (1 : PortId).val ∧ tS184.silent (tOp .controller : Op) =
  true ∧ (tOp .controller : Op).issuer = .controller ∧ (tOp .controller : Op).got = [] ∧ (tOp .controller : Op).expect = 1 ∧ (tOp .controller :
  Op).voided = false ∧ tS184.err.todo = []) :=
  ⟨by decide +kernel, by decide +kernel, by decide +kernel, by decide +kernel, by decide +kernel, by decide +kernel, by decide +kernel,
    by decide +kernel, by decide +kernel, by decide +kernel, by decide +kernel, by decide +kernel⟩

theorem test_fabric_requests_witness : (tS151.isMine (tReqCell opLD 0x030040180000 1 0 : Cell) (opLD : Nat) = true ∧ ((.ld (tReqCell opLD
  0x030040180000 1 0) : Instr), (opLD : Nat)) ∈ [(Instr.ld (tReqCell opLD 0x030040180000 1 0 : Cell), opLD), (.atom (tReqCell opLD 0x030040180000 1
  0 : Cell), opATOM)] ∧ tS151.filtered (tReqCell opLD 0x030040180000 1 0 : Cell) = false ∧ tS151.overQuota (tReqCell opLD 0x030040180000 1 0 :
  Cell) = false ∧ tS151.refuseCause (tReqCell opLD 0x030040180000 1 0 : Cell) = none ∧ regionOf (faLocal (Cell.pay (tReqCell opLD 0x030040180000 1
  0 : Cell) 0 8)) = .tile (2 : Nat) (3 : Nat) (0 : Nat) ∧ tS151.roomAt (faLocal (Cell.pay (tReqCell opLD 0x030040180000 1 0 : Cell) 0 8)) 1 = true
  ∧ (tS151.vat (2 : Nat)).run = .run ∧ (tS151.vat (2 : Nat)).tsRetained = false ∧ (tS151.vat (2 : Nat)).tsWaking = false) ∧ (tS151.isMine (tReqCell
  opATOM 0x030040180000 10 0 : Cell) (opATOM : Nat) = true ∧ ((.atom (tReqCell opATOM 0x030040180000 10 0) : Instr), (opATOM : Nat)) ∈ [(Instr.ld
  (tReqCell opATOM 0x030040180000 10 0 : Cell), opLD), (.atom (tReqCell opATOM 0x030040180000 10 0 : Cell), opATOM)] ∧ tS151.filtered (tReqCell
  opATOM 0x030040180000 10 0 : Cell) = false ∧ tS151.overQuota (tReqCell opATOM 0x030040180000 10 0 : Cell) = false ∧ tS151.refuseCause (tReqCell
  opATOM 0x030040180000 10 0 : Cell) = none ∧ regionOf (faLocal (Cell.pay (tReqCell opATOM 0x030040180000 10 0 : Cell) 0 8)) = .tile (2 : Nat) (3 :
  Nat) (0 : Nat) ∧ tS151.roomAt (faLocal (Cell.pay (tReqCell opATOM 0x030040180000 10 0 : Cell) 0 8)) 1 = true ∧ (tS151.vat (2 : Nat)).run = .run ∧
  (tS151.vat (2 : Nat)).tsRetained = false ∧ (tS151.vat (2 : Nat)).tsWaking = false) ∧ (tS151.isMine (tReqCell opLD 0x3A0000000000 1 0 : Cell)
  (opLD : Nat) = true ∧ ((.ld (tReqCell opLD 0x3A0000000000 1 0) : Instr), (opLD : Nat)) ∈ [(Instr.ld (tReqCell opLD 0x3A0000000000 1 0 : Cell),
  opLD), (.atom (tReqCell opLD 0x3A0000000000 1 0 : Cell), opATOM)] ∧ tS151.filtered (tReqCell opLD 0x3A0000000000 1 0 : Cell) = false ∧
  tS151.overQuota (tReqCell opLD 0x3A0000000000 1 0 : Cell) = false ∧ tS151.refuseCause (tReqCell opLD 0x3A0000000000 1 0 : Cell) = some (.unmapped
  : SourCause)) ∧ (tS185.isMine (tReqCell opSTD 0 1 0 : Cell) (opSTD : Nat) = true ∧ tS185.filtered (tReqCell opSTD 0 1 0 : Cell) = true ∧ ((.std
  (tReqCell opSTD 0 1 0) : Instr), (opSTD : Nat)) ∈ [(Instr.ld (tReqCell opSTD 0 1 0 : Cell), opLD), (.atom (tReqCell opSTD 0 1 0 : Cell), opATOM),
  (.st (tReqCell opSTD 0 1 0 : Cell), opST), (.std (tReqCell opSTD 0 1 0 : Cell), opSTD), (.msg (tReqCell opSTD 0 1 0 : Cell), opMSG), (.msgd
  (tReqCell opSTD 0 1 0 : Cell), opMSGD)]) ∧ (tS186.isMine (tFar : Cell) (opLD : Nat) = true ∧ ((.ld tFar : Instr), (opLD : Nat)) ∈ [(Instr.ld
  (tFar : Cell), opLD), (.atom (tFar : Cell), opATOM)] ∧ tS186.filtered (tFar : Cell) = false ∧ tS186.overQuota (tFar : Cell) = true) ∧
  (tS151.isMine (tReqCell opST 0x030040180000 1 0 : Cell) (opST : Nat) = true ∧ ((.st (tReqCell opST 0x030040180000 1 0) : Instr), (opST : Nat)) ∈
  [(Instr.st (tReqCell opST 0x030040180000 1 0 : Cell), opST), (.msg (tReqCell opST 0x030040180000 1 0 : Cell), opMSG)] ∧ tS151.filtered (tReqCell
  opST 0x030040180000 1 0 : Cell) = false ∧ tS151.overQuota (tReqCell opST 0x030040180000 1 0 : Cell) = false ∧ tS151.fab.asm = [] ∧ 1 ≤ fragCount
  (tReqCell opST 0x030040180000 1 0 : Cell)) ∧ (tS151.isMine (tCell opMSG 1 5 0 (64 * 2 ^ 32) : Cell) (opMSG : Nat) = true ∧ ((.msg (tCell opMSG 1
  5 0 (64 * 2 ^ 32)) : Instr), (opMSG : Nat)) ∈ [(Instr.st (tCell opMSG 1 5 0 (64 * 2 ^ 32) : Cell), opST), (.msg (tCell opMSG 1 5 0 (64 * 2 ^ 32)
  : Cell), opMSG)] ∧ tS151.filtered (tCell opMSG 1 5 0 (64 * 2 ^ 32) : Cell) = false ∧ tS151.overQuota (tCell opMSG 1 5 0 (64 * 2 ^ 32) : Cell) =
  false ∧ tS151.fab.asm = [] ∧ 1 ≤ fragCount (tCell opMSG 1 5 0 (64 * 2 ^ 32) : Cell)) ∧ (tS187.isMine (tCell opSTD 1 5 1 77 : Cell) opSTD = true ∧
  tS187.filtered (tCell opSTD 1 5 1 77 : Cell) = false ∧ tS187.fab.asm =
  [({ port := 1, pkg := 0, ctx := 5, sport := 5, tag := 9, head := some (tReqCell opST 0x030040180000 1 0) } : Assembly)] ∧
  ({ port := 1, pkg := 0, ctx := 5, sport := 5, tag := 9, head := some (tReqCell opST 0x030040180000 1 0) } : Assembly).of (tCell opSTD 1 5 1 77 :
  Cell) = true ∧ ({ port := 1, pkg := 0, ctx := 5, sport := 5, tag := 9, head := some (tReqCell opST 0x030040180000 1 0) } : Assembly).head = some
  (tReqCell opST 0x030040180000 1 0 : Cell) ∧
  ({ port := 1, pkg := 0, ctx := 5, sport := 5, tag := 9, head := some (tReqCell opST 0x030040180000 1 0) } : Assembly).frags = [] ∧
  ({ port := 1, pkg := 0, ctx := 5, sport := 5, tag := 9, head := some (tReqCell opST 0x030040180000 1 0) } : Assembly).refused = false ∧ Cell.opc
  (tReqCell opST 0x030040180000 1 0 : Cell) = opST ∧ Cell.pay (tReqCell opST 0x030040180000 1 0 : Cell) 8 1 = 1 ∧ Cell.frag (tCell opSTD 1 5 1 77 :
  Cell) = 1 ∧ tS187.refuseCause (tReqCell opST 0x030040180000 1 0 : Cell) = none ∧ regionOf (faLocal (Cell.pay (tReqCell opST 0x030040180000 1 0 :
  Cell) 0 8)) = .tile (2 : Nat) (3 : Nat) (0 : Nat) ∧ tS187.roomAt (faLocal (Cell.pay (tReqCell opST 0x030040180000 1 0 : Cell) 0 8)) 2 = true ∧
  (tS187.vat (2 : Nat)).run = .run ∧ (tS187.vat (2 : Nat)).tsRetained = false ∧ (tS187.vat (2 : Nat)).tsWaking = false) ∧ (tS188.isMine (tCell
  opMSGD 1 5 1 77 : Cell) opMSGD = true ∧ tS188.filtered (tCell opMSGD 1 5 1 77 : Cell) = false ∧ tS188.fab.asm =
  [({ port := 1, pkg := 0, ctx := 5, sport := 5, tag := 9, head := some (tCell opMSG 1 5 0 (64 * 2 ^ 32)) } : Assembly)] ∧
  ({ port := 1, pkg := 0, ctx := 5, sport := 5, tag := 9, head := some (tCell opMSG 1 5 0 (64 * 2 ^ 32)) } : Assembly).of (tCell opMSGD 1 5 1 77 :
  Cell) = true ∧ ({ port := 1, pkg := 0, ctx := 5, sport := 5, tag := 9, head := some (tCell opMSG 1 5 0 (64 * 2 ^ 32)) } : Assembly).head = some
  (tCell opMSG 1 5 0 (64 * 2 ^ 32) : Cell) ∧
  ({ port := 1, pkg := 0, ctx := 5, sport := 5, tag := 9, head := some (tCell opMSG 1 5 0 (64 * 2 ^ 32)) } : Assembly).frags = [] ∧
  ({ port := 1, pkg := 0, ctx := 5, sport := 5, tag := 9, head := some (tCell opMSG 1 5 0 (64 * 2 ^ 32)) } : Assembly).refused = false ∧ Cell.opc
  (tCell opMSG 1 5 0 (64 * 2 ^ 32) : Cell) = opMSG ∧ Cell.pay (tCell opMSG 1 5 0 (64 * 2 ^ 32) : Cell) 4 4 = 64 ∧ Cell.frag (tCell opMSGD 1 5 1 77
  : Cell) = 1 ∧ tS188.isDark (Cell.dport (tCell opMSG 1 5 0 (64 * 2 ^ 32) : Cell)) = false ∧ tS188.strayWeights (tCell opMSG 1 5 0 (64 * 2 ^ 32) :
  Cell) = false) ∧ (opListed (Cell.opc (tReqCell opLD 0 1 0 : Cell)) = true ∧ Cell.cls (tReqCell opLD 0 1 0 : Cell) ≠ 3) ∧ (opListed (Cell.opc
  (tCell 0x1F 1 5 0 0 : Cell)) = false ∧ tS189.fab.badRecTime = none) ∧ ((3 : BitVec 2) ≠ 0 ∧ ((63 : Nat), (3 : BitVec 2).toNat, (true : Bool)) ∉
  tRun.fab.stopped) ∧ ((63 : Nat) < 64 ∧ tS190.fab.held = []) ∧ tS191.holdsFrom (1 : PortId).val (0 : PkgId).val (5 : PortId).val = true ∧
  tRun.holdsFrom (1 : PortId).val (0 : PkgId).val (5 : PortId).val = false ∧ tS192.isDark (52 : PortId).val = false ∧ (tS193.isDark (52 :
  PortId).val = true ∧ tS193.fab.ops = [] ∧ tS193.err.todo = []) :=
  ⟨by decide +kernel, by decide +kernel, by decide +kernel, by decide +kernel, by decide +kernel, by decide +kernel, by decide +kernel,
    by decide +kernel, by decide +kernel, by decide, by decide, by decide, by decide, by decide, by decide, by decide, by decide⟩

theorem test_churn_frames_and_flex_rows_witness : (tRun.rings.built = false ∧ tRun.churn.running = false ∧ tRun.err.todo = [] ∧ tRun.clk.locked =
  true ∧ tRun.time + 10240 < 2 ^ 64 ∧ (∀ g, (tRun.engine g).incoming = none)) ∧ (tS194.rings.built = false ∧ tS194.churn.running = false ∧
  tS194.err.todo = [] ∧ tS194.clk.locked = false ∧ (∀ g, (tS194.engine g).incoming = none) ∧ 1500 < (-1501 : Int).natAbs ∧ Tbl.look 0
  tS194.clk.skewRecTime (8 : Fin 9).val = 0) ∧ (tRun.clk.locked = true ∧ tRun.time + 10240 < 2 ^ 64) ∧ Tbl.look 0 tS195.churn.fails
  ({ modulator := 0, filter := 3 } : Wavelength).modulator.val < 9 ∧ 9 ≤ Tbl.look 0 tS196.churn.fails ({ modulator := 0, filter := 3 } :
  Wavelength).modulator.val ∧ (tS197.churn.sent = [({ ctx := 63, port := 1, plan := { trigger := 2, isDefault := false, count := [] } } : FlexReq)]
  ∧ ({ ctx := 63, port := 1, plan := { trigger := 2, isDefault := false, count := [] } } : FlexReq).ctx = (63 : CtxId).val ∧ (∀ x ∈
  tS197.churn.pending, x.ctx ≠ (63 : CtxId).val)) ∧ (tS198.churn.sent =
  [({ ctx := 63, port := 1, plan := { trigger := 2, isDefault := false, count := [] } } : FlexReq)] ∧
  ({ ctx := 63, port := 1, plan := { trigger := 2, isDefault := false, count := [] } } : FlexReq).ctx = (63 : CtxId).val ∧ (∀ x ∈
  tS198.churn.pending, x.ctx ≠ (63 : CtxId).val)) ∧ (tS199.churn.sent =
  [({ ctx := 63, port := 1, plan := { trigger := 2, isDefault := false, count := [] } } : FlexReq)] ∧
  ({ ctx := 63, port := 1, plan := { trigger := 2, isDefault := false, count := [] } } : FlexReq).ctx = (63 : CtxId).val ∧ tS199.churn.pending =
  [({ ctx := 63, port := 1, plan := { trigger := 3, isDefault := false, count := [] } } : FlexReq)] ∧
  ({ ctx := 63, port := 1, plan := { trigger := 3, isDefault := false, count := [] } } : FlexReq).ctx = (63 : CtxId).val) ∧ (tS200 =
  tS201.flexEvaluate (5 : Nat) ∧ tS201.churn.pending =
  [({ ctx := 5, port := 1, plan := { trigger := 2, isDefault := false, count := [0, 4] }, first := 5 } : FlexReq)] ∧ tS201.churn.sent = [] ∧
  ({ ctx := 5, port := 1, plan := { trigger := 2, isDefault := false, count := [0, 4] }, first := 5 } : FlexReq).first ≤ (5 : Nat)) ∧
  tRun.churn.retunes = [] ∧ (tS202.churn.retunes =
  [({ port := 1, row := [0, 0, 2], moved := 1, req := { ctx := 5, port := 1, plan := { trigger := 2, isDefault := false, count := [] } }, bucket := 0 }
  : Retune)] ∧
  ({ port := 1, row := [0, 0, 2], moved := 1, req := { ctx := 5, port := 1, plan := { trigger := 2, isDefault := false, count := [] } }, bucket := 0 }
  : Retune).port = (1 : HalfId).val ∧ 0 <
  ({ port := 1, row := [0, 0, 2], moved := 1, req := { ctx := 5, port := 1, plan := { trigger := 2, isDefault := false, count := [] } }, bucket := 0 }
  : Retune).moved ∧ 0 <
  ({ port := 1, row := [0, 0, 2], moved := 1, req := { ctx := 5, port := 1, plan := { trigger := 2, isDefault := false, count := [] } }, bucket := 0 }
  : Retune).row.getD (2 : Fin 16).val 0) ∧ ((15 : HalfId).val / 2 = (7 : DieId).val ∧ tS204.inv.dieRetired.getLsbD (7 : DieId).val = true) ∧ ((15 :
  HalfId).val / 2 = (7 : DieId).val ∧ tRun.inv.dieRetired.getLsbD (7 : DieId).val = false) :=
  ⟨⟨by decide, by decide, by decide, by decide, by decide, fun _ => rfl⟩, ⟨by decide, by decide, by decide, by decide, fun _ => rfl, by decide,
    by decide⟩, by decide, by decide, by decide, by decide, by decide, by decide, by decide +kernel, by decide, by decide, by decide, by decide⟩

theorem test_ring_loops_witness : ((tS205.ring (131071 : RingId).val).state = .locked ∧ (tS205.ring (131071 : RingId).val).verifying = false ∧
  toneOk (tS205.ring (131071 : RingId).val).pilot.toNat ([5] : List Nat) = true) ∧ ((tS206.ring (0 : RingId).val).state = .verify ∧ toneOk
  (tS206.ring (0 : RingId).val).pilot.toNat ([5] : List Nat) = true) ∧ ((tS207.ring (0 : RingId).val).state ∈ [.locked, .verify] ∧ (tS207.ring (0 :
  RingId).val).mislocks = [] ∧ toneOk (tS207.ring (0 : RingId).val).pilot.toNat ([5, 2] : List Nat) = false) ∧ ((tS208.ring (0 : RingId).val).state
  ∈ [.locked, .verify] ∧ (tS208.ring (0 : RingId).val).mislocks = [] ∧ toneOk (tS208.ring (0 : RingId).val).pilot.toNat ([5, 2] : List Nat) =
  false) ∧ ((tS209.ring (0 : RingId).val).state = .locked ∧ (tS209.ring (0 : RingId).val).mislocks = [(0 : W64), (0 : W64)] ∧ tS209.time ≤ (0 :
  W64).toNat + 3600000000000 ∧ tS209.time ≤ (0 : W64).toNat + 3600000000000 ∧ (0 : RingId).val < guideEnd ∧ (0 : RingId).val % 3 ≠ 2 ∧ (tS209.ring
  (twinOf (0 : RingId).val)).state = .cold ∧ (tS209.ring (twinOf (0 : RingId).val)).kind = kindTWIN ∧ toneOk (tS209.ring (0 :
  RingId).val).pilot.toNat ([5, 2] : List Nat) = false) ∧ (tS210.ring (0 : RingId).val).state.inService = true ∧ (tS211.ring (0 :
  RingId).val).state = .locked ∧ (tS212.ring (0 : RingId).val).state = .hold ∧ (tS213.ring (0 : RingId).val).state = .hold ∧ (tS214.ring (0 :
  RingId).val).state.inService = false ∧ ((tS215.ring (0 : RingId).val).state.inService = true ∧ (0 : RingId).val < guideEnd ∧ (0 : RingId).val % 3
  ≠ 2 ∧ (tS215.ring (twinOf (0 : RingId).val)).state = .cold ∧ (tS215.ring (twinOf (0 : RingId).val)).kind = kindTWIN) ∧ ((tS216.ring (65536 :
  RingId).val).state.inService = true ∧ arrayBase ≤ (65536 : RingId).val) ∧ (tS217.ring (0 : RingId).val).step ≠ .fullAcquisition ∧ ((tS218.ring (0
  : RingId).val).step = .fullAcquisition ∧ ({ code := 4096, amps := [5] } : Dip) ∈ ([{ code := 5000, amps := [0, 9] },
  { code := 4096, amps := [5] }, { code := 65535, amps := [5] }] : List Dip) ∧ 4096 ≤ ({ code := 4096, amps := [5] } : Dip).code ∧
  ({ code := 4096, amps := [5] } : Dip).code ≤ 65535 ∧ toneOk (tS218.ring (0 : RingId).val).pilot.toNat ({ code := 4096, amps := [5] } : Dip).amps
  = true ∧ (∀ x ∈ ([{ code := 5000, amps := [0, 9] }, { code := 4096, amps := [5] }, { code := 65535, amps := [5] }] : List Dip), 4096 ≤ x.code →
  x.code ≤ 65535 → toneOk (tS218.ring (0 : RingId).val).pilot.toNat x.amps = true → ({ code := 4096, amps := [5] } : Dip).code ≤ x.code)) ∧
  tS207.rings.built = true ∧ tRun.rings.built = false ∧ (tS219.rings.built = true ∧ tS219.brokenIn (48 + (6 : FieldId).val) = 0 ∧ (32 : Nat) =
  (tS219.rings.table.filter fun e => e.2.state == .locked && e.2.kind.toNat ≤ 2 && ringField e.1 == (6 : FieldId).val).length ∧ 32 ≤ (32 : Nat) ∧
  (32 : Nat) < 65536 ∧ tS219.err.todo = []) ∧ ({ state := .locked, dac := 30000 } : Ring).state = .locked :=
  ⟨by decide, by decide, by decide, by decide, by decide, by decide, by decide, by decide, by decide, by decide, by decide, by decide, by decide,
    by decide, by decide, by decide, by decide, by decide⟩

theorem test_separator_jobs_and_passes_witness : ((tRun.ctx (63 : CtxId).val).resident = false ∨ ringOn (tRun.ctx (63 : CtxId).val).sepRing.toNat
  = false) ∧ ((tS220.ctx (5 : CtxId).val).resident = true ∧ ringOn (tS220.ctx (5 : CtxId).val).sepRing.toNat = true ∧ tS220.sepRead (5 : CtxId).val
  (ringHeader (tS220.ctx (5 : CtxId).val).sepRing.toNat) 12 = some (tHead : List Byte) ∧ (1 : Nat) = (tS220.ctx (5 : CtxId).val).vat.toNat / 2) ∧
  (tS221.err.todo = [] ∧ ((tS221.engine (1 : HalfId).val).mode ≠ .idle ∨ (tS221.engine (1 : HalfId).val).turn = none)) ∧ ((tS222.engine (1 :
  HalfId).val).mode = .idle ∧ (tS222.engine (1 : HalfId).val).turn = some (5 : Nat) ∧ tS222.err.todo = [] ∧ (0x2000 : Nat) = (tS222.ctx (5 :
  Nat)).sepRing.toNat ∧ tS222.sepRead (5 : Nat) (ringHeader (0x2000 : Nat)) 12 = some (tHead : List Byte) ∧ (0 : Nat) = leNat ((tHead : List
  Byte).drop 8) ∧ tS222.sepRead (5 : Nat) (slotAddr (0x2000 : Nat) (0 : Nat)) 64 = some (tJobBytes : List Byte) ∧ (tJob : BitVec 512) =
  BitVec.ofNat 512 (leNat (tJobBytes : List Byte)) ∧ (((tS222.matrixCodes (5 : Nat) (jobMatrix (tJob : BitVec 512))).isNone = true ∧ (0x0E02 : Nat)
  = 0x0E02) ∨ ((tS222.matrixCodes (5 : Nat) (jobMatrix (tJob : BitVec 512))).isSome = true ∧ jobSound (tJob : BitVec 512) = false ∧ (0x0E02 : Nat)
  = 0x0E01))) ∧ ((tS223.engine (1 : HalfId).val).mode = .idle ∧ (tS223.engine (1 : HalfId).val).turn = some (5 : Nat) ∧ tS223.err.todo = [] ∧
  (0x2000 : Nat) = (tS223.ctx (5 : Nat)).sepRing.toNat ∧ tS223.sepRead (5 : Nat) (ringHeader (0x2000 : Nat)) 12 = some (tHead : List Byte) ∧ (0 :
  Nat) = leNat ((tHead : List Byte).drop 8) ∧ tS223.sepRead (5 : Nat) (slotAddr (0x2000 : Nat) (0 : Nat)) 64 = some (leBytes 64 (tJob.toNat - 64 *
  2 ^ 128) : List Byte) ∧ (tJob - 64 * 2 ^ 128 : BitVec 512) = BitVec.ofNat 512 (leNat (leBytes 64 (tJob.toNat - 64 * 2 ^ 128) : List Byte)) ∧
  (((tS223.matrixCodes (5 : Nat) (jobMatrix (tJob - 64 * 2 ^ 128 : BitVec 512))).isNone = true ∧ (0x0E01 : Nat) = 0x0E02) ∨ ((tS223.matrixCodes (5
  : Nat) (jobMatrix (tJob - 64 * 2 ^ 128 : BitVec 512))).isSome = true ∧ jobSound (tJob - 64 * 2 ^ 128 : BitVec 512) = false ∧ (0x0E01 : Nat) =
  0x0E01))) ∧ ((tS224.engine (1 : HalfId).val).mode = .idle ∧ (tS224.engine (1 : HalfId).val).turn = some (5 : Nat) ∧ tS224.err.todo = [] ∧ (0x2000
  : Nat) = (tS224.ctx (5 : Nat)).sepRing.toNat ∧ tS224.sepRead (5 : Nat) (ringHeader (0x2000 : Nat)) 12 = some (tHead : List Byte) ∧ (0 : Nat) =
  leNat ((tHead : List Byte).drop 8) ∧ tS224.sepRead (5 : Nat) (slotAddr (0x2000 : Nat) (0 : Nat)) 64 = some (tJobBytes : List Byte) ∧ (tJob :
  BitVec 512) = BitVec.ofNat 512 (leNat (tJobBytes : List Byte)) ∧ (tS224.matrixCodes (5 : Nat) (jobMatrix (tJob : BitVec 512))).isSome = true ∧
  jobSound (tJob : BitVec 512) = true ∧ (tS224.engine (1 : HalfId).val).matValid = true ∧ (tS224.engine (1 : HalfId).val).matCtx.toNat = (5 : Nat)
  ∧ (tS224.engine (1 : HalfId).val).matId = jobMatrix (tJob : BitVec 512)) ∧ ((tS225.engine (1 : HalfId).val).mode = .idle ∧ (tS225.engine (1 :
  HalfId).val).turn = some (5 : Nat) ∧ tS225.err.todo = [] ∧ (0x2000 : Nat) = (tS225.ctx (5 : Nat)).sepRing.toNat ∧ tS225.sepRead (5 : Nat)
  (ringHeader (0x2000 : Nat)) 12 = some (tHead : List Byte) ∧ (0 : Nat) = leNat ((tHead : List Byte).drop 8) ∧ tS225.sepRead (5 : Nat) (slotAddr
  (0x2000 : Nat) (0 : Nat)) 64 = some (tJobBytes : List Byte) ∧ (tJob : BitVec 512) = BitVec.ofNat 512 (leNat (tJobBytes : List Byte)) ∧
  (tS225.matrixCodes (5 : Nat) (jobMatrix (tJob : BitVec 512))).isSome = true ∧ jobSound (tJob : BitVec 512) = true ∧ (tS225.engine (1 :
  HalfId).val).matValid = false) ∧ ((51 : PortId).val ≠ 52 ∨ (List.replicate 4096 0 : List Byte).length ≠ 4096 ∨ (tS226.engine (1 :
  HalfId).val).mode ≠ .reload) ∧ ((52 : PortId).val = 52 ∧ (List.replicate 4096 0 : List Byte).length = 4096 ∧ (tS226.engine (1 : HalfId).val).mode
  = .reload) ∧ ((tS225.engine (1 : HalfId).val).mode ≠ .reload ∨ (tS225.engine (1 : HalfId).val).settling = false ∨ (tS225.engine (1 :
  HalfId).val).want = none) ∧ ((tS227.engine (1 : HalfId).val).mode = .reload ∧ (tS227.engine (1 : HalfId).val).settling = true ∧ (tS227.engine (1
  : HalfId).val).want = some ((5 : CtxId).val, (3 : W32)) ∧ tS227.faultyWeights (1 : HalfId).val = []) ∧ (tS225.err.todo = [] ∧ (tS225.engine (1 :
  HalfId).val).mode ≠ .run) ∧ ((tS228.engine (1 : HalfId).val).mode = .run ∧ (tS228.engine (1 : HalfId).val).job = some
  ({ ctx := 5, index := 0, desc := tJob } : SepJob) ∧ tS228.err.todo = [] ∧ jobVectors ({ ctx := 5, index := 0, desc := tJob } : SepJob).desc = 1 ∧
  jobMode ({ ctx := 5, index := 0, desc := tJob } : SepJob).desc = 0 ∧ tS228.sepRead ({ ctx := 5, index := 0, desc := tJob } : SepJob).ctx (jobIn
  ({ ctx := 5, index := 0, desc := tJob } : SepJob).desc 0) 64 = some (List.replicate 64 0 : List Byte) ∧ tS228.windowed
  ({ ctx := 5, index := 0, desc := tJob } : SepJob).ctx (jobOut ({ ctx := 5, index := 0, desc := tJob } : SepJob).desc 0) 64 = some (0x030040000200
  : Nat)) ∧ ((tS229.engine (1 : HalfId).val).mode = .run ∧ (tS229.engine (1 : HalfId).val).job = some ({ ctx := 5, index := 0, desc := tJob } :
  SepJob) ∧ tS229.err.todo = [] ∧ tS229.err.handlings = [] ∧ jobVectors ({ ctx := 5, index := 0, desc := tJob } : SepJob).desc = 1 ∧ tS229.sepRead
  ({ ctx := 5, index := 0, desc := tJob } : SepJob).ctx (jobIn ({ ctx := 5, index := 0, desc := tJob } : SepJob).desc 0) 64 = none ∧ (tS229.ctx
  ({ ctx := 5, index := 0, desc := tJob } : SepJob).ctx).state = .running ∧ ({ ctx := 5, index := 0, desc := tJob } : SepJob).ctx < 64) ∧ (jobMode
  (tJob : BitVec 512) = 0 ∧ tS225.sepRead (5 : Nat) (jobIn (tJob : BitVec 512) (0 : Nat)) 64 = some (List.replicate 64 0 : List Byte) ∧
  tS225.windowed (5 : Nat) (jobOut (tJob : BitVec 512) (0 : Nat)) 64 = some (0x030040000200 : Nat) ∧ (63 : Nat) < 64 ∧ (∀ x ∈ (List.replicate 64 0
  : List Byte), e4m3 x = some 0)) ∧ (jobMode (tJob : BitVec 512) = 0 ∧ tS230.sepRead (5 : Nat) (jobIn (tJob : BitVec 512) (0 : Nat)) 64 = some
  (0x7F :: List.replicate 63 0 : List Byte) ∧ tS230.windowed (5 : Nat) (jobOut (tJob : BitVec 512) (0 : Nat)) 64 = some (0x030040000200 : Nat) ∧
  (63 : Nat) < 64 ∧ (∃ x ∈ (0x7F :: List.replicate 63 0 : List Byte), e4m3 x = none)) ∧ (tS225.engine (1 : HalfId).val).matValid = false ∧
  ((tS231.engine (1 : HalfId).val).matValid = true ∧ tS231.faultyWeights (1 : HalfId).val = [(4095 : Nat)] ∧ (4095 : Nat) < 4096) :=
  ⟨by decide, by decide, by decide, by decide +kernel, by decide +kernel, by decide +kernel, by decide +kernel, by decide, by decide +kernel,
    by decide, by decide, by decide, by decide +kernel, by decide +kernel, by decide +kernel, by decide +kernel, by decide, by decide⟩

theorem test_hbm_controllers_witness : ((Tbl.look [] tS232.fab.hbmQ (2047 : PseudoId).val)[(0 : Nat)]? = none ∨ (tS232.stack (hbmStack (2047 :
  PseudoId).val)).mode ≠ .run ∨ mayServe (Tbl.look [] tS232.fab.hbmQ (2047 : PseudoId).val) (0 : Nat) = false) ∧ ((tS233.stack (hbmStack (2047 :
  PseudoId).val)).mode = .run ∧ Tbl.look [] tS233.fab.hbmQ (2047 : PseudoId).val = ({ head := tReqCell opLD 0x7FF00 1 0 } : TReq) :: ([] : List
  TReq) ∧ Cell.opc ({ head := tReqCell opLD 0x7FF00 1 0 } : TReq).head = opLD ∧ Cell.pay ({ head := tReqCell opLD 0x7FF00 1 0 } : TReq).head 8 1 =
  1 ∧ (0x7FF00 : Nat) = faLocal (Cell.pay ({ head := tReqCell opLD 0x7FF00 1 0 } : TReq).head 0 8) ∧ tS233.badIn (0x7FF00 : Nat) 64 = false ∧
  tS233.err.todo = []) ∧ ((tS233.stack (hbmStack (2047 : PseudoId).val)).mode = .run ∧ Tbl.look [] tS233.fab.hbmQ (2047 : PseudoId).val =
  ({ head := tReqCell opLD 0x7FF00 1 0 } : TReq) :: ([] : List TReq) ∧ Cell.opc ({ head := tReqCell opLD 0x7FF00 1 0 } : TReq).head = opLD ∧
  Cell.pay ({ head := tReqCell opLD 0x7FF00 1 0 } : TReq).head 8 1 = 1 ∧ (0x7FF00 : Nat) = faLocal (Cell.pay ({ head := tReqCell opLD 0x7FF00 1 0 }
  : TReq).head 0 8) ∧ (0x7FF00 : Nat) % 64 = 0 ∧ tS233.badIn (0x7FF00 : Nat) 64 = false ∧ (tS233.pseudo (2047 : PseudoId).val).buffer = [] ∧
  tS233.err.todo = []) ∧ ((tS234.stack (hbmStack (2047 : PseudoId).val)).mode = .run ∧ Tbl.look [] tS234.fab.hbmQ (2047 : PseudoId).val =
  ({ head := tReqCell opST 0x7FF00 1 0xFFFFFFFFFFFFFFFD, frags := [(1, 0x123456)] } : TReq) :: ([] : List TReq) ∧ Cell.opc
  ({ head := tReqCell opST 0x7FF00 1 0xFFFFFFFFFFFFFFFD, frags := [(1, 0x123456)] } : TReq).head = opST ∧ Cell.pay
  ({ head := tReqCell opST 0x7FF00 1 0xFFFFFFFFFFFFFFFD, frags := [(1, 0x123456)] } : TReq).head 8 1 = 1 ∧ (0x7FF00 : Nat) = faLocal (Cell.pay
  ({ head := tReqCell opST 0x7FF00 1 0xFFFFFFFFFFFFFFFD, frags := [(1, 0x123456)] } : TReq).head 0 8) ∧
  ({ head := tReqCell opST 0x7FF00 1 0xFFFFFFFFFFFFFFFD, frags := [(1, 0x123456)] } : TReq).frags = [(1, (0x123456 : BitVec 512))] ∧ (tS234.pseudo
  (2047 : PseudoId).val).buffer = [] ∧ tS234.badIn (0x7FF00 : Nat) 64 = false ∧ tS234.err.todo = []) ∧ ((tS235.stack (hbmStack (2047 :
  PseudoId).val)).mode = .run ∧ Tbl.look [] tS235.fab.hbmQ (2047 : PseudoId).val = ({ head := tReqCell opATOM 0x7FF38 6 5 } : TReq) :: ([] : List
  TReq) ∧ Cell.opc ({ head := tReqCell opATOM 0x7FF38 6 5 } : TReq).head = opATOM ∧ (0x7FF38 : Nat) = faLocal (Cell.pay
  ({ head := tReqCell opATOM 0x7FF38 6 5 } : TReq).head 0 8) ∧ (0x7FF00 : Nat) = (0x7FF38 : Nat) / 64 * 64 ∧ (6 : Nat) = Cell.pay
  ({ head := tReqCell opATOM 0x7FF38 6 5 } : TReq).head 8 1 ∧ (8 : Nat) = atomWidth (6 : Nat) ∧ (tS235.pseudo (2047 : PseudoId).val).buffer = [] ∧
  tS235.badIn (0x7FF00 : Nat) 64 = false ∧ tS235.err.todo = []) ∧ (tS232.stack (0 : StackId).val).mode ≠ .run ∧ ((tS236.stack (31 :
  StackId).val).mode = .run ∧ tS236.hbm.scrubHeld = none ∧ (2047 : Nat) ∈ stackPseudos (31 : StackId).val ∧ (tS236.pseudo (2047 : Nat)).buffer =
  [((0x7FF00 : Nat), (77 : BitVec 512))] ∧ (∀ q, q ≠ (2047 : Nat) → (tS236.pseudo q).buffer = [])) ∧ ((tS237.stack (31 : StackId).val).mode = .run
  ∧ tS237.hbm.scrubHeld = some (24 : Byte) ∧ (∀ q, (tS237.pseudo q).buffer = [])) ∧ ((tS232.stack (hbmStack (2047 : PseudoId).val)).mode = .run ∧
  tS232.err.todo = [] ∧ (tS232.pseudo (2047 : PseudoId).val).scrubAt + 1 < 2 ^ 24 ∧ (0x7FF00 : Nat) = hbmAddress tS232.hbm.salt (2047 :
  PseudoId).val ((tS232.pseudo (2047 : PseudoId).val).scrubAt / 4) + 64 * ((tS232.pseudo (2047 : PseudoId).val).scrubAt % 4) ∧ tS232.badIn (0x7FF00
  : Nat) 64 = false) ∧ ((tS232.stack (hbmStack (2047 : PseudoId).val)).mode = .run ∧ tS232.err.todo = [] ∧ (tS232.pseudo (2047 :
  PseudoId).val).scrubAt + 1 < 2 ^ 24 ∧ (tS232.pseudo (2047 : PseudoId).val).hits = [] ∧ (tS232.pseudo (2047 : PseudoId).val).ceRecTime = none ∧
  (0x7FF00 : Nat) = hbmAddress tS232.hbm.salt (2047 : PseudoId).val ((tS232.pseudo (2047 : PseudoId).val).scrubAt / 4) + 64 * ((tS232.pseudo (2047
  : PseudoId).val).scrubAt % 4) ∧ tS232.badIn (0x7FF00 : Nat) 64 = false) ∧ tS232.err.resets = [] ∧ ((.compute, (5 : W64)) ∈ tS238.err.resets ∧
  (tS238.stack (31 : StackId).val).mode = .run ∧ (∀ q, (tS238.pseudo q).buffer = []) ∧ (∀ q, Tbl.look [] tS238.fab.hbmQ q = [])) :=
  ⟨by decide, by decide +kernel, by decide +kernel, by decide +kernel, by decide +kernel, by decide, ⟨by decide, by decide, by decide,
    by decide +kernel, by intro q hq; simp [tS236, State.pseudo, State.onPseudo, Tbl.look_upd, hq]; rfl⟩, ⟨by decide, by decide, fun _ => rfl⟩,
    by decide, by decide, by decide, ⟨by decide, by decide, fun _ => rfl, fun _ => rfl⟩⟩

theorem test_links_train_and_fall_witness : (tS239.link (63 : LinkId).val).mode ∈ [.down, .miscabled] ∧ (tS240.link (63 : LinkId).val).mode ∈
  [.down, .miscabled] ∧ (tS241.link (63 : LinkId).val).mode ∉ [.down, .miscabled] ∧ (tS241.err.todo = [] ∧ (tS241.link (63 : LinkId).val).mode ≠
  .training) ∧ (tS242.err.todo = [] ∧ (tS242.link (63 : LinkId).val).mode = .training ∧ (tS242.link (63 : LinkId).val).everUp = false ∧ (tS242.link
  (63 : LinkId).val).queue = [] ∧ tS242.lnk.routes = [] ∧ tS242.lnk.mismatched = [] ∧ (255 : Nat) = (tS242.link (63 : LinkId).val).usable (tTrain :
  TrainObs) ∧ (8 : Nat) = widthOf (popcount 8 (255 : Nat)) ∧ (8 : Nat) ≠ 0 ∧ tS242.miscableOf (63 : LinkId).val (tTrain : TrainObs) = 0) ∧
  (tS242.err.todo = [] ∧ (tS242.link (63 : LinkId).val).mode = .training ∧ (tS242.link (63 : LinkId).val).everUp = false ∧ (tS242.link (63 :
  LinkId).val).queue = [] ∧ tS242.lnk.routes = [] ∧ tS242.lnk.mismatched = [] ∧ (128 : Nat) = (tS242.link (63 : LinkId).val).usable
  ({ tTrain with usable := 0x80 } : TrainObs) ∧ (1 : Nat) = widthOf (popcount 8 (128 : Nat)) ∧ (1 : Nat) ≠ 0 ∧ tS242.miscableOf (63 : LinkId).val
  ({ tTrain with usable := 0x80 } : TrainObs) = 0) ∧ (tS242.err.todo = [] ∧ tS242.err.handlings = [] ∧ (tS242.link (63 : LinkId).val).mode =
  .training ∧ (tS242.link (63 : LinkId).val).usable ({ tTrain with peerPkg := 0 } : TrainObs) ≠ 0 ∧ ({ tTrain with peerPkg := 0 } :
  TrainObs).peerPkg = tS242.fab.pkgId) ∧ (tS242.err.todo = [] ∧ tS242.err.handlings = [] ∧ (((.linkTrainingTimeout 63 : Instr) =
  .linkTrainingTimeout (63 : LinkId) ∧ (tS242.link (63 : LinkId).val).mode = .training) ∨ ((.linkTrainingTimeout 63 : Instr) = .linkTrainingEnd (63
  : LinkId) (tTrain : TrainObs) ∧ (tS242.link (63 : LinkId).val).mode = .training ∧ (tS242.link (63 : LinkId).val).usable (tTrain : TrainObs) = 0)
  ∨ ((.linkTrainingTimeout 63 : Instr) = .linkDown (63 : LinkId) ∧ (tS242.link (63 : LinkId).val).mode ∈ [.up, .retrain]) ∨ ((.linkTrainingTimeout
  63 : Instr) = .fastRetrainEnd (63 : LinkId) none ∧ (tS242.link (63 : LinkId).val).mode = .retrain))) ∧ (tS242.err.todo = [] ∧ tS242.err.handlings
  = [] ∧ (((.linkTrainingEnd 63 { tTrain with usable := 0 } : Instr) = .linkTrainingTimeout (63 : LinkId) ∧ (tS242.link (63 : LinkId).val).mode =
  .training) ∨ ((.linkTrainingEnd 63 { tTrain with usable := 0 } : Instr) = .linkTrainingEnd (63 : LinkId) ({ tTrain with usable := 0 } : TrainObs)
  ∧ (tS242.link (63 : LinkId).val).mode = .training ∧ (tS242.link (63 : LinkId).val).usable ({ tTrain with usable := 0 } : TrainObs) = 0) ∨
  ((.linkTrainingEnd 63 { tTrain with usable := 0 } : Instr) = .linkDown (63 : LinkId) ∧ (tS242.link (63 : LinkId).val).mode ∈ [.up, .retrain]) ∨
  ((.linkTrainingEnd 63 { tTrain with usable := 0 } : Instr) = .fastRetrainEnd (63 : LinkId) none ∧ (tS242.link (63 : LinkId).val).mode =
  .retrain))) ∧ (tS243.err.todo = [] ∧ tS243.err.handlings = [] ∧ (((.linkDown 63 : Instr) = .linkTrainingTimeout (63 : LinkId) ∧ (tS243.link (63 :
  LinkId).val).mode = .training) ∨ ((.linkDown 63 : Instr) = .linkTrainingEnd (63 : LinkId) (tTrain : TrainObs) ∧ (tS243.link (63 :
  LinkId).val).mode = .training ∧ (tS243.link (63 : LinkId).val).usable (tTrain : TrainObs) = 0) ∨ ((.linkDown 63 : Instr) = .linkDown (63 :
  LinkId) ∧ (tS243.link (63 : LinkId).val).mode ∈ [.up, .retrain]) ∨ ((.linkDown 63 : Instr) = .fastRetrainEnd (63 : LinkId) none ∧ (tS243.link (63
  : LinkId).val).mode = .retrain))) ∧ (tS244.err.todo = [] ∧ tS244.err.handlings = [] ∧ (((.linkDown 63 : Instr) = .linkTrainingTimeout (63 :
  LinkId) ∧ (tS244.link (63 : LinkId).val).mode = .training) ∨ ((.linkDown 63 : Instr) = .linkTrainingEnd (63 : LinkId) (tTrain : TrainObs) ∧
  (tS244.link (63 : LinkId).val).mode = .training ∧ (tS244.link (63 : LinkId).val).usable (tTrain : TrainObs) = 0) ∨ ((.linkDown 63 : Instr) =
  .linkDown (63 : LinkId) ∧ (tS244.link (63 : LinkId).val).mode ∈ [.up, .retrain]) ∨ ((.linkDown 63 : Instr) = .fastRetrainEnd (63 : LinkId) none ∧
  (tS244.link (63 : LinkId).val).mode = .retrain))) ∧ (tS244.err.todo = [] ∧ tS244.err.handlings = [] ∧ (((.fastRetrainEnd 63 none : Instr) =
  .linkTrainingTimeout (63 : LinkId) ∧ (tS244.link (63 : LinkId).val).mode = .training) ∨ ((.fastRetrainEnd 63 none : Instr) = .linkTrainingEnd (63
  : LinkId) (tTrain : TrainObs) ∧ (tS244.link (63 : LinkId).val).mode = .training ∧ (tS244.link (63 : LinkId).val).usable (tTrain : TrainObs) = 0)
  ∨ ((.fastRetrainEnd 63 none : Instr) = .linkDown (63 : LinkId) ∧ (tS244.link (63 : LinkId).val).mode ∈ [.up, .retrain]) ∨ ((.fastRetrainEnd 63
  none : Instr) = .fastRetrainEnd (63 : LinkId) none ∧ (tS244.link (63 : LinkId).val).mode = .retrain))) ∧ (tS239.link (63 : LinkId).val).mode ≠
  .training ∧ (tS239.link (63 : LinkId).val).mode ∉ [.up, .retrain] ∧ ((tS245.link (63 : LinkId).val).lanes.getLsbD (7 : Fin 8).val = true ∧
  (tS245.link (63 : LinkId).val).mode = .up ∧ (tS245.link (63 : LinkId).val).queue = []) ∧ (tS241.link (63 : LinkId).val).lanes.getLsbD (7 : Fin
  8).val = false ∧ (tS246.err.todo = [] ∧ (tS246.link (63 : LinkId).val).mode = .retrain ∧ (tS246.link (63 : LinkId).val).everUp = true ∧
  (tS246.link (63 : LinkId).val).queue = [] ∧ tS246.lnk.routes = [] ∧ tS246.lnk.mismatched = [] ∧ (255 : Nat) = (tS246.link (63 :
  LinkId).val).usable (tTrain : TrainObs) ∧ (8 : Nat) = widthOf (popcount 8 (255 : Nat)) ∧ (8 : Nat) ≠ 0 ∧ (tTrain : TrainObs).peerPkg =
  (tS246.link (63 : LinkId).val).peerPkg ∧ tS246.miscableOf (63 : LinkId).val (tTrain : TrainObs) = 0) ∧ (tS246.err.todo = [] ∧ (tS246.link (63 :
  LinkId).val).mode = .retrain ∧ (tS246.link (63 : LinkId).val).everUp = true ∧ (tS246.link (63 : LinkId).val).queue = [] ∧ tS246.lnk.routes = [] ∧
  tS246.lnk.mismatched = [] ∧ (3 : Nat) = (tS246.link (63 : LinkId).val).usable ({ tTrain with usable := 3 } : TrainObs) ∧ (2 : Nat) = widthOf
  (popcount 8 (3 : Nat)) ∧ (2 : Nat) ≠ 0 ∧ ({ tTrain with usable := 3 } : TrainObs).peerPkg = (tS246.link (63 : LinkId).val).peerPkg ∧
  tS246.miscableOf (63 : LinkId).val ({ tTrain with usable := 3 } : TrainObs) = 0) ∧ (tS239.err.todo = [] ∧ (tS239.link (63 : LinkId).val).mode ≠
  .retrain) ∧ ((tS247.link (63 : LinkId).val).mode = .up ∧ (tS247.link (63 : LinkId).val).queue = []) ∧ ((tS248.link (63 : LinkId).val).mode = .up
  ∧ (tS248.link (63 : LinkId).val).queue = []) ∧ (∀ k, (tS247.link k).queue = []) ∧ (∀ k, (tS249.link k).queue = []) ∧ ((tS239.link (63 :
  LinkId).val).laneHeld = none ∧ (tS239.link (63 : LinkId).val).disableHeld = none) ∧ ((tS250.link (63 : LinkId).val).mode = .up ∧ (tS250.link (63
  : LinkId).val).queue = [] ∧ (tS250.link (63 : LinkId).val).laneHeld = some (1 : Byte) ∧ (1 : Byte) ≠ 0 ∧ (tS250.link (63 :
  LinkId).val).disableHeld = none ∧ (tS250.link (63 : LinkId).val).disable = false) ∧ ((tS251.link (63 : LinkId).val).mode = .up ∧ (tS251.link (63
  : LinkId).val).queue = [] ∧ (tS251.link (63 : LinkId).val).laneHeld = some (0xFF : Byte) ∧ (0xFF : Byte) ≠ 0 ∧ (tS251.link (63 :
  LinkId).val).disableHeld = none ∧ (tS251.link (63 : LinkId).val).disable = false) :=
  ⟨by decide, by decide, by decide, by decide, by decide, by decide, by decide, by decide, by decide, by decide, by decide, by decide, by decide,
    by decide, by decide, by decide, by decide, by decide, by decide, by decide,
    by decide, by intro k; simp only [tS247, tLink, State.link, Tbl.look]; split <;> rfl, by intro k; simp only [tS249, tLink, State.link, Tbl.look]; split <;> rfl,
    by decide, by decide, by decide⟩

theorem test_link_cells_and_routes_witness : ((tS252.link (63 : LinkId).val).mode ≠ .up ∨ ((true : Bool) = true ∧ (5 : BitVec 12) ≠ (tS252.link
  (63 : LinkId).val).rxSeq)) ∧ ((tS239.link (63 : LinkId).val).mode ≠ .up ∨ ((false : Bool) = true ∧ (5 : BitVec 12) ≠ (tS239.link (63 :
  LinkId).val).rxSeq)) ∧ (tS241.link (63 : LinkId).val).mode = .up ∧ ((tS253.link (63 : LinkId).val).mode = .up ∧ Cell.opc (tFar : Cell) ∈ [opLD,
  opATOM] ∧ Cell.cls (tFar : Cell) ≠ 3 ∧ Cell.dpkg (tFar : Cell) = tS253.fab.pkgId.toNat ∧ tS253.filtered (tFar : Cell) = false ∧ tS253.hubPort
  ((63 : LinkId).val / 16) (tFar : Cell) = some (0 : Nat) ∧ tS253.severedPair (48 + (63 : LinkId).val / 16) (0 : Nat) = false) ∧ (∀ e ∈ (tS254.link
  (63 : LinkId).val).replay, e.1 ≠ (5 : BitVec 12)) ∧ ((tS255.link (63 : LinkId).val).replay = ([(4, [tFar])] : List (BitVec 12 × List Cell)) ++
  ((5 : BitVec 12), ([] : List Cell)) :: ([(6, [tFar])] : List (BitVec 12 × List Cell)) ∧ (∀ e ∈ ([(4, [tFar])] : List (BitVec 12 × List Cell)),
  e.1 ≠ (5 : BitVec 12)) ∧ (tS255.link (63 : LinkId).val).queue = []) ∧ ((tS256.link (63 : LinkId).val).mode = .up ∧ (∃ e ∈ (tS256.link (63 :
  LinkId).val).replay, e.1 = (4 : BitVec 12)) ∧ (tS256.link (63 : LinkId).val).queue = []) ∧ ((tS257.link (63 : LinkId).val).mode = .up ∧ (∃ e ∈
  (tS257.link (63 : LinkId).val).replay, e.1 = (4 : BitVec 12)) ∧ (tS257.link (63 : LinkId).val).queue = []) ∧ ((tS258.link (63 : LinkId).val).mode
  = .up ∧ (∃ e ∈ (tS258.link (63 : LinkId).val).replay, e.1 = (4 : BitVec 12)) ∧ (tS258.link (63 : LinkId).val).queue = []) ∧ ((0xF01FF : Nat) =
  tS259.route (7 : Nat) (15 : Nat) ∧ (7 : Nat) ≠ tS259.fab.pkgId.toNat ∧ (tS259.link (routeLink (0xF01FF : Nat))).mode = .up ∧ (tS259.link
  (routeLink (0xF01FF : Nat))).peerPkg.toNat = routeVia (0xF01FF : Nat) ∧ (tS259.link (routeLink (0xF01FF : Nat))).width.toNat ≤ 8) ∧ ((tS239.link
  (routeLink (tS239.route (7 : Nat) (15 : Nat)))).mode ≠ .up ∨ (tS239.link (routeLink (tS239.route (7 : Nat) (15 : Nat)))).peerPkg.toNat ≠ routeVia
  (tS239.route (7 : Nat) (15 : Nat))) ∧ (∀ l, l < 64 → l / 16 = (3 : Fin 4).val → (tS239.link l).mode ≠ .up) ∧ ((63 : LinkId).val / 16 = (3 : Fin
  4).val ∧ (tS261.link (63 : LinkId).val).mode = .up ∧ (∀ k, k < 64 → k / 16 = (3 : Fin 4).val → k ≠ (63 : LinkId).val → (tS261.link k).mode ≠ .up)
  ∧ (tS261.link (63 : LinkId).val).replay = []) ∧ ((tS241.link (63 : LinkId).val).mode ≠ .up ∨ Cell.dpkg (tFar : Cell) = tS241.fab.pkgId.toNat ∨
  opListed (Cell.opc (tFar : Cell)) = false) ∧ ((tS241.link (63 : LinkId).val).mode = .up ∧ Cell.dpkg
  ({ hdr := mkHdr 9 1 3 5 opDATA 1 5 9 0, payload := 0 } : Cell) ≠ tS241.fab.pkgId.toNat ∧ opIsResponse (Cell.opc
  ({ hdr := mkHdr 9 1 3 5 opDATA 1 5 9 0, payload := 0 } : Cell)) = true ∧ tS241.transitEntries (Cell.dpkg
  ({ hdr := mkHdr 9 1 3 5 opDATA 1 5 9 0, payload := 0 } : Cell)) = []) ∧ ((tS241.link (63 : LinkId).val).mode = .up ∧ Cell.dpkg
  ({ hdr := mkHdr 9 1 3 5 opLD 1 5 9 0, payload := 0 } : Cell) ≠ tS241.fab.pkgId.toNat ∧ Cell.opc
  ({ hdr := mkHdr 9 1 3 5 opLD 1 5 9 0, payload := 0 } : Cell) ∈ [opLD, opST, opATOM, opMSG] ∧ Cell.cls
  ({ hdr := mkHdr 9 1 3 5 opLD 1 5 9 0, payload := 0 } : Cell) ≠ 0 ∧ tS241.transitEntries (Cell.dpkg
  ({ hdr := mkHdr 9 1 3 5 opLD 1 5 9 0, payload := 0 } : Cell)) = []) ∧ ((tS259.link (63 : LinkId).val).mode = .up ∧ Cell.dpkg
  ({ hdr := mkHdr 7 1 3 5 opLD 1 5 9 0, payload := 0 } : Cell) ≠ tS259.fab.pkgId.toNat ∧ opListed (Cell.opc
  ({ hdr := mkHdr 7 1 3 5 opLD 1 5 9 0, payload := 0 } : Cell)) = true ∧ tS259.transitEntries (Cell.dpkg
  ({ hdr := mkHdr 7 1 3 5 opLD 1 5 9 0, payload := 0 } : Cell)) = [(15 : Nat)]) :=
  ⟨by decide, by decide, by decide, by decide +kernel, by decide, by decide +kernel, by decide, by decide, by decide, by decide, by decide,
    by decide, by decide, by decide, by decide, by decide, by decide⟩

theorem test_laser_modules_and_fade_witness : tS263.inv.cages.getLsbD (19 : CageId).val = true ∧ tReady.inv.cages.getLsbD (19 : CageId).val =
  false ∧ (tS263.cage (19 : CageId).val).mode ≠ .accepting ∧ ((tS264.cage (19 : CageId).val).mode = .accepting ∧ AcceptObs.failed
  ({ tAccept with failedStep := some 2 } : AcceptObs) = some (2 : Nat)) ∧ ((tS264.cage (19 : CageId).val).mode = .accepting ∧ AcceptObs.failed
  (tAccept : AcceptObs) = none ∧ 16 ≤ (19 : CageId).val ∧ tS264.fedBy (19 : CageId).val = none ∧ tS264.las.dark = 0 ∧ tS264.err.todo = [] ∧
  (Tbl.look {} tS264.fru.commissioned (19 : CageId).val).serial ≠ (tAccept : AcceptObs).serial) ∧ (tS263.err.todo = [] ∧ (tS263.lightRuns = false ∨
  (tS263.cage (19 : CageId).val).lit = false)) ∧ (tS265.err.todo = [] ∧ tS265.lightRuns = true ∧ (tS265.cage (19 : CageId).val).lit = true ∧
  tS265.fedBy (19 : CageId).val = none) ∧ (tS266.err.todo = [] ∧ tS266.lightRuns = true ∧ (tS266.cage (19 : CageId).val).lit = true ∧ tS266.fedBy
  (19 : CageId).val = none) ∧ (tS267.err.todo = [] ∧ tS267.lightRuns = true ∧ (tS267.cage (15 : CageId).val).lit = true ∧ tS267.fedBy (15 :
  CageId).val = some (15 : HalfId).val ∧ (tS267.sector (15 : HalfId).val).swap = none ∧ tS267.las.queue = [] ∧ (tS267.cage (15 : CageId).val).level
  = 0 ∧ (tS267.cage (15 : CageId).val).lowLines = 0 ∧ ((tS267.cage (15 : CageId).val).sample (List.replicate 32 (-200) : List Int)).level = 1) ∧ (1
  ≤ (1 : Nat) ∧ (1 : Nat) ≤ 4 ∧ fadeLevel (1 : Nat) (-150 : Int) < (1 : Nat)) ∧ (1 ≤ (4 : Nat) ∧ (4 : Nat) ≤ 4 ∧ fadeLevel (4 : Nat) (-350 : Int) <
  (4 : Nat)) ∧ (tS33.mc.mgmtReset = true ∧ tS33.err.todo = []) ∧ (tS265.mc.mgmtReset = false ∧ tS265.lightRuns = true ∧ (tS265.cage (19 :
  CageId).val).lit = true ∧ tS265.fedBy (19 : CageId).val = none) ∧ (tS268.mc.mgmtReset = false ∧ tS268.lightRuns = true ∧ (tS268.cage (19 :
  CageId).val).lit = true ∧ tS268.fedBy (19 : CageId).val = none ∧ tS268.err.todo = []) ∧ (tS265.inv.cages.getLsbD (19 : CageId).val = true ∧
  tS265.fedBy (19 : CageId).val = none ∧ tS265.err.todo = [] ∧ (∀ k, (tS265.sector k).swap = none)) ∧ (tReady.sector (15 : HalfId).val).source =
  none ∧ ((tS269.sector (15 : HalfId).val).source = some (15 : CageId).val ∧ (tS269.sector (15 : HalfId).val).swap = none ∧ ((.lasSectorDark 15 :
  Instr) = .lasSectorDark (15 : HalfId) ∨ ((.lasSectorDark 15 : Instr) = .cageExtract (15 : CageId) ∧ tS269.inv.cages.getLsbD (15 : CageId).val =
  true ∧ tS269.fedBy (15 : CageId).val = some (15 : HalfId).val ∧ ∀ j, (tS269.sector j).swap = none)) ∧ tS269.dieIn ((15 : HalfId).val / 2) = false
  ∧ tS269.err.handlings = [] ∧ tS269.err.todo = [] ∧ (∀ i, i < 4 → (tS269.link (4 * (15 : HalfId).val + i)).mode = .down) ∧ tS269.isDark (16 + 2 *
  (15 : HalfId).val) = false ∧ tS269.isDark (17 + 2 * (15 : HalfId).val) = false ∧ tS269.ethAlive = false) ∧ ((tS267.sector (15 :
  HalfId).val).source = some (15 : CageId).val ∧ (tS267.sector (15 : HalfId).val).swap = none ∧ ((.cageExtract 15 : Instr) = .lasSectorDark (15 :
  HalfId) ∨ ((.cageExtract 15 : Instr) = .cageExtract (15 : CageId) ∧ tS267.inv.cages.getLsbD (15 : CageId).val = true ∧ tS267.fedBy (15 :
  CageId).val = some (15 : HalfId).val ∧ ∀ j, (tS267.sector j).swap = none)) ∧ tS267.dieIn ((15 : HalfId).val / 2) = false ∧ tS267.err.handlings =
  [] ∧ tS267.err.todo = [] ∧ (∀ i, i < 4 → (tS267.link (4 * (15 : HalfId).val + i)).mode = .down) ∧ tS267.isDark (16 + 2 * (15 : HalfId).val) =
  false ∧ tS267.isDark (17 + 2 * (15 : HalfId).val) = false ∧ tS267.ethAlive = false) ∧ (tS270.cage (16 : Nat)).lowLines = 0 :=
  ⟨by decide, by decide, by decide, by decide, by decide, by decide, by decide, by decide, by decide +kernel, by decide, by decide, by decide,
    by decide, by decide, ⟨by decide, by decide, by decide, fun _ => rfl⟩, by decide, ⟨by decide, by decide, by simp, by decide, by decide,
    by decide, by decide, by decide, by decide, by decide⟩, ⟨by decide, by decide, Or.inr ⟨rfl, by decide, by decide,
    fun j => by simp only [tS267, tLas, State.sector, Tbl.look]; split <;> rfl⟩, by decide, by decide, by decide, by decide, by decide, by decide,
    by decide⟩, by decide⟩

theorem test_light_swaps_witness : (tS271.err.todo = [] ∧ tS271.las.queue = [({ sector := 15, kind := .scheduled, source := 15 } : SwapReq)] ∧
  ({ sector := 15, kind := .scheduled, source := 15 } : SwapReq).sector = (15 : HalfId).val ∧ (tS271.sector (15 : HalfId).val).swap = none ∧
  tS271.targets = [] ∧ tS271.fit 16 = true ∧ ({ sector := 15, kind := .scheduled, source := 15 } : SwapReq).source ≠ 16 ∧ (((.scheduledSwapDue 15 :
  Instr) = .scheduledSwapDue (15 : HalfId) ∧ ({ sector := 15, kind := .scheduled, source := 15 } : SwapReq).kind = .scheduled) ∨
  ((.scheduledSwapDue 15 : Instr) = .swapBegin (15 : HalfId) ∧ ({ sector := 15, kind := .scheduled, source := 15 } : SwapReq).due = true ∧
  ({ sector := 15, kind := .scheduled, source := 15 } : SwapReq).kind ∈ [.emergency, .expedited, .scheduled]))) ∧ (tS272.err.todo = [] ∧
  tS272.las.queue = [({ sector := 15, kind := .emergency, source := 15 } : SwapReq)] ∧ ({ sector := 15, kind := .emergency, source := 15 } :
  SwapReq).sector = (15 : HalfId).val ∧ (tS272.sector (15 : HalfId).val).swap = none ∧ tS272.targets = [] ∧ tS272.fit 16 = true ∧
  ({ sector := 15, kind := .emergency, source := 15 } : SwapReq).source ≠ 16 ∧ (((.swapBegin 15 : Instr) = .scheduledSwapDue (15 : HalfId) ∧
  ({ sector := 15, kind := .emergency, source := 15 } : SwapReq).kind = .scheduled) ∨ ((.swapBegin 15 : Instr) = .swapBegin (15 : HalfId) ∧
  ({ sector := 15, kind := .emergency, source := 15 } : SwapReq).due = true ∧ ({ sector := 15, kind := .emergency, source := 15 } : SwapReq).kind ∈
  [.emergency, .expedited, .scheduled]))) ∧ (tS263.err.todo = [] ∧ tS263.las.queue = []) ∧ (tS273.err.todo = [] ∧ tS273.err.handlings = [] ∧
  tS273.las.queue = [({ sector := 15, kind := .expedited, source := 15 } : SwapReq)] ∧ ({ sector := 15, kind := .expedited, source := 15 } :
  SwapReq).sector = (15 : HalfId).val ∧ ({ sector := 15, kind := .expedited, source := 15 } : SwapReq).due = true ∧
  ({ sector := 15, kind := .expedited, source := 15 } : SwapReq).kind ≠ .ret ∧ ({ sector := 15, kind := .expedited, source := 15 } :
  SwapReq).source < 16 ∧ (tS273.sector (15 : HalfId).val).swap = none ∧ tS273.targets = [] ∧ (∀ m, 16 ≤ m → m < 20 → tS273.fit m = false) ∧ (∀ j,
  (tS273.sector j).swap = none) ∧ tS273.las.noSpare.getLsbD (15 : HalfId).val = false) ∧ ((tS274.sector (15 : HalfId).val).swap = some
  ({ kind := .expedited, source := 15, target := 16, phase := .verifying } : Swap) ∧
  ({ kind := .expedited, source := 15, target := 16, phase := .verifying } : Swap).phase = .verifying) ∧ (tS275.phaseIs (15 : HalfId).val
  .verifying = false ∧ tS275.err.todo = []) ∧ ((tS276.sector (15 : HalfId).val).swap = some
  ({ kind := .ret, source := 15, target := 16, phase := .verifying } : Swap) ∧ ({ kind := .ret, source := 15, target := 16, phase := .verifying } :
  Swap).phase = .verifying ∧ ({ kind := .ret, source := 15, target := 16, phase := .verifying } : Swap).kind = .ret ∧ tS276.err.todo = []) ∧
  tS275.phaseIs (15 : HalfId).val .crossfade = false ∧ ((tS277.sector (15 : HalfId).val).swap = some
  ({ kind := .expedited, source := 15, target := 16, phase := .crossfade } : Swap) ∧
  ({ kind := .expedited, source := 15, target := 16, phase := .crossfade } : Swap).phase = .crossfade ∧ tS277.err.todo = [] ∧ (tS277.cage
  ({ kind := .expedited, source := 15, target := 16, phase := .crossfade } : Swap).target).mode ≠ .released ∧ (tS277.cage
  ({ kind := .expedited, source := 15, target := 16, phase := .crossfade } : Swap).source).lowLines = (tS277.cage
  ({ kind := .expedited, source := 15, target := 16, phase := .crossfade } : Swap).target).lowLines) ∧ tS275.phaseIs (15 : HalfId).val .confirming
  = false ∧ ((tS278.sector (15 : HalfId).val).swap = some ({ kind := .emergency, source := 15, target := 16, phase := .confirming } : Swap) ∧
  ({ kind := .emergency, source := 15, target := 16, phase := .confirming } : Swap).phase = .confirming) ∧ ((tS279.sector (15 : HalfId).val).swap =
  some ({ kind := .ret, source := 15, target := 16, phase := .confirming } : Swap) ∧
  ({ kind := .ret, source := 15, target := 16, phase := .confirming } : Swap).phase = .confirming) ∧ (tS265.err.todo = [] ∧ (tS265.cage (19 :
  CageId).val).mode ∈ [.active, .standby, .out, .accepting] ∧ tS265.inUse (19 : CageId).val = false) ∧ (tS280.err.todo = [] ∧ (tS280.cage (15 :
  CageId).val).mode = .active ∧ tS280.fedBy (15 : CageId).val = some (15 : HalfId).val ∧ (tS280.sector (15 : HalfId).val).swap = none ∧
  tS280.las.queue = [] ∧ tS280.targets = [] ∧ tS280.fit 16 = true) ∧ (tS281.inv.cages.getLsbD (19 : CageId).val = true ∧ tS281.lightRuns = true ∧
  (tS281.cage (19 : CageId).val).mode = .released) ∧ (tS282.cage (19 : CageId).val).mode ∉ [.released, .empty] :=
  ⟨by decide, by decide, by decide, ⟨by decide, by decide, by decide, by decide, by decide, by decide, by decide, by decide, by decide,
    by decide, by intro k; simp only [tS273, tQueue, tLas, State.sector, Tbl.look]; split <;> rfl, by decide⟩, by decide, by decide, by decide,
    by decide, by decide, by decide, by decide, by decide, by decide, by decide, by decide, by decide⟩

theorem test_host_port_and_queue_pairs_witness : (tS283.err.todo = [] ∧ (tS283.ethAlive = false ∨ tS283.eth.mode = .up)) ∧ (tS284.err.todo = [] ∧
  tS284.ethAlive = true ∧ tS284.eth.mode ≠ .up ∧ (1 : Nat) = Ethernet.wanted { tS284.eth with signal := (255 : Byte) } ∧ (1 : Nat) ≠ 0) ∧
  (tS285.err.todo = [] ∧ tS285.ethAlive = true ∧ tS285.eth.mode ≠ .up ∧ (2 : Nat) = Ethernet.wanted { tS285.eth with signal := (15 : Byte) } ∧ (2 :
  Nat) ≠ 0) ∧ (tS285.err.todo = [] ∧ tS285.ethAlive = true ∧ tS285.eth.mode ≠ .up ∧ tS285.eth.retraining = false ∧ Ethernet.wanted
  { tS285.eth with signal := (1 : Byte) } = 0) ∧ tS283.eth.mode ≠ .down ∧ (tS284.eth.mode = .down ∧ tS284.ethAlive = true) ∧ (tS283.err.todo = [] ∧
  tS283.err.handlings = [] ∧ tS283.ethAlive = true ∧ tS283.eth.mode = .up ∧ ({ (tQp {}).eth with signal := 127 } : Ethernet) =
  { tS283.eth with signal := bvSet tS283.eth.signal (7 : Fin 8).val (false : Bool) }) ∧ (tS283.err.todo = [] ∧ tS283.err.handlings = [] ∧
  tS283.ethAlive = true ∧ tS283.eth.mode = .up ∧ ({ (tQp {}).eth with signal := 254 } : Ethernet) =
  { tS283.eth with signal := bvSet tS283.eth.signal (0 : Fin 8).val (false : Bool) }) ∧ tS283.eth.mode = .up ∧ tReady.eth.mode ≠ .up ∧ (tS283.qp
  (1023 : QpId).val).state ≠ .ready ∧ ((tS286.qp (1023 : QpId).val).state = .error ∧ tS286.eth.mode = .up ∧ (tS286.qp (1023 : QpId).val).cnpTime =
  none) ∧ ((tS287.qp (1023 : QpId).val).state = .ready ∧ tS287.eth.mode = .up ∧ ([1] : List Byte).length ≤ 2 ^ 30 ∧ (4 : Nat) ≤ 2 ^ 30 ∧
  (((.rdmaWrite 1023 9 6 0 [1] false : Instr) = .rdmaWrite (1023 : QpId) (9 : BitVec 24) (6 : W32) (0 : W64) ([1] : List Byte) false ∧ (tS287.qp
  (1023 : QpId).val).rkey ≠ (6 : W32) ∧ (.nakAccess 1023 9 : HostTx) = .nakAccess (1023 : QpId).val (9 : BitVec 24)) ∨ ((.rdmaWrite 1023 9 6 0 [1]
  false : Instr) = .rdmaRead (1023 : QpId) (9 : BitVec 24) (6 : W32) (0 : W64) (4 : Nat) false ∧ (tS287.qp (1023 : QpId).val).rkey ≠ (6 : W32) ∧
  (.nakAccess 1023 9 : HostTx) = .nakAccess (1023 : QpId).val (9 : BitVec 24)) ∨ ((.rdmaWrite 1023 9 6 0 [1] false : Instr) = .send (1023 : QpId)
  (9 : BitVec 24) ([1] : List Byte) false ∧ 64 * (tS287.qp (1023 : QpId).val).slotSize.toNat < ([1] : List Byte).length + 16 ∧ (.nakAccess 1023 9 :
  HostTx) = .nakInvalid (1023 : QpId).val (9 : BitVec 24)) ∨ ((.rdmaWrite 1023 9 6 0 [1] false : Instr) = .roceUnsupportedOp (1023 : QpId) (9 :
  BitVec 24) ∧ (.nakAccess 1023 9 : HostTx) = .nakInvalid (1023 : QpId).val (9 : BitVec 24)))) ∧ ((tS287.qp (1023 : QpId).val).state = .ready ∧
  tS287.eth.mode = .up ∧ ([1] : List Byte).length ≤ 2 ^ 30 ∧ (4 : Nat) ≤ 2 ^ 30 ∧ (((.rdmaRead 1023 9 6 0 4 false : Instr) = .rdmaWrite (1023 :
  QpId) (9 : BitVec 24) (6 : W32) (0 : W64) ([1] : List Byte) false ∧ (tS287.qp (1023 : QpId).val).rkey ≠ (6 : W32) ∧ (.nakAccess 1023 9 : HostTx)
  = .nakAccess (1023 : QpId).val (9 : BitVec 24)) ∨ ((.rdmaRead 1023 9 6 0 4 false : Instr) = .rdmaRead (1023 : QpId) (9 : BitVec 24) (6 : W32) (0
  : W64) (4 : Nat) false ∧ (tS287.qp (1023 : QpId).val).rkey ≠ (6 : W32) ∧ (.nakAccess 1023 9 : HostTx) = .nakAccess (1023 : QpId).val (9 : BitVec
  24)) ∨ ((.rdmaRead 1023 9 6 0 4 false : Instr) = .send (1023 : QpId) (9 : BitVec 24) ([1] : List Byte) false ∧ 64 * (tS287.qp (1023 :
  QpId).val).slotSize.toNat < ([1] : List Byte).length + 16 ∧ (.nakAccess 1023 9 : HostTx) = .nakInvalid (1023 : QpId).val (9 : BitVec 24)) ∨
  ((.rdmaRead 1023 9 6 0 4 false : Instr) = .roceUnsupportedOp (1023 : QpId) (9 : BitVec 24) ∧ (.nakAccess 1023 9 : HostTx) = .nakInvalid (1023 :
  QpId).val (9 : BitVec 24)))) ∧ ((tS287.qp (1023 : QpId).val).state = .ready ∧ tS287.eth.mode = .up ∧ (List.replicate 49 1 : List Byte).length ≤ 2
  ^ 30 ∧ (4 : Nat) ≤ 2 ^ 30 ∧ (((.send 1023 9 (List.replicate 49 1) false : Instr) = .rdmaWrite (1023 : QpId) (9 : BitVec 24) (6 : W32) (0 : W64)
  (List.replicate 49 1 : List Byte) false ∧ (tS287.qp (1023 : QpId).val).rkey ≠ (6 : W32) ∧ (.nakInvalid 1023 9 : HostTx) = .nakAccess (1023 :
  QpId).val (9 : BitVec 24)) ∨ ((.send 1023 9 (List.replicate 49 1) false : Instr) = .rdmaRead (1023 : QpId) (9 : BitVec 24) (6 : W32) (0 : W64) (4
  : Nat) false ∧ (tS287.qp (1023 : QpId).val).rkey ≠ (6 : W32) ∧ (.nakInvalid 1023 9 : HostTx) = .nakAccess (1023 : QpId).val (9 : BitVec 24)) ∨
  ((.send 1023 9 (List.replicate 49 1) false : Instr) = .send (1023 : QpId) (9 : BitVec 24) (List.replicate 49 1 : List Byte) false ∧ 64 *
  (tS287.qp (1023 : QpId).val).slotSize.toNat < (List.replicate 49 1 : List Byte).length + 16 ∧ (.nakInvalid 1023 9 : HostTx) = .nakInvalid (1023 :
  QpId).val (9 : BitVec 24)) ∨ ((.send 1023 9 (List.replicate 49 1) false : Instr) = .roceUnsupportedOp (1023 : QpId) (9 : BitVec 24) ∧
  (.nakInvalid 1023 9 : HostTx) = .nakInvalid (1023 : QpId).val (9 : BitVec 24)))) ∧ ((tS287.qp (1023 : QpId).val).state = .ready ∧ tS287.eth.mode
  = .up ∧ ([] : List Byte).length ≤ 2 ^ 30 ∧ (4 : Nat) ≤ 2 ^ 30 ∧ (((.roceUnsupportedOp 1023 9 : Instr) = .rdmaWrite (1023 : QpId) (9 : BitVec 24)
  (6 : W32) (0 : W64) ([] : List Byte) false ∧ (tS287.qp (1023 : QpId).val).rkey ≠ (6 : W32) ∧ (.nakInvalid 1023 9 : HostTx) = .nakAccess (1023 :
  QpId).val (9 : BitVec 24)) ∨ ((.roceUnsupportedOp 1023 9 : Instr) = .rdmaRead (1023 : QpId) (9 : BitVec 24) (6 : W32) (0 : W64) (4 : Nat) false ∧
  (tS287.qp (1023 : QpId).val).rkey ≠ (6 : W32) ∧ (.nakInvalid 1023 9 : HostTx) = .nakAccess (1023 : QpId).val (9 : BitVec 24)) ∨
  ((.roceUnsupportedOp 1023 9 : Instr) = .send (1023 : QpId) (9 : BitVec 24) ([] : List Byte) false ∧ 64 * (tS287.qp (1023 :
  QpId).val).slotSize.toNat < ([] : List Byte).length + 16 ∧ (.nakInvalid 1023 9 : HostTx) = .nakInvalid (1023 : QpId).val (9 : BitVec 24)) ∨
  ((.roceUnsupportedOp 1023 9 : Instr) = .roceUnsupportedOp (1023 : QpId) (9 : BitVec 24) ∧ (.nakInvalid 1023 9 : HostTx) = .nakInvalid (1023 :
  QpId).val (9 : BitVec 24)))) ∧ ((tS287.qp (1023 : QpId).val).state = .ready ∧ tS287.eth.mode = .up ∧ (tS287.qp (1023 : QpId).val).rkey = (7 :
  W32) ∧ (tS287.qp (1023 : QpId).val).msgs = [] ∧ 0 < (tS287.qp (1023 : QpId).val).credit.toNat ∧ 0 < ([1, 2, 3, 4] : List Byte).length ∧ (60 :
  W64).toNat % 64 + ([1, 2, 3, 4] : List Byte).length ≤ 64 ∧ tS287.translate (tS287.qp (1023 : QpId).val).ctx.toNat (64 * ((60 : W64).toNat / 64))
  rightW true = some (0x020000000000 : Nat) ∧ tS287.routeOf 52 (0x020000000000 : Nat) = .ok (0 : Nat)) ∧ ((tS287.qp (1023 : QpId).val).state =
  .ready ∧ tS287.eth.mode = .up ∧ (tS287.qp (1023 : QpId).val).rkey = (7 : W32) ∧ (tS287.qp (1023 : QpId).val).msgs = [] ∧ 0 < (tS287.qp (1023 :
  QpId).val).credit.toNat ∧ 0 < (64 : Nat) ∧ (0x7FFFFFC0 : W64).toNat % 64 + (64 : Nat) ≤ 64 ∧ tS287.translate (tS287.qp (1023 :
  QpId).val).ctx.toNat (64 * ((0x7FFFFFC0 : W64).toNat / 64)) rightR true = some (0x02007FFFFFC0 : Nat) ∧ tS287.routeOf 52 (0x02007FFFFFC0 : Nat) =
  .ok (0 : Nat)) ∧ ((tS288.qp (1023 : QpId).val).state = .ready ∧ tS288.eth.mode = .up ∧ (tS288.qp (1023 : QpId).val).msgs = [] ∧ 0 < (tS288.qp
  (1023 : QpId).val).credit.toNat ∧ (List.replicate 48 1 : List Byte).length + 16 ≤ 64 * (tS288.qp (1023 : QpId).val).slotSize.toNat ∧
  tS288.translate (tS288.qp (1023 : QpId).val).ctx.toNat (tS288.qp (1023 : QpId).val).ringBase.toNat rightR true = some (0x020000000000 : Nat) ∧
  faPkg (0x020000000000 : Nat) = tS288.fab.pkgId.toNat ∧ (5 : Nat) = (tS288.qp (1023 : QpId).val).sendSeq.toNat ∧ (5 : Nat) < leNat
  (tS288.localBytes (faLocal (0x020000000000 : Nat)) 8) + (tS288.qp (1023 : QpId).val).slots.toNat ∧ (128 : W64) = (tS288.qp (1023 :
  QpId).val).ringBase + BitVec.ofNat 64 (64 + 64 * (tS288.qp (1023 : QpId).val).slotSize.toNat * ((5 : Nat) % (tS288.qp (1023 :
  QpId).val).slots.toNat)) ∧ (tS288.qp (1023 : QpId).val).slots ≠ 0 ∧ (128 : W64).toNat % 64 + ((List.replicate 48 1 : List Byte).length + 16) ≤ 64
  ∧ tS288.translate (tS288.qp (1023 : QpId).val).ctx.toNat (64 * ((128 : W64).toNat / 64)) rightW true = some (0x020000000080 : Nat) ∧
  tS288.routeOf 52 (0x020000000080 : Nat) = .ok (0 : Nat)) ∧ ((tS289.qp (1023 : QpId).val).state = .ready ∧ tS289.eth.mode = .up ∧ ([1] : List
  Byte).length + 16 ≤ 64 * (tS289.qp (1023 : QpId).val).slotSize.toNat ∧ ([1] : List Byte).length ≤ 2 ^ 30 ∧ tS289.translate (tS289.qp (1023 :
  QpId).val).ctx.toNat (tS289.qp (1023 : QpId).val).ringBase.toNat rightR true = some (0x020000000000 : Nat) ∧ faPkg (0x020000000000 : Nat) =
  tS289.fab.pkgId.toNat ∧ leNat (tS289.localBytes (faLocal (0x020000000000 : Nat)) 8) + (tS289.qp (1023 : QpId).val).slots.toNat ≤ (tS289.qp (1023
  : QpId).val).sendSeq.toNat) ∧ (tS290.eth.mode = .up ∧ (tS290.qp (1023 : QpId).val).msgs = [(tMsg : QpMsg)] ∧ (tMsg : QpMsg).issued = true ∧ (tMsg
  : QpMsg).isRead = false ∧ (tMsg : QpMsg).left = 0) ∧ (tS291.eth.mode = .up ∧ (tS291.qp (1023 : QpId).val).msgs =
  [({ tMsg with fails := [(0, .sour .segment, 4)] } : QpMsg)] ∧ ({ tMsg with fails := [(0, .sour .segment, 4)] } : QpMsg).issued = true ∧
  ({ tMsg with fails := [(0, .sour .segment, 4)] } : QpMsg).isRead = false ∧ ({ tMsg with fails := [(0, .sour .segment, 4)] } : QpMsg).left = 0) :=
  ⟨by decide, by decide, by decide, by decide, by decide, by decide, by decide, by decide, by decide, by decide, by decide, by decide, by decide,
    by decide, by decide, by decide, by decide +kernel, by decide +kernel, by decide +kernel, by decide +kernel, by decide, by decide⟩

theorem test_hbm_interleave_witness : ((0x1FFFFFFFF : BitVec 33) = (0x1FFFFFFFFFF : BitVec 41).extractLsb' 8 33 ∧ (4 : Nat) = ((0x7FFFF : BitVec
  19).extractLsb' 0 4).toNat % 11 ∧ (4 : Nat) = ((0x7FFFF : BitVec 19).extractLsb' 4 4).toNat % 11) ∧ (hbmPseudo (0x7FFFF : BitVec 19)
  (0x1FFFFFFFFFF : BitVec 41).toNat = hbmPseudo (0x7FFFF : BitVec 19) (0x1FFFFFFFFFF : BitVec 41).toNat ∧ hbmIndex (0x1FFFFFFFFFF : BitVec
  41).toNat = hbmIndex (0x1FFFFFFFFFF : BitVec 41).toNat) ∧ ((2047 : Nat) < 2048 ∧ (4194303 : Nat) < 2 ^ 22) :=
  ⟨by decide, by decide, by decide⟩

theorem test_trit_bytes_witness : ((242 : Nat) ≤ 242 ∧ (4 : Nat) < 5) ∧ 242 < (243 : Nat) :=
  ⟨by decide, by decide⟩

theorem test_memory_reads_back_witness : tS232.memoryWf = true ∧ (tS232.memoryWf = true ∧ tS232.memoryWf = true ∧ (∀ i, tS232.byteAt i =
  tS232.byteAt i)) :=
  ⟨by decide, ⟨by decide, by decide, fun _ => rfl⟩⟩

theorem test_memory_stays_canonical_witness : (State.reset.memoryWf = true ∧ step State.reset = .next tS293) :=
  ⟨by decide, rfl⟩

end Sys2Proof.Tests
end

section
/-! SUPPORT. What the trits of a T2 byte are and which flags their elements raise (R92), and the settled statement. -/

namespace Sys2Proof.Machine

/-- What a trit code stands for (R92). -/
def tritValue : Nat → Int
  | 0 => 0
  | 1 => 1
  | _ => -1

/-- Each trit code stands for one of the three values, and no two codes for the same one. -/
theorem tritValue_cases (c : Nat) (hc : c < 3) :
    tritValue c ∈ [(0 : Int), 1, -1] ∧ (tritValue c = 0 ↔ c = 0) ∧ (tritValue c = 1 ↔ c = 1) ∧ (tritValue c = -1 ↔ c = 2) := by
  match c, hc with
  | 0, _ | 1, _ | 2, _ => decide

theorem tritsOf_valid {B : Nat} (hB : B ≤ 242) :
    tritsOf B = ((List.range 5).map fun i => tritValue (B / 3 ^ i % 3), false) := by
  rw [tritsOf, if_neg (Nat.not_lt.mpr hB)]
  rfl

theorem tritsOf_invalid {B : Nat} (hB : 242 < B) : tritsOf B = ([0, 0, 0, 0, 0], true) := by
  rw [tritsOf, if_pos hB]

theorem tritsOf_length (B : Nat) : (tritsOf B).1.length = 5 := by
  rcases Nat.lt_or_ge 242 B with hB | hB
  · rw [tritsOf_invalid hB]; rfl
  · rw [tritsOf_valid hB]; rfl

theorem tritsOf_getD {B i : Nat} (hB : B ≤ 242) (hi : i < 5) :
    (tritsOf B).1.getD i 0 = tritValue (B / 3 ^ i % 3) := by
  simp [tritsOf_valid hB, hi]

theorem tritsOf_bad (B : Nat) : (tritsOf B).2 = decide (242 < B) := by
  rcases Nat.lt_or_ge 242 B with hB | hB
  · simp [tritsOf_invalid hB, hB]
  · simp [tritsOf_valid hB, hB]

theorem flagIf_and_of_disjoint (c : Bool) {f g : Flags} (h : f &&& g = 0) : flagIf c f &&& g = 0 := by
  cases c
  · exact BitVec.zero_and
  · exact h

theorem flagIf_and_self (c : Bool) (f : Flags) : flagIf c f &&& f = flagIf c f := by
  cases c
  · exact BitVec.zero_and
  · exact BitVec.and_self

/-- A product raises no flag but NV (R89, R120). -/
theorem Num.mul_flags_and_of_disjoint (x y : Num) {g : Flags} (h : fNV &&& g = 0) : (x.mul y).2 &&& g = 0 := by
  unfold Num.mul
  split
  · exact flagIf_and_of_disjoint _ h
  · exact flagIf_and_of_disjoint _ h
  · exact flagIf_and_of_disjoint _ h
  · exact BitVec.zero_and
  · split
    · exact h
    · exact BitVec.zero_and
  · split
    · exact h
    · exact BitVec.zero_and
  · exact BitVec.zero_and

/-- A trit element raises the flags of its product with the column's scale, and T2INV for an invalid byte (R92, R93). -/
theorem tritElem_flags (b step n k : Nat) : ∃ x y : Num,
    (tritElem b step n k).2 =
      (x.mul y).2 ||| flagIf (tritsOf (bitsAt b (8 * (8 * n + (4 * step + k) / 5)) 8)).2 fT2INV :=
  ⟨_, _, rfl⟩

theorem tritElem_t2inv (b step n k : Nat) : (tritElem b step n k).2 &&& fT2INV =
    if 242 < bitsAt b (8 * (8 * n + (4 * step + k) / 5)) 8 then fT2INV else 0 := by
  obtain ⟨x, y, hflags⟩ := tritElem_flags b step n k
  have hmul : (x.mul y).2 &&& fT2INV = 0 := Num.mul_flags_and_of_disjoint x y (by decide)
  rw [hflags, BitVec.and_or_distrib_right, hmul, flagIf_and_self, tritsOf_bad]
  simp [flagIf]

/-- Settles O57: the valid byte by its digits in base 3, the invalid byte by its branch, T2INV because the product of trit and scale
raises no flag but NV. -/
theorem tritBytes : Obligations.TritBytes := by
  refine ⟨fun B i hB hi => ?_, fun B hB => ?_, tritElem_t2inv⟩
  · rw [tritsOf_getD hB hi]
    exact ⟨tritsOf_length B, tritValue_cases _ (Nat.mod_lt _ (by decide))⟩
  · rw [tritsOf_invalid hB]

end Sys2Proof.Machine
end

section
/-! SUPPORT. The interleave (R194) as an xor with a fold of the granule's index, its inverse, and the settled statement. -/

namespace Sys2Proof.Machine

/-! ## Bit fields -/

theorem toNat_extractLsb'_eq_bitsAt {n : Nat} (x : BitVec n) (lo len : Nat) :
    (x.extractLsb' lo len).toNat = bitsAt x.toNat lo len := by
  rw [BitVec.extractLsb'_toNat, Nat.shiftRight_eq_div_pow, bitsAt]

theorem bitsAt_lt (x lo n : Nat) : bitsAt x lo n < 2 ^ n :=
  Nat.mod_lt _ (Nat.two_pow_pos n)

/-- A field of a field is a field of the whole number. -/
theorem bitsAt_bitsAt (x : Nat) {lo n lo' n' : Nat} (h : lo' + n' ≤ n) :
    bitsAt (bitsAt x lo n) lo' n' = bitsAt x (lo + lo') n' := by
  obtain ⟨k, rfl⟩ := Nat.exists_eq_add_of_le h
  rw [bitsAt, bitsAt, bitsAt, Nat.add_assoc, Nat.pow_add 2 lo', Nat.mod_mul_right_div_self, Nat.pow_add 2 n',
    Nat.mod_mul_right_mod, Nat.div_div_eq_div_mul, ← Nat.pow_add]

theorem rotl11_lt (x r : Nat) : rotl11 x r < 2 ^ 11 :=
  Nat.mod_lt _ (Nat.two_pow_pos 11)

/-- The model's rotation is the rotation of 11-bit words: the two parts of its sum share no bit. -/
theorem rotl11_toNat (x : BitVec 11) {r : Nat} (hr : r < 11) : rotl11 x.toNat r = (x.rotateLeft r).toNat := by
  have hwrapped : x.toNat / 2 ^ (11 - r) < 2 ^ r := by
    rw [Nat.div_lt_iff_lt_mul (Nat.two_pow_pos _), ← Nat.pow_add, Nat.add_sub_cancel' hr.le]
    exact x.isLt
  have hfits : x.toNat / 2 ^ (11 - r) < 2 ^ 11 := (Nat.div_le_self _ _).trans_lt x.isLt
  rw [rotl11, BitVec.toNat_rotateLeft, Nat.mod_eq_of_lt hr, ← Nat.shiftLeft_eq, Nat.shiftLeft_add_eq_or_of_lt hwrapped,
    Nat.or_mod_two_pow, Nat.mod_eq_of_lt hfits, Nat.shiftRight_eq_div_pow]

/-! ## The interleave and its inverse -/

/-- What the interleave folds into g[10:0]: the rotated halves of the index and the salt's mask (R194). -/
def hbmFold (salt : BitVec 19) (index : Nat) : Nat :=
  rotl11 (bitsAt index 0 11) (bitsAt salt.toNat 0 4 % 11) ^^^ rotl11 (bitsAt index 11 11) (bitsAt salt.toNat 4 4 % 11) ^^^
    bitsAt salt.toNat 8 11

theorem hbmFold_lt (salt : BitVec 19) (index : Nat) : hbmFold salt index < 2 ^ 11 :=
  Nat.xor_lt_two_pow (Nat.xor_lt_two_pow (rotl11_lt _ _) (rotl11_lt _ _)) (bitsAt_lt _ _ _)

/-- The pseudo-channel is g[10:0] under a mask that depends on the index alone: hence the bijection. -/
theorem hbmPseudo_eq_xor_hbmFold (salt : BitVec 19) (a : Nat) :
    hbmPseudo salt a = bitsAt a 8 11 ^^^ hbmFold salt (hbmIndex a) := by
  simp [hbmPseudo, hbmFold, hbmIndex, bitsAt_bitsAt, Nat.xor_assoc]

theorem hbmAddress_eq_xor_hbmFold (salt : BitVec 19) (p i : Nat) :
    hbmAddress salt p i = (i * 2048 + (p ^^^ hbmFold salt i)) * 256 := by
  simp [hbmAddress, hbmFold, Nat.xor_assoc]

/-- The granule number is its index over its low 11 bits. -/
theorem bitsAt_granule (a : Nat) : bitsAt a 8 33 = hbmIndex a * 2048 + bitsAt a 8 11 := by
  simp only [hbmIndex, bitsAt]
  omega

section
variable (salt : BitVec 19) {p i : Nat} (hp : p < 2048) (hi : i < 2 ^ 22)
include hp

theorem xor_hbmFold_lt : p ^^^ hbmFold salt i < 2048 :=
  Nat.xor_lt_two_pow (n := 11) hp (hbmFold_lt salt i)

theorem bitsAt_hbmAddress : bitsAt (hbmAddress salt p i) 8 11 = p ^^^ hbmFold salt i := by
  have hlow := xor_hbmFold_lt salt (i := i) hp
  rw [hbmAddress_eq_xor_hbmFold, bitsAt]
  omega

include hi

theorem hbmAddress_lt : hbmAddress salt p i < 2 ^ 41 := by
  have hlow := xor_hbmFold_lt salt (i := i) hp
  rw [hbmAddress_eq_xor_hbmFold]
  omega

theorem hbmIndex_hbmAddress : hbmIndex (hbmAddress salt p i) = i := by
  have hlow := xor_hbmFold_lt salt (i := i) hp
  rw [hbmAddress_eq_xor_hbmFold, hbmIndex, bitsAt]
  omega

theorem hbmPseudo_hbmAddress : hbmPseudo salt (hbmAddress salt p i) = p := by
  rw [hbmPseudo_eq_xor_hbmFold, hbmIndex_hbmAddress salt hp hi, bitsAt_hbmAddress salt hp, Nat.xor_xor_cancel_right]

end

theorem hbmAddress_mod_granule (salt : BitVec 19) (p i : Nat) : hbmAddress salt p i % 256 = 0 := by
  rw [hbmAddress_eq_xor_hbmFold, Nat.mul_mod_left]

/-- R194's formula in 11-bit words. -/
theorem hbmPseudo_toNat (salt : BitVec 19) (a : BitVec 41) : hbmPseudo salt a.toNat =
    ((a.extractLsb' 8 33).extractLsb' 0 11 ^^^
      ((a.extractLsb' 8 33).extractLsb' 11 11).rotateLeft ((salt.extractLsb' 0 4).toNat % 11) ^^^
      ((a.extractLsb' 8 33).extractLsb' 22 11).rotateLeft ((salt.extractLsb' 4 4).toNat % 11) ^^^
      salt.extractLsb' 8 11).toNat := by
  have hr (x : Nat) : x % 11 < 11 := Nat.mod_lt x (by decide)
  rw [BitVec.toNat_xor, BitVec.toNat_xor, BitVec.toNat_xor, ← rotl11_toNat _ (hr _), ← rotl11_toNat _ (hr _)]
  simp only [toNat_extractLsb'_eq_bitsAt]
  rfl

theorem hbmIndex_toNat (a : BitVec 41) : hbmIndex a.toNat = ((a.extractLsb' 8 33).extractLsb' 11 22).toNat := by
  rw [toNat_extractLsb'_eq_bitsAt, toNat_extractLsb'_eq_bitsAt, bitsAt_bitsAt _ (by decide), hbmIndex]

/-- Pseudo-channel and index determine the granule number. -/
theorem granule_eq_of_hbmPseudo_of_hbmIndex {salt : BitVec 19} {a b : BitVec 41}
    (hpseudo : hbmPseudo salt a.toNat = hbmPseudo salt b.toNat) (hindex : hbmIndex a.toNat = hbmIndex b.toNat) :
    a.extractLsb' 8 33 = b.extractLsb' 8 33 := by
  have hlow : bitsAt a.toNat 8 11 = bitsAt b.toNat 8 11 := by
    rwa [hbmPseudo_eq_xor_hbmFold, hbmPseudo_eq_xor_hbmFold, hindex, Nat.xor_left_inj] at hpseudo
  apply BitVec.eq_of_toNat_eq
  rw [toNat_extractLsb'_eq_bitsAt, toNat_extractLsb'_eq_bitsAt, bitsAt_granule, bitsAt_granule, hindex, hlow]

/-- An address of HBM belongs to the memory port of its stack (R198). -/
theorem State.portOf_hbm (s : State) {a : Nat} (ha : a < 2 ^ 41) :
    s.portOf a = some (16 + hbmPseudo s.hbm.salt a % 32) := by
  have hregion : regionOf a = .hbm := if_pos ha
  rw [State.portOf, hregion, hbmStack]

/-- Settles O56: the formula word by word, and the bijection because the pseudo-channel is g[10:0] under an xor with a fold of the
index, which a second xor undoes. -/
theorem hbmInterleave : Obligations.HbmInterleave := by
  refine ⟨?formula, fun s a => s.portOf_hbm a.isLt, fun _ _ _ => granule_eq_of_hbmPseudo_of_hbmIndex, ?inverse⟩
  case formula =>
    rintro salt a _ _ _ rfl rfl rfl
    exact ⟨hbmPseudo_toNat salt a, hbmIndex_toNat a⟩
  case inverse =>
    intro salt p i hp hi
    exact ⟨hbmPseudo_hbmAddress salt hp hi, hbmIndex_hbmAddress salt hp hi, hbmAddress_lt salt hp hi,
      hbmAddress_mod_granule salt p i⟩

end Sys2Proof.Machine
end

section
/-! SUPPORT. Readings of the state that sending cells, answering and reporting leave alone: one structure for each of the three. -/

namespace Sys2Proof.Machine

/-- π reads nothing that sending cells rewrites. -/
structure BlindToCells {α : Type} (π : State → α) : Prop where
  flight : ∀ s x, π { s with fab := { s.fab with flight := x } } = π s
  held : ∀ s x, π { s with fab := { s.fab with held := x } } = π s
  ops : ∀ s x, π { s with fab := { s.fab with ops := x } } = π s
  nextTag : ∀ s x, π { s with fab := { s.fab with nextTag := x } } = π s
  links : ∀ s x, π { s with lnk := { s.lnk with links := x } } = π s
  credit : ∀ s x, π { s with lnk := { s.lnk with credit := x } } = π s

/-- π reads nothing that sealing records and answering rewrite either. -/
structure BlindToSent {α : Type} (π : State → α) : Prop extends BlindToCells π where
  kcp : ∀ s x, π { s with kcp := x } = π s
  eth : ∀ s x, π { s with eth := x } = π s

/-- π reads nothing that writing a record and raising a notification rewrite either. -/
structure BlindToReport {α : Type} (π : State → α) : Prop extends BlindToSent π where
  push : ∀ s r, π (s.pushRecord r) = π s

end Sys2Proof.Machine
end

section
/-! SUPPORT. Every command answers a state whose memory is canonical (R186, log 2), and the settled statement. -/

namespace Sys2Proof.Machine

/-- The state that a command answers, if it answers one, has memory in canonical form. -/
def CanonicalAfter : Host.Outcome State Fault Refusal → Prop
  | .next t => Memory.wf t.fab.mem = true
  | _ => True

theorem canonical_of_mem {s t : State} (w : Memory.wf s.fab.mem = true) (h : t.fab.mem = s.fab.mem) :
    Memory.wf t.fab.mem = true := by
  rw [h]; exact w

theorem canonical_ite {c : Prop} [Decidable c] {a b : State} (ha : Memory.wf a.fab.mem = true) (hb : Memory.wf b.fab.mem = true) :
    Memory.wf (if c then a else b).fab.mem = true := by
  split
  · exact ha
  · exact hb

theorem canonical_reply {s : State} (w : Memory.wf s.fab.mem = true) (src : KcpSrc) (q : W32) (o : W16) (st : Nat) (p : List Byte)
    (m : Bool) : Memory.wf (s.reply src q o st p m).fab.mem = true :=
  canonical_of_mem w (State.reply_mem ..)

/-- The answer of a command whose work t left memory alone. -/
theorem canonical_reply_of_mem {s t : State} (w : Memory.wf s.fab.mem = true) (h : t.fab.mem = s.fab.mem) (src : KcpSrc) (q : W32)
    (o : W16) (st : Nat) (p : List Byte) (m : Bool) : Memory.wf (t.reply src q o st p m).fab.mem = true :=
  canonical_reply (canonical_of_mem w h) src q o st p m

theorem canonical_done_print {t : State} (w : Memory.wf t.fab.mem = true) (l : List MonLine) :
    Memory.wf (t.print l).done.fab.mem = true :=
  canonical_of_mem w ((State.done_mem _).trans (State.print_mem _ _))

theorem canonical_fail {t : State} (w : Memory.wf t.fab.mem = true) (why : String) : Memory.wf (t.fail why).fab.mem = true :=
  canonical_of_mem w (State.fail_mem _ _)

theorem canonical_afterStep {s : State} (w : Memory.wf s.fab.mem = true) {o : Host.Outcome State Fault Refusal}
    (h : CanonicalAfter o) : Memory.wf (afterStep s o).fab.mem = true := by
  cases o with
  | next t => exact h
  | fault r => exact w
  | refused r => exact w

section
variable {s : State} (w : Memory.wf s.fab.mem = true)
include w

/-- A command of the sequencer that writes no memory itself. -/
theorem canonical_seqDo {v : Nat} {rs : List RegNo} {f : State → Nat → State} (hf : ∀ p, (f s p).fab.mem = s.fab.mem) :
    Memory.wf (s.seqDo v rs f).fab.mem = true :=
  State.seqDo_wf s v rs f (fun p h => canonical_of_mem h (hf p)) w

/-- A command of the monitor that only prints. -/
theorem canonical_monitor_print {locked rom : Bool} {f : State → List MonLine} :
    Memory.wf (s.monitor locked rom fun a => (a.print (f a)).done).fab.mem = true :=
  State.monitor_wf s locked rom _ (fun _ h => canonical_done_print h _) w

/-! ## The commands of KCP -/

theorem execAttest_canonical (src : KcpSrc) (req : W32) (nonce : BitVec 512) : CanonicalAfter (execAttest src req nonce s) :=
  canonical_reply_of_mem w (by rfl) ..

theorem execCultureLoad_canonical (src : KcpSrc) (req : W32) (image : W64) (shift : Byte) (targets : List (Byte × Byte)) :
    CanonicalAfter (execCultureLoad src req image shift targets s) :=
  canonical_ite (canonical_reply w ..) (canonical_ite (canonical_reply w ..) (canonical_of_mem w (State.acceptLoad_mem ..)))

theorem execCtxDestroy_canonical (src : KcpSrc) (req : W32) (c : Byte) : CanonicalAfter (execCtxDestroy src req c s) := by
  have hd := State.tryDestroy_wf s c.toNat (some (src, req)) w
  refine canonical_ite ?_ (canonical_reply w ..)
  split
  · rename_i s1 e
    rw [e] at hd
    exact canonical_reply hd ..
  · rename_i s1 e
    rw [e] at hd
    exact hd

theorem execSegMap_canonical (src : KcpSrc) (req : W32) (c : Byte) (seg : W16) (entry : BitVec 128) :
    CanonicalAfter (execSegMap src req c seg entry s) :=
  canonical_ite (canonical_reply w ..) (canonical_reply_of_mem w (State.writeSeg_mem ..) ..)

theorem execQpCreate_canonical (src : KcpSrc) (req : W32) (q : W16) (c : Byte) (rkey : W32) (credit slotSize : W16) (slots : W32)
    (ringBase : W64) (peer : QpPeer) :
    CanonicalAfter (execQpCreate src req q c rkey credit slotSize slots ringBase peer s) := by
  unfold execQpCreate
  show Memory.wf (State.fab (match creditOf credit with | none => _ | some cr => _)).mem = true
  split
  · exact canonical_reply w ..
  · exact canonical_ite (canonical_reply w ..) (canonical_ite (canonical_reply w ..)
      (canonical_reply_of_mem w (by rfl) ..))

theorem execQpDestroy_canonical (src : KcpSrc) (req : W32) (q : W16) : CanonicalAfter (execQpDestroy src req q s) :=
  canonical_ite (canonical_reply w ..) (canonical_ite (canonical_reply w ..)
    (canonical_reply_of_mem w (State.qpDestroyed_mem ..) ..))

theorem execRegRead_canonical (src : KcpSrc) (req : W32) (reads : List (W64 × Byte)) :
    CanonicalAfter (execRegRead src req reads s) := by
  refine canonical_ite (canonical_reply w ..) ?_
  split <;> exact canonical_reply w ..

theorem execDumpRead_canonical (src : KcpSrc) (req offset length : W32) : CanonicalAfter (execDumpRead src req offset length s) :=
  canonical_ite (canonical_reply w ..) (canonical_reply w ..)

theorem execPowerLimit_canonical (src : KcpSrc) (req watts : W32) : CanonicalAfter (execPowerLimit src req watts s) :=
  canonical_reply_of_mem w (State.setLimit_mem ..) ..

theorem execRouteWrite_canonical (src : KcpSrc) (req : W32) (d j : Byte) (value : W32) :
    CanonicalAfter (execRouteWrite src req d j value s) :=
  canonical_ite (canonical_reply w ..) (canonical_reply_of_mem w (State.writeRoute_mem ..) ..)

theorem execFwBegin_canonical (src : KcpSrc) (req : W32) (kind : Byte) (total : W32) :
    CanonicalAfter (execFwBegin src req kind total s) :=
  canonical_ite (canonical_reply w ..) (canonical_ite (canonical_reply w ..) (canonical_ite (canonical_reply w ..)
    (canonical_ite (canonical_reply w ..) (canonical_reply_of_mem w (by rfl) ..))))

theorem execFwWrite_canonical (src : KcpSrc) (req offset : W32) (bytes : List Byte) :
    CanonicalAfter (execFwWrite src req offset bytes s) := by
  refine canonical_ite (canonical_reply w ..) ?_
  split
  · exact canonical_reply w ..
  · exact canonical_ite (canonical_reply w ..) (canonical_reply_of_mem w (by rfl) ..)

theorem execFwCommit_canonical (src : KcpSrc) (req : W32) (hash : BitVec 512) : CanonicalAfter (execFwCommit src req hash s) := by
  refine canonical_ite (canonical_reply w ..) (canonical_ite (canonical_reply w ..) ?_)
  split
  · exact canonical_reply w ..
  · rename_i g _
    exact canonical_ite (canonical_reply w ..) (canonical_ite (canonical_reply w ..)
      (canonical_of_mem w (s.eraseRegion_mem g.isCfg)))

theorem execCtxCreate_canonical (src : KcpSrc) (req : W32) (c : Byte) (group : W16) (seed : W64) :
    CanonicalAfter (execCtxCreate src req c group seed s) :=
  canonical_of_mem w (State.ctxCommand_mem (hf := fun _ => State.tryCreate_mem ..) ..)

theorem execCtxLaunch_canonical (src : KcpSrc) (req : W32) (c : Byte) : CanonicalAfter (execCtxLaunch src req c s) :=
  canonical_of_mem w (State.ctxCommand_mem (hf := fun _ => State.tryLaunch_mem ..) ..)

theorem execCtxPause_canonical (src : KcpSrc) (req : W32) (c : Byte) : CanonicalAfter (execCtxPause src req c s) :=
  canonical_of_mem w (State.ctxCommand_mem (hf := fun _ => State.tryPause_mem ..) ..)

theorem execNotifySubscribe_canonical (src : KcpSrc) (req : W32) (mask : Byte) :
    CanonicalAfter (execNotifySubscribe src req mask s) :=
  canonical_reply_of_mem w (State.setSubs_mem ..) ..

theorem execNotifyAck_canonical (src : KcpSrc) (req seq : W32) : CanonicalAfter (execNotifyAck src req seq s) :=
  canonical_reply_of_mem w (by rfl) ..

/-! ## Requests that a record or another package carries -/

/-- A request is its command, or an answer that it is none. -/
theorem State.serve_wf (src : KcpSrc) (m : KcpMsg) : Memory.wf (s.serve src m).fab.mem = true := by
  have run {ok : Bool} {o : Host.Outcome State Fault Refusal} (h : CanonicalAfter o) :
      Memory.wf (if ok then afterStep s o else s.reply src m.req m.op stBadMessage []).fab.mem = true :=
    canonical_ite (canonical_afterStep w h) (canonical_reply w ..)
  refine canonical_ite (canonical_reply w ..) ?_
  split
  · exact run (canonical_reply w ..)
  · exact run (execAttest_canonical w ..)
  · exact run (execCultureLoad_canonical w ..)
  · exact run (execCtxCreate_canonical w ..)
  · exact run (execCtxLaunch_canonical w ..)
  · exact run (execCtxPause_canonical w ..)
  · exact run (execCtxDestroy_canonical w ..)
  · exact run (execSegMap_canonical w ..)
  · exact run (execQpCreate_canonical w ..)
  · exact run (execQpDestroy_canonical w ..)
  · exact run (execRegRead_canonical w ..)
  · exact run (State.kcpWrite_wf (hm := w) ..)
  · exact run (canonical_reply w ..)
  · exact run (execDumpRead_canonical w ..)
  · exact run (execPowerLimit_canonical w ..)
  · exact run (execRouteWrite_canonical w ..)
  · exact run (execNotifySubscribe_canonical w ..)
  · exact run (execNotifyAck_canonical w ..)
  · exact run (execFwBegin_canonical w ..)
  · exact run (execFwWrite_canonical w ..)
  · exact run (execFwCommit_canonical w ..)
  · exact canonical_reply w ..

theorem State.sessionMessage_wf (k : Fin 8) (bytes : List Byte) : Memory.wf (s.sessionMessage k bytes).fab.mem = true := by
  unfold State.sessionMessage
  split
  · exact w
  · dsimp only
    split
    · exact canonical_of_mem w ((State.sealTo_mem ..).trans (by rfl))
    · exact canonical_ite w (canonical_ite (canonical_reply w ..) (canonical_ite (canonical_of_mem w (State.forward_mem ..))
        (State.serve_wf (canonical_of_mem w (by rfl)) ..)))

theorem State.dataRecord_wf (r : List Byte) : Memory.wf (s.dataRecord r).fab.mem = true := by
  unfold State.dataRecord
  refine canonical_ite w ?_
  split
  · exact w
  · refine canonical_ite w ?_
    split
    · exact w
    · exact canonical_ite (canonical_of_mem w (State.dropSession_mem ..)) (canonical_ite w
        (State.sessionMessage_wf (canonical_of_mem w (by rfl)) ..))

theorem State.forwardArrives_wf (pkg : PkgId) (slot : Fin 8) (bytes : List Byte) :
    Memory.wf (s.forwardArrives pkg slot bytes).fab.mem = true := by
  have hmail : Memory.wf (s.takeMail pkg.val bytes).fab.mem = true := canonical_of_mem w (State.takeMail_mem ..)
  unfold State.forwardArrives
  refine canonical_ite w ?_
  split
  · exact hmail
  · dsimp only
    split
    · exact canonical_of_mem hmail ((State.sendMsg_mem ..).trans (by rfl))
    · exact canonical_ite hmail (canonical_ite (canonical_reply_of_mem hmail (by rfl) ..)
        (State.serve_wf (canonical_of_mem hmail (by rfl)) ..))

/-! ## Commands that look something up -/

theorem execRegisterWrite_canonical (wr : Writer) (addr : BitVec 46) (wide : Bool) (value : W64) :
    CanonicalAfter (execRegisterWrite wr addr wide value s) := by
  unfold execRegisterWrite
  show Memory.wf (State.fab (match s.regWrite wr addr.toNat (if wide then 8 else 4) value.toNat with
    | .ok (_, t) => t | .error _ => s)).mem = true
  split
  · exact State.regWrite_wf _ _ _ _ _ _ _ ‹_› w
  · exact w

theorem execTwaitComplete_canonical (v : VatId) : CanonicalAfter (execTwaitComplete v s) := by
  dsimp only [execTwaitComplete, CanonicalAfter]
  split
  · exact canonical_of_mem w (State.twaitDone_mem ..)
  · exact w

theorem execFfenceComplete_canonical (v : VatId) : CanonicalAfter (execFfenceComplete v s) := by
  dsimp only [execFfenceComplete, CanonicalAfter]
  split
  · exact canonical_of_mem w (State.fenceDone_mem ..)
  · exact w

theorem execLoadCheckComplete_canonical (load : Nat) : CanonicalAfter (execLoadCheckComplete load s) := by
  dsimp only [execLoadCheckComplete, CanonicalAfter]
  split
  · exact canonical_of_mem w ((State.finishLoads_mem _).trans (State.checkLoad_mem ..))
  · exact w

theorem execLoadStreamComplete_canonical (load : Nat) : CanonicalAfter (execLoadStreamComplete load s) := by
  dsimp only [execLoadStreamComplete, CanonicalAfter]
  split
  · exact canonical_of_mem (State.streamLoad_wf (hm := w) ..) (State.finishLoads_mem _)
  · exact w

theorem execOpTimeout_canonical (port : PortId) (tag : W16) : CanonicalAfter (execOpTimeout port tag s) := by
  dsimp only [execOpTimeout, CanonicalAfter]
  split
  · exact canonical_ite (State.finish_wf _ (canonical_of_mem w (State.failOp_mem ..))) w
  · exact w

theorem execCrossfadeEnd_canonical (sector : HalfId) : CanonicalAfter (execCrossfadeEnd sector s) := by
  dsimp only [execCrossfadeEnd, CanonicalAfter]
  split
  · exact canonical_ite (State.finish_wf _ (canonical_of_mem w (State.onTarget_mem ..))) w
  · exact w

theorem execLasSectorDark_canonical (sector : HalfId) : CanonicalAfter (execLasSectorDark sector s) := by
  dsimp only [execLasSectorDark, CanonicalAfter]
  split
  · exact State.finish_wf _ (State.sectorDark_wf (hm := w) ..)
  · exact w

theorem execClose_canonical (session : W32) (reason : Byte) : CanonicalAfter (execClose session reason s) := by
  dsimp only [execClose, CanonicalAfter]
  split
  · exact canonical_of_mem w (State.dropSession_mem ..)
  · exact w

theorem execLinkDown_canonical (l : LinkId) : CanonicalAfter (execLinkDown l s) := by
  have hdown : Memory.wf (s.linkToDown l.val).finish.fab.mem = true := State.finish_wf _ (canonical_of_mem w (State.linkToDown_mem ..))
  dsimp only [execLinkDown, CanonicalAfter]
  split
  · exact hdown
  · exact hdown
  · exact w

theorem execAcceptanceComplete_canonical (m : CageId) (obs : AcceptObs) : CanonicalAfter (execAcceptanceComplete m obs s) := by
  refine canonical_ite w ?_
  split
  · exact w
  · exact State.finish_wf _ (canonical_of_mem w (State.accepted_mem ..))

theorem execLatchClose_canonical (m : CageId) : CanonicalAfter (execLatchClose m s) := by
  have hstart : Memory.wf ((s.onCage m.val fun x => { x with latchOpen := false }).acceptStart m.val).fab.mem = true :=
    canonical_of_mem w (State.acceptStart_mem ..)
  dsimp only [execLatchClose, CanonicalAfter]
  split
  · exact hstart
  · exact hstart
  · exact w

theorem execXon_canonical (hop : Nat) (cls : BitVec 2) (response : Bool) : CanonicalAfter (execXon hop cls response s) := by
  dsimp only [execXon, CanonicalAfter]
  split
  · exact canonical_of_mem w ((State.drainLink_mem ..).trans (by rfl))
  · exact canonical_of_mem w ((State.relaunch_mem _).trans (by rfl))

theorem execIrDropCheck_canonical (losses : List (VatId × Nat)) : CanonicalAfter (execIrDropCheck losses s) :=
  State.finish_wf _ (foldl_wf _ _ _ w fun _ _ h => canonical_ite (canonical_of_mem h (State.irDrop_mem ..)) h)

theorem execSensorSelfCheck_canonical (failing : List (Region × Fin 8)) : CanonicalAfter (execSensorSelfCheck failing s) :=
  State.finish_wf _ (canonical_of_mem w ((foldl_mem _ _ _ fun _ _ => State.checkBlind_mem ..).trans
    (foldl_mem _ _ _ fun _ _ => State.breakSensor_mem ..)))

theorem execNetworkFrame_canonical (kind : NetFrame) : CanonicalAfter (execNetworkFrame kind s) := by
  refine canonical_ite ?_ w
  split
  · exact w
  · exact canonical_of_mem w (State.hostSend_mem ..)

theorem execRdmaWrite_canonical (q : QpId) (psn : BitVec 24) (rkey : W32) (va : W64) (bytes : List Byte) (ce : Bool) :
    CanonicalAfter (execRdmaWrite q psn rkey va bytes ce s) := by
  refine canonical_of_mem w (State.rdmaRequest_mem (hf := fun a => ?_) ..)
  split
  · exact State.takeMsg_mem ..
  · exact State.rdmaNak_mem ..

theorem execRdmaRead_canonical (q : QpId) (psn : BitVec 24) (rkey : W32) (va : W64) (length : Nat) (ce : Bool) :
    CanonicalAfter (execRdmaRead q psn rkey va length ce s) := by
  refine canonical_of_mem w (State.rdmaRequest_mem (hf := fun a => ?_) ..)
  split
  · exact State.rdmaNak_mem ..
  · split
    · exact State.rdmaNak_mem ..
    · exact State.takeMsg_mem ..

end

/-! ## Every command -/

/-- Every command keeps the canonical form, by what MemoryKept says of the operation it is made of. -/
theorem exec_canonical {s : State} (w : Memory.wf s.fab.mem = true) (c : Instr) : CanonicalAfter (exec c s) := by
  cases c with
  | powerApplied => exact State.powerOn_wf ..
  | undervoltageTrip => exact State.inputTrip_wf ..
  | overvoltageTrip => exact State.inputTrip_wf ..
  | inputRestart => exact canonical_ite (State.powerOn_wf ..) w
  | resetNAssert => exact s.powerOnReset_wf
  | resetNRelease => exact w
  | lugPairLoss => exact canonical_of_mem w (State.lugLost_mem ..)
  | lugClampRecompute => exact w
  | leakDetect => exact State.trip_wf (hm := canonical_of_mem w (by rfl)) ..
  | i2cStatusWrite => exact w
  | buttonRelease => exact canonical_of_mem w (State.releaseButton_mem ..)
  | identifyExpire => exact w
  | buttonHold10s => exact canonical_ite (canonical_of_mem w (State.longPress_mem ..)) w
  | standbyEntered => exact canonical_of_mem w (State.standbyReached_mem ..)
  | exitStandby => exact canonical_of_mem w (State.leaveStandby_mem ..)
  | ident => exact w
  | faultClr => exact w
  | lockMon => exact canonical_of_mem w (State.lockMonitor_mem ..)
  | registerWrite => exact execRegisterWrite_canonical w ..
  | seqBaseInstruction => exact canonical_seqDo w fun _ => State.seqStep_mem ..
  | seqLoad => exact canonical_seqDo w fun _ => State.seqLoadOp_mem ..
  | seqStore => exact canonical_seqDo w fun _ => State.seqStoreOp_mem ..
  | seqAmo => exact canonical_seqDo w fun _ => State.seqAmoOp_mem ..
  | fence => exact canonical_seqDo w fun _ => State.seqFfence_mem ..
  | csrAccess => exact canonical_seqDo w fun _ => State.seqCsr_mem ..
  | tgrp => exact canonical_seqDo w fun _ => State.seqTgrp_mem ..
  | trun => exact canonical_seqDo w fun _ => State.seqTrun_mem ..
  | trunRetire => exact canonical_of_mem w (State.trunRetire_mem ..)
  | tileStart => exact canonical_of_mem w (State.tileStart_mem ..)
  | bundleIssue => exact State.tileIssue_wf (hm := w) ..
  | vectorResultLand => exact canonical_of_mem w (State.vectorLands_mem ..)
  | macResultLand => exact canonical_of_mem w (State.macLands_mem ..)
  | tileIdle => exact canonical_of_mem w (State.tileIdles_mem ..)
  | twait => exact canonical_seqDo w fun _ => State.seqTwait_mem ..
  | twaitComplete => exact execTwaitComplete_canonical w ..
  | tstat => exact canonical_seqDo w fun _ => State.seqTstat_mem ..
  | ldlgo => exact canonical_seqDo w fun _ => State.seqLdlgo_mem ..
  | ladleIssue => exact State.ladleIssue_wf (hm := w) ..
  | ldltake => exact canonical_seqDo w fun _ => State.seqLdltake_mem ..
  | ldltakeComplete => exact State.ldltakeAgain_wf (hm := w) ..
  | ldlres => exact canonical_seqDo w fun _ => State.seqLdlres_mem ..
  | ldlstop => exact canonical_seqDo w fun _ => State.seqLdlstop_mem ..
  | ffence => exact canonical_seqDo w fun _ => State.seqFfence_mem ..
  | ffenceComplete => exact execFfenceComplete_canonical w ..
  | boundary => exact canonical_seqDo w fun _ => State.seqBoundary_mem ..
  | boundaryRetire => exact State.boundaryRetire_wf (hm := w) ..
  | swapComplete => exact canonical_of_mem w (State.swapDone_mem ..)
  | amoaddF32 => exact canonical_seqDo w fun _ => State.seqVendor_mem ..
  | amoaddBf2 => exact canonical_seqDo w fun _ => State.seqVendor_mem ..
  | amominF32 => exact canonical_seqDo w fun _ => State.seqVendor_mem ..
  | amomaxF32 => exact canonical_seqDo w fun _ => State.seqVendor_mem ..
  | amocasD => exact canonical_seqDo w fun _ => State.seqVendor_mem ..
  | ecall => exact canonical_seqDo w fun _ => State.seqEcall_mem ..
  | ebreak => exact canonical_seqDo w fun _ => State.seqEbreak_mem ..
  | swapArm => exact canonical_of_mem w (State.swapArm_mem ..)
  | vatGate => exact canonical_of_mem w (State.vatGate_mem ..)
  | gatedBankStop => exact canonical_of_mem w (State.bankStop_mem ..)
  | columnFault => exact State.columnFault_wf (hm := w) ..
  | cultureLoad => exact execCultureLoad_canonical w ..
  | loadCheckComplete => exact execLoadCheckComplete_canonical w ..
  | loadStreamComplete => exact execLoadStreamComplete_canonical w ..
  | tilestoreCellService => exact State.tileService_wf (hm := w) ..
  | creamBankAccess => exact State.creamAccess_wf (hm := w) ..
  | sramScrubRead => exact canonical_of_mem w (State.scrub_mem ..)
  | tilestoreRetentionEnter => exact canonical_ite w w
  | creamRetentionEnter => exact canonical_ite w w
  | sramWakeComplete => exact canonical_of_mem w (State.woken_mem ..)
  | creamWakeTimeout => exact canonical_ite (State.finish_wf _ (canonical_of_mem w (State.retireCream_mem ..))) w
  | creamThrottleSample => exact canonical_of_mem w (State.creamSample_mem ..)
  | crmCtrlWrite => exact canonical_of_mem w (State.writeCrmCtrl_mem ..)
  | ld => exact canonical_ite (canonical_of_mem w (State.arrive_mem ..)) w
  | st => exact canonical_ite (canonical_of_mem w (State.assemble_mem ..)) w
  | std => exact canonical_ite (canonical_of_mem w (State.assemble_mem ..)) w
  | atom => exact canonical_ite (canonical_of_mem w (State.arrive_mem ..)) w
  | msg => exact canonical_ite (canonical_of_mem w (State.assemble_mem ..)) w
  | msgd => exact canonical_ite (canonical_of_mem w (State.assemble_mem ..)) w
  | data => exact canonical_ite (State.response_wf (hm := w) ..) w
  | ack => exact canonical_ite (State.response_wf (hm := w) ..) w
  | sour => exact canonical_ite (State.response_wf (hm := w) ..) w
  | nackBusy => exact canonical_ite (canonical_of_mem w (State.nackedBusy_mem ..)) w
  | nackRefused => exact canonical_ite (State.refused_wf (hm := w) ..) w
  | badCell => exact canonical_ite w (canonical_of_mem w (State.dropBad_mem ..))
  | busyRetry => exact canonical_of_mem w (State.resendBusy_mem ..)
  | xoff => exact canonical_ite w w
  | xon => exact execXon_canonical w ..
  | keepalive => exact w
  | opTimeout => exact execOpTimeout_canonical w ..
  | darkNotice => exact State.darkNotice_wf (hm := w) ..
  | frameBoundary => exact State.boundary_wf (hm := w) ..
  | guardStart => exact canonical_of_mem w ((State.elapseToFrame_mem ..).trans (by rfl))
  | cellCrcFail => exact w
  | resendRequest => exact canonical_of_mem w (State.resend_mem ..)
  | flexRequest => exact canonical_of_mem w (State.flexArrive_mem ..)
  | retuneSettleTimeout => exact canonical_of_mem w (State.retuneFails_mem ..)
  | chnFlexRelease => exact canonical_of_mem w (State.flexReleaseMask_mem ..)
  | signalBundleFail => exact w
  | controlBundleFail => exact State.tsvLost_wf (hm := w) ..
  | seamGroupFail => exact State.tsvLost_wf (hm := w) ..
  | pilotWindowEnd => exact canonical_of_mem w (State.windowEnds_mem ..)
  | misframe => exact canonical_ite w w
  | ringHold => exact canonical_of_mem w (State.onRing_mem ..)
  | ringFault => exact canonical_ite (canonical_of_mem w (State.ringFails_mem ..)) w
  | acquisitionComplete => exact canonical_of_mem w (State.acquired_mem ..)
  | tableHashCompute => exact canonical_of_mem w (State.hashRings_mem ..)
  | tempEstimate => exact State.estimate_wf (hm := w) ..
  | sepDoorbell => exact canonical_of_mem w (State.doorbell_mem ..)
  | sepJobStart => exact State.finish_wf _ (State.jobStart_wf (hm := w) ..)
  | sepWeightMsg => exact canonical_ite w w
  | sepReloadComplete => exact canonical_of_mem w (State.reloadComplete_mem ..)
  | sepJobEnd => exact State.finish_wf _ (State.jobEnd_wf (hm := w) ..)
  | sepCalPass => exact canonical_ite (canonical_of_mem w (State.calPass_mem ..)) w
  | refreshWindow => exact State.refresh_wf (hm := w) ..
  | hbmRequestService => exact State.hbmService_wf (hm := w) ..
  | hbmScrubRead => exact State.finish_wf _ (canonical_of_mem w (State.hbmScrub_mem ..))
  | hbmTempSample => exact canonical_of_mem w (State.stackSample_mem ..)
  | selfRefreshEnter => exact State.selfRefresh_wf (hm := w) ..
  | linkTrainingStart => exact canonical_of_mem w (State.linkTrain_mem ..)
  | linkTrainingEnd => exact State.finish_wf _ (canonical_of_mem w (State.trainingEnds_mem ..))
  | linkTrainingTimeout => exact canonical_ite (State.finish_wf _ (canonical_of_mem w (State.linkToDown_mem ..))) w
  | linkGroupReceive => exact canonical_of_mem w (State.groupIn_mem ..)
  | linkAck => exact canonical_of_mem w (State.groupsAcked_mem ..)
  | linkNak => exact canonical_of_mem w (State.groupNaked_mem ..)
  | linkIdleWindow => exact canonical_ite (canonical_of_mem w (State.applyLnkCfg_mem ..)) w
  | laneLossOfSignal => exact canonical_ite (canonical_of_mem w (State.fastRetrain_mem ..)) w
  | fastRetrainEnd => exact State.finish_wf _ (canonical_of_mem w (State.retrainEnds_mem ..))
  | linkDown => exact execLinkDown_canonical w ..
  | linkRetryTimer => exact canonical_of_mem w (State.retryLink_mem ..)
  | lnkRetrain => exact canonical_of_mem w (State.lnkRetrain_mem ..)
  | linkStateNotice => exact w
  | linkStateNoticeSend => exact canonical_of_mem w (State.sendNotices_mem ..)
  | noticeExpire => exact w
  | transitCell => exact canonical_ite (canonical_of_mem w (State.transit_mem ..)) w
  | reassemblyTimeout => exact w
  | cagePresence => exact canonical_ite w (canonical_of_mem w ((State.acceptStart_mem ..).trans (by rfl)))
  | acceptanceComplete => exact execAcceptanceComplete_canonical w ..
  | cageExtract => exact canonical_ite (State.finish_wf _ (State.extract_wf (hm := w) ..)) w
  | linePowerSample => exact State.finish_wf _ (canonical_of_mem w (State.sampleLines_mem ..))
  | laserTelemetry => exact State.finish_wf _ (canonical_of_mem w (State.telemetry_mem ..))
  | scheduledSwapDue => exact State.finish_wf _ (canonical_of_mem w ((State.beginSwap_mem ..).trans (by rfl)))
  | swapBegin => exact State.finish_wf _ (canonical_of_mem w (State.beginSwap_mem ..))
  | swapTargetVerified => exact canonical_ite (canonical_of_mem w (State.setPhase_mem ..)) w
  | swapVerifyTimeout => exact State.finish_wf _ (canonical_of_mem w (State.verifyFails_mem ..))
  | crossfadeEnd => exact execCrossfadeEnd_canonical w ..
  | swapConfirm => exact canonical_of_mem w (State.confirmSwap_mem ..)
  | latchRelease => exact State.finish_wf _ (canonical_of_mem w (State.latchOpens_mem ..))
  | latchClose => exact execLatchClose_canonical w ..
  | lasSectorDark => exact execLasSectorDark_canonical w ..
  | refLost => exact canonical_of_mem w (State.loseRef_mem ..)
  | refRestored => exact canonical_ite w w
  | revertLocked => exact canonical_ite w w
  | dieClockLoss => exact State.clockLoss_wf (hm := w) ..
  | fieldPllFail => exact State.pllFail_wf (hm := w) ..
  | vatFreqStep => exact canonical_of_mem w ((State.noteOverride_mem ..).trans (by rfl))
  | droopDetect => exact canonical_of_mem w (State.droop_mem ..)
  | fallbackRelease => exact w
  | railFault => exact State.railOut_wf (hm := w) ..
  | irDropCheck => exact execIrDropCheck_canonical w ..
  | energySample => exact canonical_of_mem w (State.sampleEnergy_mem ..)
  | powerCompare => exact State.comparePower_wf (hm := w) ..
  | graceExpire => exact canonical_ite (State.enterEnforce_wf (hm := w) ..) w
  | lugOvercurrent => exact canonical_ite w (State.enterEnforce_wf (hm := w) ..)
  | releaseStep => exact canonical_ite (canonical_of_mem w (State.raiseCap_mem ..)) w
  | powerLimit => exact execPowerLimit_canonical w ..
  | thermalSample => exact State.thermalRound_wf (hm := w) ..
  | thermTripRecord => exact canonical_of_mem w (State.recordTrip_mem ..)
  | sensorSelfCheck => exact execSensorSelfCheck_canonical w ..
  | thermalLevelDecay => exact canonical_of_mem w (State.decayLevels_mem ..)
  | ethLinkTrain => exact State.finish_wf _ (canonical_of_mem w (State.ethTrained_mem ..))
  | ethRetry => exact canonical_ite (canonical_of_mem w ((State.ethSettle_mem ..).trans (by rfl))) w
  | ethLaneChange => exact State.finish_wf _ (canonical_of_mem w ((State.ethSettle_mem ..).trans (by rfl)))
  | networkFrame => exact execNetworkFrame_canonical w ..
  | rdmaWrite => exact execRdmaWrite_canonical w ..
  | rdmaRead => exact execRdmaRead_canonical w ..
  | send => exact canonical_of_mem w (State.rdmaRequest_mem (hf := fun _ => State.takeSend_mem ..) ..)
  | roceUnsupportedOp => exact canonical_ite (canonical_of_mem w (State.rdmaNak_mem ..)) w
  | cnpReceived => exact w
  | cnpRateRecover => exact w
  | helloH => exact canonical_of_mem w (State.hello_mem ..)
  | finishH => exact canonical_of_mem w (State.finishHello_mem ..)
  | dataRecord => exact State.finish_wf _ (State.dataRecord_wf w ..)
  | close session reason => exact execClose_canonical w session reason
  | sessionIdleTimeout => exact canonical_ite (canonical_of_mem w ((State.dropSession_mem ..).trans (State.closeSession_mem ..))) w
  | identity => exact canonical_reply w ..
  | attest => exact execAttest_canonical w ..
  | ctxCreate => exact execCtxCreate_canonical w ..
  | ctxLaunch => exact execCtxLaunch_canonical w ..
  | ctxPause => exact execCtxPause_canonical w ..
  | ctxDestroy => exact execCtxDestroy_canonical w ..
  | segMap => exact execSegMap_canonical w ..
  | qpCreate => exact execQpCreate_canonical w ..
  | qpDestroy => exact execQpDestroy_canonical w ..
  | regRead => exact execRegRead_canonical w ..
  | regWrite => exact State.kcpWrite_wf (hm := w) ..
  | errRead => exact canonical_reply w ..
  | dumpRead => exact execDumpRead_canonical w ..
  | routeWrite => exact execRouteWrite_canonical w ..
  | notifySubscribe => exact execNotifySubscribe_canonical w ..
  | notifyAck => exact execNotifyAck_canonical w ..
  | notifyResend => exact canonical_ite w (canonical_of_mem w (foldl_mem _ _ _ State.sendNotification_mem))
  | kcpForwardArrive => exact State.finish_wf _ (State.forwardArrives_wf w ..)
  | forwardReply => exact canonical_of_mem w (State.forwardReturns_mem ..)
  | forwardTimeout => exact canonical_of_mem w (State.forwardFails_mem ..)
  | drainComplete => exact canonical_ite (canonical_of_mem w (State.pauseNow_mem ..)) w
  | ctxEnded => exact canonical_ite (canonical_of_mem w (State.endRun_mem ..)) w
  | faultStopQuiet => exact canonical_ite (canonical_of_mem w ((State.endHandling_mem ..).trans (by rfl))) w
  | contextReset c => exact canonical_ite w (State.finish_wf _ (canonical_of_mem w (s.endHandling_mem (.ctx c.val))))
  | contextResetComplete => exact canonical_of_mem w (State.resetEnds_mem ..)
  | abort => exact State.abortArrives_wf (hm := w) ..
  | abortFilterExpire => exact w
  | abortHoldRelease => exact canonical_of_mem w ((State.relaunch_mem ..).trans (by rfl))
  | vatHang => exact State.hang_wf (hm := w) ..
  | replayStart => exact canonical_of_mem w (State.replay_mem ..)
  | vatReset => exact State.finish_wf _ (canonical_of_mem w (State.askVat_mem ..))
  | dieReset => exact State.finish_wf _ (canonical_of_mem w (State.askDie_mem ..))
  | computeReset => exact State.finish_wf _ (canonical_of_mem w (State.askCompute_mem ..))
  | mgmtReset => exact State.finish_wf _ (canonical_of_mem w (State.askMgmt_mem ..))
  | resetDone => exact State.finish_wf _ (State.resetDone_wf (hm := w) ..)
  | handlingOverrun => exact State.finish_wf _ (canonical_of_mem w (State.overrun_mem ..))
  | dump => exact canonical_of_mem w (State.dumpStart_mem ..)
  | dumpEntryRead => exact canonical_of_mem w (State.dumpRead_mem ..)
  | dumpReadTimeout => exact canonical_of_mem w (State.dumpRead_mem ..)
  | dumpDone => exact canonical_of_mem w (State.dumpEnds_mem ..)
  | dumpRelease => exact canonical_of_mem w (State.dumpReleased_mem ..)
  | bringUpStepEnd => exact canonical_ite w (State.finish_wf _ (State.stepEnds_wf (hm := w) ..))
  | bringUpStepBound => exact canonical_ite w (State.finish_wf _ (State.stepBound_wf (hm := w) ..))
  | katRunComplete => exact State.finish_wf _ (canonical_of_mem w (State.katEnds_mem ..))
  | svnRaised => exact canonical_of_mem w (State.raiseSvn_mem ..)
  | enterRecovery => exact w
  | fwBegin => exact execFwBegin_canonical w ..
  | fwWrite => exact execFwWrite_canonical w ..
  | fwCommit => exact execFwCommit_canonical w ..
  | fwUpdated => exact State.finish_wf _ (canonical_of_mem w (State.fwDone_mem ..))
  | journalWrite => exact canonical_of_mem w (State.journal_mem ..)
  | mcWatchdogExpire => exact State.finish_wf _ (canonical_of_mem w (State.raiseHandover_mem ..))
  | mcHandover => exact State.finish_wf _ (canonical_of_mem w (State.raiseHandover_mem ..))
  | handoverTakeover => exact canonical_of_mem w (State.takeover_mem ..)
  | overlapEnd => exact w
  | mcRetake => exact canonical_of_mem w (State.retake_mem ..)
  | mcSelftestFail => exact State.finish_wf _ (canonical_of_mem w (State.selftestFails_mem ..))
  | uartBreak => exact canonical_of_mem w ((State.lockMonitor_mem ..).trans (by rfl))
  | monLineTooLong => exact State.monitor_wf (hm := w) (hf := fun _ h => canonical_fail h _) ..
  | monHelp => exact canonical_of_mem w (State.monitor_mem (hf := State.printHelp_mem) ..)
  | monId => exact canonical_monitor_print w
  | monTime => exact canonical_monitor_print w
  | monTemp => exact canonical_monitor_print w
  | monPwr => exact canonical_monitor_print w
  | monLanes => exact canonical_monitor_print w
  | monRings => exact canonical_of_mem w (State.monitor_mem (hf := fun _ => State.printRings_mem ..) ..)
  | monLaser => exact canonical_monitor_print w
  | monCtx => exact canonical_monitor_print w
  | monErr => exact canonical_monitor_print w
  | monLog => exact canonical_monitor_print w
  | monLogFollow => exact canonical_of_mem w (State.monitor_mem (hf := fun _ => rfl) ..)
  | peek => exact State.monitor_wf (hm := w) (hf := fun _ h => canonical_ite (canonical_fail h _) (canonical_done_print h _)) ..
  | poke => exact State.finish_wf _ (State.monitor_wf (hm := w) (hf := fun _ h => State.poke_wf (hm := h) ..) ..)
  | monDump =>
    exact State.monitor_wf (hm := w) (hf := fun _ h => canonical_ite (canonical_fail (canonical_of_mem h (State.dumpStart_mem ..)) _)
        (canonical_of_mem h ((State.done_mem _).trans (State.dumpStart_mem ..)))) ..
  | monDumpInfo => exact State.monitor_wf (hm := w) (hf := fun _ h => canonical_ite (canonical_fail h _) (canonical_done_print h _)) ..
  | monDumpRead =>
    exact State.monitor_wf (hm := w)
      (hf := fun _ h => canonical_ite (canonical_fail h _) (canonical_ite (canonical_fail h _) (canonical_done_print h _))) ..
  | monCtxPause =>
    exact State.monitor_wf (hm := w) (hf := fun _ h =>
      canonical_ite (canonical_of_mem h ((State.answered_mem ..).trans (State.tryPause_mem ..))) (canonical_fail h _)) ..
  | monCtxLaunch =>
    exact State.monitor_wf (hm := w) (hf := fun _ h =>
      canonical_ite (canonical_of_mem h ((State.answered_mem ..).trans (State.tryLaunch_mem ..))) (canonical_fail h _)) ..
  | monCtxDestroy =>
    exact State.monitor_wf (hm := w) (hf := fun _ h =>
      canonical_ite (canonical_of_mem (State.tryDestroy_wf (hm := h) ..) (State.done_mem _)) (canonical_fail h _)) ..
  | unlock => exact canonical_of_mem w (State.monitor_mem (hf := State.offerChallenge_mem) ..)
  | unlockResponse => exact canonical_of_mem w (State.monitor_mem (hf := fun _ => State.answerChallenge_mem ..) ..)
  | unlockEnd => exact canonical_of_mem w (State.monitor_mem (hf := fun _ => (State.done_mem _).trans (State.lockMonitor_mem _)) ..)
  | unlockIdleTimeout => exact canonical_of_mem w (State.lockMonitor_mem ..)
  | unlockLockoutExpire => exact w
  | bypass => exact canonical_of_mem w (State.jtag_mem ..)
  | idcode => exact canonical_of_mem w (State.jtag_mem ..)
  | samplePreload => exact canonical_of_mem w (State.jtag_mem ..)
  | extest => exact canonical_of_mem w (State.jtag_mem ..)
  | buttonPress => exact w
  | buttonHold3s => exact canonical_ite w w
  | ringHoldEnd => exact canonical_of_mem w (State.onRing_mem ..)
  | mcaSelftestPass => exact canonical_ite w w
  | keepaliveSend => exact canonical_ite w w
  | pfcPauseFrame => exact canonical_ite w w
  | monSyntaxError => exact State.monitor_wf (hm := w) (hf := fun _ h => canonical_fail h _) ..
  | logFollowKeypress => exact canonical_ite (canonical_of_mem w ((State.done_mem _).trans (by rfl))) w

/-- Settles O59, by a case for every command. -/
theorem memoryStaysCanonical : Obligations.MemoryStaysCanonical := by
  intro s t w hstep
  have hafter : CanonicalAfter (step s) := by
    unfold step
    split
    · exact canonical_of_mem w (State.elapse_mem ..)
    · exact exec_canonical (canonical_of_mem w (by rfl)) _
  rw [hstep] at hafter
  exact hafter

end Sys2Proof.Machine
end

section
/-! SUPPORT. Memory reads back what is written, byte by byte and by little-endian words, and equal memories are equal tables; the step
of an empty and of a waiting queue; and the settled statements. -/

namespace Sys2Proof.Machine

/-! ## Numbers and their bytes -/

@[simp] theorem bump_one {w : Nat} (c : BitVec w) : bump c = c + 1 := rfl

@[simp] theorem leBytes_length (n x : Nat) : (leBytes n x).length = n := by
  induction n generalizing x with
  | zero => rfl
  | succ n ih => simp [leBytes, ih]

@[simp] theorem beBytes_length (n x : Nat) : (beBytes n x).length = n := by
  induction n with
  | zero => rfl
  | succ n ih => simp [beBytes, ih]

/-- The bytes of a number spell it, as far as they go. -/
theorem leNat_leBytes (n x : Nat) : leNat (leBytes n x) = x % 2 ^ (8 * n) := by
  induction n generalizing x with
  | zero => simp [leBytes, leNat, Nat.mod_one]
  | succ n ih =>
    rw [leBytes, leNat, ih, BitVec.toNat_ofNat, show 8 * (n + 1) = 8 + 8 * n by omega, Nat.pow_add]
    exact (Nat.mod_mul).symm

theorem leBytes_getD (n x i : Nat) (h : i < n) : (leBytes n x).getD i 0 = BitVec.ofNat 8 (x / 2 ^ (8 * i)) := by
  induction n generalizing x i with
  | zero => omega
  | succ n ih =>
    cases i with
    | zero => simp [leBytes]
    | succ i =>
      have hdiv : x / 256 / 2 ^ (8 * i) = x / 2 ^ (8 * (i + 1)) := by
        rw [Nat.div_div_eq_div_mul, show 8 * (i + 1) = 8 + 8 * i by omega, Nat.pow_add]
      rw [leBytes, List.getD_cons_succ, ih _ _ (by omega), hdiv]

/-! ## Bytes stored -/

theorem State.byteAt_setBytes (l : List Byte) (s : State) (a i : Nat) :
    (s.setBytes a l).byteAt i = if a ≤ i ∧ i < a + l.length then l.getD (i - a) 0 else s.byteAt i := by
  induction l generalizing s a with
  | nil =>
    have h : ¬ (a ≤ i ∧ i < a + 0) := by omega
    simp only [State.setBytes, List.length_nil, h, if_false]
  | cons b l ih =>
    rw [State.setBytes, ih, State.byteAt_setByte, List.length_cons]
    rcases Nat.lt_trichotomy i a with hi | rfl | hi
    · rw [if_neg (by omega), if_neg (by omega), if_neg (by omega)]
    · rw [if_neg (by omega), if_pos rfl, if_pos (by omega), Nat.sub_self, List.getD_cons_zero]
    · obtain ⟨j, rfl⟩ := Nat.exists_eq_add_of_lt hi
      rw [show a + j + 1 - (a + 1) = j by omega, show a + j + 1 - a = j + 1 by omega, List.getD_cons_succ,
        if_neg (show a + j + 1 ≠ a by omega)]
      exact if_congr (by omega) rfl rfl

theorem State.byteAt_setMasked (l : List Byte) (s : State) (a m i : Nat) :
    (s.setMasked a m l).byteAt i =
      if a ≤ i ∧ i < a + l.length ∧ m.testBit (i - a) = true then l.getD (i - a) 0 else s.byteAt i := by
  induction l generalizing s a m with
  | nil =>
    have h : ¬ (a ≤ i ∧ i < a + 0 ∧ m.testBit (i - a) = true) := by omega
    simp only [State.setMasked, List.length_nil, h, if_false]
  | cons b l ih =>
    have hfirst : (if m % 2 = 1 then s.setByte a b else s).byteAt i =
        if i = a ∧ m.testBit 0 = true then b else s.byteAt i := by
      rw [Nat.testBit_zero]
      split <;> simp_all [State.byteAt_setByte]
    rw [State.setMasked, ih, hfirst, List.length_cons]
    rcases Nat.lt_trichotomy i a with hi | rfl | hi
    · rw [if_neg (by omega), if_neg (by omega), if_neg (by omega)]
    · rw [if_neg (by omega), Nat.sub_self, List.getD_cons_zero]
      exact if_congr ⟨fun h => ⟨by omega, by omega, h.2⟩, fun h => ⟨rfl, h.2.2⟩⟩ rfl rfl
    · obtain ⟨j, rfl⟩ := Nat.exists_eq_add_of_lt hi
      rw [show a + j + 1 - (a + 1) = j by omega, show a + j + 1 - a = j + 1 by omega, List.getD_cons_succ,
        if_neg (show ¬ (a + j + 1 = a ∧ _) by omega), Nat.testBit_succ]
      exact if_congr ⟨fun ⟨_, h, hbit⟩ => ⟨by omega, by omega, hbit⟩, fun ⟨_, h, hbit⟩ => ⟨by omega, by omega, hbit⟩⟩ rfl rfl

/-- What is stored from an address on reads back from there. -/
theorem State.bytesAt_setBytes (s : State) (a : Nat) (l : List Byte) : (s.setBytes a l).bytesAt a l.length = l := by
  refine List.ext_getElem (by simp [State.bytesAt]) fun i h _ => ?_
  have hi : i < l.length := by simpa [State.bytesAt] using h
  simp [State.bytesAt, State.byteAt_setBytes, hi]

theorem State.wordAt_setBytes_leBytes (s : State) (a n x : Nat) : (s.setBytes a (leBytes n x)).wordAt a n = x % 2 ^ (8 * n) := by
  have hback := s.bytesAt_setBytes a (leBytes n x)
  rw [leBytes_length] at hback
  rw [State.wordAt, hback, leNat_leBytes]

@[simp] theorem State.cellAt_setCell (s : State) (a : Nat) (c : BitVec 512) : (s.setCell a c).cellAt a = c := by
  have hword := s.wordAt_setBytes_leBytes a 64 c.toNat
  rw [Nat.mod_eq_of_lt c.isLt] at hword
  rw [State.cellAt, State.setCell, show leNat (_ : List Byte) = c.toNat from hword, BitVec.ofNat_toNat, BitVec.setWidth_eq]

/-! ## A range cleared -/

theorem Tbl.look_filter_keys {α : Type} (d : α) (p : Nat → Bool) (t : Tbl α) (k : Nat) :
    Tbl.look d (t.filter fun e => p e.1) k = if p k then Tbl.look d t k else d := by
  induction t with
  | nil => simp [Tbl.look]
  | cons e t ih =>
    obtain ⟨j, x⟩ := e
    rw [List.filter_cons]
    by_cases hk : j = k
    · subst hk
      cases hp : p j <;> simp [hp, Tbl.look, ih]
    · cases hp : p j <;> simp [Tbl.look, ih, hk]

theorem State.byteAt_clearRange (s : State) (a n i : Nat) :
    (s.clearRange a n).byteAt i = if a ≤ i ∧ i < a + n then 0 else s.byteAt i := by
  have hlook := Tbl.look_filter_keys 0 (fun j => !decide (a ≤ j ∧ j < a + n)) s.fab.mem i
  refine hlook.trans ?_
  by_cases h : a ≤ i ∧ i < a + n
  · simp [h]
  · simp only [h, decide_false, Bool.not_false, if_true, if_false]
    rfl

/-! ## Equal memories -/

/-- A key at or below the bound that a table's keys rise from is not listed. -/
theorem Tbl.look_of_le {α : Type} [DecidableEq α] {d : α} {t : Tbl α} {lo k : Nat} (w : Tbl.wfFrom d (some lo) t = true)
    (h : k ≤ lo) : Tbl.look d t k = d := by
  induction t generalizing lo with
  | nil => rfl
  | cons e t ih =>
    obtain ⟨j, x⟩ := e
    simp only [Tbl.wfFrom, Bool.and_eq_true, decide_eq_true_eq] at w
    obtain ⟨⟨hlo, -⟩, ht⟩ := w
    rw [Tbl.look, if_neg (by omega), ih ht (by omega)]

/-- Canonical tables that read the same are the same: the least key of one is the least key of the other. -/
theorem Tbl.eq_of_look_eq {α : Type} [DecidableEq α] {d : α} {t u : Tbl α} {lo : Option Nat} (wt : Tbl.wfFrom d lo t = true)
    (wu : Tbl.wfFrom d lo u = true) (h : ∀ k, Tbl.look d t k = Tbl.look d u k) : t = u := by
  induction t generalizing u lo with
  | nil =>
    cases u with
    | nil => rfl
    | cons e u =>
      obtain ⟨j, x⟩ := e
      simp only [Tbl.wfFrom, Bool.and_eq_true, decide_eq_true_eq] at wu
      exact absurd (by simpa [Tbl.look] using (h j).symm) wu.1.2
  | cons e t ih =>
    obtain ⟨i, x⟩ := e
    simp only [Tbl.wfFrom, Bool.and_eq_true, decide_eq_true_eq] at wt
    obtain ⟨⟨-, hx⟩, wt⟩ := wt
    cases u with
    | nil => exact absurd (by simpa [Tbl.look] using h i) hx
    | cons e u =>
      obtain ⟨j, y⟩ := e
      simp only [Tbl.wfFrom, Bool.and_eq_true, decide_eq_true_eq] at wu
      obtain ⟨⟨-, hy⟩, wu⟩ := wu
      have hkey : i = j := by
        rcases Nat.lt_trichotomy i j with hij | hij | hij
        · have := h i
          rw [Tbl.look, if_pos rfl, Tbl.look, if_neg (by omega), Tbl.look_of_le wu (by omega)] at this
          exact absurd this hx
        · exact hij
        · have := h j
          rw [Tbl.look, if_neg (by omega), Tbl.look_of_le wt (by omega), Tbl.look, if_pos rfl] at this
          exact absurd this.symm hy
      subst hkey
      have hxy : x = y := by simpa [Tbl.look] using h i
      have htail : t = u := by
        refine ih wt wu fun k => ?_
        by_cases hk : i = k
        · rw [Tbl.look_of_le wt (by omega), Tbl.look_of_le wu (by omega)]
        · simpa [Tbl.look, hk] using h k
      rw [hxy, htail]

/-- Settles O58, from what each store does to each byte. -/
theorem memoryReadsBack : Obligations.MemoryReadsBack := by
  refine ⟨fun s a i l => s.byteAt_setBytes l a i, fun s a i m l => s.byteAt_setMasked l a m i, State.cellAt_setCell,
    State.wordAt_setBytes_leBytes, State.byteAt_clearRange, fun s a n m l w => ?_, fun s u ws wu h => ?_⟩
  · exact ⟨Memory.wf_setBytes l s a w, Memory.wf_setMasked l s a m w, Memory.wf_clearRange s a n w⟩
  · exact Tbl.eq_of_look_eq ws wu h

/-! ## The queue -/

theorem step_of_pending_nil {s : State} (h : s.pending = []) : step s = .next (s.elapse 1) := by
  unfold step
  split
  · rfl
  · rename_i c rest e
    rw [h] at e
    cases e

/-- Settles O11, by the branch of a queue that is not empty. -/
theorem stepRunsTheFrontCommand : Obligations.StepRunsTheFrontCommand := by
  intro c rest s h
  unfold step
  split
  · rename_i e
    rw [h] at e
    cases e
  · rename_i c' rest' e
    rw [h] at e
    cases e
    rfl

/-- Before the clock unit first locks no time passes (R387). -/
theorem State.elapse_of_unlocked {s : State} (h : s.clk.locked = false) (n : Nat) : s.elapse n = s := by
  simp [State.elapse, h]

/-- Settles O10, by what a nanosecond of a locked clock unit rewrites. -/
theorem idleStepIsOneNanosecond : Obligations.IdleStepIsOneNanosecond := by
  refine ⟨fun s hpending hlocked => ⟨s.elapse 1, step_of_pending_nil hpending, ?_⟩, fun s hpending hlocked => ?_⟩
  · simp only [State.elapse, hlocked, Bool.not_true, Bool.false_eq_true, if_false, true_and]
    refine ⟨rfl, fun hsource => ?_, fun hsource => ?_⟩
    · rw [if_pos hsource, bump_one]
    · rw [if_neg hsource]
  · rw [step_of_pending_nil hpending, State.elapse_of_unlocked hlocked]

end Sys2Proof.Machine
end

section
/-! SUPPORT. What a line of input does by the monitor's state and lock (R529), and the settled statements on the monitor's locked set,
its lock and the unlock. -/

namespace Sys2Proof.Machine

/-! ## What a line of input does -/

/-- The state in which a command of the monitor runs: a new line ends a log that streams. -/
def State.atPrompt (s : State) : State := { s with svc := { s.svc with following := false } }

/-- A state with lines printed and the prompt waiting. -/
theorem State.done_print_eq (s : State) (l : List MonLine) :
    (s.print l).done = { s with svc := { s.svc with out := s.svc.out ++ l ++ [.ok, .prompt] } } := rfl

theorem State.done_eq (s : State) : s.done = { s with svc := { s.svc with out := s.svc.out ++ [.ok, .prompt] } } := rfl

theorem State.fail_eq (s : State) (why : String) :
    s.fail why = { s with svc := { s.svc with out := s.svc.out ++ [.err why, .prompt] } } := rfl

section
variable {s : State} (f : State → State)

theorem State.monitor_of_silent (h : s.monServes = false) (locked rom : Bool) : s.monitor locked rom f = s := by
  simp [State.monitor, h]

theorem State.monServes_of_mgmtReset (h : s.mc.mgmtReset = true) : s.monServes = false := by
  simp [State.monServes, h]

/-- A command of the locked set that the boot ROM serves runs whenever the monitor takes input. -/
theorem State.monitor_rom (h : s.monServes = true) : s.monitor true true f = f s.atPrompt := by
  simp [State.monitor, h, State.atPrompt]

theorem State.monitor_lockedSet (h : s.monServes = true) (hrec : s.inRecovery = false) (rom : Bool) :
    s.monitor true rom f = f s.atPrompt := by
  simp [State.monitor, h, hrec, State.atPrompt]

theorem State.monitor_unlocked (h : s.monServes = true) (hrec : s.inRecovery = false) (htrip : s.thm.trip = false)
    (hopen : s.svc.unlocked = true) : s.monitor false false f = f s.atPrompt := by
  simp [State.monitor, h, hrec, htrip, hopen, State.atPrompt]

theorem State.monitor_refuses (h : s.monServes = true) (hrec : s.inRecovery = false) (htrip : s.thm.trip = false)
    (hlock : s.svc.unlocked = false) : s.monitor false false f = s.atPrompt.fail "locked" := by
  simp [State.monitor, h, hrec, htrip, hlock, State.atPrompt]

end

/-! ## The locked set -/

/-- A command of the locked set that prints lines and ends. -/
theorem State.monitor_prints {s : State} (h : s.monServes = true) (hrec : s.inRecovery = false) (rom : Bool) {f : State → State}
    {l : List MonLine} (hf : f s.atPrompt = (s.atPrompt.print l).done) :
    s.monitor true rom f = { s with svc := { s.svc with out := s.svc.out ++ l ++ [.ok, .prompt], following := false } } := by
  rw [State.monitor_lockedSet f h hrec, hf]
  rfl

/-- `rings` prints its counters, and an entry of the table that it names. -/
theorem State.printRings_prints (s : State) {e : Option Nat} (h : ∀ i, e = some i → i < 131072) :
    ∃ l, s.printRings e = (s.print l).done := by
  cases e with
  | none => exact ⟨_, rfl⟩
  | some i =>
    have hi : ¬ 131072 ≤ i := Nat.not_le.mpr (h i rfl)
    simp only [State.printRings, hi, if_false]
    exact ⟨_, rfl⟩

/-- Settles O15, by the lines that each command prints. -/
theorem monitorLockedSet : Obligations.MonitorLockedSet := by
  refine ⟨fun c s h hrec hc => ?_, fun s h => ?_, fun s h hrec => ?_, fun s h hfollow => ?_⟩
  · have prints {rom : Bool} {f : State → State} (hf : ∃ l, f s.atPrompt = (s.atPrompt.print l).done) :
        ∃ t out, (Host.Outcome.next (s.monitor true rom f) : Host.Outcome State Fault Refusal) = .next t ∧
          t = { s with svc := { s.svc with out := s.svc.out ++ out ++ [.ok, .prompt], following := false } } := by
      obtain ⟨l, hl⟩ := hf
      exact ⟨_, l, rfl, State.monitor_prints h hrec rom hl⟩
    rcases hc with rfl | rfl | rfl | rfl | rfl | rfl | rfl | rfl | ⟨e, rfl, he⟩ | ⟨a, n, rfl⟩ | ⟨n, rfl⟩
    case inr.inr.inr.inr.inr.inr.inr.inr.inl => exact prints (State.printRings_prints _ he)
    all_goals exact prints ⟨_, rfl⟩
  · exact ⟨congrArg _ (State.monitor_rom _ h), congrArg _ (State.monitor_rom _ h)⟩
  · exact congrArg _ (State.monitor_lockedSet _ h hrec false)
  · show Host.Outcome.next (if s.monServes && s.svc.following then s.atPrompt.done else s) = _
    rw [h, hfollow]
    rfl

/-! ## The lock -/

/-- Settles O16, by the two tests that every line passes. -/
theorem monitorLockAndSilence : Obligations.MonitorLockAndSilence := by
  refine ⟨fun c s h hrec htrip hlock hc htodo => ?_, fun c s hreset htodo hc => ?_⟩
  · have refuses (f : State → State) : (Host.Outcome.next (s.monitor false false f) : Host.Outcome State Fault Refusal) =
        .next { s with svc := { s.svc with out := s.svc.out ++ [.err "locked", .prompt], following := false } } :=
      congrArg _ (State.monitor_refuses f h hrec htrip hlock)
    rcases hc with ⟨a, w, rfl⟩ | ⟨a, w, x, rfl⟩ | rfl | rfl | ⟨o, l, rfl⟩ | ⟨n, rfl⟩ | ⟨n, rfl⟩ | ⟨n, rfl⟩
    case inr.inl =>
      show Host.Outcome.next (s.monitor false false _).finish = _
      rw [State.monitor_refuses _ h hrec htrip hlock, State.finish_of_todo_nil (s.atPrompt.fail "locked") htodo]
      rfl
    all_goals exact refuses _
  · have hsilent : s.monServes = false := State.monServes_of_mgmtReset hreset
    have silent (locked rom : Bool) (f : State → State) :
        (Host.Outcome.next (s.monitor locked rom f) : Host.Outcome State Fault Refusal) = .next s :=
      congrArg _ (State.monitor_of_silent f hsilent locked rom)
    rcases hc with rfl | rfl | rfl | rfl | rfl | rfl | rfl | rfl | ⟨e, rfl⟩ | ⟨a, n, rfl⟩ | ⟨n, rfl⟩ | rfl | ⟨a, w, rfl⟩ |
      ⟨a, w, x, rfl⟩ | rfl | rfl | ⟨o, l, rfl⟩ | ⟨n, rfl⟩ | ⟨n, rfl⟩ | ⟨n, rfl⟩ | rfl | ⟨k, g, rfl⟩ | rfl | rfl | rfl | rfl
    case inr.inr.inr.inr.inr.inr.inr.inr.inr.inr.inr.inr.inr.inl =>
      show Host.Outcome.next (s.monitor false false _).finish = _
      rw [State.monitor_of_silent _ hsilent, State.finish_of_todo_nil _ htodo]
    case inr.inr.inr.inr.inr.inr.inr.inr.inr.inr.inr.inr.inr.inr.inr.inr.inr.inr.inr.inr.inr.inr.inr.inr.inr =>
      show Host.Outcome.next (if s.monServes && s.svc.following then _ else s) = _
      rw [hsilent]
      rfl
    all_goals exact silent _ _ _

/-! ## The unlock -/

/-- A failed answer counts, and locks the command out where two more lie within ten minutes. -/
theorem State.unlockFails_spec (s : State) (step : Nat) :
    s.unlockFails step = { s with svc := (s.unlockFails step).svc, err := (s.unlockFails step).err } ∧
      (s.unlockFails step).svc.unlocked = s.svc.unlocked ∧ (s.unlockFails step).svc.failCnt = s.svc.failCnt + 1 ∧
      (s.unlockFails step).svc.challenge = s.svc.challenge ∧
      (2 ≤ (s.svc.failTimes.filter fun x => decide (s.time < x.toNat + 600000000000)).length →
        (s.unlockFails step).svc.lockout = true) := by
  refine ⟨rfl, rfl, rfl, rfl, fun hrecent => ?_⟩
  have hnow : s.time < s.clk.now.toNat + 600000000000 := Nat.lt_add_of_pos_right (by decide)
  have hcount : 3 ≤ ((s.clk.now :: s.svc.failTimes).filter fun x => decide (s.time < x.toNat + 600000000000)).length := by
    rw [List.filter_cons, if_pos (decide_eq_true hnow), List.length_cons]
    exact Nat.succ_le_succ hrecent
  show (s.svc.lockout || decide (3 ≤ _)) = true
  rw [decide_eq_true hcount, Bool.or_true]

/-- An answer fails where no challenge waits, the challenge is too old, the signature is wrong or the key is not held. -/
theorem State.answerChallenge_fails {s : State} {key sig : List Byte}
    (h : s.svc.challenge = none ∨ ∃ n t0, s.svc.challenge = some (n, t0) ∧
      (t0.toNat + 120000000000 < s.time ∨ ecdsaVerify key (s.unlockMessage n t0) sig = false ∨ digestOf key ∉ s.fru.hostKeys)) :
    ∃ step, s.answerChallenge key sig = State.unlockFails { s with svc := { s.svc with challenge := none } } step := by
  unfold State.answerChallenge
  dsimp only
  split
  · exact ⟨1, rfl⟩
  · rename_i n t hwaits
    split
    · exact ⟨1, rfl⟩
    · split
      · exact ⟨2, rfl⟩
      · rename_i hfresh hverify
        split
        · exact ⟨3, rfl⟩
        · rename_i i hfound
          have hheld : digestOf key ∈ s.fru.hostKeys := by
            have hi := List.findIdx?_eq_some_iff_getElem.mp hfound
            obtain ⟨hlt, heq, -⟩ := hi
            exact (beq_iff_eq.mp heq) ▸ List.getElem_mem hlt
          exfalso
          rcases h with hnone | ⟨n', t', hsome, hbad⟩
          · rw [hnone] at hwaits; cases hwaits
          · rw [hsome] at hwaits
            cases hwaits
            rcases hbad with hold | hwrong | hforeign
            · omega
            · rw [hwrong] at hverify; exact hverify rfl
            · exact hforeign hheld

/-- A fresh answer whose signature verifies under a key held unlocks. -/
theorem State.answerChallenge_unlocks {s : State} {key sig n : List Byte} {t0 : W64} (hwaits : s.svc.challenge = some (n, t0))
    (hfresh : s.time ≤ t0.toNat + 120000000000) (hverify : ecdsaVerify key (s.unlockMessage n t0) sig = true)
    (hheld : digestOf key ∈ s.fru.hostKeys) :
    ∃ out err, s.answerChallenge key sig = { s with
      svc := { s.svc with challenge := none, unlocked := true, unlockCnt := s.svc.unlockCnt + 1, out := out }, err := err } := by
  unfold State.answerChallenge
  rw [hwaits]
  dsimp only
  rw [if_neg (Nat.not_lt.mpr hfresh), hverify, if_neg (by decide)]
  split
  · rename_i hnone
    have := List.findIdx?_eq_none_iff.mp hnone _ hheld
    simp at this
  · rename_i i _
    exact ⟨_, _, rfl⟩

/-- Settles O19, by what an answer to the challenge can do. -/
theorem monitorUnlock : Obligations.MonitorUnlock := by
  refine ⟨fun s h hrec hlockout => ?_, fun key sig n t0 s h hrec hwaits hfresh hverify hheld => ?_,
    fun key sig s h hrec hbad => ?_, fun s h hrec => ?_⟩
  · refine ⟨_, leBytes 32 (Config.challenge s.free).toNat, congrArg Host.Outcome.next (State.monitor_lockedSet _ h hrec false), ?_⟩
    have hopen : s.atPrompt.svc.lockout = false := hlockout
    rw [State.offerChallenge, hopen]
    exact ⟨rfl, rfl, leBytes_length _ _, rfl⟩
  · obtain ⟨out, err, hanswer⟩ := State.answerChallenge_unlocks (s := s.atPrompt) hwaits hfresh hverify hheld
    exact ⟨_, congrArg Host.Outcome.next ((State.monitor_lockedSet _ h hrec false).trans hanswer), rfl, rfl, rfl, rfl, rfl⟩
  · obtain ⟨step, hstep⟩ := State.answerChallenge_fails (s := s.atPrompt) hbad
    obtain ⟨hframe, hopen, hcnt, hchallenge, hlockout⟩ :=
      State.unlockFails_spec { s.atPrompt with svc := { s.atPrompt.svc with challenge := none } } step
    exact ⟨_, congrArg Host.Outcome.next ((State.monitor_lockedSet _ h hrec false).trans hstep), hframe, hopen, hcnt, hchallenge,
      hlockout⟩
  · exact congrArg _ (State.monitor_lockedSet _ h hrec false)

end Sys2Proof.Machine
end

section
/-! SUPPORT. What the shared operations leave alone. A reading of the state that is blind to what an operation rewrites gives the same
before and after it; a lemma named _kept says so of its operation, for every such reading. -/

namespace Sys2Proof.Machine

theorem foldl_kept {α β : Type} {π : State → α} {f : State → β → State} (h : ∀ a x, π (f a x) = π a) (l : List β) (s : State) :
    π (l.foldl f s) = π s := by
  induction l generalizing s with
  | nil => rfl
  | cons x l ih => rw [List.foldl_cons, ih, h]

/-- Folding over a list with a step that keeps π on the list's elements. -/
theorem foldl_kept_of_mem {α β : Type} {π : State → α} {f : State → β → State} (l : List β) (h : ∀ x ∈ l, ∀ a, π (f a x) = π a)
    (s : State) : π (l.foldl f s) = π s := by
  induction l generalizing s with
  | nil => rfl
  | cons x l ih =>
    rw [List.foldl_cons, ih (fun y hy => h y (List.mem_cons_of_mem x hy)), h x (List.mem_cons_self ..)]

theorem ite_kept {α : Type} {π : State → α} {c : Prop} [Decidable c] {a b s : State} (ha : π a = π s) (hb : π b = π s) :
    π (if c then a else b) = π s := by
  split
  · exact ha
  · exact hb

/-! Units read from equal tables are equal. -/

theorem State.vat_of_vats {s t : State} (h : t.vats = s.vats) (v : Nat) : t.vat v = s.vat v := by
  rw [State.vat, h]; rfl

theorem State.plane_of_planes {s t : State} (h : t.planes = s.planes) (p : Nat) : t.plane p = s.plane p := by
  rw [State.plane, h]; rfl

theorem State.byteAt_of_mem {s t : State} (h : t.fab.mem = s.fab.mem) (a : Nat) : t.byteAt a = s.byteAt a := by
  rw [State.byteAt, h]; rfl

/-! ## Sending and reporting -/

/-! Some readings that reports leave alone. -/

theorem blindToReport_svc : BlindToReport fun t => t.svc :=
  ⟨⟨⟨fun _ _ => rfl, fun _ _ => rfl, fun _ _ => rfl, fun _ _ => rfl, fun _ _ => rfl, fun _ _ => rfl⟩,
    fun _ _ => rfl, fun _ _ => rfl⟩, fun _ _ => rfl⟩

theorem blindToReport_vats : BlindToReport fun t => t.vats :=
  ⟨⟨⟨fun _ _ => rfl, fun _ _ => rfl, fun _ _ => rfl, fun _ _ => rfl, fun _ _ => rfl, fun _ _ => rfl⟩,
    fun _ _ => rfl, fun _ _ => rfl⟩, fun _ _ => rfl⟩

theorem blindToReport_ctxs : BlindToReport fun t => t.ctxs :=
  ⟨⟨⟨fun _ _ => rfl, fun _ _ => rfl, fun _ _ => rfl, fun _ _ => rfl, fun _ _ => rfl, fun _ _ => rfl⟩,
    fun _ _ => rfl, fun _ _ => rfl⟩, fun _ _ => rfl⟩

theorem blindToReport_planes : BlindToReport fun t => t.planes :=
  ⟨⟨⟨fun _ _ => rfl, fun _ _ => rfl, fun _ _ => rfl, fun _ _ => rfl, fun _ _ => rfl, fun _ _ => rfl⟩,
    fun _ _ => rfl, fun _ _ => rfl⟩, fun _ _ => rfl⟩

theorem blindToReport_mem : BlindToReport fun t => t.fab.mem :=
  ⟨⟨⟨fun _ _ => rfl, fun _ _ => rfl, fun _ _ => rfl, fun _ _ => rfl, fun _ _ => rfl, fun _ _ => rfl⟩,
    fun _ _ => rfl, fun _ _ => rfl⟩, fun _ _ => rfl⟩

theorem blindToReport_mc : BlindToReport fun t => t.mc :=
  ⟨⟨⟨fun _ _ => rfl, fun _ _ => rfl, fun _ _ => rfl, fun _ _ => rfl, fun _ _ => rfl, fun _ _ => rfl⟩,
    fun _ _ => rfl, fun _ _ => rfl⟩, fun _ _ => rfl⟩

section
variable {α : Type} {π : State → α} (h : BlindToCells π)
include h

theorem State.fly_kept (s : State) (c : Cell) : π (s.fly c) = π s := h.flight s _

theorem State.sendLink_kept (s : State) (l : Nat) (c : Cell) : π (s.sendLink l c) = π s := h.links s _

theorem State.spray_kept (s : State) (d : Nat) (js : List Nat) : π (s.spray d js).2 = π s := by
  unfold State.spray
  dsimp only
  split
  · rfl
  · exact h.credit s _

theorem State.launch_kept (s : State) (c : Cell) : π (s.launch c) = π s := by
  have hspray := State.spray_kept h s c.dpkg (s.activeEntries c.dpkg)
  unfold State.launch
  refine ite_kept (ite_kept (h.held s _) (State.fly_kept h s c)) (ite_kept (h.held s _) ?_)
  split
  · rename_i j s1 e
    rw [e] at hspray
    rw [State.sendLink_kept h, hspray]
  · rename_i s1 e
    rw [e] at hspray
    exact ite_kept ((foldl_kept (State.fly_kept h) _ _).trans hspray) hspray

theorem State.launchAll_kept (s : State) (cs : List Cell) : π (s.launchAll cs) = π s := foldl_kept (State.launch_kept h) cs s

theorem State.sendMsg_kept (s : State) (i : Issuer) (d p m : Nat) (b : List Byte) : π (s.sendMsg i d p m b) = π s := by
  unfold State.sendMsg
  exact (State.launchAll_kept h _ _).trans ((h.ops _ _).trans (h.nextTag s _))

end

section
variable {α : Type} {π : State → α} (h : BlindToSent π)
include h

theorem State.hostSend_kept (s : State) (x : HostTx) : π (s.hostSend x) = π s := ite_kept (h.eth s _) rfl

theorem State.onSession_kept (s : State) (k : Nat) (f : Session → Session) : π (s.onSession k f) = π s := h.kcp s _

theorem State.sealTo_kept (s : State) (k : Nat) (m : List Byte) : π (s.sealTo k m) = π s :=
  ite_kept rfl (ite_kept (State.onSession_kept h s _ _) ((State.hostSend_kept h _ _).trans (State.onSession_kept h s _ _)))

theorem State.sendNotification_kept (s : State) (n : Notification) : π (s.sendNotification n) = π s :=
  (foldl_kept (fun a _ => ite_kept (State.sendMsg_kept h.toBlindToCells a _ _ _ _ _) rfl) _ _).trans
    (foldl_kept (fun a _ => ite_kept (State.sealTo_kept h a _ _) rfl) _ s)

theorem State.addNotification_kept (s : State) (o : W16) (p : List Byte) : π (s.addNotification o p).2 = π s :=
  (State.sendNotification_kept h _ _).trans (h.kcp s _)

theorem State.reply_kept (s : State) (src : KcpSrc) (q : W32) (o : W16) (st : Nat) (p : List Byte) (m : Bool) :
    π (s.reply src q o st p m) = π s := by
  unfold State.reply
  dsimp only
  split
  · rw [State.sealTo_kept h, State.onSession_kept h]
  · rw [State.sendMsg_kept h.toBlindToCells, h.kcp]

end

section
variable {α : Type} {π : State → α} (h : BlindToReport π)
include h

theorem State.pushRecord_kept (s : State) (r : ErrRec) : π (s.pushRecord r) = π s := h.push s r

theorem State.note_kept (s : State) (code : W16) (sev : Severity) (u : W16) (d : List W64) (c : Option Nat) :
    π (s.note code sev u d c) = π s := h.push s _

theorem State.notify_kept (s : State) (o : W16) (p : List Byte) : π (s.notify o p) = π s := by
  have hadd := State.addNotification_kept h.toBlindToSent s o p
  unfold State.notify
  split
  · rename_i s1 e
    rw [e] at hadd
    rw [State.note_kept h, hadd]
  · rename_i s1 e
    rw [e] at hadd
    exact hadd

theorem State.notifyService_kept (s : State) (r : Nat) : π (s.notifyService r) = π s := State.notify_kept h s _ _

end

theorem State.begin_kept {α : Type} {π : State → α} (h : ∀ s x, π { s with err := x } = π s) (s : State) (sc : Scope) (t : Todo)
    (q : W64) : π (s.begin sc t q) = π s := h s _

theorem State.endHandling_kept {α : Type} {π : State → α} (h : ∀ s x, π { s with err := x } = π s) (s : State) (sc : Scope) :
    π (s.endHandling sc) = π s := h s _

/-! ## Answers to a session -/

/-- What an answer to a session rewrites. -/
theorem State.reply_session_eq (s : State) (k : Fin 8) (q : W32) (o : W16) (st : Nat) (p : List Byte) (m : Bool) :
    s.reply (.session k) q o st p m = { s with kcp := (s.reply (.session k) q o st p m).kcp,
                                               eth := (s.reply (.session k) q o st p m).eth } := by
  unfold State.reply State.sealTo State.hostSend
  dsimp only
  split
  · rfl
  · split
    · rfl
    · split <;> rfl

theorem State.sealTo_replies (s : State) (k j : Nat) (m : List Byte) : ((s.sealTo k m).session j).replies = (s.session j).replies := by
  have hopen (f : Session → Session) (hf : ∀ n, (f n).replies = n.replies) :
      ((s.onSession k f).session j).replies = (s.session j).replies := by
    rw [State.onSession_session]
    split
    · rename_i e; rw [hf, e]
    · rfl
  unfold State.sealTo State.hostSend
  dsimp only
  split
  · rfl
  · split
    · exact hopen _ fun _ => rfl
    · split <;> exact hopen (fun n => { n with txSeq := n.txSeq + 1 }) fun _ => rfl

/-- An answer to a session is the newest reply kept for it. -/
theorem State.reply_repliedWith (s : State) (k : Fin 8) (q : W32) (o : W16) (st : Nat) (p : List Byte) (m : Bool) :
    (s.reply (.session k) q o st p m).repliedWith k.val q o st p := by
  unfold State.reply State.repliedWith
  dsimp only
  rw [State.sealTo_replies, State.onSession_session_same]
  exact ⟨_, _, rfl, rfl, rfl, rfl, rfl⟩

/-! ## Records and notifications -/

/-- A record reads back from the ring under its number. -/
theorem State.pushRecord_recordAt (s : State) (r : ErrRec) :
    (s.pushRecord r).recordAt s.err.seqNext = { r with seq := s.err.seqNext, time := s.clk.now, pkg := s.fab.pkgId } :=
  Tbl.look_put_same _ _ _ _

@[simp] theorem State.pushRecord_seqNext (s : State) (r : ErrRec) : (s.pushRecord r).err.seqNext = s.err.seqNext + 1 := rfl

theorem State.note_recordAt (s : State) (code : W16) (sev : Severity) (u : W16) (d : List W64) (c : Option Nat) :
    (s.note code sev u d c).recordAt s.err.seqNext =
      { code := code, severity := sev, unit := u, details := d, ctxValid := c.isSome, ctx := BitVec.ofNat 6 (c.getD 0),
        seq := s.err.seqNext, time := s.clk.now, pkg := s.fab.pkgId } :=
  State.pushRecord_recordAt _ _

@[simp] theorem State.note_seqNext (s : State) (code : W16) (sev : Severity) (u : W16) (d : List W64) (c : Option Nat) :
    (s.note code sev u d c).err.seqNext = s.err.seqNext + 1 := rfl

/-! A note leaves every unit as it stands. -/

section
variable (s : State) (code : W16) (sev : Severity) (u : W16) (d : List W64) (c : Option Nat)

@[simp] theorem State.note_vat (v : Nat) : (s.note code sev u d c).vat v = s.vat v := rfl
@[simp] theorem State.note_ctx (n : Nat) : (s.note code sev u d c).ctx n = s.ctx n := rfl
@[simp] theorem State.note_cream (n : Nat) : (s.note code sev u d c).cream n = s.cream n := rfl
@[simp] theorem State.note_stack (k : Nat) : (s.note code sev u d c).stack k = s.stack k := rfl
@[simp] theorem State.note_link (l : Nat) : (s.note code sev u d c).link l = s.link l := rfl
@[simp] theorem State.note_ring (e : Nat) : (s.note code sev u d c).ring e = s.ring e := rfl
@[simp] theorem State.note_cage (m : Nat) : (s.note code sev u d c).cage m = s.cage m := rfl
@[simp] theorem State.note_sector (j : Nat) : (s.note code sev u d c).sector j = s.sector j := rfl
@[simp] theorem State.note_qp (q : Nat) : (s.note code sev u d c).qp q = s.qp q := rfl
@[simp] theorem State.note_session (k : Nat) : (s.note code sev u d c).session k = s.session k := rfl

end

theorem State.sealTo_notifySeq (s : State) (k : Nat) (m : List Byte) : (s.sealTo k m).kcp.notifySeq = s.kcp.notifySeq := by
  unfold State.sealTo State.hostSend
  dsimp only
  split
  · rfl
  · split
    · rfl
    · split <;> rfl

theorem State.sendMsg_kcp (s : State) (i : Issuer) (d p m : Nat) (b : List Byte) : (s.sendMsg i d p m b).kcp = s.kcp :=
  State.sendMsg_kept (π := fun t => t.kcp)
    ⟨fun _ _ => rfl, fun _ _ => rfl, fun _ _ => rfl, fun _ _ => rfl, fun _ _ => rfl, fun _ _ => rfl⟩ s i d p m b

theorem State.notify_notifySeq (s : State) (o : W16) (p : List Byte) : (s.notify o p).kcp.notifySeq = s.kcp.notifySeq + 1 := by
  have hsealed (l : List Nat) (f : State → Nat → Bool) (k : Nat → Nat) (m : List Byte) (a : State) :
      (l.foldl (fun a x => if f a x then a.sealTo (k x) m else a) a).kcp.notifySeq = a.kcp.notifySeq :=
    foldl_kept (π := fun t => t.kcp.notifySeq) (fun a x => ite_kept (π := fun t => t.kcp.notifySeq) (a.sealTo_notifySeq _ _) rfl) l a
  have hsent (a : State) (n : Notification) : (a.sendNotification n).kcp.notifySeq = a.kcp.notifySeq := by
    refine (foldl_kept (π := fun t => t.kcp.notifySeq) (fun a x => ?_) _ _).trans (hsealed _ _ id _ a)
    exact ite_kept (π := fun t => t.kcp.notifySeq) (congrArg Kcp.notifySeq (a.sendMsg_kcp _ _ _ _ _)) rfl
  have hadd : (s.addNotification o p).2.kcp.notifySeq = s.kcp.notifySeq + 1 := hsent _ _
  unfold State.notify
  split
  · rename_i s1 e; rw [e] at hadd; exact hadd
  · rename_i s1 e; rw [e] at hadd; exact hadd

/-! ## Swaps -/

/-- π reads nothing that a swap of planes rewrites. -/
structure BlindToSwap {α : Type} (π : State → α) : Prop where
  vats : ∀ s x, π { s with vats := x } = π s
  planes : ∀ s x, π { s with planes := x } = π s
  tiles : ∀ s x, π { s with tiles := x } = π s
  ops : ∀ s x, π { s with fab := { s.fab with ops := x } } = π s

section
variable {α : Type} {π : State → α} (h : BlindToSwap π)
include h

theorem State.onVat_kept (s : State) (v : Nat) (f : Vat → Vat) : π (s.onVat v f) = π s := h.vats s _
theorem State.onPlane_kept (s : State) (p : Nat) (f : Plane → Plane) : π (s.onPlane p f) = π s := h.planes s _
theorem State.onTile_kept (s : State) (v t : Nat) (f : Tile → Tile) : π (s.onTile v t f) = π s := h.tiles s _

theorem State.squashLadle_kept (s : State) (p k : Nat) : π (s.squashLadle p k) = π s := by
  unfold State.squashLadle
  exact ite_kept rfl ((h.vats _ _).trans ((h.planes _ _).trans (h.ops s _)))

theorem State.squashPlane_kept (s : State) (p : Nat) : π (s.squashPlane p) = π s :=
  foldl_kept (fun a k => State.squashLadle_kept h a p k) _ s

theorem State.stopTiles_kept (s : State) (v : Nat) : π (s.stopTiles v) = π s :=
  (h.vats _ _).trans (foldl_kept (fun a t => State.onTile_kept h a v t _) _ s)

theorem State.swapStart_kept (s : State) (v : Nat) : π (s.swapStart v) = π s :=
  (h.vats _ _).trans ((h.tiles _ _).trans ((State.stopTiles_kept h _ v).trans (State.squashPlane_kept h s _)))

theorem State.swapIfEligible_kept (s : State) (v : Nat) : π (s.swapIfEligible v) = π s := by
  unfold State.swapIfEligible
  split
  · exact ite_kept (State.swapStart_kept h s v) rfl
  · rfl

theorem State.swapAway_kept (s : State) (c : Nat) : π (s.swapAway c) = π s := ite_kept (State.swapIfEligible_kept h s _) rfl

theorem State.refreshRun_kept (s : State) (v : Nat) : π (s.refreshRun v) = π s := h.vats s _

theorem State.ungate_kept (s : State) (v : Nat) : π (s.ungate v) = π s := ite_kept (ite_kept (h.vats s _) (h.vats s _)) rfl

theorem State.swapIdleActive_kept (s : State) (v : Nat) : π (s.swapIdleActive v) = π s := by
  refine ite_kept rfl ?_
  split
  · exact State.swapIfEligible_kept h s v
  · exact ite_kept rfl (State.swapIfEligible_kept h s v)

end

/-- Releasing flex rows rewrites the Churn alone (R244). -/
theorem State.flexReleaseCtx_kept {α : Type} {π : State → α} (h : ∀ s x, π { s with churn := x } = π s) (s : State) (c : Nat) :
    π (s.flexReleaseCtx c) = π s :=
  foldl_kept (fun a _ => ite_kept (h a _) rfl) _ s

end Sys2Proof.Machine
end

section
/-! SUPPORT. The bytes of a cell: what a stored cell and a byte-masked merge leave at each address. -/

namespace Sys2Proof.Machine

theorem leNat_lt (l : List Byte) : leNat l < 2 ^ (8 * l.length) := by
  induction l with
  | nil => simp [leNat]
  | cons b l ih =>
    have hb := b.isLt
    rw [leNat, List.length_cons, show 8 * (l.length + 1) = 8 + 8 * l.length by omega, Nat.pow_add]
    omega

/-- Bytes are the bytes of the number they spell. -/
theorem leBytes_leNat (l : List Byte) : leBytes l.length (leNat l) = l := by
  induction l with
  | nil => rfl
  | cons b l ih =>
    have hdiv : (b.toNat + 256 * leNat l) / 256 = leNat l := by have := b.isLt; omega
    have hmod : BitVec.ofNat 8 (b.toNat + 256 * leNat l) = b := by
      apply BitVec.eq_of_toNat_eq
      have := b.isLt
      rw [BitVec.toNat_ofNat]
      omega
    rw [List.length_cons, leNat, leBytes, hdiv, hmod, ih]

theorem byte_leNat (l : List Byte) {i : Nat} (h : i < l.length) : BitVec.ofNat 8 (leNat l / 2 ^ (8 * i)) = l.getD i 0 := by
  rw [← leBytes_getD l.length (leNat l) i h, leBytes_leNat]

/-- Byte i of a cell. -/
def cellByte (c : BitVec 512) (i : Nat) : Byte := BitVec.ofNat 8 (c.toNat / 2 ^ (8 * i))

/-- Byte i of the cell that 64 bytes spell. -/
theorem cellByte_ofNat_leNat (l : List Byte) (hl : l.length = 64) {i : Nat} (h : i < 64) :
    cellByte (BitVec.ofNat 512 (leNat l)) i = l.getD i 0 := by
  have hlt := leNat_lt l
  rw [hl] at hlt
  rw [cellByte, BitVec.toNat_ofNat, Nat.mod_eq_of_lt hlt, byte_leNat l (by omega)]

theorem State.byteAt_setCell (s : State) (a i : Nat) (c : BitVec 512) :
    (s.setCell a c).byteAt i = if a ≤ i ∧ i < a + 64 then cellByte c (i - a) else s.byteAt i := by
  rw [State.setCell, State.byteAt_setBytes, leBytes_length]
  split
  · rw [leBytes_getD _ _ _ (by omega), cellByte]
  · rfl

theorem State.cellByte_cellAt (s : State) (a : Nat) {i : Nat} (h : i < 64) : cellByte (s.cellAt a) i = s.byteAt (a + i) := by
  rw [State.cellAt, cellByte_ofNat_leNat _ (by simp [State.bytesAt]) h]
  simp [State.bytesAt, h]

/-- A merge takes the bytes that the mask names from the new cell. -/
theorem cellByte_mergeCell (old new : BitVec 512) (mask : Nat) {i : Nat} (h : i < 64) :
    cellByte (mergeCell old new mask) i = if mask.testBit i then cellByte new i else cellByte old i := by
  have hbit : bitAt mask i = mask.testBit i := by
    rw [bitAt, Nat.testBit_eq_decide_div_mod_eq]; rfl
  have hbyte (x : BitVec 512) : BitVec.ofNat 8 (bitsAt x.toNat (8 * i) 8) = cellByte x i := by
    apply BitVec.eq_of_toNat_eq
    simp [bitsAt, cellByte]
  rw [mergeCell, cellByte_ofNat_leNat _ (by simp) h, List.getD_eq_getElem _ _ (by simpa using h), List.getElem_map,
    List.getElem_range, hbit]
  cases mask.testBit i
  · exact hbyte old
  · exact hbyte new

theorem testBit_shifted_mask (n k i : Nat) : ((2 ^ n - 1) * 2 ^ k).testBit i = decide (k ≤ i ∧ i < k + n) := by
  rw [Nat.testBit_mul_two_pow, Nat.testBit_two_pow_sub_one]
  by_cases h : k ≤ i
  · simp only [h, decide_true, true_and, Bool.true_and, decide_eq_decide]
    omega
  · simp [h]

/-- The bytes of a word placed in a cell at byte k. -/
theorem cellByte_shifted_word (x : Nat) {n k i : Nat} (hfit : k + n ≤ 64) (hi : i < n) :
    cellByte (BitVec.ofNat 512 (x % 2 ^ (8 * n) * 2 ^ (8 * k))) (k + i) = BitVec.ofNat 8 (x / 2 ^ (8 * i)) := by
  have hlt : x % 2 ^ (8 * n) * 2 ^ (8 * k) < 2 ^ 512 := by
    calc x % 2 ^ (8 * n) * 2 ^ (8 * k) < 2 ^ (8 * n) * 2 ^ (8 * k) :=
          Nat.mul_lt_mul_of_pos_right (Nat.mod_lt _ (Nat.two_pow_pos _)) (Nat.two_pow_pos _)
      _ = 2 ^ (8 * n + 8 * k) := (Nat.pow_add ..).symm
      _ ≤ 2 ^ 512 := Nat.pow_le_pow_right (by decide) (by omega)
  have hfield : bitsAt (bitsAt x 0 (8 * n)) (8 * i) 8 = bitsAt x (0 + 8 * i) 8 := bitsAt_bitsAt x (by omega)
  simp only [bitsAt, Nat.pow_zero, Nat.div_one, Nat.zero_add] at hfield
  apply BitVec.eq_of_toNat_eq
  rw [cellByte, BitVec.toNat_ofNat, BitVec.toNat_ofNat, BitVec.toNat_ofNat, Nat.mod_eq_of_lt hlt,
    show 8 * (k + i) = 8 * k + 8 * i by omega, Nat.pow_add, ← Nat.div_div_eq_div_mul, Nat.mul_div_cancel _ (Nat.two_pow_pos _)]
  exact hfield

/-- A byte-masked store of an n-byte word within one cell writes its bytes and no other. -/
theorem State.byteAt_setCell_word (s : State) {a n : Nat} (x b : Nat) (hfit : a % 64 + n ≤ 64) :
    (s.setCell (a / 64 * 64) (mergeCell (s.cellAt (a / 64 * 64)) (BitVec.ofNat 512 (x % 2 ^ (8 * n) * 2 ^ (8 * (a % 64))))
      ((2 ^ n - 1) * 2 ^ (a % 64)))).byteAt b =
      if a ≤ b ∧ b < a + n then BitVec.ofNat 8 (x / 2 ^ (8 * (b - a))) else s.byteAt b := by
  rw [State.byteAt_setCell]
  by_cases hcell : a / 64 * 64 ≤ b ∧ b < a / 64 * 64 + 64
  · rw [if_pos hcell, cellByte_mergeCell _ _ _ (by omega), testBit_shifted_mask]
    by_cases hin : a ≤ b ∧ b < a + n
    · rw [if_pos (decide_eq_true (by omega)), if_pos hin, show b - a / 64 * 64 = a % 64 + (b - a) by omega,
        cellByte_shifted_word x hfit (by omega)]
    · rw [if_neg (by simp only [decide_eq_true_eq]; omega), if_neg hin, State.cellByte_cellAt _ _ (by omega),
        show a / 64 * 64 + (b - a / 64 * 64) = b by omega]
  · rw [if_neg hcell, if_neg (by omega)]

end Sys2Proof.Machine
end

section
/-! SUPPORT. What the context operations do to contexts, planes and vats, and what they leave alone. -/

namespace Sys2Proof.Machine

/-! ## Launching and pausing -/

section
variable {α : Type} {π : State → α} (h : BlindToSwap π)
include h

theorem State.launchCtx_kept (hctxs : ∀ s x, π { s with ctxs := x } = π s) (s : State) (c : Nat) : π (s.launchCtx c) = π s :=
  (State.swapIdleActive_kept h _ _).trans ((State.refreshRun_kept h _ _).trans ((State.ungate_kept h _ _).trans
    ((hctxs _ _).trans (h.planes s _))))

theorem State.pauseNow_kept (hctxs : ∀ s x, π { s with ctxs := x } = π s) (hchurn : ∀ s x, π { s with churn := x } = π s)
    (s : State) (c : Nat) : π (s.pauseNow c) = π s :=
  (State.refreshRun_kept h _ _).trans ((State.swapAway_kept h _ _).trans ((State.flexReleaseCtx_kept hchurn _ _).trans
    ((h.planes _ _).trans (hctxs s _))))

end

/-- A reading of the contexts is blind to a swap. -/
theorem blindToSwap_ctxs : BlindToSwap fun t => t.ctxs := ⟨fun _ _ => rfl, fun _ _ => rfl, fun _ _ => rfl, fun _ _ => rfl⟩

theorem blindToSwap_fab_mem : BlindToSwap fun t => t.fab.mem := ⟨fun _ _ => rfl, fun _ _ => rfl, fun _ _ => rfl, fun _ _ => rfl⟩

theorem State.ctx_of_ctxs {s t : State} (h : t.ctxs = s.ctxs) (d : Nat) : t.ctx d = s.ctx d := by
  rw [State.ctx, h]; rfl

theorem State.launchCtx_ctx (s : State) (c d : Nat) : (s.launchCtx c).ctx d =
    if d = c then { s.ctx c with state := .running, drained := false, ending := false } else s.ctx d := by
  have hkept : (s.launchCtx c).ctxs = (s.onCtx c fun x => { x with state := .running, drained := false, ending := false }).ctxs :=
    (State.swapIdleActive_kept blindToSwap_ctxs _ _).trans ((State.refreshRun_kept blindToSwap_ctxs _ _).trans
      (State.ungate_kept blindToSwap_ctxs _ _))
  rw [State.ctx_of_ctxs hkept, State.onCtx_ctx]

theorem State.pauseNow_ctx (s : State) (c d : Nat) : (s.pauseNow c).ctx d =
    if d = c then { s.ctx c with state := .paused, drained := false } else s.ctx d := by
  have hkept : (s.pauseNow c).ctxs = (s.onCtx c fun x => { x with state := .paused, drained := false }).ctxs :=
    (State.refreshRun_kept blindToSwap_ctxs _ _).trans ((State.swapAway_kept blindToSwap_ctxs _ _).trans
      (State.flexReleaseCtx_kept (π := fun t => t.ctxs) (fun _ _ => rfl) _ _))
  rw [State.ctx_of_ctxs hkept, State.onCtx_ctx]

/-- A PAUSE of the active context drains it (R459). -/
theorem State.tryPause_active (s : State) {c : Nat} (hrun : (s.ctx c).state = .running) (hreplay : s.replayHolds c = false)
    (hactive : s.isActive c = true) :
    s.tryPause c = (stOK, s.onCtx c fun x => { x with state := .draining, drained := false }) := by
  unfold State.tryPause State.pauseRunning
  rw [hrun]
  simp [hreplay, hactive]

/-- A PAUSE of a shadow context pauses it (R459). -/
theorem State.tryPause_shadow (s : State) {c : Nat} (hrun : (s.ctx c).state = .running) (hreplay : s.replayHolds c = false)
    (hactive : s.isActive c = false) : s.tryPause c = (stOK, s.pauseNow c) := by
  unfold State.tryPause State.pauseRunning
  rw [hrun]
  simp [hreplay, hactive]

/-- A LAUNCH of a context that is LOADED or PAUSED, outside standby (R458). -/
theorem State.tryLaunch_ready (s : State) {c : Nat} (hstandby : s.svc.standby = false) (hdrain : s.svc.draining = false)
    (hstate : (s.ctx c).state = .loaded ∨ (s.ctx c).state = .paused) (hreplay : s.replayHolds c = false) :
    s.tryLaunch c = (stOK, s.launchCtx c) := by
  unfold State.tryLaunch
  rw [hstandby, hdrain, if_neg (by decide), if_pos hstate, hreplay]
  rfl

/-! ## Freeing -/

/-- π reads nothing that ending culture loads rewrites. -/
structure BlindToLoads {α : Type} (π : State → α) : Prop extends BlindToReport π where
  loads : ∀ s x, π { s with loads := x } = π s

section
variable {α : Type} {π : State → α} (h : BlindToLoads π)
include h

theorem State.failTargets_kept (s : State) (id : Nat) (f : LoadTarget → Bool) (r : LoadResult) : π (s.failTargets id f r) = π s := by
  unfold State.failTargets
  split
  · rfl
  · exact (h.loads _ _).trans (foldl_kept (fun a t => State.note_kept h.toBlindToReport a _ _ _ _ _) _ s)

theorem State.finishLoads_kept (s : State) : π s.finishLoads = π s :=
  (foldl_kept (fun a _ => State.reply_kept h.toBlindToSent a _ _ _ _ _ _) _ _).trans (h.loads s _)

theorem State.abortLoads_kept (s : State) (f : LoadTarget → Bool) : π (s.abortLoads f) = π s :=
  (State.finishLoads_kept h _).trans (foldl_kept (fun a _ => State.failTargets_kept h a _ _ _) _ s)

end

theorem State.qpDestroyed_kept {α : Type} {π : State → α} (h : BlindToSent π) (s : State) (q : Nat) : π (s.qpDestroyed q) = π s :=
  (h.eth _ _).trans ((h.ops _ _).trans (foldl_kept (fun a _ => State.hostSend_kept h a _) _ s))

theorem State.qpsDestroy_kept {α : Type} {π : State → α} (h : BlindToSent π) (s : State) (c : Nat) : π (s.qpsDestroy c) = π s :=
  foldl_kept (fun a _ => ite_kept (State.qpDestroyed_kept h a _) rfl) _ s

theorem State.emptyPlane_kept {α : Type} {π : State → α} (hplanes : ∀ s x, π { s with planes := x } = π s)
    (hctxs : ∀ s x, π { s with ctxs := x } = π s) (hvats : ∀ s x, π { s with vats := x } = π s) (s : State) (c : Nat) :
    π (s.emptyPlane c) = π s :=
  ite_kept (ite_kept ((hctxs _ _).trans (hplanes s _)) ((hvats _ _).trans ((hctxs _ _).trans (hplanes s _)))) rfl

theorem State.emptyPlane_ctx_ne (s : State) {c d : Nat} (h : d ≠ c) : (s.emptyPlane c).ctx d = s.ctx d := by
  unfold State.emptyPlane
  dsimp only
  split
  · split
    · rw [State.onCtx_ctx, if_neg h]; rfl
    · rw [State.onVat, State.ctx, State.onCtx, Tbl.look_upd, if_neg h]; rfl
  · rfl

/-- π reads nothing that freeing a context rewrites. -/
structure BlindToFree {α : Type} (π : State → α) : Prop extends BlindToLoads π where
  planes : ∀ s x, π { s with planes := x } = π s
  ctxs : ∀ s x, π { s with ctxs := x } = π s
  vats : ∀ s x, π { s with vats := x } = π s
  churn : ∀ s x, π { s with churn := x } = π s
  seg : ∀ s x, π { s with fab := { s.fab with seg := x } } = π s

theorem blindToFree_svc : BlindToFree fun t => t.svc where
  toBlindToLoads := ⟨⟨⟨⟨fun _ _ => rfl, fun _ _ => rfl, fun _ _ => rfl, fun _ _ => rfl, fun _ _ => rfl, fun _ _ => rfl⟩,
    fun _ _ => rfl, fun _ _ => rfl⟩, fun _ _ => rfl⟩, fun _ _ => rfl⟩
  planes _ _ := rfl
  ctxs _ _ := rfl
  vats _ _ := rfl
  churn _ _ := rfl
  seg _ _ := rfl

theorem State.freeCtx_kept {α : Type} {π : State → α} (h : BlindToFree π) (s : State) (c : Nat) : π (s.freeCtx c) = π s :=
  (h.seg _ _).trans ((h.ctxs _ _).trans ((State.flexReleaseCtx_kept h.churn _ _).trans ((State.abortLoads_kept h.toBlindToLoads _ _).trans
    ((State.qpsDestroy_kept h.toBlindToSent _ _).trans (State.emptyPlane_kept h.planes h.ctxs h.vats s c)))))

/-- The part of freeing a context that precedes its own registers. -/
def State.freeCtxUnits (s : State) (c : Nat) : State :=
  (((s.emptyPlane c).qpsDestroy c).abortLoads fun t => t.ctx == c).flexReleaseCtx c

theorem State.freeCtxUnits_ctxs (s : State) (c : Nat) : (s.freeCtxUnits c).ctxs = (s.emptyPlane c).ctxs := by
  have hblind : BlindToLoads fun t => t.ctxs := ⟨⟨⟨⟨fun _ _ => rfl, fun _ _ => rfl, fun _ _ => rfl, fun _ _ => rfl, fun _ _ => rfl,
    fun _ _ => rfl⟩, fun _ _ => rfl, fun _ _ => rfl⟩, fun _ _ => rfl⟩, fun _ _ => rfl⟩
  exact (State.flexReleaseCtx_kept (π := fun t => t.ctxs) (fun _ _ => rfl) _ _).trans ((State.abortLoads_kept hblind _ _).trans
    (State.qpsDestroy_kept hblind.toBlindToSent _ _))

/-- What a context keeps when it becomes FREE (R461). -/
def Ctx.freed (x : Ctx) : Ctx :=
  { ({} : Ctx) with weight := x.weight, lastSeq := x.lastSeq, lastCode := x.lastCode, remoteHold := x.remoteHold }

/-- The segment entries as freeing context c leaves them: its own are not valid. -/
def freedSeg (c : Nat) (seg : Tbl (BitVec 128)) : Tbl (BitVec 128) :=
  Tbl.mapVals 0 (fun i e => if i / 512 = c then bvSet e 104 false else e) seg

theorem State.freeCtx_eq (s : State) (c : Nat) : s.freeCtx c =
    { (s.freeCtxUnits c).onCtx c Ctx.freed with
      fab := { (s.freeCtxUnits c).fab with seg := freedSeg c (s.freeCtxUnits c).fab.seg } } := rfl

theorem State.freeCtx_ctxs (s : State) (c : Nat) : (s.freeCtx c).ctxs = ((s.freeCtxUnits c).onCtx c Ctx.freed).ctxs := by
  rw [State.freeCtx_eq]

/-- A freed context is FREE and holds no plane. -/
theorem State.freeCtx_ctx_same (s : State) (c : Nat) : (s.freeCtx c).ctx c = ((s.freeCtxUnits c).ctx c).freed := by
  rw [State.ctx_of_ctxs (s.freeCtx_ctxs c), State.onCtx_ctx_same]

theorem State.freeCtx_ctx_ne (s : State) {c d : Nat} (h : d ≠ c) : (s.freeCtx c).ctx d = s.ctx d := by
  rw [State.ctx_of_ctxs (s.freeCtx_ctxs c), State.onCtx_ctx, if_neg h, State.ctx_of_ctxs (s.freeCtxUnits_ctxs c),
    State.emptyPlane_ctx_ne s h]

theorem bvSet_getLsbD {w : Nat} (x : BitVec w) (i j : Nat) (b : Bool) (h : i < w) :
    (bvSet x i b).getLsbD j = if j = i then b else x.getLsbD j := by
  have hone : ((1 <<< i : Nat) : BitVec w).getLsbD j = decide (j = i) := by
    rw [BitVec.natCast_eq_ofNat, BitVec.getLsbD_ofNat, Nat.one_shiftLeft, Nat.testBit_two_pow]
    by_cases hj : j = i
    · simp [hj, h]
    · simp [hj, Ne.symm hj]
  cases b
  · rw [bvSet, if_neg (by decide), BitVec.getLsbD_and, BitVec.getLsbD_not, hone]
    by_cases hj : j = i
    · simp [hj]
    · by_cases hjw : j < w
      · simp [hj, hjw]
      · simp [hj, BitVec.getLsbD_of_ge x j (by omega)]
  · rw [bvSet, if_pos rfl, BitVec.getLsbD_or, hone]
    by_cases hj : j = i <;> simp [hj]

/-- Freeing a context takes the valid bit out of its segment entries (R461). -/
theorem State.freeCtx_seg (s : State) (c e : Nat) : Tbl.look 0 (s.freeCtx c).fab.seg e =
    if e / 512 = c then bvSet (Tbl.look 0 s.fab.seg e) 104 false else Tbl.look 0 s.fab.seg e := by
  have hblind : BlindToLoads fun t => t.fab.seg := ⟨⟨⟨⟨fun _ _ => rfl, fun _ _ => rfl, fun _ _ => rfl, fun _ _ => rfl, fun _ _ => rfl,
    fun _ _ => rfl⟩, fun _ _ => rfl, fun _ _ => rfl⟩, fun _ _ => rfl⟩, fun _ _ => rfl⟩
  have hkept : (s.freeCtxUnits c).fab.seg = s.fab.seg :=
    (State.flexReleaseCtx_kept (π := fun t => t.fab.seg) (fun _ _ => rfl) _ _).trans ((State.abortLoads_kept hblind _ _).trans
      ((State.qpsDestroy_kept hblind.toBlindToSent _ _).trans
        (State.emptyPlane_kept (π := fun t => t.fab.seg) (fun _ _ => rfl) (fun _ _ => rfl) (fun _ _ => rfl) s c)))
  rw [State.freeCtx_eq, hkept]
  have hzero : (if e / 512 = c then bvSet (0 : BitVec 128) 104 false else 0) = 0 := by split <;> decide
  exact Tbl.look_mapVals 0 (fun i (x : BitVec 128) => if i / 512 = c then bvSet x 104 false else x) s.fab.seg e hzero

end Sys2Proof.Machine
end

section
/-! SUPPORT. The regions of the local map, and what a peek and a poke of the monitor do: the settled statement. -/

namespace Sys2Proof.Machine

/-! ## Regions of the local map -/

theorem regionOf_cream {a c off : Nat} (h : regionOf a = .cream c off) : 0x020000000000 ≤ a ∧ a < 0x020800000000 := by
  unfold regionOf at h
  split at h
  · cases h
  · split at h
    · assumption
    · split at h
      · cases h
      · split at h <;> cases h

theorem regionOf_of_cream {a : Nat} (h : 0x020000000000 ≤ a ∧ a < 0x020800000000) :
    regionOf a = .cream ((a - 0x020000000000) / 0x80000000) (a % 0x80000000) := by
  rw [regionOf, if_neg (by omega), if_pos h]

theorem regionOf_of_window {a : Nat} (h : 0x3F0000000000 ≤ a ∧ a < 0x400000000000) : regionOf a = .register (a - 0x3F0000000000) := by
  rw [regionOf, if_neg (by omega), if_neg (by omega), if_neg (by omega), if_pos h]

/-! ## Peek and poke -/

/-- A cell of cream SRAM is written in place. -/
theorem State.setLocalCell_of_cream (s : State) {a : Nat} (h : 0x020000000000 ≤ a ∧ a < 0x020800000000) (c : BitVec 512) :
    s.setLocalCell a c = s.setCell a c := by
  rw [State.setLocalCell, regionOf_of_cream h]

theorem State.localCell_of_cream (s : State) {a : Nat} (h : 0x020000000000 ≤ a ∧ a < 0x020800000000) : s.localCell a = s.cellAt a := by
  rw [State.localCell, regionOf_of_cream h]

/-- What storing a cell rewrites. -/
theorem State.setCell_fab (s : State) (a : Nat) (c : BitVec 512) :
    s.setCell a c = { s with fab := { s.fab with mem := (s.setCell a c).fab.mem } } := State.setBytes_fab _ s a

/-- A poke of a word of cream SRAM that no error blocks writes its cell (R531). -/
theorem State.pokeMem_cream {s : State} {a n : Nat} (x : Nat) (h : 0x020000000000 ≤ a ∧ a < 0x020800000000)
    (hup : s.targetDown a = none) (hgood : s.badIn (a / 64 * 64) 64 = false) :
    s.pokeMem a n x = (0, s.setCell (a / 64 * 64) (mergeCell (s.cellAt (a / 64 * 64))
      (BitVec.ofNat 512 (x % 2 ^ (8 * n) * 2 ^ (8 * (a % 64)))) ((2 ^ n - 1) * 2 ^ (a % 64)))) := by
  have hcell : 0x020000000000 ≤ a / 64 * 64 ∧ a / 64 * 64 < 0x020800000000 := by omega
  unfold State.pokeMem
  rw [hup]
  simp only [hgood, Bool.false_eq_true, if_false, State.setLocalCell_of_cream s hcell, State.localCell_of_cream s hcell]

/-- A poke that stores leaves an INFO record and prints what reads back. -/
theorem State.poke_of_stored {s u : State} {a : W64} {n : Nat} {x : W64} {c off : Nat} (hregion : regionOf a.toNat = .cream c off)
    (hinside : ¬ (a.toNat % n ≠ 0 ∨ 2 ^ 46 ≤ a.toNat)) (hmem : s.pokeMem a.toNat n x.toNat = (0, u)) :
    ∃ l, s.poke a n x = ((u.notePoke a x 0).print l).done := by
  unfold State.poke State.pokeCell
  rw [if_neg hinside, hregion]
  simp only [hmem]
  exact ⟨_, rfl⟩

theorem exec_poke_unlocked {s : State} (h : s.monServes = true) (hrec : s.inRecovery = false) (htrip : s.thm.trip = false)
    (hopen : s.svc.unlocked = true) (a : W64) (wide : Bool) (x : W64) :
    exec (.poke a wide x) s = .next (s.atPrompt.poke a (if wide then 8 else 4) x).finish := by
  show Host.Outcome.next (s.monitor false false fun b => b.poke a (if wide then 8 else 4) x).finish = _
  rw [State.monitor_unlocked _ h hrec htrip hopen]

/-- Settles O17: the poke by the bytes of the one cell that it writes. -/
theorem peekAndPoke : Obligations.PeekAndPoke := by
  refine ⟨fun a wide s h hrec htrip hopen halign hlow => ?_,
    fun a wide x c off s h hrec htrip hopen htodo halign hregion hup hgood => ?_,
    fun a wide x s h hrec htrip hopen htodo halign hlo hhi => ?_⟩
  · have hinside : ¬ (a.toNat % (if wide then 8 else 4) ≠ 0 ∨ 2 ^ 46 ≤ a.toNat) := by omega
    refine ⟨_, (s.atPrompt.peekAt a.toNat (if wide then 8 else 4)).2, (s.atPrompt.peekAt a.toNat (if wide then 8 else 4)).1,
      congrArg Host.Outcome.next ((State.monitor_unlocked _ h hrec htrip hopen).trans (if_neg hinside)), ?_⟩
    rw [State.done_print_eq]
    simp [State.atPrompt]
  · have hcream := regionOf_cream hregion
    have hinside : ¬ (a.toNat % (if wide then 8 else 4) ≠ 0 ∨ 2 ^ 46 ≤ a.toNat) := by omega
    have hfit : a.toNat % 64 + (if wide then 8 else 4) ≤ 64 := by split <;> simp_all <;> omega
    rw [exec_poke_unlocked h hrec htrip hopen]
    generalize (if wide then 8 else 4) = n at hinside hfit ⊢
    have hmem := State.pokeMem_cream (s := s.atPrompt) (n := n) x.toNat hcream hup hgood
    have hbytes := fun b => s.atPrompt.byteAt_setCell_word x.toNat b hfit
    have hrest := s.atPrompt.setCell_fab (a.toNat / 64 * 64) (mergeCell (s.atPrompt.cellAt (a.toNat / 64 * 64))
      (BitVec.ofNat 512 (x.toNat % 2 ^ (8 * n) * 2 ^ (8 * (a.toNat % 64)))) ((2 ^ n - 1) * 2 ^ (a.toNat % 64)))
    generalize s.atPrompt.setCell _ _ = u at hmem hbytes hrest
    obtain ⟨l, hpoke⟩ := State.poke_of_stored (x := x) hregion hinside hmem
    have herr : u.err = s.err := (congrArg State.err hrest :)
    have htodo' : ((u.notePoke a x 0).print l).done.err.todo = [] := by rw [← htodo, ← herr]; rfl
    refine ⟨_, rfl, ?_⟩
    rw [hpoke, State.finish_of_todo_nil _ htodo']
    refine ⟨fun i hi => ?_, fun b hb => ?_, ?_, (congrArg State.ctxs hrest :), (congrArg State.vats hrest :)⟩
    · refine (hbytes _).trans ?_
      rw [if_pos (by omega), Nat.add_sub_cancel_left]
    · refine (hbytes _).trans ?_
      rw [if_neg (by omega)]
      rfl
    · rw [← herr]; rfl
  · have hregion : regionOf a.toNat = .register (a.toNat - 0x3F0000000000) := regionOf_of_window (by simp only [windowBase] at hlo hhi; omega)
    have hinside : ¬ (a.toNat % (if wide then 8 else 4) ≠ 0 ∨ 2 ^ 46 ≤ a.toNat) := by simp only [windowBase] at hlo hhi; omega
    have hseg : inSeg (a.toNat - windowBase) = true := decide_eq_true (by omega)
    have hpoke : s.atPrompt.poke a (if wide then 8 else 4) x = (s.atPrompt.notePoke a x 2).fail "range" := by
      unfold State.poke State.pokeReg
      rw [if_neg hinside, hregion]
      exact if_pos hseg
    rw [exec_poke_unlocked h hrec htrip hopen, hpoke, State.finish_of_todo_nil ((s.atPrompt.notePoke a x 2).fail "range") htodo]
    exact ⟨_, rfl, rfl, rfl, rfl⟩

end Sys2Proof.Machine
end

section
/-! SUPPORT. The monitor's dump and context commands: the settled statement. -/

namespace Sys2Proof.Machine

theorem State.answered_ok {r : Nat × State} {u : State} (h : r = (stOK, u)) : r.2.answered r.1 = u.done := by
  rw [h]
  rfl

theorem State.answered_state {r : Nat × State} {u : State} (h : r = (stState, u)) : r.2.answered r.1 = u.fail "state" := by
  rw [h]
  rfl

/-- Settles O18: the context commands by what launching, pausing and freeing do to the context. -/
theorem monitorDumpAndContexts : Obligations.MonitorDumpAndContexts := by
  have runs {s : State} (h : s.monServes = true) (hrec : s.inRecovery = false) (htrip : s.thm.trip = false)
      (hopen : s.svc.unlocked = true) {f : State → State} {t : State} (hf : f s.atPrompt = t) :
      (Host.Outcome.next (s.monitor false false f) : Host.Outcome State Fault Refusal) = .next t :=
    congrArg Host.Outcome.next ((State.monitor_unlocked f h hrec htrip hopen).trans hf)
  refine ⟨fun s h hrec htrip hopen hvalid hbusy => ?dump, fun s h hrec htrip hopen hheld => ?info,
    fun off len s h hrec htrip hopen hheld hlen => ?read, fun n s h hrec htrip hopen hn hrun hreplay hactive => ?pause,
    fun n s h hrec htrip hopen hn hstandby hdrain hstate hreplay => ?launch, fun c n s h hrec htrip hopen hn hfree hc => ?free,
    fun n s h hrec htrip hopen hn hquiet => ?destroy⟩
  case dump =>
    have hnone : (s.err.dump.valid || s.err.dump.busy) = false := by rw [hvalid, hbusy]; rfl
    refine ⟨_, runs h hrec htrip hopen rfl, ?_⟩
    simp only [State.dumpStart, State.atPrompt, hnone, Bool.false_eq_true, if_false]
    exact ⟨rfl, rfl, rfl, rfl, rfl, rfl⟩
  case info =>
    have hsome : s.atPrompt.heldDump.isEmpty = false := List.isEmpty_eq_false_iff.mpr hheld
    refine runs h hrec htrip hopen ?_
    rw [hsome, if_neg (by decide), State.done_print_eq, List.append_assoc]
    rfl
  case read =>
    have hsome : s.atPrompt.heldDump.isEmpty = false := List.isEmpty_eq_false_iff.mpr hheld
    refine runs h hrec htrip hopen ?_
    rw [if_neg (Nat.not_lt.mpr hlen), hsome, if_neg (by decide), State.done_print_eq, List.append_assoc]
    rfl
  case pause =>
    have hpause : s.atPrompt.tryPause n = (stOK, s.atPrompt.onCtx n fun x => { x with state := .draining, drained := false }) :=
      s.atPrompt.tryPause_active hrun hreplay hactive
    have hctx := s.atPrompt.onCtx_ctx n (f := fun x => { x with state := .draining, drained := false })
    refine ⟨_, runs h hrec htrip hopen ((if_pos hn).trans (State.answered_ok hpause)), ?_, fun d hd => ?_, rfl, rfl⟩
    · exact congrArg Ctx.state ((hctx n).trans (if_pos rfl))
    · exact (hctx d).trans (if_neg hd)
  case launch =>
    have hlaunch := s.atPrompt.tryLaunch_ready hstandby hdrain hstate hreplay
    have hsvc : (s.atPrompt.launchCtx n).svc = s.atPrompt.svc :=
      State.launchCtx_kept (π := fun t => t.svc) ⟨fun _ _ => rfl, fun _ _ => rfl, fun _ _ => rfl, fun _ _ => rfl⟩ (fun _ _ => rfl) _ n
    have hctx := s.atPrompt.launchCtx_ctx n n
    have hmem := s.atPrompt.launchCtx_mem n
    generalize s.atPrompt.launchCtx n = u at hlaunch hsvc hctx hmem
    refine ⟨u.done, runs h hrec htrip hopen ((if_pos hn).trans (State.answered_ok hlaunch)), ?_, ?_, fun a => ?_⟩
    · exact congrArg Ctx.state (hctx.trans (if_pos rfl))
    · exact congrArg (fun v => v.out ++ [.ok, .prompt]) hsvc
    · exact congrArg (fun m => Tbl.look 0 m a) hmem
  case free =>
    have hpause : s.atPrompt.tryPause n = (stState, s.atPrompt) := by
      unfold State.tryPause
      rw [show (s.atPrompt.ctx n).state = .free from hfree]
    have hlaunch : s.atPrompt.tryLaunch n = (stState, s.atPrompt) := by
      have hnot : ¬ ((s.atPrompt.ctx n).state = .loaded ∨ (s.atPrompt.ctx n).state = .paused) := by
        rw [show (s.atPrompt.ctx n).state = .free from hfree]
        decide
      unfold State.tryLaunch
      rw [if_neg hnot, ite_self]
    rcases hc with rfl | rfl
    · exact ⟨_, runs h hrec htrip hopen ((if_pos hn).trans (State.answered_state hpause)), rfl, rfl⟩
    · exact ⟨_, runs h hrec htrip hopen ((if_pos hn).trans (State.answered_state hlaunch)), rfl, rfl⟩
  case destroy =>
    have hdestroy : (s.atPrompt.tryDestroy n none).2 = s.atPrompt.freeCtx n := congrArg Prod.snd (if_pos hquiet)
    have hsvc : (s.atPrompt.freeCtx n).svc = s.atPrompt.svc :=
      State.freeCtx_kept (π := fun t => t.svc) blindToFree_svc _ n
    have hctx := s.atPrompt.freeCtx_ctx_same n
    generalize s.atPrompt.freeCtx n = u at hdestroy hsvc hctx
    refine ⟨u.done, runs h hrec htrip hopen ((if_pos hn).trans (congrArg State.done hdestroy)), ?_, ?_, ?_⟩
    · exact congrArg Ctx.state hctx
    · exact congrArg Ctx.resident hctx
    · exact congrArg (fun v => v.out ++ [.ok, .prompt]) hsvc

end Sys2Proof.Machine
end

section
/-! SUPPORT. Standby, the service switches and the TAP: the settled statement. -/

namespace Sys2Proof.Machine

/-- Gating touches vats that work and no other (R85). -/
theorem State.gate_vat_of_working {s : State} {v : Nat} (h : (s.vat v).run = .idle ∨ (s.vat v).run = .run) :
    ((s.gate v).vat v).run = .gated ∧ ((s.gate v).vat v).freqNow = 0 := by
  rw [State.gate, State.onVat_vat, if_pos rfl]
  rcases h with h | h <;> rw [h] <;> exact ⟨rfl, rfl⟩

theorem State.gate_vat_ne {s : State} {v w : Nat} (h : w ≠ v) : (s.gate v).vat w = s.vat w := by
  rw [State.gate, State.onVat_vat, if_neg h]

/-- Gating each vat of a list gates those that work. -/
theorem State.gateAll_vat_of_working (l : List Nat) {s : State} {v : Nat} (hl : l.Nodup) (hv : v ∈ l)
    (h : (s.vat v).run = .idle ∨ (s.vat v).run = .run) :
    ((l.foldl State.gate s).vat v).run = .gated ∧ ((l.foldl State.gate s).vat v).freqNow = 0 := by
  have hout (l : List Nat) (u : State) (hv : v ∉ l) : (l.foldl State.gate u).vat v = u.vat v := by
    induction l generalizing u with
    | nil => rfl
    | cons w l ih =>
      rw [List.mem_cons, not_or] at hv
      rw [List.foldl_cons, ih _ hv.2, State.gate_vat_ne hv.1]
  induction l generalizing s with
  | nil => exact absurd hv List.not_mem_nil
  | cons w l ih =>
    obtain ⟨hw, hl⟩ := List.nodup_cons.mp hl
    rw [List.foldl_cons]
    by_cases hvw : v = w
    · subst hvw
      rw [hout l _ hw]
      exact State.gate_vat_of_working h
    · refine ih hl ((List.mem_cons.mp hv).resolve_left hvw) ?_
      rw [State.gate_vat_ne hvw]
      exact h

theorem State.note_kcp (s : State) (code : W16) (sev : Severity) (u : W16) (d : List W64) (c : Option Nat) :
    (s.note code sev u d c).kcp = s.kcp := rfl

/-- The state in which standby is reported: the vats are gated and the drain is over. -/
def State.drained (s : State) : State :=
  { (List.range 32).foldl State.gate s with svc := { s.svc with draining := false } }

theorem State.drained_vats (s : State) : s.drained.vats = ((List.range 32).foldl State.gate s).vats := by rw [State.drained]

/-- A reading that is blind to the vats and to the service logic does not see the drain. -/
theorem State.drained_kept {α : Type} {π : State → α} (hvats : ∀ s x, π { s with vats := x } = π s)
    (hsvc : ∀ s x, π { s with svc := x } = π s) (s : State) : π s.drained = π s :=
  (hsvc _ _).trans (foldl_kept (fun _ _ => hvats _ _) _ s)

/-- Standby is reached when no context runs (R523). -/
theorem State.standbyReached_eq {s : State} (hstandby : s.svc.standby = true) (hdrain : s.svc.draining = true)
    (hidle : ∀ c, c < 64 → (s.ctx c).state.runs = false) :
    s.standbyReached = (s.drained.notifyService 3).note 0x1102 .info (unitMc s.mc.owner) [1, 0] := by
  have hall : ((List.range 64).all fun c => !(s.ctx c).state.runs) = true :=
    List.all_eq_true.mpr fun c hc => by rw [hidle c (List.mem_range.mp hc)]; rfl
  rw [State.standbyReached, hstandby, hdrain, hall]
  rfl

/-- Settles O13: standby by the fold over the vats, the switches by what each rewrites. -/
theorem standbySwitchesAndTap : Obligations.StandbySwitchesAndTap := by
  refine ⟨fun s hstandby hdrain hidle => ?reached, fun s hstandby => ?leave, fun s hstandby => ?stay, fun _ _ => rfl, fun _ => rfl,
    fun _ _ => rfl, fun _ => rfl, ?lock, fun _ => rfl, fun _ => rfl, fun _ => rfl, fun _ => rfl, fun _ => rfl, fun s h => ?drives,
    fun s h => ?quiet⟩
  case reached =>
    refine ⟨_, congrArg Host.Outcome.next (State.standbyReached_eq hstandby hdrain hidle), ?_⟩
    have hsvc : s.drained.svc = { s.svc with draining := false } := rfl
    have hvats := s.drained_vats
    have hctxs := State.drained_kept (π := fun t => t.ctxs) (fun _ _ => rfl) (fun _ _ => rfl) s
    have hmem := State.drained_kept (π := fun t => t.fab.mem) (fun _ _ => rfl) (fun _ _ => rfl) s
    have hkcp := State.drained_kept (π := fun t => t.kcp) (fun _ _ => rfl) (fun _ _ => rfl) s
    generalize s.drained = u at hsvc hvats hctxs hmem hkcp ⊢
    have kept {α : Type} {π : State → α} (hπ : BlindToReport π) :
        π ((u.notifyService 3).note 0x1102 .info (unitMc s.mc.owner) [1, 0]) = π u :=
      (State.note_kept hπ _ _ _ _ _ _).trans (State.notifyService_kept hπ _ _)
    have hseq : ((u.notifyService 3).note 0x1102 .info (unitMc s.mc.owner) [1, 0]).kcp.notifySeq = u.kcp.notifySeq + 1 :=
      (congrArg Kcp.notifySeq (State.note_kcp _ _ _ _ _ _)).trans (u.notify_notifySeq _ _)
    generalize (u.notifyService 3).note 0x1102 .info (unitMc s.mc.owner) [1, 0] = t at kept hseq ⊢
    have hsvc' := (kept (π := fun t => t.svc) blindToReport_svc).trans hsvc
    have hvats' := (kept (π := fun t => t.vats) blindToReport_vats).trans hvats
    refine ⟨congrArg Service.draining hsvc', (congrArg Service.standby hsvc').trans hstandby, fun v hv hrun => ?_, ?_,
      (kept (π := fun t => t.ctxs) blindToReport_ctxs).trans hctxs,
      State.byteAt_of_mem ((kept (π := fun t => t.fab.mem) blindToReport_mem).trans hmem)⟩
    · have hvat : t.vat v = ((List.range 32).foldl State.gate s).vat v := State.vat_of_vats hvats' v
      rw [hvat]
      exact State.gateAll_vat_of_working _ List.nodup_range (List.mem_range.mpr hv) hrun
    · rw [hseq, hkcp]
  case leave =>
    refine ⟨_, congrArg Host.Outcome.next (if_pos hstandby), rfl, rfl, rfl, fun hstate => ?_⟩
    show (if s.mc.state = McState.standby then McState.ready else s.mc.state) = McState.ready
    rw [if_pos hstate]
  case stay =>
    show Host.Outcome.next (s.leaveStandby 1) = _
    rw [State.leaveStandby, hstandby]
    rfl
  case lock =>
    rintro c s (rfl | rfl) <;> rfl
  case drives =>
    show Host.Outcome.next (s.jtag .extest (if s.board.resetN then 0 else s.svc.dr)) = _
    rw [State.jtag, h]
    rfl
  case quiet =>
    show Host.Outcome.next (s.jtag .extest (if s.board.resetN then 0 else s.svc.dr)) = _
    rw [State.jtag, h]
    rfl

end Sys2Proof.Machine
end

section
/-! SUPPORT. The module before its input power: the settled statement. -/

namespace Sys2Proof.Machine

/-- Settles O60, by evaluating the state at reset. -/
theorem machineAtReset : Obligations.MachineAtReset := by
  refine ⟨rfl, rfl, rfl, rfl, fun _ => rfl, fun _ => rfl, fun _ => ⟨rfl, rfl⟩, fun _ r => ?_, fun _ => rfl, rfl, rfl, ?_⟩
  · show (({} : Plane).getX r) = 0
    exact ite_self _
  · intro w x h
    simp only [List.mem_cons, Prod.mk.injEq, List.not_mem_nil, or_false] at h
    rcases h with h | h | h | h | h | h | h | h | h | h | h | h | h | h | h | h <;>
      (obtain ⟨rfl, rfl⟩ := h; rfl)

end Sys2Proof.Machine
end

section
/-! SUPPORT. What records, fault stops, resets and halts leave alone: every reading of the state that is blind to the units they work
on. -/

namespace Sys2Proof.Machine

/-! ## Records of severity CONTEXT and above -/

/-- π reads nothing that announcing a record rewrites. -/
structure BlindToAnnounce {α : Type} (π : State → α) : Prop extends BlindToReport π where
  svc : ∀ s x, π { s with svc := x } = π s
  last : ∀ s c q code, π (s.onCtx c fun x => { x with lastSeq := q, lastCode := code }) = π s

/-- π reads nothing that a record of any severity rewrites, the work that it calls for included. -/
structure BlindToRecord {α : Type} (π : State → α) : Prop extends BlindToAnnounce π where
  work : ∀ s l t, π { s with err := { s.err with handlings := l, todo := t } } = π s

theorem State.announce_kept {α : Type} {π : State → α} (h : BlindToAnnounce π) (s : State) (r : ErrRec) : π (s.announce r) = π s := by
  unfold State.announce
  refine ite_kept rfl ?_
  rw [State.notify_kept h.toBlindToReport, State.pushRecord_kept h.toBlindToReport]
  have hctx : π (if r.ctxValid then s.onCtx r.ctx.toNat fun c => { c with lastSeq := s.err.seqNext, lastCode := r.code } else s) = π s :=
    ite_kept (h.last s _ _ _) rfl
  generalize (if r.ctxValid then _ else s) = s1 at hctx
  split
  · rw [h.svc, hctx]
  · exact hctx

section
variable {α : Type} {π : State → α} (h : BlindToRecord π)
include h

theorem State.record_kept (s : State) (code : W16) (sev : Severity) (u : W16) (c : Option Nat) (d : List W64) (start : Option Scope)
    (designed remote : Bool) (todo : Option Todo) : π (s.record code sev u c d start designed remote todo) = π s := by
  have hput (r : ErrRec) : π (if 2 ≤ sev.code then s.announce r else s.pushRecord r) = π s :=
    ite_kept (State.announce_kept h.toBlindToAnnounce s r) (State.pushRecord_kept h.toBlindToReport s r)
  have hbegin (r : ErrRec) (sc : Scope) (t : Todo) (q : W64) :
      π ((if 2 ≤ sev.code then s.announce r else s.pushRecord r).begin sc t q) = π s := (h.work _ _ _).trans (hput r)
  have hhalt (r : ErrRec) (l : List Todo) : π { (if 2 ≤ sev.code then s.announce r else s.pushRecord r) with
      err := { (if 2 ≤ sev.code then s.announce r else s.pushRecord r).err with todo := l } } = π s := (h.work _ _ l).trans (hput r)
  unfold State.record
  dsimp only
  split
  · split
    · split
      · exact hbegin _ _ _ _
      · exact hput _
    · split
      · exact hbegin _ _ _ _
      · exact hhalt _ _
  · split
    · exact hhalt _ _
    · split
      · exact hbegin _ _ _ _
      · exact hput _

theorem State.ctxFault_kept
    (hstop : ∀ s c, π (s.onCtx c fun x => { x with state := .faulted, stopping := true, drained := false, ending := false }) = π s)
    (hcount : ∀ s x, π { s with err := { s.err with faultCnt := x } } = π s) (s : State) (c : Nat) (code : W16) (u : W16) (d : List W64)
    (sev : Severity) (designed remote : Bool) (start : Option Scope) : π (s.ctxFault c code u d sev designed remote start) = π s := by
  unfold State.ctxFault
  split
  · rfl
  · exact ite_kept (State.record_kept h s _ _ _ _ _ _ _ _ _) rfl
  · exact (State.record_kept h _ _ _ _ _ _ _ _ _ _).trans ((hcount (State.onCtx _ _ _) _).trans (hstop s c))

end

/-! ## Fault stops and context resets -/

/-- π reads nothing that discarding a context's cells and telling its peers rewrites. -/
structure BlindToPurge {α : Type} (π : State → α) : Prop where
  fab : ∀ s x, x.filters = s.fab.filters → π { s with fab := x } = π s
  lnk : ∀ s x, π { s with lnk := x } = π s
  engines : ∀ s x, π { s with engines := x } = π s
  abortTx : ∀ s x, π { s with err := { s.err with abortTx := x } } = π s
  purgeCnt : ∀ s x, π { s with err := { s.err with purgeCnt := x } } = π s
  remoteHold : ∀ s c b, π (s.onCtx c fun x => { x with remoteHold := b }) = π s
  resetSent : ∀ s c b, π (s.onCtx c fun x => { x with resetSent := b }) = π s
  abortSent : ∀ s c b, π (s.onCtx c fun x => { x with abortSent := b }) = π s

/-- π reads nothing that stopping a context and discarding its cells rewrites. -/
structure BlindToStop {α : Type} (π : State → α) : Prop extends BlindToPurge π where
  eth : ∀ s x, π { s with eth := x } = π s
  vats : ∀ s x, π { s with vats := x } = π s
  planes : ∀ s x, π { s with planes := x } = π s
  tiles : ∀ s x, π { s with tiles := x } = π s
  churn : ∀ s x, π { s with churn := x } = π s
  push : ∀ s r, π (s.pushRecord r) = π s

/-- A context reset up to the context's own registers: the context's work stops and its cells are discarded (R465). -/
def State.ctxResetCells (s : State) (c : Nat) : State :=
  let s1 := ((s.stopWork c).flexReleaseCtx c).flexRefuseAll fun r => r.ctx == c
  let s2 := (s1.qpsError c).sendReset c
  let s2 := if (s.ctx c).state = .faulted then s2.sendGroupAbort c else s2
  (s2.purge s.fab.pkgId.toNat c).dropOps fun o => o.ctx == c && o.port != 52

theorem State.ctxReset_eq (s : State) (c : Nat) : s.ctxReset c = (s.ctxResetCells c).onCtx c fun x =>
    { x with stopping := true, resetting := true, suspect := false, replaying := false } := rfl

section
variable {α : Type} {π : State → α} (h : BlindToPurge π)
include h

theorem BlindToPurge.toCells : BlindToCells π :=
  ⟨fun s _ => h.fab s _ rfl, fun s _ => h.fab s _ rfl, fun s _ => h.fab s _ rfl, fun s _ => h.fab s _ rfl, fun s _ => h.lnk s _, fun s _ => h.lnk s _⟩

theorem State.onEngine_kept (s : State) (e : Nat) (f : Engine → Engine) : π (s.onEngine e f) = π s := h.engines s _

theorem State.removeJobs_kept (s : State) (c : Nat) : π (s.removeJobs c) = π s :=
  foldl_kept (fun a e => ite_kept (State.onEngine_kept h a e _) rfl) _ s

theorem State.sendAbort_kept (s : State) (c k : Nat) (q : W64) (code : W16) : π (s.sendAbort c k q code) = π s :=
  (h.abortTx (State.onCtx _ _ _) _).trans
    ((h.remoteHold _ c true).trans (foldl_kept (fun a _ => State.launch_kept h.toCells a _) _ s))

theorem State.sendReset_kept (s : State) (c : Nat) : π (s.sendReset c) = π s :=
  ite_kept rfl ((h.resetSent _ c true).trans (State.sendAbort_kept h s _ _ _ _))

theorem State.sendGroupAbort_kept (s : State) (c : Nat) : π (s.sendGroupAbort c) = π s :=
  ite_kept rfl ((h.abortSent _ c true).trans (State.sendAbort_kept h s _ _ _ _))

theorem State.purge_kept (s : State) (p c : Nat) : π (s.purge p c) = π s := by
  have hall (a : Fabric) (b : Links) (n : BitVec 64) (ha : a.filters = s.fab.filters) : π { s with fab := a, lnk := b, err := { s.err with purgeCnt := n } } = π s :=
    (h.purgeCnt { s with fab := a, lnk := b } n).trans ((h.lnk { s with fab := a } b).trans (h.fab s a ha))
  exact hall _ _ _ rfl

theorem State.withhold_kept (s : State) (p : Nat) (t : W16) (d : Nat) : π (s.withhold p t d) = π s := h.fab s _ rfl

theorem State.dropOps_kept (s : State) (f : Op → Bool) : π (s.dropOps f) = π s :=
  (foldl_kept (fun a _ => State.withhold_kept h a _ _ _) _ _).trans (h.fab s _ rfl)

end

section
variable {α : Type} {π : State → α} (h : BlindToStop π)
include h

theorem BlindToStop.toSwap : BlindToSwap π := ⟨h.vats, h.planes, h.tiles, fun s _ => h.fab s _ rfl⟩

theorem State.stopWork_kept (s : State) (c : Nat) : π (s.stopWork c) = π s := by
  have hreads : π (s.dropReads c) = π s := h.fab s _ rfl
  unfold State.stopWork
  dsimp only
  rw [State.refreshRun_kept h.toSwap, State.swapAway_kept h.toSwap, State.removeJobs_kept h.toBlindToPurge]
  split
  · split
    · rw [State.stopTiles_kept h.toSwap, State.onPlane_kept h.toSwap, State.squashPlane_kept h.toSwap, hreads]
    · rw [State.onPlane_kept h.toSwap, State.squashPlane_kept h.toSwap, hreads]
  · exact hreads

theorem State.flexRefuse_kept (s : State) (r : FlexReq) : π (s.flexRefuse r) = π s := (h.push _ _).trans (h.churn s _)

theorem State.flexRefuseAll_kept (s : State) (f : FlexReq → Bool) : π (s.flexRefuseAll f) = π s :=
  (foldl_kept (State.flexRefuse_kept h) _ _).trans (h.churn s _)

theorem State.qpsError_kept (s : State) (c : Nat) : π (s.qpsError c) = π s := h.eth s _

theorem State.faultStop_kept (s : State) (c : Nat) : π (s.faultStop c) = π s := by
  unfold State.faultStop
  rw [State.sendGroupAbort_kept h.toBlindToPurge, State.flexRefuseAll_kept h, State.qpsError_kept h, State.flexReleaseCtx_kept h.churn,
    State.stopWork_kept h]

theorem State.ctxResetCells_kept (s : State) (c : Nat) : π (s.ctxResetCells c) = π s := by
  have hsent : π ((((s.stopWork c).flexReleaseCtx c).flexRefuseAll fun r => r.ctx == c).qpsError c |>.sendReset c) = π s := by
    rw [State.sendReset_kept h.toBlindToPurge, State.qpsError_kept h, State.flexRefuseAll_kept h, State.flexReleaseCtx_kept h.churn,
      State.stopWork_kept h]
  unfold State.ctxResetCells
  refine (State.dropOps_kept h.toBlindToPurge _ _).trans ((State.purge_kept h.toBlindToPurge _ _ _).trans ?_)
  exact ite_kept ((State.sendGroupAbort_kept h.toBlindToPurge _ _).trans hsent) hsent

end

/-! ## The work of resets and halts -/

/-- π reads none of the units that stops, resets and halts work on. -/
structure BlindToWork {α : Type} (π : State → α) : Prop where
  fab : ∀ s x, π { s with fab := x } = π s
  lnk : ∀ s x, π { s with lnk := x } = π s
  kcp : ∀ s x, π { s with kcp := x } = π s
  eth : ∀ s x, π { s with eth := x } = π s
  err : ∀ s x, π { s with err := x } = π s
  ctxs : ∀ s x, π { s with ctxs := x } = π s
  svc : ∀ s x, π { s with svc := x } = π s
  vats : ∀ s x, π { s with vats := x } = π s
  planes : ∀ s x, π { s with planes := x } = π s
  tiles : ∀ s x, π { s with tiles := x } = π s
  churn : ∀ s x, π { s with churn := x } = π s
  loads : ∀ s x, π { s with loads := x } = π s
  engines : ∀ s x, π { s with engines := x } = π s
  creams : ∀ s x, π { s with creams := x } = π s
  mc : ∀ s x, π { s with mc := x } = π s
  inv : ∀ s x, π { s with inv := x } = π s
  thm : ∀ s x, π { s with thm := x } = π s

section
variable {α : Type} {π : State → α} (h : BlindToWork π)
include h

theorem BlindToWork.toStop : BlindToStop π :=
  ⟨⟨fun s _ _ => h.fab s _, h.lnk, h.engines, fun s _ => h.err s _, fun s _ => h.err s _, fun s _ _ => h.ctxs s _, fun s _ _ => h.ctxs s _,
    fun s _ _ => h.ctxs s _⟩, h.eth, h.vats, h.planes, h.tiles, h.churn, fun s _ => h.err s _⟩

theorem BlindToWork.toCells : BlindToCells π := h.toStop.toBlindToPurge.toCells

theorem BlindToWork.toRecord : BlindToRecord π :=
  ⟨⟨⟨⟨h.toCells, h.kcp, h.eth⟩, h.toStop.push⟩, h.svc, fun s _ _ _ => h.ctxs s _⟩, fun s _ _ => h.err s _⟩

/-- A fault of a context works on the units alone. -/
theorem BlindToWork.ctxFault (s : State) (c : Nat) (code : W16) (u : W16) (d : List W64) (sev : Severity) (designed remote : Bool)
    (start : Option Scope) : π (s.ctxFault c code u d sev designed remote start) = π s :=
  State.ctxFault_kept h.toRecord (fun s _ => h.ctxs s _) (fun s _ => h.err s _) s c code u d sev designed remote start

theorem BlindToWork.toReport : BlindToReport π := h.toRecord.toBlindToReport

theorem BlindToWork.toSwap : BlindToSwap π := h.toStop.toSwap

theorem BlindToWork.toLoads : BlindToLoads π := ⟨h.toReport, h.loads⟩

/-! Several units at once. -/

theorem BlindToWork.tiles_planes_fab_vats (s : State) (a : Tbl Tile) (b : Tbl Plane) (c : Fabric) (d : Tbl Vat) :
    π { s with tiles := a, planes := b, fab := c, vats := d } = π s :=
  (h.vats { s with tiles := a, planes := b, fab := c } d).trans ((h.fab { s with tiles := a, planes := b } c).trans
    ((h.planes { s with tiles := a } b).trans (h.tiles s a)))

theorem BlindToWork.fab_churn (s : State) (a : Fabric) (b : Churn) : π { s with fab := a, churn := b } = π s :=
  (h.churn { s with fab := a } b).trans (h.fab s a)

theorem BlindToWork.inv_mc (s : State) (a : Inventory) (b : Mc) : π { s with inv := a, mc := b } = π s :=
  (h.mc { s with inv := a } b).trans (h.inv s a)

theorem BlindToWork.err_mc (s : State) (a : Errors) (b : Mc) : π { s with err := a, mc := b } = π s :=
  (h.mc { s with err := a } b).trans (h.err s a)

theorem BlindToWork.lnk_kcp_mc_err (s : State) (b : Links) (c : Kcp) (d : Mc) (e : Errors) :
    π { s with lnk := b, kcp := c, mc := d, err := e } = π s :=
  (h.err { s with lnk := b, kcp := c, mc := d } e).trans ((h.mc { s with lnk := b, kcp := c } d).trans
    ((h.kcp { s with lnk := b } c).trans (h.lnk s b)))

theorem State.ctxReset_kept (s : State) (c : Nat) : π (s.ctxReset c) = π s := (h.ctxs _ _).trans (State.ctxResetCells_kept h.toStop s c)

/-! ### Resets -/

theorem State.wipeVat_kept (s : State) (v : Nat) (f : Bool) : π (s.wipeVat v f) = π s :=
  h.tiles_planes_fab_vats s _ _ _ _

theorem State.takeOver_kept (s : State) (f : ResetKind → Bool) : π (s.takeOver f) = π s := h.err s _

theorem State.startReset_kept (s : State) (k : ResetKind) : π (s.startReset k) = π s := h.err s _

theorem State.vatReset_kept (s : State) (v : Nat) (hang : Bool) : π (s.vatReset v hang) = π s := by
  unfold State.vatReset
  split
  · rw [State.startReset_kept h, State.onVat_kept h.toSwap, State.abortLoads_kept h.toLoads, State.wipeVat_kept h,
      State.stopTiles_kept h.toSwap]
    refine foldl_kept (fun a c => (h.ctxs _ _).trans ?_) _ s
    have hp := h.toStop.toBlindToPurge
    rw [State.dropOps_kept hp, State.purge_kept hp, State.sendReset_kept hp, State.removeJobs_kept hp]
  · rw [State.startReset_kept h, State.onVat_kept h.toSwap, State.takeOver_kept h, State.abortLoads_kept h.toLoads,
      State.wipeVat_kept h, State.stopTiles_kept h.toSwap]
    refine foldl_kept (fun a c => ?_) _ s
    rw [State.removeJobs_kept h.toStop.toBlindToPurge, h.ctxFault]

theorem State.failRequests_kept (s : State) (a b c : Nat → Bool) (f : Assembly → Bool) (all : Bool) :
    π (s.failRequests a b c f all) = π s :=
  (foldl_kept (fun a _ => State.launchAll_kept h.toCells a _) _ _).trans (h.fab s _)

theorem State.failPort_kept (s : State) (p : Nat) : π (s.failPort p) = π s := (h.fab _ _).trans (State.failRequests_kept h s _ _ _ _ _)

theorem State.onPort_kept (s : State) (p : Nat) (f : Port → Port) : π (s.onPort p f) = π s := h.churn s _

theorem State.darkPort_kept (s : State) (p : Nat) : π (s.darkPort p) = π s := by
  unfold State.darkPort
  refine ite_kept rfl ((State.note_kept h.toReport _ _ _ _ _ _).trans ((h.fab_churn _ _ _).trans ?_))
  rw [State.onPort_kept h, State.flexRefuseAll_kept h.toStop]
  exact (h.churn _ _).trans (State.failPort_kept h s p)

theorem State.clearRange_kept (s : State) (a n : Nat) : π (s.clearRange a n) = π s := h.fab s _

theorem State.wipeDie_kept (s : State) (d : Nat) : π (s.wipeDie d) = π s := by
  unfold State.wipeDie
  refine (h.inv_mc _ _ _).trans ((foldl_kept (fun a c => ?_) _ _).trans (foldl_kept (fun a v => ?_) _ s))
  · exact (State.darkPort_kept h _ _).trans ((h.creams _ _).trans (State.clearRange_kept h a _ _))
  · refine (State.onVat_kept h.toSwap _ _ _).trans ((h.planes _ _).trans ?_)
    rw [State.clearRange_kept h, State.wipeVat_kept h, State.stopTiles_kept h.toSwap]

theorem State.loseContexts_kept (s : State) (vs : List Nat) : π (s.loseContexts vs) = π s :=
  foldl_kept (fun a _ => foldl_kept (fun b _ => h.ctxFault b _ _ _ _ _ _ _ _) _ a) _ s

theorem State.mendSensors_kept (s : State) (f : Nat → Bool) : π (s.mendSensors f) = π s := h.thm s _

theorem State.dieReset_kept (s : State) (d : Nat) : π (s.dieReset d) = π s := by
  unfold State.dieReset
  rw [State.startReset_kept h, State.takeOver_kept h, State.mendSensors_kept h, State.wipeDie_kept h, State.abortLoads_kept h.toLoads,
    State.loseContexts_kept h]

theorem State.computeReset_kept (s : State) : π s.computeReset = π s := by
  unfold State.computeReset
  rw [State.startReset_kept h, State.takeOver_kept h, State.mendSensors_kept h]
  exact (foldl_kept (fun a d => State.wipeDie_kept h a d) _ _).trans
    ((State.abortLoads_kept h.toLoads _ _).trans (State.loseContexts_kept h s _))

theorem State.closeSession_kept (s : State) (k r : Nat) : π (s.closeSession k r) = π s :=
  ite_kept ((h.kcp _ _).trans (State.hostSend_kept h.toReport.toBlindToSent s _)) rfl

theorem State.linkFall_kept (s : State) (l : Nat) : π (s.linkFall l) = π s :=
  (foldl_kept (State.launch_kept h.toCells) _ _).trans
    ((foldl_kept (fun a _ => State.launchAll_kept h.toCells a _) _ _).trans (h.lnk s _))

theorem State.mgmtResetWork_kept (s : State) : π s.mgmtResetWork = π s := by
  unfold State.mgmtResetWork
  refine (h.lnk_kcp_mc_err (State.lockMonitor _) _ _ _ _).trans ((h.svc _ _).trans ?_)
  refine (foldl_kept (fun a l => ite_kept ?_ rfl) _ _).trans (foldl_kept (fun a k => State.closeSession_kept h a k _) _ s)
  exact (State.record_kept h.toRecord _ _ _ _ _ _ _ _ _ _).trans (State.linkFall_kept h a l)

/-! ### Halts and the work list -/

theorem State.dumpStart_kept (s : State) (t : Nat) (q : W64) : π (s.dumpStart t q) = π s :=
  ite_kept (State.note_kept h.toReport s _ _ _ _ _) (h.err s _)

theorem State.haltWork_kept (s : State) (k : Nat) (q : W64) : π (s.haltWork k q) = π s := by
  unfold State.haltWork
  refine (h.err_mc _ _ _).trans ?_
  rw [State.announce_kept h.toRecord.toBlindToAnnounce, State.dumpStart_kept h]
  refine (foldl_kept (fun a v => (h.vats _ _).trans (State.stopTiles_kept h.toSwap a v)) _ _).trans ?_
  exact (foldl_kept (fun a c => h.ctxFault a _ _ _ _ _ _ _ _) _ _).trans (h.err s _)

theorem State.doTodo_kept (s : State) (t : Todo) : π (s.doTodo t) = π s := by
  cases t with
  | faultStop c => exact State.faultStop_kept h.toStop s c
  | ctxReset c => exact State.ctxReset_kept h s c
  | vat v hang => exact State.vatReset_kept h s v hang
  | die d => exact State.dieReset_kept h s d
  | compute => exact State.computeReset_kept h s
  | mgmt => exact State.mgmtResetWork_kept h s
  | halt k q => exact State.haltWork_kept h s k q

theorem State.drainTodo_kept (n : Nat) (s : State) : π (State.drainTodo n s) = π s := by
  induction n generalizing s with
  | zero => rfl
  | succ n ih =>
    unfold State.drainTodo
    split
    · rfl
    · rw [ih, State.doTodo_kept h, h.err]

theorem State.finish_kept (s : State) : π s.finish = π s := State.drainTodo_kept h 400 s

end

end Sys2Proof.Machine
end

section
/-! SUPPORT. The energy count, the power controller, rail faults and the IR-drop cap: the settled statements. -/

namespace Sys2Proof.Machine

theorem blindToReport_pwr : BlindToReport fun t => t.pwr :=
  ⟨⟨⟨fun _ _ => rfl, fun _ _ => rfl, fun _ _ => rfl, fun _ _ => rfl, fun _ _ => rfl, fun _ _ => rfl⟩,
    fun _ _ => rfl, fun _ _ => rfl⟩, fun _ _ => rfl⟩

/-! ## The power controller -/

/-- The end of a grace whose mean lies above the limit lowers the cap one step at once (R403, R404). -/
theorem State.enterEnforce_eq {s : State} (habove : meanAbove s.pwr.samples 10 s.effLimit 100 = true) (hcap : s.pwr.cap ≠ 32) :
    s.enterEnforce = { s with pwr := { s.pwr with
      state := .enforce, enforceCnt := s.pwr.enforceCnt + 1, enforceDone := false, unreached := false, belowRun := 0,
      cap := BitVec.ofNat 7 (max 32 ((if s.pwr.cap = 0 then s.fuses.variant.ceiling else s.pwr.cap.toNat) - 1)) } } :=
  (if_pos habove).trans (if_neg hcap)

theorem State.raiseCap_of_below {s : State} (hcap : s.pwr.cap ≠ 0) (hbelow : s.pwr.cap.toNat + 1 < s.fuses.variant.ceiling) :
    s.raiseCap = { s with pwr := { s.pwr with cap := BitVec.ofNat 7 (s.pwr.cap.toNat + 1) } } :=
  if_neg (by simp only [hcap, false_or, Nat.not_le]; exact hbelow)

/-- No variant's ceiling needs an eighth bit. -/
theorem Variant.ceiling_lt (v : Variant) : v.ceiling < 128 := by
  cases v <;> decide

/-- Settles O2: the count by the remainder of its units, the controller by its states. -/
theorem energyAndPowerController : Obligations.EnergyAndPowerController := by
  refine ⟨fun cv a b s hfrac hfits => ?sample, fun s hstate hsince habove => ?grace, fun s hstate habove => ?ended,
    fun c s hc habove hcap => ?enforce, fun s hstate hcap hbelow => ?raise, fun s hstate htop => ?normal⟩
  case sample =>
    refine ⟨_, rfl, rfl, ?_, Nat.mod_lt _ (by decide), rfl, rfl, rfl, rfl, rfl, rfl⟩
    show (s.pwr.energy + BitVec.ofNat 64 ((s.pwr.energyFrac + cv.toNat * (a.toNat + b.toNat)) / 10000)).toNat * 10000 +
      (s.pwr.energyFrac + cv.toNat * (a.toNat + b.toNat)) % 10000 = _
    generalize cv.toNat * (a.toNat + b.toNat) = p at hfits ⊢
    rw [BitVec.toNat_add, BitVec.toNat_ofNat, Nat.add_mod_mod, Nat.mod_eq_of_lt hfits]
    omega
  case grace =>
    have hcompare : s.comparePower = s.enterGrace := by
      unfold State.comparePower
      rw [hstate]
      simp [habove, hsince]
    have hpwr : s.enterGrace.pwr = { s.pwr with state := .grace, throttleCnt := bump s.pwr.throttleCnt } :=
      State.notify_kept (π := fun t => t.pwr) blindToReport_pwr _ _ _
    refine ⟨s.enterGrace, congrArg Host.Outcome.next hcompare, ?_, ?_, ?_, State.notify_notifySeq _ _ _⟩ <;> simp only [hpwr, bump_one]
  case ended =>
    have hcompare : s.comparePower =
        { s with pwr := { s.pwr with state := .normal, normalSince := some s.clk.now } }.note 0x0403 .info (unitRail 0) := by
      unfold State.comparePower
      rw [hstate]
      simp [habove]
    exact ⟨_, congrArg Host.Outcome.next hcompare, rfl, rfl, rfl, rfl⟩
  case enforce =>
    have hexec : exec c s = .next s.enterEnforce := by
      rcases hc with ⟨rfl, hstate⟩ | ⟨pairB, rfl, hstate⟩
      · exact congrArg Host.Outcome.next (if_pos hstate)
      · exact congrArg Host.Outcome.next (if_neg hstate)
    rw [hexec, State.enterEnforce_eq habove hcap]
    exact ⟨_, rfl, rfl, rfl, rfl, rfl⟩
  case raise =>
    have hexec : exec .releaseStep s = .next s.raiseCap := congrArg Host.Outcome.next (if_pos hstate)
    rw [hexec, State.raiseCap_of_below hcap hbelow]
    refine ⟨_, rfl, rfl, ?_, hstate⟩
    have := s.fuses.variant.ceiling_lt
    exact Nat.mod_eq_of_lt (by omega)
  case normal =>
    have hexec : exec .releaseStep s = .next s.raiseCap := congrArg Host.Outcome.next (if_pos hstate)
    exact ⟨_, hexec.trans (congrArg Host.Outcome.next (if_pos (.inr htop))), rfl, rfl⟩

/-! ## Rails and the IR drop -/

/-- What a rail fault leaves in the board, the power unit, the fuses and the clock. -/
def State.railView (s : State) : Board × Power × Fuses × Clock := (s.board, s.pwr, s.fuses, s.clk)

theorem blindToWork_railView : BlindToWork State.railView := by
  constructor <;> intros <;> rfl

theorem State.retireVat_kept {α : Type} {π : State → α} (h : BlindToWork π) (s : State) (v cause : Nat) :
    π (s.retireVat v cause) = π s := by
  unfold State.retireVat State.dropVat State.noteRetired
  refine (h.inv _ _).trans ((State.failRequests_kept h _ _ _ _ _ _).trans ((h.inv _ _).trans ?_))
  rw [State.onVat_kept h.toSwap, State.abortLoads_kept h.toLoads, State.stopTiles_kept h.toSwap]
  exact (foldl_kept (fun a c => h.ctxFault a _ _ _ _ _ _ _ _) _ _).trans
    (State.record_kept h.toRecord s _ _ _ _ _ _ _ _ _)

theorem State.retireCream_kept {α : Type} {π : State → α} (h : BlindToWork π) (s : State) (c cause : Nat) :
    π (s.retireCream c cause) = π s := by
  unfold State.retireCream State.noteRetired
  refine (State.failRequests_kept h _ _ _ _ _ _).trans ((h.inv _ _).trans ((h.creams _ _).trans ?_))
  exact State.record_kept h.toRecord s _ _ _ _ _ _ _ _ _

theorem State.retireStack_kept {α : Type} {π : State → α} (h : BlindToWork π) (hhbm : ∀ s x, π { s with hbm := x } = π s)
    (s : State) (k cause : Nat) : π (s.retireStack k cause) = π s := by
  unfold State.retireStack State.noteRetired
  refine (State.failRequests_kept h _ _ _ _ _ _).trans ((h.inv _ _).trans ((hhbm _ _).trans ?_))
  exact State.record_kept h.toRecord s _ _ _ _ _ _ _ _ _

/-- A rail fault's own trace: PWR_OK falls and the rail is noted (R397). -/
theorem State.railOut_railView (s : State) (r : Rail) (mv : Nat) : (s.railOut r mv).railView =
    ({ s.board with pwrOk := false }, { s.pwr with badRails := r :: s.pwr.badRails }, s.fuses, s.clk) := by
  have h := blindToWork_railView
  have hrecord (a : State) (start : Option Scope) : (a.record 0x0401 .unit (unitRail (railNum r)) none
      [BitVec.ofNat 64 (railNum r), BitVec.ofNat 64 mv] start).railView = a.railView :=
    State.record_kept h.toRecord a _ _ _ _ _ _ _ _ _
  have hstack (a : State) (k cause : Nat) : (a.retireStack k cause).railView = a.railView :=
    State.retireStack_kept h (fun _ _ => rfl) a k cause
  have hvat (a : State) (v : Nat) (f : Vat → Vat) (c : Prop) [Decidable c] (start : Option Scope) :
      (if c then ((a.onVat v f).record 0x0401 .unit (unitRail (railNum r)) none [BitVec.ofNat 64 (railNum r), BitVec.ofNat 64 mv]
          none).retireVat v 4
        else (a.onVat v f).record 0x0401 .unit (unitRail (railNum r)) none [BitVec.ofNat 64 (railNum r), BitVec.ofNat 64 mv]
          start).railView = a.railView := by
    split
    · exact (State.retireVat_kept h _ _ _).trans (hrecord _ _)
    · exact hrecord _ _
  unfold State.railOut
  refine (State.finish_kept h _).trans ?_
  cases r with
  | vat v => exact hvat _ _ _ _ _
  | ret v => exact hvat _ _ _ _ _
  | cd d => exact hrecord _ _
  | cream c => exact (State.retireCream_kept h _ _ _).trans (hrecord _ _)
  | churn => exact (h.err _ _).trans (hrecord _ _)
  | hbm k => exact (hstack _ _ _).trans (hrecord _ _)
  | vddq k => exact (hstack _ _ _).trans (hrecord _ _)
  | iod => exact (h.err _ _).trans (hrecord _ _)
  | bus6 => exact (h.err _ _).trans (hrecord _ _)

/-- The cap of a loss that does not retire its vat (R398). -/
theorem irCapOf_of_le {loss : Nat} (h : loss ≤ 200) : irCapOf loss = some (if loss ≤ 50 then 0 else if loss ≤ 100 then 64 else 48) := by
  rw [irCapOf, if_pos h]
  split
  · rfl
  · split <;> rfl

theorem capMin_lt {a b n : Nat} (ha : a < n) (hb : b < n) : capMin a b < n := by
  unfold capMin
  split
  · exact hb
  · split
    · exact ha
    · omega

/-- A loss outside a compute reset lowers its vat's cap and no other (R398). -/
theorem State.irDrop_lowers (s : State) (v : Nat) {loss c : Nat} (hcap : irCapOf loss = some c) (hc : c < 128) :
    s.irDrop v loss false = { s with vats := (s.irDrop v loss false).vats, err := (s.irDrop v loss false).err } ∧
      ((s.irDrop v loss false).vat v).irCap.toNat = capMin (s.vat v).irCap.toNat c ∧
      (s.irDrop v loss false).err.todo = s.err.todo ∧ ∀ w, w ≠ v → (s.irDrop v loss false).vat w = s.vat w := by
  have hlt : capMin (s.vat v).irCap.toNat c < 2 ^ 7 := capMin_lt (s.vat v).irCap.isLt hc
  unfold State.irDrop
  rw [hcap]
  dsimp only
  simp only [Bool.false_eq_true, if_false]
  split
  · rename_i hsame
    exact ⟨rfl, hsame.symm, rfl, fun _ _ => rfl⟩
  · refine ⟨rfl, ?_, rfl, fun w hw => ?_⟩
    · rw [State.note_vat, State.onVat_vat_same]
      exact Nat.mod_eq_of_lt hlt
    · rw [State.note_vat, State.onVat_vat, if_neg hw]

/-- Settles O7: rail faults by what the board, the power unit, the fuses and the clock keep through every reset they call for. -/
theorem railsAndIrDrop : Obligations.RailsAndIrDrop := by
  refine ⟨fun r mv s => ?_, fun v loss s htodo hin hloss hreset => ?_⟩
  · have h := s.railOut_railView r mv
    simp only [State.railView, Prod.mk.injEq] at h
    obtain ⟨hboard, hpwr, hfuses, hclk⟩ := h
    refine ⟨s.railOut r mv, rfl, ?_, ?_, hfuses, congrArg Clock.now hclk⟩
    · rw [hboard]
    · rw [hpwr]
  · have hcap : (if loss ≤ 50 then 0 else if loss ≤ 100 then 64 else 48) < 128 := by split <;> (try split) <;> decide
    obtain ⟨hrest, hvat, htodo', hother⟩ := s.irDrop_lowers v.val (irCapOf_of_le hloss) hcap
    refine ⟨s.irDrop v.val loss false, ?_, hrest, hvat, hother⟩
    show Host.Outcome.next (State.finish (if s.vatIn v.val then s.irDrop v.val loss (s.err.resets.any fun r => r.1 == .compute) else s)) = _
    rw [if_pos hin, hreset, State.finish_of_todo_nil _ (htodo'.trans htodo)]

end Sys2Proof.Machine
end

section
/-! SUPPORT. The reference, die clocks, field PLLs and the roots of the vats: the settled statements. -/

namespace Sys2Proof.Machine

/-! ## Roots -/

theorem capMin_le_right {a b : Nat} (hb : 0 < b) : capMin a b ≤ b := by
  unfold capMin
  split
  · exact Nat.le_refl b
  · rw [if_neg (by omega)]
    exact Nat.min_le_right a b

theorem Variant.ceiling_ge (v : Variant) : 32 ≤ v.ceiling := by
  cases v <;> decide

/-- What the caps allow lies between 0.8 GHz and the ceiling (R378). -/
theorem State.capped_bounds (s : State) (v : Nat) (b : Bool) : 32 ≤ s.capped v b ∧ s.capped v b ≤ s.fuses.variant.ceiling := by
  have hceil := s.fuses.variant.ceiling_ge
  refine ⟨Nat.le_max_left .., Nat.max_le.mpr ⟨hceil, capMin_le_right (by omega)⟩⟩

theorem State.rootTarget_bounds (s : State) {v : Nat} (hfixed : 32 ≤ s.fixedFreq v) :
    32 ≤ s.rootTarget v ∧ s.rootTarget v ≤ s.fuses.variant.ceiling := by
  obtain ⟨hlow, hhigh⟩ := s.capped_bounds v true
  unfold State.rootTarget
  split <;> omega

/-- Noting an override leaves every root where it stands. -/
theorem State.noteOverride_vat (s : State) (v : Nat) :
    s.noteOverride v = { s with vats := (s.noteOverride v).vats, err := (s.noteOverride v).err } ∧
      ((s.noteOverride v).vat v).freqNow = (s.vat v).freqNow ∧ ∀ w, w ≠ v → (s.noteOverride v).vat w = s.vat w := by
  have hother (f : Vat → Vat) (w : Nat) (hw : w ≠ v) : (s.onVat v f).vat w = s.vat w := by rw [State.onVat_vat, if_neg hw]
  unfold State.noteOverride
  dsimp only
  split
  · exact ⟨rfl, by rw [State.note_vat, State.onVat_vat_same], fun w hw => (State.note_vat ..).trans (hother _ w hw)⟩
  · split
    · exact ⟨rfl, by rw [State.onVat_vat_same], hother _⟩
    · exact ⟨rfl, rfl, fun _ _ => rfl⟩

/-- The first step of a running root (R378). -/
theorem State.stepFreq_of_run {s : State} {v : Nat} (hrun : (s.vat v).run = .run) (hlow : 32 ≤ (s.vat v).freqNow.toNat) :
    s.stepFreq v = if (s.vat v).freqNow.toNat < s.rootTarget v then (s.vat v).freqNow.toNat + 1
      else if s.rootTarget v < (s.vat v).freqNow.toNat then (s.vat v).freqNow.toNat - 1 else (s.vat v).freqNow.toNat := by
  have hroot : (s.vat v).rootRuns = true := by rw [Vat.rootRuns, hrun]
  unfold State.stepFreq
  simp only [hroot, Bool.not_true, Bool.false_eq_true, if_false, hrun, reduceCtorEq, Nat.max_eq_right hlow]

/-- Recording a fallback leaves the root as it stands. -/
theorem State.noteFallback_vat (s : State) (v : Nat) :
    ((s.noteFallback v).vat v).freqNow = (s.vat v).freqNow ∧ ((s.noteFallback v).vat v).fallbackCnt = (s.vat v).fallbackCnt ∧
      ((s.noteFallback v).vat v).stretchCnt = (s.vat v).stretchCnt ∧
      ((s.noteFallback v).vat v).fallbackCap = (s.vat v).fallbackCap := by
  unfold State.noteFallback
  dsimp only
  split
  · rw [State.note_vat, State.onVat_vat_same]
    exact ⟨rfl, rfl, rfl, rfl⟩
  · exact ⟨rfl, rfl, rfl, rfl⟩

/-- What a fallback does to its vat: the present frequency falls to 15/16, rounded up, unless a fallback holds it (R381). -/
def Vat.fallenBack (x : Vat) : Vat :=
  { x with fallbackCap := some (x.fallbackCap.getD (BitVec.ofNat 7 (max 32 (ceilDiv (15 * x.freqNow.toNat) 16)))),
           fallbackCnt := bump x.fallbackCnt,
           freqNow := if x.fallbackCap.isNone then
             BitVec.ofNat 7 (min x.freqNow.toNat (max 32 (ceilDiv (15 * x.freqNow.toNat) 16))) else x.freqNow }

theorem State.droop_of_masked {s : State} {v : Nat} {c : W64} (hroot : (s.vat v).rootRuns = true)
    (hlast : (s.vat v).lastStretch = some c) (hmask : (s.vat v).cycles.toNat ≤ c.toNat + 1023) :
    s.droop v = (s.onVat v fun _ => (s.vat v).fallenBack).noteFallback v := by
  have hin : (s.vat v).lastStretch.all (fun c => decide (c.toNat + 1023 < (s.vat v).cycles.toNat)) = false := by
    rw [hlast]
    exact decide_eq_false (by omega)
  unfold State.droop
  simp only [hroot, hin, Bool.not_true, Bool.false_eq_true, if_false]
  rfl

/-- One step from n towards t, between 32 and c. -/
theorem step_toward_bounds {n t c : Nat} (hn : 32 ≤ n) (hnc : n ≤ c) (ht : 32 ≤ t) (htc : t ≤ c) {m : Nat}
    (hm : m = if n < t then n + 1 else if t < n then n - 1 else n) :
    32 ≤ m ∧ m ≤ c ∧ m ≤ n + 1 ∧ n ≤ m + 1 ∧ (n < t → m = n + 1) ∧ (t < n → m + 1 = n) := by
  subst hm
  rcases Nat.lt_trichotomy n t with h | h | h
  · rw [if_pos h]
    omega
  · rw [if_neg (by omega), if_neg (by omega)]
    omega
  · rw [if_neg (by omega), if_pos h]
    omega

/-- A fallback costs at most a sixteenth of the frequency, and none under one that is in force (R381). -/
theorem Vat.fallenBack_freqNow (x : Vat) (hlow : 32 ≤ x.freqNow.toNat) :
    15 * x.freqNow.toNat ≤ 16 * x.fallenBack.freqNow.toNat ∧ 32 ≤ x.fallenBack.freqNow.toNat := by
  have hlt := x.freqNow.isLt
  unfold Vat.fallenBack
  cases hcap : x.fallbackCap with
  | some c => exact ⟨by simp only [Option.isNone_some, Bool.false_eq_true, if_false]; omega, hlow⟩
  | none =>
    simp only [Option.isNone_none, if_true, BitVec.toNat_ofNat]
    rw [Nat.mod_eq_of_lt (by omega), ceilDiv]
    omega

/-- Settles O8: the step by its target, the droop by the mask. -/
theorem vatRoots : Obligations.VatRoots := by
  refine ⟨fun v s hrun hlow hhigh hfixed => ?step, fun v s hroot => ?stopped, fun v e s hroot hlast => ?stretch,
    fun v e c s hroot hlast hmask hlow => ?fallback, fun v s => rfl⟩
  case step =>
    obtain ⟨htlow, hthigh⟩ := s.rootTarget_bounds hfixed
    have hstep := State.stepFreq_of_run hrun hlow
    have hceil := s.fuses.variant.ceiling_lt
    obtain ⟨hrest, hfreq, hother⟩ :=
      (s.onVat v.val fun x => { x with freqNow := BitVec.ofNat 7 (s.stepFreq v.val) }).noteOverride_vat v.val
    rw [State.onVat_vat_same] at hfreq
    have hstood (w : Nat) (hw : w ≠ v.val) := (hother w hw).trans ((s.onVat_vat ..).trans (if_neg hw))
    obtain ⟨hfloor, htop, hup, hdown, hrise, hfall⟩ := step_toward_bounds hlow hhigh htlow hthigh hstep
    have hnow : (s.stepFreq v.val) % 2 ^ 7 = s.stepFreq v.val := Nat.mod_eq_of_lt (by omega)
    have hnat := (congrArg BitVec.toNat hfreq).trans ((BitVec.toNat_ofNat ..).trans hnow)
    refine ⟨_, rfl, hrest, ?_⟩
    rw [hnat]
    exact ⟨hfloor, htop, hup, hdown, hrise, hfall, hstood⟩
  case stopped =>
    refine ⟨_, rfl, ((State.noteOverride_vat _ v.val).2.1).trans ?_⟩
    rw [State.onVat_vat_same, State.stepFreq, hroot]
    rfl
  case stretch =>
    show Host.Outcome.next (s.droop v.val) = _
    unfold State.droop
    dsimp only
    rw [hroot, hlast]
    rfl
  case fallback =>
    refine ⟨_, congrArg Host.Outcome.next (State.droop_of_masked hroot hlast hmask), ?_⟩
    obtain ⟨hfreq, hcnt, hstretch, hcap⟩ := (s.onVat v.val fun _ => (s.vat v.val).fallenBack).noteFallback_vat v.val
    obtain ⟨hpart, hfloor⟩ := (s.vat v.val).fallenBack_freqNow hlow
    rw [hfreq, hcnt, hstretch, hcap, State.onVat_vat_same]
    refine ⟨rfl, rfl, rfl, hpart, hfloor, fun hheld => ?_⟩
    obtain ⟨cap, hcap⟩ := Option.isSome_iff_exists.mp hheld
    simp [Vat.fallenBack, hcap]

/-! ## Temperature levels -/

theorem creamTarget_le (b o : Int) (blind : Bool) : creamTarget b o blind ≤ 2 := by
  unfold creamTarget
  split
  · exact Nat.le_refl 2
  · split <;> decide

theorem stackTarget_le (t : Int) (blind : Bool) : stackTarget t blind ≤ 2 := by
  unfold stackTarget
  split
  · exact Nat.le_refl 2
  · split <;> decide

/-- A level that a sample moves ends at its target or stays above it. -/
theorem level_ge_target (l : BitVec 2) {target : Nat} (h : target ≤ 2) (leaves : Bool) :
    target ≤ (BitVec.ofNat 2 (if l.toNat ≤ target then target else if leaves then target else l.toNat)).toNat := by
  have hl := l.isLt
  rw [BitVec.toNat_ofNat, Nat.mod_eq_of_lt (by split; · omega
                                               · split <;> omega)]
  split
  · exact Nat.le_refl _
  · split
    · exact Nat.le_refl _
    · omega

/-- A note that is written on a condition rewrites the error unit alone. -/
theorem State.ite_note_eq (p : Prop) [Decidable p] (s : State) (code : W16) (sev : Severity) (u : W16) (d : List W64) :
    (if p then s else s.note code sev u d) = { s with err := (if p then s else s.note code sev u d).err } := by
  split <;> rfl

/-- The cream die as a sample leaves it (R177, R178). -/
def State.sampledCream (s : State) (c : Nat) : Cream :=
  let x := s.cream c
  let b := s.beneath c
  let o := s.hottest (32 + c)
  let blind := 2 ≤ s.brokenIn (32 + c)
  let t := creamTarget b o blind
  let cur := x.level.toNat
  let new := if cur ≤ t then t else if creamLeaves x b o && !blind then t else cur
  let hotB := if new = 2 then decide (95 < b) else decide (90 < b)
  let hotO := decide (95 < o) || blind
  { x with own := BitVec.ofInt 8 o, beneath := BitVec.ofInt 8 b, level := BitVec.ofNat 2 new,
           byBeneath := if new = cur then x.byBeneath || hotB else hotB, byOwn := if new = cur then x.byOwn || hotO else hotO }

/-- A sample rewrites its die and the error unit. -/
theorem State.creamSample_eq {s : State} {c : Nat} (hreset : (s.cream c).mode ≠ .reset) (hretired : (s.cream c).mode ≠ .retired) :
    s.creamSample c = { s.onCream c fun _ => s.sampledCream c with err := (s.creamSample c).err } := by
  have hserves : ¬ ((s.cream c).mode = .reset ∨ (s.cream c).mode = .retired) := by simp [hreset, hretired]
  unfold State.creamSample
  rw [if_neg hserves]
  exact State.ite_note_eq _ _ _ _ _ _

/-- The stack as a sample leaves it (R320). -/
def State.sampledStack (s : State) (k : Nat) : Stack :=
  let x := s.stack k
  let t := s.hottest (78 + k)
  let blind := 2 ≤ s.brokenIn (78 + k)
  let cur := x.level.toNat
  let target := stackTarget t blind
  let leaves := (cur == 2 && decide (t ≤ 98)) || (cur == 1 && decide (t ≤ 93))
  let new := if cur ≤ target then target else if leaves && !blind then target else cur
  { x with temp := BitVec.ofInt 8 t, level := BitVec.ofNat 2 new, fieldLevel := BitVec.ofNat 2 (s.fieldRate k) }

/-- A sample rewrites its stack, the refresh rate and the error unit. -/
theorem State.stackSample_eq {s : State} {k : Nat} (hretired : (s.stack k).mode ≠ .retired) :
    ∃ hot err, s.stackSample k =
      { s with hbm := { (s.onStack k fun _ => s.sampledStack k).hbm with hot := hot }, err := err } := by
  unfold State.stackSample
  rw [if_neg hretired]
  dsimp only
  rw [State.ite_note_eq]
  by_cases hhot : s.hbm.hot.getLsbD k = if s.hbm.hot.getLsbD k then decide (83 < s.hottest (78 + k)) else decide (85 < s.hottest (78 + k))
  · exact ⟨_, _, if_pos hhot⟩
  · exact ⟨_, _, if_neg hhot⟩

/-- Settles O6: the levels by their targets. -/
theorem creamAndStackTemperatures : Obligations.CreamAndStackTemperatures := by
  refine ⟨fun c s hreset hretired => ?_, fun k s hretired => ?_⟩
  · have hrest := State.creamSample_eq hreset hretired
    have hlevel := level_ge_target (s.cream c.val).level
      (creamTarget_le (s.beneath c.val) (s.hottest (32 + c.val)) (decide (2 ≤ s.brokenIn (32 + c.val))))
      (creamLeaves (s.cream c.val) (s.beneath c.val) (s.hottest (32 + c.val)) && !decide (2 ≤ s.brokenIn (32 + c.val)))
    have hcream := fun d => s.onCream_cream c.val d fun _ => s.sampledCream c.val
    refine ⟨s.creamSample c.val, rfl, ?_⟩
    generalize s.creamSample c.val = t at hrest
    have hread (d : Nat) : t.cream d = (s.onCream c.val fun _ => s.sampledCream c.val).cream d := by rw [hrest]; rfl
    have hcreams : t.creams = (s.onCream c.val fun _ => s.sampledCream c.val).creams := by rw [hrest]
    simp only [hread, hcream, if_true]
    exact ⟨hrest.trans (by rw [hcreams]; rfl), rfl, rfl, hlevel, rfl, fun d hd => if_neg hd⟩
  · obtain ⟨hot, err, hrest⟩ := State.stackSample_eq hretired
    have hlevel := level_ge_target (s.stack k.val).level
      (stackTarget_le (s.hottest (78 + k.val)) (decide (2 ≤ s.brokenIn (78 + k.val))))
      ((((s.stack k.val).level.toNat == 2 && decide (s.hottest (78 + k.val) ≤ 98)) ||
        ((s.stack k.val).level.toNat == 1 && decide (s.hottest (78 + k.val) ≤ 93))) && !decide (2 ≤ s.brokenIn (78 + k.val)))
    have hstack := fun j => s.onStack_stack k.val j fun _ => s.sampledStack k.val
    refine ⟨s.stackSample k.val, rfl, ?_⟩
    generalize s.stackSample k.val = t at hrest
    have hread (j : Nat) : t.stack j = (s.onStack k.val fun _ => s.sampledStack k.val).stack j := by rw [hrest]; rfl
    simp only [hread, hstack, if_true]
    exact ⟨by rw [hrest], rfl, hlevel, rfl, by rw [hrest]; rfl, fun j hj => if_neg hj⟩

/-! ## The reference and die clocks -/

/-- What a clock loss leaves of the clock unit and of the fuses. -/
def State.clockView (s : State) : Clock × Fuses := (s.clk, s.fuses)

theorem blindToWork_clockView : BlindToWork State.clockView := by
  constructor <;> intros <;> rfl

theorem State.retireDie_kept {α : Type} {π : State → α} (h : BlindToWork π) (s : State) (d : Nat) : π (s.retireDie d) = π s :=
  (h.inv _ _).trans ((foldl_kept (fun a c => (State.onPort_kept h _ c _).trans (h.creams a _)) _ _).trans
    (foldl_kept (fun a v => State.onVat_kept h.toSwap a v _) _ s))

theorem State.retireDieFor_kept {α : Type} {π : State → α} (h : BlindToWork π) (s : State) (d cause : Nat) (code : W16) (l : List W64) :
    π (s.retireDieFor d cause code l) = π s := by
  unfold State.retireDieFor
  refine (h.inv _ _).trans ?_
  rw [State.abortLoads_kept h.toLoads, State.endHandling_kept h.err, State.takeOver_kept h, State.retireDie_kept h,
    State.finish_kept h, State.record_kept h.toRecord]

/-- A die's clock loss clears its lock bit and is counted; no reset or retirement that it calls for touches the clock unit. -/
theorem State.clockLoss_clockView (s : State) (d : Nat) : (s.clockLoss d).clockView =
    ({ s.clk with dieLock := bvSet s.clk.dieLock d false, dieLossCnt := bump s.clk.dieLossCnt,
                  dieLosses := Tbl.put [] s.clk.dieLosses d (s.recentLosses d) }, s.fuses) := by
  have h := blindToWork_clockView
  unfold State.clockLoss
  dsimp only
  split
  · exact (h.eth _ _).trans ((State.finish_kept h _).trans (State.record_kept h.toRecord _ _ _ _ _ _ _ _ _ _))
  · split
    · exact (State.finish_kept h _).trans (State.retireDieFor_kept h _ _ _ _ _)
    · split
      · exact State.announce_kept h.toRecord.toBlindToAnnounce _ _
      · exact (State.finish_kept h _).trans (State.record_kept h.toRecord _ _ _ _ _ _ _ _ _ _)

/-- Settles O9: the switches of the loop by what they rewrite, a die's loss by what its resets leave alone. -/
theorem referenceAndDieClocks : Obligations.ReferenceAndDieClocks := by
  refine ⟨fun b s hsource => ?lost, fun b s hsource => ?again, fun s hsource => ?restored, fun s hsource => ?locked,
    fun d s => ?die, fun f s hplls => ?pll⟩
  case lost => exact ⟨_, congrArg Host.Outcome.next (if_neg hsource), rfl, rfl, rfl, rfl, rfl, rfl, rfl, rfl⟩
  case again => exact congrArg Host.Outcome.next (if_pos hsource)
  case restored => exact ⟨_, congrArg Host.Outcome.next (if_pos hsource), rfl, rfl, rfl, rfl, rfl⟩
  case locked => exact ⟨_, congrArg Host.Outcome.next (if_pos hsource), rfl, rfl, rfl⟩
  case die =>
    have hview := s.clockLoss_clockView d.val
    simp only [State.clockView, Prod.mk.injEq] at hview
    obtain ⟨hclk, hfuses⟩ := hview
    refine ⟨s.clockLoss d.val, rfl, ?_, ?_, ?_, hfuses⟩
    · rw [hclk, bump_one]
    · rw [hclk, bvSet_getLsbD _ _ _ _ d.isLt, if_pos rfl]
    · rw [hclk]
  case pll =>
    have hother : (Tbl.look 0 s.clk.plls f.val).getLsbD (if (Tbl.look 0 s.clk.plls f.val).getLsbD 2 then 0 else 1) = false := by
      rw [hplls]
      decide
    have hfail : s.pllFail f.val = { s with clk := { s.clk with plls := Tbl.put 0 s.clk.plls f.val 5 } }.note (Config.unlistedCode 0)
        .corrected (unitField f.val) [BitVec.ofNat 64 f.val, 0] := by
      refine (if_neg (by rw [hother]; decide)).trans ?_
      rw [hplls]
      rfl
    exact ⟨_, congrArg Host.Outcome.next hfail, rfl, Tbl.look_put_same 0 s.clk.plls f.val 5, rfl, rfl⟩

end Sys2Proof.Machine
end

section
/-! SUPPORT. The context commands of KCP: the settled statement. -/

namespace Sys2Proof.Machine

/-- An answer to a session rewrites the controller's registers and the host port. -/
theorem State.reply_session_kept {α : Type} {π : State → α} (hkcp : ∀ s x, π { s with kcp := x } = π s)
    (heth : ∀ s x, π { s with eth := x } = π s) (s : State) (k : Fin 8) (q : W32) (o : W16) (st : Nat) (p : List Byte) (m : Bool) :
    π (s.reply (.session k) q o st p m) = π s := by
  have hboth (a : Kcp) (b : Ethernet) : π { s with kcp := a, eth := b } = π s := (heth { s with kcp := a } b).trans (hkcp s a)
  rw [State.reply_session_eq]
  exact hboth _ _

@[simp] theorem State.reply_session_ctx (s : State) (k : Fin 8) (q : W32) (o : W16) (st : Nat) (p : List Byte) (m : Bool) (d : Nat) :
    (s.reply (.session k) q o st p m).ctx d = s.ctx d :=
  State.reply_session_kept (π := fun t => t.ctx d) (fun _ _ => rfl) (fun _ _ => rfl) s k q o st p m

@[simp] theorem State.reply_session_vat (s : State) (k : Fin 8) (q : W32) (o : W16) (st : Nat) (p : List Byte) (m : Bool) (v : Nat) :
    (s.reply (.session k) q o st p m).vat v = s.vat v :=
  State.reply_session_kept (π := fun t => t.vat v) (fun _ _ => rfl) (fun _ _ => rfl) s k q o st p m

@[simp] theorem State.reply_session_plane (s : State) (k : Fin 8) (q : W32) (o : W16) (st : Nat) (p : List Byte) (m : Bool) (j : Nat) :
    (s.reply (.session k) q o st p m).plane j = s.plane j :=
  State.reply_session_kept (π := fun t => t.plane j) (fun _ _ => rfl) (fun _ _ => rfl) s k q o st p m

@[simp] theorem State.reply_session_fab (s : State) (k : Fin 8) (q : W32) (o : W16) (st : Nat) (p : List Byte) (m : Bool) :
    (s.reply (.session k) q o st p m).fab = s.fab :=
  State.reply_session_kept (π := fun t => t.fab) (fun _ _ => rfl) (fun _ _ => rfl) s k q o st p m

theorem State.ctxCommand_of_lt (s : State) (src : KcpSrc) (req : W32) (op : W16) {c : Byte} {f : Nat → Nat × State} {st : Nat} {u : State}
    (hc : c.toNat < 64) (hf : f c.toNat = (st, u)) : s.ctxCommand src req op c f = u.reply src req op st [] := by
  rw [State.ctxCommand, if_pos hc, hf]

/-- Two rewrites of a vat that agree on it as it stands are one. -/
theorem State.onVat_congr {s : State} {v : Nat} {f g : Vat → Vat} (h : f (s.vat v) = g (s.vat v)) : s.onVat v f = s.onVat v g := by
  have hupd : Tbl.upd {} s.vats v f = Tbl.upd {} s.vats v g := by
    rw [Tbl.upd, show f (Tbl.look {} s.vats v) = g (Tbl.look {} s.vats v) from h]
    rfl
  rw [State.onVat, hupd]
  rfl

theorem State.ungate_of_idle {s : State} {v : Nat} (h : (s.vat v).run = .idle) : s.ungate v = s :=
  if_neg (by rw [h]; decide)

/-- An idle vat of which a resident context runs is set running (R85). -/
theorem State.refreshRun_of_idle {s : State} {v c : Nat} (hidle : (s.vat v).run = .idle) (hc : c < 64)
    (hres : (s.ctx c).resident = true) (hvat : (s.ctx c).vat.toNat = v) (hruns : (s.ctx c).state.runs = true) :
    s.refreshRun v = s.onVat v fun x => { x with run := .run } := by
  have hany : ((s.residents v).any fun c => (s.ctx c).state.runs) = true := by
    refine List.any_eq_true.mpr ⟨c, ?_, hruns⟩
    simp [State.residents, hc, hres, hvat]
  refine State.onVat_congr ?_
  simp only [hidle, hany, if_true]

/-- No swap follows where the active context runs. -/
theorem State.swapIdleActive_of_runs {s : State} {v c : Nat} (hactive : s.activeCtx v = some c) (hruns : (s.ctx c).state.runs = true) :
    s.swapIdleActive v = s := by
  unfold State.swapIdleActive
  rw [hactive]
  simp only [hruns, if_true, ite_self]

/-- A launch of the active context of an idle vat starts its plane and the vat, and swaps nothing (R65, R85). -/
theorem State.launchCtx_of_idle {s : State} {c v : Nat} (hc : c < 64) (hloaded : (s.ctx c).state = .loaded)
    (hres : (s.ctx c).resident = true) (hvat : (s.ctx c).vat.toNat = v) (hactive : s.activeCtx v = some c)
    (hplane : s.activePlane v = s.ctxPlane c) (hidle : (s.vat v).run = .idle) : s.launchCtx c =
      ((s.onPlane (s.ctxPlane c) Plane.launched).onCtx c fun x =>
        { x with state := .running, drained := false, ending := false }).onVat v fun x => { x with run := .run } := by
  have hstart : s.launchCtx c = (((((s.onPlane (s.ctxPlane c) Plane.launched).onCtx c fun x =>
      { x with state := .running, drained := false, ending := false }).ungate v).refreshRun v).swapIdleActive v) := by
    unfold State.launchCtx
    simp only [hloaded, hvat, if_true]
  have hctx := (s.onPlane (s.ctxPlane c) Plane.launched).onCtx_ctx_same c fun x => { x with state := .running, drained := false, ending := false }
  have hplaneCtx : ((s.onPlane (s.ctxPlane c) Plane.launched).plane (s.activePlane v)).ctx = some c := by
    rw [hplane, State.onPlane_plane_same]
    rw [State.activeCtx, hplane] at hactive
    exact hactive
  rw [hstart]
  generalize hu : (s.onPlane (s.ctxPlane c) Plane.launched).onCtx c (fun x => { x with state := .running, drained := false, ending := false }) = u
    at hctx
  have hvats : u.vats = s.vats := by rw [← hu]; rfl
  have hidle' : (u.vat v).run = .idle := by rw [State.vat_of_vats hvats, hidle]
  have hruns : (u.ctx c).state.runs = true := by rw [hctx]; rfl
  have hres' : (u.ctx c).resident = true := by rw [hctx]; exact hres
  have hvat' : (u.ctx c).vat.toNat = v := by rw [hctx]; exact hvat
  rw [State.ungate_of_idle hidle', State.refreshRun_of_idle hidle' hc hres' hvat' hruns]
  refine State.swapIdleActive_of_runs (c := c) ?_ hruns
  have hactive' : (u.onVat v fun x => { x with run := .run }).activePlane v = s.activePlane v := by
    rw [State.activePlane, State.onVat_vat_same, State.vat_of_vats hvats]
    rfl
  rw [State.activeCtx, hactive', ← hplaneCtx, ← hu]
  rfl

/-- Whether a context is active is read from the vats and from where the context is resident. -/
theorem State.isActive_congr {s t : State} {c : Nat} (hvats : t.vats = s.vats) (hres : (t.ctx c).resident = (s.ctx c).resident)
    (hvat : (t.ctx c).vat = (s.ctx c).vat) (hplane : (t.ctx c).plane = (s.ctx c).plane) : t.isActive c = s.isActive c := by
  rw [State.isActive, State.activePlane, State.ctxPlane, State.vat_of_vats hvats, hres, hvat, hplane]
  rfl

/-- A PAUSE of a shadow context leaves the fabric alone. -/
theorem State.pauseNow_fab_of_shadow {s : State} {c : Nat} (hshadow : s.isActive c = false) : (s.pauseNow c).fab = s.fab := by
  have hstep (u : State) (v : Nat) (hu : u.isActive c = false) : ((u.swapAway c).refreshRun v).fab = u.fab := by
    rw [State.swapAway, hu]
    rfl
  unfold State.pauseNow
  refine (hstep _ _ ?_).trans (State.flexReleaseCtx_kept (π := fun t => t.fab) (fun _ _ => rfl) _ _)
  have hctx := s.onCtx_ctx_same c fun x => { x with state := .paused, drained := false }
  have hactive : (s.onCtx c fun x => { x with state := .paused, drained := false }).isActive c = s.isActive c :=
    State.isActive_congr rfl (congrArg Ctx.resident hctx :) (congrArg Ctx.vat hctx :) (congrArg Ctx.plane hctx :)
  exact (State.flexReleaseCtx_kept (π := fun t => t.isActive c) (fun _ _ => rfl) _ _).trans (hactive.trans hshadow)

/-- Settles O25: each command by what it does to its context. -/
theorem contextCommands : Obligations.ContextCommands := by
  refine ⟨fun k req c group seed s hc hfree => ?create, fun k req c group seed s hc hfree => ?refused,
    fun i op k req c s hc hi => ?range, fun k req c s hc hstate => ?notLaunched,
    fun k req c v s hc hstandby hdrain hloaded hres hvat hactive hplane hidle hsus hreplay => ?launch,
    fun k req c s hc hrun hreplay hactive => ?drain, fun k req c s hc hrun hreplay hactive => ?pause,
    fun k req c s hc hquiet => ?destroy⟩
  case create =>
    have hexec := s.ctxCommand_of_lt (.session k) req 0x0011 (f := fun c => s.tryCreate c group seed) hc (if_pos hfree)
    refine ⟨_, congrArg Host.Outcome.next hexec, ?_⟩
    have hother := fun d => s.onCtx_ctx c.toNat d fun x => { x with group := group, seed := seed }
    refine ⟨by rw [State.reply_session_eq]; rfl, ?_, fun d hd => ?_, State.reply_repliedWith _ _ _ _ _ _ _⟩
    · rw [State.reply_session_ctx, hother, if_pos rfl]
    · rw [State.reply_session_ctx, hother, if_neg hd]
  case refused =>
    have hexec := s.ctxCommand_of_lt (.session k) req 0x0011 (f := fun c => s.tryCreate c group seed) hc (if_neg hfree)
    exact ⟨_, congrArg Host.Outcome.next hexec, State.reply_session_eq _ _ _ _ _ _ _, State.reply_repliedWith _ _ _ _ _ _ _⟩
  case range =>
    have hrange (f : Nat → Nat × State) : s.ctxCommand (.session k) req op c f = s.reply (.session k) req op stRange [] :=
      if_neg (by omega)
    refine ⟨s.reply (.session k) req op stRange [], ?_, State.reply_session_eq _ _ _ _ _ _ _, State.reply_repliedWith _ _ _ _ _ _ _⟩
    rcases hi with ⟨g, x, rfl, rfl⟩ | ⟨rfl, rfl⟩ | ⟨rfl, rfl⟩ | ⟨rfl, rfl⟩
    · exact congrArg Host.Outcome.next (hrange _)
    · exact congrArg Host.Outcome.next (hrange _)
    · exact congrArg Host.Outcome.next (hrange _)
    · exact congrArg Host.Outcome.next (if_neg (by omega))
  case notLaunched =>
    have hlaunch : s.tryLaunch c.toNat = (stState, s) := by
      unfold State.tryLaunch
      rcases hstate with h | h
      · rw [h]
        rfl
      · have hnot : ¬ ((s.ctx c.toNat).state = .loaded ∨ (s.ctx c.toNat).state = .paused) := by
          rintro (e | e) <;> rw [e] at h <;> exact absurd h (by decide)
        rw [if_neg hnot, ite_self]
    have hexec := s.ctxCommand_of_lt (.session k) req 0x0012 hc hlaunch
    exact ⟨_, congrArg Host.Outcome.next hexec, State.reply_session_eq _ _ _ _ _ _ _, State.reply_repliedWith _ _ _ _ _ _ _⟩
  case launch =>
    have hholds : s.replayHolds c.toNat = false := by
      rw [State.replayHolds, hvat, hsus, hreplay, hres]
      rfl
    have hexec := s.ctxCommand_of_lt (.session k) req 0x0012 hc (s.tryLaunch_ready hstandby hdrain (.inl hloaded) hholds)
    refine ⟨_, congrArg Host.Outcome.next hexec, ?_⟩
    rw [State.launchCtx_of_idle hc hloaded hres hvat hactive hplane hidle]
    have hctx := fun d => (s.onPlane (s.ctxPlane c.toNat) Plane.launched).onCtx_ctx c.toNat d fun x =>
      { x with state := .running, drained := false, ending := false }
    have hplane' := s.onPlane_plane_same (s.ctxPlane c.toNat) Plane.launched
    have hfab : ((s.onPlane (s.ctxPlane c.toNat) Plane.launched).onCtx c.toNat fun x =>
      { x with state := .running, drained := false, ending := false }).fab = s.fab := rfl
    have hplanes : ((s.onPlane (s.ctxPlane c.toNat) Plane.launched).onCtx c.toNat fun x =>
      { x with state := .running, drained := false, ending := false }).planes = (s.onPlane (s.ctxPlane c.toNat) Plane.launched).planes := rfl
    generalize (s.onPlane (s.ctxPlane c.toNat) Plane.launched).onCtx c.toNat (fun x =>
      { x with state := .running, drained := false, ending := false }) = u at hctx hfab hplanes
    have hlaunched : (u.onVat v fun x => { x with run := .run }).plane (s.ctxPlane c.toNat) = (s.plane (s.ctxPlane c.toNat)).launched :=
      (State.plane_of_planes (t := u) hplanes _).trans hplane'
    simp only [State.reply_session_ctx, State.reply_session_vat, State.reply_session_plane, State.reply_session_fab, hlaunched,
      State.onVat_vat_same]
    refine ⟨congrArg Ctx.state ((hctx _).trans (if_pos rfl)), trivial, rfl, rfl, Tbl.look_put_same 0 [] 2 _,
      Tbl.look_put_ne 0 [] 2 1 _ (by decide), fun d hd => (hctx d).trans (if_neg hd), hfab,
      State.reply_repliedWith _ _ _ _ _ _ _⟩
  case drain =>
    have hexec := s.ctxCommand_of_lt (.session k) req 0x0013 hc (s.tryPause_active hrun hreplay hactive)
    refine ⟨_, congrArg Host.Outcome.next hexec, by rw [State.reply_session_eq]; rfl, ?_, State.reply_repliedWith _ _ _ _ _ _ _⟩
    rw [State.reply_session_ctx, State.onCtx_ctx_same]
  case pause =>
    have hexec := s.ctxCommand_of_lt (.session k) req 0x0013 hc (s.tryPause_shadow hrun hreplay hactive)
    refine ⟨_, congrArg Host.Outcome.next hexec, ?_, fun d hd => ?_, ?_, State.reply_repliedWith _ _ _ _ _ _ _⟩
    · rw [State.reply_session_ctx, State.pauseNow_ctx, if_pos rfl]
    · rw [State.reply_session_ctx, State.pauseNow_ctx, if_neg hd]
    · rw [State.reply_session_fab, State.pauseNow_fab_of_shadow hactive]
  case destroy =>
    have hdestroy : s.tryDestroy c.toNat (some (.session k, req)) = (true, s.freeCtx c.toNat) := if_pos hquiet
    have hexec : exec (.ctxDestroy (.session k) req c) s = .next ((s.freeCtx c.toNat).reply (.session k) req 0x0014 stOK []) := by
      refine congrArg Host.Outcome.next ((if_pos hc).trans ?_)
      rw [hdestroy]
    have hctx := s.freeCtx_ctx_same c.toNat
    have hseg := s.freeCtx_seg c.toNat
    have hmem := s.freeCtx_mem c.toNat
    have hother := fun d (hd : d ≠ c.toNat) => s.freeCtx_ctx_ne hd
    generalize s.freeCtx c.toNat = u at hexec hctx hseg hmem hother
    refine ⟨_, hexec, ?_⟩
    simp only [State.reply_session_ctx, State.reply_session_fab]
    refine ⟨by rw [hctx]; rfl, by rw [hctx]; rfl, hother, fun e he => ?_, fun e he => ?_, fun a => ?_⟩
    · rw [hseg, if_pos he, bvSet_getLsbD _ _ _ _ (by decide), if_pos rfl]
    · rw [hseg, if_neg he]
    · exact State.byteAt_of_mem ((State.reply_mem ..).trans hmem) a

end Sys2Proof.Machine
end

section
/-! SUPPORT. How contexts stop and are reset: the work list of context resets, the end of replays and the settled statement. -/

namespace Sys2Proof.Machine

theorem foldl_invariant {α : Type} {P : State → Prop} {f : State → α → State} (h : ∀ a x, P a → P (f a x)) (l : List α) {s : State}
    (hs : P s) : P (l.foldl f s) := by
  induction l generalizing s with
  | nil => exact hs
  | cons x l ih => exact ih (h s x hs)

/-! ## Context resets -/

/-- A reading of one context that its ABORT marks do not enter. -/
theorem blindToStop_ctx {β : Type} {g : Ctx → β} (hhold : ∀ x b, g { x with remoteHold := b } = g x)
    (hreset : ∀ x b, g { x with resetSent := b } = g x) (habort : ∀ x b, g { x with abortSent := b } = g x) (d : Nat) :
    BlindToStop fun t => g (t.ctx d) := by
  have hon (s : State) (c : Nat) (f : Ctx → Ctx) (hf : ∀ x, g (f x) = g x) : g ((s.onCtx c f).ctx d) = g (s.ctx d) := by
    rw [State.onCtx_ctx]
    split
    · rename_i e; rw [hf, e]
    · rfl
  exact ⟨⟨fun _ _ _ => rfl, fun _ _ => rfl, fun _ _ => rfl, fun _ _ => rfl, fun _ _ => rfl, fun s c b => hon s c _ (hhold · b),
    fun s c b => hon s c _ (hreset · b), fun s c b => hon s c _ (habort · b)⟩, fun _ _ => rfl, fun _ _ => rfl, fun _ _ => rfl,
    fun _ _ => rfl, fun _ _ => rfl, fun _ _ => rfl⟩

theorem blindToStop_state (d : Nat) : BlindToStop fun t => (t.ctx d).state :=
  blindToStop_ctx (fun _ _ => rfl) (fun _ _ => rfl) (fun _ _ => rfl) d

theorem blindToStop_todo : BlindToStop fun t => t.err.todo :=
  ⟨⟨fun _ _ _ => rfl, fun _ _ => rfl, fun _ _ => rfl, fun _ _ => rfl, fun _ _ => rfl, fun _ _ _ => rfl, fun _ _ _ => rfl,
    fun _ _ _ => rfl⟩, fun _ _ => rfl, fun _ _ => rfl, fun _ _ => rfl, fun _ _ => rfl, fun _ _ => rfl, fun _ _ => rfl⟩

/-- A context reset calls for nothing more. -/
theorem State.ctxReset_todo (s : State) (c : Nat) : (s.ctxReset c).err.todo = s.err.todo := by
  rw [State.ctxReset_eq]
  exact State.ctxResetCells_kept blindToStop_todo s c

/-- A context reset moves no context's state. -/
theorem State.ctxReset_ctx_state (s : State) (c d : Nat) : ((s.ctxReset c).ctx d).state = (s.ctx d).state := by
  have hkept := State.ctxResetCells_kept (blindToStop_state d) s c
  rw [State.ctxReset_eq, State.onCtx_ctx]
  split
  · rename_i e
    rw [e] at hkept ⊢
    exact hkept
  · exact hkept

/-- After a context reset none of its request cells is in flight (R465). -/
theorem State.ctxReset_flight (s : State) (c : Nat) : ∀ x ∈ (s.ctxReset c).fab.flight, cellOf s.fab.pkgId.toNat c x = false := by
  have hdrop (u : State) (f : Op → Bool) : (u.dropOps f).fab.flight = u.fab.flight :=
    (foldl_kept (π := fun t => t.fab.flight) (f := fun a (o : Op) => a.withhold o.port o.tag o.dpkg) (fun _ _ => rfl) _ _).trans rfl
  intro x hx
  rw [State.ctxReset_eq, State.onCtx_fab, State.ctxResetCells, hdrop] at hx
  simpa using (List.mem_filter.mp hx).2

/-! ## A work list of context resets -/

theorem State.drainTodo_of_todo_nil (n : Nat) {s : State} (h : s.err.todo = []) : State.drainTodo n s = s := by
  cases n with
  | zero => rfl
  | succ n =>
    unfold State.drainTodo
    split
    · rfl
    · rename_i e
      rw [h] at e
      cases e

theorem State.drainTodo_of_todo_cons (n : Nat) {s : State} {t : Todo} {ts : List Todo} (h : s.err.todo = t :: ts) :
    State.drainTodo (n + 1) s = State.drainTodo n (State.doTodo { s with err := { s.err with todo := ts } } t) := by
  rw [State.drainTodo]
  split
  · rename_i e
    rw [h] at e
    cases e
  · rename_i e
    rw [h] at e
    cases e
    rfl

/-- A reading that no context reset changes is the same after a work list of context resets. -/
theorem State.drainTodo_ctxResets {α : Type} {π : State → α} (h : ∀ s c, π (s.ctxReset c) = π s)
    (htodo : ∀ s x, π { s with err := { s.err with todo := x } } = π s) (n : Nat) {s : State}
    (hs : ∀ t ∈ s.err.todo, ∃ c, t = .ctxReset c) : π (State.drainTodo n s) = π s := by
  induction n generalizing s with
  | zero => rfl
  | succ n ih =>
    cases htail : s.err.todo with
    | nil => rw [State.drainTodo_of_todo_nil _ htail]
    | cons t ts =>
      rw [htail] at hs
      obtain ⟨c, rfl⟩ := hs t (List.mem_cons_self ..)
      rw [State.drainTodo_of_todo_cons _ htail]
      have hnext : ∀ t ∈ (State.ctxReset { s with err := { s.err with todo := ts } } c).err.todo, ∃ c, t = .ctxReset c := by
        rw [State.ctxReset_todo]
        exact fun t ht => hs t (List.mem_cons_of_mem _ ht)
      exact (ih hnext).trans ((h _ c).trans (htodo s ts))

theorem State.finish_of_todo_ctxReset {s : State} {c : Nat} (h : s.err.todo = [.ctxReset c]) :
    s.finish = State.ctxReset { s with err := { s.err with todo := [] } } c := by
  refine (State.drainTodo_of_todo_cons 399 h).trans (State.drainTodo_of_todo_nil 399 ?_)
  exact State.ctxReset_todo _ c

/-! ## The end of replays -/

/-- A reading of a context that its life, and what a replay held back, do not enter. -/
structure BlindToLife {β : Type} (g : Ctx → β) : Prop where
  life : ∀ x st dr en, g { x with state := st, drained := dr, ending := en } = g x
  held : ∀ x, g { x with heldPause := false, heldLaunch := false, suspect := false, replaying := false, resetSent := false } = g x

theorem State.pauseRunning_ctx (s : State) (c d : Nat) :
    ∃ st, (s.pauseRunning c).ctx d = if d = c then { s.ctx c with state := st, drained := false } else s.ctx d := by
  unfold State.pauseRunning
  split
  · exact ⟨_, s.onCtx_ctx c d _⟩
  · exact ⟨_, s.pauseNow_ctx c d⟩

theorem State.onCtx_blind {β : Type} {g : Ctx → β} {f : Ctx → Ctx} (h : ∀ x, g (f x) = g x) (s : State) (c d : Nat) :
    g ((s.onCtx c f).ctx d) = g (s.ctx d) := by
  rw [State.onCtx_ctx]
  split
  · rename_i e; rw [h, e]
  · rfl

section
variable {β : Type} {g : Ctx → β} (h : BlindToLife g)
include h

theorem State.pauseRunning_blind (s : State) (c d : Nat) : g ((s.pauseRunning c).ctx d) = g (s.ctx d) := by
  obtain ⟨st, hctx⟩ := s.pauseRunning_ctx c d
  rw [hctx]
  split
  · rename_i e; rw [e]; exact h.life (s.ctx c) st false _
  · rfl

theorem State.launchCtx_blind (s : State) (c d : Nat) : g ((s.launchCtx c).ctx d) = g (s.ctx d) := by
  rw [State.launchCtx_ctx]
  split
  · rename_i e; rw [e]; exact h.life _ _ _ _
  · rfl

theorem State.applyHeld_blind (s : State) (c d : Nat) : g ((s.applyHeld c).ctx d) = g (s.ctx d) := by
  have hflags := State.onCtx_blind h.held s c d
  unfold State.applyHeld
  dsimp only
  split <;> split <;> simp only [State.launchCtx_blind h, State.pauseRunning_blind h, hflags]

end

/-- The end of replays, for a reading that swaps and the handlings do not enter. -/
theorem State.replaysEnd_kept {α : Type} {π : State → α} (h : BlindToSwap π) (hhandlings : ∀ s sc, π (s.endHandling sc) = π s)
    (hheld : ∀ s c, π (s.applyHeld c) = π s) (s : State) (v : Nat) : π (s.replaysEnd v) = π s := by
  unfold State.replaysEnd
  split
  · rw [State.swapIdleActive_kept h, State.refreshRun_kept h]
    refine (foldl_kept (fun a c => hheld a c) _ _).trans ((hhandlings _ _).trans ((State.onVat_kept h _ _ _).trans ?_))
    exact foldl_kept (fun a c => State.onPlane_kept h a _ _) _ s
  · rfl

/-- What a replay held back is applied to its own context. -/
theorem State.applyHeld_ctx_ne (s : State) {c d : Nat} (hd : d ≠ c) : (s.applyHeld c).ctx d = s.ctx d := by
  have hpause (u : State) : (u.pauseRunning c).ctx d = u.ctx d := by
    obtain ⟨st, hctx⟩ := u.pauseRunning_ctx c d
    rw [hctx, if_neg hd]
  have hlaunch (u : State) : (u.launchCtx c).ctx d = u.ctx d := by rw [State.launchCtx_ctx, if_neg hd]
  have hflags (f : Ctx → Ctx) : (s.onCtx c f).ctx d = s.ctx d := by rw [State.onCtx_ctx, if_neg hd]
  unfold State.applyHeld
  dsimp only
  split <;> split <;> simp only [hlaunch, hpause, hflags]

/-- Nothing that was held back is applied to a FREE context. -/
theorem State.applyHeld_of_free {s : State} {c : Nat} (hfree : (s.ctx c).state = .free) : s.applyHeld c = s.onCtx c fun x =>
    { x with heldPause := false, heldLaunch := false, suspect := false, replaying := false, resetSent := false } := by
  have hrunning : (CtxLife.free == CtxLife.running) = false := rfl
  have hready : (CtxLife.free == CtxLife.loaded || CtxLife.free == CtxLife.paused) = false := rfl
  unfold State.applyHeld
  simp only [hfree, hrunning, hready, Bool.and_false, Bool.false_eq_true, if_false]

theorem State.applyHeld_ctx_free {s : State} {d : Nat} (hfree : (s.ctx d).state = .free) (c : Nat) :
    ((s.applyHeld c).ctx d).state = .free := by
  by_cases hd : d = c
  · subst hd
    rw [State.applyHeld_of_free hfree, State.onCtx_ctx_same]
    exact hfree
  · rw [State.applyHeld_ctx_ne s hd, hfree]

/-- A context that is FREE stays so at the end of replays. -/
theorem State.replaysEnd_ctx_free {s : State} {d : Nat} (hfree : (s.ctx d).state = .free) (v : Nat) :
    ((s.replaysEnd v).ctx d).state = .free := by
  unfold State.replaysEnd
  split
  · rw [State.ctx_of_ctxs (State.swapIdleActive_kept blindToSwap_ctxs _ _), State.ctx_of_ctxs (State.refreshRun_kept blindToSwap_ctxs _ _)]
    refine foldl_invariant (P := fun a => (a.ctx d).state = .free) (fun a c h => State.applyHeld_ctx_free h c) _ ?_
    have hkept : ((s.vat v).passed.foldl (fun a c => a.onPlane (a.ctxPlane c) fun p => { p with issuing := true }) s).ctxs = s.ctxs :=
      foldl_kept (fun a c => State.onPlane_kept blindToSwap_ctxs a _ _) _ s
    exact (congrArg Ctx.state (State.ctx_of_ctxs hkept d)).trans hfree
  · exact hfree

/-! ## The end of a run -/

theorem State.endRun_ctx (s : State) (c d : Nat) : (s.endRun c).ctx d =
    if d = c then { s.ctx c with state := .loaded, ending := false, drained := false } else s.ctx d := by
  have hkept : (s.endRun c).ctxs = (s.onCtx c fun x => { x with state := .loaded, ending := false, drained := false }).ctxs :=
    (State.refreshRun_kept blindToSwap_ctxs _ _).trans ((State.swapAway_kept blindToSwap_ctxs _ _).trans
      (State.flexReleaseCtx_kept (π := fun t => t.ctxs) (fun _ _ => rfl) _ _))
  rw [State.ctx_of_ctxs hkept, State.onCtx_ctx]

/-- The record that the end of a run leaves (R460). -/
theorem State.endRun_recordAt (s : State) (c : Nat) : (s.endRun c).recordAt s.err.seqNext =
    { code := 0x0804, severity := .info, unit := unitContexts, details := [], ctxValid := true, ctx := BitVec.ofNat 6 c,
      seq := s.err.seqNext, time := s.clk.now, pkg := s.fab.pkgId } := by
  have hblind (n : W64) : BlindToSwap fun t => t.recordAt n := ⟨fun _ _ => rfl, fun _ _ => rfl, fun _ _ => rfl, fun _ _ => rfl⟩
  have hunits (f : Ctx → Ctx) (p : Nat) (g : Plane → Plane) : (((s.onCtx c f).onPlane p g).flexReleaseCtx c).err = s.err ∧
      (((s.onCtx c f).onPlane p g).flexReleaseCtx c).clk = s.clk ∧ (((s.onCtx c f).onPlane p g).flexReleaseCtx c).fab = s.fab :=
    ⟨State.flexReleaseCtx_kept (π := fun t => t.err) (fun _ _ => rfl) _ _,
      State.flexReleaseCtx_kept (π := fun t => t.clk) (fun _ _ => rfl) _ _,
      State.flexReleaseCtx_kept (π := fun t => t.fab) (fun _ _ => rfl) _ _⟩
  unfold State.endRun
  obtain ⟨herr, hclk, hfab⟩ := hunits (fun x => { x with state := .loaded, ending := false, drained := false })
    (s.ctxPlane c) fun p => { p with issuing := false }
  refine (State.refreshRun_kept (hblind _) _ _).trans ((State.swapAway_kept (hblind _) _ _).trans ?_)
  have hrecord := State.note_recordAt (((s.onCtx c fun x => { x with state := .loaded, ending := false, drained := false }).onPlane
    (s.ctxPlane c) fun p => { p with issuing := false }).flexReleaseCtx c) 0x0804 .info unitContexts [] (some c)
  rw [herr, hclk, hfab] at hrecord
  exact hrecord

/-! ## The end of a context reset -/

/-- The end of a context reset up to what waits for it: the context is quiet and the reset is counted (R465). -/
def State.resetOver (s : State) (c : Nat) : State :=
  let s1 := (s.onCtx c fun x => { x with stopping := false, resetting := false, destroyAfter := [] }).endHandling (.ctxReset c)
  { s1 with err := { s1.err with ctxResetCnt := bump s1.err.ctxResetCnt } }

theorem State.resetEnds_of_nil {s : State} {c : Nat} (hreset : (s.ctx c).resetting = true) (hwho : (s.ctx c).destroyAfter = []) :
    s.resetEnds c = (s.resetOver c).replaysEnd (s.ctx c).vat.toNat := by
  unfold State.resetEnds
  rw [hreset, hwho]
  rfl

theorem State.resetEnds_of_one {s : State} {c : Nat} {k : Fin 8} {req : W32} (hreset : (s.ctx c).resetting = true)
    (hwho : (s.ctx c).destroyAfter = [some (.session k, req)]) : s.resetEnds c =
      (((s.resetOver c).freeCtx c).replaysEnd (s.ctx c).vat.toNat).reply (.session k) req 0x0014 stOK [] := by
  unfold State.resetEnds State.resetOver
  simp only [hreset, hwho, Bool.not_true, Bool.false_eq_true, if_false, List.isEmpty_cons, List.foldl_cons, List.foldl_nil]

theorem State.replaysEnd_ctxResetCnt (s : State) (v : Nat) : (s.replaysEnd v).err.ctxResetCnt = s.err.ctxResetCnt := by
  have h : BlindToSwap fun t => t.err.ctxResetCnt := ⟨fun _ _ => rfl, fun _ _ => rfl, fun _ _ => rfl, fun _ _ => rfl⟩
  have hpause (s : State) (c : Nat) : (s.pauseRunning c).err.ctxResetCnt = s.err.ctxResetCnt :=
    ite_kept (π := fun t => t.err.ctxResetCnt) rfl (State.pauseNow_kept h (fun _ _ => rfl) (fun _ _ => rfl) s c)
  have hlaunch (s : State) (c : Nat) : (s.launchCtx c).err.ctxResetCnt = s.err.ctxResetCnt :=
    State.launchCtx_kept h (fun _ _ => rfl) s c
  refine State.replaysEnd_kept h (fun _ _ => rfl) (fun s c => ?_) s v
  unfold State.applyHeld
  dsimp only
  split <;> split <;> simp only [hlaunch, hpause, State.onCtx_err]

theorem State.freeCtx_ctxResetCnt (s : State) (c : Nat) : (s.freeCtx c).err.ctxResetCnt = s.err.ctxResetCnt :=
  State.freeCtx_kept (π := fun t => t.err.ctxResetCnt)
    ⟨⟨⟨⟨⟨fun _ _ => rfl, fun _ _ => rfl, fun _ _ => rfl, fun _ _ => rfl, fun _ _ => rfl, fun _ _ => rfl⟩, fun _ _ => rfl, fun _ _ => rfl⟩,
      fun _ _ => rfl⟩, fun _ _ => rfl⟩, fun _ _ => rfl, fun _ _ => rfl, fun _ _ => rfl, fun _ _ => rfl, fun _ _ => rfl⟩ s c

/-- The state in which a context reset that CONTEXT_RESET calls for does its work. -/
def State.resetBegun (s : State) (c : Nat) : State :=
  let s1 := (s.endHandling (.ctx c)).begin (.ctxReset c) (.ctxReset c) (BitVec.allOnes 64)
  { s1 with err := { s1.err with todo := [] } }

/-- Settles O26: each end by its guard, the reset by its work list. -/
theorem contextStops : Obligations.ContextStops := by
  refine ⟨fun c s hstate hdrained hbusy => ?drained, fun i c s hbusy hi => ?waits, fun c s hstate hending hbusy => ?ended,
    fun c s hstop hreset hbusy => ?quiet, fun c s hfree => ?free, fun c s hstate htodo => ?reset, fun c s hreset => ?nothing,
    fun c s hreset hwho => ?resetOver, fun c k req s hreset hwho => ?destroyed⟩
  case drained =>
    have hguard : ((s.ctx c.val).state = .draining && (s.ctx c.val).drained && !s.busyOps c.val) = true := by
      rw [hstate, hdrained, hbusy]
      rfl
    have hctx := s.pauseNow_ctx c.val
    refine ⟨s.pauseNow c.val, congrArg Host.Outcome.next (if_pos hguard), ?_, fun d hd => ?_, State.byteAt_of_mem (s.pauseNow_mem c.val)⟩
    · rw [hctx, if_pos rfl]
    · rw [hctx, if_neg hd]
  case waits =>
    rcases hi with rfl | rfl | rfl
    · exact congrArg Host.Outcome.next (if_neg (by rw [hbusy]; simp))
    · exact congrArg Host.Outcome.next (if_neg (by rw [hbusy]; simp))
    · exact congrArg Host.Outcome.next (if_neg (by rw [hbusy]; simp))
  case ended =>
    have hguard : ((s.ctx c.val).state.runs && (s.ctx c.val).ending && !s.busyOps c.val) = true := by
      rw [hstate, hending, hbusy]
      rfl
    have hctx := s.endRun_ctx c.val
    have hrecord := s.endRun_recordAt c.val
    refine ⟨s.endRun c.val, congrArg Host.Outcome.next (if_pos hguard), ?_, ?_, ?_, ?_, fun d hd => ?_,
      State.byteAt_of_mem (s.endRun_mem c.val)⟩
    · rw [hctx, if_pos rfl]
    · rw [hrecord]
    · rw [hrecord]
    · rw [hrecord]
    · rw [hctx, if_neg hd]
  case quiet =>
    have hguard : ((s.ctx c.val).stopping && !(s.ctx c.val).resetting && !s.busyOps c.val) = true := by
      rw [hstop, hreset, hbusy]
      rfl
    refine ⟨_, congrArg Host.Outcome.next (if_pos hguard), rfl,
      s.onCtx_ctx_same c.val fun x => { x with stopping := false }, fun h hh => ?_⟩
    have := (List.mem_filter.mp hh).2
    simp only [Bool.not_or, Bool.and_eq_true, Bool.not_eq_true', beq_eq_false_iff_ne] at this
    exact this.1
  case free => exact congrArg Host.Outcome.next (if_pos hfree)
  case reset =>
    have hexec : exec (.contextReset c) s = .next ((s.resetBegun c.val).ctxReset c.val) := by
      refine congrArg Host.Outcome.next ((if_neg hstate).trans (State.finish_of_todo_ctxReset ?_))
      show s.err.todo ++ [.ctxReset c.val] = _
      rw [htodo]
      rfl
    have hctxs : (s.resetBegun c.val).ctxs = s.ctxs := rfl
    have hfab : (s.resetBegun c.val).fab = s.fab := rfl
    generalize s.resetBegun c.val = u at hexec hctxs hfab
    have hflight := u.ctxReset_flight c.val
    rw [hfab] at hflight
    refine ⟨_, hexec, ?_, ?_, ?_, hflight, fun d _ => ?_, ?_⟩
    · rw [State.ctxReset_eq, State.onCtx_ctx_same]
    · rw [State.ctxReset_eq, State.onCtx_ctx_same]
    · rw [State.ctxReset_ctx_state, State.ctx_of_ctxs hctxs]
    · rw [State.ctxReset_ctx_state, State.ctx_of_ctxs hctxs]
    · exact State.byteAt_of_mem ((u.ctxReset_mem c.val).trans (congrArg Fabric.mem hfab))
  case nothing =>
    refine congrArg Host.Outcome.next (if_pos ?_)
    rw [hreset]
    rfl
  case resetOver =>
    have hstop := State.replaysEnd_kept (π := fun t => (t.ctx c.val).stopping)
      ⟨fun _ _ => rfl, fun _ _ => rfl, fun _ _ => rfl, fun _ _ => rfl⟩ (fun _ _ => rfl)
      (fun a d => State.applyHeld_blind ⟨fun _ _ _ _ => rfl, fun _ => rfl⟩ a d c.val) (s.resetOver c.val) (s.ctx c.val).vat.toNat
    have hreset' := State.replaysEnd_kept (π := fun t => (t.ctx c.val).resetting)
      ⟨fun _ _ => rfl, fun _ _ => rfl, fun _ _ => rfl, fun _ _ => rfl⟩ (fun _ _ => rfl)
      (fun a d => State.applyHeld_blind ⟨fun _ _ _ _ => rfl, fun _ => rfl⟩ a d c.val) (s.resetOver c.val) (s.ctx c.val).vat.toNat
    have hctx : (s.resetOver c.val).ctx c.val = { s.ctx c.val with stopping := false, resetting := false, destroyAfter := [] } :=
      s.onCtx_ctx_same c.val fun x => { x with stopping := false, resetting := false, destroyAfter := [] }
    refine ⟨_, congrArg Host.Outcome.next (State.resetEnds_of_nil hreset hwho), ?_, ?_, ?_, ?_⟩
    · exact hreset'.trans (congrArg Ctx.resetting hctx)
    · exact hstop.trans (congrArg Ctx.stopping hctx)
    · rw [State.replaysEnd_ctxResetCnt]
      rfl
    · exact State.byteAt_of_mem (State.replaysEnd_mem _ _)
  case destroyed =>
    refine ⟨_, congrArg Host.Outcome.next (State.resetEnds_of_one hreset hwho), ?_, ?_, State.reply_repliedWith _ _ _ _ _ _ _⟩
    · rw [State.reply_session_ctx]
      refine State.replaysEnd_ctx_free ?_ _
      rw [State.freeCtx_ctx_same]
      rfl
    · have hsent := State.reply_session_kept (π := fun t => t.err) (fun _ _ => rfl) (fun _ _ => rfl)
        (((s.resetOver c.val).freeCtx c.val).replaysEnd (s.ctx c.val).vat.toNat) k req 0x0014 stOK [] false
      rw [hsent, State.replaysEnd_ctxResetCnt, State.freeCtx_ctxResetCnt]
      rfl

end Sys2Proof.Machine
end

section
/-! SUPPORT. ABORT cells, hangs and replays: the settled statement. -/

namespace Sys2Proof.Machine

/-! ## ABORT -/

/-- An ABORT cell before the faults of its group: the origin's requests are purged and filtered (R467, R470). -/
def State.abortFiltered (s : State) (x : Cell) : State :=
  let s1 := s.purge x.spkg (x.pay 2 1)
  { s1 with err := { s1.err with abortRx := bump s1.err.abortRx },
            fab := { s1.fab with flight := s1.fab.flight.erase x,
                                 filters := if s1.fab.filters.contains (x.spkg, x.pay 2 1) then s1.fab.filters
                                            else s1.fab.filters ++ [(x.spkg, x.pay 2 1)] } }

theorem State.abortFiltered_filters (s : State) (x : Cell) : (x.spkg, x.pay 2 1) ∈ (s.abortFiltered x).fab.filters := by
  show (x.spkg, x.pay 2 1) ∈ if (s.purge x.spkg (x.pay 2 1)).fab.filters.contains (x.spkg, x.pay 2 1) then _ else _
  split
  · rename_i h
    exact List.contains_iff_mem.mp h
  · exact List.mem_append_right _ (List.mem_singleton_self _)

theorem State.abortFiltered_flight (s : State) (x : Cell) : ∀ y ∈ (s.abortFiltered x).fab.flight, cellOf x.spkg (x.pay 2 1) y = false := by
  intro y hy
  have hpurged : y ∈ s.fab.flight.filter fun z => !cellOf x.spkg (x.pay 2 1) z := List.mem_of_mem_erase hy
  simpa using (List.mem_filter.mp hpurged).2

theorem State.abortArrives_of_reset {s : State} {x : Cell} (h : x.pay 3 1 ≠ 2) : s.abortArrives x = s.abortFiltered x :=
  if_neg h

/-- The contexts that a GROUP_ABORT of a group faults. -/
def State.groupHit (s : State) (group : Nat) : List Nat :=
  (List.range 64).filter fun d =>
    group != 0 && (s.ctx d).group.toNat == group && (s.ctx d).state != .free && (s.ctx d).state != .faulted

/-- The fault of one context of an aborted group. -/
def State.groupFault (x : Cell) (s : State) (d : Nat) : State :=
  s.ctxFault d 0x0803 unitContexts [BitVec.ofNat 64 x.spkg, BitVec.ofNat 64 (x.pay 2 1), BitVec.ofNat 64 (x.pay 8 8)]
    .context true true (some (.ctxReset d))

theorem State.abortArrives_of_group {s : State} {x : Cell} (h : x.pay 3 1 = 2) : s.abortArrives x =
    (((s.abortFiltered x).groupHit (x.pay 0 2)).foldl (State.groupFault x) (s.abortFiltered x)).finish :=
  if_pos h

/-! ## Faults of contexts -/

/-- A designed record calls for its handling, whether or not another is in progress. -/
theorem State.record_designed_todo (s : State) (code : W16) (u : W16) (c : Option Nat) (d : List W64) (sc : Scope) (remote : Bool) :
    (s.record code .context u c d (some sc) true remote).err.todo = s.err.todo ++ [sc.todo] := by
  have hput (r : ErrRec) : (if 2 ≤ Severity.context.code then s.announce r else s.pushRecord r).err.todo = s.err.todo :=
    State.announce_kept (π := fun t => t.err.todo)
      ⟨⟨⟨⟨fun _ _ => rfl, fun _ _ => rfl, fun _ _ => rfl, fun _ _ => rfl, fun _ _ => rfl, fun _ _ => rfl⟩, fun _ _ => rfl, fun _ _ => rfl⟩,
        fun _ _ => rfl⟩, fun _ _ => rfl, fun _ _ _ _ => rfl⟩ s r
  unfold State.record
  dsimp only
  split
  · exact congrArg (· ++ [sc.todo]) (hput _)
  · exact congrArg (· ++ [sc.todo]) (hput _)

theorem blindToRecord_state (d : Nat) : BlindToRecord fun t => (t.ctx d).state where
  flight _ _ := rfl
  held _ _ := rfl
  ops _ _ := rfl
  nextTag _ _ := rfl
  links _ _ := rfl
  credit _ _ := rfl
  kcp _ _ := rfl
  eth _ _ := rfl
  push _ _ := rfl
  svc _ _ := rfl
  last s c q code := State.onCtx_blind (g := Ctx.state) (f := fun x => { x with lastSeq := q, lastCode := code }) (fun _ => rfl) s c d
  work _ _ _ := rfl

/-- A fault within an aborted group: a context that is neither FREE nor FAULTED becomes FAULTED and no other moves. -/
theorem State.groupFault_ctx_state (x : Cell) (s : State) (d e : Nat) : ((State.groupFault x s d).ctx e).state =
    if e = d ∧ (s.ctx d).state ≠ .free then .faulted else (s.ctx e).state := by
  unfold State.groupFault State.ctxFault
  split
  · rename_i hfree
    rw [if_neg (by simp [hfree])]
  · rename_i hfaulted
    rw [if_neg (by simp)]
    split
    · rename_i h
      rw [h.1, hfaulted]
    · rfl
  · rename_i hfree _
    refine (State.record_kept (blindToRecord_state e) _ _ _ _ _ _ _ _ _ _).trans ?_
    have hctx := s.onCtx_ctx d e fun x => { x with state := .faulted, stopping := true, drained := false, ending := false }
    refine (congrArg Ctx.state hctx).trans ?_
    by_cases hed : e = d
    · rw [if_pos hed, if_pos ⟨hed, hfree⟩]
    · rw [if_neg hed, if_neg (fun h => hed h.1)]

theorem State.foldl_groupFault_ctx_state (x : Cell) (l : List Nat) (s : State) (e : Nat) :
    ((l.foldl (State.groupFault x) s).ctx e).state = if e ∈ l ∧ (s.ctx e).state ≠ .free then .faulted else (s.ctx e).state := by
  induction l generalizing s with
  | nil => simp
  | cons d l ih =>
    rw [List.foldl_cons, ih, State.groupFault_ctx_state]
    by_cases hed : e = d
    · subst hed
      by_cases hfree : (s.ctx e).state = .free <;> simp [hfree]
    · simp [hed]

/-- Each fault of an aborted group calls for context resets alone. -/
theorem State.groupFault_todo (x : Cell) (s : State) (d : Nat) (h : ∀ t ∈ s.err.todo, ∃ c, t = .ctxReset c) :
    ∀ t ∈ (State.groupFault x s d).err.todo, ∃ c, t = .ctxReset c := by
  unfold State.groupFault State.ctxFault
  split
  · exact h
  · rw [if_neg (by simp)]
    exact h
  · intro t ht
    rw [State.record_designed_todo, List.mem_append, List.mem_singleton] at ht
    rcases ht with ht | rfl
    · exact h t ht
    · exact ⟨d, rfl⟩

/-- What a GROUP_ABORT leaves, for a reading that no context reset changes. -/
theorem State.abortArrives_group_kept {α : Type} {π : State → α} (hreset : ∀ s c, π (s.ctxReset c) = π s)
    (hwork : ∀ s x, π { s with err := { s.err with todo := x } } = π s) {s : State} {x : Cell} (h : x.pay 3 1 = 2)
    (htodo : s.err.todo = []) : π (s.abortArrives x) =
      π (((s.abortFiltered x).groupHit (x.pay 0 2)).foldl (State.groupFault x) (s.abortFiltered x)) := by
  rw [State.abortArrives_of_group h]
  refine State.drainTodo_ctxResets hreset hwork 400 ?_
  refine foldl_invariant (P := fun a => ∀ t ∈ a.err.todo, ∃ c, t = .ctxReset c) (fun a d ha => State.groupFault_todo x a d ha) _ ?_
  rw [show (s.abortFiltered x).err.todo = [] from htodo]
  exact fun t ht => absurd ht List.not_mem_nil

theorem State.ctxReset_filters (s : State) (c : Nat) : (s.ctxReset c).fab.filters = s.fab.filters := by
  rw [State.ctxReset_eq]
  exact State.ctxResetCells_kept (π := fun t => t.fab.filters)
    ⟨⟨fun _ _ h => h, fun _ _ => rfl, fun _ _ => rfl, fun _ _ => rfl, fun _ _ => rfl, fun _ _ _ => rfl, fun _ _ _ => rfl,
      fun _ _ _ => rfl⟩, fun _ _ => rfl, fun _ _ => rfl, fun _ _ => rfl, fun _ _ => rfl, fun _ _ => rfl, fun _ _ => rfl⟩ s c

theorem State.groupFault_filters (x : Cell) (s : State) (d : Nat) : (State.groupFault x s d).fab.filters = s.fab.filters :=
  State.ctxFault_kept (π := fun t => t.fab.filters)
    ⟨⟨⟨⟨⟨fun _ _ => rfl, fun _ _ => rfl, fun _ _ => rfl, fun _ _ => rfl, fun _ _ => rfl, fun _ _ => rfl⟩, fun _ _ => rfl, fun _ _ => rfl⟩,
      fun _ _ => rfl⟩, fun _ _ => rfl, fun _ _ _ _ => rfl⟩, fun _ _ _ => rfl⟩ (fun _ _ => rfl) (fun _ _ => rfl) s d _ _ _ _ _ _ _

/-- Released cells that there are none of leave the state as it is. -/
theorem State.relaunch_of_nil {s : State} (h : s.fab.held = []) : s.relaunch = s := by
  unfold State.relaunch State.launchAll
  rw [h, List.foldl_nil, ← h]

/-! ## Hangs -/

/-- A record of a unit that no handling in progress covers starts its own. -/
theorem State.record_unit_start {s : State} (h : s.err.handlings = []) (code u : W16) (d : List W64) (sc : Scope) (t : Todo) :
    s.record code .unit u none d (some sc) false false (some t) =
      (s.announce { code := code, severity := .unit, unit := u, details := d, action := sc.action }).begin sc t s.err.seqNext := by
  unfold State.record
  rw [h]
  rfl

theorem State.notify_of_room {s : State} (h : s.kcp.pending.length < 256) (o : W16) (p : List Byte) :
    s.notify o p = (s.addNotification o p).2 := by
  have hroom : (s.addNotification o p).1 = false := decide_eq_false (by omega)
  unfold State.notify
  split
  · rename_i e; rw [e] at hroom; cases hroom
  · rename_i e; rw [e]

/-- What a record of a unit leaves of readings that notifications, the ring and the lamps do not enter. -/
theorem State.announce_unit_kept {α : Type} {π : State → α} (h : BlindToReport π) (hsvc : ∀ s x, π { s with svc := x } = π s)
    (s : State) {r : ErrRec} (hr : r.ctxValid = false) : π (s.announce r) = π s := by
  unfold State.announce
  refine ite_kept rfl ?_
  rw [State.notify_kept h, State.pushRecord_kept h, hr]
  exact ite_kept (hsvc s _) rfl

/-- A record of a unit lights the lamp, enters the ring and raises its notification. -/
theorem State.announce_unit {s : State} {r : ErrRec} (hr : r.ctxValid = false) (hsev : r.severity = .unit) : s.announce r =
    (State.pushRecord { s with svc := { s.svc with unitRecord := true } } r).notify 0x0081
      ({ r with seq := s.err.seqNext, time := s.clk.now, pkg := s.fab.pkgId } : ErrRec).bytes := by
  have hhigh : ¬ r.severity.code < 2 := by rw [hsev]; decide
  have hunit : 3 ≤ r.severity.code := by rw [hsev]; decide
  unfold State.announce
  simp only [if_neg hhigh, if_pos hunit, hr, Bool.false_eq_true, if_false]

/-- A record of a unit reads back from the ring while its notification finds room. -/
theorem State.announce_unit_recordAt {s : State} {r : ErrRec} (hr : r.ctxValid = false) (hsev : r.severity = .unit)
    (hroom : s.kcp.pending.length < 256) :
    (s.announce r).recordAt s.err.seqNext = { r with seq := s.err.seqNext, time := s.clk.now, pkg := s.fab.pkgId } := by
  rw [State.announce_unit hr hsev, State.notify_of_room (by exact hroom)]
  refine (State.addNotification_kept (π := fun t => t.recordAt s.err.seqNext) ⟨⟨fun _ _ => rfl, fun _ _ => rfl, fun _ _ => rfl,
    fun _ _ => rfl, fun _ _ => rfl, fun _ _ => rfl⟩, fun _ _ => rfl, fun _ _ => rfl⟩ _ _ _).trans ?_
  exact State.pushRecord_recordAt { s with svc := { s.svc with unitRecord := true } } r

/-- The contexts that run in a vat, the active one first. -/
def State.hangOrder (s : State) (v : Nat) : List Nat :=
  let run := (s.residents v).filter fun c => (s.ctx c).state.runs
  run.filter s.isActive ++ run.filter fun c => !s.isActive c

theorem State.mem_hangOrder {s : State} {v c : Nat} (hc : c ∈ s.residents v) (hrun : (s.ctx c).state.runs = true) : c ∈ s.hangOrder v := by
  cases hactive : s.isActive c <;> simp [State.hangOrder, hc, hrun, hactive]

/-- What a hang does to one suspect: its cells are discarded and it keeps its state (R473). -/
def State.makeSuspect (s : State) (c : Nat) : State :=
  ((((s.removeJobs c).sendReset c).purge s.fab.pkgId.toNat c).dropOps fun o => o.ctx == c && o.port != 52).onCtx c
    fun x => { x with suspect := true }

theorem State.vatReset_hang (s : State) (v : Nat) : s.vatReset v true =
    (((((((s.hangOrder v).foldl State.makeSuspect s).stopTiles v).wipeVat v false).abortLoads fun t => t.vat == v).onVat v fun x =>
      { x with suspects := s.hangOrder v, replaying := none, passed := [] })).startReset (.vat (Fin.ofNat 32 v)) :=
  if_pos rfl

theorem State.makeSuspect_kept {α : Type} {π : State → α} (h : BlindToPurge π)
    (hsuspect : ∀ s c, π (s.onCtx c fun x => { x with suspect := true }) = π s) (s : State) (c : Nat) : π (s.makeSuspect c) = π s := by
  unfold State.makeSuspect
  rw [hsuspect, State.dropOps_kept h, State.purge_kept h, State.sendReset_kept h, State.removeJobs_kept h]

theorem State.makeSuspect_ctx_state (s : State) (c d : Nat) : ((s.makeSuspect c).ctx d).state = (s.ctx d).state :=
  State.makeSuspect_kept (blindToStop_state d).toBlindToPurge
    (fun s c => State.onCtx_blind (g := Ctx.state) (f := fun x => { x with suspect := true }) (fun _ => rfl) s c d) s c

theorem State.makeSuspect_ctx_suspect (s : State) (c d : Nat) :
    ((s.makeSuspect c).ctx d).suspect = (decide (d = c) || (s.ctx d).suspect) := by
  have h : BlindToPurge fun t => (t.ctx d).suspect :=
    (blindToStop_ctx (g := Ctx.suspect) (fun _ _ => rfl) (fun _ _ => rfl) (fun _ _ => rfl) d).toBlindToPurge
  have hcells : ((((((s.removeJobs c).sendReset c).purge s.fab.pkgId.toNat c).dropOps fun o => o.ctx == c && o.port != 52)).ctx d).suspect =
      (s.ctx d).suspect :=
    (State.dropOps_kept h _ _).trans ((State.purge_kept h _ _ _).trans ((State.sendReset_kept h _ _).trans (State.removeJobs_kept h s c)))
  unfold State.makeSuspect
  rw [State.onCtx_ctx]
  by_cases hdc : d = c
  · simp [hdc]
  · rw [if_neg hdc, hcells]
    simp [hdc]

/-- After a hang every context that ran is a suspect. -/
theorem State.foldl_makeSuspect_suspect (l : List Nat) (s : State) (d : Nat) :
    ((l.foldl State.makeSuspect s).ctx d).suspect = (decide (d ∈ l) || (s.ctx d).suspect) := by
  induction l generalizing s with
  | nil => simp
  | cons c l ih =>
    rw [List.foldl_cons, ih, State.makeSuspect_ctx_suspect]
    by_cases hdc : d = c <;> simp [hdc]

theorem State.abortLoads_of_nil {s : State} (h : s.loads = []) (f : LoadTarget → Bool) : s.abortLoads f = s := by
  unfold State.abortLoads State.finishLoads
  simp only [h, List.foldl_nil, List.filter_nil]
  rw [← h]

/-- A plane as the reset of its vat leaves it: what it holds of the culture and its checkpoint stay (R81, R475). -/
def Plane.quieted (p : Plane) : Plane :=
  { p with issuing := false, blocked := none, busy := 0, resv := none, ladles := [], groups := [], newFlags := 0, delayed := 0 }

theorem State.wipeVat_plane (s : State) (flags : Bool) (p : Nat) : (s.wipeVat (p / 2) flags).plane p = (s.plane p).quieted := by
  have hplanes : (s.wipeVat (p / 2) flags).planes = Tbl.mapVals {} (fun k q => if k / 2 = p / 2 then Plane.quieted q else q) s.planes := rfl
  rw [State.plane, hplanes, Tbl.look_mapVals {} _ s.planes p (ite_self _), if_pos rfl]
  rfl

theorem State.wipeVat_run (s : State) (v : Nat) (flags : Bool) : ((s.wipeVat v flags).vat v).run = .reset :=
  congrArg Vat.run (State.onVat_vat_same _ v _)

theorem State.stopTiles_planes (s : State) (v : Nat) : (s.stopTiles v).planes = s.planes := by
  unfold State.stopTiles
  rw [State.onVat_planes]
  exact foldl_kept (π := fun t => t.planes) (fun a t => State.onTile_planes a v t _) _ s

/-- The reset that a hang calls for, where no load is in progress: the suspects, the vat, its planes and what stays. -/
theorem State.vatReset_hang_facts {s : State} (hloads : s.loads = []) (htodo : s.err.todo = []) (v c : Nat) (hc : c ∈ s.hangOrder v)
    (p : Nat) (hp : p / 2 = v) (n : W64) :
    (s.vatReset v true).err.todo = [] ∧ ((s.vatReset v true).vat v).run = .reset ∧ ((s.vatReset v true).vat v).suspects = s.hangOrder v ∧
      ((s.vatReset v true).ctx c).suspect = true ∧ ((s.vatReset v true).ctx c).state = (s.ctx c).state ∧
      (s.vatReset v true).plane p = (s.plane p).quieted ∧ (s.vatReset v true).recordAt n = s.recordAt n := by
  have hcells := foldl_kept (π := fun t => (t.loads, t.err.todo, t.planes, t.recordAt n)) (f := State.makeSuspect)
    (State.makeSuspect_kept (π := fun t => (t.loads, t.err.todo, t.planes, t.recordAt n)) ⟨fun _ _ _ => rfl, fun _ _ => rfl, fun _ _ => rfl, fun _ _ => rfl, fun _ _ => rfl, fun _ _ _ => rfl, fun _ _ _ => rfl, fun _ _ _ => rfl⟩
    (fun _ _ => rfl)) (s.hangOrder v) s
  have hstate := foldl_kept (π := fun t => (t.ctx c).state) (fun a d => State.makeSuspect_ctx_state a d c) (s.hangOrder v) s
  have hsuspect := State.foldl_makeSuspect_suspect (s.hangOrder v) s c
  rw [State.vatReset_hang]
  generalize (s.hangOrder v).foldl State.makeSuspect s = u at hcells hstate hsuspect ⊢
  have htiles := State.stopTiles_kept (π := fun t => (t.loads, t.err.todo, t.ctxs, t.recordAt n))
    ⟨fun _ _ => rfl, fun _ _ => rfl, fun _ _ => rfl, fun _ _ => rfl⟩ u v
  have hplanes := u.stopTiles_planes v
  simp only [Prod.mk.injEq] at hcells htiles
  obtain ⟨hloads', htodo', hplanes', hrecord⟩ := hcells
  obtain ⟨hloads'', htodo'', hctxs, hrecord'⟩ := htiles
  generalize u.stopTiles v = w at hplanes hloads'' htodo'' hctxs hrecord' ⊢
  rw [State.abortLoads_of_nil (show (w.wipeVat v false).loads = [] from hloads''.trans (hloads'.trans hloads))]
  have hvat := (w.wipeVat v false).onVat_vat_same v fun x => { x with suspects := s.hangOrder v, replaying := none, passed := [] }
  refine ⟨htodo''.trans (htodo'.trans htodo), ?_, ?_, ?_, ?_, ?_, hrecord'.trans hrecord⟩
  · exact (congrArg Vat.run hvat).trans (w.wipeVat_run v false)
  · exact congrArg Vat.suspects hvat
  · exact (congrArg Ctx.suspect (State.ctx_of_ctxs hctxs c)).trans (hsuspect.trans (by simp [hc]))
  · exact (congrArg Ctx.state (State.ctx_of_ctxs hctxs c)).trans hstate
  · subst hp
    exact (w.wipeVat_plane false p).trans (congrArg Plane.quieted (State.plane_of_planes (hplanes.trans hplanes') p))

/-- The record of a hang (R473). -/
def State.hangRecord (s : State) (v : Nat) : ErrRec :=
  let sus := (s.residents v).filter fun c => (s.ctx c).state.runs
  let details := [BitVec.ofNat 64 (maskOf 64 fun c => sus.contains c), (s.vat v).lastBoundaryId.zeroExtend 64]
  { code := 0x0902, severity := .unit, unit := unitVat v, action := .vatReset, details := details }

/-- The state in which the reset that a hang calls for does its work (R473). -/
def State.hangRecorded (s : State) (v : Nat) : State :=
  let s1 := (s.announce (s.hangRecord v)).begin (.vat v) (.vat v true) s.err.seqNext
  { s1 with err := { s1.err with todo := [] } }

theorem State.hangRecorded_kept {α : Type} {π : State → α} (h : BlindToReport π) (hsvc : ∀ s x, π { s with svc := x } = π s)
    (herr : ∀ s x, π { s with err := x } = π s) (s : State) (v : Nat) : π (s.hangRecorded v) = π s :=
  (herr _ _).trans ((herr _ _).trans (State.announce_unit_kept h hsvc s (r := s.hangRecord v) rfl))

theorem State.hangRecorded_recordAt {s : State} (hpending : s.kcp.pending = []) (v : Nat) :
    (s.hangRecorded v).recordAt s.err.seqNext =
      { s.hangRecord v with seq := s.err.seqNext, time := s.clk.now, pkg := s.fab.pkgId } := by
  have hbegun (b : State) (q : W64) : State.recordAt { b.begin (.vat v) (.vat v true) q with
      err := { (b.begin (.vat v) (.vat v true) q).err with todo := [] } } s.err.seqNext = b.recordAt s.err.seqNext := rfl
  exact (hbegun _ _).trans (State.announce_unit_recordAt (r := s.hangRecord v) rfl rfl (by rw [hpending]; decide))

theorem State.announce_unit_todo (s : State) {r : ErrRec} (hr : r.ctxValid = false) : (s.announce r).err.todo = s.err.todo :=
  State.announce_unit_kept (π := fun t => t.err.todo) ⟨⟨⟨fun _ _ => rfl, fun _ _ => rfl, fun _ _ => rfl, fun _ _ => rfl, fun _ _ => rfl,
    fun _ _ => rfl⟩, fun _ _ => rfl, fun _ _ => rfl⟩, fun _ _ => rfl⟩ (fun _ _ => rfl) s hr

theorem State.hangRecorded_loads (s : State) (v : Nat) : (s.hangRecorded v).loads = s.loads :=
  State.hangRecorded_kept (π := fun t => t.loads) ⟨⟨⟨fun _ _ => rfl, fun _ _ => rfl, fun _ _ => rfl, fun _ _ => rfl, fun _ _ => rfl,
    fun _ _ => rfl⟩, fun _ _ => rfl, fun _ _ => rfl⟩, fun _ _ => rfl⟩ (fun _ _ => rfl) (fun _ _ => rfl) s v

/-- A work list of one entry that calls for nothing more. -/
theorem State.finish_of_todo_one {s : State} {t : Todo} (h : s.err.todo = [t])
    (hdone : (State.doTodo { s with err := { s.err with todo := [] } } t).err.todo = []) :
    s.finish = State.doTodo { s with err := { s.err with todo := [] } } t :=
  (State.drainTodo_of_todo_cons 399 h).trans (State.drainTodo_of_todo_nil 399 hdone)

/-- A hang of a vat that replays nothing resets it (R473). -/
theorem State.hang_eq {s : State} {v c : Nat} (hrun : (s.vat v).run = .run) (hreplay : (s.vat v).replaying = none)
    (hc : c ∈ s.residents v) (hruns : (s.ctx c).state.runs = true) (htodo : s.err.todo = []) (hhandlings : s.err.handlings = [])
    (hreset : ((s.hangRecorded v).vatReset v true).err.todo = []) : s.hang v = (s.hangRecorded v).vatReset v true := by
  have hguard : ((s.vat v).run = .run ∨ (s.vat v).run = .swap) ∧ ((s.residents v).any fun c => (s.ctx c).state.runs) = true :=
    ⟨.inl hrun, List.any_eq_true.mpr ⟨c, hc, hruns⟩⟩
  have hstart := State.record_unit_start hhandlings 0x0902 (unitVat v) (s.hangRecord v).details (.vat v) (.vat v true)
  have hwork : ((s.announce (s.hangRecord v)).begin (.vat v) (.vat v true) s.err.seqNext).err.todo = [.vat v true] := by
    show (s.announce (s.hangRecord v)).err.todo ++ [.vat v true] = _
    rw [State.announce_unit_todo s rfl, htodo]
    rfl
  have hhang : s.hang v = ((s.announce (s.hangRecord v)).begin (.vat v) (.vat v true) s.err.seqNext).finish := by
    unfold State.hang
    dsimp only
    rw [if_pos hguard, hreplay]
    exact congrArg State.finish hstart
  have hdo : State.doTodo { (s.announce (s.hangRecord v)).begin (.vat v) (.vat v true) s.err.seqNext with
      err := { ((s.announce (s.hangRecord v)).begin (.vat v) (.vat v true) s.err.seqNext).err with todo := [] } } (.vat v true) =
      (s.hangRecorded v).vatReset v true := by
    rw [State.hangRecorded, State.doTodo]
  rw [hhang, State.finish_of_todo_one hwork (by rw [hdo]; exact hreset), hdo]

/-! ## Replays -/

/-- A rewrite of a vat that keeps which plane is active keeps which contexts are. -/
theorem State.onVat_isActive (s : State) (v c : Nat) {f : Vat → Vat} (hf : ∀ x, (f x).plane = x.plane) :
    (s.onVat v f).isActive c = s.isActive c := by
  have hplane (w : Nat) : ((s.onVat v f).vat w).plane = (s.vat w).plane := by
    rw [State.onVat_vat]
    split
    · rename_i e; rw [hf, e]
    · rfl
  have hctx : (s.onVat v f).ctx c = s.ctx c := rfl
  rw [State.isActive, State.activePlane, hplane, State.ctxPlane, hctx]
  rfl

/-- The first suspect as it is replayed: back at its checkpoint, alone in its vat (R475). -/
def State.replayed (s : State) (v c : Nat) (rest : List Nat) : State :=
  let s1 := s.onVat v fun x => { x with suspects := rest, replaying := some c }
  let s2 := (s1.onPlane (s.ctxPlane c) Plane.restored).onCtx c fun x =>
    { x with replaying := true, resetSent := false, drained := false }
  { s2 with err := { s2.err with replayCnt := bump s2.err.replayCnt } }.refreshRun v

theorem State.refreshRun_isActive (s : State) (v c : Nat) : (s.refreshRun v).isActive c = s.isActive c := by
  unfold State.refreshRun
  exact s.onVat_isActive v c fun _ => rfl

theorem State.replayed_isActive (s : State) (v c : Nat) (rest : List Nat) : (s.replayed v c rest).isActive c = s.isActive c := by
  have hvat := s.onVat_isActive v c (f := fun x => { x with suspects := rest, replaying := some c }) fun x => rfl
  unfold State.replayed
  dsimp only
  rw [State.refreshRun_isActive, ← hvat]
  generalize s.onVat v (fun x => { x with suspects := rest, replaying := some c }) = u
  have hctx := (u.onPlane (s.ctxPlane c) Plane.restored).onCtx_ctx_same c fun x =>
    { x with replaying := true, resetSent := false, drained := false }
  exact State.isActive_congr rfl (congrArg Ctx.resident hctx :) (congrArg Ctx.vat hctx :) (congrArg Ctx.plane hctx :)

theorem State.replay_of_active {s : State} {v c : Nat} {rest : List Nat} (hsus : (s.vat v).suspects = c :: rest)
    (hreplay : (s.vat v).replaying = none) (hrun : (s.vat v).run = .idle) (hactive : s.isActive c = true) :
    s.replay v = s.replayed v c rest := by
  have hnot : ¬ (s.vat v).run = .reset := by rw [hrun]; decide
  have hstay : (s.replayed v c rest).isActive c = true := (s.replayed_isActive v c rest).trans hactive
  unfold State.replayed at hstay ⊢
  unfold State.replay
  rw [hsus, hreplay]
  dsimp only at hstay ⊢
  rw [if_neg hnot, if_pos hstay]

/-- Settles O27: the cells by what is filtered, the group and the hang by their work lists, the replay by the checkpoint. -/
theorem abortsAndReplays : Obligations.AbortsAndReplays := by
  refine ⟨fun x s hkind => ?filter, fun x s hkind htodo hhandlings => ?group, fun _ _ _ => rfl, fun c s hheld => ?release,
    fun v s hrun => ?idle, fun v c s hrun hreplay hres hstate htodo hhandlings hloads hpending => ?hang,
    fun v c rest k s hsus hreplay hrun hactive hvat hckpt => ?replay, fun v s hsus => ?none⟩
  case filter =>
    rw [show exec (.abort x) s = .next (s.abortArrives x) from rfl, State.abortArrives_of_reset hkind]
    exact ⟨_, rfl, s.abortFiltered_filters x, s.abortFiltered_flight x, rfl, rfl, rfl, rfl⟩
  case group =>
    have hkept {α : Type} {π : State → α} (hreset : ∀ s c, π (s.ctxReset c) = π s)
        (hwork : ∀ s x, π { s with err := { s.err with todo := x } } = π s) := State.abortArrives_group_kept hreset hwork hkind htodo
    have hstate (d : Nat) := (hkept (π := fun t => (t.ctx d).state) (fun s c => s.ctxReset_ctx_state c d) (fun _ _ => rfl)).trans
      (State.foldl_groupFault_ctx_state x _ _ d)
    have hctx (d : Nat) : (s.abortFiltered x).ctx d = s.ctx d := rfl
    refine ⟨s.abortArrives x, rfl, ?_, fun d hd hgroup hzero hfree => ?_, fun d hgroup => ?_, ?_⟩
    · refine (hkept (π := fun t => t.fab.filters) State.ctxReset_filters (fun _ _ => rfl)).symm ▸ ?_
      exact (foldl_kept (π := fun t => t.fab.filters) (State.groupFault_filters x) _ _).symm ▸ s.abortFiltered_filters x
    · rw [hstate d, hctx]
      by_cases hfaulted : (s.ctx d).state = .faulted
      · rw [hfaulted, ite_self]
      · refine if_pos ⟨?_, hfree⟩
        simp [State.groupHit, hctx, hd, hgroup, hzero, hfree, hfaulted]
    · rw [hstate d, hctx]
      refine if_neg fun h => hgroup ?_
      have := (List.mem_filter.mp h.1).2
      simp only [Bool.and_eq_true, beq_iff_eq] at this
      exact this.1.1.2
    · exact (hkept (π := fun t => t.fab.mem) (fun s c => s.ctxReset_mem c) (fun _ _ => rfl)).trans
        (foldl_kept (π := fun t => t.fab.mem) (fun a d => State.ctxFault_mem ..) _ _)
  case release => exact congrArg Host.Outcome.next (State.relaunch_of_nil (s := s.onCtx c.val fun x => { x with remoteHold := false }) hheld)
  case idle =>
    refine congrArg Host.Outcome.next (if_neg fun h => hrun ?_)
    simpa using h.1
  case hang =>
    have hmem := List.mem_filter.mp hres
    have hin : (s.ctx c).vat.toNat = v.val := by simpa using (Bool.and_eq_true_iff.mp hmem.2).2
    have hruns : (s.ctx c).state.runs = true := by rw [hstate]; rfl
    have hview := State.hangRecorded_kept (π := fun t => (t.ctxs, t.planes, t.fab.mem)) ⟨⟨⟨fun _ _ => rfl, fun _ _ => rfl,
      fun _ _ => rfl, fun _ _ => rfl, fun _ _ => rfl, fun _ _ => rfl⟩, fun _ _ => rfl, fun _ _ => rfl⟩, fun _ _ => rfl⟩ (fun _ _ => rfl)
      (fun _ _ => rfl) s v.val
    simp only [Prod.mk.injEq] at hview
    obtain ⟨hctxs, hplanes, hmem'⟩ := hview
    have hrecord := State.hangRecorded_recordAt hpending v.val
    have hloads' := (s.hangRecorded_loads v.val).trans hloads
    have hexec := State.hang_eq hrun hreplay hres hruns htodo hhandlings
    have htodo' : (s.hangRecorded v.val).err.todo = [] := rfl
    generalize s.hangRecorded v.val = u at hexec hctxs hplanes hmem' hrecord hloads' htodo'
    have horder : c ∈ u.hangOrder v.val := by
      refine State.mem_hangOrder ?_ (by rw [State.ctx_of_ctxs hctxs]; exact hruns)
      simpa only [State.residents, State.ctx_of_ctxs hctxs] using hres
    have hplane : s.ctxPlane c / 2 = v.val := by
      have := (s.ctx c).plane.toNat_lt
      rw [State.ctxPlane, hin]
      omega
    obtain ⟨hover, hrun', hsus, hsuspect, hstate', hquiet, hrec⟩ :=
      State.vatReset_hang_facts hloads' htodo' v.val c horder (s.ctxPlane c) hplane s.err.seqNext
    refine ⟨_, congrArg Host.Outcome.next (hexec hover), ?_, ?_, hrun', ?_, hsuspect, ?_, ?_, ?_, ?_, ?_⟩
    · rw [hrec, hrecord]
      rfl
    · rw [hrec, hrecord]
      rfl
    · rw [hsus]
      exact horder
    · rw [hstate', State.ctx_of_ctxs hctxs, hstate]
    · rw [hquiet, State.plane_of_planes hplanes]
      rfl
    · rw [hquiet, State.plane_of_planes hplanes]
      rfl
    · rw [hquiet]
      rfl
    · exact State.byteAt_of_mem ((State.vatReset_mem ..).trans hmem')
  case replay =>
    rw [show exec (.replayStart v) s = .next (s.replay v.val) from rfl, State.replay_of_active hsus hreplay hrun hactive]
    have hv : (s.replayed v.val c rest).vat v.val = _ := State.onVat_vat_same _ v.val _
    have hv' := s.onVat_vat_same v.val fun x => { x with suspects := rest, replaying := some c }
    have hp : (s.replayed v.val c rest).plane (s.ctxPlane c) = (s.plane (s.ctxPlane c)).restored :=
      (s.onVat v.val fun x => { x with suspects := rest, replaying := some c }).onPlane_plane_same (s.ctxPlane c) Plane.restored
    have hrestored : (s.plane (s.ctxPlane c)).restored.pc = k.pc ∧ (s.plane (s.ctxPlane c)).restored.x = k.x ∧
        (s.plane (s.ctxPlane c)).restored.issuing = true := by
      rw [Plane.restored, hckpt]
      exact ⟨rfl, rfl, rfl⟩
    refine ⟨_, rfl, ?_, ?_, ?_, ?_, ?_, rfl, rfl⟩
    · exact (congrArg Vat.replaying hv).trans (congrArg Vat.replaying hv')
    · exact (congrArg Vat.suspects hv).trans (congrArg Vat.suspects hv')
    · exact (congrArg Plane.pc hp).trans hrestored.1
    · exact (congrArg Plane.x hp).trans hrestored.2.1
    · exact (congrArg Plane.issuing hp).trans hrestored.2.2
  case none =>
    show Host.Outcome.next (s.replay v.val) = _
    unfold State.replay
    rw [hsus]

end Sys2Proof.Machine
end

section
/-! SUPPORT. Overruns of handlings, and dumps: the settled statement. -/

namespace Sys2Proof.Machine

/-! ## Overruns -/

/-- A notification leaves the records under numbers that do not share a slot with the next one. -/
theorem State.notify_recordAt_of_ne {s : State} {n : W64} (h : n.toNat % 4096 ≠ s.err.seqNext.toNat % 4096) (o : W16) (p : List Byte) :
    (s.notify o p).recordAt n = s.recordAt n := by
  have hadd := State.addNotification_kept (π := fun t => (t.err.ring, t.err.seqNext)) ⟨⟨fun _ _ => rfl, fun _ _ => rfl, fun _ _ => rfl,
    fun _ _ => rfl, fun _ _ => rfl, fun _ _ => rfl⟩, fun _ _ => rfl, fun _ _ => rfl⟩ s o p
  simp only [Prod.mk.injEq] at hadd
  obtain ⟨hring, hnext⟩ := hadd
  have hsame : (s.addNotification o p).2.recordAt n = s.recordAt n := congrArg (fun r => Tbl.look ({} : ErrRec) r (n.toNat % 4096)) hring
  unfold State.notify
  split
  · rename_i u e
    rw [e] at hsame hnext
    refine Eq.trans ?_ hsame
    exact Tbl.look_put_ne _ _ _ _ _ (by rw [hnext]; exact h)
  · rename_i u e
    rw [e] at hsame
    exact hsame

theorem slot_ne_next (n : W64) : n.toNat % 4096 ≠ (n + 1).toNat % 4096 := by
  have hlt := n.isLt
  have hone : (1 : W64).toNat = 1 := rfl
  rw [BitVec.toNat_add, hone]
  omega

/-- A record of a unit reads back from the ring whether or not its notification finds room. -/
theorem State.announce_unit_recordAt_self {s : State} {r : ErrRec} (hr : r.ctxValid = false) (hsev : r.severity = .unit) :
    (s.announce r).recordAt s.err.seqNext = { r with seq := s.err.seqNext, time := s.clk.now, pkg := s.fab.pkgId } := by
  rw [State.announce_unit hr hsev, State.notify_recordAt_of_ne (slot_ne_next s.err.seqNext)]
  exact State.pushRecord_recordAt { s with svc := { s.svc with unitRecord := true } } r

theorem State.announce_unit_handlings (s : State) {r : ErrRec} (hr : r.ctxValid = false) :
    (s.announce r).err.handlings = s.err.handlings :=
  State.announce_unit_kept (π := fun t => t.err.handlings) ⟨⟨⟨fun _ _ => rfl, fun _ _ => rfl, fun _ _ => rfl, fun _ _ => rfl,
    fun _ _ => rfl, fun _ _ => rfl⟩, fun _ _ => rfl, fun _ _ => rfl⟩, fun _ _ => rfl⟩ (fun _ _ => rfl) s hr

/-- The record of a vat's handling that overruns its bound (R484). -/
def overrunRecord (seq : W64) (v : Nat) : ErrRec :=
  { code := 0x0906, severity := .unit, unit := unitVat v, nested := true, parent := seq, action := .computeReset }

/-- A vat's handling that overruns its bound escalates to a compute reset. -/
theorem State.overrun_vat {s : State} {seq : W64} {v : Nat} (hv : v < 32) (h : s.err.handlings = [{ scope := .vat v, seq := seq }]) :
    s.overrun seq = (s.announce (overrunRecord seq v)).begin .compute .compute s.err.seqNext := by
  have hin : s.inScope (.vat v) (unitVat v) none = true := by
    have hunit : (unitVat v).toNat = 4096 + v := by
      unfold unitVat unitOf
      rw [BitVec.toNat_ofNat]
      omega
    simp only [State.inScope, hunit]
    simp
    omega
  unfold State.overrun State.record
  simp [h, Scope.unit, hin, Severity.code, State.escalated, Scope.action, Scope.todo, overrunRecord]

/-! ## Dumps -/

/-- A dump whose next unit can be read skips nothing. -/
theorem State.dumpSkip_of_ready (s : State) (fuel : Nat) {d : Dump} {u : W16} {n : Nat} {r : List (W16 × Nat)}
    (hplan : d.plan = (u, n + 1) :: r) (hlit : s.unitDark u = false) (hmiss : d.misses < 4) : s.dumpSkip fuel d = d := by
  cases fuel with
  | zero => rfl
  | succ k =>
    unfold State.dumpSkip
    rw [hplan]
    dsimp only
    rw [hlit, if_neg (by decide), if_neg (by omega)]

/-- An entry that fits, read from a unit that has more. -/
theorem Dump.add_advance {d : Dump} {u : W16} {n : Nat} {r : List (W16 × Nat)} (hplan : d.plan = (u, n + 2) :: r) {status : Nat}
    {data : List Byte} (now : W64) (hentries : d.entries < 4095) (hsize : d.size.toNat + 16 + data.length ≤ 2 ^ 24) :
    (d.add u status data now).advance =
      { d with entries := d.entries + 1, size := d.size + BitVec.ofNat 64 (16 + data.length), endTime := now, plan := (u, n + 1) :: r,
               bytes := d.bytes ++ (leBytes 2 u.toNat ++ leBytes 1 status ++ [0] ++ leBytes 4 (Config.scanAddress d.entries).toNat ++
                 leBytes 4 data.length ++ leBytes 4 0) ++ data,
               unreadable := d.unreadable + (decide (status = 1)).toNat, skipped := d.skipped + (decide (2 ≤ status)).toNat } := by
  unfold Dump.add
  dsimp only
  rw [if_neg (by omega)]
  unfold Dump.advance
  dsimp only
  rw [hplan]

theorem entryData_of_whole {b : List Byte} (h16 : b.length % 16 = 0) (hlen : b.length ≤ 4080) : entryData b = b := by
  simp [entryData, List.take_of_length_le hlen, h16]

/-- Settles O24: the overrun by its record, the dump by what one entry adds to it. -/
theorem overrunsAndDumps : Obligations.OverrunsAndDumps := by
  refine ⟨fun seq s hnone htodo => ?idle, fun seq v s hv hone => ?escalates, fun s hvalid hbusy => ?starts, fun s hheld => ?held,
    fun b u n r s hbusy howner hplan hring hentries hlit hmiss hsize h16 hlen => ?read,
    fun u n r s hbusy howner hplan hentries hlit hmiss hsize => ?missed, fun s hbusy howner => ?done, fun s hbusy => ?notBusy,
    fun s hvalid => ?released, fun s hvalid => ?nothing⟩
  case idle =>
    have hfind : (s.err.handlings.find? fun h => h.seq == seq) = none := List.find?_eq_none.mpr fun h hh => by simpa using hnone h hh
    have hsame : s.overrun seq = s := by
      unfold State.overrun
      rw [hfind]
    refine congrArg Host.Outcome.next ?_
    rw [hsame]
    exact State.drainTodo_of_todo_nil 400 htodo
  case escalates =>
    have hrec := State.announce_unit_recordAt_self (s := s) (r := overrunRecord seq v) rfl rfl
    have hhandlings := s.announce_unit_handlings (r := overrunRecord seq v) rfl
    have htodo := s.announce_unit_todo (r := overrunRecord seq v) rfl
    have hview := State.announce_unit_kept (π := fun t => (t.vats, t.fab.mem)) ⟨⟨⟨fun _ _ => rfl, fun _ _ => rfl, fun _ _ => rfl,
      fun _ _ => rfl, fun _ _ => rfl, fun _ _ => rfl⟩, fun _ _ => rfl, fun _ _ => rfl⟩, fun _ _ => rfl⟩ (fun _ _ => rfl) s
      (r := overrunRecord seq v) rfl
    have hexec := congrArg (fun t => (Host.Outcome.next t.finish : Host.Outcome State Fault Refusal)) (State.overrun_vat hv hone)
    generalize s.announce (overrunRecord seq v) = a at hrec hhandlings htodo hview hexec
    have hbegun : (a.begin .compute .compute s.err.seqNext).recordAt s.err.seqNext = a.recordAt s.err.seqNext := rfl
    simp only [Prod.mk.injEq] at hview
    obtain ⟨hvats, hmem⟩ := hview
    refine ⟨_, hexec, ?_, ?_, ?_, ?_, ?_, ?_, congrArg (· ++ [Todo.compute]) htodo, hvats, hmem⟩
    iterate 5
      · rw [hbegun, hrec]
        rfl
    · exact congrArg _ (hhandlings.trans hone)
  case starts =>
    have hnone : (s.err.dump.valid || s.err.dump.busy) = false := by rw [hvalid, hbusy]; rfl
    exact ⟨_, congrArg Host.Outcome.next (if_neg (by rw [hnone]; decide)), rfl, rfl, rfl, rfl, rfl, rfl, rfl, rfl, rfl⟩
  case held =>
    have hsome : (s.err.dump.valid || s.err.dump.busy) = true := by simpa using hheld
    have hrec := s.note_recordAt 0x0908 .info (unitMc s.mc.owner) [0, 0, 0] none
    exact ⟨_, congrArg Host.Outcome.next (if_pos hsome), rfl, rfl, by rw [hrec], by rw [hrec]⟩
  case read =>
    have hruns : ¬ ((!s.err.dump.busy) = true ∨ s.mc.owner = true) := by simp [hbusy, howner]
    have hskip := s.dumpSkip_of_ready 1000 hplan hlit hmiss
    have hadd := Dump.add_advance (status := 0) (data := b) hplan s.clk.now hentries (by omega)
    have hread : s.dumpRead (some b) = s.onDump fun d => { (d.add u 0 b s.clk.now).advance with misses := 0 } := by
      unfold State.dumpRead State.onDump
      rw [if_neg hruns]
      dsimp only
      rw [hskip, hplan]
      dsimp only
      rw [if_neg (by omega), entryData_of_whole h16 hlen]
      rw [State.dumpSkip_of_ready s 1000 (u := u) (n := n) (r := r) (by rw [hadd]) hlit (by show 0 < 4; omega)]
    refine ⟨_, congrArg Host.Outcome.next hread, rfl, ?_⟩
    rw [State.onDump, hadd]
    exact ⟨rfl, rfl, rfl, rfl, rfl, rfl⟩
  case missed =>
    have hruns : ¬ ((!s.err.dump.busy) = true ∨ s.mc.owner = true) := by simp [hbusy, howner]
    have hskip := s.dumpSkip_of_ready 1000 hplan hlit (by omega)
    have hadd := Dump.add_advance (status := 1) (data := []) hplan s.clk.now hentries (by simp; omega)
    have hread : s.dumpRead none = s.onDump fun d => { (d.add u 1 [] s.clk.now).advance with misses := d.misses + 1 } := by
      unfold State.dumpRead State.onDump
      rw [if_neg hruns]
      dsimp only
      rw [hskip, hplan]
      dsimp only
      rw [if_neg (by omega)]
      rw [State.dumpSkip_of_ready s 1000 (u := u) (n := n) (r := r) (by rw [hadd]) hlit (by show _ + 1 < 4; omega)]
    refine ⟨_, congrArg Host.Outcome.next hread, rfl, ?_⟩
    rw [State.onDump, hadd]
    exact ⟨rfl, rfl, rfl, rfl, rfl⟩
  case done =>
    have hruns : ¬ ((!s.err.dump.busy) = true ∨ s.mc.owner = true) := by simp [hbusy, howner]
    have hrec := State.note_recordAt (s.onDump fun d =>
      { d with busy := false, valid := true, bytes := d.header ++ d.bytes, plan := [], ring := [], misses := 0 }) 0x0908 .info
      (unitMc s.mc.owner) [s.err.dump.size, BitVec.ofNat 64 s.err.dump.unreadable, BitVec.ofNat 64 s.err.dump.skipped] none
    exact ⟨_, congrArg Host.Outcome.next (if_neg hruns), rfl, rfl, rfl, rfl, rfl, congrArg ErrRec.code hrec, congrArg ErrRec.details hrec⟩
  case notBusy => exact congrArg Host.Outcome.next (if_pos (.inl (by rw [hbusy]; rfl)))
  case released => exact congrArg Host.Outcome.next (if_pos hvalid)
  case nothing => exact congrArg Host.Outcome.next (if_neg (by rw [hvalid]; decide))

end Sys2Proof.Machine
end

section
/-! SUPPORT. The resets that the host requests: the settled statement. -/

namespace Sys2Proof.Machine

/-! ## What a reset of a vat does -/

/-- π reads nothing that a port in the dark rewrites. -/
structure BlindToDark {α : Type} (π : State → α) : Prop extends BlindToReport π where
  fab : ∀ s x, π { s with fab := x } = π s
  churn : ∀ s x, π { s with churn := x } = π s

theorem State.darkPort_blind {α : Type} {π : State → α} (h : BlindToDark π) (s : State) (p : Nat) : π (s.darkPort p) = π s := by
  have hrefuse (a : State) (r : FlexReq) : π (a.flexRefuse r) = π a := (h.push _ _).trans (h.churn a _)
  have hboth (a : State) (x : Fabric) (y : Churn) : π { a with fab := x, churn := y } = π a :=
    (h.churn { a with fab := x } y).trans (h.fab a x)
  unfold State.darkPort
  refine ite_kept rfl ((State.note_kept h.toBlindToReport _ _ _ _ _ _).trans ((hboth _ _ _).trans ((h.churn _ _).trans ?_)))
  refine (foldl_kept hrefuse _ _).trans ((h.churn _ _).trans ((h.churn _ _).trans ((h.fab _ _).trans ?_)))
  exact (foldl_kept (fun a _ => State.launchAll_kept h.toBlindToCells a _) _ _).trans (h.fab s _)

/-- A vat at its reset, with no load for it. -/
def State.vatWiped (s : State) (v : Nat) : State := ((s.stopTiles v).wipeVat v true).abortLoads fun t => t.vat == v

theorem State.vatWiped_eq (s : State) (v : Nat) : (s.vatWiped v).vats = ((s.stopTiles v).wipeVat v true).vats ∧
    (s.vatWiped v).tiles = ((s.stopTiles v).wipeVat v true).tiles ∧ (s.vatWiped v).err.todo = s.err.todo := by
  have hloads := State.abortLoads_kept (π := fun t => (t.vats, t.tiles, t.err.todo)) ⟨⟨⟨⟨fun _ _ => rfl, fun _ _ => rfl, fun _ _ => rfl,
    fun _ _ => rfl, fun _ _ => rfl, fun _ _ => rfl⟩, fun _ _ => rfl, fun _ _ => rfl⟩, fun _ _ => rfl⟩, fun _ _ => rfl⟩
    ((s.stopTiles v).wipeVat v true) fun t => t.vat == v
  have htiles := State.stopTiles_kept (π := fun t => t.err.todo) ⟨fun _ _ => rfl, fun _ _ => rfl, fun _ _ => rfl, fun _ _ => rfl⟩ s v
  have hwipe (b : State) : (b.wipeVat v true).err.todo = b.err.todo := rfl
  simp only [Prod.mk.injEq] at hloads
  obtain ⟨hvats, htiles', htodo⟩ := hloads
  rw [hwipe, htiles] at htodo
  unfold State.vatWiped
  exact ⟨hvats, htiles', htodo⟩

theorem State.startReset_resetRuns (s : State) (k : ResetKind) : (s.startReset k).resetRuns k = true := by
  simp [State.startReset, State.resetRuns]

theorem State.stopTiles_vat_of_ne (s : State) {v w : Nat} (h : w ≠ v) : (s.stopTiles v).vat w = s.vat w := by
  unfold State.stopTiles
  dsimp only
  rw [State.onVat_vat, if_neg h]
  exact State.vat_of_vats (foldl_kept (π := fun t => t.vats) (fun a t => State.onTile_vats a v t _) _ s) w

theorem State.wipeVat_vat_of_ne (s : State) {v w : Nat} (f : Bool) (h : w ≠ v) : (s.wipeVat v f).vat w = s.vat w :=
  (State.onVat_vat _ v w _).trans (if_neg h)

theorem State.wipeVat_vat_same (s : State) (v : Nat) (f : Bool) : (s.wipeVat v f).vat v = { s.vat v with
    run := .reset, arm := false, sliceCount := 0, fault := 0, causeCode := 0, causeCtx := 0, tval := 0, lastBoundaryId := 0,
    lastBoundaryCtx := 0, lastBoundaryTime := 0, epoch := (s.vat v).epoch + 1, wakeThen := none, freqNow := 0, fallbackCap := none,
    lastStretch := none } := State.onVat_vat_same _ v _

theorem State.wipeVat_tile (s : State) (v x : Nat) (hx : x < 1024) : (s.wipeVat v true).tile v x = {} := by
  have htiles : (s.wipeVat v true).tiles = Tbl.mapVals {} (fun k (t : Tile) => if k / 1024 = v then ({} : Tile) else t) s.tiles := rfl
  have hin : (1024 * v + x) / 1024 = v := by omega
  show Tbl.look {} (s.wipeVat v true).tiles (1024 * v + x) = {}
  rw [htiles, Tbl.look_mapVals {} _ s.tiles _ (ite_self _), if_pos hin]

theorem State.vatWiped_tile (s : State) (v x : Nat) (hx : x < 1024) : (s.vatWiped v).tile v x = {} :=
  (congrArg (fun m => Tbl.look ({} : Tile) m (1024 * v + x)) (s.vatWiped_eq v).2.1).trans ((s.stopTiles v).wipeVat_tile v x hx)

theorem State.vatWiped_vat_of_ne (s : State) {v w : Nat} (h : w ≠ v) : (s.vatWiped v).vat w = s.vat w := by
  rw [State.vat_of_vats (s.vatWiped_eq v).1, State.wipeVat_vat_of_ne _ true h, s.stopTiles_vat_of_ne h]

/-- A vat's registers at their reset values. -/
structure VatAtReset (x : Vat) : Prop where
  run : x.run = .reset
  sliceCount : x.sliceCount = 0
  fault : x.fault = 0
  freqNow : x.freqNow = 0

theorem State.vatWiped_atReset (s : State) (v : Nat) : VatAtReset ((s.vatWiped v).vat v) := by
  rw [State.vat_of_vats (s.vatWiped_eq v).1, State.wipeVat_vat_same]
  exact ⟨rfl, rfl, rfl, rfl⟩

/-- The reset of a vat that holds no context. -/
theorem State.vatReset_of_empty {s : State} {v : Nat} (h : s.residents v = []) : s.vatReset v false =
    (((s.vatWiped v).takeOver fun k => k == .vat (Fin.ofNat 32 v)).onVat v fun x =>
      { x with suspects := [], replaying := none, passed := [] }).startReset (.vat (Fin.ofNat 32 v)) := by
  have hnone (f : State → Nat → State) : (s.residents v).foldl f s = s := by rw [h]; rfl
  exact (if_neg (by decide)).trans (congrArg (fun u : State =>
    (((u.vatWiped v).takeOver fun k => k == .vat (Fin.ofNat 32 v)).onVat v fun x =>
      { x with suspects := [], replaying := none, passed := [] }).startReset (.vat (Fin.ofNat 32 v))) (hnone _))

theorem State.vatReset_of_empty_facts {s : State} {v : Nat} (h : s.residents v = []) :
    (s.vatReset v false).err.todo = s.err.todo ∧ (s.vatReset v false).resetRuns (.vat (Fin.ofNat 32 v)) = true ∧
      VatAtReset ((s.vatReset v false).vat v) ∧ (∀ x, x < 1024 → (s.vatReset v false).tile v x = {}) ∧
      ∀ w, w ≠ v → (s.vatReset v false).vat w = s.vat w := by
  have htodo := (s.vatWiped_eq v).2.2
  obtain ⟨hrun, hcount, hfault, hfreq⟩ := s.vatWiped_atReset v
  have htile := s.vatWiped_tile v
  have hother (w : Nat) (hw : w ≠ v) := s.vatWiped_vat_of_ne hw
  rw [State.vatReset_of_empty h]
  generalize s.vatWiped v = u at htodo hrun hcount hfault hfreq htile hother
  have hvat := (u.takeOver fun k => k == .vat (Fin.ofNat 32 v)).onVat_vat_same v fun x =>
    { x with suspects := [], replaying := none, passed := [] }
  have hne (w : Nat) (hw : w ≠ v) := ((u.takeOver fun k => k == .vat (Fin.ofNat 32 v)).onVat_vat v w fun x =>
    { x with suspects := [], replaying := none, passed := [] }).trans (if_neg hw)
  refine ⟨htodo, State.startReset_resetRuns _ _, ⟨?_, ?_, ?_, ?_⟩, htile, fun w hw => (hne w hw).trans (hother w hw)⟩
  · exact (congrArg Vat.run hvat).trans hrun
  · exact (congrArg Vat.sliceCount hvat).trans hcount
  · exact (congrArg Vat.fault hvat).trans hfault
  · exact (congrArg Vat.freqNow hvat).trans hfreq

/-! ## What a reset of a die does -/

/-- The planes of a vat lose all but their context. -/
def State.losePlanes (s : State) (v : Nat) : State :=
  { s with planes := Tbl.mapVals {} (fun k p => if k / 2 = v then { ({} : Plane) with ctx := p.ctx } else p) s.planes }

/-- A die's vats as its reset leaves them. -/
def State.wipeVatWhole (s : State) (v : Nat) : State :=
  ((((s.stopTiles v).wipeVat v true).clearRange (tileBase v 0) 0x20000000).losePlanes v).onVat v fun x =>
    { ({} : Vat) with plane := x.plane, skip := x.skip, exhausted := x.exhausted, epoch := x.epoch, irCap := x.irCap,
                      railFaults := x.railFaults, failedCols := x.failedCols }

/-- A die's cream dies and ports as its reset leaves them. -/
def State.wipeCream (s : State) (c : Nat) : State :=
  ((s.clearRange (creamBase c) 0x80000000).onCream c fun x =>
    { x with mode := if x.mode == .retired then .retired else .reset, waking := false, level := 0, retEn := false,
             retIdle := 100 }).darkPort c

/-- A die before it is marked as being reset. -/
def State.wipeParts (s : State) (d : Nat) : State := (diePorts d).foldl State.wipeCream ((dieVats d).foldl State.wipeVatWhole s)

/-- A die marked as being reset. -/
def State.markReset (s : State) (d : Nat) : State := { s with
    inv := { s.inv with dieInReset := bvSet s.inv.dieInReset d true },
    mc := { s.mc with katDone := (dieVats d).foldl (fun m v => bvSet m v false) s.mc.katDone } }

theorem State.wipeDie_eq (s : State) (d : Nat) : s.wipeDie d = (s.wipeParts d).markReset d := rfl

@[simp] theorem State.markReset_vat (s : State) (d v : Nat) : (s.markReset d).vat v = s.vat v := rfl
@[simp] theorem State.markReset_byteAt (s : State) (d a : Nat) : (s.markReset d).byteAt a = s.byteAt a := rfl
@[simp] theorem State.markReset_todo (s : State) (d : Nat) : (s.markReset d).err.todo = s.err.todo := rfl
@[simp] theorem State.markReset_dieInReset (s : State) (d : Nat) :
    (s.markReset d).inv.dieInReset = bvSet s.inv.dieInReset d true := rfl

theorem State.wipeVatWhole_vat (s : State) (v w : Nat) (h : w ≠ v) : (s.wipeVatWhole v).vat w = s.vat w := by
  have hrest (b : State) (x n : Nat) : ((b.clearRange x n).losePlanes v).vat w = b.vat w := rfl
  refine (State.onVat_vat _ v w _).trans ((if_neg h).trans ((hrest _ _ _).trans ?_))
  exact (State.wipeVat_vat_of_ne _ true h).trans (s.stopTiles_vat_of_ne h)

theorem State.wipeVatWhole_run (s : State) (v : Nat) : ((s.wipeVatWhole v).vat v).run = .reset :=
  congrArg Vat.run (State.onVat_vat_same _ v _)

theorem State.wipeVatWhole_byteAt (s : State) (v a : Nat) :
    (s.wipeVatWhole v).byteAt a = if tileBase v 0 ≤ a ∧ a < tileBase v 0 + 0x20000000 then 0 else s.byteAt a := by
  have hrest (b : State) (f : Vat → Vat) : ((b.losePlanes v).onVat v f).byteAt a = b.byteAt a := rfl
  have hwipe (b : State) : (b.wipeVat v true).fab.mem = b.fab.mem := rfl
  have hmem : ((s.stopTiles v).wipeVat v true).fab.mem = s.fab.mem := (hwipe _).trans (s.stopTiles_mem v)
  unfold State.wipeVatWhole
  rw [hrest, State.byteAt_clearRange, State.byteAt_of_mem hmem]

theorem State.wipeCream_byteAt (s : State) (c a : Nat) :
    (s.wipeCream c).byteAt a = if creamBase c ≤ a ∧ a < creamBase c + 0x80000000 then 0 else s.byteAt a :=
  (State.byteAt_of_mem (State.darkPort_mem ..) a).trans (State.byteAt_clearRange _ _ _ a)

/-- π reads nothing that wiping a die rewrites but its marks. -/
structure BlindToWipe {α : Type} (π : State → α) : Prop extends BlindToDark π where
  vats : ∀ s x, π { s with vats := x } = π s
  planes : ∀ s x, π { s with planes := x } = π s
  tiles : ∀ s x, π { s with tiles := x } = π s
  creams : ∀ s x, π { s with creams := x } = π s

theorem State.wipeCream_kept {α : Type} {π : State → α} (h : BlindToDark π) (hcreams : ∀ s x, π { s with creams := x } = π s)
    (s : State) (c : Nat) : π (s.wipeCream c) = π s :=
  (State.darkPort_blind h _ _).trans ((hcreams _ _).trans (h.fab s _))

theorem State.wipeVatWhole_kept {α : Type} {π : State → α} (h : BlindToWipe π) (s : State) (v : Nat) : π (s.wipeVatWhole v) = π s := by
  have hwipe (b : State) : π (b.wipeVat v true) = π b := by
    have hrewrite (x : Tbl Tile) (y : Tbl Plane) (z : Fabric) (w : Tbl Vat) :
        π { b with tiles := x, planes := y, fab := z, vats := w } = π b :=
      (h.vats { b with tiles := x, planes := y, fab := z } w).trans ((h.fab { b with tiles := x, planes := y } z).trans
        ((h.planes { b with tiles := x } y).trans (h.tiles b x)))
    exact hrewrite _ _ _ _
  have hclear (b : State) (x n : Nat) : π (b.clearRange x n) = π b := h.fab b _
  have hlose (b : State) : π (b.losePlanes v) = π b := h.planes b _
  have hvat (b : State) (f : Vat → Vat) : π (b.onVat v f) = π b := h.vats b _
  unfold State.wipeVatWhole
  rw [hvat, hlose, hclear, hwipe]
  exact State.stopTiles_kept ⟨h.vats, h.planes, h.tiles, fun s _ => h.fab s _⟩ s v

theorem State.wipeParts_kept {α : Type} {π : State → α} (h : BlindToWipe π) (s : State) (d : Nat) : π (s.wipeParts d) = π s :=
  (foldl_kept (State.wipeCream_kept h.toBlindToDark h.creams) _ _).trans (foldl_kept (State.wipeVatWhole_kept h) _ s)

theorem blindToDark_vats : BlindToDark fun t => t.vats :=
  ⟨blindToReport_vats, fun _ _ => rfl, fun _ _ => rfl⟩

/-- What the work on one member of a list establishes where P holds, and every other member's keeps, holds at the end. -/
theorem foldl_establishes_where {β : Type} {P Q : State → Prop} {f : State → β → State} {l : List β} {x : β} (hx : x ∈ l)
    (hP : ∀ a y, P a → P (f a y)) (hdo : ∀ a, P a → Q (f a x)) (hkeep : ∀ a y, P a → Q a → Q (f a y)) {s : State} (hs : P s) :
    Q (l.foldl f s) := by
  have hall (l : List β) (a : State) (hp : P a) (ha : Q a) : Q (l.foldl f a) := by
    induction l generalizing a with
    | nil => exact ha
    | cons y l ih => exact ih _ (hP a y hp) (hkeep a y hp ha)
  induction l generalizing s with
  | nil => cases hx
  | cons y l ih =>
    rcases List.mem_cons.mp hx with rfl | hl
    · exact hall l _ (hP s x hs) (hdo s hs)
    · exact ih hl (hP s y hs)

/-- What the work on one member of a list establishes, and the work on every other keeps, holds at the end. -/
theorem foldl_establishes {β : Type} {Q : State → Prop} {f : State → β → State} {l : List β} {x : β} (hx : x ∈ l) (hdo : ∀ a, Q (f a x))
    (hkeep : ∀ a y, Q a → Q (f a y)) (s : State) : Q (l.foldl f s) :=
  foldl_establishes_where (P := fun _ => True) hx (fun _ _ _ => trivial) (fun a _ => hdo a) (fun a y _ => hkeep a y) trivial

theorem mem_dieVats {d v : Nat} : v ∈ dieVats d ↔ v / 4 = d := by
  simp only [dieVats, List.mem_cons, List.not_mem_nil, or_false]
  omega

theorem mem_diePorts {d c : Nat} : c ∈ diePorts d ↔ c / 2 = d := by
  simp only [diePorts, List.mem_cons, List.not_mem_nil, or_false]
  omega

theorem State.wipeDie_vat_run (s : State) {d v : Nat} (h : v / 4 = d) : ((s.wipeDie d).vat v).run = .reset := by
  have hcreams := foldl_kept (State.wipeCream_kept blindToDark_vats fun _ _ => rfl) (diePorts d) ((dieVats d).foldl State.wipeVatWhole s)
  rw [State.wipeDie_eq, State.markReset_vat, State.wipeParts, State.vat_of_vats hcreams]
  refine foldl_establishes (Q := fun t => (t.vat v).run = .reset) (mem_dieVats.mpr h) (fun a => a.wipeVatWhole_run v) (fun a w ha => ?_) s
  by_cases hw : v = w
  · rw [hw]
    exact a.wipeVatWhole_run w
  · rw [a.wipeVatWhole_vat w v hw]
    exact ha

theorem State.wipeDie_vat_of_ne (s : State) {d w : Nat} (h : w / 4 ≠ d) : (s.wipeDie d).vat w = s.vat w := by
  have hcreams := foldl_kept (State.wipeCream_kept blindToDark_vats fun _ _ => rfl) (diePorts d) ((dieVats d).foldl State.wipeVatWhole s)
  rw [State.wipeDie_eq, State.markReset_vat, State.wipeParts, State.vat_of_vats hcreams]
  exact foldl_kept_of_mem (π := fun t => t.vat w) _ (fun v hv a => a.wipeVatWhole_vat v w fun e => h (e ▸ mem_dieVats.mp hv)) s

theorem State.wipeVatWhole_byteAt_zero {s : State} {a : Nat} (h : s.byteAt a = 0) (v : Nat) : (s.wipeVatWhole v).byteAt a = 0 := by
  rw [State.wipeVatWhole_byteAt, h, ite_self]

theorem State.wipeCream_byteAt_zero {s : State} {a : Nat} (h : s.byteAt a = 0) (c : Nat) : (s.wipeCream c).byteAt a = 0 := by
  rw [State.wipeCream_byteAt, h, ite_self]

theorem State.wipeCreams_byteAt_zero {s : State} {a : Nat} (h : s.byteAt a = 0) (l : List Nat) :
    (l.foldl State.wipeCream s).byteAt a = 0 := by
  induction l generalizing s with
  | nil => exact h
  | cons c l ih => exact ih (State.wipeCream_byteAt_zero h c)

theorem State.wipeDie_byteAt_tiles (s : State) {d v a : Nat} (hv : v / 4 = d) (hlo : tileBase v 0 ≤ a) (hhi : a < tileBase (v + 1) 0) :
    (s.wipeDie d).byteAt a = 0 := by
  rw [State.wipeDie_eq, State.markReset_byteAt]
  refine State.wipeCreams_byteAt_zero (s := (dieVats d).foldl State.wipeVatWhole s) ?_ _
  refine foldl_establishes (Q := fun t => t.byteAt a = 0) (mem_dieVats.mpr hv) (fun b => ?_)
    (fun b w hb => State.wipeVatWhole_byteAt_zero hb w) s
  rw [State.wipeVatWhole_byteAt, if_pos]
  simp only [tileBase] at hlo hhi ⊢
  omega

theorem State.wipeDie_byteAt_creams (s : State) {d c a : Nat} (hc : c / 2 = d) (hlo : creamBase c ≤ a) (hhi : a < creamBase (c + 1)) :
    (s.wipeDie d).byteAt a = 0 := by
  rw [State.wipeDie_eq, State.markReset_byteAt]
  refine foldl_establishes (Q := fun t => t.byteAt a = 0) (mem_diePorts.mpr hc) (fun b => ?_)
    (fun b w hb => State.wipeCream_byteAt_zero hb w) ((dieVats d).foldl State.wipeVatWhole s)
  rw [State.wipeCream_byteAt, if_pos]
  simp only [creamBase] at hlo hhi ⊢
  omega

/-- HBM lies below the SRAM, and a die's reset leaves it. -/
theorem State.wipeDie_byteAt_hbm (s : State) (d : Nat) {a : Nat} (ha : a < 2 ^ 41) : (s.wipeDie d).byteAt a = s.byteAt a := by
  have hvat (b : State) (v : Nat) : (b.wipeVatWhole v).byteAt a = b.byteAt a := by
    rw [State.wipeVatWhole_byteAt, if_neg]
    simp only [tileBase]
    omega
  have hcream (b : State) (c : Nat) : (b.wipeCream c).byteAt a = b.byteAt a := by
    rw [State.wipeCream_byteAt, if_neg]
    simp only [creamBase]
    omega
  have hcreams := foldl_kept (π := fun t => t.byteAt a) (f := State.wipeCream) hcream (diePorts d) ((dieVats d).foldl State.wipeVatWhole s)
  have hvats := foldl_kept (π := fun t => t.byteAt a) (f := State.wipeVatWhole) hvat (dieVats d) s
  rw [State.wipeDie_eq, State.markReset_byteAt, State.wipeParts, hcreams, hvats]

theorem State.wipeDie_byteAt_zero {s : State} {a : Nat} (h : s.byteAt a = 0) (d : Nat) : (s.wipeDie d).byteAt a = 0 := by
  rw [State.wipeDie_eq, State.markReset_byteAt]
  refine State.wipeCreams_byteAt_zero (s := (dieVats d).foldl State.wipeVatWhole s) ?_ _
  generalize dieVats d = l
  induction l generalizing s with
  | nil => exact h
  | cons v l ih =>
    rw [List.foldl_cons]
    exact ih (State.wipeVatWhole_byteAt_zero h v)

theorem State.wipeDie_todo (s : State) (d : Nat) : (s.wipeDie d).err.todo = s.err.todo := by
  rw [State.wipeDie_eq, State.markReset_todo]
  exact State.wipeParts_kept (π := fun t => t.err.todo) ⟨⟨⟨⟨⟨fun _ _ => rfl, fun _ _ => rfl, fun _ _ => rfl, fun _ _ => rfl, fun _ _ => rfl,
    fun _ _ => rfl⟩, fun _ _ => rfl, fun _ _ => rfl⟩, fun _ _ => rfl⟩, fun _ _ => rfl, fun _ _ => rfl⟩, fun _ _ => rfl, fun _ _ => rfl,
    fun _ _ => rfl, fun _ _ => rfl⟩ s d

theorem State.wipeDie_dieInReset (s : State) {d : Nat} (hd : d < 8) (e : Nat) :
    (s.wipeDie d).inv.dieInReset.getLsbD e = if e = d then true else s.inv.dieInReset.getLsbD e := by
  have hparts := State.wipeParts_kept (π := fun t => t.inv) ⟨⟨⟨⟨⟨fun _ _ => rfl, fun _ _ => rfl, fun _ _ => rfl, fun _ _ => rfl,
    fun _ _ => rfl, fun _ _ => rfl⟩, fun _ _ => rfl, fun _ _ => rfl⟩, fun _ _ => rfl⟩, fun _ _ => rfl, fun _ _ => rfl⟩, fun _ _ => rfl,
    fun _ _ => rfl, fun _ _ => rfl, fun _ _ => rfl⟩ s d
  rw [State.wipeDie_eq, State.markReset_dieInReset, bvSet_getLsbD _ _ _ _ hd, hparts]

/-! ## Die and compute resets -/

theorem State.loseContexts_of_empty {s : State} {vs : List Nat} (h : ∀ v ∈ vs, s.residents v = []) : s.loseContexts vs = s := by
  unfold State.loseContexts
  induction vs with
  | nil => rfl
  | cons v vs ih =>
    rw [List.foldl_cons, h v List.mem_cons_self]
    exact ih fun w hw => h w (List.mem_cons_of_mem _ hw)

/-- The resets that a die's takes over (R479). -/
def takenByDie (d : Nat) : ResetKind → Bool
  | .vat v => v.val / 4 == d
  | .die e => e.val == d
  | _ => false

/-- The resets that a compute reset takes over (R479). -/
def takenByCompute : ResetKind → Bool
  | .management => false
  | _ => true

/-- A die after its reset's work on its loads and parts. -/
def State.dieWiped (s : State) (d : Nat) : State := (s.abortLoads fun t => t.vat / 4 == d).wipeDie d

theorem State.dieReset_of_empty {s : State} {d : Nat} (h : ∀ v ∈ dieVats d, s.residents v = []) : s.dieReset d =
    (((s.dieWiped d).mendSensors (sensorOnDie d)).takeOver (takenByDie d)).startReset (.die (Fin.ofNat 8 d)) := by
  unfold State.dieReset State.dieWiped
  rw [State.loseContexts_of_empty h]
  rfl

/-- The module after a compute reset's work on its loads and dies. -/
def State.diesWiped (s : State) : State := (List.range 8).foldl State.wipeDie (s.abortLoads fun _ => true)

/-! Every SRAM address lies in one vat or one cream die. -/

theorem exists_tileBase {a : Nat} (hlo : tileBase 0 0 ≤ a) (hhi : a < tileBase 32 0) :
    ∃ v, v < 32 ∧ tileBase v 0 ≤ a ∧ a < tileBase (v + 1) 0 := by
  refine ⟨(a - tileBase 0 0) / 0x20000000, ?_⟩
  simp only [tileBase] at hlo hhi ⊢
  omega

theorem exists_creamBase {a : Nat} (hlo : creamBase 0 ≤ a) (hhi : a < creamBase 16) :
    ∃ c, c < 16 ∧ creamBase c ≤ a ∧ a < creamBase (c + 1) := by
  refine ⟨(a - creamBase 0) / 0x80000000, ?_⟩
  simp only [creamBase] at hlo hhi ⊢
  omega

/-- What the wiping of one die establishes, and that of every die keeps, a compute reset's work leaves. -/
theorem State.diesWiped_of_one {Q : State → Prop} {d : Nat} (hd : d < 8) (hdo : ∀ a, Q (State.wipeDie a d))
    (hkeep : ∀ a e, e < 8 → Q a → Q (State.wipeDie a e)) (s : State) : Q s.diesWiped := by
  have hone : Q ((List.range 8).foldl (fun a e => if e < 8 then State.wipeDie a e else a) (s.abortLoads fun _ => true)) := by
    refine foldl_establishes (List.mem_range.mpr hd) (fun a => ?_) (fun a e ha => ?_) _
    · rw [if_pos hd]
      exact hdo a
    · split
      · exact hkeep a e ‹_› ha
      · exact ha
  exact hone

theorem State.computeReset_of_empty {s : State} (h : ∀ v, s.residents v = []) : s.computeReset =
    ((s.diesWiped.mendSensors fun k => k / 8 < 48).takeOver takenByCompute).startReset .compute := by
  unfold State.computeReset State.diesWiped
  rw [State.loseContexts_of_empty fun v _ => h v]
  rfl

/-! ## Management resets -/

/-- No handling's scope holds a link. -/
theorem State.inScope_link (s : State) (sc : Scope) {l : Nat} (hl : l < 64) : s.inScope sc (unitLink l) none = false := by
  have hunit : (unitLink l).toNat = 4096 * 6 + l := by
    unfold unitLink unitOf
    rw [BitVec.toNat_ofNat]
    omega
  have hkind : (4096 * 6 + l) / 4096 = 6 := by omega
  cases sc <;> simp [State.inScope, hunit, hkind]

/-- The record of a link that a management reset takes down. -/
theorem State.record_link (s : State) {l : Nat} (hl : l < 64) :
    s.record 0x0F03 .unit (unitLink l) = s.announce { code := 0x0F03, severity := .unit, unit := unitLink l } := by
  have hnone : (s.err.handlings.find? fun h => s.inScope h.scope (unitLink l) none || (none : Option Scope).any (s.scopeWithin h.scope)) =
      none := List.find?_eq_none.mpr fun h _ => by simp [s.inScope_link h.scope hl]
  unfold State.record
  dsimp only
  rw [if_pos (by decide), hnone]
  rfl

/-- The sessions closed and the links down, before a management reset restores the registers. -/
def State.mgmtQuiet (s : State) : State :=
  (List.range 64).foldl (fun (a : State) l =>
    if (a.link l).mode = .up ∨ (a.link l).mode = .retrain then (a.linkFall l).record 0x0F03 .unit (unitLink l) else a)
    ((List.range 8).foldl (fun a k => a.closeSession k 5) s)

theorem State.mgmtQuiet_kept {α : Type} {π : State → α} (h : BlindToReport π) (hsvc : ∀ s x, π { s with svc := x } = π s)
    (hlnk : ∀ s x, π { s with lnk := x } = π s) (s : State) : π s.mgmtQuiet = π s := by
  have hfall (a : State) (l : Nat) : π (a.linkFall l) = π a :=
    (foldl_kept (State.launch_kept h.toBlindToCells) _ _).trans
      ((foldl_kept (fun a _ => State.launchAll_kept h.toBlindToCells a _) _ _).trans (hlnk a _))
  have hclose (a : State) (k : Nat) : π (a.closeSession k 5) = π a :=
    ite_kept ((h.kcp _ _).trans (State.hostSend_kept h.toBlindToSent a _)) rfl
  refine (foldl_kept_of_mem _ (fun l hl a => ite_kept ?_ rfl) _).trans (foldl_kept hclose _ s)
  rw [State.record_link _ (List.mem_range.mp hl), State.announce_unit_kept h hsvc _ rfl, hfall]

/-- A vat in service whose reset completes, with no suspect to replay. -/
theorem State.vatDone_of_in {s : State} {v : Nat} (hin : s.vatIn v = true) (hsus : (s.vat v).suspects = []) (b : W64) :
    s.vatDone v b = ((s.onVat v fun x => { x with run := .idle, freqNow := 32 }).resetNote 0 (unitVat v) b).endHandling (.vat v) := by
  unfold State.vatDone
  dsimp only
  rw [hin, hsus]
  rfl

/-- The module as the work of a management reset leaves what it restores. -/
structure MgmtRestored (t : State) : Prop where
  mgmtReset : t.mc.mgmtReset = true
  sessions : t.kcp.sessions = []
  forwards : t.kcp.forwards = []
  idleTimeout : t.kcp.idleTimeout = 60
  fwdTimeout : t.kcp.fwdTimeout = 30
  routes : t.lnk.routes = []
  locked : t.svc.unlocked = false
  runs : t.resetRuns .management = true

theorem State.mgmtResetWork_facts (s : State) : MgmtRestored s.mgmtResetWork ∧ s.mgmtResetWork.vats = s.mgmtQuiet.vats ∧
    s.mgmtResetWork.ctxs = s.mgmtQuiet.ctxs ∧ s.mgmtResetWork.planes = s.mgmtQuiet.planes ∧ s.mgmtResetWork.tiles = s.mgmtQuiet.tiles ∧
    s.mgmtResetWork.err.todo = s.mgmtQuiet.err.todo := by
  unfold State.mgmtResetWork State.mgmtQuiet
  dsimp only
  generalize (List.range 64).foldl _ ((List.range 8).foldl (fun (a : State) k => a.closeSession k 5) s) = u
  exact ⟨⟨rfl, rfl, rfl, rfl, rfl, rfl, rfl, by simp [State.resetRuns]⟩, rfl, rfl, rfl, rfl, rfl⟩

/-- The handling that a request begins, as its work runs. -/
def State.begun (s : State) (sc : Scope) : State :=
  { s with err := { s.err with handlings := { scope := sc, seq := BitVec.allOnes 64 } :: s.err.handlings, todo := [] } }

/-- A reset that the host requests does its work at once. -/
theorem State.finish_of_begin {s : State} {sc : Scope} {t : Todo} (htodo : s.err.todo = [])
    (hdone : (State.doTodo (s.begun sc) t).err.todo = []) :
    (s.begin sc t (BitVec.allOnes 64)).finish = State.doTodo (s.begun sc) t :=
  State.finish_of_todo_one (s := s.begin sc t (BitVec.allOnes 64)) (by show s.err.todo ++ [t] = [t]; rw [htodo]; rfl) hdone

/-- Settles O23: each reset by its work list of one entry, the completion by what it leaves of the vat. -/
theorem unitResets : Obligations.UnitResets := by
  refine ⟨fun v s hmap hdie hreset hruns hempty htodo => ?vat, fun v s hmap hcol htodo => ?out,
    fun d s hready hdie hreset htodo hempty => ?die, fun c k s hready htodo hk hc => ?held,
    fun s hready hruns htodo hstandby hempty => ?compute, fun s hmgmt hstep htodo => ?mgmt,
    fun v o b s hresets hsus hin htodo hhandlings => ?done, fun k o s hruns htodo => ?none⟩
  case vat =>
    have hv : Fin.ofNat 32 v.val = v := Fin.ofNat_val_eq_self v
    have hin : (s.inv.vatMap.getLsbD v.val || s.inv.vatColumn.getLsbD v.val) = true := by rw [Bool.or_eq_true]; exact hmap
    have hask : s.askVat v.val = s.begin (.vat v.val) (.vat v.val false) (BitVec.allOnes 64) :=
      if_neg (by rw [hin, hdie, hreset, hv, hruns]; decide)
    obtain ⟨htodo', hrun', ⟨hrun, hcount, hfault, hfreq⟩, htile, hother⟩ :=
      State.vatReset_of_empty_facts (s := s.begun (.vat v.val)) hempty
    have hmem : ((s.begun (.vat v.val)).vatReset v.val false).fab.mem = s.fab.mem := State.vatReset_mem ..
    have hexec := State.finish_of_begin (sc := .vat v.val) (t := .vat v.val false) htodo htodo'
    rw [hv] at hrun'
    refine ⟨_, congrArg Host.Outcome.next ((congrArg State.finish hask).trans hexec), hrun, hcount, hfault, hfreq, fun x hx => ?_, hrun',
      State.byteAt_of_mem hmem, hother⟩
    have htile' := htile x hx
    exact ⟨congrArg Tile.xflags0 htile', congrArg Tile.xflags1 htile'⟩
  case out =>
    refine congrArg Host.Outcome.next ?_
    have hask : s.askVat v.val = s := if_pos (by rw [hmap, hcol]; rfl)
    rw [hask]
    exact State.drainTodo_of_todo_nil 400 htodo
  case die =>
    have hd : Fin.ofNat 8 d.val = d := Fin.ofNat_val_eq_self d
    have hask : s.askDie d.val = s.begin (.die d.val) (.die d.val) (BitVec.allOnes 64) :=
      (if_neg (by rw [hready]; decide)).trans (if_neg (by rw [hdie, hreset]; decide))
    have hwork := State.dieReset_of_empty (s := s.begun (.die d.val)) (d := d.val) fun v hv => hempty v (mem_dieVats.mp hv)
    have hloads := State.abortLoads_kept (π := fun t => (t.vats, t.err.todo)) ⟨⟨⟨⟨fun _ _ => rfl, fun _ _ => rfl, fun _ _ => rfl,
      fun _ _ => rfl, fun _ _ => rfl, fun _ _ => rfl⟩, fun _ _ => rfl, fun _ _ => rfl⟩, fun _ _ => rfl⟩, fun _ _ => rfl⟩
      (s.begun (.die d.val)) fun t => t.vat / 4 == d.val
    have hmem := State.byteAt_of_mem ((s.begun (.die d.val)).abortLoads_mem fun t => t.vat / 4 == d.val)
    rw [State.dieWiped] at hwork
    generalize (s.begun (.die d.val)).abortLoads (fun t => t.vat / 4 == d.val) = u at hwork hloads hmem
    simp only [Prod.mk.injEq] at hloads
    obtain ⟨hvats, htodo'⟩ := hloads
    have hdone : ((s.begun (.die d.val)).dieReset d.val).err.todo = [] := by
      rw [hwork]
      exact (u.wipeDie_todo d.val).trans htodo'
    have hexec := State.finish_of_begin (sc := .die d.val) (t := .die d.val) htodo hdone
    have hbyte (a : Nat) : (s.begun (.die d.val)).byteAt a = s.byteAt a := rfl
    refine ⟨_, congrArg Host.Outcome.next (((congrArg State.finish hask).trans hexec).trans hwork), ?_, ?_, fun v hv => ?_, fun w hw => ?_,
      fun v a hv hlo hhi => ?_, fun c a hc hlo hhi => ?_, fun a ha => ?_⟩
    · exact (u.wipeDie_dieInReset d.isLt d.val).trans (if_pos rfl)
    · rw [hd]
      exact State.startReset_resetRuns _ _
    · exact u.wipeDie_vat_run hv
    · exact (u.wipeDie_vat_of_ne hw).trans (State.vat_of_vats hvats w)
    · exact u.wipeDie_byteAt_tiles hv hlo hhi
    · exact u.wipeDie_byteAt_creams hc hlo hhi
    · exact (u.wipeDie_byteAt_hbm d.val ha).trans ((hmem a).trans (hbyte a))
  case held =>
    have hhold : s.hold k = { s with mc := { s.mc with heldResets := s.mc.heldResets ++ [k] } } :=
      if_neg fun h => hk (by simpa using h)
    have hfinish : (s.hold k).finish = s.hold k := State.drainTodo_of_todo_nil 400 (by rw [hhold]; exact htodo)
    rcases hc with ⟨d, rfl, rfl⟩ | ⟨rfl, rfl⟩
    · have hask : s.askDie d.val = s.hold (.die d) := (if_pos hready).trans (by rw [Fin.ofNat_val_eq_self])
      exact congrArg Host.Outcome.next ((congrArg State.finish hask).trans (hfinish.trans hhold))
    · exact congrArg Host.Outcome.next ((congrArg State.finish (if_pos hready)).trans (hfinish.trans hhold))
  case compute =>
    have hask : s.askCompute = s.begin .compute .compute (BitVec.allOnes 64) := by
      unfold State.askCompute
      rw [if_neg (by rw [hready]; decide), hruns, if_neg (by decide)]
      exact if_neg (by rw [show (s.begin .compute .compute (BitVec.allOnes 64)).svc = s.svc from rfl, hstandby]; decide)
    have hwork := State.computeReset_of_empty (s := s.begun .compute) hempty
    have hloads := State.abortLoads_kept (π := fun t => t.err.todo) ⟨⟨⟨⟨fun _ _ => rfl, fun _ _ => rfl, fun _ _ => rfl,
      fun _ _ => rfl, fun _ _ => rfl, fun _ _ => rfl⟩, fun _ _ => rfl, fun _ _ => rfl⟩, fun _ _ => rfl⟩, fun _ _ => rfl⟩
      (s.begun .compute) fun _ => true
    have hmem := State.byteAt_of_mem ((s.begun .compute).abortLoads_mem fun _ => true)
    have htodo' : (s.begun .compute).diesWiped.err.todo = [] :=
      (foldl_kept (π := fun t => t.err.todo) (f := State.wipeDie) State.wipeDie_todo (List.range 8) _).trans (hloads.trans rfl)
    have hdies (d : Nat) (hd : d < 8) : (s.begun .compute).diesWiped.inv.dieInReset.getLsbD d = true := by
      refine State.diesWiped_of_one (d := d) (Q := fun t => t.inv.dieInReset.getLsbD d = true) hd (fun a => ?_) (fun a e he ha => ?_) _
      · exact (a.wipeDie_dieInReset hd d).trans (if_pos rfl)
      · rw [a.wipeDie_dieInReset he, ha, ite_self]
    have hvats (v : Nat) (hv : v < 32) : ((s.begun .compute).diesWiped.vat v).run = .reset := by
      refine State.diesWiped_of_one (d := v / 4) (Q := fun t => (t.vat v).run = .reset) (by omega) (fun a => a.wipeDie_vat_run rfl)
        (fun a e _ ha => ?_) _
      by_cases he : v / 4 = e
      · exact a.wipeDie_vat_run he
      · rw [a.wipeDie_vat_of_ne he, ha]
    have htiles (a : Nat) (hlo : tileBase 0 0 ≤ a) (hhi : a < tileBase 32 0) : (s.begun .compute).diesWiped.byteAt a = 0 := by
      obtain ⟨v, hv, hlo, hhi⟩ := exists_tileBase hlo hhi
      exact State.diesWiped_of_one (d := v / 4) (Q := fun t => t.byteAt a = 0) (by omega) (fun b => b.wipeDie_byteAt_tiles rfl hlo hhi)
        (fun b e _ hb => State.wipeDie_byteAt_zero hb e) _
    have hcreams (a : Nat) (hlo : creamBase 0 ≤ a) (hhi : a < creamBase 16) : (s.begun .compute).diesWiped.byteAt a = 0 := by
      obtain ⟨c, hc, hlo, hhi⟩ := exists_creamBase hlo hhi
      exact State.diesWiped_of_one (d := c / 2) (Q := fun t => t.byteAt a = 0) (by omega) (fun b => b.wipeDie_byteAt_creams rfl hlo hhi)
        (fun b e _ hb => State.wipeDie_byteAt_zero hb e) _
    have hhbm (a : Nat) (ha : a < 2 ^ 41) : (s.begun .compute).diesWiped.byteAt a = s.byteAt a := by
      have hbyte : (s.begun .compute).byteAt a = s.byteAt a := rfl
      have hfold := foldl_kept (π := fun t => t.byteAt a) (f := State.wipeDie) (fun b d => b.wipeDie_byteAt_hbm d ha) (List.range 8)
        ((s.begun .compute).abortLoads fun _ => true)
      exact hfold.trans ((hmem a).trans hbyte)
    generalize (s.begun .compute).diesWiped = u at hwork htodo' hdies hvats htiles hcreams hhbm
    have hdone : (s.begun .compute).computeReset.err.todo = [] := by
      rw [hwork]
      exact htodo'
    have hexec := State.finish_of_begin (sc := .compute) (t := .compute) htodo hdone
    exact ⟨_, congrArg Host.Outcome.next (((congrArg State.finish hask).trans hexec).trans hwork), State.startReset_resetRuns _ _, hdies,
      hvats, hhbm, htiles, hcreams⟩
  case mgmt =>
    have hask : s.askMgmt = { s with err := { s.err with todo := s.err.todo ++ [.mgmt] } } :=
      if_neg (by rw [hmgmt]; simp; omega)
    have hall : ({ s with err := { s.err with todo := s.err.todo ++ [.mgmt] } } : State).err.todo = [.mgmt] := by
      show s.err.todo ++ [.mgmt] = [.mgmt]
      rw [htodo]
      rfl
    have hview := State.mgmtQuiet_kept (π := fun t => (t.vats, t.ctxs, t.planes, t.tiles, t.err.todo)) ⟨⟨⟨fun _ _ => rfl, fun _ _ => rfl,
      fun _ _ => rfl, fun _ _ => rfl, fun _ _ => rfl, fun _ _ => rfl⟩, fun _ _ => rfl, fun _ _ => rfl⟩, fun _ _ => rfl⟩ (fun _ _ => rfl)
      (fun _ _ => rfl) s
    have hwork := s.mgmtResetWork_facts
    have hmem := s.mgmtResetWork_mem
    have hsame : ({ s with err := { s.err with todo := [] } } : State) = s := by rw [← htodo]
    have hdo : State.doTodo { s with err := { s.err with todo := [] } } .mgmt = s.mgmtResetWork := by rw [hsame]; rfl
    simp only [Prod.mk.injEq] at hview
    obtain ⟨hvats, hctxs, hplanes, htiles, htodo'⟩ := hview
    obtain ⟨hrest, hvats', hctxs', hplanes', htiles', htodo''⟩ := hwork
    have hexec := (State.finish_of_todo_one hall (by rw [hdo, htodo'', htodo', htodo])).trans hdo
    obtain ⟨hreset, hsessions, hforwards, hidle, hfwd, hroutes, hlocked, hruns⟩ := hrest
    exact ⟨_, congrArg Host.Outcome.next ((congrArg State.finish hask).trans hexec), hreset, hsessions, hforwards, hidle, hfwd, hroutes,
      hlocked, hruns, hvats'.trans hvats, hctxs'.trans hctxs, hplanes'.trans hplanes, htiles'.trans htiles, State.byteAt_of_mem hmem⟩
  case done =>
    have hfind : (s.err.resets.find? fun r => r.1 == .vat v) = some (.vat v, b) := by rw [hresets]; simp
    have hrest : (s.err.resets.filter fun r => r.1 != .vat v) = [] := by rw [hresets]; simp
    have hdone : s.resetDone (.vat v) o = State.vatDone { s with err := { s.err with resets := [] } } v.val b := by
      unfold State.resetDone
      rw [hfind]
      dsimp only
      rw [hrest]
    have hvat := State.onVat_vat_same { s with err := { s.err with resets := [] } } v.val fun x => { x with run := .idle, freqNow := 32 }
    rw [State.vatDone_of_in (s := { s with err := { s.err with resets := [] } }) hin hsus] at hdone
    have hfinish := State.drainTodo_of_todo_nil 400 (s := ((State.onVat { s with err := { s.err with resets := [] } } v.val fun x =>
      { x with run := .idle, freqNow := 32 }).resetNote 0 (unitVat v.val) b).endHandling (.vat v.val)) htodo
    exact ⟨_, congrArg Host.Outcome.next ((congrArg State.finish hdone).trans hfinish), congrArg Vat.run hvat, congrArg Vat.freqNow hvat,
      rfl, congrArg ErrRec.code (State.note_recordAt _ _ _ _ _ _), congrArg ErrRec.details (State.note_recordAt _ _ _ _ _ _), rfl, rfl, rfl⟩
  case none =>
    have hfind : (s.err.resets.find? fun r => r.1 == k) = none := by
      rw [List.find?_eq_none]
      intro r hr hrk
      exact Bool.eq_false_iff.mp hruns (List.any_eq_true.mpr ⟨r, hr, hrk⟩)
    have hsame : s.resetDone k o = s := by
      unfold State.resetDone
      rw [hfind]
    refine congrArg Host.Outcome.next ?_
    rw [hsame]
    exact State.drainTodo_of_todo_nil 400 htodo

end Sys2Proof.Machine
end

section
/-! SUPPORT. Bring-up: the settled statement. -/

namespace Sys2Proof.Machine

/-! ## Step 4 -/

/-- Stacks after step 4 where none fails its training. -/
def State.runStack (s : State) (k : Nat) : State :=
  if s.inv.stackRetired.getLsbD k then s else s.onStack k fun x => { x with mode := .run }

theorem State.runStack_kept {α : Type} {π : State → α} (h : ∀ s x, π { s with hbm := x } = π s) (s : State) (k : Nat) :
    π (s.runStack k) = π s := ite_kept rfl (h s _)

theorem State.runStack_mode (s : State) {k : Nat} (h : s.inv.stackRetired.getLsbD k = false) : ((s.runStack k).stack k).mode = .run := by
  unfold State.runStack
  rw [if_neg (by rw [h]; decide), State.onStack_stack_same]

theorem State.runStack_keeps_run {s : State} {k : Nat} (h : (s.stack k).mode = .run) (j : Nat) : ((s.runStack j).stack k).mode = .run := by
  unfold State.runStack
  split
  · exact h
  · rw [State.onStack_stack]
    split
    · rfl
    · exact h

theorem State.bootHbm_of_trained {s : State} {o : StepObs} (h : o.failedStacks = []) : s.bootHbm o =
    { (List.range 32).foldl State.runStack (s.clearRange 0 (2 ^ 41)) with
      hbm := { ((List.range 32).foldl State.runStack (s.clearRange 0 (2 ^ 41))).hbm with running := true } } := by
  unfold State.bootHbm State.runStack
  rw [h]
  rfl

/-! ## Step 7 -/

/-- A die that opens keeps its marks and its maps but for its own reset. -/
structure BlindToOpening {α : Type} (π : State → α) : Prop where
  vats : ∀ s x, π { s with vats := x } = π s
  creams : ∀ s x, π { s with creams := x } = π s
  churn : ∀ s x, π { s with churn := x } = π s
  clk : ∀ s x, π { s with clk := { s.clk with dieLock := x } } = π s
  inv : ∀ s x, π { s with inv := { s.inv with dieInReset := x } } = π s

/-- The vats of a die as it opens (R496). -/
def State.openVat (s : State) (v : Nat) : State :=
  s.onVat v fun x => if s.inv.vatMap.getLsbD v then { x with run := .idle, freqNow := 32 } else { x with run := .retired, freqNow := 0 }

/-- The cream dies and ports of a die as it opens (R257). -/
def State.openCream (s : State) (c : Nat) : State :=
  (s.onCream c fun x => { x with mode := if s.inv.creamMap.getLsbD c then .active else .retired }).onPort c fun x => { x with mode := .dark }

/-- A die marked as open. -/
def State.markOpen (s : State) (d : Nat) : State :=
  { s with inv := { s.inv with dieInReset := bvSet s.inv.dieInReset d false },
           clk := { s.clk with dieLock := bvSet s.clk.dieLock d true },
           churn := { s.churn with relightNext := (diePorts d).foldl (fun m p => bvSet m p true) s.churn.relightNext } }

theorem State.dieOpens_of_in {s : State} {d : Nat} (h : s.dieIn d = true) : s.dieOpens d =
    ((diePorts d).foldl State.openCream ((dieVats d).foldl State.openVat s)).markOpen d :=
  if_neg (by rw [h]; decide)

theorem State.markOpen_kept {α : Type} {π : State → α} (h : BlindToOpening π) (s : State) (d : Nat) : π (s.markOpen d) = π s := by
  have hall (x : BitVec 8) (y : BitVec 9) (z : Churn) :
      π { s with inv := { s.inv with dieInReset := x }, clk := { s.clk with dieLock := y }, churn := z } = π s :=
    (h.churn { s with inv := { s.inv with dieInReset := x }, clk := { s.clk with dieLock := y } } z).trans
      ((h.clk { s with inv := { s.inv with dieInReset := x } } y).trans (h.inv s x))
  exact hall _ _ _

theorem State.dieOpens_kept {α : Type} {π : State → α} (h : BlindToOpening π) (s : State) (d : Nat) : π (s.dieOpens d) = π s := by
  unfold State.dieOpens
  refine ite_kept rfl ((State.markOpen_kept h _ d).trans ?_)
  exact (foldl_kept (f := State.openCream) (fun a c => (h.churn _ _).trans (h.creams a _)) _ _).trans
    (foldl_kept (f := State.openVat) (fun a v => h.vats a _) _ s)

theorem State.openVat_vat (s : State) (v w : Nat) : (s.openVat v).vat w = if w = v then
    if s.inv.vatMap.getLsbD v then { s.vat v with run := .idle, freqNow := 32 } else { s.vat v with run := .retired, freqNow := 0 }
    else s.vat w := s.onVat_vat v w _

/-- A vat as it stands when its die has opened. -/
structure Opened (x : Vat) : Prop where
  run : x.run = .idle
  freqNow : x.freqNow = 32

theorem State.openVat_opened {s : State} {v : Nat} (hmap : s.inv.vatMap.getLsbD v = true) : Opened ((s.openVat v).vat v) := by
  rw [State.openVat_vat, if_pos rfl, if_pos hmap]
  exact ⟨rfl, rfl⟩

theorem State.openVat_keeps_opened {s : State} {v : Nat} (hmap : s.inv.vatMap.getLsbD v = true) (h : Opened (s.vat v)) (w : Nat) :
    Opened ((s.openVat w).vat v) := by
  by_cases hw : v = w
  · rw [← hw]
    exact State.openVat_opened hmap
  · rw [State.openVat_vat, if_neg hw]
    exact h

/-- The vats of a die that has opened are those its vats leave. -/
theorem State.dieOpens_vats {s : State} {d : Nat} (hdie : s.dieIn d = true) : (s.dieOpens d).vats = ((dieVats d).foldl State.openVat s).vats := by
  rw [State.dieOpens_of_in hdie]
  exact foldl_kept (π := fun t => t.vats) (f := State.openCream) (fun _ _ => rfl) _ _

/-- A vat in service of a die that opens is idle at 0.8 GHz. -/
theorem State.dieOpens_opened {s : State} {v : Nat} (hdie : s.dieIn (v / 4) = true) (hmap : s.inv.vatMap.getLsbD v = true) :
    Opened ((s.dieOpens (v / 4)).vat v) := by
  rw [State.vat_of_vats (State.dieOpens_vats hdie)]
  exact foldl_establishes_where (f := State.openVat) (P := fun t => t.inv.vatMap.getLsbD v = true) (Q := fun t => Opened (t.vat v)) (mem_dieVats.mpr rfl)
    (fun _ _ h => h) (fun _ h => State.openVat_opened h) (fun _ w h ho => State.openVat_keeps_opened h ho w) hmap

theorem State.dieOpens_keeps_opened {s : State} {v : Nat} (hdie : s.dieIn (v / 4) = true) (hmap : s.inv.vatMap.getLsbD v = true)
    (h : Opened (s.vat v)) (d : Nat) : Opened ((s.dieOpens d).vat v) := by
  by_cases hd : v / 4 = d
  · rw [← hd]
    exact State.dieOpens_opened hdie hmap
  · by_cases hin : s.dieIn d = true
    · have hother (a : State) (w : Nat) (hw : w ∈ dieVats d) : (a.openVat w).vat v = a.vat v := by
        rw [State.openVat_vat, if_neg fun e : v = w => hd (e ▸ mem_dieVats.mp hw)]
      rw [State.vat_of_vats (State.dieOpens_vats hin),
        foldl_kept_of_mem (π := fun t => t.vat v) _ (fun w hw a => hother a w hw) s]
      exact h
    · rw [show s.dieOpens d = s from if_pos (by simpa using hin)]
      exact h

/-- Every die opens. -/
def State.diesOpen (s : State) : State := (List.range 8).foldl State.dieOpens s

theorem State.diesOpen_opened {s : State} {v : Nat} (hv : v < 32) (hdie : s.dieIn (v / 4) = true) (hmap : s.inv.vatMap.getLsbD v = true) :
    Opened (s.diesOpen.vat v) := by
  refine foldl_establishes_where (P := fun t => (t.inv.cdMap, t.inv.vatMap) = (s.inv.cdMap, s.inv.vatMap)) (Q := fun t => Opened (t.vat v))
    (List.mem_range.mpr (show v / 4 < 8 by omega)) (fun a d h => ?_) (fun a h => ?_) (fun a d h ho => ?_) rfl
  · exact (State.dieOpens_kept (π := fun t => (t.inv.cdMap, t.inv.vatMap)) ⟨fun _ _ => rfl, fun _ _ => rfl, fun _ _ => rfl, fun _ _ => rfl,
      fun _ _ => rfl⟩ a d).trans h
  all_goals
    simp only [Prod.mk.injEq] at h
    have hdie' : a.dieIn (v / 4) = true := (congrArg (fun m => m.getLsbD (v / 4)) h.1).trans hdie
    have hmap' : a.inv.vatMap.getLsbD v = true := (congrArg (fun m => m.getLsbD v) h.2).trans hmap
  · exact State.dieOpens_opened hdie' hmap'
  · exact State.dieOpens_keeps_opened hdie' hmap' ho d

theorem State.diesOpen_kept {α : Type} {π : State → α} (h : BlindToOpening π) (s : State) : π s.diesOpen = π s :=
  foldl_kept (State.dieOpens_kept h) _ s

/-- The module as it becomes READY (R495). -/
def State.readied (s : State) : State :=
  State.note { s with mc := { s.mc with step := 8, state := .ready, readyTime := s.clk.now, stepEnd := Tbl.put 0 s.mc.stepEnd 8 s.clk.now } }
    0x0002 .info (unitMc s.mc.owner) [BitVec.ofNat 64 (popcount 32 s.inv.vatMap.toNat), BitVec.ofNat 64 (popcount 8 s.inv.cdMap.toNat),
      BitVec.ofNat 64 (popcount 32 s.inv.stackMap.toNat)]

theorem State.bootReady_of_free {s : State} (hhalt : s.diesOpen.err.halt = false) (hheld : s.diesOpen.mc.heldResets = []) :
    s.bootReady = s.diesOpen.readied := by
  have hrun (u : State) (h : u.mc.heldResets = []) : u.runHeld = u := by
    have hsame : ({ u with mc := { u.mc with heldResets := [] } } : State) = u := by rw [← h]
    unfold State.runHeld
    rw [h]
    exact hsame
  unfold State.bootReady
  dsimp only
  unfold State.diesOpen at hhalt hheld ⊢
  rw [if_neg (by rw [hhalt]; decide)]
  exact hrun _ hheld

/-- A bound that finds nothing unfinished ends the step. -/
theorem State.stepBound_nil (s : State) : ∃ o, s.stepBound [] = s.stepEnds o := by
  unfold State.stepBound
  exact ⟨_, rfl⟩

/-- Settles O20: each step by what its end does, the opening of the dies by one die's. -/
theorem bringUpSteps : Obligations.BringUpSteps := by
  refine ⟨fun c s hmgmt hstep htodo hc => ?power, fun o s hmgmt hstep htodo hfailed => ?hbm, fun v f s htodo hstep hin hdone hruns => ?kat,
    fun v x s htodo hstep hin hx hdone hruns => ?again, fun o s hmgmt hstep htodo hhalt hheld => ?ready⟩
  case power =>
    have hends (o : StepObs) : s.stepEnds o =
        (State.enterStep { s.markStep 1 with board := { (s.markStep 1).board with rails := true } } 2) := by
      unfold State.stepEnds
      rw [hstep]
      rfl
    have hexec : ∃ o, exec c s = .next (s.stepEnds o).finish := by
      rcases hc with ⟨o, rfl⟩ | rfl
      · exact ⟨o, congrArg Host.Outcome.next (if_neg (by rw [hmgmt]; decide))⟩
      · obtain ⟨o, hbound⟩ := s.stepBound_nil
        exact ⟨o, congrArg Host.Outcome.next ((if_neg (by rw [hmgmt, hstep]; decide)).trans (congrArg State.finish hbound))⟩
    obtain ⟨o, hexec⟩ := hexec
    have hmark : Tbl.look 0 (Tbl.put 0 s.mc.stepEnd 1 s.clk.now) 1 = s.clk.now := Tbl.look_put_same _ _ _ _
    rw [hends, State.finish, State.drainTodo_of_todo_nil 400 (by exact htodo)] at hexec
    exact ⟨_, hexec, rfl, rfl, hmark, rfl, rfl, rfl⟩
  case hbm =>
    have hends : s.stepEnds o = ((s.markStep 4).bootHbm o).enterStep 5 := by
      unfold State.stepEnds
      rw [hstep]
      rfl
    rw [State.bootHbm_of_trained hfailed] at hends
    have hbyte (a : Nat) := (s.markStep 4).byteAt_clearRange 0 (2 ^ 41) a
    have hsame (a : Nat) : (s.markStep 4).byteAt a = s.byteAt a := rfl
    have htodo' : ((s.markStep 4).clearRange 0 (2 ^ 41)).err.todo = [] := htodo
    have hretired : ((s.markStep 4).clearRange 0 (2 ^ 41)).inv = s.inv := rfl
    generalize (s.markStep 4).clearRange 0 (2 ^ 41) = u at hends hbyte htodo' hretired
    have hview := foldl_kept (π := fun t => (t.fab.mem, t.err.todo)) (f := State.runStack)
      (State.runStack_kept (π := fun t => (t.fab.mem, t.err.todo)) fun _ _ => rfl) (List.range 32) u
    have hstacks (k : Nat) (hk : k < 32) (hin : s.inv.stackRetired.getLsbD k = false) :
        (((List.range 32).foldl State.runStack u).stack k).mode = .run :=
      foldl_establishes_where (P := fun t => t.inv = s.inv) (Q := fun t => (t.stack k).mode = .run) (List.mem_range.mpr hk)
        (fun a j h => (State.runStack_kept (π := fun t => t.inv) (fun _ _ => rfl) a j).trans h)
        (fun a h => a.runStack_mode (by rw [h]; exact hin)) (fun a j _ h => State.runStack_keeps_run h j) hretired
    generalize (List.range 32).foldl State.runStack u = w at hends hview hstacks
    simp only [Prod.mk.injEq] at hview
    obtain ⟨hmem, htodo''⟩ := hview
    have hexec : exec (.bringUpStepEnd o) s = .next (s.stepEnds o).finish := congrArg Host.Outcome.next (if_neg (by rw [hmgmt]; decide))
    rw [hends, State.finish, State.drainTodo_of_todo_nil 400 (by exact htodo''.trans htodo')] at hexec
    refine ⟨_, hexec, rfl, rfl, fun a ha => ?_, fun a ha => ?_, hstacks⟩
    · exact (State.byteAt_of_mem hmem a).trans ((hbyte a).trans (if_pos (by omega)))
    · exact (State.byteAt_of_mem hmem a).trans ((hbyte a).trans ((if_neg (by omega)).trans (hsame a)))
  case kat =>
    have hexp : s.katExpected v.val = true := by
      rw [State.katExpected, hstep, hin, hdone]
      rfl
    have hends : s.katEnds v.val (Config.katSignature v.val) f =
        { s with mc := { s.mc with katDone := bvSet s.mc.katDone v.val true } } := by
      unfold State.katEnds
      rw [hexp, hruns]
      dsimp only
      rw [if_neg (by decide), if_pos rfl, if_neg (by decide)]
    refine congrArg Host.Outcome.next ?_
    rw [hends]
    exact State.drainTodo_of_todo_nil 400 htodo
  case again =>
    have hexp : s.katExpected v.val = true := by
      rw [State.katExpected, hstep, hin, hdone]
      rfl
    have hin' : s.inv.vatRetired.getLsbD v.val = false := by simpa using (Bool.and_eq_true_iff.mp hin).2
    have hends : s.katEnds v.val x [] = (s.onVat v.val fun y => { y with katRuns := 1 }).columnTest v.val [] := by
      unfold State.katEnds
      rw [hexp, hruns]
      dsimp only
      rw [if_neg (by decide), if_neg hx, if_neg (by decide)]
      refine if_neg fun h => ?_
      have hall := List.all_eq_true.mp h.2 v.val (mem_dieVats.mpr rfl)
      exact Bool.false_ne_true (hin'.symm.trans hall)
    have hfirst := s.onVat_vat_same v.val fun y => { y with katRuns := 1 }
    have hvat := (s.onVat v.val fun y => { y with katRuns := 1 }).onVat_vat_same v.val fun y =>
      { y with skip := 32, exhausted := false, failedCols := [] }
    have hexec : exec (.katRunComplete v x []) s = .next (s.katEnds v.val x []).finish := rfl
    rw [hends, State.finish, State.drainTodo_of_todo_nil 400 (by exact htodo)] at hexec
    exact ⟨_, hexec, (congrArg Vat.katRuns hvat).trans (congrArg Vat.katRuns hfirst), rfl, rfl⟩
  case ready =>
    have hends : s.stepEnds o = (s.markStep 7).bootReady := by
      unfold State.stepEnds
      rw [hstep]
      rfl
    have hview := State.diesOpen_kept (π := fun t => (t.err.halt, t.mc.heldResets, t.err.todo, t.fab.mem, t.clk.now)) ⟨fun _ _ => rfl,
      fun _ _ => rfl, fun _ _ => rfl, fun _ _ => rfl, fun _ _ => rfl⟩ (s.markStep 7)
    have hopen (v : Nat) (hv : v < 32) (hdie : s.dieIn (v / 4) = true) (hmap : s.inv.vatMap.getLsbD v = true) :=
      State.diesOpen_opened (s := s.markStep 7) hv hdie hmap
    simp only [Prod.mk.injEq] at hview
    obtain ⟨hhalt', hheld', htodo', hmem, hnow⟩ := hview
    rw [State.bootReady_of_free (hhalt'.trans hhalt) (hheld'.trans hheld)] at hends
    have hexec : exec (.bringUpStepEnd o) s = .next (s.stepEnds o).finish := congrArg Host.Outcome.next (if_neg (by rw [hmgmt]; decide))
    generalize (s.markStep 7).diesOpen = u at hends hopen htodo' hmem hnow
    rw [hends, State.finish, State.drainTodo_of_todo_nil 400 (by exact htodo'.trans htodo)] at hexec
    refine ⟨_, hexec, rfl, rfl, hnow, fun v hv hdie hmap => ?_, State.byteAt_of_mem hmem⟩
    obtain ⟨hrun, hfreq⟩ := hopen v hv hdie hmap
    exact ⟨hrun, hfreq⟩

end Sys2Proof.Machine
end

section
/-! SUPPORT. IDENTITY, ATTEST, segments and queue pairs: the settled statement. -/

namespace Sys2Proof.Machine

/-! ## Answers -/

theorem State.hostSend_qps (s : State) (x : HostTx) : (s.hostSend x).eth.qps = s.eth.qps := by
  unfold State.hostSend
  split <;> rfl

theorem State.sealTo_qps (s : State) (k : Nat) (m : List Byte) : (s.sealTo k m).eth.qps = s.eth.qps := by
  unfold State.sealTo
  dsimp only
  split
  · rfl
  · split
    · rfl
    · exact State.hostSend_qps _ _

theorem State.sealTo_eq (s : State) (k : Nat) (m : List Byte) :
    ∃ a b, s.sealTo k m = { s with kcp := { s.kcp with sessions := a }, eth := b } := by
  unfold State.sealTo State.hostSend
  dsimp only
  split
  · exact ⟨s.kcp.sessions, s.eth, rfl⟩
  · split
    · exact ⟨_, s.eth, rfl⟩
    · split
      · exact ⟨_, _, rfl⟩
      · exact ⟨_, s.eth, rfl⟩

/-- An answer to a session: the sessions and what is sent change, and the newest reply kept is it. -/
theorem State.exists_reply (s : State) (k : Fin 8) (q : W32) (o : W16) (st : Nat) (p : List Byte) (m : Bool) :
    ∃ a b, s.reply (.session k) q o st p m = { s with kcp := { s.kcp with sessions := a }, eth := b } ∧
      State.repliedWith { s with kcp := { s.kcp with sessions := a }, eth := b } k.val q o st p ∧ b.qps = s.eth.qps := by
  have hqps : (s.reply (.session k) q o st p m).eth.qps = s.eth.qps := State.sealTo_qps _ _ _
  have hreplied := s.reply_repliedWith k q o st p m
  have hsealed (f : Session → Session) (r : List Byte) :
      ∃ a b, (s.onSession k.val f).sealTo k.val r = { s with kcp := { s.kcp with sessions := a }, eth := b } := by
    obtain ⟨a, b, heq⟩ := (s.onSession k.val f).sealTo_eq k.val r
    exact ⟨a, b, heq⟩
  obtain ⟨a, b, heq⟩ : ∃ a b, s.reply (.session k) q o st p m = { s with kcp := { s.kcp with sessions := a }, eth := b } := hsealed _ _
  rw [heq] at hreplied hqps
  exact ⟨a, b, heq, hreplied, hqps⟩

theorem State.qp_of_qps {s t : State} (h : t.eth.qps = s.eth.qps) (q : Nat) : t.qp q = s.qp q := congrArg (fun m => Tbl.look ({} : Qp) m q) h

/-! ## IDENTITY and ATTEST -/

theorem ErrRec.bytes_length (r : ErrRec) : r.bytes.length = 64 := by
  simp [ErrRec.bytes]

theorem keyBytes_length (k : List Byte) : (keyBytes k).length = 133 := by
  simp [keyBytes]

theorem State.identity_length (s : State) : s.identity.length = 264 := by
  have htrip : ((s.fru.tripCopy.map ErrRec.bytes).getD (List.replicate 64 0)).length = 64 := by
    cases s.fru.tripCopy with
    | none => rfl
    | some r => exact r.bytes_length
  simp only [State.identity, List.length_append, beBytes_length, keyBytes_length, htrip, List.length_replicate, List.length_cons,
    List.length_nil]

theorem State.identity_pkg (s : State) : (s.identity.drop 3).head? = some (BitVec.ofNat 8 s.fab.pkgId.toNat) := by
  simp [State.identity, beBytes]

theorem State.identity_time (s : State) : (s.identity.drop 8).take 8 = beBytes 8 s.clk.now.toNat := by
  simp [State.identity, beBytes, State.time]

/-- What a quote says before the host's nonce: its kind, the module and what it lists of how many contexts (R510). -/
def State.quoteHead (s : State) (listed : Nat) : List Byte :=
  let flags := packBits [(0, 1, (decide (listed < s.measured.length)).toNat), (1, 1, s.mc.cfgValid.toNat), (2, 1, s.mc.certMatch.toNat),
    (3, 1, s.mc.owner.toNat)]
  ascii "VLVQ" ++ beBytes 2 1 ++ beBytes 1 (McState.code s.mc.state) ++ beBytes 1 flags ++ beBytes 8 s.time ++
    beBytes 16 s.fru.serial.toNat ++ beBytes 1 s.fuses.variant.code ++ beBytes 1 s.fab.pkgId.toNat ++ beBytes 2 s.measured.length ++
    beBytes 2 listed ++ [0, 0] ++ beBytes 4 s.mc.svn.toNat ++ beBytes 4 s.fuses.svnMin.toNat ++ beBytes 8 s.mc.fwVersion.toNat ++
    beBytes 8 s.rings.hashSeq.toNat

theorem State.quoteHead_length (s : State) (listed : Nat) : (s.quoteHead listed).length = 64 := by
  have hmagic : (ascii "VLVQ").length = 4 := rfl
  simp only [State.quoteHead, List.length_append, beBytes_length, hmagic, List.length_cons, List.length_nil]

theorem State.quote_eq (s : State) (nonce : BitVec 512) (room secret : Nat) :
    ∃ listed tail, s.quote nonce room secret = s.quoteHead listed ++ (leBytes 64 nonce.toNat ++ tail) := by
  refine ⟨min s.measured.length ((room - 452) / 80), ?_⟩
  unfold State.quote State.quoteHead
  simp only [List.append_assoc]
  exact ⟨_, rfl⟩

/-- A quote holds the host's nonce behind its head of 64 bytes. -/
theorem State.quote_nonce (s : State) (nonce : BitVec 512) (room secret : Nat) :
    ((s.quote nonce room secret).drop 64).take 64 = leBytes 64 nonce.toNat := by
  obtain ⟨listed, tail, heq⟩ := s.quote_eq nonce room secret
  have hhead := s.quoteHead_length listed
  have hnonce : (leBytes 64 nonce.toNat).length = 64 := leBytes_length 64 nonce.toNat
  rw [heq, List.drop_left' hhead, List.take_left' hnonce]

/-! ## Segments -/

theorem bitAt_toNat {w : Nat} (x : BitVec w) (i : Nat) : bitAt x.toNat i = x.getLsbD i := by
  rw [bitAt, BitVec.getLsbD, Nat.testBit_eq_decide_div_mod_eq]
  rfl

/-- The fields of an entry whose reserved bits are 0 are all of it. -/
theorem segClean_nat {x : Nat} (hlt : x < 2 ^ 128) (hlow : x % 64 = 0) (hbit : x / 2 ^ 103 % 2 = 0) (hhigh : x / 2 ^ 109 % 2 ^ 19 = 0) :
    (x / 2 ^ 6 % 2 ^ 58) * 2 ^ 6 + (x / 2 ^ 64 % 2 ^ 39) * 2 ^ 64 + (x / 2 ^ 104 % 2 ^ 5) * 2 ^ 104 = x := by
  omega

theorem bitsAt_mod (x lo n : Nat) : bitsAt x lo n % 2 ^ n = bitsAt x lo n := Nat.mod_mod _ _

theorem packBits_three (a b c l m n u v w : Nat) : packBits [(l, a, u), (m, b, v), (n, c, w)] =
    u % 2 ^ a * 2 ^ l + v % 2 ^ b * 2 ^ m + w % 2 ^ c * 2 ^ n := by
  simp [packBits]

/-- The bits that an entry that may stand holds at 0. -/
theorem reserved_of_segSound {x : Nat} (h : segSound x = true) : x % 64 = 0 ∧ bitsAt x 103 1 = 0 ∧ bitsAt x 109 19 = 0 := by
  have hparts : bitsAt x 0 64 % 64 = 0 ∧ bitsAt x 103 1 = 0 ∧ bitsAt x 109 19 = 0 := by
    unfold segSound at h
    simp only [Bool.and_eq_true, beq_iff_eq] at h
    obtain ⟨⟨⟨⟨⟨-, hlow⟩, -⟩, -⟩, hbit⟩, hhigh⟩ := h
    exact ⟨hlow, hbit, hhigh⟩
  obtain ⟨hlow, hbit, hhigh⟩ := hparts
  refine ⟨?_, hbit, hhigh⟩
  rwa [bitsAt, Nat.pow_zero, Nat.div_one, Nat.mod_mod_of_dvd _ (by norm_num)] at hlow

/-- An entry that may stand is kept as it is written. -/
theorem segClean_of_sound {e : BitVec 128} (h : segSound e.toNat = true) :
    BitVec.ofNat 128 (packBits [(6, 58, bitsAt e.toNat 6 58), (64, 39, bitsAt e.toNat 64 39), (104, 5, bitsAt e.toNat 104 5)]) = e := by
  obtain ⟨hlow, hbit, hhigh⟩ := reserved_of_segSound h
  rw [packBits_three, bitsAt_mod, bitsAt_mod, bitsAt_mod]
  exact (congrArg (BitVec.ofNat 128) (segClean_nat e.isLt hlow hbit hhigh)).trans (BitVec.eq_of_toNat_eq (Nat.mod_eq_of_lt e.isLt))

theorem State.writeSeg_of_runs {s : State} {i : Nat} (h : (s.ctx (i / 512)).state.runs = true) (e : BitVec 128) (w : Writer) :
    s.writeSeg i e w = (stRefused, s.cfgRefuse (segAddr i) w e.toNat) := if_pos h

theorem State.writeSeg_of_sound {s : State} {i : Nat} {e : BitVec 128} (h : (s.ctx (i / 512)).state.runs = false)
    (hsound : segSound e.toNat = true) (w : Writer) :
    s.writeSeg i e w = (stOK, { s with fab := { s.fab with seg := Tbl.put 0 s.fab.seg i e } }) := by
  unfold State.writeSeg
  dsimp only
  rw [h, if_neg (by decide), if_neg fun hbad => (by rw [hsound] at hbad; simp at hbad), segClean_of_sound hsound]

theorem State.writeSeg_of_unsound {s : State} {i : Nat} {e : BitVec 128} (h : (s.ctx (i / 512)).state.runs = false)
    (hv : e.getLsbD 104 = true) (hsound : segSound e.toNat = false) (w : Writer) :
    s.writeSeg i e w = (stRange, s.note 0x0A08 .info unitContexts
      [BitVec.ofNat 64 i, BitVec.ofNat 64 e.toNat, BitVec.ofNat 64 (e.toNat / 2 ^ 64)] (some (i / 512))) := by
  unfold State.writeSeg
  dsimp only
  rw [h, if_neg (by decide), if_pos]
  exact ⟨(bitAt_toNat e 104).trans hv, by rw [hsound]; rfl⟩

/-! ## Queue pairs -/

theorem creditOf_of_range {c : W16} (hlo : 16 ≤ c.toNat) (hhi : c.toNat ≤ 4096) : creditOf c = some c := by
  have hne : c ≠ 0 := by
    rintro rfl
    exact absurd hlo (by decide)
  exact (if_neg hne).trans (if_pos ⟨hlo, hhi⟩)

theorem State.qpDestroyed_qp (s : State) (q r : Nat) : (s.qpDestroyed q).qp r = if r = q then
    { ({} : Qp) with refusedCnt := (s.qp q).refusedCnt, delayedCnt := (s.qp q).delayedCnt } else s.qp r := by
  have hsent := foldl_kept (π := fun t => t.eth.qps) (f := fun (a : State) (m : QpMsg) => a.hostSend (.nakAccess q m.psn))
    (fun a m => State.hostSend_qps a _) (s.qp q).msgs s
  unfold State.qpDestroyed
  dsimp only
  generalize (s.qp q).msgs.foldl _ s = u at hsent ⊢
  have hops (x : Fabric) (i : Nat) : State.qp { u with fab := x } i = s.qp i := State.qp_of_qps (s := s) (t := { u with fab := x }) hsent i
  refine (State.onQp_qp _ q r _).trans ?_
  rw [hops, hops]

/-- A queue pair as QP_CREATE readies it: what it counted of requests and outcomes stays (R432). -/
def Qp.readied (x : Qp) (c : Byte) (rk : W32) (cr sz : W16) (n : W32) (ring : W64) (peer : QpPeer) : Qp :=
  { ({} : Qp) with state := .ready, ctx := BitVec.ofNat 6 c.toNat, rkey := rk, credit := cr, slotSize := sz, slots := n,
                   ringBase := ring, peer := peer, lastStatus := x.lastStatus, lastCause := x.lastCause, lastBucket := x.lastBucket,
                   delayedCnt := x.delayedCnt, refusedCnt := x.refusedCnt }

/-- Settles O28: each command by its answer and what it rewrites besides. -/
theorem identitySegmentsAndQueuePairs : Obligations.IdentitySegmentsAndQueuePairs := by
  refine ⟨fun k req s => ?identity, fun k req nonce s => ?attest, fun k req c seg e s hc hseg hruns hsound hv => ?maps,
    fun k req c seg e s hc hseg hruns => ?runs, fun k req c seg e s hc hseg hruns hv hsound => ?unsound,
    fun k req q c rk cr sz n ring peer s hq hc hlo hhi hstate => ?creates, fun k req q s hq hstate => ?destroys, fun k req q s hq => ?range⟩
  case identity =>
    obtain ⟨a, b, heq, hreplied, -⟩ := s.exists_reply k req 0x0001 stOK s.identity false
    exact ⟨_, _, congrArg Host.Outcome.next heq, rfl, hreplied, s.identity_length, s.identity_pkg, s.identity_time⟩
  case attest =>
    obtain ⟨a, b, heq, hreplied, -⟩ := State.exists_reply { s with mc := { s.mc with quoteCnt := bump s.mc.quoteCnt }, free := s.free + 1 }
      k req 0x0002 stOK (State.quote { s with free := s.free + 1 } nonce (s.recordMaxOf (.session k) - 48) (Config.signSecret s.free)) false
    exact ⟨_, _, congrArg Host.Outcome.next heq, hreplied, State.quote_nonce _ _ _ _, rfl, rfl⟩
  case maps =>
    have hin : (c.toNat * 512 + seg.toNat) / 512 = c.toNat := by omega
    have hwrite := State.writeSeg_of_sound (s := s) (i := c.toNat * 512 + seg.toNat) (by rw [hin]; exact hruns) hsound (.kcp k)
    obtain ⟨a, b, heq, hreplied, -⟩ := State.exists_reply
      { s with fab := { s.fab with seg := Tbl.put 0 s.fab.seg (c.toNat * 512 + seg.toNat) e } } k req 0x0015 stOK [] false
    have hreply := congrArg (fun r : Nat × State => r.2.reply (.session k) req 0x0015 r.1 []) hwrite
    refine ⟨_, congrArg Host.Outcome.next ((if_neg (by omega)).trans (hreply.trans heq)), hreplied, Tbl.look_put_same _ _ _ _,
      fun i hi => Tbl.look_put_ne _ _ _ _ _ hi, rfl⟩
  case runs =>
    have hin : (c.toNat * 512 + seg.toNat) / 512 = c.toNat := by omega
    have hwrite := State.writeSeg_of_runs (s := s) (i := c.toNat * 512 + seg.toNat) (by rw [hin]; exact hruns) e (.kcp k)
    obtain ⟨a, b, heq, hreplied, -⟩ := State.exists_reply (s.cfgRefuse (segAddr (c.toNat * 512 + seg.toNat)) (.kcp k) e.toNat) k req
      0x0015 stRefused [] false
    have hreply := congrArg (fun r : Nat × State => r.2.reply (.session k) req 0x0015 r.1 []) hwrite
    exact ⟨_, congrArg Host.Outcome.next ((if_neg (by omega)).trans (hreply.trans heq)), hreplied, rfl,
      congrArg ErrRec.code (State.note_recordAt _ _ _ _ _ _), rfl⟩
  case unsound =>
    have hin : (c.toNat * 512 + seg.toNat) / 512 = c.toNat := by omega
    have hwrite := State.writeSeg_of_unsound (s := s) (i := c.toNat * 512 + seg.toNat) (by rw [hin]; exact hruns) hv hsound (.kcp k)
    obtain ⟨a, b, heq, hreplied, -⟩ := State.exists_reply (s.note 0x0A08 .info unitContexts [BitVec.ofNat 64 (c.toNat * 512 + seg.toNat),
      BitVec.ofNat 64 e.toNat, BitVec.ofNat 64 (e.toNat / 2 ^ 64)] (some ((c.toNat * 512 + seg.toNat) / 512))) k req 0x0015 stRange [] false
    have hreply := congrArg (fun r : Nat × State => r.2.reply (.session k) req 0x0015 r.1 []) hwrite
    exact ⟨_, congrArg Host.Outcome.next ((if_neg (by omega)).trans (hreply.trans heq)), hreplied,
      congrArg ErrRec.code (State.note_recordAt _ _ _ _ _ _), rfl⟩
  case creates =>
    let made : Qp := (s.qp q.toNat).readied c rk cr sz n ring peer
    obtain ⟨a, b, heq, hreplied, hqps⟩ := State.exists_reply (State.onQp { s with free := s.free + 1 } q.toNat fun _ => made) k req 0x0016
      stOK (beBytes 4 q.toNat ++ beBytes 4 (Config.startPsn s.free).toNat) false
    have hexec : exec (.qpCreate (.session k) req q c rk cr sz n ring peer) s =
        .next ((State.onQp { s with free := s.free + 1 } q.toNat fun _ => made).reply (.session k) req 0x0016 stOK
          (beBytes 4 q.toNat ++ beBytes 4 (Config.startPsn s.free).toNat)) := by
      show execQpCreate (.session k) req q c rk cr sz n ring peer s = _
      unfold execQpCreate
      rw [creditOf_of_range hlo hhi]
      dsimp only
      rw [if_neg (by omega), if_neg hstate]
      rfl
    have hqp := State.onQp_qp_same { s with free := s.free + 1 } q.toNat fun _ => made
    have hother (r : Nat) (hr : r ≠ q.toNat) := (State.onQp_qp { s with free := s.free + 1 } q.toNat r fun _ => made).trans (if_neg hr)
    have hctx : (BitVec.ofNat 6 c.toNat).toNat = c.toNat := by
      rw [BitVec.toNat_ofNat]
      omega
    have hqp' (r : Nat) := State.qp_of_qps (s := State.onQp { s with free := s.free + 1 } q.toNat fun _ => made)
      (t := { State.onQp { s with free := s.free + 1 } q.toNat fun _ => made with kcp := { s.kcp with sessions := a }, eth := b }) hqps r
    have hself := (hqp' q.toNat).trans hqp
    refine ⟨_, _, hexec.trans (congrArg Host.Outcome.next heq), hreplied, List.take_left' (beBytes_length _ _), congrArg Qp.state hself,
      (congrArg (fun y => y.ctx.toNat) hself).trans hctx, congrArg Qp.rkey hself, congrArg Qp.credit hself, congrArg Qp.slotSize hself,
      congrArg Qp.slots hself, congrArg Qp.ringBase hself, congrArg Qp.peer hself, congrArg Qp.msgs hself,
      fun r hr => (hqp' r).trans (hother r hr), rfl⟩
  case destroys =>
    obtain ⟨a, b, heq, hreplied, hqps⟩ := (s.qpDestroyed q.toNat).exists_reply k req 0x0017 stOK [] false
    have hqp (r : Nat) := (State.qp_of_qps (s := s.qpDestroyed q.toNat) (t := { s.qpDestroyed q.toNat with
      kcp := { (s.qpDestroyed q.toNat).kcp with sessions := a }, eth := b }) hqps r).trans
      (s.qpDestroyed_qp q.toNat r)
    have hmem : (s.qpDestroyed q.toNat).fab.mem = s.fab.mem := s.qpDestroyed_mem q.toNat
    refine ⟨_, congrArg Host.Outcome.next ((if_neg (by omega)).trans ((if_neg hstate).trans heq)), hreplied, ?_, fun r hr => ?_,
      State.byteAt_of_mem hmem⟩
    · exact congrArg Qp.state ((hqp q.toNat).trans (if_pos rfl))
    · exact (hqp r).trans (if_neg hr)
  case range =>
    obtain ⟨a, b, heq, hreplied, -⟩ := s.exists_reply k req 0x0017 stRange [] false
    exact ⟨_, congrArg Host.Outcome.next ((if_pos hq).trans heq), hreplied, rfl⟩

end Sys2Proof.Machine
end

section
/-! SUPPORT. Registers, records, the dump, routes and notifications: the settled statement. -/

namespace Sys2Proof.Machine

/-! ## Registers -/

theorem State.readAll'_one_ok {s : State} {a : W64} {n : Byte} {v : Nat} (h : s.regRead a.toNat n.toNat = .ok v) :
    s.readAll' [(a, n)] = some (true, leBytes 8 v) := by
  unfold State.readAll'
  rw [h]
  rfl

theorem State.readAll'_one_unmapped {s : State} {a : W64} {n : Byte} (h : s.regRead a.toNat n.toNat = .error .unmapped) :
    s.readAll' [(a, n)] = none := by
  unfold State.readAll'
  rw [h]

/-- The time counter as the window shows it. -/
theorem State.regRead_time (s : State) : s.regRead 0x3F0003000000 8 = .ok s.clk.now.toNat := by
  have hlt := s.clk.now.isLt
  have hlo : s.regWord 0x3000000 = some (bitsAt s.time 0 32) := rfl
  have hhi : s.regWord 0x3000004 = some (bitsAt s.time 32 32) := rfl
  have hsum : bitsAt s.time 0 32 + bitsAt s.time 32 32 * 2 ^ 32 = s.clk.now.toNat := by
    simp only [bitsAt, State.time]
    omega
  unfold State.regRead
  rw [if_neg (by decide)]
  show (match s.regWord 0x3000000, s.regWord 0x3000004 with
    | none, none => Except.error SourCause.unmapped
    | lo, hi => if s.blockDark 0x3000000 then .error .dark else .ok (lo.getD 0 + hi.getD 0 * 2 ^ 32)) = _
  rw [hlo, hhi]
  exact congrArg Except.ok hsum

/-- KCP_CFG as the window shows it. -/
theorem State.regRead_kcpCfg (s : State) :
    s.regRead 0x3F0007000008 4 = .ok (s.kcp.idleTimeout.toNat + 65536 * s.kcp.fwdTimeout.toNat) := by
  have hidle := s.kcp.idleTimeout.isLt
  have hfwd := s.kcp.fwdTimeout.isLt
  have hword : s.regWord 0x7000008 =
      some (bitsAt (packBits [(0, 8, s.kcp.idleTimeout.toNat), (16, 8, s.kcp.fwdTimeout.toNat)]) 0 32) := rfl
  have hpacked : bitsAt (packBits [(0, 8, s.kcp.idleTimeout.toNat), (16, 8, s.kcp.fwdTimeout.toNat)]) 0 32 + 0 * 2 ^ 32 =
      s.kcp.idleTimeout.toNat + 65536 * s.kcp.fwdTimeout.toNat := by
    simp only [bitsAt, packBits, List.foldl_cons, List.foldl_nil]
    omega
  unfold State.regRead
  rw [if_neg (by decide)]
  show (match s.regWord 0x7000008, none with
    | none, none => Except.error SourCause.unmapped
    | lo, hi => if s.blockDark 0x7000008 then .error .dark else .ok (lo.getD 0 + hi.getD 0 * 2 ^ 32)) = _
  rw [hword]
  exact congrArg Except.ok hpacked

/-- A write of KCP_CFG. -/
theorem State.regWrite_kcpCfg {s : State} (htodo : s.err.todo = []) (w : Writer) (x : Nat) :
    s.regWrite w 0x3F0007000008 4 x = .ok (false, s.writeKcpCfg (bitsAt x 0 32)) := by
  have hfinish : (s.writeKcpCfg (bitsAt x 0 32)).finish = s.writeKcpCfg (bitsAt x 0 32) := State.drainTodo_of_todo_nil 400 htodo
  unfold State.regWrite
  rw [State.regRead_kcpCfg]
  dsimp only
  rw [if_neg (by decide), if_neg (by decide), if_neg (by decide)]
  exact congrArg (fun u => Except.ok (false, u)) hfinish

/-! ## Records -/

/-- The records from a number on, where the ring has not wrapped and holds as many. -/
theorem State.errFrom_of_held {s : State} {first n : Nat} (hring : s.err.seqNext.toNat ≤ 4096) (hlast : first + n ≤ s.err.seqNext.toNat) :
    s.errFrom first n = (first, (List.range n).map fun i => Tbl.look ({} : ErrRec) s.err.ring ((first + i) % 4096)) := by
  have hstart : max first (s.err.seqNext.toNat - 4096) = first := by omega
  have hcount : min n (s.err.seqNext.toNat - first) = n := by omega
  unfold State.errFrom
  dsimp only
  rw [hstart, hcount]

/-! ## Routes -/

/-- The defined fields of a route entry are a mask of its word. -/
theorem routeFields_eq (v : W32) : routeFields v.toNat = v &&& 0x000F1FFF := by
  have hv := v.isLt
  have hsum : packBits [(0, 6, bitsAt v.toNat 0 6), (6, 6, bitsAt v.toNat 6 6), (12, 1, bitsAt v.toNat 12 1), (16, 4, bitsAt v.toNat 16 4)] =
      2 ^ 16 * (v.toNat / 2 ^ 16 % 2 ^ 4) + v.toNat % 2 ^ 13 := by
    simp only [packBits, bitsAt, List.foldl_cons, List.foldl_nil]
    omega
  have hmask : (0x000F1FFF : Nat) = 2 ^ 16 * (2 ^ 4 - 1) + (2 ^ 13 - 1) := rfl
  have hand : 2 ^ 16 * (v.toNat / 2 ^ 16 % 2 ^ 4) + v.toNat % 2 ^ 13 = v.toNat &&& 0x000F1FFF := by
    refine Nat.eq_of_testBit_eq fun j => ?_
    rw [Nat.testBit_and, hmask, Nat.testBit_two_pow_mul_add _ (by omega), Nat.testBit_two_pow_mul_add _ (by omega)]
    split
    · rw [Nat.testBit_mod_two_pow, Nat.testBit_two_pow_sub_one, Bool.and_comm]
    · rw [Nat.testBit_mod_two_pow, Nat.testBit_div_two_pow, Nat.testBit_two_pow_sub_one, Bool.and_comm, Nat.sub_add_cancel (by omega)]
  refine BitVec.eq_of_toNat_eq ?_
  rw [routeFields, routeWord, hsum, hand, BitVec.toNat_ofNat, BitVec.toNat_and, Nat.mod_eq_of_lt (Nat.lt_of_le_of_lt Nat.and_le_left hv)]
  rfl

/-- A route entry is written alone: what the check of its link changes is the mismatches and the ring. -/
theorem State.writeRoute_eq (s : State) (d j v : Nat) : ∃ x e, s.writeRoute d j v =
    { s with lnk := { s.lnk with routes := Tbl.put 0 s.lnk.routes (16 * d + j) (routeFields v), mismatched := x }, err := e } := by
  unfold State.writeRoute State.checkRoute
  dsimp only
  split
  · exact ⟨_, _, rfl⟩
  · split
    · exact ⟨_, s.err, rfl⟩
    · exact ⟨s.lnk.mismatched, s.err, rfl⟩

/-! ## Notifications -/

theorem State.sealTo_subs (s : State) (k j : Nat) (m : List Byte) : ((s.sealTo k m).session j).subs = (s.session j).subs := by
  have hopen (f : Session → Session) (hf : ∀ n, (f n).subs = n.subs) : ((s.onSession k f).session j).subs = (s.session j).subs := by
    rw [State.onSession_session]
    split
    · rename_i e; rw [hf, e]
    · rfl
  unfold State.sealTo State.hostSend
  dsimp only
  split
  · rfl
  · split
    · exact hopen _ fun _ => rfl
    · split <;> exact hopen (fun n => { n with txSeq := n.txSeq + 1 }) fun _ => rfl

theorem State.reply_session_subs (s : State) (k : Fin 8) (q : W32) (o : W16) (st : Nat) (p : List Byte) (m : Bool) :
    ((s.reply (.session k) q o st p m).session k.val).subs = (s.session k.val).subs := by
  refine (State.sealTo_subs _ _ _ _).trans ?_
  rw [State.onSession_session_same]

/-- A notification that goes out stays pending until it is acknowledged. -/
theorem State.sendNotification_pending (s : State) (n : Notification) :
    (s.sendNotification n).kcp.pending = s.kcp.pending ∧ (s.sendNotification n).kcp.notifySeq = s.kcp.notifySeq := by
  have hseal (a : State) (k : Nat) (m : List Byte) :
      ((a.sealTo k m).kcp.pending, (a.sealTo k m).kcp.notifySeq) = (a.kcp.pending, a.kcp.notifySeq) := by
    obtain ⟨x, b, heq⟩ := a.sealTo_eq k m
    rw [heq]
  have hsend (a : State) (i : Issuer) (d p m : Nat) (l : List Byte) :
      ((a.sendMsg i d p m l).kcp.pending, (a.sendMsg i d p m l).kcp.notifySeq) = (a.kcp.pending, a.kcp.notifySeq) := by
    rw [State.sendMsg_kcp]
  have hall : ((s.sendNotification n).kcp.pending, (s.sendNotification n).kcp.notifySeq) = (s.kcp.pending, s.kcp.notifySeq) := by
    unfold State.sendNotification
    refine (foldl_kept (π := fun t => (t.kcp.pending, t.kcp.notifySeq)) (fun a e => ?_) _ _).trans
      (foldl_kept (π := fun t => (t.kcp.pending, t.kcp.notifySeq)) (fun a k => ?_) _ s)
    · exact ite_kept (π := fun t => (t.kcp.pending, t.kcp.notifySeq)) (hsend a _ _ _ _ _) rfl
    · exact ite_kept (π := fun t => (t.kcp.pending, t.kcp.notifySeq)) (hseal a _ _) rfl
  exact ⟨congrArg Prod.fst hall, congrArg Prod.snd hall⟩

/-- Settles O29: each command by its answer and what it reads or writes. -/
theorem registersRecordsAndNotifications : Obligations.RegistersRecordsAndNotifications := by
  refine ⟨fun k req a n v s hread => ?read, State.regRead_time, fun k req a n s hread => ?unmapped, fun k req s => ?empty,
    fun k req x s hrec htodo => ?cfg, fun k req a x n s hlo hhi => ?seg, fun k req first n s hfit hring hlast => ?records,
    fun k req off len s hlen hfit hvalid howner => ?dump, fun k req off len s hlen howner => ?other, fun k req d j v s hd hj => ?route,
    fun k req m s => ?subscribe, fun k req n s => ?ack, fun s => ?resend⟩
  case read =>
    obtain ⟨a', b, heq, hreplied, -⟩ := s.exists_reply k req 0x0020 stOK (leBytes 8 v) false
    have hexec : exec (.regRead (.session k) req [(a, n)]) s = .next (s.reply (.session k) req 0x0020 stOK (leBytes 8 v)) := by
      show execRegRead (.session k) req [(a, n)] s = _
      unfold execRegRead
      rw [if_neg (by simp), State.readAll'_one_ok hread]
      rfl
    exact ⟨_, hexec.trans (congrArg Host.Outcome.next heq), rfl, hreplied⟩
  case unmapped =>
    obtain ⟨a', b, heq, hreplied, -⟩ := s.exists_reply k req 0x0020 stRange [] false
    have hexec : exec (.regRead (.session k) req [(a, n)]) s = .next (s.reply (.session k) req 0x0020 stRange []) := by
      show execRegRead (.session k) req [(a, n)] s = _
      unfold execRegRead
      rw [if_neg (by simp), State.readAll'_one_unmapped hread]
    exact ⟨_, hexec.trans (congrArg Host.Outcome.next heq), rfl, hreplied⟩
  case empty =>
    obtain ⟨a, b, heq, hreplied, -⟩ := s.exists_reply k req 0x0020 stBadMessage [] false
    exact ⟨_, congrArg Host.Outcome.next heq, rfl, hreplied⟩
  case cfg =>
    have hwrite := State.regWrite_kcpCfg htodo (.kcp k) x.toNat
    have hread := (s.writeKcpCfg (bitsAt x.toNat 0 32)).regRead_kcpCfg
    have hidle : (s.writeKcpCfg (bitsAt x.toNat 0 32)).kcp.idleTimeout.toNat = max 10 (x.toNat % 256) := by
      show (BitVec.ofNat 8 _).toNat = _
      simp only [clampNat, bitsAt, BitVec.toNat_ofNat]
      omega
    have hfwd : (s.writeKcpCfg (bitsAt x.toNat 0 32)).kcp.fwdTimeout.toNat = min 120 (max 1 (x.toNat / 65536 % 256)) := by
      show (BitVec.ofNat 8 _).toNat = _
      simp only [clampNat, bitsAt, BitVec.toNat_ofNat]
      omega
    have hkept : s.writeKcpCfg (bitsAt x.toNat 0 32) = { s with kcp := (s.writeKcpCfg (bitsAt x.toNat 0 32)).kcp } := rfl
    have hexec : exec (.regWrite (.session k) req 0x3F0007000008 4 x) s =
        .next ((s.writeKcpCfg (bitsAt x.toNat 0 32)).reply (.session k) req 0x0021 stOK
          (leBytes 8 ((s.writeKcpCfg (bitsAt x.toNat 0 32)).kcp.idleTimeout.toNat +
            65536 * (s.writeKcpCfg (bitsAt x.toNat 0 32)).kcp.fwdTimeout.toNat))) := by
      show Host.Outcome.next (s.kcpWrite (.session k) req 0x3F0007000008 4 x.toNat) = _
      unfold State.kcpWrite
      rw [if_neg (by rw [hrec]; decide)]
      dsimp only [KcpSrc.writer]
      rw [hwrite]
      dsimp only
      rw [hread]
      rfl
    generalize s.writeKcpCfg (bitsAt x.toNat 0 32) = u at hread hidle hfwd hkept hexec
    obtain ⟨a, b, heq, hreplied, -⟩ := u.exists_reply k req 0x0021 stOK
      (leBytes 8 (u.kcp.idleTimeout.toNat + 65536 * u.kcp.fwdTimeout.toNat)) false
    refine ⟨_, _, hexec.trans (congrArg Host.Outcome.next heq), ?_, hidle, hfwd, hreplied, ?_⟩
    · rw [hkept]
    · have hi := u.kcp.idleTimeout.isLt
      have hf := u.kcp.fwdTimeout.isLt
      rw [leNat_leBytes]
      show _ = u.kcp.idleTimeout.toNat + 65536 * u.kcp.fwdTimeout.toNat
      omega
  case seg =>
    have hin : inSeg (a.toNat - windowBase) = true := by
      have hbase : windowBase = 0x3F0000000000 := rfl
      refine decide_eq_true ?_
      omega
    obtain ⟨a', b, heq, hreplied, -⟩ := s.exists_reply k req 0x0021 stRange [] false
    exact ⟨_, congrArg Host.Outcome.next ((if_pos (.inl hin)).trans heq), rfl, hreplied⟩
  case records =>
    have hfrom := s.errFrom_of_held (first := first.toNat) (n := n.toNat) (by omega) hlast
    have hlen : ((List.range n.toNat).map fun i => Tbl.look ({} : ErrRec) s.err.ring ((first.toNat + i) % 4096)).length = n.toNat := by
      rw [List.length_map, List.length_range]
    have hroom : min n.toNat (((s.session k.val).recordMax.toNat - 64) / 64) = n.toNat := by omega
    have hexec : exec (.errRead (.session k) req first n) s = .next (s.reply (.session k) req 0x0022 stOK
        (beBytes 8 (first.toNat + n.toNat) ++ beBytes 4 s.err.overflowCnt.toNat ++ beBytes 4 n.toNat ++
          (List.range n.toNat).flatMap fun i => (Tbl.look ({} : ErrRec) s.err.ring ((first.toNat + i) % 4096)).bytes)) := by
      show execErrRead (.session k) req first n s = _
      unfold execErrRead
      dsimp only [State.recordMaxOf]
      rw [hroom, hfrom]
      dsimp only
      rw [hlen, List.flatMap_map, decide_eq_false (show ¬ ((s.session k.val).recordMax.toNat - 64) / 64 < n.toNat by omega)]
      rfl
    obtain ⟨a, b, heq, hreplied, -⟩ := s.exists_reply k req 0x0022 stOK
      (beBytes 8 (first.toNat + n.toNat) ++ beBytes 4 s.err.overflowCnt.toNat ++ beBytes 4 n.toNat ++
        (List.range n.toNat).flatMap fun i => (Tbl.look ({} : ErrRec) s.err.ring ((first.toNat + i) % 4096)).bytes) false
    exact ⟨_, hexec.trans (congrArg Host.Outcome.next heq), rfl, hreplied⟩
  case dump =>
    have hheld : s.heldDump = s.err.dump.bytes := if_pos (by rw [hvalid, howner]; rfl)
    obtain ⟨a, b, heq, hreplied, -⟩ := s.exists_reply k req 0x0023 stOK
      (beBytes 4 s.err.dump.bytes.length ++ (s.err.dump.bytes.drop off.toNat).take len.toNat)
      (decide ((s.session k.val).recordMax.toNat - 52 < ((s.err.dump.bytes.drop off.toNat).take len.toNat).length))
    have hwhole : ((s.err.dump.bytes.drop off.toNat).take len.toNat).take ((s.session k.val).recordMax.toNat - 52) =
        (s.err.dump.bytes.drop off.toNat).take len.toNat :=
      List.take_of_length_le (by rw [List.length_take]; omega)
    have hexec : exec (.dumpRead (.session k) req off len) s = .next (s.reply (.session k) req 0x0023 stOK
        (beBytes 4 s.err.dump.bytes.length ++ (s.err.dump.bytes.drop off.toNat).take len.toNat)
        (decide ((s.session k.val).recordMax.toNat - 52 < ((s.err.dump.bytes.drop off.toNat).take len.toNat).length))) := by
      show execDumpRead (.session k) req off len s = _
      unfold execDumpRead
      rw [if_neg (by omega), hheld]
      dsimp only [State.recordMaxOf]
      rw [hwhole]
    exact ⟨_, hexec.trans (congrArg Host.Outcome.next heq), rfl, hreplied⟩
  case other =>
    have hheld : s.heldDump = [] := if_neg (by rw [howner]; simp)
    obtain ⟨a, b, heq, hreplied, -⟩ := s.exists_reply k req 0x0023 stOK [0, 0, 0, 0] false
    have hexec : exec (.dumpRead (.session k) req off len) s = .next (s.reply (.session k) req 0x0023 stOK [0, 0, 0, 0]) := by
      show execDumpRead (.session k) req off len s = _
      unfold execDumpRead
      rw [if_neg (by omega), hheld]
      dsimp only
      rw [List.drop_nil, List.take_nil, List.take_nil, List.length_nil, decide_eq_false (Nat.not_lt_zero _)]
      rfl
    exact ⟨_, hexec.trans (congrArg Host.Outcome.next heq), rfl, hreplied⟩
  case route =>
    obtain ⟨x, e, hroute⟩ := s.writeRoute_eq d.toNat j.toNat v.toNat
    rw [routeFields_eq] at hroute
    obtain ⟨a, b, heq, hreplied, -⟩ := (s.writeRoute d.toNat j.toNat v.toNat).exists_reply k req 0x0031 stOK [] false
    rw [hroute] at heq hreplied
    have hexec : exec (.routeWrite (.session k) req d j v) s =
        .next ((s.writeRoute d.toNat j.toNat v.toNat).reply (.session k) req 0x0031 stOK []) :=
      congrArg Host.Outcome.next (if_neg (by omega))
    rw [hroute] at hexec
    exact ⟨_, hexec.trans (congrArg Host.Outcome.next heq), hreplied, Tbl.look_put_same _ _ _ _, fun i hi => Tbl.look_put_ne _ _ _ _ _ hi,
      rfl, rfl⟩
  case subscribe =>
    have hsubs := (s.onSession k.val fun n => { n with subs := m.truncate 4 }).reply_session_subs k req 0x0040 stOK [] false
    obtain ⟨a, b, heq, hreplied, -⟩ := (s.onSession k.val fun n => { n with subs := m.truncate 4 }).exists_reply k req 0x0040 stOK [] false
    rw [heq] at hsubs
    refine ⟨_, congrArg Host.Outcome.next heq, rfl, hsubs.trans ?_, hreplied⟩
    rw [State.onSession_session_same]
  case ack =>
    obtain ⟨a, b, heq, hreplied, -⟩ := State.exists_reply
      { s with kcp := { s.kcp with pending := s.kcp.pending.filter fun x => x.seq != n } } k req 0x0041 stOK [] false
    refine ⟨_, congrArg Host.Outcome.next heq, rfl, fun x => ?_, hreplied⟩
    exact List.mem_filter.trans (and_congr_right fun _ => bne_iff_ne)
  case resend =>
    by_cases hmgmt : s.mc.mgmtReset = true
    · exact ⟨s, congrArg Host.Outcome.next (if_pos hmgmt), rfl, rfl, rfl, rfl, rfl, fun _ => rfl⟩
    · have hsent := foldl_kept (π := fun t => (t.err, t.vats, t.ctxs, t.fab.mem)) (f := State.sendNotification)
        (State.sendNotification_kept (π := fun t => (t.err, t.vats, t.ctxs, t.fab.mem)) ⟨⟨fun _ _ => rfl, fun _ _ => rfl, fun _ _ => rfl,
          fun _ _ => rfl, fun _ _ => rfl, fun _ _ => rfl⟩, fun _ _ => rfl, fun _ _ => rfl⟩) s.kcp.pending s
      have hpending := foldl_kept (π := fun t => t.kcp.pending) (f := State.sendNotification) (fun a x => (a.sendNotification_pending x).1)
        s.kcp.pending s
      have hnext := foldl_kept (π := fun t => t.kcp.notifySeq) (f := State.sendNotification) (fun a x => (a.sendNotification_pending x).2)
        s.kcp.pending s
      simp only [Prod.mk.injEq] at hsent
      obtain ⟨herr, hvats, hctxs, hmem⟩ := hsent
      exact ⟨_, congrArg Host.Outcome.next (if_neg hmgmt), hpending, hnext, herr, hvats, hctxs, State.byteAt_of_mem hmem⟩

end Sys2Proof.Machine
end

section
/-! SUPPORT. Sessions: the settled statement. -/

namespace Sys2Proof.Machine

theorem State.hostSend_of_up {s : State} (h : s.eth.mode = .up) (x : HostTx) :
    s.hostSend x = { s with eth := { s.eth with tx := s.eth.tx ++ [x] } } := if_pos h

theorem State.hostSend_eq (s : State) (x : HostTx) : s.hostSend x = { s with eth := (s.hostSend x).eth } := by
  unfold State.hostSend
  split <;> rfl

/-! ## HELLO_H -/

/-- A HELLO_H that is answered, counted within its second. -/
def State.helloCounted (s : State) : State :=
  { s with kcp := { s.kcp with helloSecond := s.time / 1000000000, helloCount := s.kcp.helloCount + 1 } }

/-- The answer to a HELLO_H with the free slot that it finds (R437). -/
def State.answerHello (s : State) (b : List Byte) : Option Nat → State
  | none => s.sendClose 0 3
  | some k => if helloSound b then s.helloD k b else s.authFails 0 1

/-- What a HELLO_H finds, by the first free slot. -/
theorem State.hello_of_slot {s : State} (hserves : s.mcServes = true) (hup : s.eth.mode = .up)
    (hsecond : s.kcp.helloSecond = s.time / 1000000000) (hcount : s.kcp.helloCount < 16) (b : List Byte) {slot : Option Nat}
    (hslot : allSlots.find? (fun j => !(s.session j).isOpen && !(s.session j).handshake) = slot) :
    s.hello b = s.helloCounted.answerHello b slot := by
  have hguard : ¬ ((!s.mcServes) = true ∨ s.eth.mode ≠ .up ∨ 16 ≤ s.kcp.helloCount) := by
    rw [hserves]
    simp [hup]
    omega
  subst hslot
  unfold State.hello State.helloCounted
  dsimp only
  rw [if_pos hsecond]
  exact if_neg hguard

/-- A handshake as HELLO_H opens it: what it keeps of the host and what it draws (R437). -/
def State.greeted (s : State) (b : List Byte) : Session :=
  let d := Config.ephemeral s.free % (p521N - 1) + 1
  let nonce := leBytes 32 (Config.nonce s.free).toNat
  let bare := p521Public d ++ nonce ++ s.mc.idKey
  let h1 := helloHash b (bare ++ List.replicate 132 0)
  { handshake := true, id := s.kcp.nextSession, recordMax := BitVec.ofNat 16 (beNat ((b.drop 165).take 2)), hostEph := b.take 133,
    hostNonce := (b.drop 133).take 32, hostKey := b.drop 167, devNonce := nonce, devScalar := d, h1 := BitVec.ofNat 512 (leNat h1),
    devSig := ecdsaSign s.mc.idScalar (Config.signSecret s.free % (p521N - 1) + 1) h1 }

theorem State.helloD_eq (s : State) (k : Nat) (b : List Byte) : ∃ r, s.helloD k b =
    (State.onSession { s with free := s.free + 1, kcp := { s.kcp with nextSession := s.kcp.nextSession + 1 } } k
      fun _ => s.greeted b).hostSend (.kcp r) := by
  unfold State.helloD
  exact ⟨_, rfl⟩

/-- A failed opening is counted and recorded, and its CLOSE goes out. -/
theorem State.authFails_facts (s : State) (id : W32) (step : Nat) : (s.authFails id step).kcp = { s.kcp with authFail := s.kcp.authFail + 1 } ∧
    ((s.authFails id step).recordAt s.err.seqNext).code = 0x0701 ∧
    ((s.authFails id step).recordAt s.err.seqNext).details = [BitVec.ofNat 64 step] ∧
    s.authFails id step = { s with kcp := (s.authFails id step).kcp, eth := (s.authFails id step).eth, err := (s.authFails id step).err } := by
  have hsent := s.hostSend_eq (.kcp (recordHeader 5 id 0 ++ [BitVec.ofNat 8 2]))
  unfold State.authFails State.sendClose
  rw [hsent]
  have hrec := State.note_recordAt { s with
    eth := (s.hostSend (.kcp (recordHeader 5 id 0 ++ [BitVec.ofNat 8 2]))).eth, kcp := { s.kcp with authFail := s.kcp.authFail + 1 } }
    0x0701 .info (unitMc s.mc.owner) [BitVec.ofNat 64 step] none
  exact ⟨rfl, congrArg ErrRec.code hrec, congrArg ErrRec.details hrec, rfl⟩

theorem State.authFails_session (s : State) (id : W32) (step j : Nat) : (s.authFails id step).session j = s.session j := by
  rw [State.session, (s.authFails_facts id step).1]
  rfl

/-! ## FINISH_H and the ends of sessions -/

theorem State.dropSession_eq (s : State) (k : Nat) : s.dropSession k = { s with kcp := { s.kcp with
    sessions := Tbl.upd {} s.kcp.sessions k fun _ => {}, forwards := s.kcp.forwards.filter fun f => f.slot != k } } := by
  simp only [State.dropSession, State.onSession]

theorem State.dropSession_session (s : State) (k j : Nat) : (s.dropSession k).session j = if j = k then {} else s.session j := by
  rw [State.dropSession_eq]
  exact s.onSession_session k j _

theorem State.dropSession_forwards (s : State) (k : Nat) : ∀ f ∈ (s.dropSession k).kcp.forwards, f.slot ≠ k := by
  intro f hf
  rw [State.dropSession_eq] at hf
  simpa using (List.mem_filter.mp hf).2

/-- A session as FINISH_H opens it, with the keys of R438. -/
def Session.opened (n : Session) (prk h1 : List Byte) : Session :=
  { n with isOpen := true, handshake := false, keyH2d := (kcpKeys prk h1 "kcp h2d").1, ivH2d := (kcpKeys prk h1 "kcp h2d").2,
           keyD2h := (kcpKeys prk h1 "kcp d2h").1, ivD2h := (kcpKeys prk h1 "kcp d2h").2, devScalar := 0 }

/-- Settles O30: each opening by the slot and what it draws, each end by what it forgets. -/
theorem sessions : Obligations.Sessions := by
  refine ⟨fun b k s hserves hup hsecond hcount hslot hsound => ?hello, fun b k s hserves hup hsecond hcount hslot hsound => ?bad,
    fun b s hserves hup hsecond hcount hopen => ?full, fun b s hsecond hcount => ?late, fun id sig z k s hslot hserves hsig hkey hz => ?opens,
    fun id sig k s hslot hserves hsig => ?forged, fun id r k s hslot => ?close, fun id r s hslot => ?unknown,
    fun k s hopen hup => ?idle, fun k s hopen => ?idleClosed⟩
  case hello =>
    have hhello := (State.hello_of_slot hserves hup hsecond hcount b hslot).trans (if_pos hsound)
    obtain ⟨r, heq⟩ := s.helloCounted.helloD_eq k b
    rw [State.hostSend_of_up (by exact hup)] at heq
    have hself := State.onSession_session_same { s.helloCounted with
      free := s.free + 1, kcp := { s.helloCounted.kcp with nextSession := s.kcp.nextSession + 1 } } k fun _ => s.helloCounted.greeted b
    have hother (j : Nat) (hj : j ≠ k) := (State.onSession_session { s.helloCounted with
      free := s.free + 1, kcp := { s.helloCounted.kcp with nextSession := s.kcp.nextSession + 1 } } k j fun _ =>
      s.helloCounted.greeted b).trans (if_neg hj)
    exact ⟨_, congrArg Host.Outcome.next (hhello.trans heq), (congrArg Session.handshake hself :), (congrArg Session.isOpen hself :),
      (congrArg Session.id hself :), (congrArg Session.hostEph hself :), (congrArg Session.hostKey hself :), hother, rfl, rfl⟩
  case bad =>
    have hhello := (State.hello_of_slot hserves hup hsecond hcount b hslot).trans (if_neg (by rw [hsound]; decide))
    obtain ⟨hkcp, hcode, -, heq⟩ := s.helloCounted.authFails_facts 0 1
    exact ⟨_, congrArg Host.Outcome.next hhello, (congrArg Kcp.sessions hkcp :), (congrArg Kcp.authFail hkcp :), hcode, heq⟩
  case full =>
    have hslot : allSlots.find? (fun j => !(s.session j).isOpen && !(s.session j).handshake) = none :=
      List.find?_eq_none.mpr fun k hk => by simp [hopen k (List.mem_range.mp hk)]
    have hhello := State.hello_of_slot hserves hup hsecond hcount b hslot
    have hsent := State.hostSend_of_up (s := s.helloCounted) hup (.kcp (recordHeader 5 0 0 ++ [3]))
    exact ⟨_, congrArg Host.Outcome.next (hhello.trans hsent), rfl, rfl⟩
  case late =>
    refine congrArg Host.Outcome.next ?_
    unfold State.hello
    dsimp only
    rw [if_pos hsecond]
    exact if_pos (.inr (.inr hcount))
  case opens =>
    have hin : (!s.fru.hostKeys.contains (digestOf (s.session k).hostKey)) = false := by simpa using hkey
    have hexec : exec (.finishH id sig) s = .next (s.onSession k fun n => n.opened
        (hkdfExtract ((s.session k).hostNonce ++ (s.session k).devNonce) z) (leBytes 64 (s.session k).h1.toNat)) := by
      show execFinishH id sig s = _
      unfold execFinishH State.finishHello
      rw [hslot]
      dsimp only
      rw [hserves, hsig, hin, hz]
      rfl
    have hself := s.onSession_session_same k fun n => n.opened (hkdfExtract ((s.session k).hostNonce ++ (s.session k).devNonce) z)
      (leBytes 64 (s.session k).h1.toNat)
    have hother (j : Nat) (hj : j ≠ k) := (s.onSession_session k j fun n => n.opened
      (hkdfExtract ((s.session k).hostNonce ++ (s.session k).devNonce) z) (leBytes 64 (s.session k).h1.toNat)).trans (if_neg hj)
    exact ⟨_, _, _, hexec, (congrArg Session.isOpen hself :), (congrArg Session.handshake hself :), rfl, rfl,
      (congrArg Session.keyH2d hself :), (congrArg Session.ivH2d hself :), (congrArg Session.keyD2h hself :),
      (congrArg Session.ivD2h hself :), hother, rfl⟩
  case forged =>
    have hexec : exec (.finishH id sig) s = .next ((s.onSession k fun _ => {}).authFails id 2) := by
      show execFinishH id sig s = _
      unfold execFinishH State.finishHello
      rw [hslot]
      dsimp only
      rw [hserves, hsig]
      rfl
    obtain ⟨hkcp, hcode, hdetails, -⟩ := (s.onSession k fun _ => {}).authFails_facts id 2
    have hsession := (State.authFails_session (s.onSession k fun _ => {}) id 2 k).trans (s.onSession_session_same k fun _ => {})
    have hcount (f : Session → Session) : (s.onSession k f).kcp.authFail + 1 = s.kcp.authFail + 1 := rfl
    exact ⟨_, hexec, hsession, (congrArg Kcp.authFail hkcp).trans (hcount _), hcode, hdetails⟩
  case close =>
    have hclose : exec (.close id r) s = .next (s.dropSession k) := by
      show execClose id r s = _
      unfold execClose
      rw [hslot]
    have hself := (s.dropSession_session k k).trans (if_pos rfl)
    have hother (j : Nat) (hj : j ≠ k) := (s.dropSession_session k j).trans (if_neg hj)
    refine ⟨_, hclose, hself, s.dropSession_forwards k, hother, ?_⟩
    rw [State.dropSession_eq]
  case unknown =>
    show execClose id r s = _
    unfold execClose
    rw [hslot]
  case idle =>
    have hclosed : s.closeSession k.val 1 = (s.hostSend (.kcp (recordHeader 5 (s.session k.val).id (s.session k.val).txSeq.toNat ++
        [BitVec.ofNat 8 1]))).onSession k.val fun _ => {} := if_pos (by rw [hopen]; rfl)
    have hself := ((s.closeSession k.val 1).dropSession_session k.val k.val).trans (if_pos rfl)
    refine ⟨_, congrArg Host.Outcome.next (if_pos hopen), hself, ?_, ?_⟩
    all_goals rw [State.dropSession_eq, hclosed, State.hostSend_of_up hup]
    all_goals rfl
  case idleClosed => exact congrArg Host.Outcome.next (if_neg (by rw [hopen]; decide))

end Sys2Proof.Machine
end

section
/-! SUPPORT. Records of sessions and forwarded requests: the settled statement. -/

namespace Sys2Proof.Machine

/-! ## Messages -/

theorem beNat_beBytes_four {x : Nat} (h : x < 2 ^ 32) : beNat (beBytes 4 x) = x := by
  simp only [beBytes, beNat, List.foldl_cons, List.foldl_nil, BitVec.toNat_ofNat]
  omega

/-- The message that an IDENTITY request to a package of the pod spells. -/
def identityRequest (target : Nat) (req : W32) : KcpMsg :=
  { op := 1, flags := 0, target := BitVec.ofNat 8 target, req := req, status := 0, length := 0, payload := [] }

theorem parseMessage_identity (target : Nat) (req : W32) :
    parseMessage (kcpMessage 0x0001 0 target req 0 []) = some (identityRequest target req) := by
  have hreq : beNat (beBytes 4 req.toNat) = req.toNat := beNat_beBytes_four req.isLt
  have hfield : beNat (((kcpMessage 0x0001 0 target req 0 []).drop 4).take 4) = req.toNat := by
    rw [← hreq]
    simp [kcpMessage, beBytes]
  have hlen : ¬ (kcpMessage 0x0001 0 target req 0 []).length < 16 := by simp [kcpMessage]
  unfold parseMessage
  dsimp only
  rw [if_neg hlen, hfield]
  have hbyte : BitVec.ofNat 8 (target % 256) = BitVec.ofNat 8 target := BitVec.eq_of_toNat_eq (by simp)
  simp [kcpMessage, beBytes, beNat, identityRequest, hbyte]

/-! ## Records of a session -/

section
variable {s : State} {r : List Byte} {i : Nat} (hserves : s.mcServes = true) (hup : s.eth.mode = .up) (hlen : 48 ≤ r.length)
  (hkind : r.take 2 = [4, 1]) (hslot : s.slotFor (BitVec.ofNat 32 (beNat ((r.drop 4).take 4))) Session.isOpen = some i)
  (hfit : r.length ≤ (s.session i).recordMax.toNat)
include hserves hup hlen hkind hslot hfit

/-- A record that its session's key does not open is counted. -/
theorem State.dataRecord_of_forged (hopen : gcmOpen (beBytes 32 (s.session i).keyH2d.toNat)
    (gcmNonce (s.session i).ivH2d (beNat ((r.drop 8).take 8))) (r.take 16) (r.drop 16) = none) :
    s.dataRecord r = { s with kcp := { s.kcp with tagFail := s.kcp.tagFail + 1 } } := by
  have hguard : ¬ ((!s.mcServes) = true ∨ s.eth.mode ≠ .up ∨ r.length < 48 ∨ r.take 2 ≠ [4, 1]) := by
    simp [hserves, hup, hkind]
    omega
  unfold State.dataRecord
  dsimp only
  rw [if_neg hguard, hslot]
  dsimp only
  rw [if_neg (by omega), hopen]
  rfl

/-- The first record that its session's key opens hands its message on. -/
theorem State.dataRecord_of_first {m : List Byte} (hopen : gcmOpen (beBytes 32 (s.session i).keyH2d.toNat)
    (gcmNonce (s.session i).ivH2d (beNat ((r.drop 8).take 8))) (r.take 16) (r.drop 16) = some m)
    (hseq : beNat ((r.drop 8).take 8) < 2 ^ 48) (hfirst : (s.session i).rxTop = none) :
    s.dataRecord r = (s.onSession i fun n => n.accept (beNat ((r.drop 8).take 8))).sessionMessage (Fin.ofNat 8 i) m := by
  have hguard : ¬ ((!s.mcServes) = true ∨ s.eth.mode ≠ .up ∨ r.length < 48 ∨ r.take 2 ≠ [4, 1]) := by
    simp [hserves, hup, hkind]
    omega
  have haccepts : (s.session i).accepts (beNat ((r.drop 8).take 8)) = true := by
    unfold Session.accepts
    rw [hfirst]
  unfold State.dataRecord
  dsimp only
  rw [if_neg hguard, hslot]
  dsimp only
  rw [if_neg (by omega), hopen]
  dsimp only
  rw [if_neg (by omega), haccepts, if_neg (by decide)]

end

theorem State.slotFor_lt {s : State} {id : W32} {f : Session → Bool} {i : Nat} (h : s.slotFor id f = some i) : i < 8 :=
  List.mem_range.mp (List.mem_of_find?_eq_some h)

/-- What sealing a record leaves of a reading of a session that neither its end nor its count enters. -/
theorem State.sealTo_session_kept {α : Type} {g : Session → α} (hopen : ∀ n b, g { n with isOpen := b } = g n)
    (htx : ∀ n x, g { n with txSeq := x } = g n) (s : State) (k j : Nat) (m : List Byte) : g ((s.sealTo k m).session j) = g (s.session j) := by
  have hkept (f : Session → Session) (hf : ∀ n, g (f n) = g n) : g ((s.onSession k f).session j) = g (s.session j) := by
    rw [State.onSession_session]
    split
    · rename_i e; rw [hf, e]
    · rfl
  unfold State.sealTo State.hostSend
  dsimp only
  split
  · rfl
  · split
    · exact hkept _ fun n => hopen n false
    · split <;> exact hkept (fun n => { n with txSeq := n.txSeq + 1 }) fun n => htx n _

theorem State.reply_session_rxTop (s : State) (k : Fin 8) (q : W32) (o : W16) (st : Nat) (p : List Byte) (m : Bool) :
    ((s.reply (.session k) q o st p m).session k.val).rxTop = (s.session k.val).rxTop := by
  refine (State.sealTo_session_kept (g := Session.rxTop) (fun _ _ => rfl) (fun _ _ => rfl) _ _ _ _).trans ?_
  rw [State.onSession_session_same]

theorem Session.accept_of_first {n : Session} (h : n.rxTop = none) (seq : Nat) :
    (n.accept seq).rxTop = some (BitVec.ofNat 64 seq) ∧ (n.accept seq).replies = n.replies ∧ (n.accept seq).running = n.running := by
  unfold Session.accept
  rw [h]
  exact ⟨rfl, rfl, rfl⟩

/-- An IDENTITY request to this package is answered. -/
theorem State.sessionMessage_identity {s : State} {k : Fin 8} (hreplies : (s.session k.val).replies = [])
    (hrunning : (s.session k.val).running = []) (hrec : s.inRecovery = false) (req : W32) :
    s.sessionMessage k (kcpMessage 0x0001 0 s.fab.pkgId.toNat req 0 []) =
      (s.onSession k.val fun n => { n with running := n.running ++ [req] }).reply (.session k) req 0x0001 stOK s.identity := by
  have hpkg := s.fab.pkgId.isLt
  have hhere : bitsAt (s.fab.pkgId.toNat % 256) 0 6 = s.fab.pkgId.toNat := by
    rw [bitsAt]
    omega
  have hsound (most : Nat) : (identityRequest s.fab.pkgId.toNat req).sound most = true := by
    simp [KcpMsg.sound, identityRequest]
  unfold State.sessionMessage
  rw [parseMessage_identity]
  dsimp only
  rw [hreplies, hrunning]
  dsimp only [List.find?_nil]
  rw [if_neg (by simp), hsound, if_neg (by decide)]
  have hlocal : (!(identityRequest s.fab.pkgId.toNat req).target.getLsbD 6 &&
      bitsAt (identityRequest s.fab.pkgId.toNat req).target.toNat 0 6 != s.fab.pkgId.toNat) = false := by
    simp [identityRequest, hhere]
  rw [hlocal, if_neg (by decide)]
  unfold State.serve
  dsimp only
  rw [if_neg fun h => Bool.false_ne_true (hrec.symm.trans h.1)]
  rfl

/-- A request whose reply is kept has it sent again. -/
theorem State.sessionMessage_of_kept {s : State} {k : Fin 8} {m : List Byte} {p : KcpReply} (hreplies : (s.session k.val).replies = [p])
    (hm : m.length = 16) (hp : BitVec.ofNat 32 (beNat ((m.drop 4).take 4)) = p.req) :
    s.sessionMessage k m = State.sealTo { s with kcp := { s.kcp with dupCnt := s.kcp.dupCnt + 1 } } k.val p.message := by
  have hfind : ([p].find? fun r => r.req == p.req) = some p := by simp
  unfold State.sessionMessage parseMessage
  rw [if_neg (by omega)]
  dsimp only
  rw [hreplies, hp, hfind]
  rfl

/-! ## Forwarded requests -/

theorem State.forwardFails_of_none {s : State} {k : Nat} {req : W32} (h : ∀ f ∈ s.kcp.forwards, ¬(f.slot = k ∧ f.req = req)) (st : Nat) :
    s.forwardFails k req st = s := by
  have hfind : (s.kcp.forwards.find? fun f => f.slot == k && f.req == req) = none :=
    List.find?_eq_none.mpr fun f hf => by simpa using h f hf
  unfold State.forwardFails
  rw [hfind]

theorem State.forwardFails_of_one {s : State} {k : Fin 8} {f : Forward} (h : s.kcp.forwards = [f]) (hslot : f.slot = k.val) (st : Nat) :
    s.forwardFails k.val f.req st = State.reply { s with kcp := { s.kcp with forwards := [] } } (.session k) f.req f.op st [] := by
  have hfind : (s.kcp.forwards.find? fun x => x.slot == k.val && x.req == f.req) = some f := by rw [h]; simp [hslot]
  have hrest : (s.kcp.forwards.filter fun x => !(x.slot == k.val && x.req == f.req)) = [] := by rw [h]; simp [hslot]
  unfold State.forwardFails
  rw [hfind]
  dsimp only
  rw [hrest, Fin.ofNat_val_eq_self]

/-- What an answer to another head keeps: the newest reply kept for it is the answer. -/
theorem State.reply_forwarded_kcp (s : State) (p : Fin 64) (k : Fin 8) (q : W32) (o : W16) (st : Nat) (l : List Byte) :
    (s.reply (.forwarded p k) q o st l).kcp = { s.kcp with remote := Tbl.upd {} s.kcp.remote (8 * p.val + k.val) fun n =>
      { n with running := n.running.filter (· ≠ q), replies :=
        (⟨o, 1, q, BitVec.ofNat 16 st, l, s.fab.pkgId.zeroExtend 8⟩ :: n.replies).take 64 } } := by
  unfold State.reply
  exact State.sendMsg_kcp _ _ _ _ _ _

/-- A request of another head as it begins to run here (R449). -/
def State.heardFrom (s : State) (p : PkgId) (k : Fin 8) (m : List Byte) (q : KcpMsg) : State :=
  let s0 := s.takeMail p.val m
  { s0 with kcp := { s0.kcp with remote := Tbl.upd {} s0.kcp.remote (8 * p.val + k.val) fun x => { x with running := x.running ++ [q.req] } } }

/-- A message that is no sound request is answered BAD_MESSAGE to its head. -/
theorem State.forwardArrives_of_unsound {s : State} {p : PkgId} {k : Fin 8} {m : List Byte} {q : KcpMsg} (hserves : s.mcServes = true)
    (hparse : parseMessage m = some q) (hsound : q.sound 9120 = false)
    (hreplies : (Tbl.look {} s.kcp.remote (8 * p.val + k.val)).replies = [])
    (hrunning : (Tbl.look {} s.kcp.remote (8 * p.val + k.val)).running = []) :
    s.forwardArrives p k m = (s.heardFrom p k m q).reply (.forwarded p k) q.req q.op stBadMessage [] := by
  have hreplies' : (Tbl.look {} (s.takeMail p.val m).kcp.remote (8 * p.val + k.val)).replies = [] := hreplies
  have hrunning' : (Tbl.look {} (s.takeMail p.val m).kcp.remote (8 * p.val + k.val)).running = [] := hrunning
  unfold State.forwardArrives
  rw [hserves, hparse]
  dsimp only
  rw [if_neg (by decide), hreplies', hrunning', hsound]
  rfl

theorem State.heardFrom_replies (s : State) (p : PkgId) (k : Fin 8) (m : List Byte) (q : KcpMsg) :
    (Tbl.look {} (s.heardFrom p k m q).kcp.remote (8 * p.val + k.val)).replies = (Tbl.look {} s.kcp.remote (8 * p.val + k.val)).replies :=
  (congrArg RemoteSlot.replies (Tbl.look_upd_same {} s.kcp.remote (8 * p.val + k.val) fun x => { x with running := x.running ++ [q.req] }) :)

/-- The state in which the answer of another package is sealed into its session (R450). -/
def State.returned (s : State) (p k : Nat) (m : List Byte) (q : KcpMsg) : State :=
  let s0 := s.takeMail p m
  State.onSession { s0 with kcp := { s0.kcp with forwards := s0.kcp.forwards.filter fun f => !(f.slot == k && f.req == q.req) } } k fun n =>
    { n with running := n.running.filter (· ≠ q.req), replies := (⟨q.op, q.flags, q.req, q.status, q.payload, q.target⟩ :: n.replies).take 64 }

theorem State.returned_frame (s : State) (p k : Nat) (m : List Byte) (q : KcpMsg) : s.returned p k m q =
    { s with kcp := (s.returned p k m q).kcp, fab := { s.fab with mail := (s.returned p k m q).fab.mail } } := rfl

theorem State.forwardReturns_of_reply {s : State} {p k : Nat} {m : List Byte} {q : KcpMsg} (hmgmt : s.mc.mgmtReset = false)
    (hparse : parseMessage m = some q) (hflags : q.flags = 1)
    (hany : (s.kcp.forwards.any fun f => f.slot == k && f.req == q.req && f.target == p) = true) :
    s.forwardReturns p k m = (s.returned p k m q).sealTo k m := by
  have hany' : ((s.takeMail p m).kcp.forwards.any fun f => f.slot == k && f.req == q.req && f.target == p) = true := hany
  have hnote : q.flags.getLsbD 1 = false := by rw [hflags]; rfl
  have hreply : q.flags.getLsbD 0 = true := by rw [hflags]; rfl
  unfold State.forwardReturns
  rw [hmgmt, hparse]
  dsimp only
  rw [if_neg (by decide), hnote, if_neg (by decide), hreply, hany', if_pos (by decide)]
  rfl

/-- Settles O31: each record by what it opens to, each forwarded request by what waits for it. -/
theorem recordsAndForwarding : Obligations.RecordsAndForwarding := by
  refine ⟨fun r i s hserves hup hlen hkind htodo hslot hfit hopen => ?forged,
    fun r i seq req s hserves hup hlen hkind htodo hrec hslot hfit hroom hseq hopen hlt hfirst hreplies hrunning => ?identity,
    fun r i seq m req p s hserves hup hlen hkind htodo hslot hfit hseq hopen hm hreq hlt hfirst hreplies hp => ?again,
    fun pkg slot m s hserves htodo => ?silent, fun pkg slot m q s hserves htodo hparse hsound hreplies hrunning => ?bad,
    fun pkg slot m q s hmgmt hparse hflags hwaits => ?returns, fun k req s hnone => ?noForward, fun k f s hone hslot => ?timeout⟩
  case forged =>
    have hrecord := State.dataRecord_of_forged hserves hup hlen hkind hslot hfit hopen
    refine congrArg Host.Outcome.next ?_
    rw [hrecord]
    exact State.drainTodo_of_todo_nil 400 htodo
  case identity =>
    subst hseq
    obtain ⟨k, rfl⟩ : ∃ k : Fin 8, k.val = i := ⟨⟨i, State.slotFor_lt hslot⟩, rfl⟩
    have hrecord := State.dataRecord_of_first hserves hup hlen hkind hslot hfit hopen hlt hfirst
    obtain ⟨htop, hrep, hrun⟩ := Session.accept_of_first hfirst (beNat ((r.drop 8).take 8))
    have hself := s.onSession_session_same k.val fun n => n.accept (beNat ((r.drop 8).take 8))
    have hmessage := State.sessionMessage_identity (s := s.onSession k.val fun n => n.accept (beNat ((r.drop 8).take 8))) (k := k)
      (by rw [hself, hrep, hreplies]) (by rw [hself, hrun, hrunning]) hrec req
    rw [Fin.ofNat_val_eq_self] at hrecord
    have hself' := State.onSession_session_same (s.onSession k.val fun n => n.accept (beNat ((r.drop 8).take 8))) k.val fun n =>
      { n with running := n.running ++ [req] }
    have hrx := ((s.onSession k.val fun n => n.accept (beNat ((r.drop 8).take 8))).onSession k.val fun n =>
      { n with running := n.running ++ [req] }).reply_session_rxTop k req 0x0001 stOK s.identity false
    obtain ⟨a, b, heq, hreplied, -⟩ := ((s.onSession k.val fun n => n.accept (beNat ((r.drop 8).take 8))).onSession k.val fun n =>
      { n with running := n.running ++ [req] }).exists_reply k req 0x0001 stOK s.identity false
    have hall := hrecord.trans (hmessage.trans heq)
    have hfinish := (congrArg State.finish hall).trans (State.drainTodo_of_todo_nil 400 (by exact htodo))
    refine ⟨_, congrArg Host.Outcome.next hfinish, hreplied, ?_, rfl⟩
    rw [heq, hself', hself] at hrx
    exact hrx.trans htop
  case again =>
    subst hseq
    obtain ⟨k, rfl⟩ : ∃ k : Fin 8, k.val = i := ⟨⟨i, State.slotFor_lt hslot⟩, rfl⟩
    have hrecord := State.dataRecord_of_first hserves hup hlen hkind hslot hfit hopen hlt hfirst
    obtain ⟨htop, hrep, hrun⟩ := Session.accept_of_first hfirst (beNat ((r.drop 8).take 8))
    have hself := s.onSession_session_same k.val fun n => n.accept (beNat ((r.drop 8).take 8))
    rw [Fin.ofNat_val_eq_self] at hrecord
    have hmessage := State.sessionMessage_of_kept (s := s.onSession k.val fun n => n.accept (beNat ((r.drop 8).take 8))) (k := k)
      (by rw [hself, hrep, hreplies]) hm (hreq.trans hp.symm)
    generalize hu : (s.onSession k.val fun n => n.accept (beNat ((r.drop 8).take 8))) = u at hself hrecord hmessage
    have hsent := State.sealTo_replies { u with kcp := { u.kcp with dupCnt := u.kcp.dupCnt + 1 } } k.val k.val p.message
    obtain ⟨a, b, heq⟩ := State.sealTo_eq { u with kcp := { u.kcp with dupCnt := u.kcp.dupCnt + 1 } } k.val p.message
    rw [heq] at hsent hmessage
    have hfinish := (congrArg State.finish (hrecord.trans hmessage)).trans
      (State.drainTodo_of_todo_nil 400 (by subst hu; exact htodo))
    refine ⟨_, congrArg Host.Outcome.next hfinish, ?_, hsent.trans ?_, ?_⟩
    · subst hu
      rfl
    · exact (congrArg Session.replies hself).trans (hrep.trans hreplies)
    · subst hu
      rfl
  case silent =>
    have hnone : s.forwardArrives pkg slot m = s := if_pos (by rw [hserves]; rfl)
    refine congrArg Host.Outcome.next ?_
    rw [hnone]
    exact State.drainTodo_of_todo_nil 400 htodo
  case bad =>
    have harrives := State.forwardArrives_of_unsound hserves hparse hsound hreplies hrunning
    have hkcp := (s.heardFrom pkg slot m q).reply_forwarded_kcp pkg slot q.req q.op stBadMessage []
    have hview := State.reply_kept (π := fun t => (t.ctxs, t.vats, t.err, t.fab.mem)) ⟨⟨fun _ _ => rfl, fun _ _ => rfl, fun _ _ => rfl,
      fun _ _ => rfl, fun _ _ => rfl, fun _ _ => rfl⟩, fun _ _ => rfl, fun _ _ => rfl⟩ (s.heardFrom pkg slot m q) (.forwarded pkg slot)
      q.req q.op stBadMessage [] false
    generalize (s.heardFrom pkg slot m q).reply (.forwarded pkg slot) q.req q.op stBadMessage [] = t at harrives hkcp hview
    simp only [Prod.mk.injEq] at hview
    obtain ⟨hctxs, hvats, herr, hmem⟩ := hview
    have hfinish := (congrArg State.finish harrives).trans (State.drainTodo_of_todo_nil 400 (by rw [herr]; exact htodo))
    have hremote := congrArg (fun c : Kcp => (Tbl.look ({} : RemoteSlot) c.remote (8 * pkg.val + slot.val)).replies) hkcp
    dsimp only at hremote
    rw [Tbl.look_upd_same, State.heardFrom_replies, hreplies] at hremote
    exact ⟨t, _, congrArg Host.Outcome.next hfinish, hremote, rfl, rfl, (congrArg Kcp.sessions hkcp :), hctxs, hvats, herr,
      State.byteAt_of_mem hmem⟩
  case returns =>
    have hany : (s.kcp.forwards.any fun f => f.slot == slot.val && f.req == q.req && f.target == pkg.val) = true :=
      List.any_eq_true.mpr ⟨_, hwaits, by simp⟩
    have hreturns := State.forwardReturns_of_reply hmgmt hparse hflags hany
    have hreplies := (s.returned pkg.val slot.val m q).sealTo_replies slot.val slot.val m
    have hsession := State.onSession_session_same { s.takeMail pkg.val m with kcp := { (s.takeMail pkg.val m).kcp with
      forwards := (s.takeMail pkg.val m).kcp.forwards.filter fun f => !(f.slot == slot.val && f.req == q.req) } } slot.val fun n =>
      { n with running := n.running.filter (· ≠ q.req), replies := (⟨q.op, q.flags, q.req, q.status, q.payload, q.target⟩ :: n.replies).take 64 }
    have hforwards : (s.returned pkg.val slot.val m q).kcp.forwards =
        s.kcp.forwards.filter fun f => !(f.slot == slot.val && f.req == q.req) := rfl
    have hframe := s.returned_frame pkg.val slot.val m q
    change (s.returned pkg.val slot.val m q).session slot.val = _ at hsession
    generalize s.returned pkg.val slot.val m q = u at hreturns hreplies hsession hforwards hframe
    obtain ⟨a, b, heq⟩ := u.sealTo_eq slot.val m
    rw [heq, hsession] at hreplies
    refine ⟨_, congrArg Host.Outcome.next (hreturns.trans heq), ⟨_, _, hreplies, rfl, rfl, (by simp), rfl⟩,
      fun f hf hboth => ?_, ?_⟩
    · have hkept := (List.mem_filter.mp (hforwards ▸ hf)).2
      simp [hboth.1, hboth.2] at hkept
    · rw [hframe]
  case noForward => exact congrArg Host.Outcome.next (State.forwardFails_of_none hnone _)
  case timeout =>
    obtain ⟨a, b, heq, hreplied, -⟩ := State.exists_reply { s with kcp := { s.kcp with forwards := [] } } k f.req f.op stTimeout [] false
    exact ⟨_, congrArg Host.Outcome.next ((State.forwardFails_of_one hone hslot _).trans heq), hreplied, rfl, rfl⟩

end Sys2Proof.Machine
end

section
/-! SUPPORT. The sequencer's common parts: issuing, retiring, registers, sequencer memory and traps. -/

namespace Sys2Proof.Machine

/-! ## Planes and issuing -/

theorem State.activePlane_div (s : State) (v : Nat) : s.activePlane v / 2 = v := by
  have := (s.vat v).plane.toNat_lt
  rw [State.activePlane]
  omega

/-- An instruction that may issue runs on the active plane. -/
theorem State.seqDo_of_ready {s : State} {v p : Nat} {rs : List RegNo} (hp : p = s.activePlane v) (hready : s.seqReady v = true)
    (hfree : s.regsFree p rs = true) (f : State → Nat → State) : s.seqDo v rs f = (f s p).finish := by
  subst hp
  unfold State.seqDo
  dsimp only
  rw [hready, hfree]
  rfl

theorem State.seqDo_of_not_ready {s : State} {v : Nat} (hready : s.seqReady v = false) (rs : List RegNo) (f : State → Nat → State) :
    s.seqDo v rs f = s := by
  unfold State.seqDo
  dsimp only
  rw [hready]
  rfl

/-- The instruction of a plane that may issue leaves no work where it leaves none to do. -/
theorem State.seqDo_of_quiet {s : State} {v p : Nat} {rs : List RegNo} (hp : p = s.activePlane v) (hready : s.seqReady v = true)
    (hfree : s.regsFree p rs = true) {f : State → Nat → State} (htodo : (f s p).err.todo = []) : s.seqDo v rs f = f s p :=
  (State.seqDo_of_ready hp hready hfree f).trans (State.drainTodo_of_todo_nil 400 htodo)

/-- The context of a plane that issues runs. -/
theorem State.runs_of_seqReady {s : State} {v p c : Nat} (hp : p = s.activePlane v) (hready : s.seqReady v = true)
    (hctx : (s.plane p).ctx = some c) : (s.ctx c).state.runs = true := by
  subst hp
  have hany : (s.plane (s.activePlane v)).ctx.any (fun c => (s.ctx c).state.runs) = true := (Bool.and_eq_true_iff.mp hready).2
  rw [hctx] at hany
  exact hany

/-! ## Registers -/

theorem Plane.getX_setX (y : Plane) (rd r : RegNo) (x : W64) :
    (y.setX rd x).getX r = if r = rd then (if rd = 0 then 0 else x) else y.getX r := by
  unfold Plane.setX Plane.getX
  by_cases hrd : rd = 0
  · rw [if_pos hrd, if_pos hrd]
    by_cases hr : r = rd
    · rw [if_pos (hr.trans hrd), if_pos hr]
    · rw [if_neg hr]
  · rw [if_neg hrd, if_neg hrd]
    by_cases hr : r = rd
    · rw [if_neg (hr ▸ hrd), if_pos hr, hr]
      exact Tbl.look_put_same _ _ _ _
    · have hne : r.toNat ≠ rd.toNat := fun h => hr (BitVec.eq_of_toNat_eq h)
      rw [if_neg hr]
      exact congrArg (fun a => if r = 0 then 0 else a) (Tbl.look_put_ne _ _ _ _ _ hne)

/-- A plane whose instruction of some length has retired. -/
def Plane.retired (y : Plane) (len : Nat) : Plane := { y with pc := y.pc + BitVec.ofNat 64 len, minstret := bump y.minstret }

/-- A result written to a register touches the registers alone. -/
theorem Plane.setX_eq (y : Plane) (rd : RegNo) (x : W64) : y.setX rd x = { y with x := (y.setX rd x).x } := by
  unfold Plane.setX
  split <;> rfl

theorem State.retireSeq_plane (s : State) (p len q : Nat) :
    (s.retireSeq p len).plane q = if q = p then (s.plane p).retired len else s.plane q := s.onPlane_plane p q _

theorem State.retireWith_plane (s : State) (p len q : Nat) (rd : RegNo) (x : W64) :
    (s.retireWith p len rd x).plane q = if q = p then ((s.plane p).setX rd x).retired len else s.plane q := by
  unfold State.retireWith
  rw [State.retireSeq_plane, State.onPlane_plane_same, State.onPlane_plane]
  by_cases h : q = p
  · rw [if_pos h, if_pos h]
  · rw [if_neg h, if_neg h, if_neg h]

/-- What an instruction that retires with a result leaves. -/
theorem State.retireWith_facts (s : State) (p len : Nat) (rd : RegNo) (x : W64) :
    (s.retireWith p len rd x).err = s.err ∧ ((s.retireWith p len rd x).plane p).pc = (s.plane p).pc + BitVec.ofNat 64 len ∧
      ((s.retireWith p len rd x).plane p).minstret = (s.plane p).minstret + 1 ∧
      (s.retireWith p len rd x).x p rd = (if rd = 0 then 0 else x) ∧
      (∀ r, r ≠ rd → (s.retireWith p len rd x).x p r = s.x p r) ∧
      ((s.retireWith p len rd x).plane p).seqMem = (s.plane p).seqMem ∧ ((s.retireWith p len rd x).plane p).resv = (s.plane p).resv ∧
      (∀ q, q ≠ p → (s.retireWith p len rd x).plane q = s.plane q) := by
  have hplane := (s.retireWith_plane p len p rd x).trans (if_pos rfl)
  have hset := (s.plane p).setX_eq rd x
  have hx (r : RegNo) : (s.retireWith p len rd x).x p r = ((s.plane p).setX rd x).getX r := by rw [State.x, hplane]; rfl
  refine ⟨rfl, ?_, ?_, ?_, fun r hr => ?_, ?_, ?_, fun q hq => (s.retireWith_plane p len q rd x).trans (if_neg hq)⟩
  · rw [hplane, hset]; rfl
  · rw [hplane, hset]; rfl
  · rw [hx, Plane.getX_setX, if_pos rfl]
  · rw [hx, Plane.getX_setX, if_neg hr]
    rfl
  · rw [hplane, hset]; rfl
  · rw [hplane, hset]; rfl

/-! ## Sequencer memory -/

/-- Bytes put one after the other from an offset on. -/
theorem Tbl.look_foldl_put (l : List Byte) (m : Tbl Byte) (o n i : Nat) :
    Tbl.look 0 ((l.zipIdx n).foldl (fun m e => Tbl.put 0 m (o + e.2) e.1) m) i =
      if o + n ≤ i ∧ i < o + n + l.length then l.getD (i - (o + n)) 0 else Tbl.look 0 m i := by
  induction l generalizing m n with
  | nil => simp
  | cons b l ih =>
    rw [List.zipIdx_cons, List.foldl_cons, ih, Tbl.look_put]
    simp only [List.length_cons]
    by_cases hi : i = o + n
    · subst hi
      rw [if_neg (by omega), if_pos rfl, if_pos (by omega), Nat.sub_self]
      rfl
    · rw [if_neg hi]
      by_cases hin : o + n ≤ i ∧ i < o + n + (l.length + 1)
      · rw [if_pos hin, if_pos (by omega), show i - (o + n) = (i - (o + (n + 1))) + 1 by omega, List.getD_cons_succ]
      · rw [if_neg hin, if_neg (by omega)]

theorem Plane.look_memWrite (y : Plane) (a n x i : Nat) : Tbl.look 0 (y.memWrite a n x).seqMem i =
    if a % 2 ^ 18 ≤ i ∧ i < a % 2 ^ 18 + n then (leBytes n x).getD (i - a % 2 ^ 18) 0 else Tbl.look 0 y.seqMem i := by
  have h := Tbl.look_foldl_put (leBytes n x) y.seqMem (a % 2 ^ 18) 0 i
  rw [leBytes_length, Nat.add_zero] at h
  exact h

/-- Sequencer memory reads back what is written. -/
theorem Plane.memRead_memWrite (y : Plane) (a n x : Nat) : (y.memWrite a n x).memRead a n = x % 2 ^ (8 * n) := by
  have hbytes : (List.range n).map (fun i => Tbl.look 0 (y.memWrite a n x).seqMem (a % 2 ^ 18 + i)) = leBytes n x := by
    refine List.ext_getElem (by simp) fun i h1 h2 => ?_
    have hi : i < n := by simpa using h1
    rw [List.getElem_map, List.getElem_range, Plane.look_memWrite, if_pos ⟨Nat.le_add_right _ _, by omega⟩, Nat.add_sub_cancel_left,
      List.getD_eq_getElem _ _ h2]
  rw [Plane.memRead, hbytes, leNat_leBytes]

theorem Plane.memRead_of_seqMem {y z : Plane} (h : y.seqMem = z.seqMem) (a n : Nat) : y.memRead a n = z.memRead a n := by
  rw [Plane.memRead, h]
  rfl

theorem Plane.memRead_lt (y : Plane) (a n : Nat) : y.memRead a n < 2 ^ (8 * n) := by
  have h := leNat_lt ((List.range n).map fun i => Tbl.look 0 y.seqMem (a % 2 ^ 18 + i))
  rwa [List.length_map, List.length_range] at h

/-! ## Traps -/

/-- The record of a trap: the cause, the pc and the value for an execution fault, its own details for any other (R72). -/
def State.trapRecord (s : State) (p c cause : Nat) (x : W64) (code : W16) (details : List W64) : ErrRec :=
  { code := code, severity := .context, unit := unitVat (p / 2), ctxValid := true, ctx := BitVec.ofNat 6 c,
    details := if code = 0x0801 then [BitVec.ofNat 64 cause, (s.plane p).pc, x] else details, action := .faultStop }

/-- The vat's fault registers with a trap in them. -/
def Vat.trapped (y : Vat) (c cause : Nat) (x : W64) : Vat :=
  { y with fault := y.fault ||| (2 ||| (if cause = 26 then 1 else 0) ||| (if cause = 28 then 4 else 0)),
           causeCode := BitVec.ofNat 8 cause, causeCtx := BitVec.ofNat 6 c, tval := x }

def Ctx.faultedNow (y : Ctx) : Ctx := { y with state := .faulted, stopping := true, drained := false, ending := false }

/-- The state of a trap before its record: the vat's registers hold it and the context is FAULTED. -/
def State.trapSeen (s : State) (p c cause : Nat) (x : W64) : State :=
  let s1 := (s.onVat (p / 2) fun y => y.trapped c cause x).onCtx c Ctx.faultedNow
  { s1 with err := { s1.err with faultCnt := bump s1.err.faultCnt } }

/-- A record of a context that no handling in progress covers starts its own. -/
theorem State.record_ctx_start {s : State} (h : s.err.handlings = []) (code u : W16) (c : Nat) (d : List W64) (sc : Scope) :
    s.record code .context u (some c) d (some sc) =
      (s.announce { code := code, severity := .context, unit := u, ctxValid := true, ctx := BitVec.ofNat 6 c, details := d,
                    action := sc.action }).begin sc sc.todo s.err.seqNext := by
  unfold State.record
  rw [h]
  rfl

/-- A trap of a running context outside any handling writes its record and calls for the context's fault stop. -/
theorem State.trap_eq {s : State} {p c : Nat} (hctx : (s.plane p).ctx = some c) (hruns : (s.ctx c).state.runs = true)
    (hhandlings : s.err.handlings = []) (cause : Nat) (x : W64) (code : W16) (details : List W64) : s.trap p cause x code details =
      ((s.trapSeen p c cause x).announce (s.trapRecord p c cause x code details)).begin (.ctx c) (.faultStop c) s.err.seqNext := by
  unfold State.trap
  rw [hctx]
  dsimp only
  have hlive : ¬ ((s.ctx c).state = .free ∨ (s.ctx c).state = .faulted) := by
    rintro (h | h) <;> rw [h] at hruns <;> cases hruns
  rw [if_neg hlive]
  have hstate : ((s.onVat (p / 2) fun y => y.trapped c cause x).ctx c).state = (s.ctx c).state := rfl
  refine Eq.trans ?_ (State.record_ctx_start (s := s.trapSeen p c cause x) hhandlings code (unitVat (p / 2)) c
    (if code = 0x0801 then [BitVec.ofNat 64 cause, (s.plane p).pc, x] else details) (.ctx c))
  show State.ctxFault (s.onVat (p / 2) fun y => y.trapped c cause x) c code _ _ = _
  unfold State.ctxFault
  split
  · next h => exact absurd (.inl (hstate.symm.trans h)) hlive
  · next h => exact absurd (.inr (hstate.symm.trans h)) hlive
  · rfl

/-- A record of severity CONTEXT reads back from the ring whether or not its notification finds room. -/
theorem State.announce_ctx_recordAt {s : State} {r : ErrRec} (hr : r.ctxValid = true) (hsev : r.severity = .context) :
    (s.announce r).recordAt s.err.seqNext = { r with seq := s.err.seqNext, time := s.clk.now, pkg := s.fab.pkgId } := by
  have hhigh : ¬ r.severity.code < 2 := by rw [hsev]; decide
  have hunit : ¬ 3 ≤ r.severity.code := by rw [hsev]; decide
  unfold State.announce
  rw [if_neg hhigh]
  dsimp only
  rw [if_neg hunit, if_pos hr]
  refine (State.notify_recordAt_of_ne ?_ _ _).trans ?_
  · exact slot_ne_next s.err.seqNext
  · exact State.pushRecord_recordAt (s.onCtx r.ctx.toNat fun c => { c with lastSeq := s.err.seqNext, lastCode := r.code }) r

/-- What a trap leaves: the cause at the vat, the faulted context and the record, and the planes as they stand (R72). -/
structure Trapped (s w : State) (p c cause : Nat) (x : W64) : Prop where
  vats : w.vats = (s.onVat (p / 2) fun y => y.trapped c cause x).vats
  faulted : (w.ctx c).state = .faulted
  planes : w.planes = s.planes
  mem : w.fab.mem = s.fab.mem

theorem State.trap_recordAt {s : State} {p c : Nat} (hctx : (s.plane p).ctx = some c) (hruns : (s.ctx c).state.runs = true)
    (hhandlings : s.err.handlings = []) (cause : Nat) (x : W64) (code : W16) (details : List W64) :
    (s.trap p cause x code details).recordAt s.err.seqNext =
      { s.trapRecord p c cause x code details with seq := s.err.seqNext, time := s.clk.now, pkg := s.fab.pkgId } := by
  rw [State.trap_eq hctx hruns hhandlings]
  exact State.announce_ctx_recordAt (s := s.trapSeen p c cause x) (r := s.trapRecord p c cause x code details) rfl rfl

/-- What a trap of a running context leaves, whatever its record says. -/
theorem State.trap_trapped {s : State} {p c : Nat} (hctx : (s.plane p).ctx = some c) (hruns : (s.ctx c).state.runs = true)
    (hhandlings : s.err.handlings = []) (cause : Nat) (x : W64) (code : W16) (details : List W64) :
    Trapped s (s.trap p cause x code details) p c cause x := by
  rw [State.trap_eq hctx hruns hhandlings]
  generalize s.trapRecord p c cause x code details = r
  refine ⟨?_, ?_, ?_, ?_⟩
  · exact State.announce_kept (π := fun t => t.vats) ⟨blindToReport_vats, fun _ _ => rfl, fun _ _ _ _ => rfl⟩ _ r
  · refine (State.announce_kept (π := fun t => (t.ctx c).state) (blindToRecord_state c).toBlindToAnnounce _ r).trans ?_
    exact congrArg Ctx.state (State.onCtx_ctx_same (s.onVat (p / 2) fun y => y.trapped c cause x) c Ctx.faultedNow)
  · exact State.announce_kept (π := fun t => t.planes) ⟨blindToReport_planes, fun _ _ => rfl, fun _ _ _ _ => rfl⟩ _ r
  · exact State.announce_kept (π := fun t => t.fab.mem) ⟨blindToReport_mem, fun _ _ => rfl, fun _ _ _ _ => rfl⟩ _ r

namespace Trapped
variable {s w : State} {p c cause : Nat} {x : W64} (h : Trapped s w p c cause x)
include h

theorem vat : w.vat (p / 2) = (s.vat (p / 2)).trapped c cause x :=
  (State.vat_of_vats (s := s.onVat (p / 2) fun y => y.trapped c cause x) h.vats (p / 2)).trans (State.onVat_vat_same _ _ _)

theorem causeCode : (w.vat (p / 2)).causeCode = BitVec.ofNat 8 cause := congrArg Vat.causeCode h.vat

theorem causeCtx : (w.vat (p / 2)).causeCtx = BitVec.ofNat 6 c := congrArg Vat.causeCtx h.vat

theorem tval : (w.vat (p / 2)).tval = x := congrArg Vat.tval h.vat

end Trapped

end Sys2Proof.Machine
end

section
/-! SUPPORT. O32: the sequencer's loads and stores. -/

namespace Sys2Proof.Machine

/-! ## Sending an operation -/

theorem State.spray_ops (s : State) (d : Nat) (js : List Nat) : (s.spray d js).2.fab.ops = s.fab.ops := by
  unfold State.spray
  dsimp only
  split <;> rfl

/-- Cells on their way change no operation. -/
theorem State.launch_ops (s : State) (c : Cell) : (s.launch c).fab.ops = s.fab.ops := by
  have hspray := s.spray_ops c.dpkg (s.activeEntries c.dpkg)
  unfold State.launch
  dsimp only
  split
  · split <;> rfl
  · split
    · rfl
    · split
      · next h => rw [h] at hspray; exact hspray
      · next h =>
        rw [h] at hspray
        split
        · exact (foldl_kept (π := fun t => t.fab.ops) (f := State.fly) (fun _ _ => rfl) _ _).trans hspray
        · exact hspray

theorem State.launchAll_ops (s : State) (cs : List Cell) : (s.launchAll cs).fab.ops = s.fab.ops :=
  foldl_kept (π := fun t => t.fab.ops) State.launch_ops cs s

/-- What a sent operation leaves: the operation itself, and every reading that cells in flight do not enter. -/
structure Sent (s t : State) (port c : Nat) (i : Issuer) (fa expect : Nat) : Prop where
  ops : ∃ o, t.fab.ops = s.fab.ops ++ [o] ∧ o.ctx = c ∧ o.port = port ∧ o.addr.toNat = fa % 2 ^ 64 ∧ o.issuer = i ∧ o.expect = expect
  planes : t.planes = s.planes
  mem : t.fab.mem = s.fab.mem
  err : t.err = s.err

/-- An operation that has a way to its destination is sent. -/
theorem State.sendOp_sent {s : State} {port fa q : Nat} (hroute : s.routeOf port fa = .ok q) (c : Nat) (i : Issuer) (expect : Nat)
    (build : Nat → Nat → Nat → List Cell) :
    (s.sendOp port c i fa expect build).1 = none ∧ Sent s (s.sendOp port c i fa expect build).2 port c i fa expect := by
  unfold State.sendOp
  rw [hroute]
  refine ⟨rfl, ⟨?_, ?_, ?_, ?_⟩⟩
  · refine ⟨_, State.launchAll_ops _ _, rfl, rfl, ?_, rfl, rfl⟩
    exact BitVec.toNat_ofNat fa 64
  · exact State.launchAll_kept blindToReport_planes.toBlindToCells _ _
  · exact State.launchAll_kept blindToReport_mem.toBlindToCells _ _
  · exact State.launchAll_kept (π := fun t => t.err)
      ⟨fun _ _ => rfl, fun _ _ => rfl, fun _ _ => rfl, fun _ _ => rfl, fun _ _ => rfl, fun _ _ => rfl⟩ _ _

/-! ## Loads and stores -/

theorem State.regsFree_swap (s : State) (p : Nat) (a b : RegNo) : s.regsFree p [a, b] = s.regsFree p [b, a] := by
  simp only [State.regsFree, List.all_cons, List.all_nil, Bool.and_true]
  exact Bool.and_comm _ _

section
variable {s : State} {p : Nat} {rd rs1 rs2 : RegNo} {imm : BitVec 12} {z : BitVec 2} {u : Bool} {a : W64} (ha : a = s.x p rs1 + imm.signExtend 64)
include ha

theorem State.seqLoadOp_of_misaligned (hmis : a.toNat % 2 ^ z.toNat ≠ 0) : s.seqLoadOp p 4 rd rs1 imm z u = s.trap p 4 a := by
  subst ha
  exact if_pos hmis

theorem State.seqStoreOp_of_misaligned (hmis : a.toNat % 2 ^ z.toNat ≠ 0) : s.seqStoreOp p 4 rs1 rs2 imm z = s.trap p 6 a := by
  subst ha
  exact if_pos hmis

theorem State.seqLoadOp_of_seqMem (hal : a.toNat % 2 ^ z.toNat = 0) (hin : inSeqMem a = true) : s.seqLoadOp p 4 rd rs1 imm z u =
    s.retireWith p 4 rd (extendTo64 (2 ^ z.toNat) u ((s.plane p).memRead a.toNat (2 ^ z.toNat))) := by
  subst ha
  exact (if_neg (not_not.mpr hal)).trans (if_pos hin)

theorem State.seqStoreOp_of_seqMem (hal : a.toNat % 2 ^ z.toNat = 0) (hin : inSeqMem a = true) : s.seqStoreOp p 4 rs1 rs2 imm z =
    (s.onPlane p fun y => y.memWrite a.toNat (2 ^ z.toNat) (s.x p rs2).toNat).retireSeq p 4 := by
  subst ha
  exact (if_neg (not_not.mpr hal)).trans (if_pos hin)

/-- A load of a context address sends its request and marks its destination. -/
theorem State.seqLoadOp_of_sent {c fa q : Nat} (hal : a.toNat % 2 ^ z.toNat = 0) (hin : inSeqMem a = false)
    (hroom : s.seqLoads (p / 2) (p % 2 == 1) < 16) (hctx : (s.plane p).ctx = some c) (hfa : s.translate c a.toNat rightR = some fa)
    (hroute : s.routeOf (vatPort (p / 2)) (fa / 64 * 64) = .ok q) : ∃ t : State,
      Sent s t (vatPort (p / 2)) c (.seqLoad (p / 2) (p % 2 == 1) rd (fa % 64) (2 ^ z.toNat) u) (fa / 64 * 64) 1 ∧
      s.seqLoadOp p 4 rd rs1 imm z u = (t.setBusy p rd).retireSeq p 4 := by
  subst ha
  have hsent := State.sendOp_sent hroute c (.seqLoad (p / 2) (p % 2 == 1) rd (fa % 64) (2 ^ z.toNat) u) 1
    fun dp q t => ldCells s.fab.pkgId.toNat dp q (vatPort (p / 2)) 1 c t (fa / 64 * 64) 1
  refine ⟨_, hsent.2, ?_⟩
  unfold State.seqLoadOp
  dsimp only
  rw [if_neg (not_not.mpr hal), if_neg (by rw [hin]; decide), if_neg (by omega), hctx, Option.getD_some, hfa]
  dsimp only
  generalize State.sendOp _ _ _ _ _ _ _ = r at hsent
  obtain ⟨e, s1⟩ := r
  obtain ⟨rfl, -⟩ := hsent
  rfl

/-- A store to a context address sends its request. -/
theorem State.seqStoreOp_of_sent {c fa q : Nat} (hal : a.toNat % 2 ^ z.toNat = 0) (hin : inSeqMem a = false)
    (hroom : s.seqStores (p / 2) (p % 2 == 1) < 64) (hctx : (s.plane p).ctx = some c) (hfa : s.translate c a.toNat rightW = some fa)
    (hroute : s.routeOf (vatPort (p / 2)) (fa / 64 * 64) = .ok q) : ∃ t : State,
      Sent s t (vatPort (p / 2)) c (.seqStore (p / 2) (p % 2 == 1)) (fa / 64 * 64) 1 ∧
      s.seqStoreOp p 4 rs1 rs2 imm z = t.retireSeq p 4 := by
  subst ha
  have hsent := State.sendOp_sent hroute c (.seqStore (p / 2) (p % 2 == 1)) 1
    fun dp q t => stCells s.fab.pkgId.toNat dp q (vatPort (p / 2)) 1 c t (fa / 64 * 64)
      [((2 ^ 2 ^ z.toNat - 1) * 2 ^ (fa % 64),
        BitVec.ofNat 512 ((s.x p rs2).toNat % 2 ^ (8 * 2 ^ z.toNat) * 2 ^ (8 * (fa % 64))))]
  refine ⟨_, hsent.2, ?_⟩
  unfold State.seqStoreOp
  dsimp only
  rw [if_neg (not_not.mpr hal), if_neg (by rw [hin]; decide), if_neg (by omega), hctx, Option.getD_some, hfa]
  dsimp only
  generalize State.sendOp _ _ _ _ _ _ _ = r at hsent
  obtain ⟨e, s1⟩ := r
  obtain ⟨rfl, -⟩ := hsent
  rfl

end

theorem State.setBusy_facts (s : State) (p : Nat) (rd r : RegNo) : ((s.setBusy p rd).plane p).pc = (s.plane p).pc ∧
    (rd ≠ 0 → ((s.setBusy p rd).plane p).busy.getLsbD rd.toNat = true) ∧ ((s.setBusy p rd).plane p).getX r = (s.plane p).getX r ∧
    (s.setBusy p rd).fab = s.fab ∧ (s.setBusy p rd).err = s.err := by
  unfold State.setBusy
  split
  · next h => exact ⟨rfl, fun hne => absurd h hne, rfl, rfl, rfl⟩
  · rw [State.onPlane_plane_same]
    refine ⟨rfl, fun _ => ?_, rfl, rfl, rfl⟩
    rw [bvSet_getLsbD _ _ _ _ rd.isLt, if_pos rfl]

theorem Plane.retired_getX (y : Plane) (len : Nat) (r : RegNo) : (y.retired len).getX r = y.getX r := rfl

/-- Settles O32: each form is its case of the operation, and an instruction that may issue is that operation. -/
theorem sequencerLoadsAndStores : Obligations.SequencerLoadsAndStores := by
  unfold Obligations.SequencerLoadsAndStores
  refine ⟨?_, ?_, ?_, ?_, ?_⟩
  · intro v rd rs1 imm z u p a s hp ha hready hfree htodo hal hin
    obtain ⟨herr, hpc, hinst, hrd, hr, hmem, -, hplane⟩ := s.retireWith_facts p 4 rd
      (extendTo64 (2 ^ z.toNat) u ((s.plane p).memRead a.toNat (2 ^ z.toNat)))
    rw [← State.seqLoadOp_of_seqMem (rd := rd) ha hal hin] at herr hpc hinst hrd hr hmem hplane
    refine ⟨_, congrArg Host.Outcome.next (State.seqDo_of_quiet hp hready hfree ((congrArg Errors.todo herr).trans htodo)), ?_, hpc, hinst,
      hrd, hr, hmem, hplane⟩
    rw [State.seqLoadOp_of_seqMem ha hal hin]
    rfl
  · intro v rs1 rs2 imm z p a s hp ha hready hfree htodo hal hin
    have heq := State.seqStoreOp_of_seqMem (rs2 := rs2) ha hal hin
    have hplane (q : Nat) : ((s.onPlane p fun y => y.memWrite a.toNat (2 ^ z.toNat) (s.x p rs2).toNat).retireSeq p 4).plane q =
        if q = p then ((s.plane p).memWrite a.toNat (2 ^ z.toNat) (s.x p rs2).toNat).retired 4 else s.plane q := by
      rw [State.retireSeq_plane, State.onPlane_plane_same, State.onPlane_plane]
      by_cases hq : q = p
      · rw [if_pos hq, if_pos hq]
      · rw [if_neg hq, if_neg hq, if_neg hq]
    have hself := (hplane p).trans (if_pos rfl)
    refine ⟨_, congrArg Host.Outcome.next ((State.seqDo_of_quiet hp hready hfree (by rw [heq]; exact htodo)).trans heq), rfl, ?_, ?_,
      fun i hi => ?_, fun r => ?_, fun q hq => (hplane q).trans (if_neg hq)⟩
    · rw [hself]; rfl
    · rw [hself]
      exact (Plane.memRead_of_seqMem rfl _ _).trans (Plane.memRead_memWrite _ _ _ _)
    · rw [hself]
      exact (Plane.look_memWrite _ _ _ _ _).trans (if_neg hi)
    · rw [State.x, hself]; rfl
  · intro v rd rs1 imm z u p c fa q a s hp ha hready hfree htodo hal hin hroom hctx hfa hroute
    have hv : p / 2 = v.val := hp ▸ s.activePlane_div v.val
    rw [← hv] at hroom hroute ⊢
    obtain ⟨t, ⟨⟨o, hops, ho⟩, hplanes, hmem, herr⟩, heq⟩ := State.seqLoadOp_of_sent (rd := rd) (u := u) ha hal hin hroom hctx hfa hroute
    have hb (r : RegNo) := t.setBusy_facts p rd r
    have hself := ((t.setBusy p rd).retireSeq_plane p 4 p).trans (if_pos rfl)
    have hsp := State.plane_of_planes hplanes p
    have hquiet : (s.seqLoadOp p 4 rd rs1 imm z u).err.todo = [] := by
      rw [heq]
      exact (congrArg Errors.todo ((hb rd).2.2.2.2.trans herr)).trans htodo
    refine ⟨_, o, congrArg Host.Outcome.next ((State.seqDo_of_quiet hp hready hfree hquiet).trans heq), ?_, ho.1, ho.2.1, ho.2.2.1,
      ho.2.2.2.1, ho.2.2.2.2, ?_, fun hne => ?_, fun r => ?_, fun b => ?_⟩
    · exact (congrArg Fabric.ops (hb rd).2.2.2.1).trans hops
    · rw [hself]
      exact congrArg (· + 4) ((hb rd).1.trans (congrArg Plane.pc hsp))
    · rw [hself]
      exact (hb rd).2.1 hne
    · rw [State.x, hself, Plane.retired_getX, (hb r).2.2.1, hsp]
      rfl
    · exact State.byteAt_of_mem ((congrArg Fabric.mem (hb rd).2.2.2.1).trans hmem) b
  · intro v rs1 rs2 imm z p c fa q a s hp ha hready hfree htodo hal hin hroom hctx hfa hroute
    have hv : p / 2 = v.val := hp ▸ s.activePlane_div v.val
    rw [← hv] at hroom hroute ⊢
    obtain ⟨t, ⟨⟨o, hops, ho⟩, hplanes, hmem, herr⟩, heq⟩ := State.seqStoreOp_of_sent (rs2 := rs2) ha hal hin hroom hctx hfa hroute
    have hself := (t.retireSeq_plane p 4 p).trans (if_pos rfl)
    have hsp := State.plane_of_planes hplanes p
    have hquiet : (s.seqStoreOp p 4 rs1 rs2 imm z).err.todo = [] := by
      rw [heq]
      exact (congrArg Errors.todo herr).trans htodo
    refine ⟨_, o, congrArg Host.Outcome.next ((State.seqDo_of_quiet hp hready hfree hquiet).trans heq), hops, ho.1, ho.2.2.1, ho.2.2.2.1, ?_,
      fun r => ?_, fun b => State.byteAt_of_mem hmem b⟩
    · rw [hself, hsp]; rfl
    · rw [State.x, hself, Plane.retired_getX, hsp]
      rfl
  · intro i cause v rd rs1 imm z u p c a s hp ha hready hfree hhandlings hmis hctx hi
    have hv : p / 2 = v.val := hp ▸ s.activePlane_div v.val
    have hruns := State.runs_of_seqReady hp hready hctx
    have htrap := State.trap_trapped hctx hruns hhandlings cause a 0x0801 []
    have hrec := State.trap_recordAt hctx hruns hhandlings cause a 0x0801 []
    have hexec : exec i s = .next (s.trap p cause a).finish ∧ cause < 256 := by
      rcases hi with ⟨rfl, rfl⟩ | ⟨rfl, rfl⟩
      · exact ⟨congrArg Host.Outcome.next ((State.seqDo_of_ready hp hready hfree _).trans
          (congrArg State.finish (State.seqLoadOp_of_misaligned ha hmis))), by decide⟩
      · exact ⟨congrArg Host.Outcome.next ((State.seqDo_of_ready hp hready ((s.regsFree_swap p rs1 rd).trans hfree) _).trans
          (congrArg State.finish (State.seqStoreOp_of_misaligned ha hmis))), by decide⟩
    rw [← hv]
    refine ⟨_, hexec.1, ?_, htrap.tval, ?_, htrap.faulted, htrap.planes, congrArg ErrRec.code hrec, congrArg ErrRec.details hrec,
      fun b => State.byteAt_of_mem htrap.mem b⟩
    · rw [htrap.causeCode, BitVec.toNat_ofNat]
      exact Nat.mod_eq_of_lt hexec.2
    · rw [htrap.causeCtx, BitVec.toNat_ofNat]

end Sys2Proof.Machine
end

section
/-! SUPPORT. O33: what a trap's notification sends. The FAULT notification of a trap goes to every subscribed session, and one that another
package holds is reached by a message, which is an outstanding operation of the controller until it is acknowledged. -/

namespace Sys2Proof.Machine

/-! ## Which work sends a message of the controller -/

/-- No operation of the controller is outstanding. -/
def State.unsent (s : State) : Prop := ∀ o ∈ s.fab.ops, o.issuer ≠ .controller

theorem State.unsent_of_ops {s t : State} (h : t.fab.ops = s.fab.ops) (hs : s.unsent) : t.unsent := by
  rw [State.unsent, h]
  exact hs

theorem State.unsent_of_filter {s t : State} {f : Op → Bool} (h : t.fab.ops = s.fab.ops.filter f) (hs : s.unsent) : t.unsent := by
  rw [State.unsent, h]
  exact fun o ho => hs o (List.mem_filter.mp ho).1

theorem State.voidOps_unsent (s : State) (p k : Nat) (f : Nat → Bool) (hs : s.unsent) : (s.voidOps p k f).unsent := by
  intro o ho
  obtain ⟨o', ho', rfl⟩ := List.mem_map.mp ho
  have hissuer := hs o' ho'
  split
  · split <;> exact hissuer
  · exact hissuer

theorem State.squashLadle_unsent (s : State) (p k : Nat) (hs : s.unsent) : (s.squashLadle p k).unsent := by
  unfold State.squashLadle
  dsimp only
  split
  · exact hs
  · exact State.voidOps_unsent s p k _ hs

theorem State.squashPlane_unsent (s : State) (p : Nat) (hs : s.unsent) : (s.squashPlane p).unsent :=
  foldl_invariant (fun a k h => State.squashLadle_unsent a p k h) _ hs

theorem State.onVat_ops (s : State) (v : Nat) (f : Vat → Vat) : (s.onVat v f).fab.ops = s.fab.ops := rfl
theorem State.onPlane_ops (s : State) (p : Nat) (f : Plane → Plane) : (s.onPlane p f).fab.ops = s.fab.ops := rfl
theorem State.onTile_ops (s : State) (v t : Nat) (f : Tile → Tile) : (s.onTile v t f).fab.ops = s.fab.ops := rfl
theorem State.onEngine_ops (s : State) (e : Nat) (f : Engine → Engine) : (s.onEngine e f).fab.ops = s.fab.ops := rfl
theorem State.onCtx_ops (s : State) (c : Nat) (f : Ctx → Ctx) : (s.onCtx c f).fab.ops = s.fab.ops := rfl

theorem State.stopTiles_ops (s : State) (v : Nat) : (s.stopTiles v).fab.ops = s.fab.ops := by
  unfold State.stopTiles
  dsimp only
  rw [State.onVat_ops]
  exact foldl_kept (π := fun t => t.fab.ops) (fun a t => State.onTile_ops a v t _) _ s

theorem State.swapStart_unsent (s : State) (v : Nat) (hs : s.unsent) : (s.swapStart v).unsent := by
  refine State.unsent_of_ops ?_ (State.squashPlane_unsent s (s.activePlane v) hs)
  have hrest (a : State) (x : Tbl Tile) (f : Vat → Vat) : ({ a with tiles := x }.onVat v f).fab.ops = a.fab.ops := rfl
  unfold State.swapStart
  exact (hrest _ _ _).trans (State.stopTiles_ops (s.squashPlane (s.activePlane v)) v)

theorem State.swapAway_unsent (s : State) (c : Nat) (hs : s.unsent) : (s.swapAway c).unsent := by
  unfold State.swapAway State.swapIfEligible
  split
  · split
    · split
      · exact State.swapStart_unsent s _ hs
      · exact hs
    · exact hs
  · exact hs

theorem State.removeJobs_ops (s : State) (c : Nat) : (s.removeJobs c).fab.ops = s.fab.ops := by
  unfold State.removeJobs
  refine foldl_kept (π := fun t => t.fab.ops) (fun a e => ?_) _ s
  split
  · exact State.onEngine_ops a e _
  · rfl

theorem State.refreshRun_ops (s : State) (v : Nat) : (s.refreshRun v).fab.ops = s.fab.ops := State.onVat_ops s v _

theorem State.dropReads_unsent (s : State) (c : Nat) (hs : s.unsent) : (s.dropReads c).unsent :=
  State.unsent_of_filter (s := s) (f := fun o => !(o.ctx == c && o.reading)) rfl hs

theorem State.stopWork_unsent (s : State) (c : Nat) (hs : s.unsent) : (s.stopWork c).unsent := by
  have hreads := State.dropReads_unsent s c hs
  unfold State.stopWork
  dsimp only
  generalize s.dropReads c = a at hreads
  refine State.unsent_of_ops (State.refreshRun_ops _ _) (State.swapAway_unsent _ c (State.unsent_of_ops (State.removeJobs_ops _ c) ?_))
  split
  · have hplane := State.squashPlane_unsent a (a.ctxPlane c) hreads
    split
    · exact State.unsent_of_ops ((State.stopTiles_ops _ _).trans (State.onPlane_ops _ _ _)) hplane
    · exact State.unsent_of_ops (State.onPlane_ops _ _ _) hplane
  · exact hreads

theorem State.flexRefuse_ops (s : State) (r : FlexReq) : (s.flexRefuse r).fab.ops = s.fab.ops := rfl

theorem State.flexRefuseAll_ops (s : State) (f : FlexReq → Bool) : (s.flexRefuseAll f).fab.ops = s.fab.ops :=
  foldl_kept (π := fun t => t.fab.ops) State.flexRefuse_ops _ _

/-- What ABORT leaves of a reading that cells in flight and the context's mark do not enter. -/
theorem State.sendAbort_launched {α : Type} {π : State → α} (hlaunch : ∀ s x, π (State.launch s x) = π s)
    (habort : ∀ s x, π { s with err := { s.err with abortTx := x } } = π s)
    (hhold : ∀ s c b, π (State.onCtx s c fun x => { x with remoteHold := b }) = π s) (s : State) (c k : Nat) (q : W64) (code : W16) :
    π (s.sendAbort c k q code) = π s :=
  (habort (State.onCtx _ _ _) _).trans ((hhold _ c true).trans (foldl_kept (fun a _ => hlaunch a _) _ s))

theorem State.sendAbort_ops (s : State) (c k : Nat) (q : W64) (code : W16) : (s.sendAbort c k q code).fab.ops = s.fab.ops :=
  State.sendAbort_launched (π := fun t => t.fab.ops) State.launch_ops (fun _ _ => rfl) (fun _ _ _ => rfl) s c k q code

theorem State.sendReset_ops (s : State) (c : Nat) : (s.sendReset c).fab.ops = s.fab.ops :=
  ite_kept (π := fun t => t.fab.ops) rfl ((State.onCtx_ops _ c _).trans (State.sendAbort_ops s c _ _ _))

theorem State.sendGroupAbort_ops (s : State) (c : Nat) : (s.sendGroupAbort c).fab.ops = s.fab.ops :=
  ite_kept (π := fun t => t.fab.ops) rfl ((State.onCtx_ops _ c _).trans (State.sendAbort_ops s c _ _ _))

theorem State.flexReleaseCtx_ops (s : State) (c : Nat) : (s.flexReleaseCtx c).fab.ops = s.fab.ops :=
  State.flexReleaseCtx_kept (π := fun t => t.fab.ops) (fun _ _ => rfl) s c

theorem State.qpsError_ops (s : State) (c : Nat) : (s.qpsError c).fab.ops = s.fab.ops := rfl

theorem State.purge_ops (s : State) (p c : Nat) : (s.purge p c).fab.ops = s.fab.ops := rfl

theorem State.withhold_ops (s : State) (p : Nat) (t : W16) (d : Nat) : (s.withhold p t d).fab.ops = s.fab.ops := rfl

theorem State.dropOps_unsent (s : State) (f : Op → Bool) (hs : s.unsent) : (s.dropOps f).unsent :=
  State.unsent_of_filter (s := s) (f := fun o => !f o)
    (foldl_kept (π := fun t => t.fab.ops) (fun a (o : Op) => State.withhold_ops a o.port o.tag o.dpkg) _ _) hs

theorem State.faultStop_unsent (s : State) (c : Nat) (hs : s.unsent) : (s.faultStop c).unsent := by
  refine State.unsent_of_ops ?_ (State.stopWork_unsent s c hs)
  unfold State.faultStop
  rw [State.sendGroupAbort_ops, State.flexRefuseAll_ops, State.qpsError_ops, State.flexReleaseCtx_ops]

theorem State.ctxReset_unsent (s : State) (c : Nat) (hs : s.unsent) : (s.ctxReset c).unsent := by
  rw [State.ctxReset_eq]
  refine State.unsent_of_ops (State.onCtx_ops _ c _) ?_
  unfold State.ctxResetCells
  refine State.dropOps_unsent _ _ (State.unsent_of_ops ?_ (State.stopWork_unsent s c hs))
  have hreset : ((((s.stopWork c).flexReleaseCtx c).flexRefuseAll fun r => r.ctx == c).qpsError c |>.sendReset c).fab.ops =
      (s.stopWork c).fab.ops := by
    rw [State.sendReset_ops, State.qpsError_ops, State.flexRefuseAll_ops, State.flexReleaseCtx_ops]
  exact (State.purge_ops _ _ _).trans (ite_kept (π := fun t => t.fab.ops) ((State.sendGroupAbort_ops _ c).trans hreset) hreset)

/-! ## The mark that other work leaves -/

/-- A halt, a reset in progress, or nothing sent by the controller. -/
def State.marked (s : State) : Prop := s.err.halt = true ∨ s.err.resets ≠ [] ∨ s.unsent

theorem blindToStop_halt : BlindToStop fun t => t.err.halt :=
  ⟨⟨fun _ _ _ => rfl, fun _ _ => rfl, fun _ _ => rfl, fun _ _ => rfl, fun _ _ => rfl, fun _ _ _ => rfl, fun _ _ _ => rfl, fun _ _ _ => rfl⟩,
    fun _ _ => rfl, fun _ _ => rfl, fun _ _ => rfl, fun _ _ => rfl, fun _ _ => rfl, fun _ _ => rfl⟩

theorem blindToStop_resets : BlindToStop fun t => t.err.resets :=
  ⟨⟨fun _ _ _ => rfl, fun _ _ => rfl, fun _ _ => rfl, fun _ _ => rfl, fun _ _ => rfl, fun _ _ _ => rfl, fun _ _ _ => rfl, fun _ _ _ => rfl⟩,
    fun _ _ => rfl, fun _ _ => rfl, fun _ _ => rfl, fun _ _ => rfl, fun _ _ => rfl, fun _ _ => rfl⟩

theorem State.marked_of_err {s t : State} (hhalt : t.err.halt = s.err.halt) (hresets : t.err.resets = s.err.resets)
    (hsent : s.unsent → t.unsent) (h : s.marked) : t.marked := by
  rw [State.marked, hhalt, hresets]
  exact h.imp_right (Or.imp_right hsent)

theorem State.marked_of_startReset (s : State) (k : ResetKind) : (s.startReset k).marked := .inr (.inl (by simp [State.startReset]))

/-- Work either ends what the contexts have, or leaves a halt or a reset in progress. -/
theorem State.doTodo_marked (s : State) (t : Todo) (h : s.marked) : (s.doTodo t).marked := by
  cases t with
  | faultStop c =>
    have hhalt := State.faultStop_kept blindToStop_halt s c
    have hresets := State.faultStop_kept blindToStop_resets s c
    show (s.faultStop c).marked
    exact State.marked_of_err hhalt hresets (State.faultStop_unsent s c) h
  | ctxReset c =>
    have hhalt := State.ctxResetCells_kept blindToStop_halt s c
    have hresets := State.ctxResetCells_kept blindToStop_resets s c
    have hsent := State.ctxReset_unsent s c
    show (s.ctxReset c).marked
    rw [State.ctxReset_eq] at hsent ⊢
    exact State.marked_of_err hhalt hresets hsent h
  | vat v hang =>
    show (s.vatReset v hang).marked
    unfold State.vatReset
    split <;> exact State.marked_of_startReset _ _
  | die d =>
    show (s.dieReset d).marked
    unfold State.dieReset
    exact State.marked_of_startReset _ _
  | compute =>
    show s.computeReset.marked
    unfold State.computeReset
    exact State.marked_of_startReset _ _
  | mgmt =>
    show s.mgmtResetWork.marked
    unfold State.mgmtResetWork
    exact .inr (.inl (List.append_ne_nil_of_right_ne_nil _ (List.cons_ne_nil _ _)))
  | halt kind seq =>
    show (s.haltWork kind seq).marked
    unfold State.haltWork
    exact .inl rfl

theorem State.drainTodo_marked (n : Nat) (s : State) (h : s.marked) : (State.drainTodo n s).marked := by
  induction n generalizing s with
  | zero => exact h
  | succ n ih =>
    unfold State.drainTodo
    split
    · exact h
    · exact ih _ (State.doTodo_marked _ _ h)

/-! ## The counterexample -/

/-- Context 0 runs in vat 0, and a session that package 1 holds is subscribed to FAULT notifications. -/
def watchedRun : State :=
  { ({} : State) with ctxs := [(0, { state := .running })], vats := [(0, { run := .run })], planes := [(0, { ctx := some 0, issuing := true })],
                      kcp := { ({} : State).kcp with remote := [(8, { subs := 2 })] } }

/-- LR on a context address of the watched run sends its FAULT notification to package 1 as a message. -/
theorem watchedRun_sends : (watchedRun.trap 0 7 0).finish.err.halt = false ∧ (watchedRun.trap 0 7 0).finish.err.resets = [] ∧
    ((watchedRun.trap 0 7 0).finish.fab.ops.any fun o => o.issuer == .controller) = true := by
  decide +kernel

theorem watchedRun_unmarked : ¬ (watchedRun.trap 0 7 0).finish.marked := by
  obtain ⟨hhalt, hresets, hsent⟩ := watchedRun_sends
  rintro (h | h | h)
  · rw [hhalt] at h; cases h
  · exact h hresets
  · obtain ⟨o, ho, hissuer⟩ := List.any_eq_true.mp hsent
    exact h o ho (beq_iff_eq.mp hissuer)

/-- Refutes O33: the trap of LR on a context address adds the message of its FAULT notification to the outstanding operations, so they are
not the ones from before, where another package's session is subscribed. -/
theorem not_sequencerAtomics : ¬ Obligations.SequencerAtomics := by
  unfold Obligations.SequencerAtomics
  rintro ⟨-, -, -, -, htraps⟩
  have hready : watchedRun.seqReady 0 = true := by decide
  have hfree : watchedRun.regsFree 0 [0, 0, 0] = true := by decide
  have hexec : exec (.seqAmo 0 .lr false 0 0 0) watchedRun = .next (watchedRun.trap 0 7 0).finish :=
    congrArg Host.Outcome.next (State.seqDo_of_ready (v := 0) rfl hready hfree _)
  obtain ⟨w, hw, -, -, -, -, hops⟩ := htraps 0 .lr false 0 0 0 0 0 watchedRun rfl hready hfree rfl rfl rfl rfl (by decide)
  have hfinish : (watchedRun.trap 0 7 0).finish = w.finish := Host.Outcome.next.inj (hexec.symm.trans hw)
  refine watchedRun_unmarked ?_
  rw [hfinish]
  refine State.drainTodo_marked 400 w (.inr (.inr ?_))
  exact State.unsent_of_ops hops fun o ho => absurd ho List.not_mem_nil

end Sys2Proof.Machine
end

section
/-! SUPPORT. O34: tile groups. -/

namespace Sys2Proof.Machine

/-! ## Tiles -/

theorem State.onTile_tile_ne (s : State) (v : Nat) {t u : Nat} (h : u ≠ t) (f : Tile → Tile) : (s.onTile v t f).tile v u = s.tile v u :=
  (Tbl.look_upd _ _ _ _ _).trans (if_neg (by omega))

/-- A start command on its way to a tile. -/
def Tile.started (x : Tile) (h entry count cycle ma : Nat) : Tile := { x with startAt := some (h, entry, count, cycle), peakMa := ma }

/-- Sends the start command to one tile, with the current that its program may draw. -/
def State.startTile (v h entry count base : Nat) (gals : Bool) (s : State) (e : Nat × Nat) : State :=
  s.onTile v e.1 fun x => x.started h entry count (base + startDelay gals e.1) e.2

section
variable (v h entry count base : Nat) (gals : Bool) (l : List (Nat × Nat)) (s : State)

theorem State.foldl_startTile_eq : l.foldl (State.startTile v h entry count base gals) s =
    { s with tiles := (l.foldl (State.startTile v h entry count base gals) s).tiles } := by
  induction l generalizing s with
  | nil => rfl
  | cons e l ih => exact ih (State.startTile v h entry count base gals s e)

theorem State.foldl_startTile_startAt {x : Nat} (hx : x ∈ l.map Prod.fst) :
    ((l.foldl (State.startTile v h entry count base gals) s).tile v x).startAt = some (h, entry, count, base + startDelay gals x) := by
  obtain ⟨e, he, rfl⟩ := List.mem_map.mp hx
  refine foldl_establishes (Q := fun t => (t.tile v e.1).startAt = some (h, entry, count, base + startDelay gals e.1)) he
    (fun a => ?_) (fun a y ha => ?_) s
  · rw [State.startTile, State.onTile_tile_same]
    rfl
  · by_cases hy : e.1 = y.1
    · rw [State.startTile, hy, State.onTile_tile_same]
      rfl
    · rw [State.startTile, State.onTile_tile_ne _ _ hy]
      exact ha

theorem State.foldl_startTile_tile {x : Nat} (hx : x ∉ l.map Prod.fst) :
    (l.foldl (State.startTile v h entry count base gals) s).tile v x = s.tile v x :=
  foldl_kept_of_mem (π := fun t => t.tile v x) l
    (fun e he a => State.onTile_tile_ne a v (fun hxe => hx (List.mem_map.mpr ⟨e, he, hxe.symm⟩)) _) s

end

/-! ## TGRP -/

def State.setGroup (s : State) (p h : Nat) (g : Group) : State := s.onPlane p fun x => { x with groups := Tbl.put {} x.groups h g }

/-- TGRP of a rectangle under a handle. -/
def State.tgrp (s : State) (p : Nat) (rd : RegNo) (g : Group) (h : Nat) : State :=
  if g.rows = 0 ∨ g.cols = 0 ∨ 32 < g.row + g.rows ∨ 32 < g.col + g.cols then s.retireWith p 4 rd (-1)
  else if !s.groupIdle (p / 2) h then s.retireWith p 4 rd (-2)
  else (s.setGroup p h g).retireWith p 4 rd 0

/-- The rectangle that an operand of TGRP names. -/
def groupOf (a : Nat) : Group := { row := bitsAt a 0 6, col := bitsAt a 8 6, rows := bitsAt a 16 6, cols := bitsAt a 24 6 }

theorem State.seqTgrp_eq (s : State) (p : Nat) (rd rs1 rs2 : RegNo) : s.seqTgrp p 4 rd rs1 rs2 =
    s.tgrp p rd (groupOf (s.x p rs1).toNat) (bitsAt (s.x p rs2).toNat 0 4) := by
  unfold State.seqTgrp State.tgrp
  rfl

section
variable {s : State} {p h : Nat} {rd : RegNo} {g : Group}

theorem State.tgrp_of_bad (hbad : g.rows = 0 ∨ g.cols = 0 ∨ 32 < g.row + g.rows ∨ 32 < g.col + g.cols) :
    s.tgrp p rd g h = s.retireWith p 4 rd (-1) := if_pos hbad

theorem State.tgrp_of_busy (hok : ¬ (g.rows = 0 ∨ g.cols = 0 ∨ 32 < g.row + g.rows ∨ 32 < g.col + g.cols))
    (hbusy : s.groupIdle (p / 2) h = false) : s.tgrp p rd g h = s.retireWith p 4 rd (-2) :=
  (if_neg hok).trans (if_pos (by rw [hbusy]; rfl))

theorem State.tgrp_of_idle (hok : ¬ (g.rows = 0 ∨ g.cols = 0 ∨ 32 < g.row + g.rows ∨ 32 < g.col + g.cols))
    (hidle : s.groupIdle (p / 2) h = true) : s.tgrp p rd g h = (s.setGroup p h g).retireWith p 4 rd 0 :=
  (if_neg hok).trans (if_neg (by rw [hidle]; decide))

end

theorem State.retireWith_groups (s : State) (p : Nat) (rd : RegNo) (x : W64) :
    ((s.retireWith p 4 rd x).plane p).groups = (s.plane p).groups := by
  rw [State.retireWith_plane, if_pos rfl, Plane.setX_eq]
  rfl

theorem State.retireWith_group (s : State) (p k : Nat) (rd : RegNo) (x : W64) : (s.retireWith p 4 rd x).group p k = s.group p k :=
  congrArg (fun l : Tbl Group => Tbl.look ({} : Group) l k) (s.retireWith_groups p rd x)

theorem State.setGroup_group (s : State) (p h k : Nat) (g : Group) : (s.setGroup p h g).group p k = if k = h then g else s.group p k := by
  unfold State.group State.setGroup
  rw [State.onPlane_plane_same]
  exact Tbl.look_put _ _ _ _ _

section
variable (s : State) (p : Nat) (rd : RegNo) (g : Group)

theorem State.tgrp_err (h : Nat) : (s.tgrp p rd g h).err = s.err := by
  unfold State.tgrp
  split
  · rfl
  · split <;> rfl

theorem State.tgrp_frame (h : Nat) : s.tgrp p rd g h = { s with planes := (s.tgrp p rd g h).planes } := by
  unfold State.tgrp
  split
  · rfl
  · split <;> rfl

theorem State.tgrp_pc (h : Nat) : ((s.tgrp p rd g h).plane p).pc = (s.plane p).pc + 4 := by
  unfold State.tgrp
  split
  · exact (s.retireWith_facts p 4 rd (-1)).2.1
  · split
    · exact (s.retireWith_facts p 4 rd (-2)).2.1
    · refine ((s.setGroup p h g).retireWith_facts p 4 rd 0).2.1.trans ?_
      rw [State.setGroup, State.onPlane_plane_same]
      rfl

theorem State.tgrp_group_ne {h k : Nat} (hk : k ≠ h) : (s.tgrp p rd g h).group p k = s.group p k := by
  unfold State.tgrp
  split
  · exact s.retireWith_group p k rd _
  · split
    · exact s.retireWith_group p k rd _
    · rw [State.retireWith_group, State.setGroup_group, if_neg hk]

end

/-! ## TRUN -/

/-- The tiles of a group, each with the current that its program may draw. -/
def State.trunPeaks (s : State) (p h : Nat) : List (Nat × Nat) := (s.group p h).tiles.map fun t => (t, s.tilePeak p t)

/-- The current that a group's programs may draw together. -/
def State.trunNeed (s : State) (v h : Nat) : Nat := (s.trunPeaks (s.activePlane v) h).foldl (fun a e => a + e.2) 0

/-- The cycles for which the governor holds the group's start. -/
def State.trunHold (s : State) (v h : Nat) : Nat := rampHoldCycles (s.trunNeed v h) (s.vat v).ballast

/-- The ballast that is left once the group's tiles draw in its place. -/
def State.trunBallast (s : State) (v h : Nat) : Nat :=
  (if s.trunHold v h = 0 then (s.vat v).ballast else max (s.vat v).ballast (s.trunNeed v h)) - s.trunNeed v h

theorem State.trunPeaks_tiles (s : State) (p h : Nat) : (s.trunPeaks p h).map Prod.fst = (s.group p h).tiles := by
  rw [State.trunPeaks, List.map_map]
  exact List.map_id _

/-- The vat's ballast and ramp hold after the governor let a start pass. -/
def Vat.ramped (x : Vat) (ballast hold : Nat) : Vat := { x with ballast := ballast, rampHold := bump x.rampHold hold }

theorem bitsAt_zero_four (x : Nat) : bitsAt x 0 4 = x % 16 := by simp [bitsAt]

theorem State.seqTrun_of_undefined {s : State} {p : Nat} {rs1 : RegNo} (h : (s.group p ((s.x p rs1).toNat % 16)).defined = false)
    (rs2 : RegNo) : s.seqTrun p rs1 rs2 = s.trap p 29 (BitVec.ofNat 64 ((s.x p rs1).toNat % 16)) := by
  unfold State.seqTrun
  dsimp only
  rw [bitsAt_zero_four, h]
  rfl

theorem State.seqTwait_of_undefined {s : State} {p : Nat} {rs1 : RegNo} (h : (s.group p ((s.x p rs1).toNat % 16)).defined = false)
    (rd : RegNo) : s.seqTwait p rd rs1 = s.trap p 29 (BitVec.ofNat 64 ((s.x p rs1).toNat % 16)) := by
  unfold State.seqTwait
  dsimp only
  rw [bitsAt_zero_four, h]
  rfl

/-- TRUN waits with its operands. -/
theorem State.seqTrun_of_defined {s : State} {p : Nat} {rs1 : RegNo} (h : (s.group p ((s.x p rs1).toNat % 16)).defined = true) (rs2 : RegNo) :
    s.seqTrun p rs1 rs2 = s.block p (.trun ((s.x p rs1).toNat % 16) (bitsAt (s.x p rs1).toNat 8 8) ((s.x p rs2).truncate 32)) := by
  unfold State.seqTrun
  dsimp only
  rw [bitsAt_zero_four, h]
  rfl

section
variable {s : State} {v h entry : Nat} {count : W32} (hblocked : (s.plane (s.activePlane v)).blocked = some (.trun h entry count))
include hblocked

theorem State.trunRetire_of_busy (hidle : s.tilesIdle v (s.group (s.activePlane v) h).tiles = false) : s.trunRetire v = s := by
  unfold State.trunRetire
  dsimp only
  rw [hblocked]
  dsimp only
  rw [hidle]
  rfl

theorem State.trunRetire_of_idle (hidle : s.tilesIdle v (s.group (s.activePlane v) h).tiles = true) (hcount : count ≠ 0) :
    s.trunRetire v = ((((s.trunPeaks (s.activePlane v) h).foldl
      (State.startTile v h entry count.toNat (s.tileClock v + s.trunHold v h) (s.plane (s.activePlane v)).gals)
      ((s.unblock (s.activePlane v)).retireSeq (s.activePlane v) 4)).onVat v
        fun x => x.ramped (s.trunBallast v h) (s.trunHold v h)).onPlane (s.activePlane v)
        fun x => { x with newFlags := bvSet x.newFlags h false }) := by
  unfold State.trunRetire
  dsimp only
  rw [hblocked]
  dsimp only
  rw [hidle, if_neg (by decide), if_neg hcount]
  rfl

end

theorem State.trunRetire_of_none {s : State} {v h entry : Nat} (hblocked : (s.plane (s.activePlane v)).blocked = some (.trun h entry 0))
    (hidle : s.tilesIdle v (s.group (s.activePlane v) h).tiles = true) :
    s.trunRetire v = (s.unblock (s.activePlane v)).retireSeq (s.activePlane v) 4 := by
  unfold State.trunRetire
  dsimp only
  rw [hblocked]
  dsimp only
  rw [hidle]
  rfl

/-- Work that rewrites planes and tiles, then a vat and a plane, rewrites nothing else. -/
theorem State.startedFrame {s a : State} (h : a = { s with planes := a.planes, tiles := a.tiles }) (v p : Nat) (f : Vat → Vat)
    (g : Plane → Plane) : (a.onVat v f).onPlane p g =
      { s with planes := ((a.onVat v f).onPlane p g).planes,
               tiles := ((a.onVat v f).onPlane p g).tiles,
               vats := ((a.onVat v f).onPlane p g).vats } := by
  rw [h]
  rfl

/-! ## TWAIT -/

theorem State.twaitDone_of_idle {s : State} {p h : Nat} (hidle : s.groupIdle (p / 2) h = true) (rd : RegNo) :
    s.twaitDone p h rd = (s.unblock p).retireWith p 4 rd (if (s.plane p).newFlags.getLsbD h then 1 else 0) := if_pos hidle

theorem State.twaitDone_of_busy {s : State} {p h : Nat} (hbusy : s.groupIdle (p / 2) h = false) (rd : RegNo) : s.twaitDone p h rd = s :=
  if_neg (by rw [hbusy]; decide)

theorem State.unblock_plane (s : State) (p : Nat) : (s.unblock p).plane p = { s.plane p with blocked := none } := s.onPlane_plane_same p _

theorem State.block_plane (s : State) (p : Nat) (b : Blocked) : (s.block p b).plane p = { s.plane p with blocked := some b } :=
  s.onPlane_plane_same p _

/-- What an instruction that waited leaves when it retires with its result. -/
theorem State.unblock_retireWith_facts (s : State) (p : Nat) (rd : RegNo) (x : W64) :
    (((s.unblock p).retireWith p 4 rd x).plane p).blocked = none ∧
      (((s.unblock p).retireWith p 4 rd x).plane p).pc = (s.plane p).pc + 4 ∧
      (rd ≠ 0 → ((s.unblock p).retireWith p 4 rd x).x p rd = x) := by
  obtain ⟨-, hpc, -, hrd, -⟩ := (s.unblock p).retireWith_facts p 4 rd x
  refine ⟨?_, ?_, fun h => hrd.trans (if_neg h)⟩
  · rw [State.retireWith_plane, if_pos rfl, Plane.setX_eq, State.unblock_plane]
    rfl
  · rw [hpc, State.unblock_plane]
    rfl

theorem State.retireWith_frame (s : State) (p : Nat) (rd : RegNo) (x : W64) :
    s.retireWith p 4 rd x = { s with planes := (s.retireWith p 4 rd x).planes } := rfl

theorem State.unblock_retireWith_frame (s : State) (p : Nat) (rd : RegNo) (x : W64) :
    (s.unblock p).retireWith p 4 rd x = { s with planes := ((s.unblock p).retireWith p 4 rd x).planes } :=
  ((s.unblock p).retireWith_frame p rd x).trans rfl

theorem State.block_unblock_retireWith_frame (s : State) (p : Nat) (b : Blocked) (rd : RegNo) (x : W64) :
    ((s.block p b).unblock p).retireWith p 4 rd x = { s with planes := (((s.block p b).unblock p).retireWith p 4 rd x).planes } :=
  ((s.block p b).unblock_retireWith_frame p rd x).trans rfl

/-! ## The instructions -/

/-- Settles O34: each instruction is its case of the operation. -/
theorem tileGroups : Obligations.TileGroups := by
  unfold Obligations.TileGroups
  refine ⟨?_, ?_, ?_, ?_, ?_, ?_, ?_, ?_, ?_⟩
  · intro v rd rs1 rs2 p h g s hp hready hfree htodo hh hg
    have hv : p / 2 = v.val := hp ▸ s.activePlane_div v.val
    have heq : s.seqTgrp p 4 rd rs1 rs2 = s.tgrp p rd g h := by
      rw [hg, hh, ← bitsAt_zero_four]
      exact s.seqTgrp_eq p rd rs1 rs2
    have hquiet : (s.seqTgrp p 4 rd rs1 rs2).err.todo = [] := by
      rw [heq]
      exact (congrArg Errors.todo (s.tgrp_err p rd g h)).trans htodo
    refine ⟨_, congrArg Host.Outcome.next ((State.seqDo_of_quiet hp hready hfree hquiet).trans heq), ?_, ?_, fun h1 h2 h3 h4 hidle => ?_,
      fun hbad => ?_, fun h1 h2 h3 h4 hbusy => ?_, fun k hk => ?_⟩
    · exact s.tgrp_frame p rd g h
    · exact s.tgrp_pc p rd g h
    · rw [State.tgrp_of_idle (by omega) (hv ▸ hidle)]
      obtain ⟨-, -, -, hrd, -⟩ := (s.setGroup p h g).retireWith_facts p 4 rd 0
      refine ⟨?_, fun hne => hrd.trans (if_neg hne)⟩
      rw [State.retireWith_group, State.setGroup_group, if_pos rfl]
    · rw [State.tgrp_of_bad hbad]
      obtain ⟨-, -, -, hrd, -⟩ := s.retireWith_facts p 4 rd (-1)
      exact ⟨s.retireWith_groups p rd _, fun hne => hrd.trans (if_neg hne)⟩
    · rw [State.tgrp_of_busy (by omega) (hv ▸ hbusy)]
      obtain ⟨-, -, -, hrd, -⟩ := s.retireWith_facts p 4 rd (-2)
      exact ⟨s.retireWith_groups p rd _, fun hne => hrd.trans (if_neg hne)⟩
    · exact s.tgrp_group_ne p rd g hk
  · intro v rs1 rs2 p s hp hready hfree htodo hdef
    have heq := State.seqTrun_of_defined hdef rs2
    exact congrArg Host.Outcome.next ((State.seqDo_of_quiet hp hready hfree (by rw [heq]; exact htodo)).trans heq)
  · intro v p h entry count s hp hblocked hidle hcount
    subst hp
    have heq := State.trunRetire_of_idle hblocked hidle hcount
    have hpeaks := s.trunPeaks_tiles (s.activePlane v) h
    generalize s.trunPeaks (s.activePlane v) h = peaks at heq hpeaks
    generalize hbase : s.tileClock v + s.trunHold v h = base at heq
    generalize s.trunBallast v h = ballast at heq
    generalize s.trunHold v h = hold at heq hbase
    have hall := State.foldl_startTile_eq v h entry count.toNat base (s.plane (s.activePlane v)).gals peaks
      ((s.unblock (s.activePlane v)).retireSeq (s.activePlane v) 4)
    have hstart (x : Nat) := State.foldl_startTile_startAt v h entry count.toNat base (s.plane (s.activePlane v)).gals peaks
      ((s.unblock (s.activePlane v)).retireSeq (s.activePlane v) 4) (x := x)
    have hother (x : Nat) := State.foldl_startTile_tile v h entry count.toNat base (s.plane (s.activePlane v)).gals peaks
      ((s.unblock (s.activePlane v)).retireSeq (s.activePlane v) 4) (x := x)
    rw [hpeaks] at hstart hother
    generalize peaks.foldl _ _ = a at heq hall hstart hother
    have hplane : a.plane (s.activePlane v) = { s.plane (s.activePlane v) with blocked := none }.retired 4 := by
      rw [hall, ← State.unblock_plane]
      exact (State.retireSeq_plane _ _ 4 _).trans (if_pos rfl)
    have hself := (a.onVat v fun x => x.ramped ballast hold).onPlane_plane_same (s.activePlane v)
      fun x => { x with newFlags := bvSet x.newFlags h false }
    refine ⟨_, base, congrArg Host.Outcome.next heq, by omega, ?_, ?_, hstart, hother, ?_⟩
    · rw [hself]
      exact congrArg Plane.blocked hplane
    · rw [hself]
      exact congrArg Plane.pc hplane
    · have hframe : a = { s with planes := a.planes, tiles := a.tiles } := by
        rw [hall]
        rfl
      exact State.startedFrame hframe v.val (s.activePlane v.val) _ _
  · intro v p h entry s hp hblocked hidle
    subst hp
    refine ⟨_, congrArg Host.Outcome.next (State.trunRetire_of_none hblocked hidle), rfl, ?_, ?_⟩
    · rw [State.retireSeq_plane, if_pos rfl, State.unblock_plane]; rfl
    · rw [State.retireSeq_plane, if_pos rfl, State.unblock_plane]; rfl
  · intro v p h entry count s hp hblocked hbusy
    subst hp
    exact congrArg Host.Outcome.next (State.trunRetire_of_busy hblocked hbusy)
  · intro v rd rs1 p h s hp hready hfree htodo hh hdef
    have hv : p / 2 = v.val := hp ▸ s.activePlane_div v.val
    have hb := s.block_plane p (.twait h rd)
    have heq : s.seqTwait p rd rs1 = (s.block p (.twait h rd)).twaitDone p h rd := by
      unfold State.seqTwait
      dsimp only
      rw [bitsAt_zero_four, ← hh, hdef]
      rfl
    by_cases hidle : s.groupIdle v.val h = true
    · have heq' := heq.trans (State.twaitDone_of_idle (s := s.block p (.twait h rd)) (hv.symm ▸ hidle) rd)
      obtain ⟨hnone, hpc, hrd⟩ := (s.block p (.twait h rd)).unblock_retireWith_facts p rd
        (if ((s.block p (.twait h rd)).plane p).newFlags.getLsbD h then 1 else 0)
      refine ⟨_, congrArg Host.Outcome.next ((State.seqDo_of_quiet hp hready hfree (by rw [heq']; exact htodo)).trans heq'),
        s.block_unblock_retireWith_frame p _ rd _, fun _ => ⟨hnone, ?_, fun hne => ?_⟩, fun hbusy => absurd hidle (by rw [hbusy]; decide)⟩
      · rw [hpc, hb]
      · rw [hrd hne, hb]
    · have hbusy : s.groupIdle v.val h = false := Bool.eq_false_iff.mpr hidle
      have heq' := heq.trans (State.twaitDone_of_busy (s := s.block p (.twait h rd)) (hv.symm ▸ hbusy) rd)
      refine ⟨_, congrArg Host.Outcome.next ((State.seqDo_of_quiet hp hready hfree (by rw [heq']; exact htodo)).trans heq'), rfl,
        fun h => absurd h hidle, fun _ => ⟨?_, ?_⟩⟩
      · rw [hb]
      · rw [hb]
  · intro v rd p h s hp hblocked hidle
    have hv : p / 2 = v.val := hp ▸ s.activePlane_div v.val
    obtain ⟨hnone, hpc, hrd⟩ := s.unblock_retireWith_facts p rd (if (s.plane p).newFlags.getLsbD h then 1 else 0)
    refine ⟨_, congrArg Host.Outcome.next (?_ : _ = (s.unblock p).retireWith p 4 rd (if (s.plane p).newFlags.getLsbD h then 1 else 0)),
      s.unblock_retireWith_frame p rd _, hnone, hpc, hrd⟩
    rw [← hp, hblocked]
    exact State.twaitDone_of_idle (hv.symm ▸ hidle) rd
  · intro v rd rs1 p s hp hready hfree htodo
    have hv : p / 2 = v.val := hp ▸ s.activePlane_div v.val
    have heq : s.seqTstat p 4 rd rs1 =
        s.retireWith p 4 rd (BitVec.ofNat 64 (s.tile v.val ((s.x p rs1).toNat % 1024)).status) := by
      unfold State.seqTstat
      rw [hv, show bitsAt (s.x p rs1).toNat 0 10 = (s.x p rs1).toNat % 1024 by simp [bitsAt]]
    obtain ⟨-, hpc, -, hrd, -⟩ := s.retireWith_facts p 4 rd (BitVec.ofNat 64 (s.tile v.val ((s.x p rs1).toNat % 1024)).status)
    exact ⟨_, congrArg Host.Outcome.next ((State.seqDo_of_quiet hp hready hfree (by rw [heq]; exact htodo)).trans heq),
      s.retireWith_frame p rd _, hpc, fun hne => hrd.trans (if_neg hne)⟩
  · intro i v rd rs1 rs2 p c s hp hready hfree hhandlings hctx hdef hi
    have hv : p / 2 = v.val := hp ▸ s.activePlane_div v.val
    obtain ⟨x, hexec⟩ : ∃ x, exec i s = .next (s.trap p 29 x).finish := by
      rcases hi with rfl | rfl
      · have hfree' : s.regsFree p [rs1, rs2] = true := ((Bool.and_eq_true _ _).mp hfree).2
        exact ⟨_, congrArg Host.Outcome.next ((State.seqDo_of_ready hp hready hfree' _).trans
          (congrArg State.finish (State.seqTrun_of_undefined hdef rs2)))⟩
      · have hfree' : s.regsFree p [rd, rs1] = true := by
          simp only [State.regsFree, List.all_cons, List.all_nil, Bool.and_eq_true] at hfree ⊢
          obtain ⟨hrd, hrs1, -⟩ := hfree
          exact ⟨hrd, hrs1, trivial⟩
        exact ⟨_, congrArg Host.Outcome.next ((State.seqDo_of_ready hp hready hfree' _).trans
          (congrArg State.finish (State.seqTwait_of_undefined hdef rd)))⟩
    have htrap := State.trap_trapped hctx (State.runs_of_seqReady hp hready hctx) hhandlings 29 x 0x0801 []
    exact ⟨_, hexec, hv ▸ htrap.causeCode, htrap.faulted, htrap.planes⟩

end Sys2Proof.Machine
end

section
/-! SUPPORT. O35: ladle control. -/

namespace Sys2Proof.Machine

/-! ## Ladles of a plane -/

theorem Plane.onLadle_ladle_same (y : Plane) (k : Nat) (f : Ladle → Ladle) : (y.onLadle k f).ladle k = f (y.ladle k) :=
  Tbl.look_upd_same _ _ _ _

theorem Plane.onLadle_ladle_ne (y : Plane) {j k : Nat} (h : j ≠ k) (f : Ladle → Ladle) : (y.onLadle k f).ladle j = y.ladle j :=
  (Tbl.look_upd _ _ _ _ _).trans (if_neg h)

theorem State.onLadle_plane (s : State) (p k : Nat) (f : Ladle → Ladle) :
    (s.onPlane p fun x => x.onLadle k f).plane p = (s.plane p).onLadle k f := s.onPlane_plane_same p _

theorem bitsAt_zero_three (x : Nat) : bitsAt x 0 3 = x % 8 := by simp [bitsAt]

theorem bitsAt_zero_nine (x : Nat) : bitsAt x 0 9 = x % 512 := by simp [bitsAt]

theorem State.retireSeq_plane_same (s : State) (p : Nat) : (s.retireSeq p 4).plane p = (s.plane p).retired 4 :=
  (s.retireSeq_plane p 4 p).trans (if_pos rfl)

theorem State.retireWith_ladles (s : State) (p : Nat) (rd : RegNo) (x : W64) :
    ((s.retireWith p 4 rd x).plane p).ladles = (s.plane p).ladles := by
  rw [State.retireWith_plane, if_pos rfl, Plane.setX_eq]
  rfl

theorem Plane.ladle_of_ladles {y z : Plane} (h : y.ladles = z.ladles) (k : Nat) : y.ladle k = z.ladle k := by rw [Plane.ladle, h, Plane.ladle]

/-! ## LDLGO -/

section
variable {s : State} {p : Nat} {rs1 rs2 : RegNo}

theorem State.seqLdlgo_of_busy (h : ((s.plane p).ladle ((s.x p rs1).toNat % 8)).idle (s.descOf p) = false) :
    s.seqLdlgo p 4 rs1 rs2 = s.trap p 24 (BitVec.ofNat 64 ((s.x p rs1).toNat % 8)) := by
  unfold State.seqLdlgo
  dsimp only
  rw [bitsAt_zero_three, h]
  rfl

theorem State.seqLdlgo_of_past (h : ((s.plane p).ladle ((s.x p rs1).toNat % 8)).idle (s.descOf p) = true)
    (hd : (s.plane p).descCount ≤ (s.x p rs2).toNat % 512) :
    s.seqLdlgo p 4 rs1 rs2 = s.trap p 26 (BitVec.ofNat 64 ((s.x p rs2).toNat % 512)) := by
  unfold State.seqLdlgo
  dsimp only
  rw [bitsAt_zero_three, bitsAt_zero_nine, h, if_neg (by decide), if_pos hd]

theorem State.seqLdlgo_of_idle (h : ((s.plane p).ladle ((s.x p rs1).toNat % 8)).idle (s.descOf p) = true)
    (hd : (s.x p rs2).toNat % 512 < (s.plane p).descCount) : s.seqLdlgo p 4 rs1 rs2 =
      (s.onPlane p fun x => x.onLadle ((s.x p rs1).toNat % 8) fun l => l.go ((s.x p rs2).toNat % 512)).retireSeq p 4 := by
  unfold State.seqLdlgo
  dsimp only
  rw [bitsAt_zero_three, bitsAt_zero_nine, h, if_neg (by decide), if_neg (by omega)]

end

/-! ## LDLTAKE -/

/-- A take consumes the iteration whose turn it is. -/
def Ladle.consumed (l : Ladle) (i : LadleIter) : Ladle :=
  { l with taken := l.taken + 1, iters := l.iters.filter fun j => j.store || j.n != i.n }

/-- What LDLTAKE takes before it returns a value: the iteration whose turn it is, unless there is none left. -/
def State.takeOne (s : State) (p k : Nat) (x : W64) : State :=
  match ((s.plane p).ladle k).iters.find? fun i => !i.store && i.n == ((s.plane p).ladle k).taken with
  | some i => if x = -1 then s else (s.onPlane p fun y => y.onLadle k fun l => l.consumed i).noteDelayed p k i.worst
  | none => s

theorem State.takeStep_of_returns {s : State} {p k : Nat} {x : W64} (h : ((s.plane p).ladle k).take (s.descOf p) = .returns x) (rd : RegNo) :
    s.takeStep p k rd = ((s.takeOne p k x).unblock p).retireWith p 4 rd x := by
  unfold State.takeStep
  dsimp only
  rw [h]
  rfl

theorem State.takeStep_of_waits {s : State} {p k : Nat} (h : ((s.plane p).ladle k).take (s.descOf p) = .waits) (rd : RegNo) :
    s.takeStep p k rd = s.block p (.ldltake k rd false) := by
  unfold State.takeStep
  dsimp only
  rw [h]

theorem State.noteDelayed_plane (s : State) (p k : Nat) (st : Status) :
    (s.noteDelayed p k st).plane p = { s.plane p with delayed := ((s.noteDelayed p k st).plane p).delayed } := by
  unfold State.noteDelayed
  split
  · rw [State.onPlane_plane_same]
  · rfl

theorem State.noteDelayed_frame (s : State) (p k : Nat) (st : Status) :
    s.noteDelayed p k st = { s with planes := (s.noteDelayed p k st).planes } := by
  unfold State.noteDelayed
  split <;> rfl

theorem State.takeOne_of_none (s : State) (p k : Nat) : s.takeOne p k (-1) = s := by
  unfold State.takeOne
  split <;> rfl

theorem State.takeOne_frame (s : State) (p k : Nat) (x : W64) : s.takeOne p k x = { s with planes := (s.takeOne p k x).planes } := by
  unfold State.takeOne
  split
  · split
    · rfl
    · rw [State.noteDelayed_frame]
      rfl
  · rfl

theorem State.takeOne_pc (s : State) (p k : Nat) (x : W64) : ((s.takeOne p k x).plane p).pc = (s.plane p).pc := by
  unfold State.takeOne
  split
  · split
    · rfl
    · rw [State.noteDelayed_plane, State.onLadle_plane]
      rfl
  · rfl

/-- A take that returns 0 or a delay consumes its iteration. -/
theorem State.takeOne_taken {s : State} {p k : Nat} {x : W64} (hx : x ≠ -1)
    (hsome : (((s.plane p).ladle k).iters.find? fun i => !i.store && i.n == ((s.plane p).ladle k).taken).isSome = true) :
    (((s.takeOne p k x).plane p).ladle k).taken = ((s.plane p).ladle k).taken + 1 := by
  obtain ⟨i, hi⟩ := Option.isSome_iff_exists.mp hsome
  unfold State.takeOne
  rw [hi]
  dsimp only
  rw [if_neg hx, State.noteDelayed_plane, State.onLadle_plane]
  exact congrArg Ladle.taken (Plane.onLadle_ladle_same (s.plane p) k fun l => l.consumed i)

/-- A take that returns 0 has found its iteration. -/
theorem Ladle.found_of_take_zero {l : Ladle} {desc : Nat → Nat} (h : l.take desc = .returns 0) :
    (l.iters.find? fun i => !i.store && i.n == l.taken).isSome = true := by
  unfold Ladle.take at h
  split at h
  · cases h
  · split at h
    · cases h
    · split at h
      · next hfind => rw [hfind]; rfl
      · split at h
        · cases h
        · split at h
          · cases h
          · split at h <;> cases h

/-- What an instruction leaves that takes and returns. -/
theorem State.takeStep_facts {s : State} {p k : Nat} {x : W64} (h : ((s.plane p).ladle k).take (s.descOf p) = .returns x) (rd : RegNo) :
    s.takeStep p k rd = { s with planes := (s.takeStep p k rd).planes } ∧ ((s.takeStep p k rd).plane p).blocked = none ∧
      ((s.takeStep p k rd).plane p).pc = (s.plane p).pc + 4 ∧ (rd ≠ 0 → (s.takeStep p k rd).x p rd = x) ∧
      ((s.takeStep p k rd).plane p).ladle k = ((s.takeOne p k x).plane p).ladle k := by
  rw [State.takeStep_of_returns h]
  obtain ⟨hnone, hpc, hrd⟩ := (s.takeOne p k x).unblock_retireWith_facts p rd x
  refine ⟨?_, hnone, ?_, hrd, ?_⟩
  · rw [State.unblock_retireWith_frame, State.takeOne_frame]
  · rw [hpc, State.takeOne_pc]
  · refine (Plane.ladle_of_ladles (State.retireWith_ladles _ p rd x) k).trans ?_
    rw [State.unblock_plane]
    rfl

/-! ## LDLRES and LDLSTOP -/

theorem Ladle.settle_iters (l : Ladle) (desc : Nat → Nat) : (l.settle desc).iters = l.iters := by
  unfold Ladle.settle
  split
  · rfl
  · dsimp only
    split
    · rfl
    · split
      · rfl
      · split <;> rfl

theorem Ladle.settle_issued (l : Ladle) (desc : Nat → Nat) : (l.settle desc).issued = l.issued := by
  unfold Ladle.settle
  split
  · rfl
  · dsimp only
    split
    · rfl
    · split
      · rfl
      · split <;> rfl

theorem Ladle.settle_taken (l : Ladle) (desc : Nat → Nat) : (l.settle desc).taken = l.taken := by
  unfold Ladle.settle
  split
  · rfl
  · dsimp only
    split
    · rfl
    · split
      · rfl
      · split <;> rfl

/-- A ladle whose branch went the other way. -/
def Ladle.mispredicted (l : Ladle) (last : Nat) (next : Option Nat) : Ladle :=
  { l with iters := l.iters.filter fun i => !(!i.store && decide (last < i.n)), issued := last + 1, next := next, nextJ := 0, branch := none }

section
variable (s : State) (p k d last : Nat) (o : Bool)

theorem State.mispredict_plane : (s.mispredict p k d last o).plane p =
    (s.plane p).onLadle k fun l => l.mispredicted last (dTarget (s.descOf p d) o) := by
  refine Eq.trans ?_ (State.onLadle_plane s p k fun l => l.mispredicted last (dTarget (s.descOf p d) o))
  unfold State.mispredict
  dsimp only
  split <;> rfl

theorem State.mispredict_err : (s.mispredict p k d last o).err = s.err := by
  unfold State.mispredict
  dsimp only
  split <;> rfl

theorem State.mispredict_mem' : (s.mispredict p k d last o).fab.mem = s.fab.mem := by
  unfold State.mispredict
  dsimp only
  split <;> rfl

end

section
variable {s : State} {p k d last : Nat} {o : Bool} (hbranch : ((s.plane p).ladle k).branch = some (d, last))
include hbranch

theorem State.ladleResolve_of_other (h : o ≠ dPredict (s.descOf p d)) : s.ladleResolve p k o = s.mispredict p k d last o := by
  unfold State.ladleResolve
  dsimp only
  rw [hbranch]
  exact if_neg h

theorem State.ladleResolve_of_predicted (h : o = dPredict (s.descOf p d)) :
    s.ladleResolve p k o = s.onPlane p fun x => x.onLadle k fun y => ({ y with branch := none } : Ladle).settle (s.descOf p) := by
  unfold State.ladleResolve
  dsimp only
  rw [hbranch]
  exact if_pos h

end

theorem State.squashLadle_pc (s : State) (p k : Nat) : ((s.squashLadle p k).plane p).pc = (s.plane p).pc := by
  unfold State.squashLadle
  dsimp only
  split
  · rfl
  · exact (congrArg Plane.pc (State.onLadle_plane (s.voidOps p k fun i => ((s.plane p).ladle k).untaken.any fun x => x.id == i) p k
      Ladle.squash) :)

/-! ## Issue of load iterations -/

/-- The iterations of a ladle after cells of one of them have completed. -/
def ladleCellsDone (iter n : Nat) (st : Status) (addr : W64) (tag : W16) (l : List LadleIter) : List LadleIter :=
  l.map fun i => if i.id = iter then
      { i with cellsLeft := i.cellsLeft - n, worst := i.worst.worst st,
               badAddr := if i.worst.rank < st.rank then addr else i.badAddr,
               badTag := if i.worst.rank < st.rank then tag else i.badTag }
    else i

/-- The iteration that a ladle begins at its present position. -/
def Ladle.fresh (l : Ladle) (desc : Nat → Nat) (d : Nat) : LadleIter :=
  { n := l.issued, id := l.nextId, desc := d, j := l.nextJ, store := dStore (desc d), cellsLeft := dCellCount (desc d),
    readsLeft := if dStore (desc d) then dCellCount (desc d) else 0 }

/-- A ladle that has begun its next iteration. -/
def State.ladleBegun (s : State) (p k d : Nat) : State := s.onPlane p fun x => x.onLadle k fun y => y.begin (s.descOf p) d

/-- A ladle goes on with the iteration under way. -/
def State.ladleGoesOn (s : State) (p k : Nat) (desc : Nat → Nat) : State :=
  match ((s.plane p).ladle k).partial' desc with
  | some it => (s.issueIter p k it).finish
  | none => s

/-- π reads nothing that issuing the cells of a load iteration rewrites. -/
structure BlindToIssue {α : Type} (π : State → α) (p k : Nat) : Prop extends BlindToCells π where
  sour : ∀ s st, π (State.countSour s st) = π s
  cells : ∀ s i n st a t, π (State.ladleCells s p k i n st a t) = π s
  fill : ∀ s v ts, π (State.sourFill s v ts) = π s
  sent : ∀ s i n, π (State.onPlane s p fun x => x.onLadle k fun l =>
    { l with iters := l.iters.map fun j => if j.id == i then { j with sent := j.sent + n } else j }) = π s

section
variable {α : Type} {π : State → α} {p k : Nat} (h : BlindToIssue π p k)
include h

theorem State.loadCellFails_kept (s : State) (i ts : Nat) (c : SourCause) (a : Nat) : π (s.loadCellFails p k i ts c a) = π s := by
  have hcount : π ((s.countSour (.sour c)).ladleCells p k i 1 (.sour c) (BitVec.ofNat 64 a) 0) = π s := (h.cells _ _ _ _ _ _).trans (h.sour s _)
  unfold State.loadCellFails
  exact ite_kept hcount ((h.fill _ _ _).trans hcount)

theorem State.sendOp_kept (s : State) (port c : Nat) (i : Issuer) (fa n : Nat) (b : Nat → Nat → Nat → List Cell) :
    π (s.sendOp port c i fa n b).2 = π s := by
  unfold State.sendOp
  split
  · rfl
  · exact (State.launchAll_kept h.toBlindToCells _ _).trans ((h.ops _ _).trans (h.nextTag s _))

theorem State.sendLadleLoad_kept (s : State) (i c cls : Nat) (cells : List (Nat × Nat)) : π (s.sendLadleLoad p k i c cls cells) = π s := by
  unfold State.sendLadleLoad
  dsimp only
  split
  · next hsend => exact (congrArg (fun r => π r.2) hsend).symm.trans (State.sendOp_kept h s _ _ _ _ _ _)
  · next hsend =>
    refine (foldl_kept (fun a e => State.loadCellFails_kept h a i _ _ _) _ _).trans ?_
    exact (congrArg (fun r => π r.2) hsend).symm.trans (State.sendOp_kept h s _ _ _ _ _ _)

theorem State.issueCells_load_kept (s : State) {it : LadleIter} (hload : it.store = false) (lo n : Nat) :
    π (s.issueCells p k it lo n) = π s := by
  unfold State.issueCells
  simp only [hload, Bool.false_eq_true, if_false]
  refine (foldl_kept (fun a g => State.sendLadleLoad_kept h a _ _ _ g) _ _).trans ?_
  refine (foldl_kept (fun a e => State.loadCellFails_kept h a _ _ _ _) _ _).trans ?_
  exact foldl_kept (fun a e => State.loadCellFails_kept h a _ _ _ _) _ s

theorem State.issueIter_load_kept (s : State) {it : LadleIter} (hload : it.store = false) : π (s.issueIter p k it) = π s := by
  unfold State.issueIter
  exact ite_kept rfl ((State.issueCells_load_kept h _ hload _ _).trans (h.sent s _ _))

end

/-- A reading of the numbers of one ladle that issuing its cells does not change. -/
theorem blindToIssue_ladle {β : Type} {g : Ladle → β} (hg : ∀ l x, g { l with iters := x } = g l) (p k : Nat) :
    BlindToIssue (fun t => g ((t.plane p).ladle k)) p k where
  flight _ _ := rfl
  held _ _ := rfl
  ops _ _ := rfl
  nextTag _ _ := rfl
  links _ _ := rfl
  credit _ _ := rfl
  sour s st := congrArg (fun y : Plane => g (y.ladle k)) (State.plane_of_planes (by unfold State.countSour; split <;> rfl) p)
  cells s i n st a t := by
    have hplane := State.onLadle_plane s p k fun l => { l with iters := ladleCellsDone i n st a t l.iters }
    refine (congrArg (fun y : Plane => g (y.ladle k)) hplane).trans ?_
    rw [Plane.onLadle_ladle_same, hg]
  fill _ _ _ := rfl
  sent s i n := by
    rw [State.onLadle_plane, Plane.onLadle_ladle_same, hg]

/-- A reading that no plane and no cell enters. -/
theorem blindToIssue_of_planes {β : Type} {π : State → β} (hcells : BlindToCells π) (hplanes : ∀ s x, π { s with planes := x } = π s)
    (hfab : ∀ s x, x.mem = s.fab.mem → π { s with fab := x } = π s) (p k : Nat) : BlindToIssue π p k where
  toBlindToCells := hcells
  sour s st := by
    unfold State.countSour
    split
    · exact hfab s _ rfl
    · rfl
  cells s _ _ _ _ _ := hplanes s _
  fill s _ _ := hfab s _ rfl
  sent s _ _ := hplanes s _

/-- The next load iteration begins, and issues what the tracking entries allow. -/
theorem State.ladleIssue_begins {s : State} {v k d : Nat} (hrun : (s.vat v).run = .run) (hissuing : (s.plane (s.activePlane v)).issuing = true)
    (hrunning : ((s.plane (s.activePlane v)).ladle k).running = true)
    (hwhole : ((s.plane (s.activePlane v)).ladle k).partial' (s.descOf (s.activePlane v)) = none)
    (hnext : ((s.plane (s.activePlane v)).ladle k).next = some d)
    (hmay : ((s.plane (s.activePlane v)).ladle k).mayStart (s.descOf (s.activePlane v) d) = true) :
    s.ladleIssue v k = (s.ladleBegun (s.activePlane v) k d).ladleGoesOn (s.activePlane v) k (s.descOf (s.activePlane v)) := by
  unfold State.ladleIssue
  dsimp only
  rw [hrun, hissuing, hrunning, hwhole, hnext]
  dsimp only
  rw [hmay]
  rfl

/-- The iteration that a ladle has begun is a load where its descriptor's direction is. -/
theorem Ladle.begin_partial_load {l : Ladle} {desc : Nat → Nat} {d : Nat} (hwhole : l.partial' desc = none) (hload : dStore (desc d) = false)
    {it : LadleIter} (h : (l.begin desc d).partial' desc = some it) : it.store = false := by
  have hiters : (l.begin desc d).iters = l.iters ++ [l.fresh desc d] := Ladle.settle_iters _ desc
  unfold Ladle.partial' at h hwhole
  rw [hiters, List.find?_append, hwhole, Option.none_or] at h
  obtain rfl : l.fresh desc d = it := List.mem_singleton.mp (List.mem_of_find?_eq_some h) |>.symm
  exact hload

theorem State.ladleGoesOn_kept {α : Type} {π : State → α} {s : State} {p k : Nat} {desc : Nat → Nat} (h : BlindToIssue π p k)
    (hload : ∀ it, ((s.plane p).ladle k).partial' desc = some it → it.store = false) (htodo : s.err.todo = []) :
    π (s.ladleGoesOn p k desc) = π s := by
  unfold State.ladleGoesOn
  split
  · next it hit =>
    have hquiet : (s.issueIter p k it).err.todo = [] := (State.issueIter_load_kept (π := fun t => t.err.todo) (blindToIssue_of_planes
      ⟨fun _ _ => rfl, fun _ _ => rfl, fun _ _ => rfl, fun _ _ => rfl, fun _ _ => rfl, fun _ _ => rfl⟩ (fun _ _ => rfl) (fun _ _ _ => rfl)
      p k) s (hload it hit)).trans htodo
    exact (congrArg π (State.drainTodo_of_todo_nil 400 hquiet)).trans (State.issueIter_load_kept h s (hload it hit))
  · rfl

/-- Settles O35: each instruction is its case of the operation on its ladle. -/
theorem ladleControl : Obligations.LadleControl := by
  unfold Obligations.LadleControl
  refine ⟨?_, ?_, ?_, ?_, ?_, ?_, ?_, ?_, ?_, ?_⟩
  · intro v rs1 rs2 p k d s hp hready hfree htodo hk hd hidle hcount
    subst hk hd
    have heq := State.seqLdlgo_of_idle (rs2 := rs2) hidle hcount
    have hself := (State.retireSeq_plane_same _ p).trans (congrArg (Plane.retired · 4)
      (State.onLadle_plane s p ((s.x p rs1).toNat % 8) fun l => l.go ((s.x p rs2).toNat % 512)))
    have hgo := Plane.onLadle_ladle_same (s.plane p) ((s.x p rs1).toNat % 8) fun l => l.go ((s.x p rs2).toNat % 512)
    refine ⟨_, congrArg Host.Outcome.next ((State.seqDo_of_quiet hp hready hfree (by rw [heq]; exact htodo)).trans heq), rfl, ?_, ?_, ?_, ?_,
      ?_, fun j hj => ?_, fun r => ?_⟩
    · rw [hself]; exact congrArg Ladle.running hgo
    · rw [hself]; exact congrArg Ladle.next hgo
    · rw [hself]; exact congrArg Ladle.issued hgo
    · rw [hself]; exact congrArg Ladle.taken hgo
    · rw [hself]; rfl
    · rw [hself]; exact Plane.onLadle_ladle_ne (s.plane p) hj fun l => l.go ((s.x p rs2).toNat % 512)
    · rw [State.x, hself]; rfl
  · intro v rs1 rs2 p k c s hp hready hfree hhandlings hctx hk hbad
    subst hk
    have hv : p / 2 = v.val := hp ▸ s.activePlane_div v.val
    have hruns := State.runs_of_seqReady hp hready hctx
    by_cases hidle : ((s.plane p).ladle ((s.x p rs1).toNat % 8)).idle (s.descOf p) = false
    · have htrap := State.trap_trapped hctx hruns hhandlings 24 (BitVec.ofNat 64 ((s.x p rs1).toNat % 8)) 0x0801 []
      refine ⟨_, congrArg Host.Outcome.next ((State.seqDo_of_ready hp hready hfree _).trans
        (congrArg State.finish (State.seqLdlgo_of_busy hidle))), htrap.faulted, htrap.planes, ?_⟩
      rw [if_pos hidle]
      exact hv ▸ htrap.causeCode
    · have hpast := hbad.resolve_left hidle
      have htrap := State.trap_trapped hctx hruns hhandlings 26 (BitVec.ofNat 64 ((s.x p rs2).toNat % 512)) 0x0801 []
      refine ⟨_, congrArg Host.Outcome.next ((State.seqDo_of_ready hp hready hfree _).trans
        (congrArg State.finish (State.seqLdlgo_of_past (Bool.eq_true_of_not_eq_false hidle) hpast))), htrap.faulted, htrap.planes, ?_⟩
      rw [if_neg hidle]
      exact hv ▸ htrap.causeCode
  · intro v rd rs1 p k x s hp hready hfree htodo hk htake
    have hstep : s.seqLdltake p rd rs1 = s.takeStep p k rd := by rw [State.seqLdltake, bitsAt_zero_three, hk]
    obtain ⟨hframe, -, hpc, hrd, hladle⟩ := State.takeStep_facts htake rd
    have hquiet : (s.seqLdltake p rd rs1).err.todo = [] := by
      rw [hstep, hframe]
      exact htodo
    refine ⟨_, congrArg Host.Outcome.next ((State.seqDo_of_quiet hp hready hfree hquiet).trans hstep), hframe, hpc, hrd, fun hx => ?_,
      fun hx => ?_⟩
    · rw [hladle, hx, State.takeOne_of_none]
    · rw [hladle]
      refine State.takeOne_taken (by rw [hx]; decide) (Ladle.found_of_take_zero (hx ▸ htake))
  · intro v rd rs1 p k s hp hready hfree htodo hk htake
    have hstep : s.seqLdltake p rd rs1 = s.block p (.ldltake k rd false) := by
      rw [State.seqLdltake, bitsAt_zero_three, ← hk, State.takeStep_of_waits htake]
    exact congrArg Host.Outcome.next ((State.seqDo_of_quiet hp hready hfree (by rw [hstep]; exact htodo)).trans hstep)
  · intro v rd p k x s hp htodo hblocked htake
    obtain ⟨hframe, hnone, hpc, hrd, -⟩ := State.takeStep_facts htake rd
    refine ⟨_, congrArg Host.Outcome.next (?_ : _ = s.takeStep p k rd), hframe, hnone, hpc, hrd⟩
    have hquiet : (s.takeStep p k rd).err.todo = [] := by
      rw [hframe]
      exact htodo
    unfold State.ldltakeAgain
    dsimp only
    rw [← hp, hblocked]
    exact State.drainTodo_of_todo_nil 400 hquiet
  · intro v rs1 rs2 p k d last o s hp hready hfree htodo hk ho hbranch hother
    have hstep : s.seqLdlres p 4 rs1 rs2 = (s.mispredict p k d last o).retireSeq p 4 := by
      rw [State.seqLdlres, bitsAt_zero_three, bitAt_toNat, ← hk, ← ho, State.ladleResolve_of_other hbranch hother]
    have hquiet : (s.seqLdlres p 4 rs1 rs2).err.todo = [] := by
      rw [hstep]
      exact (congrArg Errors.todo (s.mispredict_err p k d last o)).trans htodo
    have hself := (State.retireSeq_plane_same (s.mispredict p k d last o) p).trans
      (congrArg (Plane.retired · 4) (s.mispredict_plane p k d last o))
    have hladle := Plane.onLadle_ladle_same (s.plane p) k fun l => l.mispredicted last (dTarget (s.descOf p d) o)
    refine ⟨_, congrArg Host.Outcome.next ((State.seqDo_of_quiet hp hready hfree hquiet).trans hstep), ?_, ?_, ?_, fun i hi => ?_, ?_,
      s.mispredict_mem' p k d last o⟩
    · rw [hself]; exact congrArg Ladle.branch hladle
    · rw [hself]; exact congrArg Ladle.issued hladle
    · rw [hself]; exact congrArg Ladle.next hladle
    · rw [hself] at hi
      have hkept := (List.mem_filter.mp ((congrArg Ladle.iters hladle) ▸ hi : i ∈ List.filter _ _)).2
      by_cases hstore : i.store = true
      · exact .inl hstore
      · right
        simpa [hstore] using hkept
    · rw [hself]; rfl
  · intro v rs1 rs2 p k d last o s hp hready hfree htodo hk ho hbranch hsame
    have hstep : s.seqLdlres p 4 rs1 rs2 =
        (s.onPlane p fun x => x.onLadle k fun y => ({ y with branch := none } : Ladle).settle (s.descOf p)).retireSeq p 4 := by
      rw [State.seqLdlres, bitsAt_zero_three, bitAt_toNat, ← hk, ← ho, State.ladleResolve_of_predicted hbranch hsame]
    have hself := (State.retireSeq_plane_same _ p).trans (congrArg (Plane.retired · 4)
      (State.onLadle_plane s p k fun y => ({ y with branch := none } : Ladle).settle (s.descOf p)))
    have hladle := Plane.onLadle_ladle_same (s.plane p) k fun y => ({ y with branch := none } : Ladle).settle (s.descOf p)
    refine ⟨_, congrArg Host.Outcome.next ((State.seqDo_of_quiet hp hready hfree (by rw [hstep]; exact htodo)).trans hstep), ?_, ?_, ?_, rfl⟩
    · rw [hself]; exact (congrArg Ladle.iters hladle).trans (Ladle.settle_iters _ _)
    · rw [hself]; exact (congrArg Ladle.issued hladle).trans (Ladle.settle_issued _ _)
    · rw [hself]; rfl
  · intro v rs1 p k s hp hready hfree htodo hk
    have hstep : s.seqLdlstop p 4 rs1 = ((s.squashLadle p k).onPlane p fun x => x.onLadle k fun l => l.stop (s.descOf p)).retireSeq p 4 := by
      rw [State.seqLdlstop, bitsAt_zero_three, hk]
    have hquiet : (s.seqLdlstop p 4 rs1).err.todo = [] := by
      rw [hstep]
      exact (State.squashLadle_kept (π := fun t => t.err.todo) ⟨fun _ _ => rfl, fun _ _ => rfl, fun _ _ => rfl, fun _ _ => rfl⟩
        s p k).trans htodo
    have hself := (State.retireSeq_plane_same _ p).trans (congrArg (Plane.retired · 4)
      (State.onLadle_plane (s.squashLadle p k) p k fun l => l.stop (s.descOf p)))
    have hladle := Plane.onLadle_ladle_same ((s.squashLadle p k).plane p) k fun l => l.stop (s.descOf p)
    refine ⟨_, congrArg Host.Outcome.next ((State.seqDo_of_quiet hp hready hfree hquiet).trans hstep), ?_, ?_, ?_, fun i hi => ?_, ?_,
      fun a => State.byteAt_of_mem (State.squashLadle_kept blindToSwap_fab_mem s p k) a⟩
    · rw [hself]; exact congrArg Ladle.running hladle
    · rw [hself]; exact congrArg Ladle.next hladle
    · rw [hself]; exact congrArg Ladle.branch hladle
    · rw [hself] at hi
      have hkept := (List.mem_filter.mp ((congrArg Ladle.iters hladle) ▸ hi : i ∈ List.filter _ _)).2
      simpa using hkept
    · rw [hself]; exact congrArg (· + 4) (s.squashLadle_pc p k)
  · intro v k s hrun
    refine congrArg Host.Outcome.next ?_
    unfold State.ladleIssue
    dsimp only
    rw [if_pos]
    simp [hrun]
  · intro v k p d s hp hrun hissuing hrunning hwhole htodo hnext hmay
    subst hp
    have heq := State.ladleIssue_begins hrun hissuing hrunning hwhole hnext hmay
    have hload : dStore (s.descOf (s.activePlane v.val) d) = false := by
      unfold Ladle.mayStart at hmay
      simpa using (Bool.and_eq_true_iff.mp (Bool.and_eq_true_iff.mp (Bool.and_eq_true_iff.mp hmay).1).1).1
    have hplane := State.onLadle_plane s (s.activePlane v.val) k.val fun y => y.begin (s.descOf (s.activePlane v.val)) d
    have hladle : ((s.ladleBegun (s.activePlane v.val) k.val d).plane (s.activePlane v.val)).ladle k.val =
        ((s.plane (s.activePlane v.val)).ladle k.val).begin (s.descOf (s.activePlane v.val)) d :=
      (congrArg (Plane.ladle · k.val) hplane).trans (Plane.onLadle_ladle_same _ _ _)
    have hloads (it : LadleIter) (hit : (((s.ladleBegun (s.activePlane v.val) k.val d).plane (s.activePlane v.val)).ladle k.val).partial'
        (s.descOf (s.activePlane v.val)) = some it) : it.store = false := Ladle.begin_partial_load hwhole hload (hladle ▸ hit)
    refine ⟨_, congrArg Host.Outcome.next heq, ?_, ?_, ?_, fun a => State.byteAt_of_mem ?_ a⟩
    · refine (State.ladleGoesOn_kept (blindToIssue_ladle (g := Ladle.issued) (fun _ _ => rfl) _ _) hloads htodo).trans ?_
      exact (congrArg Ladle.issued hladle).trans (Ladle.settle_issued _ _)
    · refine (State.ladleGoesOn_kept (blindToIssue_ladle (g := Ladle.taken) (fun _ _ => rfl) _ _) hloads htodo).trans ?_
      exact (congrArg Ladle.taken hladle).trans (Ladle.settle_taken _ _)
    · exact State.ladleGoesOn_kept (π := fun t => t.ctxs) (blindToIssue_of_planes blindToReport_ctxs.toBlindToCells (fun _ _ => rfl)
        (fun _ _ _ => rfl) _ _) hloads htodo
    · exact State.ladleGoesOn_kept (π := fun t => t.fab.mem) (blindToIssue_of_planes blindToReport_mem.toBlindToCells (fun _ _ => rfl)
        (fun _ _ hx => hx) _ _) hloads htodo

end Sys2Proof.Machine
end

section
/-! SUPPORT. O36: fences, CSRs and environment calls. -/

namespace Sys2Proof.Machine

/-! ## Fences -/

/-- What a fence waits for at its plane: an operation, a store iteration of its ladles or a flex request. -/
def State.fenceWaits (s : State) (p : Nat) (mask : BitVec 9) : Bool :=
  s.fab.ops.any (fenced (p / 2) (p % 2 == 1) mask) ||
    ((List.range 8).any fun k => mask.getLsbD k && ((s.plane p).ladle k).iters.any fun i => i.store && i.cellsLeft != 0) ||
    (mask.getLsbD 8 && (s.plane p).ctx.any s.flexOpen)

/-- A fence that returns, with 1 where a completion of its units was delayed. -/
def State.fenceReturns (s : State) (p : Nat) (mask : BitVec 9) (rd : RegNo) : State :=
  ((s.unblock p).onPlane p fun x => { x with delayed := x.delayed &&& ~~~mask }).retireWith p 4 rd
    (if (s.plane p).delayed &&& mask != 0 then 1 else 0)

theorem State.fenceDone_of_waits {s : State} {p : Nat} {mask : BitVec 9} (h : s.fenceWaits p mask = true) (rd : RegNo) :
    s.fenceDone p mask rd = s := if_pos h

theorem State.fenceDone_of_clear {s : State} {p : Nat} {mask : BitVec 9} (h : s.fenceWaits p mask = false) (rd : RegNo) :
    s.fenceDone p mask rd = s.fenceReturns p mask rd := if_neg (Bool.eq_false_iff.mp h)

theorem State.fenceReturns_facts (s : State) (p : Nat) (mask : BitVec 9) (rd : RegNo) :
    s.fenceReturns p mask rd = { s with planes := (s.fenceReturns p mask rd).planes } ∧
      ((s.fenceReturns p mask rd).plane p).blocked = none ∧ ((s.fenceReturns p mask rd).plane p).pc = (s.plane p).pc + 4 ∧
      ((s.fenceReturns p mask rd).plane p).delayed = (s.plane p).delayed &&& ~~~mask ∧
      (rd ≠ 0 → (s.fenceReturns p mask rd).x p rd = if (s.plane p).delayed &&& mask = 0 then 0 else 1) := by
  have hbase : ((s.unblock p).onPlane p fun x => { x with delayed := x.delayed &&& ~~~mask }).plane p =
      { s.plane p with blocked := none, delayed := (s.plane p).delayed &&& ~~~mask } := by
    rw [State.onPlane_plane_same, State.unblock_plane]
  have hframe : (s.unblock p).onPlane p (fun x => { x with delayed := x.delayed &&& ~~~mask }) =
      { s with planes := ((s.unblock p).onPlane p fun x => { x with delayed := x.delayed &&& ~~~mask }).planes } := rfl
  unfold State.fenceReturns
  generalize (s.unblock p).onPlane p (fun x => { x with delayed := x.delayed &&& ~~~mask }) = a at hbase hframe
  have hplane := (a.retireWith_plane p 4 p rd (if (s.plane p).delayed &&& mask != 0 then 1 else 0)).trans (if_pos rfl)
  rw [Plane.setX_eq, hbase] at hplane
  obtain ⟨-, -, -, hrd, -⟩ := a.retireWith_facts p 4 rd (if (s.plane p).delayed &&& mask != 0 then 1 else 0)
  refine ⟨?_, ?_, ?_, ?_, fun hne => ?_⟩
  · rw [State.retireWith_frame, hframe]
  · rw [hplane]; rfl
  · rw [hplane]; rfl
  · rw [hplane]; rfl
  · rw [hrd, if_neg hne]
    by_cases hzero : (s.plane p).delayed &&& mask = 0 <;> simp [hzero]

theorem State.fenceWaits_block (s : State) (p : Nat) (b : Blocked) (mask : BitVec 9) :
    (s.block p b).fenceWaits p mask = s.fenceWaits p mask := by
  unfold State.fenceWaits
  rw [State.block_plane]
  rfl

theorem State.fenceWaits_of_op {s : State} {p : Nat} {mask : BitVec 9} (h : s.fab.ops.any (fenced (p / 2) (p % 2 == 1) mask) = true) :
    s.fenceWaits p mask = true := by
  unfold State.fenceWaits
  rw [h]
  rfl

/-- Nothing of the units is outstanding: no operation, no store iteration and no flex request. -/
theorem State.fenceWaits_of_none {s : State} {p c : Nat} {mask : BitVec 9} (hctx : (s.plane p).ctx = some c)
    (hops : s.fab.ops.any (fenced (p / 2) (p % 2 == 1) mask) = false) (hflex : s.flexOpen c = false)
    (hstores : ∀ k, k < 8 → mask.getLsbD k = true → ∀ x ∈ ((s.plane p).ladle k).iters, x.store = true → x.cellsLeft = 0) :
    s.fenceWaits p mask = false := by
  have hnone : ((List.range 8).any fun k => mask.getLsbD k && ((s.plane p).ladle k).iters.any fun i => i.store && i.cellsLeft != 0) = false := by
    refine List.any_eq_false.mpr fun k hk h => ?_
    obtain ⟨hmask, hiters⟩ := Bool.and_eq_true_iff.mp h
    obtain ⟨x, hx, hleft⟩ := List.any_eq_true.mp hiters
    obtain ⟨hstore, hcells⟩ := Bool.and_eq_true_iff.mp hleft
    exact bne_iff_ne.mp hcells (hstores k (List.mem_range.mp hk) hmask x hx hstore)
  unfold State.fenceWaits
  rw [hops, hnone, hctx, Option.any_some, hflex, Bool.and_false]
  rfl

/-- A fence of no unit waits for nothing. -/
theorem State.fenceWaits_zero (s : State) (p : Nat) : s.fenceWaits p 0 = false := by
  have hops : s.fab.ops.any (fenced (p / 2) (p % 2 == 1) 0) = false := by
    refine List.any_eq_false.mpr fun o _ => ?_
    unfold fenced
    split <;> simp
  unfold State.fenceWaits
  rw [hops]
  simp

section
variable {s : State} {i : Instr} {v : VatId} {rd rs1 : RegNo} {mask : BitVec 9} {p : Nat} (hp : p = s.activePlane v.val)
  (hready : s.seqReady v.val = true) (hfree : s.regsFree p [rd, rs1] = true)
  (hi : (i = .ffence v rd rs1 ∧ mask = (s.x p rs1).truncate 9) ∨ (i = .fence v ∧ mask = 0x100 ∧ rd = 0))
include hp hready hfree hi

/-- FFENCE, and FENCE as FFENCE of the sequencer, where they may issue. -/
theorem State.exec_fence (htodo : (s.seqFfence p rd mask).err.todo = []) : exec i s = .next (s.seqFfence p rd mask) := by
  rcases hi with ⟨rfl, rfl⟩ | ⟨rfl, rfl, rfl⟩
  · exact congrArg Host.Outcome.next (State.seqDo_of_quiet hp hready hfree htodo)
  · exact congrArg Host.Outcome.next (State.seqDo_of_quiet (rs := []) (f := fun a p => a.seqFfence p 0 0x100) hp hready rfl htodo)

end

/-! ## CSRs -/

theorem State.seqCsr_of_unlisted {s : State} {p : Nat} {csr : BitVec 12} (h : s.csrValue p csr.toNat = none) (op : CsrOp) (f : Bool)
    (rd rs1 : RegNo) : s.seqCsr p 4 op f csr rd rs1 = s.trap p 2 (BitVec.ofNat 64 (csrWord op f csr rd rs1)) := by
  unfold State.seqCsr
  rw [h]

theorem State.seqCsr_of_written {s : State} {p : Nat} {op : CsrOp} {csr : BitVec 12} {rs1 : RegNo} (hw : op = .write ∨ rs1 ≠ 0)
    (hb : csr ≠ 0xB00 ∧ csr ≠ 0xB02) (f : Bool) (rd : RegNo) :
    s.seqCsr p 4 op f csr rd rs1 = s.trap p 2 (BitVec.ofNat 64 (csrWord op f csr rd rs1)) := by
  unfold State.seqCsr
  dsimp only
  split
  · rfl
  · rw [if_pos]
    obtain ⟨h0, h2⟩ := hb
    simp only [Bool.and_eq_true, Bool.or_eq_true, bne_iff_ne, beq_iff_eq]
    exact ⟨⟨hw, h0⟩, h2⟩

theorem State.seqCsr_of_read {s : State} {p : Nat} {op : CsrOp} {csr : BitVec 12} {rs1 : RegNo} {x : W64} (hx : s.csrValue p csr.toNat = some x)
    (hr : (op ≠ .write ∧ rs1 = 0) ∨ csr ∈ [0xB00, 0xB02]) (f : Bool) (rd : RegNo) : s.seqCsr p 4 op f csr rd rs1 = s.retireWith p 4 rd x := by
  unfold State.seqCsr
  dsimp only
  rw [hx]
  dsimp only
  rw [if_neg]
  rcases hr with ⟨hop, rfl⟩ | hcsr
  · cases op <;> simp at hop ⊢
  · simp only [List.mem_cons, List.not_mem_nil, or_false] at hcsr
    rcases hcsr with rfl | rfl <;> simp

theorem State.regsFree_head {s : State} {p : Nat} {a b : RegNo} (f : Bool) (h : s.regsFree p [a, b] = true) :
    s.regsFree p (if f then [a] else [a, b]) = true := by
  cases f with
  | false => exact h
  | true =>
    obtain ⟨ha, -⟩ := Bool.and_eq_true_iff.mp h
    exact Bool.and_eq_true_iff.mpr ⟨ha, rfl⟩

/-- Settles O36: each instruction is its case of the operation. -/
theorem fencesCsrsAndCalls : Obligations.FencesCsrsAndCalls := by
  unfold Obligations.FencesCsrsAndCalls
  refine ⟨?_, ?_, ?_, ?_, ?_, ?_, ?_, ?_, ?_, ?_⟩
  · intro i v rd rs1 mask p c s hp hready hfree htodo hctx hi hops hflex hstores
    have hv : p / 2 = v.val := hp ▸ s.activePlane_div v.val
    have hclear := State.fenceWaits_of_none hctx (hv.symm ▸ hops) hflex hstores
    have heq : s.seqFfence p rd mask = (s.block p (.ffence mask rd)).fenceReturns p mask rd :=
      State.fenceDone_of_clear ((s.fenceWaits_block p _ mask).trans hclear) rd
    obtain ⟨hframe, hnone, hpc, hdelayed, hrd⟩ := (s.block p (.ffence mask rd)).fenceReturns_facts p mask rd
    rw [State.block_plane] at hpc hdelayed hrd
    refine ⟨_, (State.exec_fence hp hready hfree hi ?_).trans (congrArg Host.Outcome.next heq), hframe.trans rfl, hnone, hpc, hdelayed, hrd⟩
    rw [heq, hframe]
    exact htodo
  · intro i v rd rs1 mask p s hp hready hfree htodo hi hops
    have hv : p / 2 = v.val := hp ▸ s.activePlane_div v.val
    have heq : s.seqFfence p rd mask = s.block p (.ffence mask rd) :=
      State.fenceDone_of_waits ((s.fenceWaits_block p _ mask).trans (State.fenceWaits_of_op (hv.symm ▸ hops))) rd
    exact (State.exec_fence hp hready hfree hi (by rw [heq]; exact htodo)).trans (congrArg Host.Outcome.next heq)
  · intro v rd p s hp hblocked
    obtain ⟨hframe, hnone, hpc, -, hrd⟩ := s.fenceReturns_facts p 0 rd
    refine ⟨_, congrArg Host.Outcome.next (?_ : _ = s.fenceReturns p 0 rd), hframe, hnone, hpc, fun hne => (hrd hne).trans (if_pos ?_)⟩
    · rw [← hp, hblocked]
      exact State.fenceDone_of_clear (s.fenceWaits_zero p) rd
    · simp
  · intro v rd mask p s hp hblocked hops
    have hv : p / 2 = v.val := hp ▸ s.activePlane_div v.val
    refine congrArg Host.Outcome.next ?_
    rw [← hp, hblocked]
    exact State.fenceDone_of_waits (State.fenceWaits_of_op (hv.symm ▸ hops)) rd
  · intro v op f csr rd rs1 p x s hp hready hfree htodo hcsr hr
    have hv : p / 2 = v.val := hp ▸ s.activePlane_div v.val
    have hx : s.csrValue p csr.toNat = some x := by
      unfold State.csrValue
      rw [hv]
      simp only [List.mem_cons, List.not_mem_nil, or_false] at hcsr
      rcases hcsr with ⟨rfl, rfl⟩ | ⟨rfl, rfl⟩ | ⟨rfl, rfl⟩ | ⟨rfl | rfl, rfl⟩ | ⟨rfl | rfl, rfl⟩ | ⟨rfl, rfl⟩ | ⟨rfl | rfl | rfl, rfl⟩ |
        ⟨rfl, rfl⟩ | ⟨rfl, rfl⟩ <;> rfl
    have heq := State.seqCsr_of_read hx hr f rd
    obtain ⟨-, hpc, hinst, hrd, -⟩ := s.retireWith_facts p 4 rd x
    exact ⟨_, congrArg Host.Outcome.next ((State.seqDo_of_quiet hp hready (State.regsFree_head f hfree) (by rw [heq]; exact htodo)).trans heq),
      s.retireWith_frame p rd x, hpc, hinst, fun hne => hrd.trans (if_neg hne)⟩
  · intro v op f csr rd rs1 p c s hp hready hfree hhandlings hctx hcsr
    have hv : p / 2 = v.val := hp ▸ s.activePlane_div v.val
    have htrap := State.trap_trapped hctx (State.runs_of_seqReady hp hready hctx) hhandlings 2
      (BitVec.ofNat 64 (csrWord op f csr rd rs1)) 0x0801 []
    have heq : s.seqCsr p 4 op f csr rd rs1 = s.trap p 2 (BitVec.ofNat 64 (csrWord op f csr rd rs1)) := by
      rcases hcsr with ⟨hlisted, hwrites⟩ | hunlisted
      · refine State.seqCsr_of_written hwrites ⟨?_, ?_⟩ f rd <;> rintro rfl <;> revert hlisted <;> decide
      · refine State.seqCsr_of_unlisted ?_ op f rd rs1
        simp only [List.mem_cons, List.not_mem_nil, or_false] at hunlisted
        rcases hunlisted with rfl | rfl | rfl | rfl | rfl | rfl <;> rfl
    exact ⟨_, congrArg Host.Outcome.next ((State.seqDo_of_ready hp hready (State.regsFree_head f hfree) _).trans
      (congrArg State.finish heq)), hv ▸ htrap.causeCode, htrap.faulted, htrap.planes⟩
  · intro v p c s hp hready hfree htodo hctx ha0
    have heq : s.seqEcall p 4 = ((s.retireSeq p 4).onPlane p fun x => { x with issuing := false }).onCtx c fun x => { x with ending := true } := by
      unfold State.seqEcall
      dsimp only
      rw [if_pos ha0, hctx]
      rfl
    have hplane := State.onPlane_plane_same (s.retireSeq p 4) p fun x => { x with issuing := false }
    rw [State.retireSeq_plane_same] at hplane
    refine ⟨_, congrArg Host.Outcome.next ((State.seqDo_of_quiet hp hready hfree (by rw [heq]; exact htodo)).trans heq), rfl, ?_, ?_, ?_,
      fun d hd => ?_⟩
    · exact congrArg Plane.issuing hplane
    · exact congrArg Plane.pc hplane
    · exact State.onCtx_ctx_same ((s.retireSeq p 4).onPlane p fun x => { x with issuing := false }) c _
    · exact (State.onCtx_ctx ((s.retireSeq p 4).onPlane p fun x => { x with issuing := false }) c d _).trans (if_neg hd)
  · intro v p c s hp hready hfree hhandlings hctx ha0
    have hv : p / 2 = v.val := hp ▸ s.activePlane_div v.val
    have htrap := State.trap_trapped hctx (State.runs_of_seqReady hp hready hctx) hhandlings 11 (s.x p 10) 0x0801 []
    exact ⟨_, congrArg Host.Outcome.next ((State.seqDo_of_ready hp hready hfree _).trans (congrArg State.finish (if_neg ha0))),
      hv ▸ htrap.causeCode, hv ▸ htrap.tval, htrap.faulted, htrap.planes⟩
  · intro v p c s hp hready hhandlings hctx
    have hv : p / 2 = v.val := hp ▸ s.activePlane_div v.val
    have hruns := State.runs_of_seqReady hp hready hctx
    have htrap := State.trap_trapped hctx hruns hhandlings 3 (s.plane p).pc 0x0801 []
    exact ⟨_, congrArg Host.Outcome.next (State.seqDo_of_ready (rs := []) (f := fun a p => a.seqEbreak p) hp hready rfl),
      hv ▸ htrap.causeCode, hv ▸ htrap.tval, htrap.faulted, htrap.planes,
      congrArg ErrRec.code (State.trap_recordAt hctx hruns hhandlings 3 (s.plane p).pc 0x0801 [])⟩
  · intro v id p s hp hready htodo
    exact congrArg Host.Outcome.next (State.seqDo_of_quiet (rs := []) (f := fun a p => a.seqBoundary p id) hp hready rfl htodo)

end Sys2Proof.Machine
end

section
/-! SUPPORT. O37: the base instructions. -/

namespace Sys2Proof.Machine

/-! ## Fetch -/

theorem bitsAt_zero_two (x : Nat) : bitsAt x 0 2 = x % 4 := by simp [bitsAt]

theorem bitsAt_zero_seven (x : Nat) : bitsAt x 0 7 = x % 128 := by simp [bitsAt]

/-- The first half of an instruction word is what a fetch of two bytes reads. -/
theorem Plane.memRead_two (y : Plane) (a : Nat) : y.memRead a 2 = y.memRead a 4 % 2 ^ 16 := by
  have h0 := (Tbl.look (0 : Byte) y.seqMem (a % 2 ^ 18 + 0)).isLt
  have h1 := (Tbl.look (0 : Byte) y.seqMem (a % 2 ^ 18 + 1)).isLt
  have htwo : List.range 2 = [0, 1] := rfl
  have hfour : List.range 4 = [0, 1, 2, 3] := rfl
  unfold Plane.memRead
  rw [htwo, hfour]
  simp only [List.map_cons, List.map_nil, leNat]
  omega

theorem State.regsFree_of_busy {s : State} {p : Nat} (h : (s.plane p).busy = 0) (rs : List RegNo) : s.regsFree p rs = true := by
  refine List.all_eq_true.mpr fun r _ => ?_
  rw [h]
  simp

/-- The fetch of a 32-bit instruction whose registers are there. -/
theorem State.seqStep_of_word {s : State} {p w : Nat} (hbusy : (s.plane p).busy = 0) (hin : inSeqMem (s.plane p).pc = true)
    (hin2 : inSeqMem ((s.plane p).pc + 2) = true) (hw : w = (s.plane p).memRead (s.plane p).pc.toNat 4) (hlong : w % 4 = 3) :
    s.seqStep p = s.runInstr p 4 w w := by
  have hfirst : bitsAt ((s.plane p).memRead (s.plane p).pc.toNat 2) 0 2 = 3 := by
    rw [bitsAt_zero_two, Plane.memRead_two, ← hw]
    omega
  unfold State.seqStep
  dsimp only
  rw [hin, hfirst, hin2, ← hw, State.regsFree_of_busy hbusy]
  rfl

/-- The fetch of a 16-bit instruction that stands for another. -/
theorem State.seqStep_of_half {s : State} {p h w : Nat} (hbusy : (s.plane p).busy = 0) (hin : inSeqMem (s.plane p).pc = true)
    (hh : h = (s.plane p).memRead (s.plane p).pc.toNat 2) (hshort : h % 4 ≠ 3) (hw : expand h = some w) :
    s.seqStep p = s.runInstr p 2 h w := by
  have hfirst : bitsAt ((s.plane p).memRead (s.plane p).pc.toNat 2) 0 2 ≠ 3 := by
    rw [bitsAt_zero_two, ← hh]
    exact hshort
  unfold State.seqStep
  dsimp only
  rw [hin, if_neg (by decide), if_pos hfirst, ← hh, hw]
  dsimp only
  rw [State.regsFree_of_busy hbusy]
  rfl

/-! ## Arithmetic, jumps and branches -/

/-- An instruction of the register arithmetic retires with its result. -/
theorem State.runInstr_of_alu {s : State} {p len raw w : Nat} {x : W64} (hop : w % 128 ∈ [0x13, 0x17, 0x33, 0x37])
    (hx : aluResult w (s.plane p).pc (s.x p (rvRs1 w)) (s.x p (rvRs2 w)) = some x) :
    s.runInstr p len raw w = s.retireWith p len (rvRd w) x := by
  unfold State.runInstr
  dsimp only
  rw [bitsAt_zero_seven, hx]
  simp only [List.mem_cons, List.not_mem_nil, or_false] at hop
  rcases hop with h | h | h | h <;> rw [h] <;> rfl

theorem State.runInstr_of_jal {s : State} {p len raw w : Nat} (hop : w % 128 = 0x6F) :
    s.runInstr p len raw w = s.seqJump p len (rvRd w) ((s.plane p).pc + (rvImmJ w).signExtend 64) := by
  unfold State.runInstr
  dsimp only
  rw [bitsAt_zero_seven, hop]
  rfl

theorem State.runInstr_of_jalr {s : State} {p len raw w : Nat} (hop : w % 128 = 0x67) (hf3 : rvF3 w = 0) :
    s.runInstr p len raw w = s.seqJump p len (rvRd w) ((s.x p (rvRs1 w) + (rvImmI w).signExtend 64) &&& ~~~1) := by
  unfold State.runInstr
  dsimp only
  rw [bitsAt_zero_seven, hop]
  exact if_pos hf3

theorem State.runInstr_of_taken {s : State} {p len raw w : Nat} (hop : w % 128 = 0x63)
    (htaken : branchTaken (rvF3 w) (s.x p (rvRs1 w)) (s.x p (rvRs2 w)) = some true) :
    s.runInstr p len raw w = s.seqJump p len 0 ((s.plane p).pc + (rvImmB w).signExtend 64) := by
  unfold State.runInstr
  dsimp only
  rw [bitsAt_zero_seven, hop, htaken]
  rfl

theorem State.runInstr_of_not_taken {s : State} {p len raw w : Nat} (hop : w % 128 = 0x63)
    (htaken : branchTaken (rvF3 w) (s.x p (rvRs1 w)) (s.x p (rvRs2 w)) = some false) : s.runInstr p len raw w = s.retireSeq p len := by
  unfold State.runInstr
  dsimp only
  rw [bitsAt_zero_seven, hop, htaken]
  rfl

/-- What a jump leaves: its target, and the return address in its destination. -/
theorem State.seqJump_facts (s : State) (p len : Nat) (rd : RegNo) (target : W64) : (s.seqJump p len rd target).err = s.err ∧
    ((s.seqJump p len rd target).plane p).pc = target ∧
    (rd ≠ 0 → (s.seqJump p len rd target).x p rd = (s.plane p).pc + BitVec.ofNat 64 len) := by
  have hplane : (s.seqJump p len rd target).plane p =
      { (s.plane p).setX rd ((s.plane p).pc + BitVec.ofNat 64 len) with
        pc := target, minstret := bump ((s.plane p).setX rd ((s.plane p).pc + BitVec.ofNat 64 len)).minstret } := by
    unfold State.seqJump
    rw [State.onPlane_plane_same, State.onPlane_plane_same]
  refine ⟨rfl, ?_, fun hne => ?_⟩
  · rw [hplane]
  · rw [State.x, hplane]
    exact (Plane.getX_setX _ rd rd _).trans ((if_pos rfl).trans (if_neg hne))

/-- The results of the register arithmetic that the statement names. -/
theorem aluResult_of_named {w : Nat} {pc a b x : W64}
    (h : (w % 128 = 0x33 ∧ rvF3 w = 0 ∧ rvF7 w = 0 ∧ x = a + b) ∨ (w % 128 = 0x33 ∧ rvF3 w = 0 ∧ rvF7 w = 0x20 ∧ x = a - b) ∨
      (w % 128 = 0x13 ∧ rvF3 w = 0 ∧ x = a + (rvImmI w).signExtend 64) ∨ (w % 128 = 0x13 ∧ rvF3 w = 7 ∧ x = a &&& (rvImmI w).signExtend 64) ∨
      (w % 128 = 0x33 ∧ rvF3 w = 0 ∧ rvF7 w = 1 ∧ x = a * b) ∨ (w % 128 = 0x33 ∧ rvF3 w = 5 ∧ rvF7 w = 1 ∧ b = 0 ∧ x = -1) ∨
      (w % 128 = 0x37 ∧ x = (rvImmU w).signExtend 64) ∨ (w % 128 = 0x17 ∧ x = pc + (rvImmU w).signExtend 64)) :
    aluResult w pc a b = some x := by
  unfold aluResult
  dsimp only
  rw [bitsAt_zero_seven]
  rcases h with ⟨hop, hf3, hf7, rfl⟩ | ⟨hop, hf3, hf7, rfl⟩ | ⟨hop, hf3, rfl⟩ | ⟨hop, hf3, rfl⟩ | ⟨hop, hf3, hf7, rfl⟩ |
    ⟨hop, hf3, hf7, rfl, rfl⟩ | ⟨hop, rfl⟩ | ⟨hop, rfl⟩
  · rw [hop, hf3, hf7]; rfl
  · rw [hop, hf3, hf7]; rfl
  · rw [hop, hf3]; rfl
  · rw [hop, hf3]; rfl
  · rw [hop, hf3, hf7]; rfl
  · rw [hop, hf3, hf7]; rfl
  · rw [hop]; rfl
  · rw [hop]; rfl

/-! ## Compressed forms -/

theorem packBits_two (a b l m u v : Nat) : packBits [(l, a, u), (m, b, v)] = u % 2 ^ a * 2 ^ l + v % 2 ^ b * 2 ^ m := by simp [packBits]

theorem packBits_five (a b c d e l m n o p u v w x y : Nat) : packBits [(l, a, u), (m, b, v), (n, c, w), (o, d, x), (p, e, y)] =
    u % 2 ^ a * 2 ^ l + v % 2 ^ b * 2 ^ m + w % 2 ^ c * 2 ^ n + x % 2 ^ d * 2 ^ o + y % 2 ^ e * 2 ^ p := by simp [packBits]

theorem packBits_six (a b c d e f l m n o p q u v w x y z : Nat) :
    packBits [(l, a, u), (m, b, v), (n, c, w), (o, d, x), (p, e, y), (q, f, z)] =
      u % 2 ^ a * 2 ^ l + v % 2 ^ b * 2 ^ m + w % 2 ^ c * 2 ^ n + x % 2 ^ d * 2 ^ o + y % 2 ^ e * 2 ^ p + z % 2 ^ f * 2 ^ q := by
  simp [packBits]

theorem encI_eq {rd imm : Nat} (hrd : rd < 32) (himm : imm < 4096) : encI 0x13 rd 0 0 imm = 0x13 + 128 * rd + 1048576 * imm := by
  rw [encI, packBits_five]
  omega

theorem encR_eq {rd rs2 : Nat} (hrd : rd < 32) (hrs2 : rs2 < 32) : encR 0x33 rd 0 0 rs2 0 = 0x33 + 128 * rd + 1048576 * rs2 := by
  rw [encR, packBits_six]
  omega

/-- The fields of an encoding with a destination and an upper field alone. -/
theorem bitsAt_rd_upper {op rd hi : Nat} (hop : op < 128) (hrd : rd < 32) (hhi : hi < 4096) :
    (op + 128 * rd + 1048576 * hi) % 128 = op ∧ bitsAt (op + 128 * rd + 1048576 * hi) 7 5 = rd ∧
      bitsAt (op + 128 * rd + 1048576 * hi) 12 3 = 0 ∧ bitsAt (op + 128 * rd + 1048576 * hi) 15 5 = 0 ∧
      bitsAt (op + 128 * rd + 1048576 * hi) 20 12 = hi ∧ bitsAt (op + 128 * rd + 1048576 * hi) 20 5 = hi % 32 ∧
      bitsAt (op + 128 * rd + 1048576 * hi) 25 7 = hi / 32 := by
  simp only [bitsAt]
  omega

/-- The fields of a register-immediate encoding. -/
theorem encI_fields {rd imm : Nat} (hrd : rd < 32) (himm : imm < 4096) : encI 0x13 rd 0 0 imm % 128 = 0x13 ∧
    rvRd (encI 0x13 rd 0 0 imm) = BitVec.ofNat 5 rd ∧ rvRs1 (encI 0x13 rd 0 0 imm) = 0 ∧ rvF3 (encI 0x13 rd 0 0 imm) = 0 ∧
    rvImmI (encI 0x13 rd 0 0 imm) = BitVec.ofNat 12 imm := by
  obtain ⟨hop, h7, h12, h15, h20, -, -⟩ := bitsAt_rd_upper (by decide : 0x13 < 128) hrd himm
  rw [← encI_eq hrd himm] at hop h7 h12 h15 h20
  generalize encI 0x13 rd 0 0 imm = w at hop h7 h12 h15 h20
  rw [rvRd, rvRs1, rvF3, rvImmI, h7, h12, h15, h20]
  exact ⟨hop, rfl, rfl, rfl, rfl⟩

/-- The fields of a register-register addition to x0. -/
theorem encR_fields {rd rs2 : Nat} (hrd : rd < 32) (hrs2 : rs2 < 32) : encR 0x33 rd 0 0 rs2 0 % 128 = 0x33 ∧
    rvRd (encR 0x33 rd 0 0 rs2 0) = BitVec.ofNat 5 rd ∧ rvRs1 (encR 0x33 rd 0 0 rs2 0) = 0 ∧
    rvRs2 (encR 0x33 rd 0 0 rs2 0) = BitVec.ofNat 5 rs2 ∧ rvF3 (encR 0x33 rd 0 0 rs2 0) = 0 ∧ rvF7 (encR 0x33 rd 0 0 rs2 0) = 0 := by
  obtain ⟨hop, h7, h12, h15, -, h20, h25⟩ := bitsAt_rd_upper (by decide : 0x33 < 128) hrd (by omega : rs2 < 4096)
  rw [← encR_eq hrd hrs2] at hop h7 h12 h15 h20 h25
  generalize encR 0x33 rd 0 0 rs2 0 = w at hop h7 h12 h15 h20 h25
  rw [rvRd, rvRs1, rvRs2, rvF3, rvF7, h7, h12, h15, h20, h25, Nat.mod_eq_of_lt hrs2, Nat.div_eq_of_lt hrs2]
  exact ⟨hop, rfl, rfl, rfl, rfl, rfl⟩

/-- The immediate of a compressed form, extended twice. -/
theorem signExtend_sext (x : Fin 64) : (BitVec.ofNat 12 (sext 6 12 x.val)).signExtend 64 = (BitVec.ofNat 6 x.val).signExtend 64 := by
  revert x
  decide

theorem sext_lt (x : Fin 64) : sext 6 12 x.val < 4096 := by
  revert x
  decide

theorem imm6_eq (h : Nat) : packBits [(0, 5, bitsAt h 2 5), (5, 1, bitsAt h 12 1)] = bitsAt h 2 5 + 32 * bitsAt h 12 1 := by
  rw [packBits_two, bitsAt_mod, bitsAt_mod]
  omega

theorem imm6_lt (h : Nat) : bitsAt h 2 5 + 32 * bitsAt h 12 1 < 64 := by
  simp only [bitsAt]
  omega

theorem expand_li {h : Nat} (hf3 : h / 8192 = 2) (hq : h % 4 = 1) :
    expand h = some (encI 0x13 (bitsAt h 7 5) 0 0 (sext 6 12 (bitsAt h 2 5 + 32 * bitsAt h 12 1))) := by
  have hf : bitsAt h 13 3 = 2 := by simp only [bitsAt]; omega
  unfold expand
  dsimp only
  rw [bitsAt_zero_two, hq, hf, imm6_eq]
  rfl

theorem expand_mv {h : Nat} (hf3 : h / 4096 = 8) (hq : h % 4 = 2) (hrs2 : bitsAt h 2 5 ≠ 0) :
    expand h = some (encR 0x33 (bitsAt h 7 5) 0 0 (bitsAt h 2 5) 0) := by
  have hf : bitsAt h 13 3 = 4 := by simp only [bitsAt]; omega
  have hb : bitsAt h 12 1 = 0 := by simp only [bitsAt]; omega
  unfold expand
  dsimp only
  rw [bitsAt_zero_two, hq, hf]
  exact (if_pos hb).trans (if_neg hrs2)

theorem State.x_zero (s : State) (p : Nat) : s.x p 0 = 0 := by
  unfold State.x Plane.getX
  exact if_pos rfl

theorem bitsAt_five_lt (h lo : Nat) : bitsAt h lo 5 < 32 := Nat.mod_lt _ (by decide)

/-- C.LI retires with its immediate. -/
theorem State.runInstr_li (s : State) (p h : Nat) :
    s.runInstr p 2 h (encI 0x13 (bitsAt h 7 5) 0 0 (sext 6 12 (bitsAt h 2 5 + 32 * bitsAt h 12 1))) =
      s.retireWith p 2 (rvRd h) ((BitVec.ofNat 6 (bitsAt h 2 5 + 32 * bitsAt h 12 1)).signExtend 64) := by
  have hlt := imm6_lt h
  rw [rvRd]
  generalize bitsAt h 2 5 + 32 * bitsAt h 12 1 = imm at hlt
  obtain ⟨hop, hd, h1, hf, himm⟩ := encI_fields (bitsAt_five_lt h 7) (sext_lt ⟨imm, hlt⟩)
  generalize encI 0x13 (bitsAt h 7 5) 0 0 (sext 6 12 imm) = w at hop hd h1 hf himm
  have hx := aluResult_of_named (pc := (s.plane p).pc) (a := s.x p (rvRs1 w)) (b := s.x p (rvRs2 w)) (.inr (.inr (.inl ⟨hop, hf, rfl⟩)))
  rw [State.runInstr_of_alu (by rw [hop]; decide) hx, hd, h1, himm, State.x_zero, signExtend_sext ⟨imm, hlt⟩]
  exact congrArg (s.retireWith p 2 _) (BitVec.zero_add _)

/-- C.MV retires with its source. -/
theorem State.runInstr_mv (s : State) (p h : Nat) : s.runInstr p 2 h (encR 0x33 (bitsAt h 7 5) 0 0 (bitsAt h 2 5) 0) =
    s.retireWith p 2 (rvRd h) (s.x p (BitVec.ofNat 5 (bitsAt h 2 5))) := by
  obtain ⟨hop, hd, h1, h2, hf, hf7⟩ := encR_fields (bitsAt_five_lt h 7) (bitsAt_five_lt h 2)
  rw [rvRd]
  generalize encR 0x33 (bitsAt h 7 5) 0 0 (bitsAt h 2 5) 0 = w at hop hd h1 h2 hf hf7
  have hx := aluResult_of_named (pc := (s.plane p).pc) (a := s.x p (rvRs1 w)) (b := s.x p (rvRs2 w)) (.inl ⟨hop, hf, hf7, rfl⟩)
  rw [State.runInstr_of_alu (by rw [hop]; decide) hx, hd, h1, h2, State.x_zero]
  exact congrArg (s.retireWith p 2 _) (BitVec.zero_add _)

/-- What an instruction that retires with a result leaves of its plane's pc and registers. -/
theorem State.retireWith_pc_x (s : State) (p len : Nat) (rd : RegNo) (x : W64) :
    ((s.retireWith p len rd x).plane p).pc = (s.plane p).pc + BitVec.ofNat 64 len ∧ (rd ≠ 0 → (s.retireWith p len rd x).x p rd = x) := by
  obtain ⟨-, hpc, -, hrd, -⟩ := s.retireWith_facts p len rd x
  exact ⟨hpc, fun hne => hrd.trans (if_neg hne)⟩

/-- The word of BOUNDARY. -/
theorem boundaryWord_fields (id : BitVec 12) : (id.toNat * 2 ^ 20 + 0x500B) % 128 = 0x0B ∧ rvF3 (id.toNat * 2 ^ 20 + 0x500B) = 5 ∧
    rvRd (id.toNat * 2 ^ 20 + 0x500B) = 0 ∧ rvRs1 (id.toNat * 2 ^ 20 + 0x500B) = 0 ∧ rvImmI (id.toNat * 2 ^ 20 + 0x500B) = id := by
  have hid := id.isLt
  have hf3 : bitsAt (id.toNat * 2 ^ 20 + 0x500B) 12 3 = 5 := by simp only [bitsAt]; omega
  have hrd : bitsAt (id.toNat * 2 ^ 20 + 0x500B) 7 5 = 0 := by simp only [bitsAt]; omega
  have hrs1 : bitsAt (id.toNat * 2 ^ 20 + 0x500B) 15 5 = 0 := by simp only [bitsAt]; omega
  have himm : bitsAt (id.toNat * 2 ^ 20 + 0x500B) 20 12 = id.toNat := by simp only [bitsAt]; omega
  rw [rvF3, rvRd, rvRs1, rvImmI, hf3, hrd, hrs1, himm]
  exact ⟨by omega, rfl, rfl, rfl, BitVec.eq_of_toNat_eq ((BitVec.toNat_ofNat _ _).trans (Nat.mod_eq_of_lt hid))⟩

/-- A vendor word of funct3 5 without registers runs BOUNDARY. -/
theorem State.runInstr_of_boundary {s : State} {p raw w : Nat} (hop : w % 128 = 0x0B) (hf3 : rvF3 w = 5) (hrd : rvRd w = 0)
    (hrs1 : rvRs1 w = 0) : s.runInstr p 4 raw w = s.seqBoundary p (rvImmI w) := by
  have hvendor : s.runVendor p 4 raw w = s.seqBoundary p (rvImmI w) := by
    unfold State.runVendor
    dsimp only
    rw [hf3]
    exact if_pos ⟨hrd, hrs1⟩
  unfold State.runInstr
  dsimp only
  rw [bitsAt_zero_seven, hop]
  exact hvendor

/-! ## The statement -/

theorem State.finish_of_quiet {s : State} (h : s.err.todo = []) : s.finish = s := State.drainTodo_of_todo_nil 400 h

/-- The base instruction of a plane that may issue is a step of its sequencer. -/
theorem State.exec_base {s : State} {v : VatId} {p : Nat} (hp : p = s.activePlane v.val) (hready : s.seqReady v.val = true) :
    exec (.seqBaseInstruction v) s = .next (s.seqStep p).finish :=
  congrArg Host.Outcome.next (State.seqDo_of_ready (rs := []) (f := fun a p => a.seqStep p) hp hready rfl)

/-- Settles O37: a step fetches, and the instruction that it finds is its case of the operation. -/
theorem baseInstructions : Obligations.BaseInstructions := by
  unfold Obligations.BaseInstructions
  refine ⟨?_, ?_, ?_, ?_, ?_, ?_⟩
  · intro v p w rd rs1 rs2 x s hp hready htodo hbusy hin hin2 hw hrd hrs1 hrs2 hx
    subst hrd hrs1 hrs2
    have hop : w % 128 ∈ [0x13, 0x17, 0x33, 0x37] := by
      simp only [List.mem_cons, List.not_mem_nil, or_false]
      omega
    have hlong : w % 4 = 3 := by
      simp only [List.mem_cons, List.not_mem_nil, or_false] at hop
      omega
    have hstep : s.seqStep p = s.retireWith p 4 (rvRd w) x :=
      (State.seqStep_of_word hbusy hin hin2 hw hlong).trans (State.runInstr_of_alu hop (aluResult_of_named hx))
    obtain ⟨-, hpc, -, hxd, hother, hmem, -, -⟩ := s.retireWith_facts p 4 (rvRd w) x
    refine ⟨_, (State.exec_base hp hready).trans (congrArg Host.Outcome.next ?_), s.retireWith_frame p (rvRd w) x, hpc, hxd, hother, hmem⟩
    rw [hstep]
    exact State.drainTodo_of_todo_nil 400 htodo
  · intro v p w s hp hready htodo hbusy hin hin2 hw
    refine ⟨_, State.exec_base hp hready, fun hop => ?_, fun hop hf3 => ?_, fun hop hf3 heq => ?_, fun hop hf3 hne => ?_,
      fun hop hf3 hlt => ?_⟩
    · rw [State.seqStep_of_word hbusy hin hin2 hw (by omega), State.runInstr_of_jal hop]
      obtain ⟨herr, hpc, hback⟩ := s.seqJump_facts p 4 (rvRd w) ((s.plane p).pc + (rvImmJ w).signExtend 64)
      rw [State.finish_of_quiet (herr ▸ htodo)]
      exact ⟨hpc, hback⟩
    · rw [State.seqStep_of_word hbusy hin hin2 hw (by omega), State.runInstr_of_jalr hop hf3]
      obtain ⟨herr, hpc, hback⟩ := s.seqJump_facts p 4 (rvRd w) ((s.x p (rvRs1 w) + (rvImmI w).signExtend 64) &&& ~~~1)
      rw [State.finish_of_quiet (herr ▸ htodo)]
      exact ⟨hpc, hback⟩
    · have htaken : branchTaken (rvF3 w) (s.x p (rvRs1 w)) (s.x p (rvRs2 w)) = some true := by
        rw [hf3, heq]
        exact congrArg some (beq_self_eq_true _)
      rw [State.seqStep_of_word hbusy hin hin2 hw (by omega), State.runInstr_of_taken hop htaken]
      obtain ⟨herr, hpc, -⟩ := s.seqJump_facts p 4 0 ((s.plane p).pc + (rvImmB w).signExtend 64)
      rw [State.finish_of_quiet (herr ▸ htodo)]
      exact hpc
    · have htaken : branchTaken (rvF3 w) (s.x p (rvRs1 w)) (s.x p (rvRs2 w)) = some false := by
        rw [hf3]
        exact congrArg some (beq_eq_false_iff_ne.mpr hne)
      rw [State.seqStep_of_word hbusy hin hin2 hw (by omega), State.runInstr_of_not_taken hop htaken, State.finish_of_quiet (by exact htodo),
        State.retireSeq_plane_same]
      rfl
    · have htaken : branchTaken (rvF3 w) (s.x p (rvRs1 w)) (s.x p (rvRs2 w)) = some true := by
        rw [hf3]
        exact congrArg some (decide_eq_true hlt)
      rw [State.seqStep_of_word hbusy hin hin2 hw (by omega), State.runInstr_of_taken hop htaken]
      obtain ⟨herr, hpc, -⟩ := s.seqJump_facts p 4 0 ((s.plane p).pc + (rvImmB w).signExtend 64)
      rw [State.finish_of_quiet (herr ▸ htodo)]
      exact hpc
  · intro v p h rd rs2 s hp hready htodo hbusy hin hh hshort hrd hrs2
    subst hrd hrs2
    refine ⟨_, State.exec_base hp hready, fun hf3 hq => ?_, fun hf3 hq hne => ?_⟩
    · rw [State.seqStep_of_half hbusy hin hh hshort (expand_li hf3 hq), State.runInstr_li, State.finish_of_quiet (by exact htodo)]
      exact s.retireWith_pc_x p 2 (rvRd h) _
    · have hne' : bitsAt h 2 5 ≠ 0 := fun hz => hne (by rw [hz]; rfl)
      rw [State.seqStep_of_half hbusy hin hh hshort (expand_mv hf3 hq hne'), State.runInstr_mv, State.finish_of_quiet (by exact htodo)]
      exact s.retireWith_pc_x p 2 (rvRd h) _
  · intro v p id s hp hready htodo hbusy hin hin2 hw
    obtain ⟨hop, hf3, hrd, hrs1, himm⟩ := boundaryWord_fields id
    rw [← hw] at hop hf3 hrd hrs1 himm
    have hstep : s.seqStep p = s.seqBoundary p id := by
      rw [State.seqStep_of_word hbusy hin hin2 rfl (by omega), State.runInstr_of_boundary hop hf3 hrd hrs1, himm]
    exact (State.exec_base hp hready).trans (congrArg Host.Outcome.next ((congrArg State.finish hstep).trans
      (State.seqDo_of_ready (rs := []) (f := fun a p => a.seqBoundary p id) hp hready rfl).symm))
  · intro v p c s hp hready hhandlings hctx hbad
    have hv : p / 2 = v.val := hp ▸ s.activePlane_div v.val
    have hruns := State.runs_of_seqReady hp hready hctx
    by_cases hin : inSeqMem (s.plane p).pc = true
    · have hzero := (hbad.resolve_left (by rw [hin]; decide)).2
      have hstep : s.seqStep p = s.trap p 2 0 := by
        unfold State.seqStep
        dsimp only
        rw [hin, hzero]
        rfl
      have htrap := State.trap_trapped hctx hruns hhandlings 2 0 0x0801 []
      refine ⟨_, (State.exec_base hp hready).trans (congrArg (fun t => Host.Outcome.next (State.finish t)) hstep), htrap.faulted, htrap.planes, ?_⟩
      rw [if_pos hin]
      exact hv ▸ htrap.causeCode
    · have hstep : s.seqStep p = s.trap p 1 (s.plane p).pc := by
        unfold State.seqStep
        dsimp only
        exact if_pos (by simpa using hin)
      have htrap := State.trap_trapped hctx hruns hhandlings 1 (s.plane p).pc 0x0801 []
      refine ⟨_, (State.exec_base hp hready).trans (congrArg (fun t => Host.Outcome.next (State.finish t)) hstep), htrap.faulted, htrap.planes, ?_⟩
      rw [if_neg hin]
      exact hv ▸ htrap.causeCode
  · intro i v rd rs1 rs2 imm z u op co s hready hi
    simp only [List.mem_cons, List.not_mem_nil, or_false] at hi
    rcases hi with rfl | rfl | rfl | rfl | rfl | rfl | rfl | rfl | rfl | rfl | rfl | rfl | rfl | rfl | rfl | rfl | rfl | rfl | rfl | rfl | rfl |
      rfl | rfl <;> exact congrArg Host.Outcome.next (State.seqDo_of_not_ready hready _ _)

end Sys2Proof.Machine
end

section
/-! SUPPORT. O39: tile bundles. -/

namespace Sys2Proof.Machine

/-! ## What the slots of a bundle leave alone -/

/-- Where a tile stands in its program: entry, bundle, repeat, iteration, iterations left and cycle. -/
def Tile.place (x : Tile) : Nat × Nat × Nat × Nat × Nat × Nat := (x.entry, x.bundle, x.rep, x.iter, x.itersLeft, x.cycle)

/-- π reads nothing that the slots of a bundle of tile t rewrite before the tile goes on. -/
structure BlindToSlots {α : Type} (π : State → α) (v t : Nat) : Prop where
  tile : ∀ s (f : Tile → Tile), (∀ y, (f y).place = y.place) → π (State.onTile s v t f) = π s
  plane : ∀ s p (f : Plane → Plane), (∀ y, (f y).ctx = y.ctx) → π (State.onPlane s p f) = π s

section
variable {α : Type} {π : State → α} {v t : Nat} (h : BlindToSlots π v t)
include h

theorem State.writeReg_kept (s : State) (r x m : Nat) : π (s.writeReg v t r x m) = π s := h.tile s _ fun _ => rfl

theorem State.writeAcc_kept (s : State) (b : Nat) (new : List (BitVec 128 × AccTag)) : π (s.writeAcc v t b new) = π s :=
  h.tile s _ fun _ => rfl

theorem State.raiseFlags_kept (s : State) (f : Flags) : π (s.raiseFlags v t f) = π s := by
  have hflags : π (s.onTile v t fun y => if (s.vat v).plane then { y with xflags1 := y.xflags1 ||| f } else { y with xflags0 := y.xflags0 ||| f }) =
      π s := h.tile s _ fun y => by split <;> rfl
  unfold State.raiseFlags
  refine ite_kept hflags ((h.plane _ _ _ ?_).trans hflags)
  exact fun _ => rfl

theorem State.drew_kept (s : State) (p : Nat) : π (s.drew p t) = π s := h.plane s p _ fun _ => rfl

theorem State.landVector_kept (s : State) (r : VecPending) : π (s.landVector v t r) = π s :=
  (State.raiseFlags_kept h _ _).trans (foldl_kept (fun a _ => State.writeReg_kept h a _ _ _) _ s)

theorem State.landMac_kept (s : State) (q : MacPending) : π (s.landMac v t q) = π s :=
  (State.raiseFlags_kept h _ _).trans (State.writeAcc_kept h s _ _)

theorem State.settle_kept (s : State) (cycle : Nat) : π (s.settle v t cycle) = π s :=
  (foldl_kept (fun a r => State.landMac_kept h a r) _ _).trans
    ((foldl_kept (fun a r => State.landVector_kept h a r) _ _).trans (h.tile s _ fun _ => rfl))

theorem State.drainCycle_kept (s : State) (d : Drain) : π (s.drainCycle v t d) = π s := by
  unfold State.drainCycle
  refine ite_kept (State.writeReg_kept h s _ _ _) (ite_kept (State.writeAcc_kept h s _ _) ?_)
  have hout (x m : Nat) (f : Flags) : π ((s.writeReg v t ((d.areg + d.done) % 512) x m).raiseFlags v t f) = π s :=
    (State.raiseFlags_kept h _ _).trans (State.writeReg_kept h s _ _ _)
  exact ite_kept ((State.drew_kept h _ _).trans (hout _ _ _)) (hout _ _ _)

theorem State.drainStep_kept (s : State) : π (s.drainStep v t) = π s := by
  unfold State.drainStep
  refine (h.tile _ _ ?_).trans (foldl_kept (π := π) (f := fun a d => a.drainCycle v t d) (fun a d => State.drainCycle_kept h a d) _ s)
  exact fun _ => rfl

theorem State.macSlot_kept (s : State) (b : Nat) : π (s.macSlot v t b) = π s := by
  unfold State.macSlot
  exact ite_kept (ite_kept (h.tile s _ fun _ => rfl) rfl) (ite_kept (h.tile s _ fun _ => rfl) rfl)

theorem State.vectorSlot_kept (s src : State) (b : Nat) : π (s.vectorSlot src v t b) = π s := by
  have hjoin (l : VecPending) : π (s.onTile v t fun z => { z with vec := insertVec l z.vec }) = π s := h.tile s _ fun _ => rfl
  unfold State.vectorSlot
  exact ite_kept rfl (ite_kept ((State.drew_kept h _ _).trans (hjoin _)) (hjoin _))

end

theorem blindToSlots_of_rest {α : Type} {π : State → α} (htiles : ∀ s x, π { s with tiles := x } = π s)
    (hplanes : ∀ s x, π { s with planes := x } = π s) (v t : Nat) : BlindToSlots π v t := ⟨fun s _ _ => htiles s _, fun s _ _ _ => hplanes s _⟩

theorem blindToSlots_mem (v t : Nat) : BlindToSlots (fun s => s.fab) v t := blindToSlots_of_rest (fun _ _ => rfl) (fun _ _ => rfl) v t

theorem blindToSlots_place (v t : Nat) : BlindToSlots (fun s => (s.tile v t).place) v t where
  tile s f hf := by rw [State.onTile_tile_same, hf]
  plane _ _ _ _ := rfl

theorem blindToSlots_planeCtx (p v t : Nat) : BlindToSlots (fun s => (s.plane p).ctx) v t where
  tile _ _ _ := rfl
  plane s q f hf := by
    rw [State.onPlane_plane]
    split
    · next h => rw [hf, h]
    · rfl

/-! ## A bundle without routes -/

/-- The MAC, drain and vector slots of a bundle. -/
def State.dataSlots (s : State) (v t b : Nat) : State := ((s.macSlot v t b).drainStep v t).vectorSlot s v t b

theorem State.dataSlots_kept {α : Type} {π : State → α} {v t : Nat} (h : BlindToSlots π v t) (s : State) (b : Nat) :
    π (s.dataSlots v t b) = π s :=
  (State.vectorSlot_kept h _ s b).trans ((State.drainStep_kept h _).trans (State.macSlot_kept h s b))

/-- The memory slot of a bundle: a load writes its register, a store its bytes. -/
def State.memSlotDone (s src : State) (v t b a n : Nat) : State :=
  if bMmop b = 1 then s.writeReg v t (bMreg b) (leNat (src.bytesAt a n)) (2 ^ (8 * n) - 1)
  else if bMmop b = 2 then (s.clearBad a n).setBytes a (leBytes n (bitsAt (src.tileReg v t (bMreg b)).toNat 0 (8 * n)))
  else s

section
variable {b : Nat}

theorem State.memSlotDone_of_load (h : bMmop b = 1) (s src : State) (v t a n : Nat) :
    s.memSlotDone src v t b a n = s.writeReg v t (bMreg b) (leNat (src.bytesAt a n)) (2 ^ (8 * n) - 1) := if_pos h

theorem State.memSlotDone_of_store (h : bMmop b = 2) (s src : State) (v t a n : Nat) : s.memSlotDone src v t b a n =
    (s.clearBad a n).setBytes a (leBytes n (bitsAt (src.tileReg v t (bMreg b)).toNat 0 (8 * n))) :=
  (if_neg (by omega)).trans (if_pos h)

theorem State.memSlotDone_of_nothing (h : bMmop b = 0) (s src : State) (v t a n : Nat) : s.memSlotDone src v t b a n = s :=
  (if_neg (by omega)).trans (if_neg (by omega))

end

theorem State.storeBytes_kept {α : Type} {π : State → α} (hfab : ∀ s f, π { s with fab := f } = π s) (s : State) (a n : Nat) (l : List Byte) :
    π ((s.clearBad a n).setBytes a l) = π s := by
  rw [State.setBytes_fab]
  exact (hfab _ _).trans (hfab s _)

/-- A store of the low n bytes of a number writes them and no other. -/
theorem State.storeBytes_byteAt (s : State) (a n x : Nat) :
    (∀ i, i < n → (s.setBytes a (leBytes n (bitsAt x 0 (8 * n)))).byteAt (a + i) = BitVec.ofNat 8 (bitsAt x (8 * i) 8)) ∧
    ∀ k, ¬(a ≤ k ∧ k < a + n) → (s.setBytes a (leBytes n (bitsAt x 0 (8 * n)))).byteAt k = s.byteAt k := by
  refine ⟨fun i hi => ?_, fun k hk => ?_⟩
  · rw [State.byteAt_setBytes, leBytes_length, if_pos (by omega), Nat.add_sub_cancel_left, leBytes_getD _ _ _ hi]
    refine BitVec.eq_of_getLsbD_eq fun j hj => ?_
    rw [BitVec.getLsbD_ofNat, BitVec.getLsbD_ofNat, bitsAt, bitsAt, Nat.testBit_div_two_pow, Nat.testBit_mod_two_pow, Nat.testBit_mod_two_pow,
      Nat.testBit_div_two_pow, decide_eq_true (show j + 8 * i < 8 * n by omega), decide_eq_true hj,
      Nat.testBit_div_two_pow]
    rfl
  · rw [State.byteAt_setBytes, leBytes_length, if_neg hk]

theorem State.slots_kept {α : Type} {π : State → α} {v t : Nat} (h : BlindToSlots π v t) (s : State) (b c : Nat) :
    π ((s.settle v t c).dataSlots v t b) = π s := (State.dataSlots_kept h _ b).trans (State.settle_kept h s c)

theorem bMreg_lt (b : Nat) : bMreg b < 512 := Nat.mod_lt _ (by decide)

theorem leNat_bytesAt_lt (s : State) (a n : Nat) : leNat (s.bytesAt a n) < 2 ^ (8 * n) := by
  have h := leNat_lt (s.bytesAt a n)
  rwa [State.bytesAt, List.length_map, List.length_range] at h

/-- The tile goes to its next repeat, bundle or iteration. -/
def State.goOn (s : State) (v t b : Nat) (o : Bool) : State := s.onTile v t fun y => { (y.advance b) with phOvr := y.phOvr || o }

/-- A tile that may issue in its cycle issues its bundle. -/
theorem State.tileIssue_of_ready {s : State} {v t : Nat} (hbusy : (s.tile v t).busy = true) (hmore : (s.tile v t).issuedAll = false)
    (hstart : (s.tile v t).startAt = none) (hfirst : s.isFirst v (s.tile v t).cycle = true) (hgals : (s.plane (s.activePlane v)).gals = false)
    (e : Ecc) : s.tileIssue v t e = s.issueBundle v t e := by
  have hgate : s.islandGate v t = (false, s) := by
    unfold State.islandGate
    dsimp only
    rw [hgals]
    rfl
  unfold State.tileIssue
  dsimp only
  rw [hbusy, hmore, hstart, hfirst, hgate]
  rfl

section
variable {s : State} {v t : Nat}

theorem State.settle_place (s : State) (v t c : Nat) : ((s.settle v t c).tile v t).place = (s.tile v t).place :=
  State.settle_kept (blindToSlots_place v t) s c

theorem Tile.place_inj {x y : Tile} (h : x.place = y.place) : x.entry = y.entry ∧ x.bundle = y.bundle ∧ x.rep = y.rep ∧ x.iter = y.iter ∧
    x.itersLeft = y.itersLeft ∧ x.cycle = y.cycle := by
  simpa only [Tile.place, Prod.mk.injEq] using h

/-- A bundle without routes whose access lies in its window and whose read finds a usable word. -/
theorem State.issueBundle_of_slots {b lo n : Nat} {e : Ecc} (hbundle : (s.tile v t).bundle < 240)
    (hb : b = s.bundleAt (s.activePlane v) t (s.tile v t).bundle) (hroutes : s.activeRoutes (s.activePlane v) t b = [])
    (hslot : (lo, n) = s.memSlot (s.activePlane v) t b (s.tile v t).iter (s.tile v t).rep)
    (hfit : bMmop b = 0 ∨ lo + n ≤ (s.window (s.activePlane v) t).2)
    (hread : (s.settle v t (s.tile v t).cycle).readAll e (State.bundleReads (s.settle v t (s.tile v t).cycle) v (s.activePlane v) t b [] (lo, n)) =
      (none, s.settle v t (s.tile v t).cycle)) :
    s.issueBundle v t e = (State.memSlotDone ((s.settle v t (s.tile v t).cycle).dataSlots v t b) (s.settle v t (s.tile v t).cycle) v t b
      (tileBase v t + (s.window (s.activePlane v) t).1 + lo) n).goOn v t b (s.phaseOverridden v (s.activePlane v) t) := by
  obtain ⟨-, hpb, hpr, hpi, -, -⟩ := Tile.place_inj (s.settle_place v t (s.tile v t).cycle)
  have hbad : (if bMmop b ≠ 0 ∧ (s.window (s.activePlane v) t).2 < lo + n then [lo] else []) = [] := if_neg (by omega)
  unfold State.issueBundle
  dsimp only
  rw [hpb, hpi, hpr, ← hb, hroutes, ← hslot, if_neg (by omega)]
  dsimp only
  rw [hbad, hread]
  rfl

end

/-! ## The parts of the theorem -/

theorem State.tileReg_of_look {s : State} {v t r : Nat} {x : BitVec 1024} (h : Tbl.look none (s.tile v t).regs r = some x) :
    s.tileReg v t r = x := by
  unfold State.tileReg
  rw [h]

theorem State.tileReg_of_eq {a s : State} {v t r : Nat} (h : Tbl.look none (a.tile v t).regs r = Tbl.look none (s.tile v t).regs r)
    (hvats : a.vats = s.vats) : a.tileReg v t r = s.tileReg v t r := by
  unfold State.tileReg
  rw [h, State.vat_of_vats hvats]

theorem State.writeReg_tileReg (s : State) (v t : Nat) {r : Nat} (hr : r < 512) (value mask q : Nat) :
    (s.writeReg v t r value mask).tileReg v t q = if q = r then
      (s.tileReg v t r &&& ~~~BitVec.ofNat 1024 mask) ||| (BitVec.ofNat 1024 value &&& BitVec.ofNat 1024 mask) else s.tileReg v t q := by
  have hlook : Tbl.look none ((s.writeReg v t r value mask).tile v t).regs q = if q = r then
      some ((s.tileReg v t r &&& ~~~BitVec.ofNat 1024 mask) ||| (BitVec.ofNat 1024 value &&& BitVec.ofNat 1024 mask))
      else Tbl.look none (s.tile v t).regs q := by
    rw [State.writeReg, State.onTile_tile_same]
    dsimp only
    rw [Tbl.look_put, Nat.mod_eq_of_lt hr]
  by_cases hq : q = r
  · rw [if_pos hq] at hlook ⊢
    exact State.tileReg_of_look hlook
  · rw [if_neg hq] at hlook ⊢
    exact State.tileReg_of_eq hlook rfl

/-- The bits below n of a masked write are the value's; those from n on stay. -/
theorem maskedWrite_getLsbD (old : BitVec 1024) (x n i : Nat) (hn : n ≤ 1024) :
    ((old &&& ~~~BitVec.ofNat 1024 (2 ^ n - 1)) ||| (BitVec.ofNat 1024 x &&& BitVec.ofNat 1024 (2 ^ n - 1))).getLsbD i =
      if i < n then x.testBit i else old.getLsbD i := by
  by_cases hi : i < 1024
  · have hmask : (BitVec.ofNat 1024 (2 ^ n - 1)).getLsbD i = decide (i < n) := by
      rw [BitVec.getLsbD_ofNat, Nat.testBit_two_pow_sub_one, decide_eq_true hi, Bool.true_and]
    rw [BitVec.getLsbD_or, BitVec.getLsbD_and, BitVec.getLsbD_and, BitVec.getLsbD_not, hmask, BitVec.getLsbD_ofNat, decide_eq_true hi]
    by_cases hin : i < n <;> simp [hin]
  · rw [BitVec.getLsbD_of_ge _ i (by omega), BitVec.getLsbD_of_ge old i (by omega), if_neg (by omega)]

theorem bitsAt_maskedWrite (old : BitVec 1024) (x n : Nat) (hn : n ≤ 1024) (hx : x < 2 ^ n) :
    bitsAt ((old &&& ~~~BitVec.ofNat 1024 (2 ^ n - 1)) ||| (BitVec.ofNat 1024 x &&& BitVec.ofNat 1024 (2 ^ n - 1))).toNat 0 n = x := by
  refine Nat.eq_of_testBit_eq fun i => ?_
  have hbit := maskedWrite_getLsbD old x n i hn
  rw [BitVec.getLsbD] at hbit
  rw [bitsAt, pow_zero, Nat.div_one, Nat.testBit_mod_two_pow, hbit]
  by_cases hi : i < n
  · simp [hi]
  · have hxi : x.testBit i = false := Nat.testBit_lt_two_pow (hx.trans_le (Nat.pow_le_pow_right (by omega) (by omega)))
    simp [hi, hxi]

/-- The length of a bundle's access is at most a register. -/
theorem State.memSlot_length_le {s : State} {p t b iter rep lo n : Nat} (h : (lo, n) = s.memSlot p t b iter rep) : 8 * n ≤ 1024 := by
  have hn : n = 32 * (bLen b + 1) := congrArg Prod.snd h
  have hlen : bLen b < 4 := Nat.mod_lt _ (by decide)
  omega

/-! ## A load -/

theorem State.tileReg_onTile (s : State) (v t : Nat) {f : Tile → Tile} (hf : ∀ y, (f y).regs = y.regs) (r : Nat) :
    (s.onTile v t f).tileReg v t r = s.tileReg v t r := by
  unfold State.tileReg
  rw [State.onTile_tile_same, hf]
  rfl

theorem State.onTile_frame {s a : State} (h : a = { s with tiles := a.tiles }) (v t : Nat) (f : Tile → Tile) :
    a.onTile v t f = { s with tiles := (a.onTile v t f).tiles } := by
  generalize a.tiles = l at h
  subst h
  rfl

/-- A tile without results on their way and without a drain in progress. -/
def Tile.still (x : Tile) : Prop := x.vec = [] ∧ x.mac = [] ∧ x.drains = []

/-- A tile whose lists of results on their way and of drains have been rewritten. -/
def Tile.listed (x : Tile) (vec : List VecPending) (mac : List MacPending) (drains : List Drain) : Tile :=
  { x with vec := vec, mac := mac, drains := drains }

theorem State.settle_of_still {s : State} {v t : Nat} (h : (s.tile v t).still) (c : Nat) :
    ∃ f : Tile → Tile, s.settle v t c = s.onTile v t f ∧ (∀ y, (f y).regs = y.regs) ∧ (f (s.tile v t)).drains = [] := by
  obtain ⟨hvec, hmac, hdrains⟩ := h
  refine ⟨fun y => { y with vec := y.vec.filter fun r => decide (c ≤ r.land), mac := y.mac.filter fun r => decide (c ≤ r.land) },
    ?_, fun _ => rfl, hdrains⟩
  unfold State.settle
  dsimp only
  rw [hvec, hmac]
  rfl

theorem State.dataSlots_of_still {s : State} {v t b : Nat} (hmop : bMop b = 0) (hvop : bVop b = 0) (hdrains : (s.tile v t).drains = []) :
    ∃ f : Tile → Tile, s.dataSlots v t b = s.onTile v t f ∧ ∀ y, (f y).regs = y.regs := by
  refine ⟨fun x => { x with drains := [] }, ?_, fun _ => rfl⟩
  have hmac : s.macSlot v t b = s := by
    unfold State.macSlot
    dsimp only
    rw [if_neg (by omega), if_neg (by omega)]
  have hvec (a : State) : a.vectorSlot s v t b = a := by
    unfold State.vectorSlot
    dsimp only
    rw [if_pos hvop]
  rw [State.dataSlots, hmac, hvec]
  unfold State.drainStep
  rw [hdrains]
  rfl

theorem State.bundleReads_of_load {b : Nat} (h : bMmop b = 1) (s : State) (v p t : Nat) (mem : Nat × Nat) :
    s.bundleReads v p t b [] mem = [(tileBase v t + (s.window p t).1 + mem.1, mem.2)] := by
  unfold State.bundleReads
  dsimp only
  rw [if_pos h]
  rfl

theorem State.bundleReads_of_no_load {b : Nat} (h : bMmop b ≠ 1) (s : State) (v p t : Nat) (mem : Nat × Nat) :
    s.bundleReads v p t b [] mem = [] := by
  unfold State.bundleReads
  dsimp only
  rw [if_neg h]
  rfl

/-- A bundle without routes that loads nothing issues in its slots, whatever the decoder would find. -/
theorem State.tileIssue_of_no_load {s : State} {v t b lo n : Nat} (hbusy : (s.tile v t).busy = true) (hmore : (s.tile v t).issuedAll = false)
    (hstart : (s.tile v t).startAt = none) (hfirst : s.isFirst v (s.tile v t).cycle = true) (hgals : (s.plane (s.activePlane v)).gals = false)
    (hbundle : (s.tile v t).bundle < 240) (hb : b = s.bundleAt (s.activePlane v) t (s.tile v t).bundle)
    (hroutes : s.activeRoutes (s.activePlane v) t b = []) (hmop : bMmop b ≠ 1)
    (hslot : (lo, n) = s.memSlot (s.activePlane v) t b (s.tile v t).iter (s.tile v t).rep)
    (hfit : bMmop b = 0 ∨ lo + n ≤ (s.window (s.activePlane v) t).2) (e : Ecc) :
    s.tileIssue v t e = (State.memSlotDone ((s.settle v t (s.tile v t).cycle).dataSlots v t b) (s.settle v t (s.tile v t).cycle) v t b
      (tileBase v t + (s.window (s.activePlane v) t).1 + lo) n).goOn v t b (s.phaseOverridden v (s.activePlane v) t) := by
  refine (State.tileIssue_of_ready hbusy hmore hstart hfirst hgals e).trans (State.issueBundle_of_slots hbundle hb hroutes hslot hfit ?_)
  rw [State.bundleReads_of_no_load hmop]
  rfl

/-- A clean read of one sound run of words. -/
theorem State.readAll_clean {s : State} {a n : Nat} (h : s.badIn a n = false) : s.readAll .clean [(a, n)] = (none, s) := by
  have hread : s.sramRead a n .clean sideTile = (true, s) := by
    unfold State.sramRead
    rw [h]
    rfl
  unfold State.readAll
  rw [hread]
  rfl

/-! ## Going on -/

theorem Tile.advance_cycle (x : Tile) (b : Nat) : (x.advance b).cycle = x.cycle + 1 := by
  unfold Tile.advance
  dsimp only
  split_ifs <;> rfl

section
variable {x : Tile} {b : Nat}

theorem Tile.advance_of_repeat (h : x.rep < bRepeat b) : x.advance b = { x with cycle := x.cycle + 1, rep := x.rep + 1 } := if_pos h

theorem Tile.advance_of_next (h : bRepeat b ≤ x.rep) (hend : bEnd b = false) :
    x.advance b = { x with cycle := x.cycle + 1, rep := 0, bundle := x.bundle + 1 } :=
  (if_neg (by omega)).trans (if_neg (by simp [hend]))

theorem Tile.advance_of_iteration (h : bRepeat b ≤ x.rep) (hend : bEnd b = true) (hleft : 2 ≤ x.itersLeft) :
    x.advance b = { x with cycle := x.cycle + 1, rep := 0, iter := x.iter + 1, itersLeft := x.itersLeft - 1, bundle := x.entry } :=
  (if_neg (by omega)).trans ((if_pos hend).trans (if_neg (by omega)))

theorem Tile.advance_of_last (h : bRepeat b ≤ x.rep) (hend : bEnd b = true) (hleft : x.itersLeft ≤ 1) :
    x.advance b = { x with cycle := x.cycle + 1, rep := 0, itersLeft := 0, issuedAll := true } :=
  (if_neg (by omega)).trans ((if_pos hend).trans (if_pos hleft))

end

theorem State.goOn_tile (s : State) (v t b : Nat) (o : Bool) :
    ∃ p, (s.goOn v t b o).tile v t = { (s.tile v t).advance b with phOvr := p } := ⟨_, State.onTile_tile_same _ _ _ _⟩

theorem Tile.advance_regs (x : Tile) (b : Nat) : (x.advance b).regs = x.regs := by
  unfold Tile.advance
  dsimp only
  split_ifs <;> rfl

theorem State.goOn_tileReg (s : State) (v t b : Nat) (o : Bool) (r : Nat) : (s.goOn v t b o).tileReg v t r = s.tileReg v t r :=
  State.tileReg_onTile s v t (f := fun y => { (y.advance b) with phOvr := y.phOvr || o }) (fun y => y.advance_regs b) r

/-! ## A fault -/

theorem State.issueBundle_of_outside {s : State} {v t b lo n a : Nat} {e : Ecc} (hb : b = s.bundleAt (s.activePlane v) t (s.tile v t).bundle)
    (hslot : (lo, n) = s.memSlot (s.activePlane v) t b (s.tile v t).iter (s.tile v t).rep)
    (hout : (240 ≤ (s.tile v t).bundle ∧ a = tileBase v t + (s.window (s.activePlane v) t).1) ∨
      ((s.tile v t).bundle < 240 ∧ bMmop b ≠ 0 ∧ (s.window (s.activePlane v) t).2 < lo + n ∧
        a = tileBase v t + (s.window (s.activePlane v) t).1 + lo)) :
    s.issueBundle v t e = (s.settle v t (s.tile v t).cycle).tileFault v t a := by
  obtain ⟨-, hpb, hpr, hpi, -, -⟩ := Tile.place_inj (s.settle_place v t (s.tile v t).cycle)
  unfold State.issueBundle
  dsimp only
  rw [hpb, hpi, hpr, ← hb, ← hslot]
  rcases hout with ⟨hbundle, ha⟩ | ⟨hbundle, hmop, hsize, ha⟩
  · rw [if_pos hbundle, ha]
  · have hbad : (if bMmop b ≠ 0 ∧ (s.window (s.activePlane v) t).2 < lo + n then [lo] else []) = [lo] := if_pos ⟨hmop, hsize⟩
    rw [if_neg (by omega)]
    dsimp only
    rw [hbad, ha]
    rfl

/-- The trap of a tile's fault holds the vat's fault registers, faults the context and keeps memory. -/
theorem State.tileFault_facts {s : State} {v t c : Nat} (hctx : (s.plane (s.activePlane v)).ctx = some c) (hruns : (s.ctx c).state.runs = true)
    (hhandlings : s.err.handlings = []) (a : Nat) :
    ∃ w : State, s.tileFault v t a = w.finish ∧ (w.vat v).causeCode = 28 ∧ (w.vat v).tval = BitVec.ofNat 64 a ∧
      (w.vat v).fault.getLsbD 2 = true ∧ (w.ctx c).state = .faulted ∧ w.fab.mem = s.fab.mem := by
  have h := State.trap_trapped hctx hruns hhandlings 28 (BitVec.ofNat 64 a) 0x0801 []
  refine ⟨_, rfl, ?_, ?_, ?_, h.faulted, h.mem⟩
  · have hcode := h.causeCode
    rw [State.activePlane_div] at hcode
    exact hcode
  · simpa only [State.activePlane_div] using h.tval
  · have hv := congrArg Vat.fault h.vat
    rw [State.activePlane_div] at hv
    rw [hv, Vat.trapped]
    simp

/-! ## The obligation -/

/-- A tile that begins n iterations at bundle e in cycle c for handle h of a context. -/
def Tile.begun (x : Tile) (ctx h e n c : Nat) : Tile :=
  { x with busy := true, issuedAll := false, startAt := none, ctx := BitVec.ofNat 6 ctx, entry := e, bundle := e, rep := 0, iter := 0,
           itersLeft := n, handle := h, cycle := c }

theorem State.tileStart_of_alone {s : State} {v t h e n c : Nat} (hstart : (s.tile v t).startAt = some (h, e, n, c))
    (hfirst : s.isFirst v c = true) (hroutes : s.standing (s.activePlane v) t = []) :
    s.tileStart v t = s.onTile v t fun x => x.begun (((s.plane (s.activePlane v)).ctx).getD 0) h e n c := by
  unfold State.tileStart
  rw [hstart]
  dsimp only
  rw [hfirst, hroutes]
  rfl

theorem State.onTile_tile_of_key {s : State} {v t w u : Nat} (h : 1024 * w + u ≠ 1024 * v + t) (f : Tile → Tile) :
    (s.onTile v t f).tile w u = s.tile w u := (Tbl.look_upd _ _ _ _ _).trans (if_neg h)

end Sys2Proof.Machine

namespace Sys2Proof
section
open Machine

/-- Settles O39, by the one equation of a bundle without routes and the trap's facts. -/
theorem tileBundles : Obligations.TileBundles := by
  unfold Obligations.TileBundles
  refine ⟨?_, ?_, ?_, ?_, ?_, ?_, ?_⟩
  · intro v x s hstart
    have hnone : s.tileStart v.val x.val = s := by
      unfold State.tileStart
      rw [hstart]
    exact congrArg Host.Outcome.next hnone
  · intro v x h e n cyc s hstart hfirst hroutes
    refine ⟨_, congrArg Host.Outcome.next (State.tileStart_of_alone hstart hfirst hroutes), rfl, ?_⟩
    refine ⟨?_, ?_, ?_, ?_, ?_, ?_, ?_, fun r => State.tileReg_onTile s v.val x.val (f := fun y => y.begun _ h e n cyc) (fun _ => rfl) r,
      fun w y hkey => State.onTile_tile_of_key hkey _⟩ <;> rw [State.onTile_tile_same] <;> rfl
  · intro v x e s hidle
    have hstay : s.tileIssue v.val x.val e = s := by
      unfold State.tileIssue
      dsimp only
      rcases hidle with h | h <;> simp [h]
    exact congrArg Host.Outcome.next hstay
  · intro v x e p b lo n s hp hbusy hmore hstart hfirst hgals hbundle hb hroutes hmop hslot hfit
    subst hp
    have hissue := State.tileIssue_of_no_load hbusy hmore hstart hfirst hgals hbundle hb hroutes (by omega) hslot (.inr hfit) e
    rw [State.memSlotDone_of_store hmop] at hissue
    refine ⟨_, congrArg Host.Outcome.next hissue, ?_⟩
    obtain ⟨hat, hother⟩ := State.storeBytes_byteAt (((s.settle v.val x.val (s.tile v.val x.val).cycle).dataSlots v.val x.val b).clearBad
      (tileBase v.val x.val + (s.window (s.activePlane v.val) x.val).1 + lo) n)
      (tileBase v.val x.val + (s.window (s.activePlane v.val) x.val).1 + lo) n
      ((s.settle v.val x.val (s.tile v.val x.val).cycle).tileReg v.val x.val (bMreg b)).toNat
    refine ⟨hat, fun a ha => (hother a ha).trans (State.byteAt_of_mem ?_ a), ?_, ?_⟩
    · rw [State.clearBad_mem]
      exact congrArg Fabric.mem (State.slots_kept (blindToSlots_mem v.val x.val) s b _)
    · exact (State.storeBytes_kept (π := State.ctxs) (fun _ _ => rfl) _ _ _ _).trans
        (State.slots_kept (blindToSlots_of_rest (fun _ _ => rfl) (fun _ _ => rfl) v.val x.val) s b _)
    · exact (State.storeBytes_kept (π := State.vats) (fun _ _ => rfl) _ _ _ _).trans
        (State.slots_kept (blindToSlots_of_rest (fun _ _ => rfl) (fun _ _ => rfl) v.val x.val) s b _)
  · intro v x p b lo n s hp hbusy hmore hstart hfirst hgals hbundle hb hroutes hmop hmac hvop hdrains hvec hpend hslot hfit hbad
    subst hp
    obtain ⟨f, hsettle, hfregs, hfdrains⟩ := State.settle_of_still ⟨hvec, hpend, hdrains⟩ (s.tile v.val x.val).cycle
    have hlen := State.memSlot_length_le hslot
    have hread : (s.settle v.val x.val (s.tile v.val x.val).cycle).readAll .clean
        (State.bundleReads (s.settle v.val x.val (s.tile v.val x.val).cycle) v.val (s.activePlane v.val) x.val b [] (lo, n)) =
        (none, s.settle v.val x.val (s.tile v.val x.val).cycle) := by
      rw [State.bundleReads_of_load hmop, hsettle]
      exact State.readAll_clean hbad
    have hissue := (State.tileIssue_of_ready hbusy hmore hstart hfirst hgals .clean).trans
      (State.issueBundle_of_slots hbundle hb hroutes hslot (.inr hfit) hread)
    obtain ⟨g, hslots, hgregs⟩ := State.dataSlots_of_still (s := s.onTile v.val x.val f) (v := v.val) (t := x.val) hmac hvop
      (by rw [State.onTile_tile_same]; exact hfdrains)
    rw [hsettle, hslots, State.memSlotDone_of_load hmop] at hissue
    refine ⟨_, congrArg Host.Outcome.next hissue, ?_⟩
    have hreg (q : Nat) := (State.goOn_tileReg (State.writeReg ((s.onTile v.val x.val f).onTile v.val x.val g) v.val x.val (bMreg b)
      (leNat (s.bytesAt (tileBase v.val x.val + (s.window (s.activePlane v.val) x.val).1 + lo) n)) (2 ^ (8 * n) - 1)) v.val x.val b
      (s.phaseOverridden v.val (s.activePlane v.val) x.val) q).trans (State.writeReg_tileReg _ v.val x.val (bMreg_lt b) _ _ q)
    have hold (q : Nat) : ((s.onTile v.val x.val f).onTile v.val x.val g).tileReg v.val x.val q = s.tileReg v.val x.val q :=
      (State.tileReg_onTile _ _ _ hgregs q).trans (State.tileReg_onTile _ _ _ hfregs q)
    refine ⟨?_, fun i hi => ?_, fun r _ hr => ?_,
      State.onTile_frame (State.onTile_frame (State.onTile_frame (State.onTile_frame rfl v.val x.val f) _ _ g) _ _ _) _ _ _⟩
    · refine (congrArg (fun y : BitVec 1024 => bitsAt y.toNat 0 (8 * n)) ((hreg _).trans (if_pos rfl))).trans (bitsAt_maskedWrite _ _ _ hlen ?_)
      exact leNat_bytesAt_lt s _ n
    · refine (congrArg (fun y : BitVec 1024 => y.getLsbD i) ((hreg _).trans (if_pos rfl))).trans ?_
      rw [maskedWrite_getLsbD _ _ _ _ hlen, if_neg (by omega), hold]
    · exact (hreg r).trans ((if_neg hr).trans (hold r))
  · intro v x e p b s hp hbusy hmore hstart hfirst hgals hbundle hb hroutes hmop
    subst hp
    have hissue := State.tileIssue_of_no_load hbusy hmore hstart hfirst hgals hbundle hb hroutes (by omega) rfl (.inl hmop) e
    rw [State.memSlotDone_of_nothing hmop] at hissue
    refine ⟨_, congrArg Host.Outcome.next hissue, ?_⟩
    have hplace := State.slots_kept (blindToSlots_place v.val x.val) s b (s.tile v.val x.val).cycle
    have hmem := State.slots_kept (blindToSlots_mem v.val x.val) s b (s.tile v.val x.val).cycle
    generalize (s.settle v.val x.val (s.tile v.val x.val).cycle).dataSlots v.val x.val b = d at hplace hmem ⊢
    obtain ⟨hentry, hpb, hrep, hiter, hleft, hcycle⟩ := Tile.place_inj hplace
    obtain ⟨g, hgo⟩ := d.goOn_tile v.val x.val b (s.phaseOverridden v.val (s.activePlane v.val) x.val)
    rw [hgo, ← hcycle, ← hentry, ← hpb, ← hrep, ← hiter, ← hleft]
    refine ⟨Tile.advance_cycle _ b, fun a => State.byteAt_of_mem (congrArg Fabric.mem hmem) a, fun h => ?_, fun h hend => ?_, fun h hend hl => ?_,
      fun h hend hl => ?_⟩
    · rw [Tile.advance_of_repeat h]
      exact ⟨rfl, rfl⟩
    · rw [Tile.advance_of_next h hend]
      exact ⟨rfl, rfl⟩
    · rw [Tile.advance_of_iteration h hend hl]
      exact ⟨rfl, rfl, rfl⟩
    · rw [Tile.advance_of_last h hend hl]
  · intro v x e p b lo n a c s hp hbusy hmore hstart hfirst hgals hb hslot hctx hrunning hhandlings hout
    subst hp
    have hkept {α : Type} {π : State → α} (h : BlindToSlots π v.val x.val) := State.settle_kept h s (s.tile v.val x.val).cycle
    have hplane : (s.settle v.val x.val (s.tile v.val x.val).cycle).activePlane v.val = s.activePlane v.val :=
      hkept (π := fun a => a.activePlane v.val) (blindToSlots_of_rest (fun _ _ => rfl) (fun _ _ => rfl) _ _)
    obtain ⟨w, hw, hcode, htval, hfault, hstate, hmem⟩ := State.tileFault_facts (t := x.val) (c := c)
      ((congrArg (fun q => (State.plane _ q).ctx) hplane).trans ((hkept (blindToSlots_planeCtx _ _ _)).trans hctx))
      ((hkept (π := fun a => (a.ctx c).state.runs) (blindToSlots_of_rest (fun _ _ => rfl) (fun _ _ => rfl) _ _)).trans (by rw [hrunning]; rfl))
      ((hkept (π := fun a => a.err.handlings) (blindToSlots_of_rest (fun _ _ => rfl) (fun _ _ => rfl) _ _)).trans hhandlings) a
    exact ⟨w, congrArg Host.Outcome.next ((State.tileIssue_of_ready hbusy hmore hstart hfirst hgals e).trans
      ((State.issueBundle_of_outside hb hslot hout).trans hw)), hcode, htval, hfault, hstate,
      hmem.trans (congrArg Fabric.mem (hkept (blindToSlots_mem _ _)))⟩

end
end Sys2Proof
end

section
/-! SUPPORT. O43: scrub, retention and wake of SRAM. -/

namespace Sys2Proof.Machine

/-! ## Owners of SRAM words -/

theorem sramOwner_of_tile {a v : Nat} (hv : v < 32) (hlow : 0x030000000000 + v * 0x20000000 ≤ a)
    (hhigh : a < 0x030000000000 + v * 0x20000000 + 0x20000000) : sramOwner a = (vatPort v, true, unitVat v) := by
  have hix : (a - 0x030000000000) / 0x20000000 = v := by omega
  have hregion : regionOf a = .tile v (a / 0x80000 % 1024) (a % 0x80000) := by
    unfold regionOf
    rw [if_neg (by omega), if_neg (by omega), if_pos (by omega), hix]
  unfold sramOwner
  rw [hregion]

theorem sramOwner_of_cream {a c : Nat} (hc : c < 16) (hlow : 0x020000000000 + c * 0x80000000 ≤ a)
    (hhigh : a < 0x020000000000 + c * 0x80000000 + 0x80000000) : sramOwner a = (c, false, unitCream c) := by
  have hix : (a - 0x020000000000) / 0x80000000 = c := by omega
  have hregion : regionOf a = .cream c (a % 0x80000000) := by
    unfold regionOf
    rw [if_neg (by omega), if_pos (by omega), hix]
  unfold sramOwner
  rw [hregion]

theorem sramOwner_scrubbed_tile {v w : Nat} (hv : v < 32) (hw : w < 2 ^ 24) :
    sramOwner (tileBase v 0 + 32 * w) = (vatPort v, true, unitVat v) := by
  have hbase : tileBase v 0 = 0x030000000000 + v * 0x20000000 := by rw [tileBase, Nat.zero_mul, Nat.add_zero]
  exact sramOwner_of_tile hv (by omega) (by omega)

theorem sramOwner_scrubbed_cream {c w : Nat} (hc : c < 16) (hw : w < 2 ^ 25) :
    sramOwner (creamBase c + 64 * w) = (c, false, unitCream c) := by
  have hbase : creamBase c = 0x020000000000 + c * 0x80000000 := by rw [creamBase]
  exact sramOwner_of_cream hc (by omega) (by omega)

/-! ## Reads -/

section
variable {s : State} {a n : Nat}

theorem State.sramRead_clean (h : s.badIn a n = false) (side : W64) : s.sramRead a n .clean side = (true, s) := by
  unfold State.sramRead
  rw [h]
  rfl

theorem State.sramRead_corrected (h : s.badIn a n = false) (lane : Nat) (side : W64) :
    s.sramRead a n (.corrected lane) side = (true, s.sramCorrected a lane) := by
  unfold State.sramRead
  rw [h]
  rfl

theorem State.sramRead_uncorrectable (s : State) (a n : Nat) (side : W64) : s.sramRead a n .uncorrectable side =
    (false, (if s.badIn a n then s else s.setBad a).sramUncorrectable a side) := by
  unfold State.sramRead
  cases s.badIn a n <;> rfl

end

theorem Tbl.mem_list {α : Type} (t : Tbl α) (k : Nat) (v : α) : (k, v) ∈ Tbl.list t k v := by
  induction t with
  | nil => exact List.mem_cons_self
  | cons e t ih =>
    unfold Tbl.list
    split
    · exact List.mem_cons_self
    · split
      · exact List.mem_cons_self
      · exact List.mem_cons_of_mem _ ih

/-- A lane set bad lies in the word that it begins. -/
theorem State.setBad_badIn {s : State} {a n : Nat} (ha : a % 8 = 0) (hn : 0 < n) : (s.setBad a).badIn a n = true := by
  refine List.any_eq_true.mpr ⟨(a / 8, true), Tbl.mem_list _ _ _, decide_eq_true ?_⟩
  omega

/-- The cream die that counts a tile store's uncorrectable word. -/
def Cream.tileUe (x : Cream) (a : Nat) : Cream := { x with tsUe := bump x.tsUe, lastUe := BitVec.ofNat 64 a }

/-- What an uncorrectable word of a tile store leaves: the count, the record, the bad lanes and memory. -/
theorem State.sramUncorrectable_tile {s : State} {a v : Nat} (ha : sramOwner a = (vatPort v, true, unitVat v)) (side : W64) :
    ∃ t, s.sramUncorrectable a side = t ∧ (t.cream (v / 2)).tsUe = (s.cream (v / 2)).tsUe + 1 ∧
      (t.recordAt s.err.seqNext).code = 0x6002 ∧ t.fab = s.fab := by
  have heq : s.sramUncorrectable a side =
      (s.onCream (v / 2) fun x => x.tileUe a).note 0x6002 .info (unitVat v) [BitVec.ofNat 64 a, side] := by
    unfold State.sramUncorrectable
    rw [ha]
    rfl
  refine ⟨_, heq, ?_, congrArg ErrRec.code (State.note_recordAt (s.onCream (v / 2) fun x => x.tileUe a) _ _ _ _ _), rfl⟩
  rw [State.note_cream, State.onCream_cream_same]
  rfl

/-- A corrected word of a cream die counts at it and is noted. -/
theorem State.sramCorrected_cream {s : State} {a c : Nat} (ha : sramOwner a = (c, false, unitCream c)) (lane : Nat) :
    s.sramCorrected a lane = (s.onCream c fun x => { x with ce := bump x.ce }).note 0x6001 .corrected (unitCream c)
      [BitVec.ofNat 64 a, BitVec.ofNat 64 lane] := by
  unfold State.sramCorrected
  rw [ha]
  rfl

/-- A cream die's scrubber goes to its next word. -/
def Cream.scrubNext (y : Cream) : Cream :=
  if y.scrubAt + 1 = 2 ^ 25 then { y with scrubAt := 0, scrubPass := bump y.scrubPass } else { y with scrubAt := y.scrubAt + 1 }

theorem Cream.scrubNext_ce (y : Cream) : y.scrubNext.ce = y.ce := by
  unfold Cream.scrubNext
  split <;> rfl

theorem Cream.scrubNext_of_within {y : Cream} (h : y.scrubAt < 2 ^ 25 - 1) : y.scrubNext.scrubAt = y.scrubAt + 1 :=
  congrArg Cream.scrubAt (if_neg (by omega))

/-- The state in which an uncorrectable word is reported: its lane is bad there, and little else has changed. -/
theorem State.exists_marked (s : State) {a : Nat} (ha : a % 8 = 0) : ∃ b : State, (if s.badIn a 32 then s else s.setBad a) = b ∧
    b.creams = s.creams ∧ b.err = s.err ∧ b.fab.mem = s.fab.mem ∧ b.badIn a 32 = true := by
  cases h : s.badIn a 32
  · exact ⟨_, rfl, rfl, rfl, rfl, State.setBad_badIn ha (by omega)⟩
  · exact ⟨_, rfl, rfl, rfl, rfl, h⟩

/-! ## Retiring a cream die -/

theorem State.failRequests_cells_kept {α : Type} {π : State → α} (h : BlindToCells π) (hfab : ∀ s x, π { s with fab := x } = π s)
    (s : State) (a b c : Nat → Bool) (f : Assembly → Bool) (all : Bool) : π (s.failRequests a b c f all) = π s :=
  (foldl_kept (fun a _ => State.launchAll_kept h a _) _ _).trans (hfab s _)

theorem State.record_unit_plain {s : State} (h : s.err.handlings = []) (code u : W16) (d : List W64) :
    s.record code .unit u none d = s.announce { code := code, severity := .unit, unit := u, details := d } := by
  unfold State.record
  rw [h]
  rfl

/-- A cream die leaves service, its record written. -/
def State.closeCream (s : State) (c : Nat) : State :=
  let s1 := s.onCream c fun x => { x with mode := .retired, waking := false }
  { s1 with inv := { s1.inv with creamMap := bvSet s1.inv.creamMap c false,
                                 creamRetired := bvSet s1.inv.creamRetired c true } }.failRequests
    (fun _ => false) (· == c) (fun _ => false) (fun _ => false) true

theorem State.closeCream_parts (s : State) (c : Nat) : ((s.closeCream c).creams, (s.closeCream c).inv, (s.closeCream c).err) =
    ((s.onCream c fun x => { x with mode := .retired, waking := false }).creams,
      { s.inv with creamMap := bvSet s.inv.creamMap c false, creamRetired := bvSet s.inv.creamRetired c true }, s.err) := by
  have hblind : BlindToCells fun t : State => (t.creams, t.inv, t.err) := by
    constructor <;> intros <;> rfl
  exact State.failRequests_cells_kept hblind (fun _ _ => rfl) _ _ _ _ _ _

section
variable (s : State) (c : Nat)

theorem State.closeCream_inv : (s.closeCream c).inv =
    { s.inv with creamMap := bvSet s.inv.creamMap c false, creamRetired := bvSet s.inv.creamRetired c true } :=
  congrArg (fun x : Tbl Cream × Inventory × Errors => x.2.1) (s.closeCream_parts c)

theorem State.closeCream_err : (s.closeCream c).err = s.err := congrArg (fun x : Tbl Cream × Inventory × Errors => x.2.2) (s.closeCream_parts c)

theorem State.closeCream_mode : ((s.closeCream c).cream c).mode = .retired := by
  have hcreams := congrArg (fun x : Tbl Cream × Inventory × Errors => (Tbl.look ({} : Cream) x.1 c).mode) (s.closeCream_parts c)
  have hsame := congrArg Cream.mode (s.onCream_cream_same c fun x => { x with mode := .retired, waking := false })
  exact Eq.trans hcreams hsame

end

section
variable {s : State} (h : s.err.handlings = []) (u : W16) (cause : Nat)
include h

theorem State.noteRetired_inv : (s.noteRetired u cause).inv = s.inv := by
  rw [State.noteRetired, State.record_unit_plain h]
  exact State.announce_unit_kept (π := State.inv) ⟨⟨⟨fun _ _ => rfl, fun _ _ => rfl, fun _ _ => rfl, fun _ _ => rfl, fun _ _ => rfl,
    fun _ _ => rfl⟩, fun _ _ => rfl, fun _ _ => rfl⟩, fun _ _ => rfl⟩ (fun _ _ => rfl) s rfl

theorem State.noteRetired_recordAt : ((s.noteRetired u cause).recordAt s.err.seqNext).code = 0x0904 := by
  rw [State.noteRetired, State.record_unit_plain h, State.announce_unit_recordAt_self rfl rfl]

theorem State.noteRetired_todo : (s.noteRetired u cause).err.todo = s.err.todo := by
  rw [State.noteRetired, State.record_unit_plain h]
  exact State.announce_unit_todo s rfl

end

theorem State.recordAt_of_err {s t : State} (h : t.err = s.err) (n : W64) : t.recordAt n = s.recordAt n := by
  unfold State.recordAt
  rw [h]

/-! ## CRM_CTRL -/

/-- CRM_CTRL with its enable and its idle time. -/
def Cream.setRetention (y : Cream) (en : Bool) (idle : Nat) : Cream :=
  let wakes := !en && y.mode == .retention && !y.waking
  { y with retEn := en, retIdle := BitVec.ofNat 16 idle, waking := y.waking || wakes, wakeCnt := if wakes then bump y.wakeCnt else y.wakeCnt }

/-! ## The obligation -/

/-- Settles O43, by what one read of a word, the guards of retention and the retirement of a cream die leave. -/
theorem scrubRetentionAndWake : Obligations.ScrubRetentionAndWake := by
  unfold Obligations.ScrubRetentionAndWake
  refine ⟨?_, ?_, ?_, ?_, ?_, ?_, ?_, ?_, ?_, ?_, ?_, ?_, ?_, ?_⟩
  · intro v s hret hwake hrun hbad
    refine congrArg Host.Outcome.next ?_
    show State.scrub s (.tileStores v) .clean = _
    simp only [State.scrub, hret, hwake, beq_eq_false_iff_ne.mpr hrun, Bool.or_self, Bool.false_eq_true, if_false, State.sramRead_clean hbad]
  · intro c lane s hmode hat hbad
    have hscrub : s.scrub (.cream c) (.corrected lane) =
        (s.sramCorrected (creamBase c.val + 64 * (s.cream c.val).scrubAt) lane).onCream c.val Cream.scrubNext := by
      have hactive : ((s.cream c.val).mode != .active) = false := by simpa using hmode
      simp only [State.scrub, hactive, Bool.false_eq_true, if_false, State.sramRead_corrected hbad]
      rfl
    rw [State.sramCorrected_cream (sramOwner_scrubbed_cream c.isLt (by omega))] at hscrub
    refine ⟨_, congrArg Host.Outcome.next hscrub, rfl, ?_, ?_, ?_, ?_⟩
    · rw [State.onCream_cream_same, State.note_cream, State.onCream_cream_same, Cream.scrubNext_ce]
      rfl
    · rw [State.onCream_cream_same, State.note_cream, State.onCream_cream_same, Cream.scrubNext_of_within (by exact hat)]
    · exact congrArg ErrRec.code (State.note_recordAt (s.onCream c.val fun x => { x with ce := bump x.ce }) _ _ _ _ _)
    · exact congrArg ErrRec.severity (State.note_recordAt (s.onCream c.val fun x => { x with ce := bump x.ce }) _ _ _ _ _)
  · intro v a s hret hwake hrun hat ha
    subst ha
    have howner := sramOwner_scrubbed_tile v.isLt hat
    have hscrub : s.scrub (.tileStores v) .uncorrectable =
        ((if s.badIn (tileBase v.val 0 + 32 * (s.vat v.val).scrubAt) 32 then s
          else s.setBad (tileBase v.val 0 + 32 * (s.vat v.val).scrubAt)).sramUncorrectable (tileBase v.val 0 + 32 * (s.vat v.val).scrubAt) sideScrub).onVat
          v.val fun y => { y with scrubAt := (y.scrubAt + 1) % 2 ^ 24 } := by
      simp only [State.scrub, hret, hwake, beq_eq_false_iff_ne.mpr hrun, Bool.or_self, Bool.false_eq_true, if_false,
        State.sramRead_uncorrectable]
    have halign : (tileBase v.val 0 + 32 * (s.vat v.val).scrubAt) % 8 = 0 := by
      rw [tileBase]
      omega
    generalize tileBase v.val 0 + 32 * (s.vat v.val).scrubAt = a at hscrub howner halign ⊢
    obtain ⟨b, hb, hcreams, herr, hmem, hbad⟩ := s.exists_marked halign
    obtain ⟨t, ht, hcount, hrecord, hfab⟩ := State.sramUncorrectable_tile (s := b) howner sideScrub
    rw [hb, ht] at hscrub
    rw [herr] at hrecord
    have hcream : b.cream (v.val / 2) = s.cream (v.val / 2) := congrArg (fun l : Tbl Cream => Tbl.look {} l (v.val / 2)) hcreams
    rw [hcream] at hcount
    refine ⟨_, congrArg Host.Outcome.next hscrub, hcount, ?_, hrecord, fun x => State.byteAt_of_mem ((congrArg Fabric.mem hfab).trans hmem) x⟩
    unfold State.badIn at hbad ⊢
    rw [← hfab] at hbad
    exact hbad
  · rintro u e s (⟨v, rfl, h⟩ | ⟨c, rfl, h⟩)
    · exact congrArg Host.Outcome.next (if_pos (by rw [h]; rfl))
    · exact congrArg Host.Outcome.next (if_pos (by simpa using h))
  · intro v s hrun hwork hwake
    exact congrArg Host.Outcome.next (if_pos ⟨hrun, by rw [hwork]; rfl, by rw [hwake]; rfl⟩)
  · intro v s h
    refine congrArg Host.Outcome.next (if_neg fun ⟨hrun, hwork, _⟩ => ?_)
    rcases h with h | h
    · exact h hrun
    · rw [h] at hwork
      cases hwork
  · intro c s hmode hret hq
    exact congrArg Host.Outcome.next (if_pos ⟨hmode, hret, by rw [hq]; rfl⟩)
  · intro c s h
    refine congrArg Host.Outcome.next (if_neg fun ⟨_, hret, hq⟩ => ?_)
    rcases h with h | h
    · rw [h] at hret
      cases hret
    · exact h (List.isEmpty_iff.mp hq)
  · intro c s h
    exact congrArg Host.Outcome.next (if_pos h)
  · intro v s hwake hthen
    refine congrArg Host.Outcome.next ?_
    show State.woken s (.tileStores v) = _
    simp only [State.woken, hwake, hthen, Bool.not_true, Bool.false_eq_true, if_false, Option.isSome_none, false_and]
  · intro c s h
    exact congrArg Host.Outcome.next (if_neg (by rw [h]; decide))
  · intro c s h hhandlings htodo
    have hleft : (s.retireCream c.val 6).err.todo = [] :=
      (congrArg Errors.todo ((s.noteRetired (unitCream c.val) 6).closeCream_err c.val)).trans ((State.noteRetired_todo hhandlings _ _).trans htodo)
    have hinv : (s.retireCream c.val 6).inv =
        { s.inv with creamMap := bvSet s.inv.creamMap c.val false, creamRetired := bvSet s.inv.creamRetired c.val true } := by
      refine ((s.noteRetired (unitCream c.val) 6).closeCream_inv c.val).trans ?_
      rw [State.noteRetired_inv hhandlings]
    refine ⟨_, congrArg Host.Outcome.next ((if_pos h).trans (State.finish_of_quiet hleft)),
      (s.noteRetired (unitCream c.val) 6).closeCream_mode c.val, ?_, ?_, ?_, fun b => State.byteAt_of_mem (State.retireCream_mem s c.val 6) b⟩
    · rw [hinv, bvSet_getLsbD _ _ _ _ c.isLt, if_pos rfl]
    · rw [hinv, bvSet_getLsbD _ _ _ _ c.isLt, if_pos rfl]
    · exact (congrArg ErrRec.code (State.recordAt_of_err ((s.noteRetired (unitCream c.val) 6).closeCream_err c.val) _)).trans
        (State.noteRetired_recordAt hhandlings _ _)
  · intro c x s hmode
    have hopen : ((s.cream c.val).mode == .reset || (s.cream c.val).mode == .retired) = false := by rw [hmode]; rfl
    have hwrite : s.writeCrmCtrl c.val x = s.onCream c.val fun y => y.setRetention (x.getLsbD 0) (max 10 (bitsAt x.toNat 16 16)) := by
      unfold State.writeCrmCtrl
      dsimp only
      rw [hopen]
      rfl
    refine ⟨_, congrArg Host.Outcome.next hwrite, rfl, ?_, ?_, ?_, fun d hd => (State.onCream_cream _ _ _ _).trans (if_neg hd)⟩
    · rw [State.onCream_cream_same]
      rfl
    · rw [State.onCream_cream_same]
      refine Nat.mod_eq_of_lt ?_ |>.trans ?_
      · unfold bitsAt
        omega
      · have hx := x.isLt
        unfold bitsAt
        omega
    · rw [State.onCream_cream_same]
      exact hmode
  · intro c x s hmode
    have hclosed : ((s.cream c.val).mode == .reset || (s.cream c.val).mode == .retired) = true := by simpa using hmode
    exact congrArg Host.Outcome.next (if_pos hclosed)

end Sys2Proof.Machine
end

section
/-! SUPPORT. O41: tile arithmetic. -/

namespace Sys2Proof.Machine

/-! ## Lanes -/

/-- The sum of the first n digits of base 2^32. -/
def laneSum (g : Nat → Nat) (n : Nat) : Nat := (List.range n).foldl (fun a i => a + g i % 2 ^ 32 * 2 ^ (32 * i)) 0

theorem laneSum_succ (g : Nat → Nat) (n : Nat) : laneSum g (n + 1) = laneSum g n + g n % 2 ^ 32 * 2 ^ (32 * n) := by
  rw [laneSum, List.range_succ, List.foldl_append]
  rfl

theorem laneSum_lt (g : Nat → Nat) (n : Nat) : laneSum g n < 2 ^ (32 * n) := by
  induction n with
  | zero => exact Nat.one_pos
  | succ n ih =>
    have hdigit : g n % 2 ^ 32 + 1 ≤ 2 ^ 32 := Nat.mod_lt _ (by decide)
    calc laneSum g (n + 1) = laneSum g n + g n % 2 ^ 32 * 2 ^ (32 * n) := laneSum_succ g n
      _ < 2 ^ (32 * n) + g n % 2 ^ 32 * 2 ^ (32 * n) := Nat.add_lt_add_right ih _
      _ = (g n % 2 ^ 32 + 1) * 2 ^ (32 * n) := by rw [Nat.add_mul, Nat.one_mul, Nat.add_comm]
      _ ≤ 2 ^ 32 * 2 ^ (32 * n) := Nat.mul_le_mul_right _ hdigit
      _ = 2 ^ (32 * (n + 1)) := by rw [← pow_add, Nat.mul_succ, Nat.add_comm]

theorem lane_laneSum (g : Nat → Nat) {n i : Nat} (hi : i < n) : lane (laneSum g n) i = g i % 2 ^ 32 := by
  induction n with
  | zero => omega
  | succ n ih =>
    rw [laneSum_succ, lane, bitsAt]
    rcases Nat.lt_succ_iff_lt_or_eq.mp hi with hlt | rfl
    · obtain ⟨d, rfl⟩ : ∃ d, n = i + 1 + d := ⟨n - i - 1, by omega⟩
      have hsplit : 2 ^ (32 * (i + 1 + d)) = 2 ^ (32 * i) * (2 ^ 32 * 2 ^ (32 * d)) := by
        rw [← pow_add, ← pow_add]
        congr 1
        omega
      have hterm : g (i + 1 + d) % 2 ^ 32 * 2 ^ (32 * (i + 1 + d)) = 2 ^ (32 * i) * (2 ^ 32 * (2 ^ (32 * d) * (g (i + 1 + d) % 2 ^ 32))) := by
        rw [hsplit]
        ring
      rw [hterm, Nat.add_mul_div_left _ _ (Nat.two_pow_pos _), Nat.add_mul_mod_self_left]
      exact ih hlt
    · rw [Nat.add_mul_div_right _ _ (Nat.two_pow_pos _), Nat.div_eq_of_lt (laneSum_lt g i), Nat.zero_add, Nat.mod_mod]

/-- Lanes mapped without flags are their digits' sum. -/
theorem mapLanes_of_quiet (g : Nat → Nat) : (mapLanes fun i => (g i, 0)) = (laneSum g 32, 0) := by
  have hfold (l : List Nat) (x : Nat) : l.foldl (fun (a : Nat × Flags) i => (a.1 + g i % 2 ^ 32 * 2 ^ (32 * i), a.2 ||| 0)) (x, 0) =
      (l.foldl (fun a i => a + g i % 2 ^ 32 * 2 ^ (32 * i)) x, 0) := by
    induction l generalizing x with
    | nil => rfl
    | cons i l ih =>
      have hquiet : (0 : Flags) ||| 0 = 0 := rfl
      rw [List.foldl_cons, List.foldl_cons]
      dsimp only
      rw [hquiet]
      exact ih _
  exact hfold _ 0

theorem lane_lt (x i : Nat) : lane x i < 2 ^ 32 := Nat.mod_lt _ (by decide)

/-- An operation whose result is mapped lane by lane without flags. -/
theorem vecResult_lanes {vop rnd vs2 vs3 a b c : Nat} {nosat : Bool} {draw g : Nat → Nat} {f : Nat → Nat → Nat}
    (hres : vecResult vop rnd nosat draw vs2 vs3 a b c = ([(0, (mapLanes fun i => (g i, 0)).1, fullReg)], (mapLanes fun i => (g i, 0)).2))
    (hlane : ∀ i, g i % 2 ^ 32 = f (lane a i) (lane b i)) :
    ∃ r, vecResult vop rnd nosat draw vs2 vs3 a b c = ([(0, r, 2 ^ 1024 - 1)], 0) ∧ r < 2 ^ 1024 ∧
      ∀ i, i < 32 → lane r i = f (lane a i) (lane b i) := by
  have hbits : 32 * 32 = 1024 := rfl
  rw [mapLanes_of_quiet, fullReg] at hres
  exact ⟨laneSum g 32, hres, hbits ▸ laneSum_lt g 32, fun i hi => (lane_laneSum g hi).trans (hlane i)⟩

/-! ## FP32 -/

/-- A finite number whose unit in the last place is its exponent rounds to itself. -/
theorem toFp32_of_exact {neg : Bool} {man : Nat} {exp : Int} (hman : man ≠ 0) (hunit : unitExp 1 man exp = exp)
    (hmag : ((exp + 23 + 127) * 2 ^ 23 + man - 2 ^ 23 : Int).toNat ≤ maxMag 1) :
    toFp32 .rne (.fin neg man exp) = (signedBits 1 neg ((exp + 23 + 127) * 2 ^ 23 + man - 2 ^ 23 : Int).toNat, 0) := by
  have hgrid : roundGrid .rne man exp exp = (man, false) := by
    simp [roundGrid]
  unfold toFp32 toFloat
  split
  · next h => cases h
  · next h => cases h
  · next h =>
    cases h
    exact absurd rfl hman
  · next h =>
    cases h
    dsimp only
    have hlayout : layout 1 = ⟨8, 23, 127⟩ := rfl
    rw [hunit, hgrid, hlayout]
    exact (if_neg (Nat.not_lt.mpr hmag)).trans (Prod.ext rfl (by simp [flagIf]))

/-- The parts of a 32-bit pattern. -/
theorem fp32_parts {x : Nat} (hx : x < 2 ^ 32) :
    x = x % 2 ^ 23 + x / 2 ^ 23 % 2 ^ 8 * 2 ^ 23 + (bitAt x 31).toNat * 2 ^ 31 := by
  have hbit : (bitAt x 31).toNat = x / 2 ^ 31 % 2 := by
    unfold bitAt
    rcases Nat.mod_two_eq_zero_or_one (x / 2 ^ 31) with h | h <;> rw [h] <;> rfl
  rw [hbit]
  omega

theorem signedBits_fp32 (neg : Bool) (mag : Nat) : signedBits 1 neg mag = mag + neg.toNat * 2 ^ 31 := Nat.mul_one _

theorem maxMag_fp32 : maxMag 1 = 255 * 2 ^ 23 - 1 := rfl

theorem unitExp_fp32 (man : Nat) (exp : Int) : unitExp 1 man exp = max (Nat.log2 man + exp) (-126) - 23 := rfl

/-- What an FP32 pattern stands for. -/
theorem ofFp32_eq (x : Nat) : ofFp32 x =
    if x / 2 ^ 23 % 2 ^ 8 + 1 = 256 then (if x % 2 ^ 23 = 0 then .inf (bitAt x 31) else .nan (!bitAt (x % 2 ^ 23) 22))
    else if x / 2 ^ 23 % 2 ^ 8 = 0 then .fin (bitAt x 31) (x % 2 ^ 23) (-149)
    else .fin (bitAt x 31) (2 ^ 23 + x % 2 ^ 23) ((x / 2 ^ 23 % 2 ^ 8 : Nat) - 150) := by
  have hexp : ((x / 2 ^ 23 % 2 ^ 8 : Nat) : Int) - 127 - 23 = (x / 2 ^ 23 % 2 ^ 8 : Nat) - 150 := by omega
  have hcode : ¬ ((1 : Nat) = 5 ∧ x % 128 = 0x7F) := fun h => absurd h.1 (by decide)
  have hieee : (ieeeLike 1 && x / 2 ^ 23 % 2 ^ 8 + 1 == 2 ^ 8) = decide (x / 2 ^ 23 % 2 ^ 8 + 1 = 256) := rfl
  unfold ofFp32 decodeFloat
  show (if (ieeeLike 1 && x / 2 ^ 23 % 2 ^ 8 + 1 == 2 ^ 8) = true then _ else if (1 : Nat) = 5 ∧ x % 128 = 0x7F then _ else _) = _
  rw [hieee, if_neg hcode, ← hexp]
  by_cases htop : x / 2 ^ 23 % 2 ^ 8 + 1 = 256
  · rw [if_pos (decide_eq_true htop), if_pos htop]
    rfl
  · rw [if_neg (by simpa using htop), if_neg htop]
    rfl

/-- An FP32 number rounds to itself. -/
theorem toFp32_ofFp32 {x : Nat} (hx : x < 2 ^ 32) (hnan : (ofFp32 x).isNan = false) : toFp32 .rne (ofFp32 x) = (x, 0) := by
  have hparts := fp32_parts hx
  have hexp : x / 2 ^ 23 % 2 ^ 8 < 256 := Nat.mod_lt _ (by decide)
  have hsig : x % 2 ^ 23 < 2 ^ 23 := Nat.mod_lt _ (by decide)
  rw [ofFp32_eq] at hnan ⊢
  generalize x / 2 ^ 23 % 2 ^ 8 = e at *
  generalize x % 2 ^ 23 = f at *
  by_cases htop : e + 1 = 256
  · rw [if_pos htop] at hnan ⊢
    by_cases hinf : f = 0
    · rw [if_pos hinf]
      have hround : toFp32 .rne (.inf (bitAt x 31)) = (signedBits 1 (bitAt x 31) (infBits 1), 0) := rfl
      have hbits : infBits 1 = 255 * 2 ^ 23 := rfl
      rw [hround, signedBits_fp32, hbits]
      refine Prod.ext ?_ rfl
      dsimp only
      omega
    · rw [if_neg hinf] at hnan
      cases hnan
  · rw [if_neg htop]
    by_cases hsub : e = 0
    · rw [if_pos hsub]
      rcases Nat.eq_zero_or_pos f with rfl | hpos
      · have hround : toFp32 .rne (.fin (bitAt x 31) 0 (-149)) = (signedBits 1 (bitAt x 31) 0, 0) := rfl
        rw [hround, signedBits_fp32]
        refine Prod.ext ?_ rfl
        dsimp only
        omega
      · have hlog : Nat.log2 f < 23 := (Nat.log2_lt (by omega)).mpr hsig
        have hunit : unitExp 1 f (-149) = -149 := by
          rw [unitExp_fp32]
          omega
        rw [toFp32_of_exact (by omega) hunit (by rw [maxMag_fp32]; omega), signedBits_fp32]
        refine Prod.ext ?_ rfl
        dsimp only
        omega
    · rw [if_neg hsub]
      have hlog : Nat.log2 (2 ^ 23 + f) = 23 := (Nat.log2_eq_iff (by omega)).mpr ⟨by omega, by omega⟩
      have hunit : unitExp 1 (2 ^ 23 + f) ((e : Int) - 150) = (e : Int) - 150 := by
        rw [unitExp_fp32, hlog]
        omega
      rw [toFp32_of_exact (by omega) hunit (by rw [maxMag_fp32]; omega), signedBits_fp32]
      refine Prod.ext ?_ rfl
      dsimp only
      omega

/-! ## INT32 accumulation -/

theorem signed_eight_natAbs_le (x : Nat) : (signed 8 x).natAbs ≤ 128 := by
  unfold signed
  have hx : x % 2 ^ 8 < 256 := Nat.mod_lt _ (by decide)
  split <;> omega

/-- The product of two integers as numbers. -/
theorem numOfInt_mul (x y : Int) : ∃ neg, (numOfInt x).mul (numOfInt y) = (.fin neg (x * y).natAbs 0, 0) ∧
    (if neg then -((x * y).natAbs : Int) else (x * y).natAbs) = x * y := by
  refine ⟨decide (x < 0) != decide (y < 0), ?_, ?_⟩
  · rw [Int.natAbs_mul]
    rfl
  · rcases lt_or_ge x 0 with hx | hx <;> rcases lt_or_ge y 0 with hy | hy
    · rw [decide_eq_true hx, decide_eq_true hy]
      exact Int.natAbs_of_nonneg (Int.mul_nonneg_of_nonpos_of_nonpos hx.le hy.le)
    · rw [decide_eq_true hx, decide_eq_false (not_lt.mpr hy)]
      exact Int.neg_eq_comm.mp (Int.ofNat_natAbs_of_nonpos (Int.mul_nonpos_of_nonpos_of_nonneg hx.le hy)).symm
    · rw [decide_eq_false (not_lt.mpr hx), decide_eq_true hy]
      exact Int.neg_eq_comm.mp (Int.ofNat_natAbs_of_nonpos (Int.mul_nonpos_of_nonneg_of_nonpos hx hy.le)).symm
    · rw [decide_eq_false (not_lt.mpr hx), decide_eq_false (not_lt.mpr hy)]
      exact Int.natAbs_of_nonneg (Int.mul_nonneg hx hy)

theorem fixedUnits_of_integer {neg : Bool} {n : Nat} (h : n < 2 ^ 127) :
    fixedUnits 0 (2 ^ 127) (.fin neg n 0) = (if neg then -(n : Int) else n, 0) := by
  have hgrid : roundGrid .rtz n 0 (-((0 : Nat) : Int)) = (n, false) := by
    simp [roundGrid]
  unfold fixedUnits
  dsimp only
  rw [hgrid]
  dsimp only
  rw [if_neg (Nat.not_le.mpr h), decide_eq_false (Nat.not_le.mpr h)]
  rfl

section
variable {q : MacPending} (hscale : macBscale q.mode = false) (ha : macFmtA q.mode = 10) (hb : macFmtB q.mode = 10)

/-- The product of two INT8 elements of a repeat. -/
def int8Product (q : MacPending) (kDim m n k : Nat) : Int :=
  signed 8 (elemAt 10 q.a.toNat (m * kDim + k)) * signed 8 (elemAt 10 q.b.toNat (n * kDim + k))

include ha hb in
theorem macProduct_of_int8 (kDim m n k : Nat) : macProduct q kDim m n k =
    (numOfInt (signed 8 (elemAt 10 q.a.toNat (m * kDim + k)))).mul (numOfInt (signed 8 (elemAt 10 q.b.toNat (n * kDim + k)))) := by
  unfold macProduct
  dsimp only
  rw [ha, hb, if_neg (by decide), if_neg (by decide)]
  dsimp only [decodeElem]
  rw [if_pos rfl, if_pos rfl]
  exact Prod.ext rfl BitVec.zero_or

include ha hb in
/-- A product of INT8 elements is cut to itself, without a flag. -/
theorem fixedUnits_of_int8 (kDim m n k : Nat) : fixedUnits 0 (2 ^ 127) ((macProduct q kDim m n k).1.scale 0) = (int8Product q kDim m n k, 0) ∧
    (macProduct q kDim m n k).2 = 0 := by
  obtain ⟨neg, hmul, hsign⟩ := numOfInt_mul (signed 8 (elemAt 10 q.a.toNat (m * kDim + k))) (signed 8 (elemAt 10 q.b.toNat (n * kDim + k)))
  rw [macProduct_of_int8 ha hb, hmul]
  refine ⟨?_, rfl⟩
  have hsmall : (signed 8 (elemAt 10 q.a.toNat (m * kDim + k)) * signed 8 (elemAt 10 q.b.toNat (n * kDim + k))).natAbs < 2 ^ 127 := by
    rw [Int.natAbs_mul]
    exact (Nat.mul_le_mul (signed_eight_natAbs_le _) (signed_eight_natAbs_le _)).trans_lt (by decide)
  exact (fixedUnits_of_integer hsmall).trans (congrArg (fun z : Int => (z, (0 : Flags))) hsign)

end

theorem foldl_or_zero {α : Type} (g : α → Flags) (l : List α) (f : Flags) (h : ∀ x ∈ l, g x = 0) : l.foldl (fun f x => f ||| g x) f = f := by
  induction l generalizing f with
  | nil => rfl
  | cons x l ih =>
    have hquiet : f ||| (0 : Flags) = f := BitVec.or_zero
    rw [List.foldl_cons, h x List.mem_cons_self, hquiet]
    exact ih f fun y hy => h y (List.mem_cons_of_mem _ hy)

/-- An entry of an INT32 set after a repeat of INT8 products. -/
theorem macEntry_of_int8 {q : MacPending} (hacc : macAcc q.mode = accINT32) (hscale : macBscale q.mode = false) (ha : macFmtA q.mode = 10)
    (hb : macFmtB q.mode = 10) (kDim m n : Nat) (old : BitVec 128) (tag : AccTag) : macEntry q kDim m n old tag =
      ((BitVec.ofNat 128 (unsigned 32 ((List.range kDim).foldl (fun z k => z + int8Product q kDim m n k) (signed 32 old.toNat))), .none),
        flagIf (decide (signed 32 (unsigned 32 ((List.range kDim).foldl (fun z k => z + int8Product q kDim m n k) (signed 32 old.toNat))) ≠
          (List.range kDim).foldl (fun z k => z + int8Product q kDim m n k) (signed 32 old.toNat))) fOF) := by
  have hexp : macExponent q m n = some 0 := by
    unfold macExponent
    rw [hscale]
    rfl
  have hparts : ((((List.range kDim).map fun k => macProduct q kDim m n k).map fun p => p.1.scale 0).map fun p => fixedUnits 0 (2 ^ 127) p) =
      (List.range kDim).map fun k => (int8Product q kDim m n k, 0) := by
    rw [List.map_map, List.map_map]
    exact List.map_congr_left fun k _ => (fixedUnits_of_int8 ha hb kDim m n k).1
  have hquiet : ((List.range kDim).map fun k => macProduct q kDim m n k).foldl (fun f p => f ||| p.2) (flagIf false fMXNAN) = 0 := by
    refine foldl_or_zero _ _ _ fun p hp => ?_
    obtain ⟨k, -, rfl⟩ := List.mem_map.mp hp
    exact (fixedUnits_of_int8 ha hb kDim m n k).2
  have hsum (z : Int) : ((List.range kDim).map fun k => (int8Product q kDim m n k, (0 : Flags))).foldl (fun a p => a + p.1) z =
      (List.range kDim).foldl (fun z k => z + int8Product q kDim m n k) z := List.foldl_map
  have hflags (f : Flags) : ((List.range kDim).map fun k => (int8Product q kDim m n k, (0 : Flags))).foldl (fun f p => f ||| p.2) f = f := by
    refine foldl_or_zero _ _ _ fun p hp => ?_
    obtain ⟨k, -, rfl⟩ := List.mem_map.mp hp
    rfl
  unfold macEntry
  dsimp only
  rw [hexp, hscale, hacc, if_neg (by decide), if_neg (by decide), if_pos rfl]
  dsimp only [Option.isNone_some, Bool.false_eq_true]
  simp only [Bool.false_eq_true, if_false]
  rw [hparts, hquiet, hsum, hflags]
  exact congrArg (Prod.mk _) BitVec.zero_or

/-- The 32-bit pattern of an integer reads back as the integer exactly where it fits. -/
theorem signed_unsigned_iff (z : Int) : signed 32 (unsigned 32 z) = z ↔ -2 ^ 31 ≤ z ∧ z < 2 ^ 31 := by
  unfold signed unsigned
  have hmod : 0 ≤ z % ((2 ^ 32 : Nat) : Int) := Int.emod_nonneg _ (by decide)
  have hlt : z % ((2 ^ 32 : Nat) : Int) < ((2 ^ 32 : Nat) : Int) := Int.emod_lt_of_pos _ (by decide)
  split <;> omega

/-- Settles O41: lanes are digits, FP32 patterns round to themselves, and an INT8 product sum is exact before it wraps. -/
theorem tileArithmetic : Obligations.TileArithmetic := by
  unfold Obligations.TileArithmetic
  refine ⟨?_, fun x hx hnan => toFp32_ofFp32 hx hnan, ?_⟩
  · intro vop rnd vs2 vs3 a b c nosat draw f h
    rcases h with ⟨rfl, hf⟩ | ⟨rfl, hf⟩ | ⟨rfl, hf⟩ | ⟨rfl, hf⟩ | ⟨rfl, hf⟩ | ⟨rfl, hf⟩ | ⟨rfl, hf⟩ | ⟨rfl, hf⟩ <;> rw [hf]
    · exact vecResult_lanes (f := fun x y => (x + y) % 2 ^ 32) (g := fun i => lane a i + lane b i) rfl fun _ =>
        rfl
    · exact vecResult_lanes (f := fun x y => (x + 2 ^ 32 - y) % 2 ^ 32) (g := fun i => lane a i + (2 ^ 32 - lane b i)) rfl fun i =>
        congrArg (· % 2 ^ 32) (Nat.add_sub_assoc (lane_lt b i).le _).symm
    · exact vecResult_lanes (f := fun x y => x * y % 2 ^ 32) (g := fun i => lane a i * lane b i) rfl fun _ =>
        rfl
    · exact vecResult_lanes (f := fun x y => x &&& y) (g := fun i => lane a i &&& lane b i) rfl fun i =>
        Nat.mod_eq_of_lt (Nat.and_lt_two_pow _ (lane_lt b i))
    · exact vecResult_lanes (f := fun x y => x ||| y) (g := fun i => lane a i ||| lane b i) rfl fun i =>
        Nat.mod_eq_of_lt (Nat.or_lt_two_pow (lane_lt a i) (lane_lt b i))
    · exact vecResult_lanes (f := fun x y => x ^^^ y) (g := fun i => lane a i ^^^ lane b i) rfl fun i =>
        Nat.mod_eq_of_lt (Nat.xor_lt_two_pow (lane_lt a i) (lane_lt b i))
    · exact vecResult_lanes (f := fun x y => x * 2 ^ (y % 32) % 2 ^ 32) (g := fun i => lane a i * 2 ^ (lane b i % 32)) rfl fun _ =>
        rfl
    · exact vecResult_lanes (f := fun x y => x / 2 ^ (y % 32)) (g := fun i => lane a i / 2 ^ (lane b i % 32)) rfl fun i =>
        Nat.mod_eq_of_lt ((Nat.div_le_self _ _).trans_lt (lane_lt a i))
  · intro q kDim m n old tag sum hacc hscale ha hb hsum
    have hwrap : flagIf (decide (signed 32 (unsigned 32 sum) ≠ sum)) fOF = if -2 ^ 31 ≤ sum ∧ sum < 2 ^ 31 then 0 else fOF := by
      by_cases h : -2 ^ 31 ≤ sum ∧ sum < 2 ^ 31
      · rw [if_pos h, (signed_unsigned_iff sum).mpr h]
        simp [flagIf]
      · rw [if_neg h, decide_eq_true (mt (signed_unsigned_iff sum).mp h)]
        rfl
    rw [macEntry_of_int8 hacc hscale ha hb, ← hwrap, hsum]
    rfl

end Sys2Proof.Machine
end

section
/-! SUPPORT. O44: culture loads. -/

namespace Sys2Proof.Machine

/-! ## A load of one target -/

/-- A load's only target with its result. -/
def Load.ended (l : Load) (g : LoadTarget) (r : LoadResult) : Load := { l with targets := [{ g with result := some r }] }

section
variable {s : State} {l : Load} {g : LoadTarget}

/-- A load whose only target has its result is answered and forgotten. -/
theorem State.finishLoads_of_ended {r : LoadResult} (h : s.loads = [l.ended g r]) : s.finishLoads =
    State.reply { s with loads := [] } l.src l.req 0x0010 (if r.code = 0 then stOK else stResults) r.wire := by
  have hcode : (r.code == 0) = decide (r.code = 0) := rfl
  unfold State.finishLoads
  rw [h]
  simp only [Load.ended, List.filter_cons, List.all_cons, Option.isSome_some, List.all_nil, Bool.and_true, Bool.not_true, Bool.false_eq_true,
    if_false, if_true, List.filter_nil, List.foldl_cons, List.foldl_nil, List.map_cons, List.map_nil, Option.getD_some, List.flatMap_cons,
    List.flatMap_nil, List.append_nil, hcode, decide_eq_true_eq]

/-- A load whose only target has no result yet waits. -/
theorem State.finishLoads_of_waiting (h : s.loads = [l]) (ht : l.targets = [g]) (hg : g.result = none) : s.finishLoads = s := by
  have hwaits : (l.targets.all fun t => t.result.isSome) = false := by simp [ht, hg]
  unfold State.finishLoads
  rw [h]
  simp only [List.filter_cons, hwaits, Bool.not_false, if_true, Bool.false_eq_true, if_false, List.filter_nil, List.foldl_nil]
  rw [← h]

theorem State.failTargets_of_one (h : s.loads = [l]) (ht : l.targets = [g]) (hg : g.result = none) {f : LoadTarget → Bool} (hf : f g = true)
    (r : LoadResult) : s.failTargets l.id f r = { s.noteRefused g r with loads := [l.ended g r] } := by
  have hmap : ([l].map fun x => if x.id = l.id then
      { x with targets := x.targets.map fun t => if (t.result.isNone && f t) = true then { t with result := some r } else t } else x) =
      [l.ended g r] := by
    simp [Load.ended, ht, hg, hf]
  have hnote (a : State) : (a.noteRefused g r).loads = a.loads := rfl
  unfold State.failTargets
  rw [h, List.find?_cons_of_pos (by simp)]
  simp only [ht, List.filter_cons, hg, hf, Option.isNone_none, Bool.and_self, if_true, List.filter_nil, List.foldl_cons, List.foldl_nil, hnote, h]
  rw [← hmap]

end

/-- What the answer of an ended load to a session leaves. -/
theorem State.finishLoads_facts {s : State} {l : Load} {g : LoadTarget} {r : LoadResult} {k : Fin 8} (h : s.loads = [l.ended g r])
    (hsrc : l.src = .session k) : s.finishLoads = { s with loads := [], kcp := s.finishLoads.kcp, eth := s.finishLoads.eth } ∧
      s.finishLoads.repliedWith k.val l.req 0x0010 (if r.code = 0 then stOK else stResults) r.wire := by
  rw [State.finishLoads_of_ended h, hsrc]
  exact ⟨State.reply_session_eq _ _ _ _ _ _ _, State.reply_repliedWith _ _ _ _ _ _ _⟩

/-- The refusal of a load's only target, and its answer to a session. -/
theorem State.refused_facts {s : State} {l : Load} {g : LoadTarget} {r : LoadResult} {k : Fin 8}
    (hsrc : l.src = .session k) : ∃ t, State.finishLoads { s.noteRefused g r with loads := [l.ended g r] } = t ∧ t.loads = [] ∧
      (t.recordAt s.err.seqNext).code = 0x0909 ∧ t.ctxs = s.ctxs ∧ t.planes = s.planes ∧ t.fab = s.fab ∧
      t.repliedWith k.val l.req 0x0010 (if r.code = 0 then stOK else stResults) r.wire := by
  obtain ⟨heq, hreply⟩ := State.finishLoads_facts (s := { s.noteRefused g r with loads := [l.ended g r] }) rfl hsrc
  generalize State.finishLoads { s.noteRefused g r with loads := [l.ended g r] } = t at heq hreply ⊢
  refine ⟨t, rfl, ?_, ?_, ?_, ?_, ?_, hreply⟩
  · exact congrArg State.loads heq
  · exact (congrArg (fun a : State => (a.recordAt s.err.seqNext).code) heq).trans (congrArg ErrRec.code (s.note_recordAt _ _ _ _ _))
  · exact (congrArg State.ctxs heq :)
  · exact (congrArg State.planes heq :)
  · exact (congrArg State.fab heq :)

/-! ## COMMIT -/

/-- The context that a commit leaves LOADED. -/
def Ctx.committed (c : Ctx) (l : Load) (img : Image) (g : LoadTarget) (now : W64) : Ctx :=
  { c with state := .loaded, vat := BitVec.ofNat 5 g.vat, plane := g.plane, resident := true, digest := l.digest,
           shift := BitVec.ofNat 4 l.shift, galsBit := (planeOf img g.ctx l.shift).gals, commitTime := now, plans := imagePlans img,
           matrices := imageMatrices img }

theorem planeOf_ctx (img : Image) (c shift : Nat) : (planeOf img c shift).ctx = some c := by
  unfold planeOf
  split <;> rfl

theorem State.loadMem_kept {α : Type} {π : State → α} (hfab : ∀ s f, π { s with fab := f } = π s) (s : State) (img : Image) (v : Nat) (p : Plane) :
    π (s.loadMem img v p) = π s := by
  unfold State.loadMem
  split
  · refine foldl_kept (π := π) (fun a r => ?_) _ s
    exact State.storeBytes_kept hfab a _ _ _
  · rfl

section
variable (s : State) (l : Load) (img : Image) (g : LoadTarget)

theorem State.commitTarget_planes : (s.commitTarget l img g).planes =
    (s.onPlane (planeIx g.vat g.plane) fun _ => planeOf img g.ctx l.shift).planes := by
  have hrest : ((s.onPlane (planeIx g.vat g.plane) fun _ => planeOf img g.ctx l.shift).loadMem img g.vat (planeOf img g.ctx l.shift)).planes =
      (s.onPlane (planeIx g.vat g.plane) fun _ => planeOf img g.ctx l.shift).planes :=
    State.loadMem_kept (π := State.planes) (fun _ _ => rfl) _ img g.vat _
  unfold State.commitTarget
  dsimp only
  generalize State.loadMem _ img g.vat _ = a at hrest ⊢
  exact hrest

theorem State.commitTarget_ctxs : (s.commitTarget l img g).ctxs = (s.onCtx g.ctx fun c => c.committed l img g s.clk.now).ctxs := by
  have hrest : ((s.onPlane (planeIx g.vat g.plane) fun _ => planeOf img g.ctx l.shift).loadMem img g.vat (planeOf img g.ctx l.shift)).ctxs = s.ctxs :=
    State.loadMem_kept (π := State.ctxs) (fun _ _ => rfl) _ img g.vat _
  unfold State.commitTarget
  dsimp only
  generalize State.loadMem _ img g.vat _ = a at hrest ⊢
  unfold State.onCtx
  dsimp only
  rw [hrest]
  rfl

theorem State.commitTarget_loads : (s.commitTarget l img g).loads = s.loads := by
  have hrest : ((s.onPlane (planeIx g.vat g.plane) fun _ => planeOf img g.ctx l.shift).loadMem img g.vat (planeOf img g.ctx l.shift)).loads =
      s.loads := State.loadMem_kept (π := State.loads) (fun _ _ => rfl) _ img g.vat _
  unfold State.commitTarget
  dsimp only
  generalize State.loadMem _ img g.vat _ = a at hrest ⊢
  exact hrest

end

/-! ## Acceptance -/

/-- The operands of a load in range, as the monitor of R135 has them. -/
theorem State.execCultureLoad_of_one {s : State} {sh v c : Byte} (hstandby : s.svc.standby = false) (hdrain : s.svc.draining = false)
    (hsh : sh.toNat ≤ 15) (hv : v.toNat < 32) (hc : c.toNat < 64) (src : KcpSrc) (req : W32) (im : W64) :
    exec (.cultureLoad src req im sh [(v, c)]) s = .next (s.acceptLoad src req im sh.toNat [(v, c)]) := by
  refine congrArg Host.Outcome.next ((if_neg (by rw [hstandby, hdrain]; decide)).trans (if_neg ?_))
  simp [Nat.not_lt.mpr hsh, Nat.not_le.mpr hv, Nat.not_le.mpr hc]

theorem State.execCultureLoad_of_bad {s : State} {sh : Byte} {ts : List (Byte × Byte)} (hstandby : s.svc.standby = false)
    (hdrain : s.svc.draining = false) (hbad : ts = [] ∨ 32 < ts.length ∨ 15 < sh.toNat ∨ ∃ x ∈ ts, 32 ≤ x.1.toNat ∨ 64 ≤ x.2.toNat) (src : KcpSrc)
    (req : W32) (im : W64) : exec (.cultureLoad src req im sh ts) s = .next (s.reply src req 0x0010 stRange []) := by
  refine congrArg Host.Outcome.next ((if_neg (by rw [hstandby, hdrain]; decide)).trans (if_pos ?_))
  simpa [or_assoc] using hbad

/-- The load that an acceptance begins, with one target. -/
def State.newLoad (s : State) (src : KcpSrc) (req : W32) (im : W64) (shift : Nat) (v c : Byte) : Load :=
  { id := s.nextLoad, src := src, req := req, image := im, shift := shift,
    targets := [{ vat := v.toNat, ctx := c.toNat, plane := !(s.vat v.toNat).plane, result := s.refuseTarget [(v, c)] (v, c) }] }

section
variable {s : State} {v c : Byte} (hloads : s.loads = []) (src : KcpSrc) (req : W32) (im : W64) (shift : Nat)
include hloads

theorem State.acceptLoad_of_refused {r : LoadResult} (h : s.refuseTarget [(v, c)] (v, c) = some r) :
    s.acceptLoad src req im shift [(v, c)] = State.finishLoads
      { s.noteRefused ⟨v.toNat, c.toNat, !(s.vat v.toNat).plane, some r⟩ r with
        loads := [s.newLoad src req im shift v c], nextLoad := s.nextLoad + 1 } := by
  have hnote (g : LoadTarget) : (s.noteRefused g r).loads = [] := hloads
  unfold State.acceptLoad State.newLoad
  simp only [List.map_cons, List.map_nil, List.foldl_cons, List.foldl_nil, h, hnote, List.nil_append]
  rfl

theorem State.acceptLoad_of_accepted (h : s.refuseTarget [(v, c)] (v, c) = none) :
    s.acceptLoad src req im shift [(v, c)] =
      { s.ungate v.toNat with loads := [s.newLoad src req im shift v c], nextLoad := (s.ungate v.toNat).nextLoad + 1 } := by
  have hungate : (s.ungate v.toNat).loads = [] := by
    unfold State.ungate
    split
    · split <;> exact hloads
    · exact hloads
  unfold State.acceptLoad
  simp only [List.map_cons, List.map_nil, List.foldl_cons, List.foldl_nil, h, hungate, List.nil_append]
  refine (State.finishLoads_of_waiting (g := ⟨v.toNat, c.toNat, !(s.vat v.toNat).plane, none⟩) rfl rfl rfl).trans ?_
  simp only [State.newLoad, h]

end

theorem State.ungate_frame (s : State) (v : Nat) : s.ungate v = { s with vats := (s.ungate v).vats } := by
  unfold State.ungate
  split
  · split <;> rfl
  · rfl

/-! ## CHECK and STREAM -/

section
variable {s : State} {l : Load} (h : s.loads = [l])
include h

theorem State.exec_loadCheck_of_one (hstreaming : l.streaming = false) :
    exec (.loadCheckComplete l.id) s = .next (s.checkLoad l (s.image l.image.toNat)).finishLoads := by
  refine congrArg Host.Outcome.next ?_
  rw [h, List.find?_cons_of_pos (by simp [hstreaming])]

theorem State.exec_loadStream_of_one (hstreaming : l.streaming = true) :
    exec (.loadStreamComplete l.id) s = .next (s.streamLoad l (s.image l.image.toNat)).finishLoads := by
  refine congrArg Host.Outcome.next ?_
  rw [h, List.find?_cons_of_pos (by simp [hstreaming])]

end

/-- A load whose image is unchanged commits its only target while its context is FREE. -/
theorem State.streamLoad_of_unchanged {s : State} {l : Load} {g : LoadTarget} {img : Image} (h : s.loads = [l]) (ht : l.targets = [g])
    (hg : g.result = none) (hdigest : imageDigest img = l.digest) (hfree : (s.ctx g.ctx).state = .free) :
    s.streamLoad l img = { s.commitTarget l img g with loads := [l.ended g {}] } := by
  have hfilter : [g].filter (fun t => t.result.isNone) = [g] := List.filter_eq_self.mpr (by simp [hg])
  have hmap : [l].map (fun x => if x.id = l.id then
      { x with targets := x.targets.map fun y => if (y == g) = true then { y with result := some {} } else y } else x) = [l.ended g {}] := by
    simp [Load.ended, ht]
  unfold State.streamLoad
  rw [if_neg (by simp [hdigest]), ht, hfilter, List.foldl_cons, List.foldl_nil, if_pos hfree]
  dsimp only
  rw [State.commitTarget_loads, h, hmap]

/-! ## The obligation -/

/-- Settles O44, by the answer that ends a load of one target. -/
theorem cultureLoads : Obligations.CultureLoads := by
  unfold Obligations.CultureLoads
  refine ⟨?_, ?_, ?_, ?_, ?_, ?_, ?_, ?_⟩
  case refine_1 =>
    intro k req im sh ts s hstandby
    exact ⟨_, congrArg Host.Outcome.next (if_pos (by rw [hstandby]; rfl)), State.reply_session_eq _ _ _ _ _ _ _,
      State.reply_repliedWith _ _ _ _ _ _ _⟩
  case refine_2 =>
    intro k req im sh ts s hstandby hdrain hbad
    exact ⟨_, State.execCultureLoad_of_bad hstandby hdrain hbad _ _ _, State.reply_session_eq _ _ _ _ _ _ _,
      State.reply_repliedWith _ _ _ _ _ _ _⟩
  case refine_3 =>
    intro k req im sh v c s hstandby hdrain hsh hv hc hused hloads
    have hrefuse : s.refuseTarget [(v, c)] (v, c) = some { code := 16 } := if_pos (.inl (by simpa using hused))
    have hend : s.newLoad (.session k) req im sh.toNat v c = Load.ended (s.newLoad (.session k) req im sh.toNat v c)
        ⟨v.toNat, c.toNat, !(s.vat v.toNat).plane, some { code := 16 }⟩ { code := 16 } := by
      rw [State.newLoad, hrefuse]
      rfl
    have haccept := State.acceptLoad_of_refused hloads (.session k) req im sh.toNat hrefuse
    rw [hend] at haccept
    obtain ⟨t, ht, hl, hrec, hctxs, -, hfab, hreply⟩ := State.refused_facts (s := { s with nextLoad := s.nextLoad + 1 })
      (l := s.newLoad (.session k) req im sh.toNat v c) (g := ⟨v.toNat, c.toNat, !(s.vat v.toNat).plane, some { code := 16 }⟩)
      (r := { code := 16 }) (k := k) rfl
    exact ⟨t, (State.execCultureLoad_of_one hstandby hdrain hsh hv hc _ _ _).trans (congrArg Host.Outcome.next (haccept.trans ht)), hreply, hl,
      hrec, hctxs, hfab⟩
  case refine_4 =>
    intro k req im sh v c s hstandby hdrain hsh hv hc haccept hloads
    refine ⟨_, s.newLoad (.session k) req im sh.toNat v c, (State.execCultureLoad_of_one hstandby hdrain hsh hv hc _ _ _).trans
      (congrArg Host.Outcome.next (State.acceptLoad_of_accepted hloads (.session k) req im sh.toNat haccept)), ?_, rfl, rfl, rfl, ?_⟩
    · rw [s.ungate_frame v.toNat]
    · rw [State.newLoad, haccept]
  case refine_5 =>
    intro n s hloads
    exact ⟨congrArg Host.Outcome.next (by rw [hloads]; rfl), congrArg Host.Outcome.next (by rw [hloads]; rfl)⟩
  case refine_6 =>
    intro k l g r s hloads hstreaming hsrc htargets hg hcheck
    have hfail : s.checkLoad l (s.image l.image.toNat) = { s.noteRefused g r with loads := [l.ended g r] } := by
      unfold State.checkLoad
      rw [hcheck]
      exact State.failTargets_of_one hloads htargets hg rfl r
    obtain ⟨t, ht, hl, -, hctxs, hplanes, hfab, hreply⟩ := State.refused_facts (s := s) (g := g) (r := r) hsrc
    exact ⟨t, (State.exec_loadCheck_of_one hloads hstreaming).trans (congrArg Host.Outcome.next ((congrArg State.finishLoads hfail).trans ht)), hl,
      hctxs, hplanes, hfab, hreply⟩
  case refine_7 =>
    intro k l g s hloads hstreaming hsrc htargets hg hdigest
    have hfail : s.streamLoad l (s.image l.image.toNat) = { s.noteRefused g { code := 18 } with loads := [l.ended g { code := 18 }] } := by
      unfold State.streamLoad
      rw [if_pos hdigest]
      exact State.failTargets_of_one hloads htargets hg rfl _
    obtain ⟨t, ht, hl, -, hctxs, hplanes, hfab, hreply⟩ := State.refused_facts (s := s) (g := g) (r := { code := 18 }) hsrc
    exact ⟨t, (State.exec_loadStream_of_one hloads hstreaming).trans (congrArg Host.Outcome.next ((congrArg State.finishLoads hfail).trans ht)), hl,
      hctxs, hplanes, hfab, hreply⟩
  case refine_8 =>
    intro k l g s hloads hstreaming hsrc htargets hg hdigest hfree hvat
    obtain ⟨heq, hreply⟩ := State.finishLoads_facts (s := { s.commitTarget l (s.image l.image.toNat) g with loads := [l.ended g {}] }) rfl hsrc
    have hstream := State.streamLoad_of_unchanged hloads htargets hg hdigest hfree
    refine ⟨_, (State.exec_loadStream_of_one hloads hstreaming).trans (congrArg (fun a => Host.Outcome.next (State.finishLoads a)) hstream), ?_⟩
    have hctxs := s.commitTarget_ctxs l (s.image l.image.toNat) g
    have hplanes := s.commitTarget_planes l (s.image l.image.toNat) g
    generalize s.commitTarget l (s.image l.image.toNat) g = b at heq hreply hctxs hplanes ⊢
    generalize State.finishLoads { b with loads := [l.ended g {}] } = t at heq hreply ⊢
    have hctx (d : Nat) : t.ctx d = (s.onCtx g.ctx fun c => c.committed l (s.image l.image.toNat) g s.clk.now).ctx d :=
      State.ctx_of_ctxs ((congrArg State.ctxs heq).trans hctxs) d
    have hplane (p : Nat) : t.plane p = (s.onPlane (planeIx g.vat g.plane) fun _ => planeOf (s.image l.image.toNat) g.ctx l.shift).plane p :=
      State.plane_of_planes ((congrArg State.planes heq).trans hplanes) p
    have hnew := (hctx g.ctx).trans (State.onCtx_ctx_same s g.ctx _)
    refine ⟨congrArg State.loads heq, ?_, ?_, ?_, ?_, ?_, ?_, ?_, fun p hp => ?_, fun d hd => ?_, hreply⟩
    · rw [hnew]; rfl
    · rw [hnew]
      exact Nat.mod_eq_of_lt hvat
    · rw [hnew]; rfl
    · rw [hnew]; rfl
    · rw [hnew]; rfl
    · rw [hnew]; rfl
    · rw [hplane, State.onPlane_plane_same, planeOf_ctx]
    · rw [hplane, State.onPlane_plane, if_neg hp]
    · rw [hctx, State.onCtx_ctx, if_neg hd]

end Sys2Proof.Machine
end

section
/-! SUPPORT. O48: the ring loops. -/

namespace Sys2Proof.Machine

/-! ## Rings, records and remedies -/

@[simp] theorem State.ringNote_ring (s : State) (code : W16) (e : Nat) (d : List Nat) (sev : Severity) (k : Nat) :
    (s.ringNote code e d sev).ring k = s.ring k := rfl

theorem State.onRing_ring_ne (s : State) {e k : Nat} (h : k ≠ e) (f : Ring → Ring) : (s.onRing e f).ring k = s.ring k :=
  (State.onRing_ring s e k f).trans (if_neg h)

/-- Only the ring table and its counters, and the ring of records, may differ. -/
def State.ringsOnly (s t : State) : Prop := t = { s with rings := t.rings, err := t.err }

theorem State.ringsOnly_rings (s : State) (r : Rings) : s.ringsOnly { s with rings := r } := rfl

theorem State.ringsOnly_onRing {s t : State} (h : s.ringsOnly t) (e : Nat) (f : Ring → Ring) : s.ringsOnly (t.onRing e f) := by
  unfold State.ringsOnly at h ⊢
  generalize t.rings = r, t.err = x at h
  subst h
  rfl

theorem State.ringsOnly_note {s t : State} (h : s.ringsOnly t) (code : W16) (e : Nat) (d : List Nat) (sev : Severity) :
    s.ringsOnly (t.ringNote code e d sev) := by
  unfold State.ringsOnly at h ⊢
  generalize t.rings = r, t.err = x at h
  subst h
  rfl

/-- The code of a ring's record, under the number that it takes. -/
theorem State.ringNote_recordAt (s : State) (code : W16) (e : Nat) (d : List Nat) (sev : Severity) :
    ((s.ringNote code e d sev).recordAt s.err.seqNext).code = code ∧ ((s.ringNote code e d sev).recordAt s.err.seqNext).severity = sev :=
  ⟨congrArg ErrRec.code (s.note_recordAt _ _ _ _ _), congrArg ErrRec.severity (s.note_recordAt _ _ _ _ _)⟩

theorem State.ringNote_seqNext (s : State) (code : W16) (e : Nat) (d : List Nat) (sev : Severity) :
    (s.ringNote code e d sev).err.seqNext = s.err.seqNext + 1 := rfl

/-- A ring's record leaves the record before it. -/
theorem State.ringNote_recordAt_before (s : State) (n : W64) (hn : s.err.seqNext = n + 1) (code : W16) (e : Nat) (d : List Nat) (sev : Severity) :
    (s.ringNote code e d sev).recordAt n = s.recordAt n := by
  refine Tbl.look_put_ne _ _ _ _ _ ?_
  rw [hn]
  exact slot_ne_next n

/-! ## Twins -/

theorem twinOf_ne {e : Nat} (h : e % 3 ≠ 2) : twinOf e ≠ e := by
  unfold twinOf
  omega

/-- A twin that takes over from a ring. -/
def Ring.takeOver (x r : Ring) : Ring :=
  { x with chan := r.chan, kind := r.kind, pilot := r.pilot, state := .acquire, step := .fullAcquisition, dac := 0 }

/-- The remedy of a guide ring whose twin is COLD: the twin takes over, and the ring retires. -/
theorem State.remedy_of_twin {s : State} {e : Nat} (he : e < guideEnd) (h3 : e % 3 ≠ 2) (hcold : (s.ring (twinOf e)).state = .cold)
    (hkind : (s.ring (twinOf e)).kind = kindTWIN) : s.remedy e =
      ((s.onRing (twinOf e) fun x => x.takeOver (s.ring e)).onRing e Ring.retire).ringNote 0x0D02 e [1, twinOf e] := by
  have hguide : ¬ arrayBase ≤ e := by
    unfold guideEnd at he
    unfold arrayBase
    omega
  unfold State.remedy
  dsimp only
  rw [if_neg hguide, if_pos ⟨twinOf_ne h3, hcold, hkind⟩]
  rfl

/-- What the remedy by a twin leaves. -/
theorem State.remedy_of_twin_facts {s : State} {e : Nat} (he : e < guideEnd) (h3 : e % 3 ≠ 2) (hcold : (s.ring (twinOf e)).state = .cold)
    (hkind : (s.ring (twinOf e)).kind = kindTWIN) :
    (s.remedy e).ring e = (s.ring e).retire ∧ (s.remedy e).ring (twinOf e) = (s.ring (twinOf e)).takeOver (s.ring e) ∧
      ∀ k, k ≠ e → k ≠ twinOf e → (s.remedy e).ring k = s.ring k := by
  have hne := twinOf_ne h3
  rw [State.remedy_of_twin he h3 hcold hkind]
  refine ⟨?_, ?_, fun k hk ht => ?_⟩
  · rw [State.ringNote_ring, State.onRing_ring_same, State.onRing_ring_ne _ hne.symm]
  · rw [State.ringNote_ring, State.onRing_ring_ne _ hne, State.onRing_ring_same]
  · rw [State.ringNote_ring, State.onRing_ring_ne _ hk, State.onRing_ring_ne _ ht]

/-- A ring of the weight arrays has no remedy here. -/
theorem State.remedy_of_array (s : State) {e : Nat} (he : arrayBase ≤ e) : s.remedy e = s := if_pos he

/-- A ring in FAULT. -/
def Ring.faulted (r : Ring) : Ring := { r with state := .fault, step := .none, verifying := false }

theorem State.enterFault_ring (s : State) (e : Nat) : (s.enterFault e .none).ring e = (s.ring e).faulted := s.onRing_ring_same e Ring.faulted

theorem State.enterFault_ring_ne (s : State) {e k : Nat} (h : k ≠ e) : (s.enterFault e .none).ring k = s.ring k :=
  State.onRing_ring_ne s h Ring.faulted

/-- The state of a ring's fault, counted and recorded, before its remedy. -/
def State.faultSeen (s : State) (e : Nat) (cause : RingCause) : State := (s.enterFault e .none).ringNote 0x0D03 e [RingCause.code cause]

theorem State.ringsOnly_faultSeen (s : State) (e : Nat) (cause : RingCause) : s.ringsOnly (s.faultSeen e cause) := rfl

theorem State.faultSeen_faultCnt (s : State) (e : Nat) (cause : RingCause) : (s.faultSeen e cause).rings.faultCnt = s.rings.faultCnt + 1 := rfl

theorem State.faultSeen_ring (s : State) (e : Nat) (cause : RingCause) : (s.faultSeen e cause).ring e = (s.ring e).faulted := s.enterFault_ring e

theorem State.faultSeen_ring_ne (s : State) {e k : Nat} (h : k ≠ e) (cause : RingCause) : (s.faultSeen e cause).ring k = s.ring k :=
  s.enterFault_ring_ne h

theorem State.faultSeen_record (s : State) (e : Nat) (cause : RingCause) : ((s.faultSeen e cause).recordAt s.err.seqNext).code = 0x0D03 ∧
    (s.faultSeen e cause).err.seqNext = s.err.seqNext + 1 :=
  ⟨(State.ringNote_recordAt (s.enterFault e .none) 0x0D03 e _ _).1, rfl⟩

/-! ## Mislocks -/

/-- A ring that starts the sequence of R276 after a mislock. -/
def Ring.mislocked (x : Ring) (now : W64) (recent : List W64) : Ring :=
  { x with state := .acquire, step := .coldReset, verifying := false, mislocks := now :: recent }

/-- The state of a mislock, counted and recorded. -/
def State.mislockSeen (s : State) (e found : Nat) : State :=
  { s with rings := { s.rings with mislockCnt := bump s.rings.mislockCnt } }.ringNote 0x0D01 e [(s.ring e).pilot.toNat, found]

theorem State.mislock_of_first {s : State} {e : Nat} (h : (s.ring e).mislocks = []) (found : Nat) :
    s.mislock e found = (s.mislockSeen e found).onRing e fun x => x.mislocked s.clk.now [] := by
  unfold State.mislock
  dsimp only
  rw [h]
  rfl

theorem State.mislock_of_third {s : State} {e : Nat} {x y : W64} (h : (s.ring e).mislocks = [x, y]) (hy : s.time ≤ y.toNat + 3600000000000)
    (hx : s.time ≤ x.toNat + 3600000000000) (found : Nat) : s.mislock e found = (s.mislockSeen e found).takeOut e := by
  have hrecent : [x, y].filter (fun t => decide (s.time ≤ t.toNat + 3600000000000)) = [x, y] :=
    List.filter_eq_self.mpr (by simp [hx, hy])
  unfold State.mislock
  dsimp only
  rw [h, hrecent]
  rfl

/-- A ring taken out of service, before its remedy. -/
def Ring.out (x : Ring) : Ring := { x with state := .fault, step := .none, verifying := false, mislocks := [] }

theorem State.takeOut_of_twin {s : State} {e : Nat} (he : e < guideEnd) (h3 : e % 3 ≠ 2) (hcold : (s.ring (twinOf e)).state = .cold)
    (hkind : (s.ring (twinOf e)).kind = kindTWIN) : s.takeOut e = (s.onRing e Ring.out).remedy e ∧ (s.takeOut e).ring e = (s.ring e).out.retire ∧
      (s.takeOut e).ring (twinOf e) = (s.ring (twinOf e)).takeOver (s.ring e).out ∧
      ∀ k, k ≠ e → k ≠ twinOf e → (s.takeOut e).ring k = s.ring k := by
  have hne := twinOf_ne h3
  have htwin : (s.onRing e Ring.out).ring (twinOf e) = s.ring (twinOf e) := State.onRing_ring_ne s hne _
  obtain ⟨hself, hother, hrest⟩ := State.remedy_of_twin_facts (s := s.onRing e Ring.out) he h3 (by rw [htwin]; exact hcold)
    (by rw [htwin]; exact hkind)
  rw [State.onRing_ring_same] at hself hother
  rw [htwin] at hother
  have hout : s.takeOut e = (s.onRing e Ring.out).remedy e := by
    refine if_neg ?_
    show ¬ (((s.onRing e Ring.out).remedy e).ring e).state = .fault
    rw [hself]
    exact RingState.noConfusion
  rw [hout]
  exact ⟨rfl, hself, hother, fun k hk ht => (hrest k hk ht).trans (State.onRing_ring_ne s hk _)⟩

/-! ## Calibration -/

/-- The ring that a passed window calibrates. -/
def Ring.calibrated (r : Ring) (temp : Int) (frame : Nat) : Ring :=
  { r with state := .locked, step := .none, verifying := false, lockDac := r.dac, lockTemp := temp,
           calCount := if r.calCount.toNat = 65535 then r.calCount else r.calCount + 1, lastCalFrame := BitVec.ofNat 48 frame }

theorem State.calibrate_ring (s : State) (e : Nat) :
    (s.calibrate e).ring e = (s.ring e).calibrated (s.fieldEst16 (ringField e)) s.boundaryNow :=
  State.onRing_ring_same s e fun r => r.calibrated (s.fieldEst16 (ringField e)) s.boundaryNow

theorem State.calibrate_ring_ne (s : State) {e k : Nat} (h : k ≠ e) : (s.calibrate e).ring k = s.ring k :=
  State.onRing_ring_ne s h fun r => r.calibrated (s.fieldEst16 (ringField e)) s.boundaryNow

theorem State.calibrate_frame (s : State) (e : Nat) : s.calibrate e = { s with rings := (s.calibrate e).rings } := rfl

theorem State.calibrate_calCnt (s : State) (e : Nat) : (s.calibrate e).rings.calCnt = s.rings.calCnt + 1 := rfl

/-! ## Full acquisition -/

/-- The least of the codes from b on. -/
theorem foldl_min_some (l : List Nat) (b : Nat) :
    l.foldl (fun (b : Option Nat) c => match b with
      | none => some c
      | some x => some (min x c)) (some b) = some (l.foldl min b) := by
  induction l generalizing b with
  | nil => rfl
  | cons c l ih => exact ih _

theorem foldl_min_eq {l : List Nat} {b c : Nat} (hc : c = b ∨ c ∈ l) (hb : c ≤ b) (hl : ∀ x ∈ l, c ≤ x) : l.foldl min b = c := by
  induction l generalizing b with
  | nil => simpa [eq_comm] using hc
  | cons x l ih =>
    have hx := hl x List.mem_cons_self
    refine ih ?_ (by omega) fun y hy => hl y (List.mem_cons_of_mem _ hy)
    rcases hc with rfl | hc
    · exact .inl (by omega)
    · rcases List.mem_cons.mp hc with rfl | hc
      · exact .inl (by omega)
      · exact .inr hc

/-- A dip in range whose window shows the tone. -/
def goodDip (pilot : Nat) (d : Dip) : Bool := decide (4096 ≤ d.code ∧ d.code ≤ 65535) && toneOk pilot d.amps

theorem chooseDip_of_lowest {pilot : Nat} {dips : List Dip} {d : Dip} (hd : d ∈ dips) (hgood : goodDip pilot d = true)
    (hlow : ∀ x ∈ dips, goodDip pilot x = true → d.code ≤ x.code) : chooseDip pilot dips = some d.code := by
  have hmem : d.code ∈ (dips.filter (goodDip pilot)).map Dip.code := List.mem_map.mpr ⟨d, List.mem_filter.mpr ⟨hd, hgood⟩, rfl⟩
  have hall : ∀ c ∈ (dips.filter (goodDip pilot)).map Dip.code, d.code ≤ c := by
    intro c hc
    obtain ⟨x, hx, rfl⟩ := List.mem_map.mp hc
    exact hlow x (List.mem_filter.mp hx).1 (List.mem_filter.mp hx).2
  show List.foldl _ none ((dips.filter (goodDip pilot)).map Dip.code) = _
  generalize (dips.filter (goodDip pilot)).map Dip.code = l at hmem hall
  cases l with
  | nil => cases hmem
  | cons c l =>
    refine (foldl_min_some l c).trans (congrArg some (foldl_min_eq ?_ (hall c List.mem_cons_self) fun x hx => hall x (List.mem_cons_of_mem _ hx)))
    exact List.mem_cons.mp hmem

/-- Where the parked code of a ring stands after its acquisition. -/
def State.ringParked (s : State) (e : Nat) (dips : List Dip) : State :=
  match parkCode dips with
  | some c => s.onRing e fun x => { x with park := BitVec.ofNat 16 c }
  | none => s

theorem State.acquired_of_dip {s : State} {e c : Nat} {dips : List Dip} (hstep : (s.ring e).step = .fullAcquisition)
    (hchoose : chooseDip (s.ring e).pilot.toNat dips = some c) :
    s.acquired e dips = ((s.ringParked e dips).onRing e fun x => { x with dac := BitVec.ofNat 16 c }).calibrate e := by
  unfold State.acquired
  dsimp only
  rw [if_neg (not_not.mpr hstep), hchoose]
  rfl

theorem State.ringParked_facts (s : State) (e : Nat) (dips : List Dip) : s.ringParked e dips = { s with rings := (s.ringParked e dips).rings } ∧
    (s.ringParked e dips).rings.calCnt = s.rings.calCnt ∧ ∀ k, k ≠ e → (s.ringParked e dips).ring k = s.ring k := by
  unfold State.ringParked
  split
  · exact ⟨rfl, rfl, fun k hk => State.onRing_ring_ne s hk _⟩
  · exact ⟨rfl, rfl, fun _ _ => rfl⟩

/-! ## The step of a boundary -/

theorem compensation_of_nil (e : Nat) (r : Ring) : compensation [] e r = 0 := by
  have hterm (a : Int) (k : Nat) : (let c := bitsAt r.nbr.toNat (4 * k) 4
      if c = 0 then a else a + signed 16 (bitsAt r.coef.toNat (16 * k) 16) * Tbl.look 0 ([] : Tbl Int) (ringNeighbour e c)) = a := by
    dsimp only
    split
    · rfl
    · rw [Tbl.look, mul_zero, add_zero]
  unfold compensation
  simp only [hterm]
  have hzero : (List.range 8).foldl (fun (a : Int) _ => a) 0 = 0 := by
    induction (List.range 8) with
    | nil => rfl
    | cons _ _ ih => exact ih
  rw [hzero]
  rfl

/-- The correction of a locked ring without its neighbours' steps lies within 64 codes. -/
theorem ringStep_locked_within (est : Nat → Int) (loop : Tbl Int) (e : Nat) {r : Ring} (h : r.state = .locked) :
    (ringStep est loop [] e r).1.dac.toNat ≤ r.dac.toNat + 64 ∧ r.dac.toNat ≤ (ringStep est loop [] e r).1.dac.toNat + 64 := by
  have hmoves : r.moves = true := by
    unfold Ring.moves
    rw [h]
    rfl
  have hrequest (now l : Int) : r.request now l = max (-64) (min 64 l) := by
    unfold Ring.request
    rw [h]
  have hdac := r.dac.isLt
  have hcode (d : Int) : (ringStep est loop [] e r).1.dac.toNat =
      (max 0 (min 65535 ((r.dac.toNat : Int) + max (-64) (min 64 (Tbl.look 0 loop e))))).toNat := by
    have hsmall : (max 0 (min 65535 ((r.dac.toNat : Int) + max (-64) (min 64 (Tbl.look 0 loop e))))).toNat < 2 ^ 16 := by omega
    have hadvance (now : Int) (c : Nat) : (r.advance now c).dac = BitVec.ofNat 16 c := by
      unfold Ring.advance
      rw [h]
    unfold ringStep
    rw [hmoves, compensation_of_nil]
    dsimp only
    rw [hrequest, sub_zero, if_neg (by decide)]
    split
    · exact Nat.mod_eq_of_lt hsmall
    · rw [hadvance]
      exact Nat.mod_eq_of_lt hsmall
  rw [hcode 0]
  omega

/-! ## The estimate of a field -/

theorem State.checkDisagree_facts (s : State) (f : Nat) : (s.checkDisagree f).rings = s.rings ∧ (s.checkDisagree f).err.todo = s.err.todo ∧
    (s.checkDisagree f).thm.sensors = s.thm.sensors := by
  unfold State.checkDisagree
  dsimp only
  split
  · split <;> exact ⟨rfl, rfl, rfl⟩
  · split <;> exact ⟨rfl, rfl, rfl⟩

theorem State.checkBlind_of_seeing {s : State} {r : Nat} (h : s.brokenCount r < 2) :
    s.checkBlind r = { s with thm := { s.thm with blind := s.thm.blind.filter (· ≠ r) } } := if_neg (by omega)

/-- A field with a valid estimate and no broken sensor is not blind. -/
theorem State.brokenCount_field {s : State} {f : Nat} (hf : f < 30) (hbroken : s.brokenIn (48 + f) = 0)
    (hvalid : (Tbl.look {} s.rings.est f).valid = true) : s.brokenCount (48 + f) = 0 := by
  have hix : 48 + f - 48 = f := by omega
  unfold State.brokenCount
  rw [if_pos (by omega), hix, State.fieldBroken, hbroken, hvalid]
  rfl

theorem State.brokenIn_of_sensors {s t : State} (h : t.thm.sensors = s.thm.sensors) (r : Nat) : t.brokenIn r = s.brokenIn r := by
  unfold State.brokenIn
  rw [h]

/-- The field estimate that n locked rings give. -/
def FieldEst.renewed (x : FieldEst) (temp : W16) (n : Nat) : FieldEst :=
  { x with temp := temp, valid := decide (32 ≤ n), rings := BitVec.ofNat 16 n }

/-- What a new estimate leaves of the rings, while no sensor of the field is broken. -/
theorem State.estimate_rings {s : State} {f n : Nat} (hf : f < 30) (hbuilt : s.rings.built = true) (hbroken : s.brokenIn (48 + f) = 0)
    (hn : n = (s.rings.table.filter fun e => e.2.state == .locked && e.2.kind.toNat ≤ 2 && ringField e.1 == f).length) (h32 : 32 ≤ n)
    (htodo : s.err.todo = []) : ∃ x, (s.estimate f).rings =
      { s.rings with est := Tbl.put {} s.rings.est f ((Tbl.look {} s.rings.est f).renewed x n) } := by
  have hlen : ((s.rings.table.filter fun e => e.2.state == .locked && e.2.kind.toNat ≤ 2 && ringField e.1 == f).map Prod.snd).length = n := by
    rw [List.length_map, hn]
  unfold State.estimate
  rw [hbuilt]
  dsimp only
  rw [hlen]
  have hrecord : ((Tbl.look {} s.rings.est f).valid && !decide (32 ≤ n)) = false := by rw [decide_eq_true h32, Bool.not_true, Bool.and_false]
  rw [hrecord]
  have hkeep (a : State) (w : Int)
      (hrings : a.rings = { s.rings with est := Tbl.put {} s.rings.est f ((Tbl.look {} s.rings.est f).renewed (BitVec.ofNat 16 (unsigned 16 w)) n) })
      (hsensors : a.thm.sensors = s.thm.sensors)
      (ha : a.err.todo = []) : (((a.checkDisagree f).checkBlind (48 + f)).finish).rings = { s.rings with
        est := Tbl.put {} s.rings.est f ((Tbl.look {} s.rings.est f).renewed (BitVec.ofNat 16 (unsigned 16 w)) n) } := by
    obtain ⟨hr, ht, hs⟩ := a.checkDisagree_facts f
    have hvalid : (Tbl.look {} (a.checkDisagree f).rings.est f).valid = true := by
      rw [hr, hrings, Tbl.look_put_same]
      exact decide_eq_true h32
    have hseeing := State.brokenCount_field (s := a.checkDisagree f) hf
      ((State.brokenIn_of_sensors (hs.trans hsensors) _).trans hbroken) hvalid
    rw [State.checkBlind_of_seeing (by omega), State.finish_of_quiet (by exact ht.trans ha)]
    exact hr.trans hrings
  exact ⟨_, hkeep _ _ rfl rfl htodo⟩

/-! ## The obligation -/

/-- Settles O48, by the rings that each event names and the twin that takes over. -/
theorem ringLoops : Obligations.RingLoops := by
  unfold Obligations.RingLoops
  refine ⟨?_, ?_, ?_, ?_, ?_, ?_, ?_, ?_, ?_, ?_, ?_, ?_, ?_, ?_, ?_, fun est loop e r h => ringStep_locked_within est loop e h⟩
  case refine_1 =>
    intro e amps s hlocked hverify hok
    refine congrArg Host.Outcome.next ?_
    unfold State.windowEnds
    dsimp only
    rw [hlocked, hok, hverify]
    rfl
  case refine_2 =>
    intro e amps s hstate hok
    have hwindow : s.windowEnds e.val amps = s.calibrate e.val := by
      unfold State.windowEnds
      dsimp only
      rw [hstate, hok]
      rfl
    refine ⟨_, congrArg Host.Outcome.next hwindow, s.calibrate_frame e.val, ?_, ?_, s.calibrate_calCnt e.val, ?_,
      fun k hk => s.calibrate_ring_ne hk⟩
    · rw [State.calibrate_ring]; rfl
    · rw [State.calibrate_ring]; rfl
    · rw [State.calibrate_ring]
      have hmax : (s.ring e.val).calCount.toNat = 65535 ↔ (s.ring e.val).calCount = 65535 :=
        ⟨fun h => BitVec.eq_of_toNat_eq h, fun h => by rw [h]; rfl⟩
      by_cases h : (s.ring e.val).calCount = 65535
      · rw [if_pos h]
        exact (if_pos (hmax.mpr h)).trans h
      · rw [if_neg h]
        exact if_neg (mt hmax.mp h)
  case refine_3 =>
    intro e amps s hstate hmislocks hbad
    have hwindow : s.windowEnds e.val amps = s.mislock e.val (toneFound amps) := by
      unfold State.windowEnds
      dsimp only
      rcases List.mem_cons.mp hstate with h | h
      · rw [h, hbad]
        rfl
      · rw [List.mem_singleton.mp h, hbad]
        rfl
    rw [State.mislock_of_first hmislocks] at hwindow
    have hnote := State.ringNote_recordAt { s with rings := { s.rings with mislockCnt := bump s.rings.mislockCnt } } 0x0D01 e.val
      [(s.ring e.val).pilot.toNat, toneFound amps] .corrected
    refine ⟨_, congrArg Host.Outcome.next hwindow, State.ringsOnly_onRing (State.ringsOnly_note (s.ringsOnly_rings _) _ _ _ _) _ _, rfl, ?_, ?_, ?_, hnote.1, hnote.2,
      fun k hk => State.onRing_ring_ne _ hk _⟩ <;> rw [State.onRing_ring_same] <;> rfl
  case refine_4 =>
    intro e amps x y s hlocked hmislocks hy hx he h3 hcold hkind hbad
    have hwindow : s.windowEnds e.val amps = s.mislock e.val (toneFound amps) := by
      unfold State.windowEnds
      dsimp only
      rw [hlocked, hbad]
      rfl
    rw [State.mislock_of_third hmislocks hy hx] at hwindow
    obtain ⟨-, hself, htwin, hrest⟩ := State.takeOut_of_twin (s := s.mislockSeen e.val (toneFound amps)) he h3 hcold hkind
    refine ⟨_, congrArg Host.Outcome.next hwindow, ?_, ?_, ?_, ?_, ?_, ?_, hrest⟩
    · rw [hself]; rfl
    · rw [htwin]; rfl
    · rw [htwin]; rfl
    · rw [htwin]; rfl
    · rw [htwin]; rfl
    · rw [htwin]; rfl
  case refine_5 =>
    intro e n s h
    exact congrArg Host.Outcome.next (if_pos h)
  case refine_6 =>
    intro e s h
    refine ⟨_, rfl, rfl, ?_, ?_, fun k hk => State.onRing_ring_ne _ hk _⟩ <;> rw [State.onRing_ring_same, Ring.hold, h]
  case refine_7 =>
    intro e s h
    refine ⟨_, rfl, rfl, ?_, ?_, fun k hk => State.onRing_ring_ne _ hk _⟩
    · rw [State.onRing_ring_same, Ring.release, h]
      split <;> simp_all
    · rw [State.onRing_ring_same, Ring.release, h]
      split <;> simp_all
  case refine_8 =>
    intro e cause s h
    exact congrArg Host.Outcome.next (if_neg (by rw [h]; decide))
  case refine_9 =>
    intro e cause s hservice he h3 hcold hkind
    have hne := twinOf_ne h3
    have htwin := s.faultSeen_ring_ne hne cause
    obtain ⟨hrecord, hseq⟩ := s.faultSeen_record e.val cause
    have honly := s.ringsOnly_faultSeen e.val cause
    have hcount := s.faultSeen_faultCnt e.val cause
    have hring := s.faultSeen_ring e.val cause
    have hexec : exec (.ringFault e cause) s = .next ((s.faultSeen e.val cause).remedy e.val) := congrArg Host.Outcome.next (if_pos hservice)
    generalize s.faultSeen e.val cause = a at htwin hrecord hseq honly hcount hring hexec
    obtain ⟨hself, hother, -⟩ := State.remedy_of_twin_facts (s := a) he h3 (by rw [htwin]; exact hcold) (by rw [htwin]; exact hkind)
    have hremedy := State.remedy_of_twin (s := a) he h3 (by rw [htwin]; exact hcold) (by rw [htwin]; exact hkind)
    refine ⟨_, hexec, ?_, ?_, ?_, ?_, ?_, ?_, ?_⟩
    · rw [hremedy]
      exact State.ringsOnly_note (State.ringsOnly_onRing (State.ringsOnly_onRing honly _ _) _ _) _ _ _ _
    · rw [hremedy]
      exact hcount
    · rw [hself]
      rfl
    · rw [hother]
      rfl
    · rw [hother, hring]
      rfl
    · rw [hremedy, State.ringNote_recordAt_before ((a.onRing (twinOf e.val) fun x => x.takeOver (a.ring e.val)).onRing e.val Ring.retire) s.err.seqNext hseq]
      exact hrecord
    · rw [hremedy, ← hseq]
      exact (State.ringNote_recordAt ((a.onRing (twinOf e.val) fun x => x.takeOver (a.ring e.val)).onRing e.val Ring.retire) 0x0D02 _ _ _).1
  case refine_10 =>
    intro e cause s hservice he
    have hfails : s.ringFails e.val cause = s.faultSeen e.val cause := State.remedy_of_array _ he
    refine ⟨_, congrArg Host.Outcome.next ((if_pos hservice).trans hfails), ?_, s.faultSeen_faultCnt _ _, fun k hk => s.faultSeen_ring_ne hk cause⟩
    rw [State.faultSeen_ring]
    rfl
  case refine_11 =>
    intro e dips s h
    exact congrArg Host.Outcome.next (if_pos h)
  case refine_12 =>
    intro e dips d s hstep hd hlow hhigh htone hleast
    have hgood (x : Dip) : goodDip (s.ring e.val).pilot.toNat x = true ↔
        (4096 ≤ x.code ∧ x.code ≤ 65535) ∧ toneOk (s.ring e.val).pilot.toNat x.amps = true := by
      rw [goodDip, Bool.and_eq_true, decide_eq_true_iff]
    have hchoose := chooseDip_of_lowest hd ((hgood d).mpr ⟨⟨hlow, hhigh⟩, htone⟩) fun x hx h =>
      hleast x hx ((hgood x).mp h).1.1 ((hgood x).mp h).1.2 ((hgood x).mp h).2
    obtain ⟨hframe, hcount, hrest⟩ := s.ringParked_facts e.val dips
    refine ⟨_, congrArg Host.Outcome.next (State.acquired_of_dip hstep hchoose), ?_, ?_, ?_, ?_, fun k hk => ?_⟩
    · generalize s.ringParked e.val dips = a at hframe ⊢
      rw [hframe]
      rfl
    · rw [State.calibrate_ring]
      rfl
    · rw [State.calibrate_ring, State.onRing_ring_same]
      exact Nat.mod_eq_of_lt (by omega)
    · rw [State.calibrate_calCnt, ← hcount]
      rfl
    · rw [State.calibrate_ring_ne _ hk, State.onRing_ring_ne _ hk, hrest k hk]
  case refine_13 =>
    intro s hbuilt
    exact ⟨_, congrArg Host.Outcome.next (if_neg (by rw [hbuilt]; decide)), rfl⟩
  case refine_14 =>
    intro f s hbuilt
    exact congrArg Host.Outcome.next (if_pos (by rw [hbuilt]; rfl))
  case refine_15 =>
    intro f n s hbuilt hbroken hn h32 hlt htodo
    obtain ⟨x, hrings⟩ := State.estimate_rings f.isLt hbuilt hbroken hn h32 htodo
    refine ⟨_, rfl, ?_, ?_, ?_, ?_, fun g hg => ?_⟩
    · rw [hrings, Tbl.look_put_same]
      exact decide_eq_true h32
    · rw [hrings, Tbl.look_put_same]
      exact Nat.mod_eq_of_lt hlt
    · rw [hrings, Tbl.look_put_same]
      rfl
    · rw [hrings]
    · rw [hrings]
      exact Tbl.look_put_ne _ _ _ _ _ hg

end Sys2Proof.Machine
end

section
/-! SUPPORT. Links: what sending leaves of a link that is not UP, and what a routing entry says. -/

namespace Sys2Proof.Machine

theorem State.onLink_link_ne (s : State) {l k : Nat} (h : k ≠ l) (f : Link → Link) : (s.onLink l f).link k = s.link k :=
  (State.onLink_link s l k f).trans (if_neg h)

/-! ## Sending leaves a link that is not UP alone -/

/-- The entry that a turn of the round robin picks is one of those offered. -/
theorem State.mem_of_spray {s s' : State} {d j : Nat} {js : List Nat} (h : s.spray d js = (some j, s')) : j ∈ js := by
  have hpick (cr : Tbl Int) (l : List Nat) (b : Option Nat) (hb : ∀ i, b = some i → i ∈ js) (hl : ∀ i ∈ l, i ∈ js) :
      ∀ i, l.foldl (fun (b : Option Nat) j => match b with
        | none => some j
        | some i => if Tbl.look 0 cr (16 * d + i) < Tbl.look 0 cr (16 * d + j) then some j else some i) b = some i → i ∈ js := by
    induction l generalizing b with
    | nil => exact hb
    | cons x l ih =>
      refine ih _ (fun i hi => ?_) fun i hi => hl i (List.mem_cons_of_mem _ hi)
      have hx := hl x List.mem_cons_self
      cases b with
      | none =>
        cases hi
        exact hx
      | some y =>
        dsimp only at hi
        split at hi
        · cases hi
          exact hx
        · cases hi
          exact hb _ rfl
  unfold State.spray at h
  dsimp only at h
  split at h
  · cases h
  · next e =>
    cases h
    exact hpick _ js none (fun _ hi => nomatch hi) (fun _ hi => hi) _ e

theorem State.spray_link (s : State) (d l : Nat) (js : List Nat) : (s.spray d js).2.link l = s.link l := by
  unfold State.spray
  dsimp only
  split <;> rfl

/-- An entry of an active tier stands on a link that is UP. -/
theorem State.up_of_activeEntries {s : State} {d j : Nat} (h : j ∈ s.activeEntries d) : (s.link (routeLink (s.route d j))).mode = .up := by
  have hlive : j ∈ (List.range 16).filter fun j => 0 < s.routeEff d j := by
    unfold State.activeEntries at h
    dsimp only at h
    split at h
    · exact h
    · exact (List.mem_filter.mp h).1
  have heff : 0 < s.routeEff d j := by simpa using (List.mem_filter.mp hlive).2
  unfold State.routeEff at heff
  dsimp only at heff
  split at heff
  · exact absurd heff (lt_irrefl 0)
  · split at heff
    · next hup => exact hup.1
    · exact absurd heff (lt_irrefl 0)

section
variable {s : State} {l : Nat} (h : (s.link l).mode ≠ .up)
include h

theorem State.launch_link (c : Cell) : (s.launch c).link l = s.link l := by
  have hspray := s.spray_link c.dpkg l (s.activeEntries c.dpkg)
  unfold State.launch
  refine ite_kept (π := fun a => a.link l) (ite_kept (π := fun a => a.link l) rfl rfl) (ite_kept (π := fun a => a.link l) rfl ?_)
  split
  · next j s1 e =>
    rw [e] at hspray
    have hne : l ≠ routeLink (s.route c.dpkg j) := fun hl => h (hl ▸ State.up_of_activeEntries (State.mem_of_spray e))
    exact (State.onLink_link_ne s1 hne _).trans hspray
  · next s1 e =>
    rw [e] at hspray
    exact ite_kept (π := fun a => a.link l) ((foldl_kept (π := fun a => a.link l) (f := State.fly) (fun _ _ => rfl) _ s1).trans hspray) hspray

/-- A fold of steps that leave the link alone while it is not UP leaves it alone. -/
theorem State.foldl_link {α : Type} {f : State → α → State} (hf : ∀ a x, (a.link l).mode ≠ .up → (f a x).link l = a.link l) (xs : List α) :
    (xs.foldl f s).link l = s.link l :=
  foldl_invariant (P := fun a => a.link l = s.link l) (fun a x ha => (hf a x (by rw [ha]; exact h)).trans ha) xs rfl

theorem State.launchAll_link (cs : List Cell) : (s.launchAll cs).link l = s.link l := State.foldl_link h (fun _ c ha => State.launch_link ha c) cs

theorem State.sendMsg_link (i : Issuer) (d p m : Nat) (b : List Byte) : (s.sendMsg i d p m b).link l = s.link l := by
  unfold State.sendMsg
  exact State.launchAll_link (s := { (s.takeTag 52).2 with fab := { (s.takeTag 52).2.fab with ops := _ } }) h _

omit h in
theorem State.sealTo_link (s : State) (l k : Nat) (m : List Byte) : (s.sealTo k m).link l = s.link l :=
  ite_kept (π := fun a => a.link l) rfl (ite_kept (π := fun a => a.link l) rfl (ite_kept (π := fun a => a.link l) rfl rfl))

theorem State.sendNotification_link (n : Notification) : (s.sendNotification n).link l = s.link l := by
  have hsealed : ((List.range 8).foldl (fun a k => if (a.session k).subs.getLsbD (n.opcode.toNat - 0x80) then a.sealTo k (s.notifyMessage n) else a)
      s).link l = s.link l :=
    foldl_kept (π := fun a => a.link l) (fun a k => ite_kept (π := fun a => a.link l) (a.sealTo_link l k _) rfl) _ s
  have hup := h
  rw [← hsealed] at hup
  refine (State.foldl_link hup (fun a x ha => ?_) _).trans hsealed
  exact ite_kept (π := fun a => a.link l) (State.sendMsg_link ha _ _ _ _ _) rfl

theorem State.addNotification_link (o : W16) (p : List Byte) : (s.addNotification o p).2.link l = s.link l := by
  unfold State.addNotification
  exact State.sendNotification_link (by exact h) _

theorem State.notify_link (o : W16) (p : List Byte) : (s.notify o p).link l = s.link l := by
  have hadd := State.addNotification_link h o p
  unfold State.notify
  split
  · next s1 e =>
    rw [e] at hadd
    exact hadd
  · next s1 e =>
    rw [e] at hadd
    exact hadd

/-- Announcing a unit's record leaves a link that is not UP alone. -/
theorem State.announce_unit_link {r : ErrRec} (hr : r.ctxValid = false) (hsev : r.severity = .unit) : (s.announce r).link l = s.link l := by
  rw [State.announce_unit hr hsev]
  exact State.notify_link (by exact h) _ _

end

/-! ## Routing words -/

theorem packBits_four (a b c d l m n o u v w x : Nat) : packBits [(l, a, u), (m, b, v), (n, c, w), (o, d, x)] =
    u % 2 ^ a * 2 ^ l + v % 2 ^ b * 2 ^ m + w % 2 ^ c * 2 ^ n + x % 2 ^ d * 2 ^ o := by simp [packBits]

/-- The via and the weight of a routing word. -/
theorem routeWord_fields {link via tier weight : Nat} (hvia : via < 64) (hweight : weight < 16) :
    routeVia (routeWord link via tier weight).toNat = via ∧ routeWeight (routeWord link via tier weight).toNat = weight := by
  unfold routeWord
  rw [packBits_four, BitVec.toNat_ofNat]
  unfold routeVia routeWeight bitsAt
  omega

theorem State.setRoute_route (s : State) (d j : Nat) (w : W32) {e k : Nat} (hj : j < 16) (hk : k < 16) :
    (s.setRoute d j w).route e k = if e = d ∧ k = j then w.toNat else s.route e k := by
  unfold State.setRoute State.route
  dsimp only
  rw [Tbl.look_put]
  by_cases h : e = d ∧ k = j
  · rw [if_pos h, if_pos (by omega)]
  · rw [if_neg h, if_neg (by omega)]

theorem State.fillSlot_eq (s : State) (d : Nat) (w : W32) : s.fillSlot d w = s ∨ ∃ j, j < 16 ∧ s.fillSlot d w = s.setRoute d j w := by
  unfold State.fillSlot
  cases h : s.freeSlot d with
  | none => exact .inl rfl
  | some j => exact .inr ⟨j, List.mem_range.mp (List.mem_of_find?_eq_some h), rfl⟩

/-- Only the routing table differs. -/
def State.routesOnly (s t : State) : Prop := t = { s with lnk := { s.lnk with routes := t.lnk.routes } }

theorem State.fillSlot_routesOnly {s a : State} (h : s.routesOnly a) (d : Nat) (w : W32) : s.routesOnly (a.fillSlot d w) := by
  rcases a.fillSlot_eq d w with e | ⟨j, -, e⟩
  · rw [e]
    exact h
  · rw [e]
    unfold State.routesOnly at h ⊢
    generalize a.lnk.routes = r at h
    subst h
    rfl

/-- Every entry with weight goes by package m. -/
def State.routesBy (s : State) (m : Nat) : Prop := ∀ d j, j < 16 → routeWeight (s.route d j) = 0 ∨ routeVia (s.route d j) = m

theorem State.routesBy_fillSlot {s : State} {m : Nat} (h : s.routesBy m) (d : Nat) {w : W32} (hw : routeVia w.toNat = m) :
    (s.fillSlot d w).routesBy m := by
  rcases s.fillSlot_eq d w with e | ⟨i, hi, e⟩
  · rw [e]
    exact h
  · rw [e]
    intro f j hj
    rw [State.setRoute_route _ _ _ _ hi hj]
    split
    · exact .inr hw
    · exact h f j hj

theorem State.fillSlot_route_ne (s : State) {d e : Nat} (h : e ≠ d) (w : W32) {j : Nat} (hj : j < 16) : (s.fillSlot d w).route e j = s.route e j := by
  rcases s.fillSlot_eq d w with e | ⟨i, hi, e⟩
  · rw [e]
  · rw [e, State.setRoute_route _ _ _ _ hi hj, if_neg fun x => h x.1]

end Sys2Proof.Machine
end

section
/-! SUPPORT. O51: how links come up and go down. -/

namespace Sys2Proof.Machine

/-! ## Widths and lanes -/

theorem widthOf_le {n : Nat} (h : n ≤ 8) : widthOf n ≤ 8 := by
  unfold widthOf
  split_ifs <;> omega

theorem popcount_le (n x : Nat) : popcount n x ≤ n := (List.length_filter_le _ _).trans (List.length_range).le

theorem lowestLanes_lt (mask n : Nat) : lowestLanes mask n < 256 := by
  have hsum (l : List Nat) (acc : Nat × Nat) :
      (l.foldl (fun (acc : Nat × Nat) i => if bitAt mask i && decide (acc.2 < n) then (acc.1 + 2 ^ i, acc.2 + 1) else acc) acc).1 ≤
        acc.1 + (l.map fun i => 2 ^ i).sum := by
    induction l generalizing acc with
    | nil => exact Nat.le_add_right _ _
    | cons i l ih =>
      rw [List.foldl_cons, List.map_cons, List.sum_cons]
      refine (ih _).trans ?_
      split
      · dsimp only
        omega
      · exact Nat.add_le_add_left (Nat.le_add_left _ _) _
  have hlanes := hsum (List.range 8) (0, 0)
  have htotal : ((List.range 8).map fun i => 2 ^ i).sum = 255 := rfl
  rw [htotal] at hlanes
  unfold lowestLanes
  omega

/-- The width that a training learns. -/
theorem Link.learned_width (k : Link) (o : TrainObs) : (k.learned o).width.toNat = widthOf (popcount 8 (k.usable o)) :=
  Nat.mod_eq_of_lt (Nat.lt_of_le_of_lt (widthOf_le (popcount_le 8 _)) (by decide))

theorem Link.learned_lanes (k : Link) (o : TrainObs) :
    (k.learned o).lanes.toNat = lowestLanes (k.usable o) (widthOf (popcount 8 (k.usable o))) := Nat.mod_eq_of_lt (lowestLanes_lt _ _)

theorem Link.learned_width_ne {k : Link} {o : TrainObs} (h : widthOf (popcount 8 (k.usable o)) ≠ 0) : (k.learned o).width ≠ 0 := fun hw =>
  h ((k.learned_width o).symm.trans (congrArg BitVec.toNat hw))

theorem widthOf_eq_zero {n : Nat} (h : widthOf n = 0) : n = 0 := by
  unfold widthOf at h
  split_ifs at h
  exact h

theorem popcount_eq_zero {x : Nat} (hx : x < 256) (h : popcount 8 x = 0) : x = 0 := by
  have hbits : ∀ i ∈ List.range 8, ¬ bitAt x i = true := List.filter_eq_nil_iff.mp (List.length_eq_zero_iff.mp h)
  have hbit (i : Nat) (hi : i < 8) : x / 2 ^ i % 2 ≠ 1 := fun hone => hbits i (List.mem_range.mpr hi) (by simpa [bitAt] using hone)
  have h0 := hbit 0 (by decide)
  have h1 := hbit 1 (by decide)
  have h2 := hbit 2 (by decide)
  have h3 := hbit 3 (by decide)
  have h4 := hbit 4 (by decide)
  have h5 := hbit 5 (by decide)
  have h6 := hbit 6 (by decide)
  have h7 := hbit 7 (by decide)
  omega

theorem Link.usable_lt (k : Link) (o : TrainObs) : k.usable o < 256 := BitVec.isLt _

theorem Link.learned_width_eq_zero {k : Link} {o : TrainObs} : (k.learned o).width = 0 ↔ k.usable o = 0 := by
  refine ⟨fun h => ?_, fun h => ?_⟩
  · exact popcount_eq_zero (k.usable_lt o) (widthOf_eq_zero ((k.learned_width o).symm.trans (congrArg BitVec.toNat h)))
  · refine BitVec.eq_of_toNat_eq ((k.learned_width o).trans ?_)
    rw [h]
    rfl

/-! ## Training starts, and lost lanes -/

/-- A link that trains from the start. -/
def Link.trainsNow (k : Link) : Link := { k with mode := .training, trains := k.trains + 1, miscable := 0 }

theorem State.linkTrain_of_low {s : State} {l : Nat} (h : (s.link l).mode ∈ [.down, .miscabled]) : s.linkTrain l = s.onLink l Link.trainsNow := by
  unfold State.linkTrain
  rcases List.mem_cons.mp h with h | h
  · rw [h]
    rfl
  · rw [List.mem_singleton.mp h]
    rfl

theorem State.linkTrain_of_not_low {s : State} {l : Nat} (h : (s.link l).mode ∉ [.down, .miscabled]) : s.linkTrain l = s := by
  unfold State.linkTrain
  cases hm : (s.link l).mode with
  | down => simp [hm] at h
  | miscabled => simp [hm] at h
  | training => rfl
  | up => rfl
  | retrain => rfl
  | disabled => rfl

/-- A link in a fast retrain. -/
def Link.retrains (k : Link) : Link := { k with mode := .retrain, trains := k.trains + 1, failRun := 0 }

theorem Link.retrains_of_queue {k : Link} (h : k.queue = []) : { k.retrains with queue := [] } = k.retrains := by
  rw [← h]
  rfl

/-- Only the links differ. -/
def State.linksOnly (s t : State) : Prop := t = { s with lnk := { s.lnk with links := t.lnk.links } }

theorem State.linksOnly_onLink {s a : State} (h : s.linksOnly a) (l : Nat) (f : Link → Link) : s.linksOnly (a.onLink l f) := by
  unfold State.linksOnly at h ⊢
  generalize a.lnk.links = x at h
  subst h
  rfl

theorem State.linksOnly_self (s : State) : s.linksOnly s := rfl

/-- A fast retrain of a link at which nothing waits. -/
theorem State.fastRetrain_of_up {s : State} {l : Nat} (hup : (s.link l).mode = .up) (hqueue : (s.link l).queue = []) :
    s.fastRetrain l = (s.onLink l Link.retrains).onLink l fun k => { k with queue := [] } := by
  have hempty : ((s.onLink l Link.retrains).link l).queue = [] := by
    rw [State.onLink_link_same]
    exact hqueue
  unfold State.fastRetrain
  rw [if_pos hup]
  show (s.onLink l Link.retrains).respray l = _
  unfold State.respray
  dsimp only
  rw [hempty]
  rfl

theorem State.fastRetrain_of_not_up {s : State} {l : Nat} (h : (s.link l).mode ≠ .up) : s.fastRetrain l = s := if_neg h

theorem State.fastRetrain_link {s : State} {l : Nat} (hup : (s.link l).mode = .up) (hqueue : (s.link l).queue = []) :
    (s.fastRetrain l).link l = (s.link l).retrains := by
  rw [State.fastRetrain_of_up hup hqueue, State.onLink_link_same, State.onLink_link_same, Link.retrains_of_queue hqueue]

theorem State.fastRetrain_link_ne {s : State} {l k : Nat} (hqueue : (s.link l).queue = []) (h : k ≠ l) : (s.fastRetrain l).link k = s.link k := by
  by_cases hup : (s.link l).mode = .up
  · rw [State.fastRetrain_of_up hup hqueue, State.onLink_link_ne _ h, State.onLink_link_ne _ h]
  · rw [State.fastRetrain_of_not_up hup]

theorem State.fastRetrain_linksOnly {s a : State} (h : s.linksOnly a) {l : Nat} (hqueue : (a.link l).queue = []) : s.linksOnly (a.fastRetrain l) := by
  by_cases hup : (a.link l).mode = .up
  · rw [State.fastRetrain_of_up hup hqueue]
    exact State.linksOnly_onLink (State.linksOnly_onLink h _ _) _ _
  · rw [State.fastRetrain_of_not_up hup]
    exact h

/-! ## LNK_RETRAIN -/

/-- The mode of a link after LNK_RETRAIN named it. -/
def LinkMode.retrained (m : LinkMode) : LinkMode :=
  if m = .up then .retrain else if m ∈ [.down, .miscabled] then .training else m

/-- One link of LNK_RETRAIN. -/
def State.retrainOne (s : State) (l : Nat) : State := (s.fastRetrain l).linkTrain l

section
variable {s : State} {l : Nat} (hqueue : (s.link l).queue = [])
include hqueue

theorem State.retrainOne_link : ((s.retrainOne l).link l).mode = (s.link l).mode.retrained ∧ ((s.retrainOne l).link l).queue = [] := by
  unfold State.retrainOne LinkMode.retrained
  by_cases hup : (s.link l).mode = .up
  · have hlink := State.fastRetrain_link hup hqueue
    rw [State.linkTrain_of_not_low (by rw [hlink]; simp [Link.retrains]), hlink, if_pos hup]
    exact ⟨rfl, hqueue⟩
  · rw [State.fastRetrain_of_not_up hup, if_neg hup]
    by_cases hlow : (s.link l).mode ∈ [.down, .miscabled]
    · rw [State.linkTrain_of_low hlow, State.onLink_link_same, if_pos hlow]
      exact ⟨rfl, hqueue⟩
    · rw [State.linkTrain_of_not_low hlow, if_neg hlow]
      exact ⟨rfl, hqueue⟩

theorem State.retrainOne_link_ne {k : Nat} (h : k ≠ l) : (s.retrainOne l).link k = s.link k := by
  unfold State.retrainOne
  by_cases hlow : ((s.fastRetrain l).link l).mode ∈ [.down, .miscabled]
  · rw [State.linkTrain_of_low hlow, State.onLink_link_ne _ h, State.fastRetrain_link_ne hqueue h]
  · rw [State.linkTrain_of_not_low hlow, State.fastRetrain_link_ne hqueue h]

theorem State.retrainOne_queues (hall : ∀ k, (s.link k).queue = []) (k : Nat) : ((s.retrainOne l).link k).queue = [] := by
  by_cases h : k = l
  · rw [h]
    exact (State.retrainOne_link hqueue).2
  · rw [State.retrainOne_link_ne hqueue h]
    exact hall k

theorem State.retrainOne_linksOnly {a : State} (h : a.linksOnly s) : a.linksOnly (s.retrainOne l) := by
  have hfast := State.fastRetrain_linksOnly h hqueue
  unfold State.retrainOne
  by_cases hlow : ((s.fastRetrain l).link l).mode ∈ [.down, .miscabled]
  · rw [State.linkTrain_of_low hlow]
    exact State.linksOnly_onLink hfast _ _
  · rw [State.linkTrain_of_not_low hlow]
    exact hfast

end

/-- LNK_RETRAIN of a list of links without repetition. -/
theorem State.foldl_retrainOne {s : State} (hqueues : ∀ k, (s.link k).queue = []) {xs : List Nat} (hxs : xs.Nodup) :
    s.linksOnly (xs.foldl State.retrainOne s) ∧
      ∀ l, ((xs.foldl State.retrainOne s).link l).mode = if l ∈ xs then (s.link l).mode.retrained else (s.link l).mode := by
  have hrun (a : State) (hqueues : ∀ k, (a.link k).queue = []) (ha : s.linksOnly a) : s.linksOnly (xs.foldl State.retrainOne a) ∧
      ∀ l, ((xs.foldl State.retrainOne a).link l).mode = if l ∈ xs then (a.link l).mode.retrained else (a.link l).mode := by
    induction xs generalizing a with
    | nil => exact ⟨ha, fun l => (if_neg List.not_mem_nil).symm⟩
    | cons x xs ih =>
      obtain ⟨hx, hrest⟩ := List.nodup_cons.mp hxs
      obtain ⟨honly, hmodes⟩ := ih hrest (a.retrainOne x) (State.retrainOne_queues (hqueues x) hqueues) (State.retrainOne_linksOnly (hqueues x) ha)
      refine ⟨honly, fun l => (hmodes l).trans ?_⟩
      by_cases h : l = x
      · rw [h, if_neg hx, if_pos List.mem_cons_self]
        exact (State.retrainOne_link (hqueues x)).1
      · rw [State.retrainOne_link_ne (hqueues x) h]
        simp [h]
  exact hrun s hqueues s.linksOnly_self

theorem bitAt_toNat_getLsbD {w : Nat} (x : BitVec w) (i : Nat) : bitAt x.toNat i = x.getLsbD i := by
  rw [BitVec.getLsbD, Nat.testBit_eq_decide_div_mod_eq]
  rfl

/-! ## Going down -/

/-- A link that has gone DOWN from UP or RETRAIN. -/
def Link.fallen (x : Link) : Link := { x with mode := .down, width := 0, lanes := 0, replay := [], queue := [], downs := bump x.downs }

theorem State.linkFall_link (s : State) (l : Nat) : (s.linkFall l).link l = (s.link l).fallen := by
  have hstart : (s.onLink l Link.fallen).link l = (s.link l).fallen := State.onLink_link_same s l _
  have hkeep (a : State) (ha : a.link l = (s.link l).fallen) : (a.link l).mode ≠ .up := by
    rw [ha]
    exact LinkMode.noConfusion
  exact foldl_invariant (P := fun a => a.link l = (s.link l).fallen) (fun a c ha => (State.launch_link (hkeep a ha) c).trans ha) _
    (foldl_invariant (P := fun a => a.link l = (s.link l).fallen) (fun a c ha => (State.launchAll_link (hkeep a ha) _).trans ha) _ hstart)

theorem State.linkFall_cells_kept {α : Type} {π : State → α} (h : BlindToCells π) (s : State) (l : Nat) : π (s.linkFall l) = π s :=
  (foldl_kept (State.launch_kept h) _ _).trans ((foldl_kept (fun a _ => State.launchAll_kept h a _) _ _).trans (h.links s _))

theorem blindToCells_err : BlindToCells State.err :=
  ⟨fun _ _ => rfl, fun _ _ => rfl, fun _ _ => rfl, fun _ _ => rfl, fun _ _ => rfl, fun _ _ => rfl⟩

/-- A link that has gone DOWN from a mode in which it held no cells. -/
def Link.dropped (k : Link) : Link := { k with mode := .down, width := 0, lanes := 0, downs := bump k.downs }

/-- The state of a link that goes DOWN, before its record. -/
def State.lowered (s : State) (l : Nat) : State :=
  match (s.link l).mode with
  | .up | .retrain => s.linkFall l
  | _ => s.onLink l fun k => { k with mode := .down, width := 0, lanes := 0, downs := bump k.downs }

theorem State.lowered_of_high {s : State} {l : Nat} (h : (s.link l).mode ∈ [.up, .retrain]) : s.lowered l = s.linkFall l := by
  unfold State.lowered
  rcases List.mem_cons.mp h with h | h
  · rw [h]
  · rw [List.mem_singleton.mp h]

theorem State.lowered_of_low {s : State} {l : Nat} (h : (s.link l).mode ∉ [.up, .retrain]) : s.lowered l = s.onLink l Link.dropped := by
  unfold State.lowered
  cases hm : (s.link l).mode with
  | up => simp [hm] at h
  | retrain => simp [hm] at h
  | down => rfl
  | training => rfl
  | miscabled => rfl
  | disabled => rfl

theorem State.lowered_facts (s : State) (l : Nat) : ((s.lowered l).link l).mode = .down ∧ ((s.lowered l).link l).width = 0 ∧
    ((s.lowered l).link l).lanes = 0 ∧ ((s.lowered l).link l).downs = (s.link l).downs + 1 ∧
    ((s.link l).mode ∈ [.up, .retrain] → ((s.lowered l).link l).replay = []) ∧ (s.lowered l).err = s.err ∧ (s.lowered l).fab.mem = s.fab.mem := by
  by_cases h : (s.link l).mode ∈ [.up, .retrain]
  · rw [State.lowered_of_high h, State.linkFall_link]
    exact ⟨rfl, rfl, rfl, rfl, fun _ => rfl, State.linkFall_cells_kept blindToCells_err s l,
      State.linkFall_cells_kept blindToReport_mem.toBlindToCells s l⟩
  · rw [State.lowered_of_low h, State.onLink_link_same]
    exact ⟨rfl, rfl, rfl, rfl, fun hhigh => absurd hhigh h, rfl, rfl⟩

/-- What a record of a unit leaves of a link that is not UP, of the ring and of memory, while no handling is in progress. -/
theorem State.unitRecord_facts {s : State} {l : Nat} (hdown : (s.link l).mode ≠ .up) (hhandlings : s.err.handlings = []) (code u : W16)
    (d : List W64) : (s.record code .unit u none d).link l = s.link l ∧ ((s.record code .unit u none d).recordAt s.err.seqNext).code = code ∧
      ((s.record code .unit u none d).recordAt s.err.seqNext).severity = .unit ∧ (s.record code .unit u none d).err.todo = s.err.todo ∧
      (s.record code .unit u none d).fab.mem = s.fab.mem := by
  have hmem := s.record_mem code .unit u none d none false false none
  rw [State.record_unit_plain hhandlings] at hmem ⊢
  refine ⟨State.announce_unit_link hdown rfl rfl, ?_, ?_, State.announce_unit_todo s rfl, hmem⟩
  · rw [State.announce_unit_recordAt_self rfl rfl]
  · rw [State.announce_unit_recordAt_self rfl rfl]

/-- What LINK_DOWN leaves. -/
theorem State.linkToDown_facts {s : State} {l : Nat} (htodo : s.err.todo = []) (hhandlings : s.err.handlings = []) :
    (s.linkToDown l).finish = s.linkToDown l ∧ ((s.linkToDown l).link l).mode = .down ∧ ((s.linkToDown l).link l).width = 0 ∧
      ((s.linkToDown l).link l).lanes = 0 ∧ ((s.linkToDown l).link l).downs = (s.link l).downs + 1 ∧
      ((s.link l).mode ∈ [.up, .retrain] → ((s.linkToDown l).link l).replay = []) ∧
      ((s.linkToDown l).recordAt s.err.seqNext).code = 0x0F03 ∧ ((s.linkToDown l).recordAt s.err.seqNext).severity = .unit ∧
      (s.linkToDown l).fab.mem = s.fab.mem := by
  obtain ⟨hmode, hwidth, hlanes, hdowns, hreplay, herr, hmem⟩ := s.lowered_facts l
  have hshape : s.linkToDown l = (s.lowered l).record 0x0F03 .unit (unitLink l) none [BitVec.ofNat 64 l] := rfl
  rw [hshape]
  generalize s.lowered l = a at *
  obtain ⟨hlink, hcode, hsev, htd, hm⟩ := State.unitRecord_facts (s := a) (l := l) (by rw [hmode]; exact LinkMode.noConfusion)
    (by rw [herr]; exact hhandlings) 0x0F03 (unitLink l) [BitVec.ofNat 64 l]
  rw [herr] at hcode hsev htd
  refine ⟨State.finish_of_quiet (htd.trans htodo), ?_, ?_, ?_, ?_, ?_, hcode, hsev, hm.trans hmem⟩
  · rw [hlink, hmode]
  · rw [hlink, hwidth]
  · rw [hlink, hlanes]
  · rw [hlink, hdowns]
  · rw [hlink]
    exact hreplay

/-! ## Coming up -/

/-- A link that has come up. -/
def Link.joined (k : Link) : Link := { k with mode := .up, miscable := 0, everUp := true }

theorem State.route_of_nil {s : State} (h : s.lnk.routes = []) (d j : Nat) : s.route d j = 0 := by
  unfold State.route
  rw [h]
  rfl

theorem State.freeSlot_of_nil {s : State} (h : s.lnk.routes = []) (d : Nat) : s.freeSlot d = some 0 := by
  unfold State.freeSlot
  simp only [State.route_of_nil h]
  rfl

/-- The entries of the peer of a link that comes up: the first is the link itself, and all go by the peer. -/
theorem State.routeFill_facts {s : State} (h : s.lnk.routes = []) (l : Nat) : s.routesOnly (s.routeFill l) ∧
    (s.routeFill l).routesBy (s.link l).peerPkg.toNat ∧
    (s.routeFill l).route (s.link l).peerPkg.toNat 0 = (Machine.routeWord l (s.link l).peerPkg.toNat 0 8).toNat := by
  have hm : (s.link l).peerPkg.toNat < 64 := BitVec.isLt _
  unfold State.routeFill
  generalize (s.link l).peerPkg.toNat = m at hm ⊢
  have hvia (i tier : Nat) : routeVia (Machine.routeWord i m tier 8).toNat = m := (routeWord_fields hm (by decide)).1
  have hby : s.routesBy m := fun d j _ => .inl (by
    rw [State.route_of_nil h]
    rfl)
  have hfirst : s.fillSlot m (Machine.routeWord l m 0 8) = s.setRoute m 0 (Machine.routeWord l m 0 8) := by
    unfold State.fillSlot
    rw [State.freeSlot_of_nil h]
  have hset : (s.fillSlot m (Machine.routeWord l m 0 8)).route m 0 = (Machine.routeWord l m 0 8).toNat := by
    rw [hfirst, State.setRoute_route _ _ _ _ (by decide) (by decide), if_pos ⟨rfl, rfl⟩]
  have hstart : s.routesOnly (s.fillSlot m (Machine.routeWord l m 0 8)) ∧ (s.fillSlot m (Machine.routeWord l m 0 8)).routesBy m ∧
      (s.fillSlot m (Machine.routeWord l m 0 8)).route m 0 = (Machine.routeWord l m 0 8).toNat :=
    ⟨State.fillSlot_routesOnly (s := s) (a := s) rfl _ _, State.routesBy_fillSlot hby _ (hvia _ _), hset⟩
  dsimp only
  split
  · exact hstart
  · refine foldl_invariant (P := fun a => s.routesOnly a ∧ a.routesBy m ∧ a.route m 0 = (Machine.routeWord l m 0 8).toNat) ?_ _ hstart
    intro a d ha
    obtain ⟨honly, hroutes, hentry⟩ := ha
    by_cases hd : d = m
    · rw [if_pos hd]
      exact ⟨honly, hroutes, hentry⟩
    · rw [if_neg hd]
      exact ⟨State.fillSlot_routesOnly honly _ _, State.routesBy_fillSlot hroutes _ (hvia _ _),
        (State.fillSlot_route_ne _ (Ne.symm hd) _ (by decide)).trans hentry⟩

/-- The check of an entry that stands on the peer it names, while no mismatch is noted. -/
theorem State.checkRoute_of_good {s : State} {d j : Nat} (hnoted : s.lnk.mismatched = [])
    (h : routeWeight (s.route d j) = 0 ∨ (s.link (routeLink (s.route d j))).peerPkg.toNat = routeVia (s.route d j)) : s.checkRoute d j = s := by
  have hgood : (decide (routeWeight (s.route d j) ≠ 0) && (s.link (routeLink (s.route d j))).mode == .up &&
      (s.link (routeLink (s.route d j))).peerPkg.toNat != routeVia (s.route d j)) = false := by
    rcases h with h | h <;> simp [h]
  have hfilter : s.lnk.mismatched.filter (· ≠ 16 * d + j) = s.lnk.mismatched := by
    rw [hnoted]
    rfl
  unfold State.checkRoute
  dsimp only
  rw [hgood, Bool.false_and, if_neg Bool.false_ne_true, Bool.not_false, if_pos rfl, hfilter]

theorem State.drainLink_of_queue {s : State} {l : Nat} (h : (s.link l).queue = []) :
    s.drainLink l = s.onLink l fun k => { k with queue := [] } := by
  unfold State.drainLink
  rw [h]
  rfl

/-- The state of a link that comes up, without entries of its own or with the entries of a new peer. -/
def State.entered (s : State) (l : Nat) : State :=
  if (s.link l).everUp then s.onLink l Link.joined else (s.onLink l Link.joined).routeFill l

theorem State.entered_facts {s : State} (hroutes : s.lnk.routes = []) (l : Nat) : (s.onLink l Link.joined).routesOnly (s.entered l) ∧
    (s.entered l).routesBy (s.link l).peerPkg.toNat ∧ ((s.link l).everUp = false →
      (s.entered l).route (s.link l).peerPkg.toNat 0 = (Machine.routeWord l (s.link l).peerPkg.toNat 0 8).toNat) := by
  have hfill := State.routeFill_facts (s := s.onLink l Link.joined) hroutes l
  rw [State.onLink_link_same] at hfill
  unfold State.entered
  cases hever : (s.link l).everUp with
  | false => exact ⟨hfill.1, hfill.2.1, fun _ => hfill.2.2⟩
  | true =>
    refine ⟨rfl, fun d j _ => .inl ?_, fun h => absurd h Bool.noConfusion⟩
    rw [if_pos rfl, State.route_of_nil (s := s.onLink l Link.joined) hroutes]
    rfl

theorem State.linkUp_of_same {s : State} {l old : Nat} (h : ((s.link l).everUp && (s.link l).peerPkg.toNat != old) = false) :
    s.linkUp l old = ((routeKeys.filter fun e => routeLink ((s.entered l).route e.1 e.2) == l).foldl
      (fun a e => a.checkRoute e.1 e.2) (s.entered l)).drainLink l := by
  unfold State.linkUp State.entered Link.joined
  dsimp only
  rw [h, if_neg Bool.false_ne_true]

/-- A link comes up to its first peer, or again to the peer it had, while no entry stands and nothing waits. -/
theorem State.linkUp_facts {s : State} {l old : Nat} (hqueue : (s.link l).queue = []) (hroutes : s.lnk.routes = [])
    (hnoted : s.lnk.mismatched = []) (hpeer : (s.link l).everUp = false ∨ (s.link l).peerPkg.toNat = old) :
    s.linkUp l old = { s with lnk := (s.linkUp l old).lnk } ∧ (s.linkUp l old).link l = (s.link l).joined ∧
      (∀ k, k ≠ l → (s.linkUp l old).link k = s.link k) ∧ ((s.link l).everUp = false →
        (s.linkUp l old).route (s.link l).peerPkg.toNat 0 = (Machine.routeWord l (s.link l).peerPkg.toNat 0 8).toNat) := by
  obtain ⟨honly, hby, hentry⟩ := State.entered_facts hroutes l
  have hlinks (k : Nat) : (s.entered l).link k = (s.onLink l Link.joined).link k := by rw [honly]; rfl
  have hself : (s.entered l).link l = (s.link l).joined := (hlinks l).trans (State.onLink_link_same s l _)
  have hmis : (s.entered l).lnk.mismatched = [] := by rw [honly]; exact hnoted
  have hchecks : (routeKeys.filter fun e => routeLink ((s.entered l).route e.1 e.2) == l).foldl (fun a e => a.checkRoute e.1 e.2) (s.entered l) =
      s.entered l := by
    have hgood : ∀ e ∈ routeKeys.filter fun e => routeLink ((s.entered l).route e.1 e.2) == l,
        (s.entered l).checkRoute e.1 e.2 = s.entered l := by
      intro e he
      obtain ⟨hkey, hlink⟩ := List.mem_filter.mp he
      have hslot : e.2 < 16 := by
        obtain ⟨d, -, hd⟩ := List.mem_flatMap.mp hkey
        obtain ⟨j, hj, rfl⟩ := List.mem_map.mp hd
        exact List.mem_range.mp hj
      refine State.checkRoute_of_good hmis ((hby e.1 e.2 hslot).imp id fun hvia => ?_)
      rw [beq_iff_eq.mp hlink, hself, hvia]
      rfl
    generalize routeKeys.filter (fun e => routeLink ((s.entered l).route e.1 e.2) == l) = xs at hgood ⊢
    induction xs with
    | nil => rfl
    | cons e xs ih =>
      rw [List.foldl_cons, hgood e List.mem_cons_self]
      exact ih fun e he => hgood e (List.mem_cons_of_mem _ he)
  have hsame : ((s.link l).everUp && (s.link l).peerPkg.toNat != old) = false := by
    rcases hpeer with h | h <;> simp [h]
  have hup : s.linkUp l old = (s.entered l).onLink l fun k => { k with queue := [] } := by
    have hdrain : (s.entered l).drainLink l = (s.entered l).onLink l fun k => { k with queue := [] } :=
      State.drainLink_of_queue ((congrArg Link.queue hself).trans hqueue)
    exact (State.linkUp_of_same hsame).trans ((congrArg (State.drainLink · l) hchecks).trans hdrain)
  rw [hup]
  refine ⟨?_, ?_, fun k hk => ?_, hentry⟩
  · generalize s.entered l = a at honly ⊢
    unfold State.routesOnly at honly
    generalize a.lnk.routes = r at honly
    subst honly
    rfl
  · rw [State.onLink_link_same, hself]
    unfold Link.joined
    rw [hqueue]
  · rw [State.onLink_link_ne _ hk, hlinks, State.onLink_link_ne _ hk]

theorem State.note_recordAt_before {s : State} {n : W64} (hn : s.err.seqNext = n + 1) (code : W16) (sev : Severity) (u : W16) (d : List W64)
    (c : Option Nat) : (s.note code sev u d c).recordAt n = s.recordAt n := by
  refine Tbl.look_put_ne _ _ _ _ _ ?_
  rw [hn]
  exact slot_ne_next n

/-! ## What the end of a training leaves -/

/-- What the records of a link that came up leave: the record of its coming up, and one more where it is narrow. -/
theorem State.reported_facts (u : State) (l : Nat) (code un : W16) (d : List W64) (narrow : Prop) [Decidable narrow] :
    ∃ t, (if narrow then (u.note code .info un d).linkNarrow l else u.note code .info un d) = t ∧ t = { u with err := t.err } ∧
      t.err.todo = u.err.todo ∧ (t.recordAt u.err.seqNext).code = code ∧
      (narrow → (t.recordAt (u.err.seqNext + 1)).code = 0x0F02) := by
  have hcode := congrArg ErrRec.code (u.note_recordAt code .info un d none)
  by_cases h : narrow
  · rw [if_pos h]
    refine ⟨_, rfl, rfl, rfl, ?_, fun _ => ?_⟩
    · exact (congrArg ErrRec.code (State.note_recordAt_before (s := u.note code .info un d) rfl _ _ _ _ _)).trans hcode
    · exact congrArg ErrRec.code ((u.note code .info un d).note_recordAt 0x0F02 .corrected _ _ none)
  · rw [if_neg h]
    exact ⟨_, rfl, rfl, rfl, hcode, fun hn => absurd hn h⟩

theorem State.lnkErr_frame {s a u t : State} (ha : a = { s with lnk := a.lnk }) (hu : u = { a with lnk := u.lnk })
    (ht : t = { u with err := t.err }) : t = { s with lnk := t.lnk, err := t.err } := by
  generalize t.err = e at ht ⊢
  subst ht
  generalize u.lnk = x at hu
  subst hu
  generalize a.lnk = y at ha
  subst ha
  rfl

/-- A link whose sequence numbers start from zero. -/
def Link.restarts (k : Link) : Link := { k with txSeq := 0, rxSeq := 0, failRun := 0 }

section
variable {s : State} {l : Nat} {o : TrainObs} (htodo : s.err.todo = []) (hqueue : (s.link l).queue = []) (hroutes : s.lnk.routes = [])
  (hnoted : s.lnk.mismatched = []) (hwidth : widthOf (popcount 8 ((s.link l).usable o)) ≠ 0) (hgood : s.miscableOf l o = 0)
include htodo hqueue hroutes hnoted hwidth hgood

/-- A training that ends well, of a link that was never up. -/
theorem State.trainingEnds_up (hmode : (s.link l).mode = .training) (hever : (s.link l).everUp = false) :
    ∃ t, s.trainingEnds l o = t ∧ t.err.todo = [] ∧ t = { s with lnk := t.lnk, err := t.err } ∧
      t.link l = ((s.link l).learned o).restarts.joined ∧ (∀ k, k ≠ l → t.link k = s.link k) ∧
      t.route o.peerPkg.toNat 0 = (Machine.routeWord l o.peerPkg.toNat 0 8).toNat ∧ (t.recordAt s.err.seqNext).code = 0x0F01 ∧
      (widthOf (popcount 8 ((s.link l).usable o)) < 8 → (t.recordAt (s.err.seqNext + 1)).code = 0x0F02) := by
  have hlearned : (s.onLink l fun k => k.learned o).link l = (s.link l).learned o := State.onLink_link_same s l _
  have hstart : (((s.onLink l fun k => k.learned o).onLink l Link.restarts).link l) = ((s.link l).learned o).restarts := by
    rw [State.onLink_link_same, hlearned]
  have hothers (k : Nat) (hk : k ≠ l) : ((s.onLink l fun k => k.learned o).onLink l Link.restarts).link k = s.link k := by
    rw [State.onLink_link_ne _ hk, State.onLink_link_ne _ hk]
  have hends : s.trainingEnds l o =
      (let u := ((s.onLink l fun k => k.learned o).onLink l Link.restarts).linkUp l (s.link l).peerPkg.toNat
       if ((s.link l).learned o).width.toNat < 8 then (u.note 0x0F01 .info (unitLink l) [BitVec.ofNat 64 l,
         ((s.link l).learned o).width.zeroExtend 64, o.peerPkg.zeroExtend 64, o.peerLink.zeroExtend 64]).linkNarrow l
       else u.note 0x0F01 .info (unitLink l) [BitVec.ofNat 64 l,
         ((s.link l).learned o).width.zeroExtend 64, o.peerPkg.zeroExtend 64, o.peerLink.zeroExtend 64]) := by
    unfold State.trainingEnds
    dsimp only
    rw [if_neg (not_not.mpr hmode), hlearned, if_neg (Link.learned_width_ne hwidth), hgood]
    rfl
  have ha : (s.onLink l fun k => k.learned o).onLink l Link.restarts =
      { s with lnk := ((s.onLink l fun k => k.learned o).onLink l Link.restarts).lnk } := rfl
  have hentries : ((s.onLink l fun k => k.learned o).onLink l Link.restarts).lnk.routes = [] := hroutes
  have hmis : ((s.onLink l fun k => k.learned o).onLink l Link.restarts).lnk.mismatched = [] := hnoted
  generalize (s.onLink l fun k => k.learned o).onLink l Link.restarts = a at *
  obtain ⟨hu, hself, hrest, hentry⟩ := State.linkUp_facts (s := a) (l := l) (old := (s.link l).peerPkg.toNat)
    ((congrArg Link.queue hstart).trans hqueue) hentries hmis (.inl ((congrArg Link.everUp hstart).trans hever))
  rw [hstart] at hself hentry
  generalize a.linkUp l (s.link l).peerPkg.toNat = u at *
  obtain ⟨t, hreport, ht, htd, hcode, hnarrow⟩ := u.reported_facts l 0x0F01 (unitLink l) [BitVec.ofNat 64 l,
         ((s.link l).learned o).width.zeroExtend 64, o.peerPkg.zeroExtend 64, o.peerLink.zeroExtend 64] (((s.link l).learned o).width.toNat < 8)
  have herr : u.err = s.err := by rw [hu, ha]
  have hlinks (k : Nat) : t.link k = u.link k := by rw [ht]; rfl
  have hroute : t.route o.peerPkg.toNat 0 = u.route o.peerPkg.toNat 0 := by rw [ht]; rfl
  rw [herr] at hcode hnarrow htd
  rw [Link.learned_width] at hnarrow
  exact ⟨t, hends.trans hreport, htd.trans htodo, State.lnkErr_frame ha hu ht, (hlinks l).trans hself,
    fun k hk => (hlinks k).trans ((hrest k hk).trans (hothers k hk)), hroute.trans (hentry hever), hcode, hnarrow⟩

/-- A fast retrain that ends well, with the peer that the link had. -/
theorem State.retrainEnds_up (hmode : (s.link l).mode = .retrain) (hpeer : o.peerPkg = (s.link l).peerPkg) :
    ∃ t, s.retrainEnds l (some o) = t ∧ t.err.todo = [] ∧ t = { s with lnk := t.lnk, err := t.err } ∧
      t.link l = ((s.link l).learned o).joined ∧ (t.recordAt s.err.seqNext).code = 0x0F04 ∧
      (widthOf (popcount 8 ((s.link l).usable o)) < (s.link l).width.toNat → (t.recordAt (s.err.seqNext + 1)).code = 0x0F02) := by
  have hends : s.retrainEnds l (some o) = (let u := (s.onLink l fun _ => (s.link l).learned o).linkUp l (s.link l).peerPkg.toNat
      if ((s.link l).learned o).width.toNat < (s.link l).width.toNat then
        (u.note 0x0F04 .info (unitLink l) [BitVec.ofNat 64 l]).linkNarrow l
      else u.note 0x0F04 .info (unitLink l) [BitVec.ofNat 64 l]) := by
    unfold State.retrainEnds
    dsimp only
    rw [if_neg (not_not.mpr hmode), if_neg (Link.learned_width_ne hwidth), hgood]
    rfl
  have hstart : (s.onLink l fun _ => (s.link l).learned o).link l = (s.link l).learned o := State.onLink_link_same s l _
  have ha : (s.onLink l fun _ => (s.link l).learned o) = { s with lnk := (s.onLink l fun _ => (s.link l).learned o).lnk } := rfl
  have hentries : (s.onLink l fun _ => (s.link l).learned o).lnk.routes = [] := hroutes
  have hmis : (s.onLink l fun _ => (s.link l).learned o).lnk.mismatched = [] := hnoted
  generalize (s.onLink l fun _ => (s.link l).learned o) = a at *
  obtain ⟨hu, hself, -, -⟩ := State.linkUp_facts (s := a) (l := l) (old := (s.link l).peerPkg.toNat)
    ((congrArg Link.queue hstart).trans hqueue) hentries hmis (.inr ((congrArg (fun k => k.peerPkg.toNat) hstart).trans (congrArg BitVec.toNat hpeer)))
  rw [hstart] at hself
  generalize a.linkUp l (s.link l).peerPkg.toNat = u at *
  obtain ⟨t, hreport, ht, htd, hcode, hnarrow⟩ := u.reported_facts l 0x0F04 (unitLink l) [BitVec.ofNat 64 l]
    (((s.link l).learned o).width.toNat < (s.link l).width.toNat)
  have herr : u.err = s.err := by rw [hu, ha]
  have hlink : t.link l = u.link l := by rw [ht]; rfl
  rw [herr] at hcode hnarrow htd
  rw [Link.learned_width] at hnarrow
  exact ⟨t, hends.trans hreport, htd.trans htodo, State.lnkErr_frame ha hu ht, hlink.trans hself, hcode, hnarrow⟩

end

/-- A link held for SELF. -/
def Link.heldForSelf (k : Link) : Link := { k with mode := .miscabled, width := 0, lanes := 0, miscable := BitVec.ofNat 2 1 }

/-- A training that finds the package's own id. -/
theorem State.trainingEnds_self {s : State} {l : Nat} {o : TrainObs} (hhandlings : s.err.handlings = []) (hmode : (s.link l).mode = .training)
    (husable : (s.link l).usable o ≠ 0) (hself : o.peerPkg = s.fab.pkgId) : ∃ t, s.trainingEnds l o = t ∧ t.err.todo = s.err.todo ∧
      t.link l = ((s.link l).learned o).heldForSelf ∧ (t.recordAt s.err.seqNext).code = 0x0F05 ∧
      (t.recordAt s.err.seqNext).severity = .unit ∧ t.fab.mem = s.fab.mem := by
  have hlearned : (s.onLink l fun k => k.learned o).link l = (s.link l).learned o := State.onLink_link_same s l _
  have hwidth : ((s.link l).learned o).width ≠ 0 := fun h => husable (Link.learned_width_eq_zero.mp h)
  have hcause : s.miscableOf l o = 1 := if_pos hself
  have hends : s.trainingEnds l o = (s.onLink l fun k => k.learned o).linkMiscabled l 1 := by
    unfold State.trainingEnds
    dsimp only
    rw [if_neg (not_not.mpr hmode), hlearned, if_neg hwidth, hcause]
    rfl
  have hhold : (s.onLink l fun k => k.learned o).linkHold l .miscabled =
      (s.onLink l fun k => k.learned o).onLink l fun k => { k with mode := .miscabled, width := 0, lanes := 0 } := by
    unfold State.linkHold
    rw [hlearned, show ((s.link l).learned o).mode = .training from hmode]
  have hheld : (((s.onLink l fun k => k.learned o).onLink l fun k => { k with mode := .miscabled, width := 0, lanes := 0 }).onLink l
      fun k => { k with miscable := BitVec.ofNat 2 1 }).link l = ((s.link l).learned o).heldForSelf := by
    rw [State.onLink_link_same, State.onLink_link_same, hlearned]
    rfl
  rw [hends]
  unfold State.linkMiscabled
  rw [hhold]
  generalize hb : ((s.onLink l fun k => k.learned o).onLink l fun k => { k with mode := .miscabled, width := 0, lanes := 0 }).onLink l
      (fun k => { k with miscable := BitVec.ofNat 2 1 }) = b at hheld ⊢
  have herr : b.err = s.err := by rw [← hb]; rfl
  have hmem : b.fab.mem = s.fab.mem := by rw [← hb]; rfl
  obtain ⟨hlink, hcode, hsev, htd, hm⟩ := State.unitRecord_facts (s := b) (l := l) (by rw [hheld]; exact LinkMode.noConfusion)
    (by rw [herr]; exact hhandlings) 0x0F05 (unitLink l) [BitVec.ofNat 64 1, BitVec.ofNat 64 l]
  rw [herr] at hcode hsev htd
  exact ⟨_, rfl, htd, hlink.trans hheld, hcode, hsev, hm.trans hmem⟩

/-- A step that takes a link DOWN. -/
theorem State.linkToDown_outcome {s a : State} {l : Nat} {c : Instr} (htodo : s.err.todo = []) (hhandlings : s.err.handlings = [])
    (herr : a.err = s.err) (hmem : a.fab.mem = s.fab.mem) (hdowns : (a.link l).downs = (s.link l).downs)
    (hmode : (s.link l).mode ≠ .training → (a.link l).mode ∈ [.up, .retrain]) (hexec : exec c s = .next (a.linkToDown l).finish) :
    ∃ t, exec c s = .next t ∧ (t.link l).mode = .down ∧ (t.link l).width = 0 ∧ (t.link l).lanes = 0 ∧
      (t.link l).downs = (s.link l).downs + 1 ∧ ((s.link l).mode ≠ .training → (t.link l).replay = []) ∧
      (t.recordAt s.err.seqNext).code = 0x0F03 ∧ (t.recordAt s.err.seqNext).severity = .unit ∧ t.fab.mem = s.fab.mem := by
  obtain ⟨hfinish, hdown, hwidth, hlanes, hcount, hreplay, hcode, hsev, hm⟩ :=
    State.linkToDown_facts (s := a) (l := l) (by rw [herr]; exact htodo) (by rw [herr]; exact hhandlings)
  rw [herr] at hcode hsev
  rw [hdowns] at hcount
  exact ⟨_, hexec.trans (congrArg Host.Outcome.next hfinish), hdown, hwidth, hlanes, hcount, fun h => hreplay (hmode h), hcode, hsev, hm.trans hmem⟩

/-! ## The idle window -/

/-- A link whose held lane mask has taken effect. -/
def Link.masked (k : Link) (m : Byte) : Link := { k with laneMask := m, disable := false, laneHeld := none, disableHeld := none }

theorem State.idleWindow_mask {s : State} {l : Nat} {m : Byte} (hup : (s.link l).mode = .up) (hqueue : (s.link l).queue = []) (hm : m ≠ 0) :
    ∃ t, s.applyLnkCfg l m false = t ∧ (t.link l).laneMask = m ∧ (t.link l).laneHeld = none ∧
      (t.link l).mode = (if m = (s.link l).laneMask then .up else .retrain) ∧ (∀ k, k ≠ l → t.link k = s.link k) := by
  have hself : (s.onLink l fun k => k.masked m).link l = (s.link l).masked m := State.onLink_link_same s l _
  have hothers (k : Nat) (hk : k ≠ l) : (s.onLink l fun k => k.masked m).link k = s.link k := State.onLink_link_ne s hk _
  have happly : s.applyLnkCfg l m false =
      if m ≠ (s.link l).laneMask then (s.onLink l fun k => k.masked m).fastRetrain l else s.onLink l fun k => k.masked m := by
    unfold State.applyLnkCfg
    dsimp only
    rw [if_neg (fun h => h.elim Bool.noConfusion hm), hup, if_neg LinkMode.noConfusion]
    rfl
  rw [happly]
  generalize (s.onLink l fun k => k.masked m) = a at hself hothers ⊢
  have hqueue' : (a.link l).queue = [] := (congrArg Link.queue hself).trans hqueue
  have hup' : (a.link l).mode = .up := (congrArg Link.mode hself).trans hup
  by_cases h : m = (s.link l).laneMask
  · rw [if_neg (not_not.mpr h), if_pos h]
    exact ⟨a, rfl, congrArg Link.laneMask hself, congrArg Link.laneHeld hself, hup', hothers⟩
  · rw [if_pos h, if_neg h]
    have hlink := (State.fastRetrain_link hup' hqueue').trans (congrArg Link.retrains hself)
    exact ⟨_, rfl, congrArg Link.laneMask hlink, congrArg Link.laneHeld hlink, congrArg Link.mode hlink,
      fun k hk => (State.fastRetrain_link_ne hqueue' hk).trans (hothers k hk)⟩

theorem State.retryLink_up {s : State} {l : Nat} (hup : (s.link l).mode = .up) (hqueue : (s.link l).queue = []) :
    ((s.retryLink l).link l).mode = (if s.lnk.autoWiden = true ∧ (s.link l).width.toNat < 8 then .retrain else .up) ∧
      ((s.retryLink l).link l).replay = (s.link l).replay ∧ (∀ k, k ≠ l → (s.retryLink l).link k = s.link k) := by
  unfold State.retryLink
  rw [hup]
  dsimp only
  by_cases h : s.lnk.autoWiden = true ∧ (s.link l).width.toNat < 8
  · rw [if_pos h, if_pos (by simpa using h)]
    have hlink := State.fastRetrain_link hup hqueue
    exact ⟨congrArg Link.mode hlink, (congrArg Link.replay hlink :), fun k hk => State.fastRetrain_link_ne hqueue hk⟩
  · rw [if_neg h, if_neg (by simpa using h)]
    exact ⟨hup, rfl, fun _ _ => rfl⟩

/-- Settles O51: each step of a link's training is one of the moves above, and what waits at a link that nothing waits at stays empty. -/
theorem linksTrainAndFall : Obligations.LinksTrainAndFall := by
  unfold Obligations.LinksTrainAndFall
  refine ⟨fun l s h => congrArg Host.Outcome.next (State.linkTrain_of_low h), fun l s h => congrArg Host.Outcome.next (State.linkTrain_of_not_low h),
    ?_, ?_, ?_, ?_, fun l s h => congrArg Host.Outcome.next (if_neg h), ?_, ?_, ?_, ?_, ?_, ?_, ?_, ?_, ?_, ?_⟩
  · intro l o s htodo h
    exact congrArg Host.Outcome.next ((congrArg State.finish (if_pos h : s.trainingEnds l.val o = s)).trans (State.finish_of_quiet htodo))
  · rintro l o w u s htodo hmode hever hqueue hroutes hnoted rfl rfl hwidth hgood
    obtain ⟨t, hends, htd, hframe, hself, hothers, hroute, hcode, hnarrow⟩ :=
      State.trainingEnds_up htodo hqueue hroutes hnoted hwidth hgood hmode hever
    have hexec : exec (.linkTrainingEnd l o) s = .next t :=
      congrArg Host.Outcome.next ((congrArg State.finish hends).trans (State.finish_of_quiet htd))
    refine ⟨t, hexec, hframe, ?_, ?_, ?_, ?_, ?_, ?_, ?_, ?_, ?_, hroute, hcode, hnarrow, hothers⟩
    · exact congrArg Link.mode hself
    · exact (congrArg (fun k => k.width.toNat) hself).trans (Link.learned_width _ o)
    · exact (congrArg (fun k => k.lanes.toNat) hself).trans (Link.learned_lanes _ o)
    · exact congrArg Link.peerPkg hself
    · exact congrArg Link.peerLink hself
    · exact congrArg Link.rtt hself
    · exact congrArg Link.txSeq hself
    · exact congrArg Link.rxSeq hself
    · exact (congrArg Link.replay hself :)
  · intro l o s htodo hhandlings hmode husable hself
    obtain ⟨t, hends, htd, hlink, hcode, hsev, hmem⟩ := State.trainingEnds_self hhandlings hmode husable hself
    exact ⟨t, congrArg Host.Outcome.next ((congrArg State.finish hends).trans (State.finish_of_quiet (htd.trans htodo))),
      congrArg Link.mode hlink, congrArg Link.miscable hlink, congrArg Link.width hlink, hcode, hsev, hmem⟩
  · rintro l c o s htodo hhandlings (⟨rfl, hmode⟩ | ⟨rfl, hmode, husable⟩ | ⟨rfl, hmode⟩ | ⟨rfl, hmode⟩)
    · exact State.linkToDown_outcome htodo hhandlings rfl rfl rfl (fun h => absurd hmode h) (congrArg Host.Outcome.next (if_pos hmode))
    · have hlearned : (s.onLink l.val fun k => k.learned o).link l.val = (s.link l.val).learned o := State.onLink_link_same s l.val _
      have hends : s.trainingEnds l.val o = (s.onLink l.val fun k => k.learned o).linkToDown l.val := by
        unfold State.trainingEnds
        dsimp only
        rw [if_neg (not_not.mpr hmode), hlearned, if_pos (Link.learned_width_eq_zero.mpr husable)]
      exact State.linkToDown_outcome (a := s.onLink l.val fun k => k.learned o) htodo hhandlings rfl rfl (congrArg Link.downs hlearned :)
        (fun h => absurd hmode h) (congrArg Host.Outcome.next (congrArg State.finish hends))
    · refine State.linkToDown_outcome htodo hhandlings rfl rfl rfl (fun _ => hmode) (congrArg Host.Outcome.next ?_)
      rcases List.mem_cons.mp hmode with h | h
      · rw [h]
      · rw [List.mem_singleton.mp h]
    · have hends : s.retrainEnds l.val none = s.linkToDown l.val := if_neg (not_not.mpr hmode)
      exact State.linkToDown_outcome htodo hhandlings rfl rfl rfl (fun _ => by simp [hmode])
        (congrArg Host.Outcome.next (congrArg State.finish hends))
  · intro l s h
    refine congrArg Host.Outcome.next ?_
    cases hm : (s.link l.val).mode with
    | up => simp [hm] at h
    | retrain => simp [hm] at h
    | down => rfl
    | training => rfl
    | miscabled => rfl
    | disabled => rfl
  · intro l lane s hlane hup hqueue
    exact ⟨_, congrArg Host.Outcome.next (if_pos hlane), State.fastRetrain_linksOnly s.linksOnly_self hqueue, State.fastRetrain_link hup hqueue,
      fun k hk => State.fastRetrain_link_ne hqueue hk⟩
  · intro l lane s hlane
    exact congrArg Host.Outcome.next (if_neg (by rw [hlane]; exact Bool.false_ne_true))
  · rintro l o w u s htodo hmode - hqueue hroutes hnoted rfl rfl hwidth hpeer hgood
    obtain ⟨t, hends, htd, hframe, hself, hcode, hnarrow⟩ := State.retrainEnds_up htodo hqueue hroutes hnoted hwidth hgood hmode hpeer
    refine ⟨t, congrArg Host.Outcome.next ((congrArg State.finish hends).trans (State.finish_of_quiet htd)), hframe, congrArg Link.mode hself,
      (congrArg (fun k => k.width.toNat) hself).trans (Link.learned_width _ o), (congrArg Link.replay hself :), (congrArg Link.txSeq hself :),
      (congrArg Link.rxSeq hself :), hcode, hnarrow⟩
  · intro l o s htodo h
    exact congrArg Host.Outcome.next ((congrArg State.finish (if_pos h : s.retrainEnds l.val o = s)).trans (State.finish_of_quiet htodo))
  · intro l s h
    refine congrArg Host.Outcome.next (Eq.trans ?_ (State.linkTrain_of_low h))
    unfold State.retryLink
    rcases List.mem_cons.mp h with h | h
    · rw [h]
    · rw [List.mem_singleton.mp h]
  · exact fun l s hup hqueue => ⟨_, rfl, State.retryLink_up hup hqueue⟩
  · intro mask s hqueues
    have hnodup : (allLinks.filter (bitAt mask.toNat)).Nodup := List.Nodup.filter _ List.nodup_range
    obtain ⟨honly, hmodes⟩ := State.foldl_retrainOne hqueues hnodup
    refine ⟨_, rfl, honly, fun l hl => (hmodes l).trans ?_⟩
    rw [← bitAt_toNat_getLsbD]
    have hmem : l ∈ allLinks.filter (bitAt mask.toNat) ↔ bitAt mask.toNat l = true := by simp [allLinks, hl]
    cases hbit : bitAt mask.toNat l with
    | false => rw [if_neg (by rw [hmem, hbit]; exact Bool.false_ne_true), if_pos rfl]
    | true =>
      rw [if_pos (hmem.mpr hbit), if_neg Bool.noConfusion]
      rfl
  · intro l s hlane hdisable
    exact congrArg Host.Outcome.next (if_neg (by simp [hlane, hdisable]))
  · intro l m s hup hqueue hheld hm hdisable hdis
    obtain ⟨t, happly, hfacts⟩ := State.idleWindow_mask hup hqueue hm
    refine ⟨t, congrArg Host.Outcome.next (Eq.trans ?_ happly), hfacts⟩
    dsimp only
    rw [if_pos ⟨hup, .inl (by rw [hheld]; rfl)⟩, hheld, hdisable, hdis]
    rfl

end Sys2Proof.Machine
end

section
/-! SUPPORT. O52: cells, notices and routes of links. -/

namespace Sys2Proof.Machine

/-! ## Acknowledgements -/

theorem dropWhile_replay {q : BitVec 12} {cs : List Cell} {pre rest : List (BitVec 12 × List Cell)} (h : ∀ e ∈ pre, e.1 ≠ q) :
    ((pre ++ (q, cs) :: rest).dropWhile fun e => e.1 != q).drop 1 = rest := by
  rw [List.dropWhile_append_of_pos fun e he => bne_iff_ne.mpr (h e he), List.dropWhile_cons_of_neg (by simp)]
  rfl

theorem any_replay {q : BitVec 12} {xs : List (BitVec 12 × List Cell)} : (xs.any fun e => e.1 == q) = true ↔ ∃ e ∈ xs, e.1 = q := by
  simp [List.any_eq_true]

/-- The acknowledgement of a group that the replay buffer holds. -/
theorem State.groupsAcked_of_held {s : State} {l : Nat} {q : BitVec 12} {cs : List Cell} {pre rest : List (BitVec 12 × List Cell)}
    (hreplay : (s.link l).replay = pre ++ (q, cs) :: rest) (hpre : ∀ e ∈ pre, e.1 ≠ q) (hqueue : (s.link l).queue = []) :
    s.linksOnly (s.groupsAcked l q) ∧ (s.groupsAcked l q).link l = { s.link l with replay := rest, failRun := 0 } ∧
      ∀ k, k ≠ l → (s.groupsAcked l q).link k = s.link k := by
  have hheld : ((s.link l).replay.any fun e => e.1 == q) = true := any_replay.mpr ⟨(q, cs), by rw [hreplay]; simp, rfl⟩
  have hself : (s.onLink l fun k => { k with replay := rest, failRun := 0 }).link l = { s.link l with replay := rest, failRun := 0 } :=
    State.onLink_link_same s l _
  have hacked : s.groupsAcked l q = (s.onLink l fun k => { k with replay := rest, failRun := 0 }).onLink l fun k => { k with queue := [] } := by
    unfold State.groupsAcked
    dsimp only
    rw [if_pos hheld, hreplay, dropWhile_replay hpre]
    exact State.drainLink_of_queue ((congrArg Link.queue hself).trans hqueue)
  rw [hacked]
  refine ⟨State.linksOnly_onLink (State.linksOnly_onLink s.linksOnly_self _ _) _ _, ?_, fun k hk => ?_⟩
  · rw [State.onLink_link_same, hself, ← hqueue]
  · rw [State.onLink_link_ne _ hk, State.onLink_link_ne _ hk]

/-- A link after a NAK that named group q for the nth time. -/
def Link.naked (k : Link) (q : BitVec 12) (n : Nat) : Link := { k with replays := k.replays + 1, failSeq := q, failRun := n }

/-- The NAK of a group that the replay buffer holds. -/
theorem State.groupNaked_of_held {s : State} {l : Nat} {q : BitVec 12} (hup : (s.link l).mode = .up) (hheld : ∃ e ∈ (s.link l).replay, e.1 = q) :
    s.groupNaked l q = if 9 ≤ (if (s.link l).failSeq = q then (s.link l).failRun + 1 else 1) then s.fastRetrain l
      else s.onLink l fun k => k.naked q (if (s.link l).failSeq = q then (s.link l).failRun + 1 else 1) := by
  have hrun : (if (s.link l).failSeq = q ∧ (s.link l).failRun ≠ 0 then (s.link l).failRun + 1 else 1) =
      if (s.link l).failSeq = q then (s.link l).failRun + 1 else 1 := by
    by_cases hq : (s.link l).failSeq = q
    · by_cases hz : (s.link l).failRun = 0
      · rw [if_neg fun h => h.2 hz, if_pos hq, hz]
      · rw [if_pos ⟨hq, hz⟩, if_pos hq]
    · rw [if_neg fun h => hq h.1, if_neg hq]
  unfold State.groupNaked
  dsimp only
  rw [if_pos ⟨hup, any_replay.mpr hheld⟩, hrun]
  rfl

/-! ## Effective weights -/

theorem State.routeEff_of_up {s : State} {d j : Nat} (hd : d ≠ s.fab.pkgId.toNat) (hup : (s.link (routeLink (s.route d j))).mode = .up)
    (hpeer : (s.link (routeLink (s.route d j))).peerPkg.toNat = routeVia (s.route d j)) :
    s.routeEff d j = routeWeight (s.route d j) * (if routeVia (s.route d j) = d then (s.link (routeLink (s.route d j))).width.toNat
      else min (s.link (routeLink (s.route d j))).width.toNat (s.reported (routeVia (s.route d j)) d)) := by
  unfold State.routeEff
  dsimp only
  rw [if_neg hd, if_pos ⟨hup, hpeer⟩, mul_ite]

theorem State.routeEff_of_not_up {s : State} {d j : Nat} (h : (s.link (routeLink (s.route d j))).mode ≠ .up ∨
    (s.link (routeLink (s.route d j))).peerPkg.toNat ≠ routeVia (s.route d j)) : s.routeEff d j = 0 := by
  unfold State.routeEff
  dsimp only
  rw [if_neg (not_and_or.mpr h), ite_self]

theorem routeWeight_lt (w : Nat) : routeWeight w < 16 := Nat.mod_lt _ (by decide)

/-! ## Notices -/

theorem State.reported_of_empty {s : State} {p : Nat} (h : Tbl.look [] s.lnk.notices p = []) (d : Nat) : s.reported p d = 0 := by
  unfold State.reported
  rw [h]
  exact (congrArg (· % 2 ^ 4) (Nat.zero_div _)).trans (Nat.zero_mod _)

theorem filter_eq_singleton {p : Nat → Bool} {xs : List Nat} {x : Nat} (hxs : xs.Nodup) (hx : x ∈ xs) (hp : p x = true)
    (hother : ∀ y ∈ xs, y ≠ x → p y = false) : xs.filter p = [x] := by
  have hcongr : xs.filter p = xs.filter (· == x) := List.filter_congr fun y hy => by
    by_cases h : y = x
    · rw [h, hp, beq_self_eq_true]
    · rw [hother y hy h, beq_false_of_ne h]
  rw [hcongr, List.filter_beq, List.count_eq_one_of_mem hxs hx]
  rfl

/-- The class of a header whose class is C0, whatever source port is written over its own. -/
theorem cls_of_port {dpkg dport spkg sport op ctx tag frag port : Nat} (p : BitVec 512) :
    Cell.cls { hdr := BitVec.ofNat 64 (withBits (mkHdr dpkg dport spkg sport op 0 ctx tag frag).toNat 40 6 port), payload := p } = 0 := by
  have hclass : (mkHdr dpkg dport spkg sport op 0 ctx tag frag).toNat / 2 ^ 33 % 4 = 0 := by
    unfold mkHdr packBits
    simp only [List.foldl_cons, List.foldl_nil, BitVec.toNat_ofNat]
    omega
  generalize (mkHdr dpkg dport spkg sport op 0 ctx tag frag).toNat = x at hclass ⊢
  show (BitVec.ofNat 64 (withBits x 40 6 port)).toNat / 2 ^ 33 % 2 ^ 2 = 0
  rw [BitVec.toNat_ofNat]
  unfold withBits bitsAt
  omega

/-- A link after a cell entered its next group. -/
def Link.sends (k : Link) (c : Cell) : Link :=
  { k with txSeq := k.txSeq + 1, replay := k.replay ++ [(k.txSeq, c :: List.replicate 7 idleCell)] }

theorem State.sendLink_of_room {s : State} {l : Nat} {c : Cell} (hup : (s.link l).mode = .up) (hroom : (s.link l).replay.length < 1024)
    (hcls : c.cls = 0) : (s.sendLink l c).link l = (s.link l).sends c := by
  have hfree : !(s.stoppedAt (64 + l) c) := by
    unfold State.stoppedAt
    rw [hcls]
    rfl
  unfold State.sendLink
  rw [State.onLink_link_same, if_pos ⟨hup, hroom, hfree⟩]
  rfl

/-- Cells of class C0 that are sent over a link that is UP and has room. -/
theorem State.sendLink_all {l : Nat} {s : State} (cs : List Cell) {a : State} (ha : s.linksOnly a) (hup : (a.link l).mode = .up)
    (hroom : (a.link l).replay.length + cs.length ≤ 1024) (hcls : ∀ c ∈ cs, c.cls = 0) :
    s.linksOnly (cs.foldl (fun b c => b.sendLink l c) a) ∧
      ((cs.foldl (fun b c => b.sendLink l c) a).link l).replay.map (fun e => e.2.head?) =
        (a.link l).replay.map (fun e => e.2.head?) ++ cs.map some := by
  induction cs generalizing a with
  | nil => exact ⟨ha, (List.append_nil _).symm⟩
  | cons c cs ih =>
    rw [List.length_cons] at hroom
    have hsend := State.sendLink_of_room hup (by omega) (hcls c List.mem_cons_self)
    have hlength : ((a.sendLink l c).link l).replay.length = (a.link l).replay.length + 1 := by
      rw [hsend]
      exact List.length_append
    obtain ⟨honly, hmap⟩ := ih (a := a.sendLink l c) (State.linksOnly_onLink ha _ _) ((congrArg Link.mode hsend).trans hup) (by omega)
      fun x hx => hcls x (List.mem_cons_of_mem _ hx)
    refine ⟨honly, hmap.trans ?_⟩
    rw [hsend, Link.sends, List.map_append, List.append_assoc]
    rfl

/-! ## Transit -/

/-- One entry takes every cell. -/
theorem State.spray_single (s : State) (d j : Nat) : ∃ cr, s.spray d [j] = (some j, { s with lnk := { s.lnk with credit := cr } }) := ⟨_, rfl⟩

theorem State.spray_nil (s : State) (d : Nat) : s.spray d [] = (none, s) := rfl

theorem opListed_of_response {o : Nat} (h : opIsResponse o = true) : opListed o = true ∧ opIsRequest o = false := by
  unfold opIsResponse at h
  obtain ⟨hlo, hhi⟩ : 8 ≤ o ∧ o ≤ 12 := by simpa using h
  constructor
  · unfold opListed
    simp [hlo, hhi]
  · unfold opIsRequest
    simp
    omega

/-- A dropped transit cell is counted, and the first one recorded. -/
theorem State.transitDrop_facts (s : State) : s.transitDrop.lnk.transitDrop = s.lnk.transitDrop + 1 ∧ s.transitDrop.fab = s.fab ∧
    (s.lnk.transitRecTime = none → (s.transitDrop.recordAt s.err.seqNext).code = 0x0F07) := by
  unfold State.transitDrop
  dsimp only
  cases hdue : s.lnk.transitRecTime.all fun t => decide (t.toNat + 1000000 ≤ s.time) with
  | false =>
    refine ⟨rfl, rfl, fun h => ?_⟩
    rw [h] at hdue
    cases hdue
  | true =>
    refine ⟨rfl, rfl, fun _ => ?_⟩
    exact congrArg ErrRec.code (State.pushRecord_recordAt (s := { s with lnk := _ }) _)

theorem State.transit_response {s : State} {c : Cell} (hresponse : opIsResponse c.opc = true) (hnone : s.transitEntries c.dpkg = []) :
    s.transit c = s.transitDrop := by
  unfold State.transit
  rw [hnone, State.spray_nil]
  dsimp only
  rw [(opListed_of_response hresponse).2, Bool.false_and, if_neg Bool.false_ne_true]

theorem State.transit_request {s : State} {c : Cell} (hop : c.opc ∈ [opLD, opST, opATOM, opMSG]) (hcls : c.cls ≠ 0)
    (hnone : s.transitEntries c.dpkg = []) : s.transit c = s.launchAll (sourAnswers c .unreachable) := by
  have hops : ∀ o ∈ [opLD, opST, opATOM, opMSG], opIsRequest o = true ∧ opIsHead o = true := by decide
  obtain ⟨hrequest, hhead⟩ := hops _ hop
  unfold State.transit
  rw [hnone, State.spray_nil]
  dsimp only
  rw [hrequest, if_pos (by simpa using hcls), if_pos hhead]

/-! ## A hub's own notice -/

/-- The cells of a hub's notice over a link. -/
def State.noticeCells (s : State) (hub l : Nat) : List Cell :=
  (msgCells s.fab.pkgId.toNat (s.link l).peerPkg.toNat 63 (s.takeTag (48 + hub)).1.toNat 0xF00 s.noticeBytes).map fun c =>
    ({ c with hdr := BitVec.ofNat 64 (withBits c.hdr.toNat 40 6 (48 + hub)) } : Cell)

/-- The operation that a hub's notice over a link leaves. -/
def State.noticeOp (s : State) (hub l : Nat) : Op :=
  { port := 48 + hub, tag := (s.takeTag (48 + hub)).1, ctx := 0, issuer := .controller, addr := 0, cells := s.noticeCells hub l,
    issuedAt := s.clk.now, heard := s.clk.now }

/-- The state in which a hub sends its notice. -/
def State.noticed (s : State) (hub l : Nat) : State :=
  { (s.takeTag (48 + hub)).2 with fab := { (s.takeTag (48 + hub)).2.fab with ops := s.fab.ops ++ [s.noticeOp hub l] } }

theorem State.noticeCells_cls {s : State} {hub l : Nat} : ∀ c ∈ s.noticeCells hub l, c.cls = 0 := by
  intro c hc
  obtain ⟨x, hx, rfl⟩ := List.mem_map.mp hc
  rcases List.mem_cons.mp hx with rfl | hx
  · exact cls_of_port _
  · obtain ⟨⟨b, i⟩, -, rfl⟩ := List.mem_map.mp hx
    exact cls_of_port _

theorem State.noticeCells_length (s : State) (hub l : Nat) : (s.noticeCells hub l).length = 2 := by
  have hbytes : s.noticeBytes.length = 32 := (List.length_map _).trans List.length_range
  unfold State.noticeCells msgCells
  rw [List.length_map, hbytes]
  rfl

section
variable {s : State} {hub : Nat}

theorem State.sendNotices_of_none (h : ∀ l, l / 16 = hub → (s.link l).mode ≠ .up) : s.sendNotices hub = s := by
  have hnone : ((List.range 16).map (16 * hub + ·)).filter (fun l => (s.link l).mode == .up) = [] := by
    refine List.filter_eq_nil_iff.mpr fun l hl hup => ?_
    obtain ⟨i, hi, rfl⟩ := List.mem_map.mp hl
    have := List.mem_range.mp hi
    exact h _ (by omega) (beq_iff_eq.mp hup)
  unfold State.sendNotices
  rw [hnone]
  rfl

theorem State.sendNotices_of_single {l : Nat} (hl : l / 16 = hub) (hup : (s.link l).mode = .up)
    (hothers : ∀ k, k / 16 = hub → k ≠ l → (s.link k).mode ≠ .up) :
    s.sendNotices hub = (s.noticeCells hub l).foldl (fun b c => b.sendLink l c) (s.noticed hub l) := by
  have hsingle : ((List.range 16).map (16 * hub + ·)).filter (fun l => (s.link l).mode == .up) = [l] := by
    refine filter_eq_singleton (List.nodup_range.map fun a b h => Nat.add_left_cancel h) ?_ (beq_iff_eq.mpr hup) fun k hk hne => ?_
    · exact List.mem_map.mpr ⟨l % 16, List.mem_range.mpr (Nat.mod_lt _ (by decide)), by omega⟩
    · obtain ⟨i, hi, rfl⟩ := List.mem_map.mp hk
      have := List.mem_range.mp hi
      exact beq_false_of_ne (hothers _ (by omega) hne)
  have hfirst : [l].filter (fun m => !([l].any fun k => decide (k < m) && (s.link k).peerPkg == (s.link m).peerPkg)) = [l] := by simp
  unfold State.sendNotices
  rw [hsingle]
  dsimp only
  rw [hfirst]
  rfl

/-- A hub with one UP link sends its notice over it. -/
theorem State.sendNotices_single_facts {l : Nat} (hl : l / 16 = hub) (hup : (s.link l).mode = .up)
    (hothers : ∀ k, k / 16 = hub → k ≠ l → (s.link k).mode ≠ .up) (hempty : (s.link l).replay = []) :
    ∃ t, s.sendNotices hub = t ∧ t.fab.ops = s.fab.ops ++ [s.noticeOp hub l] ∧
      (t.link l).replay.map (fun e => e.2.head?) = (s.noticeOp hub l).cells.map some ∧ t.fab.mem = s.fab.mem ∧ t.err = s.err := by
  have hlinks : (s.noticed hub l).link l = s.link l := rfl
  obtain ⟨honly, hmap⟩ := State.sendLink_all (s.noticeCells hub l) (s.noticed hub l).linksOnly_self ((congrArg Link.mode hlinks).trans hup)
    (by rw [hlinks, hempty, State.noticeCells_length]; decide) State.noticeCells_cls
  rw [hlinks, hempty] at hmap
  refine ⟨_, State.sendNotices_of_single hl hup hothers, ?_, hmap, ?_, ?_⟩
  · rw [honly]
    rfl
  · rw [honly]
    rfl
  · rw [honly]
    rfl

end

/-! ## Groups -/

/-- A link after a group in order. -/
def Link.taken (k : Link) : Link := { k with rxSeq := k.rxSeq + 1 }

/-- A load or an atomic that arrives in order goes on to its port. -/
theorem State.groupIn_request {s : State} {l p : Nat} {c : Cell} (hup : (s.link l).mode = .up) (hop : c.opc ∈ [opLD, opATOM]) (hcls : c.cls ≠ 3)
    (hpkg : c.dpkg = s.fab.pkgId.toNat) (hfilter : s.filtered c = false) (hport : s.hubPort (l / 16) c = some p)
    (hsevered : s.severedPair (48 + l / 16) p = false) :
    s.groupIn l (s.link l).rxSeq true [c] = (s.onLink l Link.taken).fly (Cell.withDport c p) := by
  have hops : ∀ o ∈ [opLD, opATOM], opListed o = true ∧ o ≠ opIDLE ∧ (o = opLD ∨ o = opATOM) := by decide
  obtain ⟨hlisted, hidle, hkind⟩ := hops _ hop
  have hfilter' : (s.onLink l Link.taken).filtered c = false := hfilter
  have hport' : (s.onLink l Link.taken).hubPort (hubOf l) c = some p := hport
  have hsevered' : (s.onLink l Link.taken).severedPair (48 + hubOf l) p = false := hsevered
  have hpkg' : c.dpkg = (s.onLink l Link.taken).fab.pkgId.toNat := hpkg
  have hin : s.groupIn l (s.link l).rxSeq true [c] = (s.onLink l Link.taken).hubArrive l c := by
    unfold State.groupIn
    dsimp only
    rw [if_neg (not_not.mpr hup), Bool.not_true, if_neg Bool.false_ne_true, if_neg (not_not.mpr rfl)]
    rfl
  rw [hin]
  generalize s.onLink l Link.taken = a at *
  unfold State.hubArrive
  dsimp only
  rw [hlisted, Bool.not_true, Bool.false_or, if_neg (by simpa using hcls), if_neg hidle, if_neg (not_not.mpr hpkg'), hfilter', Bool.and_false,
    if_neg Bool.false_ne_true, if_pos hkind, hport']
  dsimp only
  rw [hsevered', if_neg Bool.false_ne_true]

/-- Settles O52: each step on a link's groups, entries, notices and transit cells is one of the rules above. -/
theorem linkCellsAndRoutes : Obligations.LinkCellsAndRoutes := by
  unfold Obligations.LinkCellsAndRoutes
  refine ⟨?_, ?_, ?_, ?_, ?_, ?_, ?_, ?_, ?_, ?_, ?_, ?_, ?_, ?_, ?_, ?_, ?_⟩
  case refine_1 =>
    intro l q ok cs s h
    refine congrArg Host.Outcome.next ?_
    by_cases hup : (s.link l.val).mode = .up
    · obtain ⟨rfl, hq⟩ := h.resolve_left (not_not.mpr hup)
      unfold State.groupIn
      dsimp only
      rw [if_neg (not_not.mpr hup), Bool.not_true, if_neg Bool.false_ne_true, if_pos hq]
    · exact if_pos hup
  case refine_2 =>
    intro l q cs s hup
    refine congrArg Host.Outcome.next ?_
    unfold State.groupIn
    dsimp only
    rw [if_neg (not_not.mpr hup), Bool.not_false, if_pos rfl]
    rfl
  case refine_3 =>
    intro l c p s hup hop hcls hpkg hfilter hport hsevered
    exact congrArg Host.Outcome.next (State.groupIn_request hup hop hcls hpkg hfilter hport hsevered)
  case refine_4 =>
    intro l q s h
    have hnone : ¬ ((s.link l.val).replay.any fun e => e.1 == q) = true := fun hany => by
      obtain ⟨e, he, hq⟩ := any_replay.mp hany
      exact h e he hq
    exact ⟨congrArg Host.Outcome.next (if_neg hnone), congrArg Host.Outcome.next (if_neg fun x => hnone x.2)⟩
  case refine_5 =>
    intro l q cs pre rest s hreplay hpre hqueue
    exact ⟨_, rfl, State.groupsAcked_of_held hreplay hpre hqueue⟩
  case refine_6 =>
    intro l q s hup hheld hqueue
    refine ⟨_, congrArg Host.Outcome.next (State.groupNaked_of_held hup hheld), ?_⟩
    generalize hrun : (if (s.link l.val).failSeq = q then (s.link l.val).failRun + 1 else 1) = run
    by_cases hlong : 9 ≤ run
    · rw [if_pos hlong]
      have hlink := State.fastRetrain_link hup hqueue
      refine ⟨(congrArg Link.replay hlink :), fun hshort => ?_, fun _ _ => congrArg Link.mode hlink⟩
      rcases hshort with hq | hq
      · rw [if_neg hq] at hrun
        omega
      · split at hrun <;> omega
    · rw [if_neg hlong]
      have hlink : (s.onLink l.val fun k => k.naked q run).link l.val = (s.link l.val).naked q run := State.onLink_link_same s l.val _
      refine ⟨(congrArg Link.replay hlink :), fun _ => ⟨(congrArg Link.mode hlink).trans hup, (congrArg Link.replays hlink :),
        (congrArg Link.failSeq hlink :), (congrArg Link.failRun hlink :)⟩, fun hq hfail => ?_⟩
      rw [if_pos hq] at hrun
      omega
  case refine_7 =>
    rintro d j w s rfl hd hup hpeer hwidth
    have heff := State.routeEff_of_up hd hup hpeer
    refine ⟨?_, heff⟩
    have hfactor : (if routeVia (s.route d j) = d then (s.link (routeLink (s.route d j))).width.toNat
        else min (s.link (routeLink (s.route d j))).width.toNat (s.reported (routeVia (s.route d j)) d)) ≤ 8 := by
      split
      · exact hwidth
      · exact (min_le_left _ _).trans hwidth
    rw [heff]
    exact Nat.mul_le_mul (Nat.le_of_lt_succ (routeWeight_lt _)) hfactor
  case refine_8 => exact fun d j s h => State.routeEff_of_not_up h
  case refine_9 =>
    intro p b s
    exact ⟨_, rfl, Tbl.look_put_same _ _ _ _, rfl, fun k hk => Tbl.look_put_ne _ _ _ _ _ hk⟩
  case refine_10 =>
    intro p s
    refine ⟨_, rfl, rfl, fun d => State.reported_of_empty (by exact Tbl.look_put_same [] s.lnk.notices p.val []) d, fun k d hk => ?_⟩
    exact congrArg (fun b : List Byte => bitsAt (b.getD (d / 2) 0).toNat (4 * (d % 2)) 4) (Tbl.look_put_ne [] s.lnk.notices p.val k [] hk)
  case refine_11 =>
    intro hub s h
    exact congrArg Host.Outcome.next (State.sendNotices_of_none fun l hl => h l (by omega) hl)
  case refine_12 =>
    intro hub l s hl hup hothers hempty
    obtain ⟨t, hsend, hops, hcells, hmem, herr⟩ := State.sendNotices_single_facts hl hup (fun k hk => hothers k (by omega) hk) hempty
    exact ⟨t, s.noticeOp hub.val l.val, congrArg Host.Outcome.next hsend, hops, rfl, rfl, hcells, hmem, herr⟩
  case refine_13 =>
    intro l c s h
    refine congrArg Host.Outcome.next (if_neg ?_)
    rintro ⟨hup, hpkg, hlisted⟩
    rcases h with h | h | h
    · exact h hup
    · exact hpkg h
    · rw [hlisted] at h
      cases h
  case refine_14 =>
    intro l c s hup hpkg hresponse hnone
    obtain ⟨hcount, hfab, hrecord⟩ := s.transitDrop_facts
    exact ⟨_, congrArg Host.Outcome.next ((if_pos ⟨hup, hpkg, (opListed_of_response hresponse).1⟩).trans (State.transit_response hresponse hnone)),
      hcount, hfab, hrecord⟩
  case refine_15 =>
    intro l c s hup hpkg hop hcls hnone
    have hlisted : ∀ o ∈ [opLD, opST, opATOM, opMSG], opListed o = true := by decide
    exact congrArg Host.Outcome.next ((if_pos ⟨hup, hpkg, hlisted _ hop⟩).trans (State.transit_request hop hcls hnone))
  case refine_16 =>
    intro l c j s hup hpkg hlisted hentry
    obtain ⟨cr, hspray⟩ := s.spray_single c.dpkg j
    have htransit : s.transit c = ({ s with lnk := { s.lnk with credit := cr } } : State).sendLink (routeLink (s.route c.dpkg j)) c := by
      unfold State.transit
      rw [hentry, hspray]
    exact ⟨_, congrArg Host.Outcome.next ((if_pos ⟨hup, hpkg, hlisted⟩).trans htransit), rfl⟩
  case refine_17 =>
    intro hub p c tag s
    refine ⟨_, rfl, rfl, fun a => ?_⟩
    have hgone : (a.port == 64 + hub.val && a.pkg == p.val && (a.ctx == c.val || a.ctx == 64) && a.tag == tag) = true ↔
        a.port = 64 + hub.val ∧ a.pkg = p.val ∧ (a.ctx = c.val ∨ a.ctx = 64) ∧ a.tag = tag := by simp [and_assoc]
    refine List.mem_filter.trans (and_congr_right fun _ => ?_)
    rw [Bool.not_eq_true', ← Bool.not_eq_true, hgone]

end Sys2Proof.Machine
end

section
/-! SUPPORT. The light supply: samples and fade levels, what records leave of it, and sectors that go dark. -/

namespace Sys2Proof.Machine

/-! ## Samples -/

/-- The last samples of a line, the newest included. -/
def Cage.tapsAfter (c : Cage) (powers : List Int) (n : Nat) : List Int := (powers.getD n 0 :: Tbl.look [] c.taps n).take 10

/-- One line of a sample. -/
def Cage.tap (c : Cage) (powers : List Int) (a : Cage) (n : Nat) : Cage :=
  { a with taps := Tbl.put [] a.taps n (c.tapsAfter powers n), line := Tbl.put 0 a.line n (meanUp (c.tapsAfter powers n)) }

/-- The lines of a sample. -/
def Cage.tapped (c : Cage) (powers : List Int) : Cage := (List.range 32).foldl (c.tap powers) c

/-- The delta of a line. -/
def Cage.delta (c : Cage) (n : Nat) : Int := Tbl.look 0 c.line n - Tbl.look 0 c.ref n

theorem Cage.sample_eq (c : Cage) (powers : List Int) : c.sample powers = { c.tapped powers with
    worstLine := (c.tapped powers).worst.1, worstDelta := (c.tapped powers).worst.2, level := fadeLevel c.level (c.tapped powers).worst.2 } := rfl

theorem Cage.tapped_frame (c : Cage) (powers : List Int) :
    c.tapped powers = { c with taps := (c.tapped powers).taps, line := (c.tapped powers).line } := by
  have hrun (xs : List Nat) (a : Cage) (ha : a = { c with taps := a.taps, line := a.line }) :
      xs.foldl (c.tap powers) a = { c with taps := (xs.foldl (c.tap powers) a).taps, line := (xs.foldl (c.tap powers) a).line } := by
    induction xs generalizing a with
    | nil => exact ha
    | cons x xs ih =>
      refine ih (c.tap powers a x) ?_
      unfold Cage.tap
      generalize a.taps = t at ha ⊢
      generalize a.line = u at ha ⊢
      rw [ha]
  exact hrun (List.range 32) c rfl

theorem Cage.tapped_line (c : Cage) (powers : List Int) {n : Nat} (hn : n < 32) :
    Tbl.look 0 (c.tapped powers).line n = meanUp (c.tapsAfter powers n) := by
  have hrun (xs : List Nat) (a : Cage) : Tbl.look 0 (xs.foldl (c.tap powers) a).line n =
      if n ∈ xs then meanUp (c.tapsAfter powers n) else Tbl.look 0 a.line n := by
    induction xs generalizing a with
    | nil => exact (if_neg List.not_mem_nil).symm
    | cons x xs ih =>
      rw [List.foldl_cons, ih]
      by_cases hx : n ∈ xs
      · rw [if_pos hx, if_pos (List.mem_cons_of_mem _ hx)]
      · rw [if_neg hx]
        by_cases he : n = x
        · rw [he, if_pos List.mem_cons_self]
          exact Tbl.look_put_same _ _ _ _
        · rw [if_neg (by simp [he, hx])]
          exact Tbl.look_put_ne _ _ _ _ _ he
  exact (hrun (List.range 32) c).trans (if_pos (List.mem_range.mpr hn))

/-- What a sample leaves of a module: its level is what the worst delta calls for. -/
theorem Cage.sample_facts (c : Cage) (powers : List Int) : (c.sample powers).mode = c.mode ∧ (c.sample powers).lowLines = c.lowLines ∧
    (c.sample powers).level = fadeLevel c.level (c.sample powers).worstDelta := by
  have hframe := c.tapped_frame powers
  rw [Cage.sample_eq]
  generalize c.tapped powers = a at hframe ⊢
  generalize a.worst = w
  generalize a.taps = x at hframe
  generalize a.line = y at hframe
  subst hframe
  exact ⟨rfl, rfl, rfl⟩

theorem foldl_lowest_le (f : Nat → Int) (xs : List Nat) (b : Nat × Int) :
    (xs.foldl (fun b n => if f n < b.2 then (n, f n) else b) b).2 ≤ b.2 ∧
      ∀ n ∈ xs, (xs.foldl (fun b n => if f n < b.2 then (n, f n) else b) b).2 ≤ f n := by
  induction xs generalizing b with
  | nil => exact ⟨le_rfl, fun _ h => absurd h List.not_mem_nil⟩
  | cons x xs ih =>
    obtain ⟨hstart, hrest⟩ := ih (if f x < b.2 then (x, f x) else b)
    have hboth : (if f x < b.2 then (x, f x) else b).2 ≤ b.2 ∧ (if f x < b.2 then (x, f x) else b).2 ≤ f x := by
      split
      · next h => exact ⟨h.le, le_rfl⟩
      · next h => exact ⟨le_rfl, not_lt.mp h⟩
    refine ⟨hstart.trans hboth.1, fun n hn => ?_⟩
    rcases List.mem_cons.mp hn with rfl | hn
    · exact hstart.trans hboth.2
    · exact hrest n hn

/-- The worst delta of a module is below every line's. -/
theorem Cage.worst_le (c : Cage) {n : Nat} (hn : n < 32) : c.worst.2 ≤ c.delta n :=
  (foldl_lowest_le c.delta (List.range 32) (0, c.delta 0)).2 n (List.mem_range.mpr hn)

theorem Cage.sample_worst_le (c : Cage) (powers : List Int) {n : Nat} (hn : n < 32) :
    (c.sample powers).worstDelta ≤ (c.sample powers).delta n := by
  have hle := (c.tapped powers).worst_le hn
  rw [Cage.sample_eq]
  generalize c.tapped powers = a at hle ⊢
  generalize a.worst = w at hle ⊢
  exact hle

theorem maskOf_of_none {n : Nat} {f : Nat → Bool} (h : ∀ i, i < n → f i = false) : maskOf n f = 0 := by
  have hrun (xs : List Nat) (hxs : ∀ i ∈ xs, f i = false) : xs.foldl (fun m i => if f i then m + 2 ^ i else m) 0 = 0 := by
    induction xs with
    | nil => rfl
    | cons x xs ih =>
      rw [List.foldl_cons, hxs x List.mem_cons_self]
      exact ih fun i hi => hxs i (List.mem_cons_of_mem _ hi)
  exact hrun _ fun i hi => h i (List.mem_range.mp hi)

/-- No line of a module drops whose worst delta is above -4 dB, while none is dropped. -/
theorem Cage.lowAfter_of_bright {c : Cage} (hlow : c.lowLines = 0) (hbright : ∀ n, n < 32 → -400 < c.delta n) : c.lowAfter = 0 := by
  unfold Cage.lowAfter
  rw [maskOf_of_none fun n hn => ?_]
  · rfl
  · have hdelta := hbright n hn
    unfold Cage.delta at hdelta
    rw [hlow]
    simpa using hdelta

/-! ## Fade levels -/

theorem fadeLevel_zero (w : Int) :
    fadeLevel 0 w = if w ≤ -1000 then 4 else if w ≤ -400 then 3 else if w ≤ -300 then 2 else if w ≤ -200 then 1 else 0 := by
  unfold fadeLevel fadeAt
  simp only [List.take_zero, List.filter_nil, List.length_nil, Nat.max_zero, List.filter_cons, decide_eq_true_eq]
  split_ifs <;> simp only [List.length_cons, List.length_nil] <;> omega

/-- A level falls only above its threshold by half a decibel. -/
theorem fadeLevel_falls {old : Nat} {w : Int} (hlo : 1 ≤ old) (hhi : old ≤ 4) (h : fadeLevel old w < old) : fadeAt.getD (old - 1) 0 + 50 ≤ w := by
  by_contra hlow
  have hlow := not_le.mp hlow
  have hall : ∀ t ∈ fadeAt.take old, fadeAt.getD (old - 1) 0 ≤ t := by
    have hfalling : ∀ n : Fin 5, 1 ≤ n.val → ∀ t ∈ fadeAt.take n.val, fadeAt.getD (n.val - 1) 0 ≤ t := by decide
    exact hfalling ⟨old, by omega⟩ hlo
  have hlength : (fadeAt.take old).length = old := by
    rw [List.length_take]
    exact min_eq_left hhi
  have hcount : ((fadeAt.take old).filter fun t => decide (w < t + 50)).length = old := by
    refine (List.length_filter_eq_length_iff.mpr fun t ht => ?_).trans hlength
    have := hall t ht
    exact decide_eq_true (by omega)
  unfold fadeLevel at h
  rw [hcount] at h
  exact absurd (le_max_right _ old) (not_le.mpr h)

/-! ## What records leave of the light supply -/

theorem blindToRecord_las : BlindToRecord fun t => t.las :=
  ⟨⟨⟨⟨⟨fun _ _ => rfl, fun _ _ => rfl, fun _ _ => rfl, fun _ _ => rfl, fun _ _ => rfl, fun _ _ => rfl⟩,
    fun _ _ => rfl, fun _ _ => rfl⟩, fun _ _ => rfl⟩, fun _ _ => rfl, fun _ _ _ _ => rfl⟩, fun _ _ _ => rfl⟩

theorem blindToReport_rings : BlindToReport fun t => t.rings :=
  ⟨⟨⟨fun _ _ => rfl, fun _ _ => rfl, fun _ _ => rfl, fun _ _ => rfl, fun _ _ => rfl, fun _ _ => rfl⟩,
    fun _ _ => rfl, fun _ _ => rfl⟩, fun _ _ => rfl⟩

theorem blindToReport_todo : BlindToReport fun t => t.err.todo :=
  ⟨⟨⟨fun _ _ => rfl, fun _ _ => rfl, fun _ _ => rfl, fun _ _ => rfl, fun _ _ => rfl, fun _ _ => rfl⟩,
    fun _ _ => rfl, fun _ _ => rfl⟩, fun _ _ => rfl⟩

/-- The host port settles: what is blind to records does not see it. -/
theorem State.ethSettle_kept {α : Type} {π : State → α} (h : BlindToRecord π) (s : State) : π s.ethSettle = π s := by
  unfold State.ethSettle
  refine ite_kept rfl ?_
  split
  · dsimp only
    refine ite_kept rfl (ite_kept ?_ ?_)
    · exact (State.record_kept h _ _ _ _ _ _ _ _ _ _).trans (h.eth s _)
    · exact ite_kept ((State.note_kept h.toBlindToReport _ _ _ _ _ _).trans (h.eth s _)) (h.eth s _)
  · exact ite_kept rfl (h.eth s _)
  · rfl

theorem State.ethLight_kept {α : Type} {π : State → α} (h : BlindToRecord π) (s : State) (l : Nat) (b : Bool) : π (s.ethLight l b) = π s :=
  (State.ethSettle_kept h _).trans (h.eth s _)

/-- The host port of a package without its rails or its clock does not settle. -/
theorem State.ethLight_of_dead {s : State} (h : s.ethAlive = false) (l : Nat) (b : Bool) :
    s.ethLight l b = { s with eth := { s.eth with lightLost := bvSet s.eth.lightLost l b } } := by
  unfold State.ethLight State.ethSettle
  refine if_pos ?_
  rw [Bool.not_eq_true']
  exact h

/-- A change to the lines that a sector already has is none. -/
theorem State.linesChange_same (s : State) (m k : Nat) (x : W32) : s.linesChange m k x x = s := by
  unfold State.linesChange
  refine foldl_kept (π := id) (fun a n => ?_) _ s
  cases x.getLsbD n with
  | false => rfl
  | true => rfl

theorem State.fedBy_of_sectors {s t : State} (h : ∀ k, t.sector k = s.sector k) (m : Nat) : t.fedBy m = s.fedBy m := by
  unfold State.fedBy
  simp only [h]

end Sys2Proof.Machine
end

section
/-! SUPPORT. Memory ports and sectors that go dark, and records that later ones follow. -/

namespace Sys2Proof.Machine

theorem foldl_fixed {α β : Type} {f : α → β → α} {a : α} {xs : List β} (h : ∀ x ∈ xs, f a x = a) : xs.foldl f a = a := by
  induction xs with
  | nil => rfl
  | cons x xs ih =>
    rw [List.foldl_cons, h x List.mem_cons_self]
    exact ih fun y hy => h y (List.mem_cons_of_mem _ hy)

/-! ## A record that later ones follow -/

/-- The ring holds r under number n, and at most j numbers have been given since, n included. -/
def State.holdsRecord (s : State) (n : W64) (r : ErrRec) (j : Nat) : Prop :=
  s.recordAt n = r ∧ ∃ i, 1 ≤ i ∧ i ≤ j ∧ s.err.seqNext = n + BitVec.ofNat 64 i

theorem slot_ne_later {n : W64} {i : Nat} (hlo : 1 ≤ i) (hhi : i < 4096) : n.toNat % 4096 ≠ (n + BitVec.ofNat 64 i).toNat % 4096 := by
  have hlt := n.isLt
  rw [BitVec.toNat_add, BitVec.toNat_ofNat]
  omega

theorem State.holdsRecord_of_err {s t : State} {n : W64} {r : ErrRec} {j : Nat} (h : s.holdsRecord n r j) (herr : t.err = s.err) :
    t.holdsRecord n r j := by
  obtain ⟨hrecord, hnext⟩ := h
  refine ⟨(State.recordAt_of_err herr n).trans hrecord, ?_⟩
  rw [herr]
  exact hnext

theorem State.holdsRecord_note {s : State} {n : W64} {r : ErrRec} {j : Nat} (h : s.holdsRecord n r j) (hj : j < 4096) (code : W16)
    (sev : Severity) (u : W16) (d : List W64) (c : Option Nat) : (s.note code sev u d c).holdsRecord n r (j + 1) := by
  obtain ⟨hrecord, i, hlo, hhi, hnext⟩ := h
  refine ⟨Eq.trans (Tbl.look_put_ne _ _ _ _ _ ?_) hrecord, i + 1, by omega, by omega, ?_⟩
  · rw [hnext]
    exact slot_ne_later hlo (by omega)
  · rw [State.note_seqNext, hnext, BitVec.ofNat_add, BitVec.add_assoc]
    rfl

theorem State.notify_seqNext (s : State) (o : W16) (p : List Byte) :
    (s.notify o p).err.seqNext = s.err.seqNext ∨ (s.notify o p).err.seqNext = s.err.seqNext + 1 := by
  have hadd : (s.addNotification o p).2.err.seqNext = s.err.seqNext :=
    State.addNotification_kept (π := fun t => t.err.seqNext) ⟨⟨fun _ _ => rfl, fun _ _ => rfl, fun _ _ => rfl,
      fun _ _ => rfl, fun _ _ => rfl, fun _ _ => rfl⟩, fun _ _ => rfl, fun _ _ => rfl⟩ s o p
  unfold State.notify
  split
  · next u e =>
    rw [e] at hadd
    exact .inr (congrArg (· + 1) hadd)
  · next u e =>
    rw [e] at hadd
    exact .inl hadd

/-- A unit's record stands in the ring once it is announced. -/
theorem State.announce_unit_holdsRecord {s : State} {r : ErrRec} (hr : r.ctxValid = false) (hsev : r.severity = .unit) :
    (s.announce r).holdsRecord s.err.seqNext { r with seq := s.err.seqNext, time := s.clk.now, pkg := s.fab.pkgId } 2 := by
  refine ⟨State.announce_unit_recordAt_self hr hsev, ?_⟩
  rw [State.announce_unit hr hsev]
  rcases State.notify_seqNext (State.pushRecord { s with svc := { s.svc with unitRecord := true } } r) 0x0081
    ({ r with seq := s.err.seqNext, time := s.clk.now, pkg := s.fab.pkgId } : ErrRec).bytes with h | h
  · exact ⟨1, le_rfl, by decide, h⟩
  · refine ⟨2, by decide, le_rfl, h.trans ?_⟩
    exact BitVec.add_assoc s.err.seqNext 1 1

/-! ## A memory port goes dark -/

theorem State.failRequests_queues_kept {α : Type} {π : State → α} (h : BlindToCells π)
    (hqueues : ∀ s x y z w, π { s with fab := { s.fab with tileReq := x, creamQ := y, hbmQ := z, asm := w } } = π s)
    (s : State) (a b c : Nat → Bool) (f : Assembly → Bool) (all : Bool) : π (s.failRequests a b c f all) = π s :=
  (foldl_kept (fun a _ => State.launchAll_kept h a _) _ _).trans (hqueues s _ _ _ _)

theorem State.failRequests_link {s : State} {l : Nat} (h : (s.link l).mode ≠ .up) (a b c : Nat → Bool) (f : Assembly → Bool) (all : Bool) :
    (s.failRequests a b c f all).link l = s.link l := by
  unfold State.failRequests
  exact State.foldl_link (by exact h) (fun _ _ ha => State.launchAll_link ha _) _

/-- Memory port 16 + k stands dark and its stack as retired. -/
def State.portDark (s : State) (k : Nat) : State :=
  let s1 := s.onPort (16 + k) fun x => { x with mode := .dark }
  { s1 with fab := { s1.fab with dark := bvSet s1.fab.dark (16 + k) true },
            inv := { s1.inv with stackMap := bvSet s1.inv.stackMap k false },
            churn := { s1.churn with darkNext := bvSet s1.churn.darkNext (16 + k) true } }

/-- What waits at memory port 16 + k is answered. -/
def State.failMemory (s : State) (k : Nat) : State :=
  s.failRequests (fun _ => false) (fun _ => false) (fun h => h % 32 == k) (fun a => a.port == 16 + k) true

theorem State.darkMemory_of_lit {s : State} {k : Nat} (h : s.isDark (16 + k) = false) :
    s.darkMemory k = ((s.failMemory k).portDark k).note 0x0C05 .info (unitPort (16 + k)) := by
  unfold State.darkMemory
  dsimp only
  rw [h, if_neg Bool.false_ne_true]
  rfl

/-- The parts of a state that a memory port's darkness does not touch. -/
def State.apart (s : State) : Light × Board × Clock × Errors × Tbl Byte × BitVec 53 × Inventory :=
  (s.las, s.board, s.clk, s.err, s.fab.mem, s.fab.dark, s.inv)

theorem State.failMemory_apart (s : State) (k : Nat) : (s.failMemory k).apart = s.apart :=
  State.failRequests_queues_kept (π := State.apart)
    ⟨fun _ _ => rfl, fun _ _ => rfl, fun _ _ => rfl, fun _ _ => rfl, fun _ _ => rfl, fun _ _ => rfl⟩ (fun _ _ _ _ _ => rfl) s _ _ _ _ _

/-- What a memory port that goes dark leaves and sets. -/
theorem State.darkMemory_facts {s : State} {k : Nat} {n : W64} {r : ErrRec} {j : Nat} (hlit : s.isDark (16 + k) = false)
    (hrecord : s.holdsRecord n r j) (hj : j < 4096) : (s.darkMemory k).holdsRecord n r (j + 1) ∧
      ((s.darkMemory k).las, (s.darkMemory k).board, (s.darkMemory k).clk, (s.darkMemory k).err.todo) = (s.las, s.board, s.clk, s.err.todo) ∧
      (s.darkMemory k).fab.mem = s.fab.mem ∧ (s.darkMemory k).fab.dark = bvSet s.fab.dark (16 + k) true ∧
      (s.darkMemory k).inv.stackMap = bvSet s.inv.stackMap k false ∧
      ∀ l, (s.link l).mode = .down → ((s.darkMemory k).link l).mode = .down := by
  have hlink (l : Nat) (h : (s.link l).mode = .down) : ((s.failMemory k).link l).mode = .down :=
    (congrArg Link.mode (State.failRequests_link (by rw [h]; exact LinkMode.noConfusion) _ _ _ _ _)).trans h
  have hapart := s.failMemory_apart k
  rw [State.darkMemory_of_lit hlit]
  generalize s.failMemory k = a at hapart hlink ⊢
  simp only [State.apart, Prod.mk.injEq] at hapart
  obtain ⟨hlas, hboard, hclk, herr, hmem, hdark, hinv⟩ := hapart
  refine ⟨State.holdsRecord_note (State.holdsRecord_of_err hrecord (by exact herr)) hj _ _ _ _ _, ?_, hmem,
    congrArg (bvSet · (16 + k) true) hdark, congrArg (fun i : Inventory => bvSet i.stackMap k false) hinv, hlink⟩
  exact Prod.ext hlas (Prod.ext hboard (Prod.ext hclk (congrArg Errors.todo herr :)))

/-! ## A sector goes dark -/

/-- A sector that has gone dark, its record written and its die noted. -/
def State.sectorOut (s : State) (k m : Nat) : State :=
  let s1 := (s.onSector k fun x => { x with source := none, swap := none }).announce
    { code := 0x1006, severity := .unit, unit := unitCage m, details := [BitVec.ofNat 64 k] }
  let s2 := { s1 with las := { s1.las with dark := bvSet s1.las.dark k true } }.tidySwaps
  { s2 with inv := { s2.inv with dieDarkSector := bvSet s2.inv.dieDarkSector (k / 2) true } }

/-- The record of a sector that goes dark. -/
def darkRecord (s : State) (k m : Nat) : ErrRec :=
  { code := 0x1006, severity := .unit, unit := unitCage m, details := [BitVec.ofNat 64 k], seq := s.err.seqNext, time := s.clk.now,
    pkg := s.fab.pkgId }

section
variable (s : State) (k m : Nat)

theorem State.sectorOut_kept {α : Type} {π : State → α} (h : BlindToAnnounce π) (hparts : ∀ s x y, π { s with las := x, inv := y } = π s) :
    π (s.sectorOut k m) = π s := by
  have hsector : π (s.onSector k fun x => { x with source := none, swap := none }) = π s := hparts s _ s.inv
  unfold State.sectorOut
  dsimp only
  generalize ha : s.onSector k (fun x => { x with source := none, swap := none }) = a at hsector ⊢
  have hann := State.announce_kept h a { code := 0x1006, severity := .unit, unit := unitCage m, details := [BitVec.ofNat 64 k] }
  generalize a.announce { code := 0x1006, severity := .unit, unit := unitCage m, details := [BitVec.ofNat 64 k] } = b at hann ⊢
  exact (hparts b _ _).trans (hann.trans hsector)

theorem State.sectorOut_las : ((s.sectorOut k m).sector k).source = none ∧ (s.sectorOut k m).las.dark = bvSet s.las.dark k true := by
  have hlas := State.announce_kept blindToRecord_las.toBlindToAnnounce (s.onSector k fun x => { x with source := none, swap := none })
    { code := 0x1006, severity := .unit, unit := unitCage m, details := [BitVec.ofNat 64 k] }
  unfold State.sectorOut
  dsimp only
  generalize State.announce (s.onSector k fun x => { x with source := none, swap := none }) _ = b at hlas ⊢
  refine ⟨?_, (congrArg (fun l : Light => bvSet l.dark k true) hlas :)⟩
  refine (congrArg (fun l : Light => (Tbl.look ({} : Sector) l.sectors k).source) hlas).trans ?_
  exact congrArg Sector.source (State.onSector_sector_same s k fun x => { x with source := none, swap := none })

theorem State.sectorOut_record : (s.sectorOut k m).holdsRecord s.err.seqNext (darkRecord s k m) 2 := by
  have hrecord := State.announce_unit_holdsRecord (s := s.onSector k fun x => { x with source := none, swap := none })
    (r := { code := 0x1006, severity := .unit, unit := unitCage m, details := [BitVec.ofNat 64 k] }) rfl rfl
  exact State.holdsRecord_of_err hrecord rfl

variable {s k m}

theorem State.sectorOut_link {l : Nat} (h : (s.link l).mode = .down) : ((s.sectorOut k m).link l).mode = .down := by
  have hkept := State.announce_unit_link (s := s.onSector k fun x => { x with source := none, swap := none }) (l := l)
    (r := { code := 0x1006, severity := .unit, unit := unitCage m, details := [BitVec.ofNat 64 k] })
    (by
      show (s.link l).mode ≠ .up
      rw [h]
      exact LinkMode.noConfusion) rfl rfl
  exact (congrArg Link.mode hkept).trans h

/-- The ports of a sector's stacks, dark. -/
def State.portsOut (s : State) (k m : Nat) : State := ((s.sectorOut k m).darkMemory (2 * k)).darkMemory (2 * k + 1)

theorem State.sectorDie_of_out {s : State} {d : Nat} (h : s.dieIn d = false) :
    s.sectorDie d = { s with inv := { s.inv with dieDarkSector := bvSet s.inv.dieDarkSector d true } } := by
  unfold State.sectorDie
  rw [h, Bool.not_false, if_pos rfl]

/-- A sector goes dark whose die is out of service and whose links are down. -/
theorem State.sectorDark_of_quiet (hhandlings : s.err.handlings = []) (hdie : s.dieIn (k / 2) = false)
    (hdown : ∀ i, i < 4 → ((s.portsOut k m).link (4 * k + i)).mode = .down) :
    s.sectorDark k m = if k % 2 = 1 then (s.portsOut k m).ethLight ((k - 1) / 2) true else s.portsOut k m := by
  have hrecord : (s.onSector k fun x => { x with source := none, swap := none }).record 0x1006 .unit (unitCage m) none [BitVec.ofNat 64 k]
      (if s.dieIn (k / 2) then some (.die (k / 2)) else none) = (s.onSector k fun x => { x with source := none, swap := none }).announce
      { code := 0x1006, severity := .unit, unit := unitCage m, details := [BitVec.ofNat 64 k] } := by
    rw [hdie, if_neg Bool.false_ne_true]
    exact State.record_unit_plain (s := s.onSector k fun x => { x with source := none, swap := none }) hhandlings _ _ _
  have hinv := State.announce_kept (π := fun t => t.inv) ⟨⟨⟨⟨fun _ _ => rfl, fun _ _ => rfl, fun _ _ => rfl, fun _ _ => rfl, fun _ _ => rfl,
    fun _ _ => rfl⟩, fun _ _ => rfl, fun _ _ => rfl⟩, fun _ _ => rfl⟩, fun _ _ => rfl, fun _ _ _ _ => rfl⟩
    (s.onSector k fun x => { x with source := none, swap := none })
    { code := 0x1006, severity := .unit, unit := unitCage m, details := [BitVec.ofNat 64 k] }
  unfold State.sectorDark
  dsimp only
  rw [hrecord]
  unfold State.portsOut State.sectorOut at hdown ⊢
  dsimp only at hdown ⊢
  generalize (s.onSector k fun x => { x with source := none, swap := none }).announce
    { code := 0x1006, severity := .unit, unit := unitCage m, details := [BitVec.ofNat 64 k] } = b at hinv hdown ⊢
  have hmid : (State.tidySwaps { b with las := { b.las with dark := bvSet b.las.dark k true } }).dieIn (k / 2) = false :=
    (congrArg (fun i : Inventory => i.cdMap.getLsbD (k / 2)) hinv).trans hdie
  rw [State.sectorDie_of_out hmid]
  generalize State.darkMemory _ (2 * k + 1) = c at hdown ⊢
  rw [foldl_fixed (a := c) (xs := List.range 4) fun i hi => by rw [hdown i (List.mem_range.mp hi)]]

theorem State.portsOut_facts (hk : k < 16) (hlit : s.isDark (16 + 2 * k) = false) (hlit' : s.isDark (17 + 2 * k) = false) :
    (s.portsOut k m).holdsRecord s.err.seqNext (darkRecord s k m) 4 ∧ (s.portsOut k m).las = (s.sectorOut k m).las ∧
      (s.portsOut k m).ethAlive = s.ethAlive ∧ (s.portsOut k m).err.todo = s.err.todo ∧ (s.portsOut k m).fab.mem = s.fab.mem ∧
      (s.portsOut k m).isDark (16 + 2 * k) = true ∧ (s.portsOut k m).isDark (17 + 2 * k) = true ∧
      (s.portsOut k m).stackIn (2 * k) = false ∧ (s.portsOut k m).stackIn (2 * k + 1) = false ∧
      ∀ l, (s.link l).mode = .down → ((s.portsOut k m).link l).mode = .down := by
  have hrecord := s.sectorOut_record k m
  have hlinks := fun l => State.sectorOut_link (s := s) (k := k) (m := m) (l := l)
  have hkept := s.sectorOut_kept k m (π := fun t => (t.board, t.clk, t.err.todo, t.fab.mem, t.fab.dark))
    ⟨⟨⟨⟨fun _ _ => rfl, fun _ _ => rfl, fun _ _ => rfl, fun _ _ => rfl, fun _ _ => rfl, fun _ _ => rfl⟩, fun _ _ => rfl, fun _ _ => rfl⟩,
      fun _ _ => rfl⟩, fun _ _ => rfl, fun _ _ _ _ => rfl⟩ (fun _ _ _ => rfl)
  have hport : 17 + 2 * k = 16 + (2 * k + 1) := by omega
  rw [hport] at hlit' ⊢
  unfold State.portsOut
  generalize s.sectorOut k m = o at *
  simp only [Prod.mk.injEq] at hkept
  obtain ⟨hboard, hclk, htodo, hmem, hdark⟩ := hkept
  have hlitO : o.isDark (16 + 2 * k) = false := (congrArg (fun d : BitVec 53 => d.getLsbD (16 + 2 * k)) hdark).trans hlit
  obtain ⟨hrecA, hpartsA, hmemA, hdarkA, hstackA, hlinksA⟩ := State.darkMemory_facts hlitO hrecord (by decide)
  have hlitA : (o.darkMemory (2 * k)).isDark (16 + (2 * k + 1)) = false := by
    unfold State.isDark
    rw [hdarkA, bvSet_getLsbD _ _ _ _ (by omega), if_neg (by omega), hdark]
    exact hlit'
  generalize o.darkMemory (2 * k) = a at *
  obtain ⟨hrecB, hpartsB, hmemB, hdarkB, hstackB, hlinksB⟩ := State.darkMemory_facts hlitA hrecA (by decide)
  generalize a.darkMemory (2 * k + 1) = b at *
  have hparts := hpartsB.trans hpartsA
  simp only [Prod.mk.injEq] at hparts
  obtain ⟨hlas, hboard', hclk', htodo'⟩ := hparts
  refine ⟨hrecB, hlas, ?_, htodo'.trans htodo, hmemB.trans (hmemA.trans hmem), ?_, ?_, ?_, ?_, fun l hl => hlinksB l (hlinksA l (hlinks l hl))⟩
  · unfold State.ethAlive
    rw [hboard', hclk', hboard, hclk]
  · unfold State.isDark
    rw [hdarkB, bvSet_getLsbD _ _ _ _ (by omega), if_neg (by omega), hdarkA, bvSet_getLsbD _ _ _ _ (by omega), if_pos rfl]
  · unfold State.isDark
    rw [hdarkB, bvSet_getLsbD _ _ _ _ (by omega), if_pos rfl]
  · unfold State.stackIn
    rw [hstackB, bvSet_getLsbD _ _ _ _ (by omega), if_neg (by omega), hstackA, bvSet_getLsbD _ _ _ _ (by omega), if_pos rfl]
  · unfold State.stackIn
    rw [hstackB, bvSet_getLsbD _ _ _ _ (by omega), if_pos rfl]

/-- What a sector that goes dark leaves, its die out of service, its links down and the host port without power or clock. -/
theorem State.sectorDark_facts (hk : k < 16) (hhandlings : s.err.handlings = []) (hdie : s.dieIn (k / 2) = false)
    (hdown : ∀ i, i < 4 → (s.link (4 * k + i)).mode = .down) (hlit : s.isDark (16 + 2 * k) = false) (hlit' : s.isDark (17 + 2 * k) = false)
    (heth : s.ethAlive = false) : ∃ t, s.sectorDark k m = t ∧ t.err.todo = s.err.todo ∧ (t.sector k).source = none ∧
      t.las.dark.getLsbD k = true ∧ (t.recordAt s.err.seqNext).code = 0x1006 ∧ (t.recordAt s.err.seqNext).severity = .unit ∧
      t.isDark (16 + 2 * k) = true ∧ t.isDark (17 + 2 * k) = true ∧ t.stackIn (2 * k) = false ∧ t.stackIn (2 * k + 1) = false ∧
      t.fab.mem = s.fab.mem := by
  obtain ⟨hrecord, hlas, halive, htodo, hmem, hdark, hdark', hstack, hstack', hlinks⟩ := State.portsOut_facts (m := m) hk hlit hlit'
  obtain ⟨hsource, hbit⟩ := s.sectorOut_las k m
  have hends := State.sectorDark_of_quiet hhandlings hdie fun i hi => hlinks _ (hdown i hi)
  rw [State.ethLight_of_dead (halive.trans heth)] at hends
  generalize s.portsOut k m = b at *
  have hsector : (b.sector k).source = none := by
    unfold State.sector at hsource ⊢
    rw [hlas]
    exact hsource
  have hlasDark : b.las.dark.getLsbD k = true := by rw [hlas, hbit, bvSet_getLsbD _ _ _ _ hk, if_pos rfl]
  have hcode := congrArg ErrRec.code hrecord.1
  have hsev := congrArg ErrRec.severity hrecord.1
  refine ⟨_, hends, ?_⟩
  split
  · exact ⟨htodo, hsector, hlasDark, hcode, hsev, hdark, hdark', hstack, hstack', hmem⟩
  · exact ⟨htodo, hsector, hlasDark, hcode, hsev, hdark, hdark', hstack, hstack', hmem⟩

end

end Sys2Proof.Machine
end

section
/-! SUPPORT. O53: laser modules and their fade. -/

namespace Sys2Proof.Machine

/-! ## Acceptance -/

theorem lineTable_look (l : List Int) {n : Nat} (hn : n < 32) : Tbl.look 0 (lineTable l) n = l.getD n 0 := by
  have hrun (xs : List Nat) (t : Tbl Int) : Tbl.look 0 (xs.foldl (fun t n => Tbl.put 0 t n (l.getD n 0)) t) n =
      if n ∈ xs then l.getD n 0 else Tbl.look 0 t n := by
    induction xs generalizing t with
    | nil => exact (if_neg List.not_mem_nil).symm
    | cons x xs ih =>
      rw [List.foldl_cons, ih]
      by_cases hx : n ∈ xs
      · rw [if_pos hx, if_pos (List.mem_cons_of_mem _ hx)]
      · rw [if_neg hx]
        by_cases he : n = x
        · rw [he, if_pos List.mem_cons_self]
          exact Tbl.look_put_same _ _ _ _
        · rw [if_neg (by simp [he, hx])]
          exact Tbl.look_put_ne _ _ _ _ _ he
  exact (hrun (List.range 32) []).trans (if_pos (List.mem_range.mpr hn))

/-- A module that has been accepted with the powers that the observation gives. -/
def Cage.admitted (c : Cage) (o : AcceptObs) : Cage :=
  let c1 : Cage := { c with mode := .standby, level := 0, lit := true, taps := [], line := lineTable o.powers, ref := lineTable o.powers,
                            serial := o.serial, missed := 0, expedite := false, lowLines := 0 }
  { c1 with worstLine := c1.worst.1, worstDelta := c1.worst.2 }

/-- The state in which a module's powers have been commissioned. -/
def State.commissioned (s : State) (m : Nat) (o : AcceptObs) : State :=
  { s with fru := { s.fru with commissioned := Tbl.put {} s.fru.commissioned m { serial := o.serial, powers := o.powers } } }

/-- A module that feeds nothing is accepted in a spare cage while no sector is dark. -/
theorem State.accepted_spare {s : State} {m : Nat} {o : AcceptObs} (hm : 16 ≤ m) (hfed : s.fedBy m = none) (hdark : s.las.dark = 0)
    (hserial : (Tbl.look {} s.fru.commissioned m).serial ≠ o.serial) :
    s.accepted m o = (s.commissioned m o).onCage m fun c => c.admitted o := by
  have hcommission : s.commission m o = (o.powers, s.commissioned m o) := by
    unfold State.commission
    exact if_neg fun h => hserial h.1
  have hnone : allSectors.find? (fun k => s.las.dark.getLsbD k && (Tbl.look none s.las.relight k).isNone) = none := by
    rw [hdark]
    refine List.find?_eq_none.mpr fun k _ => ?_
    simp
  unfold State.accepted
  rw [hcommission, hfed]
  dsimp only
  by_cases hstep : s.mc.step = 3
  · rw [if_pos hstep]
    rfl
  · rw [if_neg hstep, if_neg (c := m < 16 ∧ _) fun h => absurd h.1 (not_lt.mpr hm), if_pos hm, hnone]
    dsimp only
    split
    · rw [if_neg fun h => absurd h.1 (not_lt.mpr hm)]
      rfl
    · rfl

/-! ## Samples -/

/-- The module that a sample leaves. -/
def Cage.sampled (c : Cage) (powers : List Int) : Cage := { c.sample powers with lowLines := (c.sample powers).lowAfter }

/-- The state after a sample, its alarm raised where its module begins to fade. -/
def State.sampledAt (s : State) (m : Nat) (powers : List Int) : State :=
  if (s.cage m).level = 0 ∧ 0 < ((s.cage m).sample powers).level then (s.onCage m fun c => c.sampled powers).fadeAlarm m
  else s.onCage m fun c => c.sampled powers

/-- FADE_ALARM leaves the light supply and the rings alone, and its record stands in the ring. -/
theorem State.fadeAlarm_facts (s : State) (m : Nat) : (s.fadeAlarm m).las = s.las ∧ (s.fadeAlarm m).rings = s.rings ∧
    (s.fadeAlarm m).err.todo = s.err.todo ∧ ((s.fadeAlarm m).recordAt s.err.seqNext).code = 0x1001 := by
  have hrecord := congrArg ErrRec.code (s.note_recordAt 0x1001 .info (unitCage m) [BitVec.ofNat 64 m, BitVec.ofNat 64 (s.cage m).worstLine,
    BitVec.ofInt 64 (s.cage m).worstDelta, BitVec.ofNat 64 (s.cage m).level] none)
  unfold State.fadeAlarm
  refine ⟨State.notify_kept blindToRecord_las.toBlindToReport _ _ _, State.notify_kept blindToReport_rings _ _ _,
    State.notify_kept blindToReport_todo _ _ _, Eq.trans (congrArg ErrRec.code (State.notify_recordAt_of_ne ?_ _ _)) hrecord⟩
  exact slot_ne_next s.err.seqNext

theorem State.sampledAt_facts (s : State) (m : Nat) (powers : List Int) :
    (s.sampledAt m powers).las = (s.onCage m fun c => c.sampled powers).las ∧ (s.sampledAt m powers).rings = s.rings ∧
      (s.sampledAt m powers).err.todo = s.err.todo ∧
      ((s.cage m).level = 0 → 0 < ((s.cage m).sample powers).level → ((s.sampledAt m powers).recordAt s.err.seqNext).code = 0x1001) := by
  obtain ⟨hlas, hrings, htodo, hcode⟩ := (s.onCage m fun c => c.sampled powers).fadeAlarm_facts m
  unfold State.sampledAt
  split
  · exact ⟨hlas, hrings, htodo, fun _ _ => hcode⟩
  · next h => exact ⟨rfl, rfl, rfl, fun hold hnew => absurd ⟨hold, hnew⟩ h⟩

theorem State.sampledAt_cage (s : State) (m : Nat) (powers : List Int) : (s.sampledAt m powers).cage m = (s.cage m).sampled powers := by
  have hlas := congrArg (fun l : Light => Tbl.look ({} : Cage) l.cages m) (s.sampledAt_facts m powers).1
  exact hlas.trans (State.onCage_cage_same s m _)

section
variable {s : State} {m : Nat} {powers : List Int} (hruns : s.lightRuns = true) (hlit : (s.cage m).lit = true)
include hruns hlit

theorem State.sampleLines_free (hfed : s.fedBy m = none) : s.sampleLines m powers = s.sampledAt m powers := by
  unfold State.sampleLines
  dsimp only
  rw [if_neg (by simp [hruns, hlit]), hfed]
  rfl

theorem State.sampleLines_fed {k : Nat} (hfed : s.fedBy m = some k) (hswap : (s.sector k).swap = none) : s.sampleLines m powers =
    ((s.sampledAt m powers).levelSwaps m k (s.cage m).level ((s.cage m).sample powers).level).linesChange m k (s.cage m).lowLines
      ((s.cage m).sample powers).lowAfter := by
  unfold State.sampleLines
  dsimp only
  rw [if_neg (by simp [hruns, hlit]), hfed]
  simp only [Option.any_some, hswap, Option.any_none, Bool.false_eq_true, if_false]
  rfl

end

theorem Cage.sampled_facts (c : Cage) (powers : List Int) : (c.sampled powers).mode = c.mode ∧
    (c.sampled powers).level = fadeLevel c.level (c.sampled powers).worstDelta ∧
    ∀ n, n < 32 → Tbl.look 0 (c.sampled powers).line n = meanUp (c.tapsAfter powers n) := by
  obtain ⟨hmode, -, hlevel⟩ := c.sample_facts powers
  have hline : (c.sample powers).line = (c.tapped powers).line := by rw [Cage.sample_eq]
  unfold Cage.sampled
  generalize c.sample powers = a at *
  exact ⟨hmode, hlevel, fun n hn => (congrArg (Tbl.look 0 · n) hline).trans (c.tapped_line powers hn)⟩

/-- A module at level 1 that fed its lines in full drops none. -/
theorem Cage.lowAfter_of_level_one {c : Cage} {powers : List Int} (hlow : c.lowLines = 0) (hlevel : c.level = 0) (hone : (c.sample powers).level = 1) :
    (c.sample powers).lowAfter = 0 := by
  obtain ⟨-, hkept, hfade⟩ := c.sample_facts powers
  rw [hone, hlevel, fadeLevel_zero] at hfade
  have hworst : -300 < (c.sample powers).worstDelta := by
    split_ifs at hfade with h1 h2 h3 <;> omega
  exact Cage.lowAfter_of_bright (hkept.trans hlow) fun n hn => by
    have hle := c.sample_worst_le powers hn
    omega

theorem State.levelSwaps_begin {s : State} {m k : Nat} (hswap : (s.sector k).swap = none) (hqueue : s.las.queue = []) :
    s.levelSwaps m k 0 1 = { s with las := { s.las with queue := [{ sector := k, kind := .scheduled, source := m, due := false }] } } := by
  have hask : s.askSwap k m .scheduled =
      { s with las := { s.las with queue := [{ sector := k, kind := .scheduled, source := m, due := false }] } } := by
    unfold State.askSwap
    dsimp only
    rw [hswap, hqueue]
    rfl
  exact hask

/-! ## Telemetry -/

theorem State.readSensor_las (s : State) (r k : Nat) (v : Int) : (s.readSensor r k v).las = s.las := by
  have hbreak (cause : Nat) : (s.breakSensor r k cause).las = s.las := by
    unfold State.breakSensor
    split
    · rfl
    · rfl
  unfold State.readSensor
  dsimp only
  split
  · rfl
  · split
    · exact hbreak 1
    · split
      · exact hbreak 2
      · rfl

theorem State.checkBlind_las (s : State) (r : Nat) : (s.checkBlind r).las = s.las := by
  unfold State.checkBlind
  split
  · split
    · rfl
    · exact State.record_kept blindToRecord_las _ _ _ _ _ _ _ _ _ _
  · rfl

theorem State.fedBy_of_las {s t : State} (h : t.las = s.las) (m : Nat) : t.fedBy m = s.fedBy m :=
  State.fedBy_of_sectors (fun k => congrArg (fun l : Light => Tbl.look ({} : Sector) l.sectors k) h) m

/-! ## A dark sector takes its source -/

/-- A memory port of a sector that takes its source. -/
def State.memoryLit (s : State) (k : Nat) : State :=
  let a1 := s.onPort (16 + k) fun x => { x with mode := .lit }
  { a1 with fab := { a1.fab with dark := bvSet a1.fab.dark (16 + k) false },
            inv := { a1.inv with stackMap := bvSet a1.inv.stackMap k (!a1.inv.stackRetired.getLsbD k) } }.note 0x0C06 .info
    (unitPort (16 + k))

/-- Sector k, its source m on and its memory ports lit, before its links train. -/
def State.sourced (s : State) (k m : Nat) : State :=
  let s1 := (s.onSector k fun x => { x with source := some m }).onCage m fun c => { c with mode := .active }
  let s2 := { s1 with las := { s1.las with dark := bvSet s1.las.dark k false, relight := Tbl.put none s1.las.relight k none } }
  (s2.memoryLit (2 * k)).memoryLit (2 * k + 1)

theorem blindToRecord_lit : BlindToRecord fun t => (t.las, t.fab.dark) :=
  ⟨⟨⟨⟨⟨fun _ _ => rfl, fun _ _ => rfl, fun _ _ => rfl, fun _ _ => rfl, fun _ _ => rfl, fun _ _ => rfl⟩,
    fun _ _ => rfl, fun _ _ => rfl⟩, fun _ _ => rfl⟩, fun _ _ => rfl, fun _ _ _ _ => rfl⟩, fun _ _ _ => rfl⟩

theorem State.linkTrain_kept {α : Type} {π : State → α} (h : BlindToCells π) (s : State) (l : Nat) : π (s.linkTrain l) = π s := by
  by_cases hlow : (s.link l).mode ∈ [.down, .miscabled]
  · rw [State.linkTrain_of_low hlow]
    exact h.links s _
  · rw [State.linkTrain_of_not_low hlow]

theorem State.relightSector_facts {s : State} {k m : Nat} (hk : k < 16) (hlow : (s.cage m).lowLines = 0) :
    ((s.relightSector k m).sector k).source = some m ∧ (s.relightSector k m).las.dark.getLsbD k = false ∧
      (s.relightSector k m).isDark (16 + 2 * k) = false ∧ ((s.relightSector k m).cage m).mode = .active := by
  have hsource : ((s.sourced k m).sector k).source = some m := congrArg Sector.source (State.onSector_sector_same s k fun x => { x with source := some m })
  have hcage : (s.sourced k m).cage m = { s.cage m with mode := .active } :=
    State.onCage_cage_same (s.onSector k fun x => { x with source := some m }) m fun c => { c with mode := .active }
  have hlasDark : (s.sourced k m).las.dark.getLsbD k = false := by
    show (bvSet s.las.dark k false).getLsbD k = false
    rw [bvSet_getLsbD _ _ _ _ hk, if_pos rfl]
  have hport : (s.sourced k m).isDark (16 + 2 * k) = false := by
    show (bvSet (bvSet s.fab.dark (16 + 2 * k) false) (16 + (2 * k + 1)) false).getLsbD (16 + 2 * k) = false
    rw [bvSet_getLsbD _ _ _ _ (by omega), if_neg (by omega), bvSet_getLsbD _ _ _ _ (by omega), if_pos rfl]
  have hshape : s.relightSector k m =
      (let s4 := (List.range 4).foldl (fun a i => a.linkTrain (4 * k + i)) (s.sourced k m)
       let s5 := if k % 2 = 1 then s4.ethLight ((k - 1) / 2) false else s4
       s5.linesChange m k 0 (s5.cage m).lowLines) := rfl
  rw [hshape]
  generalize s.sourced k m = a at hsource hcage hlasDark hport ⊢
  have htrained := foldl_kept (π := fun t => (t.las, t.fab.dark)) (f := fun a i => a.linkTrain (4 * k + i))
    (fun b i => State.linkTrain_kept blindToRecord_lit.toBlindToCells b (4 * k + i)) (List.range 4) a
  dsimp only at htrained ⊢
  generalize (List.range 4).foldl (fun a i => a.linkTrain (4 * k + i)) a = b at htrained ⊢
  have hlight := ite_kept (π := fun t => (t.las, t.fab.dark)) (c := k % 2 = 1)
    (State.ethLight_kept blindToRecord_lit b ((k - 1) / 2) false) (rfl : (b.las, b.fab.dark) = (b.las, b.fab.dark))
  generalize (if k % 2 = 1 then b.ethLight ((k - 1) / 2) false else b) = c at hlight ⊢
  have hparts := hlight.trans htrained
  simp only [Prod.mk.injEq] at hparts
  obtain ⟨hlas, hdark⟩ := hparts
  have hcageC : c.cage m = a.cage m := congrArg (fun l : Light => Tbl.look ({} : Cage) l.cages m) hlas
  rw [hcageC, hcage, hlow, State.linesChange_same]
  refine ⟨?_, ?_, ?_, ?_⟩
  · exact (congrArg (fun l : Light => (Tbl.look ({} : Sector) l.sectors k).source) hlas).trans hsource
  · exact (congrArg (fun l : Light => l.dark.getLsbD k) hlas).trans hlasDark
  · exact (congrArg (fun d : BitVec 53 => d.getLsbD (16 + 2 * k)) hdark).trans hport
  · rw [hcageC, hcage]

/-! ## Cages -/

theorem State.acceptStart_facts (s : State) (m : Nat) : s.acceptStart m = { s with las := { s.las with cages := (s.acceptStart m).las.cages } } ∧
    (s.acceptStart m).cage m = { s.cage m with mode := if s.lightRuns ∧ s.inv.cages.getLsbD m ∧ !(s.cage m).latchOpen then .accepting
      else (s.cage m).mode } := by
  unfold State.acceptStart
  split
  · exact ⟨rfl, State.onCage_cage_same s m _⟩
  · exact ⟨rfl, rfl⟩

/-- A module that is not in service to any sector leaves its cage. -/
theorem State.releaseTarget_of_no_swap {s : State} (h : ∀ k, (s.sector k).swap = none) (m : Nat) : s.releaseTarget m = s := by
  have hnone : (allSectors.find? fun k => (s.sector k).swap.any fun x => x.target == m && (x.phase == .verifying || x.phase == .armed)) = none := by
    refine List.find?_eq_none.mpr fun k _ => ?_
    rw [h k]
    exact Bool.false_ne_true
  unfold State.releaseTarget
  rw [hnone]

/-- Cage m without its module. -/
def State.emptied (s : State) (m : Nat) : State :=
  { s with inv := { s.inv with cages := bvSet s.inv.cages m false } }.onCage m fun c => { ({} : Cage) with latchOpen := c.latchOpen }

theorem State.extract_of_no_swap {s : State} (h : ∀ k, (s.sector k).swap = none) (m : Nat) :
    s.extract m = match s.fedBy m with
      | none => s.emptied m
      | some k => (s.emptied m).sectorDark k m := by
  have hgone : ({ s with inv := { s.inv with cages := bvSet s.inv.cages m false } } : State).releaseTarget m =
      { s with inv := { s.inv with cages := bvSet s.inv.cages m false } } := State.releaseTarget_of_no_swap (by exact h) m
  unfold State.extract
  dsimp only
  rw [hgone]
  cases s.fedBy m with
  | none => rfl
  | some k =>
    have hswap : ((s.emptied m).sector k).swap = none := h k
    unfold State.emptied at hswap ⊢
    dsimp only at hswap ⊢
    rw [hswap]

/-- Settles O53: each step on a module or a sector is one of the moves above. -/
theorem laserModulesAndFade : Obligations.LaserModulesAndFade := by
  unfold Obligations.LaserModulesAndFade
  refine ⟨?_, ?_, ?_, ?_, ?_, ?_, ?_, ?_, fadeLevel_zero, fun _ _ hlo hhi h => fadeLevel_falls hlo hhi h, ?_, ?_, ?_, ?_, ?_, ?_, ?_, ?_⟩
  case refine_1 => exact fun m s h => congrArg Host.Outcome.next (if_pos h)
  case refine_2 =>
    intro m s h
    have hcage : (({ s with inv := { s.inv with cages := bvSet s.inv.cages m.val true } } : State).onCage m.val fun c => { c with latchOpen := false }).cage
        m.val = { s.cage m.val with latchOpen := false } := State.onCage_cage_same { s with inv := _ } m.val _
    have hseated : (bvSet s.inv.cages m.val true).getLsbD m.val = true := by rw [bvSet_getLsbD _ _ _ _ m.isLt, if_pos rfl]
    refine ⟨_, congrArg Host.Outcome.next (if_neg (by rw [h]; exact Bool.false_ne_true)), ?_⟩
    obtain ⟨hframe, hcages⟩ := State.acceptStart_facts
      (({ s with inv := { s.inv with cages := bvSet s.inv.cages m.val true } } : State).onCage m.val fun c => { c with latchOpen := false }) m.val
    rw [hcage] at hcages
    refine ⟨?_, ?_, congrArg Cage.latchOpen hcages, (congrArg Cage.mode hcages).trans ?_⟩
    · rw [hframe]
      rfl
    · rw [hframe]
      exact hseated
    · have hcond : (s.lightRuns = true ∧ (bvSet s.inv.cages m.val true).getLsbD m.val = true ∧ (!false) = true) ↔ s.lightRuns = true :=
        ⟨fun x => x.1, fun x => ⟨x, hseated, rfl⟩⟩
      exact if_congr hcond rfl rfl
  case refine_3 => exact fun m o s h => congrArg Host.Outcome.next (if_pos h)
  case refine_4 =>
    intro m o n s hmode hfail
    have hcage : (s.onCage m.val fun c => { c with mode := .rejected, lit := false }).cage m.val = { s.cage m.val with mode := .rejected, lit := false } :=
      State.onCage_cage_same s m.val _
    have hrecord := (s.onCage m.val fun c => { c with mode := .rejected, lit := false }).note_recordAt 0x1005 .info (unitCage m.val)
      [BitVec.ofNat 64 m.val, BitVec.ofNat 64 n] none
    refine ⟨(s.onCage m.val fun c => { c with mode := .rejected, lit := false }).note 0x1005 .info (unitCage m.val)
      [BitVec.ofNat 64 m.val, BitVec.ofNat 64 n], congrArg Host.Outcome.next ?_, rfl, congrArg Cage.mode hcage, congrArg Cage.lit hcage,
      congrArg ErrRec.code hrecord, congrArg ErrRec.details hrecord⟩
    rw [if_neg (not_not.mpr hmode), hfail]
  case refine_5 =>
    intro m o s hmode hfail hm hfed hdark htodo hserial
    have hcage : ((s.commissioned m.val o).onCage m.val fun c => c.admitted o).cage m.val = (s.cage m.val).admitted o :=
      State.onCage_cage_same (s.commissioned m.val o) m.val _
    have hfru : Tbl.look {} ((s.commissioned m.val o).onCage m.val fun c => c.admitted o).fru.commissioned m.val =
        { serial := o.serial, powers := o.powers } := Tbl.look_put_same _ _ _ _
    refine ⟨(s.commissioned m.val o).onCage m.val fun c => c.admitted o, congrArg Host.Outcome.next ?_, rfl, congrArg Cage.mode hcage,
      congrArg Cage.lit hcage, congrArg Cage.level hcage, fun n hn => ?_, congrArg Commission.serial hfru, congrArg Commission.powers hfru⟩
    · rw [if_neg (not_not.mpr hmode), hfail]
      exact (congrArg State.finish (State.accepted_spare hm hfed hdark hserial)).trans (State.finish_of_quiet (by exact htodo))
    · exact (congrArg (fun c : Cage => Tbl.look 0 c.ref n) hcage).trans (lineTable_look o.powers hn)
  case refine_6 =>
    intro m p s htodo h
    have hskip : s.sampleLines m.val p = s := by
      refine if_pos ?_
      rcases h with h | h
      · exact .inl (by rw [h]; rfl)
      · exact .inr (by rw [h]; rfl)
    exact congrArg Host.Outcome.next ((congrArg State.finish hskip).trans (State.finish_of_quiet htodo))
  case refine_7 =>
    intro m p s htodo hruns hlit hfed
    obtain ⟨hlas, -, htd, hcode⟩ := s.sampledAt_facts m.val p
    have hcage := s.sampledAt_cage m.val p
    obtain ⟨hmode, hlevel, hline⟩ := (s.cage m.val).sampled_facts p
    refine ⟨s.sampledAt m.val p, congrArg Host.Outcome.next
      ((congrArg State.finish (State.sampleLines_free hruns hlit hfed)).trans (State.finish_of_quiet (htd.trans htodo))), ?_⟩
    rw [hcage]
    exact ⟨hmode, hline, hlevel, (congrArg Light.queue hlas :), fun hold hnew => hcode hold (by exact hnew)⟩
  case refine_8 =>
    intro m k p s htodo hruns hlit hfed hswap hqueue hlevel hlow hone
    obtain ⟨hlas, hrings, htd, -⟩ := s.sampledAt_facts m.val p
    have hcage := s.sampledAt_cage m.val p
    have hends := State.sampleLines_fed hruns hlit hfed hswap (powers := p)
    rw [hlevel, hone, hlow, Cage.lowAfter_of_level_one hlow hlevel hone, State.linesChange_same] at hends
    have hone' : ((s.cage m.val).sampled p).level = 1 := hone
    have hsectors : ((s.sampledAt m.val p).sector k.val).swap = none :=
      (congrArg (fun l : Light => (Tbl.look ({} : Sector) l.sectors k.val).swap) hlas).trans hswap
    generalize s.sampledAt m.val p = a at *
    rw [State.levelSwaps_begin hsectors ((congrArg Light.queue hlas).trans hqueue)] at hends
    exact ⟨_, congrArg Host.Outcome.next ((congrArg State.finish hends).trans (State.finish_of_quiet (by exact htd.trans htodo))),
      (congrArg Cage.level hcage).trans hone', rfl, hrings⟩
  case refine_9 =>
    intro m a f x s hreset htodo
    exact congrArg Host.Outcome.next ((congrArg State.finish (if_pos (.inl hreset) : s.telemetry m.val a x f = s)).trans (State.finish_of_quiet htodo))
  case refine_10 =>
    intro m f x s hreset hruns hlit hfed
    have hcage : (s.onCage m.val fun c => { c with temp := BitVec.ofInt 8 x, missed := 0, expedite := decide (75 < x) || f }).cage m.val =
      { s.cage m.val with temp := BitVec.ofInt 8 x, missed := 0, expedite := decide (75 < x) || f } := State.onCage_cage_same s m.val _
    have hqueue : (s.onCage m.val fun c => { c with temp := BitVec.ofInt 8 x, missed := 0, expedite := decide (75 < x) || f }).las.queue =
      s.las.queue := rfl
    have hfed' : (s.onCage m.val fun c => { c with temp := BitVec.ofInt 8 x, missed := 0, expedite := decide (75 < x) || f }).fedBy m.val = none := hfed
    have htelemetry : s.telemetry m.val true x f =
        ((s.onCage m.val fun c => { c with temp := BitVec.ofInt 8 x, missed := 0, expedite := decide (75 < x) || f }).readSensor
          (110 + m.val) 0 x).checkBlind (110 + m.val) := by
      unfold State.telemetry
      dsimp only
      rw [if_neg (by simp [hreset, hruns, hlit]), if_pos rfl]
      generalize (s.onCage m.val fun c => { c with temp := BitVec.ofInt 8 x, missed := 0, expedite := decide (75 < x) || f }) = a at hfed' ⊢
      rw [State.fedBy_of_las ((State.checkBlind_las _ _).trans (State.readSensor_las a _ _ _)), hfed']
    generalize (s.onCage m.val fun c => { c with temp := BitVec.ofInt 8 x, missed := 0, expedite := decide (75 < x) || f }) = a at *
    have hlas : ((a.readSensor (110 + m.val) 0 x).checkBlind (110 + m.val)).las = a.las := (State.checkBlind_las _ _).trans (State.readSensor_las a _ _ _)
    have hcage' := (congrArg (fun l : Light => Tbl.look ({} : Cage) l.cages m.val) hlas).trans hcage
    exact ⟨_, congrArg (fun u : State => Host.Outcome.next u.finish) htelemetry, congrArg Cage.temp hcage', congrArg Cage.missed hcage',
      congrArg Cage.expedite hcage', (congrArg Light.queue hlas).trans hqueue⟩
  case refine_11 =>
    intro m f x s hreset hruns hlit hfed htodo
    have hcage : (s.onCage m.val fun c => { c with missed := c.missed + 1, expedite := c.expedite || decide (10 ≤ c.missed + 1) }).cage m.val =
      { s.cage m.val with missed := (s.cage m.val).missed + 1, expedite := (s.cage m.val).expedite || decide (10 ≤ (s.cage m.val).missed + 1) } :=
      State.onCage_cage_same s m.val _
    have hfed' : (s.onCage m.val fun c => { c with missed := c.missed + 1, expedite := c.expedite || decide (10 ≤ c.missed + 1) }).fedBy m.val = none := hfed
    have htelemetry : s.telemetry m.val false x f =
        s.onCage m.val fun c => { c with missed := c.missed + 1, expedite := c.expedite || decide (10 ≤ c.missed + 1) } := by
      unfold State.telemetry
      dsimp only
      rw [if_neg (by simp [hreset, hruns, hlit]), if_neg Bool.false_ne_true, hfed']
    refine ⟨_, congrArg Host.Outcome.next ((congrArg State.finish htelemetry).trans (State.finish_of_quiet (by exact htodo))), rfl,
      congrArg Cage.missed hcage, fun hmissed => (congrArg Cage.expedite hcage).trans ?_⟩
    dsimp only
    rw [decide_eq_true (Nat.succ_le_succ hmissed), Bool.or_true]
  case refine_12 => exact fun m s h => congrArg Host.Outcome.next (if_neg (by rw [h]; exact Bool.false_ne_true))
  case refine_13 =>
    intro m s hseated hfed htodo hswaps
    have hextract := State.extract_of_no_swap hswaps m.val
    rw [hfed] at hextract
    have hcage : (s.emptied m.val).cage m.val = { ({} : Cage) with latchOpen := (s.cage m.val).latchOpen } :=
      State.onCage_cage_same { s with inv := _ } m.val _
    refine ⟨_, congrArg Host.Outcome.next ((if_pos hseated).trans ((congrArg State.finish hextract).trans (State.finish_of_quiet (by exact htodo)))),
      ?_, congrArg Cage.mode hcage, congrArg Cage.lit hcage, rfl⟩
    show (bvSet s.inv.cages m.val false).getLsbD m.val = false
    rw [bvSet_getLsbD _ _ _ _ m.isLt, if_pos rfl]
  case refine_14 =>
    intro k s h
    refine congrArg Host.Outcome.next ?_
    rw [h]
  case refine_15 =>
    rintro k m c s hsource hswap hcause hdie hhandlings htodo hdown hlit hlit' heth
    rcases hcause with rfl | ⟨rfl, hseated, hfed, hswaps⟩
    · obtain ⟨t, hends, htd, hfacts⟩ := State.sectorDark_facts (m := m.val) k.isLt hhandlings hdie hdown hlit hlit' heth
      refine ⟨t, congrArg Host.Outcome.next ?_, hfacts⟩
      rw [hsource]
      exact (congrArg State.finish hends).trans (State.finish_of_quiet (htd.trans htodo))
    · obtain ⟨t, hends, htd, hfacts⟩ := State.sectorDark_facts (s := s.emptied m.val) (m := m.val) k.isLt hhandlings hdie hdown hlit hlit' heth
      have hextract := State.extract_of_no_swap hswaps m.val
      rw [hfed] at hextract
      exact ⟨t, congrArg Host.Outcome.next ((if_pos hseated).trans
        ((congrArg State.finish (hextract.trans hends)).trans (State.finish_of_quiet (htd.trans htodo)))), hfacts⟩
  case refine_16 => exact fun k m s hlow => State.relightSector_facts k.isLt hlow

end Sys2Proof.Machine
end

section
/-! SUPPORT. O54: light swaps. -/

namespace Sys2Proof.Machine

theorem State.onSector_sector_ne (s : State) {j k : Nat} (h : j ≠ k) (f : Sector → Sector) : (s.onSector k f).sector j = s.sector j :=
  (State.onSector_sector s k j f).trans (if_neg h)

theorem State.onCage_cage_ne (s : State) {j k : Nat} (h : j ≠ k) (f : Cage → Cage) : (s.onCage k f).cage j = s.cage j :=
  (State.onCage_cage s k j f).trans (if_neg h)

/-- The sectors of a state in which one of them was updated. -/
theorem State.sector_of_upd {s t : State} {k : Nat} {f : Sector → Sector} (h : t.las.sectors = Tbl.upd {} s.las.sectors k f) :
    t.sector k = f (s.sector k) ∧ ∀ j, j ≠ k → t.sector j = s.sector j := by
  unfold State.sector
  rw [h]
  exact ⟨Tbl.look_upd_same _ _ _ _, fun j hj => (Tbl.look_upd _ _ _ _ _).trans (if_neg hj)⟩

/-- The cages of a state in which one of them was updated. -/
theorem State.cage_of_upd {s t : State} {m : Nat} {f : Cage → Cage} (h : t.las.cages = Tbl.upd {} s.las.cages m f) :
    t.cage m = f (s.cage m) ∧ ∀ j, j ≠ m → t.cage j = s.cage j := by
  unfold State.cage
  rw [h]
  exact ⟨Tbl.look_upd_same _ _ _ _, fun j hj => (Tbl.look_upd _ _ _ _ _).trans (if_neg hj)⟩

theorem State.note_las_frame {s u : State} (hu : u = { s with las := u.las }) (code : W16) (sev : Severity) (un : W16) (d : List W64)
    (c : Option Nat) : u.note code sev un d c = { s with las := (u.note code sev un d c).las, err := (u.note code sev un d c).err } := by
  generalize u.las = l at hu
  subst hu
  rfl

theorem State.las_frame {s u t : State} (hu : u = { s with las := u.las }) (ht : t = { u with las := t.las }) : t = { s with las := t.las } := by
  generalize t.las = x at ht ⊢
  subst ht
  generalize u.las = l at hu
  subst hu
  rfl

/-! ## A queued swap begins -/

/-- A swap that begins. -/
def SwapReq.begun (e : SwapReq) (t : Nat) : Swap :=
  { kind := e.kind, source := e.source, target := t, phase := if e.kind = .emergency then .armed else .verifying }

/-- What becomes of a request that no other keeps from beginning. -/
def State.chooseSwap (s : State) (k : Nat) (e : SwapReq) : State :=
  match s.targetFor e, s.stealable k, e.kind with
  | some t, _, _ => s.startSwap e t
  | none, some j, .emergency =>
    match (s.sector j).swap with
    | some x =>
      let s1 := s.onSector j fun y => { y with swap := none }
      let back : SwapReq := { sector := j, kind := x.kind, source := x.source }
      { s1 with las := { s1.las with queue := s1.las.queue ++ [back] } }.startSwap e x.target
    | none => s
  | none, _, .ret => s
  | none, _, _ =>
    if s.las.noSpare.getLsbD k then s
    else ({ s with las := { s.las with noSpare := bvSet s.las.noSpare k true } }.record 0x1004 .unit (unitCage e.source) none
      [BitVec.ofNat 64 k]).notifyService 2

theorem State.ahead_self (s : State) (e : SwapReq) : s.ahead e e = false := by simp [State.ahead]

section
variable {s : State} {e : SwapReq} {k : Nat} (hqueue : s.las.queue = [e]) (hsector : e.sector = k) (hdue : e.due = true)
  (hswap : (s.sector k).swap = none) (htargets : s.targets = [])
include hqueue hsector hdue hswap htargets

/-- The only request waits for nothing but its target. -/
theorem State.beginSwap_of_single : s.beginSwap k = s.chooseSwap k e := by
  have hready : s.ready e = true := by
    unfold State.ready
    rw [hdue, hsector, hswap]
    rfl
  have hfind : s.las.queue.find? (fun x => x.sector == k && s.ready x) = some e := by
    rw [hqueue]
    exact List.find?_cons_of_pos (by simp [hsector, hready])
  have hfree : (s.las.queue.any fun x => s.ready x && s.ahead x e && (s.targetFor x).isSome) = false := by
    rw [hqueue]
    simp [State.ahead_self]
  unfold State.beginSwap
  rw [hfind]
  dsimp only
  rw [hfree, htargets, if_neg (by simp)]
  rfl

theorem State.beginSwap_of_spare (hfit : s.fit 16 = true) (hsource : e.source ≠ 16) (hkind : e.kind ≠ .ret) : s.beginSwap k = s.startSwap e 16 := by
  have htarget : s.targetFor e = some 16 := by
    have hfirst : [16, 17, 18, 19].find? (fun t => t != e.source && (s.fit t && !s.targets.contains t)) = some 16 :=
      List.find?_cons_of_pos (by simp [hfit, htargets, Ne.symm hsource])
    unfold State.targetFor
    dsimp only
    rw [hfirst]
    cases hk : e.kind with
    | ret => exact absurd hk hkind
    | emergency => rfl
    | expedited => rfl
    | scheduled => rfl
  rw [State.beginSwap_of_single hqueue hsector hdue hswap htargets, State.chooseSwap, htarget]

/-- Without an eligible target the sector says so once. -/
theorem State.beginSwap_of_none (hkind : e.kind ≠ .ret) (hsource : e.source < 16) (hfit : ∀ m, 16 ≤ m → m < 20 → s.fit m = false)
    (hswaps : ∀ j, (s.sector j).swap = none) (hnew : s.las.noSpare.getLsbD k = false) :
    s.beginSwap k = (({ s with las := { s.las with noSpare := bvSet s.las.noSpare k true } } : State).record 0x1004 .unit (unitCage e.source) none
      [BitVec.ofNat 64 k]).notifyService 2 := by
  have htarget : s.targetFor e = none := by
    have hnone : [16, 17, 18, 19].find? (fun t => t != e.source && (s.fit t && !s.targets.contains t)) = none :=
      List.find?_eq_none.mpr fun t ht => by
        have hrange : 16 ≤ t ∧ t < 20 := by
          simp at ht
          omega
        rw [hfit t hrange.1 hrange.2]
        simp
    unfold State.targetFor
    dsimp only
    rw [hnone]
    dsimp only
    rw [if_neg (c := 16 ≤ e.source ∧ _) fun h => absurd h.1 (not_le.mpr hsource)]
    cases hk : e.kind with
    | ret => exact absurd hk hkind
    | emergency => rfl
    | expedited => rfl
    | scheduled => rfl
  have hsteal : s.stealable k = none := by
    refine List.find?_eq_none.mpr fun j _ => ?_
    rw [hswaps j]
    simp
  rw [State.beginSwap_of_single hqueue hsector hdue hswap htargets, State.chooseSwap, htarget, hsteal, hnew]
  cases hk : e.kind with
  | ret => exact absurd hk hkind
  | emergency => rfl
  | expedited => rfl
  | scheduled => rfl

omit hdue hswap htargets in
theorem State.startSwap_facts (t : Nat) : s.startSwap e t = { s with las := (s.startSwap e t).las } ∧ (s.startSwap e t).las.queue = [] ∧
    (s.startSwap e t).sector k = { s.sector k with swap := some (e.begun t) } ∧ (∀ j, j ≠ k → (s.startSwap e t).sector j = s.sector j) ∧
    (s.startSwap e t).las.cages = s.las.cages := by
  have hself : (s.startSwap e t).sector k = { s.sector k with swap := some (e.begun t) } := by
    rw [← hsector]
    exact State.onSector_sector_same s e.sector fun x => { x with swap := some (e.begun t) }
  refine ⟨rfl, ?_, hself, fun j hj => ?_, rfl⟩
  · show s.las.queue.erase e = []
    rw [hqueue]
    simp
  · rw [← hsector] at hj
    have hother := State.onSector_sector_ne s hj fun x => { x with swap := some (e.begun t) }
    exact hother

/-- A swap that begins on the first spare. -/
theorem State.beginSwap_outcome (htodo : s.err.todo = []) (hfit : s.fit 16 = true) (hsource : e.source ≠ 16) (hkind : e.kind ≠ .ret) :
    ∃ t, (s.beginSwap k).finish = t ∧ t = { s with las := t.las } ∧ t.las.queue = [] ∧ (t.sector k).source = (s.sector k).source ∧
      (t.sector k).swap = some (e.begun 16) ∧ (∀ j, j ≠ k → t.sector j = s.sector j) ∧ t.las.cages = s.las.cages := by
  obtain ⟨hframe, hempty, hself, hothers, hcages⟩ := State.startSwap_facts hqueue hsector 16
  rw [State.beginSwap_of_spare hqueue hsector hdue hswap htargets hfit hsource hkind]
  exact ⟨_, State.finish_of_quiet (by exact htodo), hframe, hempty, (congrArg Sector.source hself :), congrArg Sector.swap hself, hothers, hcages⟩

end

theorem State.beginSwap_of_empty {s : State} (h : s.las.queue = []) (k : Nat) : s.beginSwap k = s := by
  unfold State.beginSwap
  rw [h]
  rfl

/-- What a sector without a spare leaves and says. -/
theorem State.noSpare_facts {s : State} (hhandlings : s.err.handlings = []) (u : W16) (d : List W64) (reason : Nat) :
    ((s.record 0x1004 .unit u none d).notifyService reason).las = s.las ∧
      ((s.record 0x1004 .unit u none d).notifyService reason).err.todo = s.err.todo ∧
      (((s.record 0x1004 .unit u none d).notifyService reason).recordAt s.err.seqNext).code = 0x1004 ∧
      (((s.record 0x1004 .unit u none d).notifyService reason).recordAt s.err.seqNext).severity = .unit := by
  have hlas := State.record_kept blindToRecord_las s 0x1004 .unit u none d none false false none
  rw [State.record_unit_plain hhandlings] at hlas ⊢
  have htodo := State.announce_unit_todo s (r := { code := 0x1004, severity := .unit, unit := u, details := d }) rfl
  obtain ⟨hrecord, i, hlo, hhi, hnext⟩ := State.announce_unit_holdsRecord (s := s) (r := { code := 0x1004, severity := .unit, unit := u, details := d }) rfl rfl
  generalize s.announce { code := 0x1004, severity := .unit, unit := u, details := d } = a at *
  have hkept : (a.notifyService reason).recordAt s.err.seqNext = a.recordAt s.err.seqNext :=
    State.notify_recordAt_of_ne (by
      rw [hnext]
      exact slot_ne_later hlo (by omega)) _ _
  refine ⟨(State.notifyService_kept blindToRecord_las.toBlindToReport a reason).trans hlas,
    (State.notifyService_kept blindToReport_todo a reason).trans htodo, ?_, ?_⟩
  · rw [hkept, hrecord]
  · rw [hkept, hrecord]

/-- The state in which the scheduled swaps of a sector are due. -/
def State.dueAt (s : State) (k : Nat) : State :=
  { s with las := { s.las with queue := s.las.queue.map fun e => if e.sector = k then { e with due := true } else e } }

/-! ## A swap's course -/

theorem phaseIs_iff {s : State} {k : Nat} {p : SwapPhase} : s.phaseIs k p = true ↔ ∃ x, (s.sector k).swap = some x ∧ x.phase = p := by
  unfold State.phaseIs
  cases (s.sector k).swap with
  | none => simp
  | some x => simp

theorem phase_ne_of_phaseIs {s : State} {k : Nat} {p : SwapPhase} (h : s.phaseIs k p = false) {x : Swap} (hx : (s.sector k).swap = some x) :
    x.phase ≠ p := fun hp => by
  rw [phaseIs_iff.mpr ⟨x, hx, hp⟩] at h
  cases h

theorem State.verifyFails_of_not_verifying {s : State} {k : Nat} (h : s.phaseIs k .verifying = false) : s.verifyFails k = s := by
  unfold State.verifyFails
  cases hx : (s.sector k).swap with
  | none => rfl
  | some x => exact if_neg (phase_ne_of_phaseIs h hx)

/-- A sector whose swap is over because its spare could not be verified. -/
def State.unverified (s : State) (k : Nat) (x : Swap) : State :=
  (s.onSector k fun y => { y with swap := none }).onCage x.target fun c => { c with mode := .out }

theorem State.unverified_facts (s : State) (k : Nat) (x : Swap) : s.unverified k x = { s with las := (s.unverified k x).las } ∧
    (s.unverified k x).sector k = { s.sector k with swap := none } ∧ (s.unverified k x).cage x.target = { s.cage x.target with mode := .out } ∧
    (s.unverified k x).las.queue = s.las.queue := by
  obtain ⟨hself, -⟩ := State.sector_of_upd (s := s) (t := s.unverified k x) (f := fun y => { y with swap := none }) rfl
  obtain ⟨hcage, -⟩ := State.cage_of_upd (s := s) (t := s.unverified k x) (f := fun c => { c with mode := .out }) rfl
  exact ⟨rfl, hself, hcage, rfl⟩

/-- A spare that could not be verified is OUT and its RETURN is over. -/
theorem State.verifyFails_ret {s : State} {k : Nat} {x : Swap} (hx : (s.sector k).swap = some x) (hphase : x.phase = .verifying) (hkind : x.kind = .ret) :
    s.verifyFails k = (s.unverified k x).note 0x1003 .corrected (unitCage x.target) [BitVec.ofNat 64 k, BitVec.ofNat 64 x.target] := by
  unfold State.verifyFails
  rw [hx]
  dsimp only
  rw [if_pos hphase, if_pos hkind]
  rfl

/-- A sector on its target, the confirmation to come. -/
def State.onTargetAlone (s : State) (k : Nat) (x : Swap) : State :=
  ((s.onSector k fun y => { source := some x.target, swap := y.swap.map fun z => { z with phase := .confirming } }).onCage
    x.target fun c => if c.mode = .released then c else { c with mode := .active }).tidySwaps

theorem State.onTarget_of_alike {s : State} {k : Nat} {x : Swap} (hlatched : (s.cage x.target).mode ≠ .released)
    (hlines : (s.cage x.source).lowLines = (s.cage x.target).lowLines) : s.onTarget k x = s.onTargetAlone k x := by
  unfold State.onTarget
  dsimp only
  rw [if_neg hlatched, hlines, State.linesChange_same]
  rfl

theorem State.onTargetAlone_facts {s : State} {k : Nat} {x : Swap} (hx : (s.sector k).swap = some x) (hlatched : (s.cage x.target).mode ≠ .released) :
    (s.onTargetAlone k x).sector k = { source := some x.target, swap := some { x with phase := .confirming } } ∧
      ((s.onTargetAlone k x).cage x.target).mode = .active ∧ ∀ j, j ≠ k → (s.onTargetAlone k x).sector j = s.sector j := by
  obtain ⟨hself, hothers⟩ := State.sector_of_upd (s := s) (t := s.onTargetAlone k x)
    (f := fun y => { source := some x.target, swap := y.swap.map fun z => { z with phase := .confirming } }) rfl
  obtain ⟨hcage, -⟩ := State.cage_of_upd (s := s) (t := s.onTargetAlone k x) (f := fun c => if c.mode = .released then c else { c with mode := .active }) rfl
  rw [hx] at hself
  rw [if_neg hlatched] at hcage
  exact ⟨hself, congrArg Cage.mode hcage, hothers⟩

/-- A swap that is confirmed. -/
def State.confirmed (s : State) (k : Nat) (x : Swap) : State :=
  let s1 := (s.onSector k fun y => { y with swap := none }).onCage x.source fun c => c.leave x.kind
  { s1 with las := { s1.las with swapCnt := s1.las.swapCnt + 1,
                                 emergCnt := if x.kind = SwapKind.emergency then s1.las.emergCnt + 1 else s1.las.emergCnt } }

theorem State.confirmed_facts (s : State) (k : Nat) (x : Swap) : s.confirmed k x = { s with las := (s.confirmed k x).las } ∧
    (s.confirmed k x).sector k = { s.sector k with swap := none } ∧ (s.confirmed k x).cage x.source = (s.cage x.source).leave x.kind ∧
    (s.confirmed k x).las.swapCnt = s.las.swapCnt + 1 ∧
    (s.confirmed k x).las.emergCnt = if x.kind = .emergency then s.las.emergCnt + 1 else s.las.emergCnt := by
  obtain ⟨hself, -⟩ := State.sector_of_upd (s := s) (t := s.confirmed k x) (f := fun y => { y with swap := none }) rfl
  obtain ⟨hcage, -⟩ := State.cage_of_upd (s := s) (t := s.confirmed k x) (f := fun c => c.leave x.kind) rfl
  exact ⟨rfl, hself, hcage, rfl, rfl⟩

theorem State.confirmSwap_of_confirming {s : State} {k : Nat} {x : Swap} (hx : (s.sector k).swap = some x) (hphase : x.phase = .confirming) :
    s.confirmSwap k = (s.confirmed k x).note 0x1002 .corrected (unitCage x.source)
      [BitVec.ofNat 64 k, BitVec.ofNat 64 x.source, BitVec.ofNat 64 x.target, BitVec.ofNat 64 (x.kind.rank + 1)] := by
  unfold State.confirmSwap
  rw [hx]
  dsimp only
  rw [if_pos hphase]
  rfl

theorem Cage.leave_of_active {c : Cage} (h : c.mode = .active) (kind : SwapKind) :
    (c.leave kind).mode = if kind = .ret then .standby else .out := by
  unfold Cage.leave
  rw [h]
  cases kind with
  | ret => rfl
  | emergency => rfl
  | expedited => rfl
  | scheduled => rfl

theorem Cage.leave_of_released {c : Cage} (h : c.mode = .released) (kind : SwapKind) : (c.leave kind).lit = false := by
  unfold Cage.leave
  rw [h]

/-! ## Latches -/

/-- The latch of a module's cage has opened while the module runs. -/
def State.unlatched (s : State) (m : Nat) : State :=
  (s.onCage m fun x => { x with latchOpen := true }).onCage m fun x => { x with mode := .released }

theorem State.unlatched_cage (s : State) (m : Nat) : (s.unlatched m).cage m = { s.cage m with latchOpen := true, mode := .released } := by
  unfold State.unlatched
  rw [State.onCage_cage_same, State.onCage_cage_same]

theorem State.unlatched_cage_ne (s : State) {m j : Nat} (h : j ≠ m) : (s.unlatched m).cage j = s.cage j := by
  unfold State.unlatched
  rw [State.onCage_cage_ne _ h, State.onCage_cage_ne _ h]

theorem inUse_iff {s : State} {m : Nat} : s.inUse m = false ↔
    ∀ k, k < 16 → (s.sector k).source ≠ some m ∧ ∀ x, (s.sector k).swap = some x → x.source ≠ m ∧ x.target ≠ m := by
  unfold State.inUse allSectors
  rw [List.any_eq_false]
  refine forall_congr' fun k => ?_
  rw [List.mem_range]
  refine imp_congr_right fun _ => ?_
  cases (s.sector k).swap with
  | none => simp
  | some x => simp

theorem State.latchOpens_of_running {s : State} {m : Nat} (h : (s.cage m).mode ∈ [.active, .standby, .out, .accepting]) :
    s.latchOpens m =
      (let s3 := match (s.unlatched m).fedBy m with
        | some k => (s.unlatched m).releaseSource k m
        | none => (s.unlatched m).releaseTarget m
       if s3.inUse m then s3 else s3.onCage m fun x => { x with lit := false }) := by
  have hmode : ¬ ((s.cage m).mode = .empty ∨ (s.cage m).mode = .rejected ∨ (s.cage m).mode = .released) := by
    rintro (hm | hm | hm) <;> simp [hm] at h
  unfold State.latchOpens
  dsimp only
  rw [if_neg hmode]
  rfl

/-- A module whose light no sector uses is switched off. -/
theorem State.latchOpens_of_spare {s : State} {m : Nat} (h : (s.cage m).mode ∈ [.active, .standby, .out, .accepting]) (hidle : s.inUse m = false) :
    s.latchOpens m = (s.unlatched m).onCage m fun x => { x with lit := false } := by
  have hfree := inUse_iff.mp hidle
  have hfed : (s.unlatched m).fedBy m = none := by
    refine List.find?_eq_none.mpr fun k hk => ?_
    have hne := (hfree k (List.mem_range.mp hk)).1
    exact fun hfeeds => hne (beq_iff_eq.mp hfeeds)
  have htarget : (s.unlatched m).releaseTarget m = s.unlatched m := by
    have hnone : (allSectors.find? fun k => ((s.unlatched m).sector k).swap.any fun x =>
        x.target == m && (x.phase == .verifying || x.phase == .armed)) = none := by
      refine List.find?_eq_none.mpr fun k hk => ?_
      have hswap := (hfree k (List.mem_range.mp hk)).2
      show ¬ ((s.sector k).swap.any _) = true
      cases hx : (s.sector k).swap with
      | none => simp
      | some x => simp [(hswap x hx).2]
    unfold State.releaseTarget
    rw [hnone]
  have hidle' : (s.unlatched m).inUse m = false := hidle
  rw [State.latchOpens_of_running h, hfed]
  dsimp only
  rw [htarget, hidle', if_neg Bool.false_ne_true]

/-- The emergency request of a released source. -/
def urgentSwap (k m : Nat) : SwapReq := { sector := k, kind := .emergency, source := m }

theorem State.askSwap_of_empty {s : State} {k m : Nat} (hswap : (s.sector k).swap = none) (hqueue : s.las.queue = []) :
    s.askSwap k m .emergency = { s with las := { s.las with queue := [urgentSwap k m] } } := by
  unfold State.askSwap
  dsimp only
  rw [hswap, hqueue]
  rfl

/-- The source of a sector is released while the first spare is eligible. -/
theorem State.latchOpens_of_source {s : State} {m k : Nat} (hactive : (s.cage m).mode = .active) (hfed : s.fedBy m = some k)
    (hswap : (s.sector k).swap = none) (hqueue : s.las.queue = []) (htargets : s.targets = []) (hfit : s.fit 16 = true) :
    s.latchOpens m = ({ s.unlatched m with las := { (s.unlatched m).las with queue := [urgentSwap k m] } } : State).startSwap (urgentSwap k m) 16 := by
  have hspare : (s.cage 16).mode = .standby := by
    unfold State.fit at hfit
    exact beq_iff_eq.mp (Bool.and_eq_true_iff.mp hfit).1
  have hm : m ≠ 16 := by
    rintro rfl
    rw [hactive] at hspare
    cases hspare
  have hfed' : (s.unlatched m).fedBy m = some k := hfed
  have hfit' : (s.unlatched m).fit 16 = true := by
    unfold State.fit
    rw [State.unlatched_cage_ne s (Ne.symm hm)]
    exact hfit
  have hask := State.askSwap_of_empty (s := s.unlatched m) (k := k) (m := m) hswap hqueue
  have hsource : s.sector k = s.sector k ∧ (s.sector k).source = some m := ⟨rfl, by
    have hfound := List.find?_some hfed
    exact beq_iff_eq.mp hfound⟩
  have hk : k < 16 := List.mem_range.mp (List.mem_of_find?_eq_some hfed)
  have hswap' : ((s.unlatched m).sector k).swap = none := hswap
  have hsource' : ((s.unlatched m).sector k).source = some m := hsource.2
  have htargets' : (s.unlatched m).targets = [] := htargets
  rw [State.latchOpens_of_running (by rw [hactive]; decide), hfed']
  generalize s.unlatched m = a at *
  have hbegin : ({ a with las := { a.las with queue := [urgentSwap k m] } } : State).beginSwap k =
      ({ a with las := { a.las with queue := [urgentSwap k m] } } : State).startSwap (urgentSwap k m) 16 :=
    State.beginSwap_of_spare rfl rfl rfl hswap' htargets' hfit' hm SwapKind.noConfusion
  have hrelease : a.releaseSource k m = ({ a with las := { a.las with queue := [urgentSwap k m] } } : State).startSwap (urgentSwap k m) 16 := by
    unfold State.releaseSource
    rw [hswap', ← hbegin, ← hask]
  dsimp only
  rw [hrelease]
  have hused : (({ a with las := { a.las with queue := [urgentSwap k m] } } : State).startSwap (urgentSwap k m) 16).inUse m = true := by
    by_contra hidle
    have hfree := (inUse_iff.mp (Bool.eq_false_iff.mpr hidle) k hk).1
    have hself := (State.startSwap_facts (s := { a with las := { a.las with queue := [urgentSwap k m] } }) (e := urgentSwap k m) (k := k)
      rfl rfl 16).2.2.1
    exact hfree ((congrArg Sector.source hself).trans hsource')
  rw [if_pos hused]

/-- Settles O54: each step of a swap and each move of a latch is one of the cases above. -/
theorem lightSwaps : Obligations.LightSwaps := by
  unfold Obligations.LightSwaps
  refine ⟨?_, ?_, ?_, ?_, ?_, ?_, ?_, ?_, ?_, ?_, ?_, ?_, ?_, ?_⟩
  case refine_1 =>
    intro k e c s htodo hqueue hsector hswap htargets hfit hsource hcause
    rcases hcause with ⟨rfl, hkind⟩ | ⟨rfl, hdue, hkind⟩
    · have hqueue' : (s.dueAt k.val).las.queue = [{ e with due := true }] := by
        show s.las.queue.map _ = _
        rw [hqueue, List.map_cons, if_pos hsector]
        rfl
      obtain ⟨t, hends, hfacts⟩ := State.beginSwap_outcome (s := s.dueAt k.val) hqueue' hsector rfl hswap htargets htodo hfit hsource
        (by rw [hkind]; exact SwapKind.noConfusion)
      exact ⟨t, congrArg Host.Outcome.next hends, hfacts⟩
    · obtain ⟨t, hends, hfacts⟩ := State.beginSwap_outcome hqueue hsector hdue hswap htargets htodo hfit hsource
        (fun hret => by rw [hret] at hkind; simp at hkind)
      exact ⟨t, congrArg Host.Outcome.next hends, hfacts⟩
  case refine_2 =>
    intro k s htodo hqueue
    have hstill : (s.beginSwap k.val).finish = s := (congrArg State.finish (State.beginSwap_of_empty hqueue k.val)).trans (State.finish_of_quiet htodo)
    have hdue : s.dueAt k.val = s := by
      unfold State.dueAt
      rw [hqueue, List.map_nil, ← hqueue]
    exact ⟨congrArg Host.Outcome.next hstill, congrArg Host.Outcome.next ((congrArg (fun u : State => (u.beginSwap k.val).finish) hdue).trans hstill)⟩
  case refine_3 =>
    intro k e s htodo hhandlings hqueue hsector hdue hkind hsource hswap htargets hfit hswaps hnew
    obtain ⟨hlas, htd, hcode, hsev⟩ := State.noSpare_facts (s := { s with las := { s.las with noSpare := bvSet s.las.noSpare k.val true } }) hhandlings
      (unitCage e.source) [BitVec.ofNat 64 k.val] 2
    have hbegin := State.beginSwap_of_none hqueue hsector hdue hswap htargets hkind hsource hfit hswaps hnew
    refine ⟨_, congrArg Host.Outcome.next ((congrArg State.finish hbegin).trans (State.finish_of_quiet (htd.trans htodo))), hcode, hsev,
      (congrArg Light.queue hlas).trans hqueue, ?_, (congrArg (fun l : Light => Tbl.look ({} : Sector) l.sectors k.val) hlas :),
      (congrArg Light.cages hlas :)⟩
    refine (congrArg (fun l : Light => l.noSpare.getLsbD k.val) hlas).trans ?_
    show (bvSet s.las.noSpare k.val true).getLsbD k.val = true
    rw [bvSet_getLsbD _ _ _ _ k.isLt, if_pos rfl]
  case refine_4 =>
    intro k x s hx hphase
    have hself : (s.setPhase k.val .armed).sector k.val = { s.sector k.val with swap := some { x with phase := .armed } } := by
      unfold State.setPhase
      rw [State.onSector_sector_same, hx]
      rfl
    have hothers (j : Nat) (hj : j ≠ k.val) : (s.setPhase k.val .armed).sector j = s.sector j := by
      unfold State.setPhase
      exact State.onSector_sector_ne s hj _
    exact ⟨_, congrArg Host.Outcome.next (if_pos (phaseIs_iff.mpr ⟨x, hx, hphase⟩)), rfl, hself, hothers⟩
  case refine_5 =>
    intro k s hphase htodo
    exact ⟨congrArg Host.Outcome.next (if_neg (by rw [hphase]; exact Bool.false_ne_true)), congrArg Host.Outcome.next
      ((congrArg State.finish (State.verifyFails_of_not_verifying hphase)).trans (State.finish_of_quiet htodo))⟩
  case refine_6 =>
    intro k x s hx hphase hkind htodo
    obtain ⟨hframe, hself, hcage, hqueue⟩ := s.unverified_facts k.val x
    have herr : (s.unverified k.val x).err = s.err := by rw [hframe]
    have hends := State.verifyFails_ret hx hphase hkind
    have hrecord := (s.unverified k.val x).note_recordAt 0x1003 .corrected (unitCage x.target) [BitVec.ofNat 64 k.val, BitVec.ofNat 64 x.target] none
    generalize s.unverified k.val x = u at *
    rw [herr] at hrecord
    exact ⟨_, congrArg Host.Outcome.next ((congrArg State.finish hends).trans (State.finish_of_quiet ((congrArg Errors.todo herr).trans htodo))),
      State.note_las_frame hframe _ _ _ _ _, congrArg Cage.mode hcage, hself, congrArg ErrRec.code hrecord, hqueue⟩
  case refine_7 =>
    intro k s hphase
    refine congrArg Host.Outcome.next ?_
    cases hx : (s.sector k.val).swap with
    | none => rfl
    | some x => exact if_neg (phase_ne_of_phaseIs hphase hx)
  case refine_8 =>
    intro k x s hx hphase htodo hlatched hlines
    obtain ⟨hself, hcage, hothers⟩ := State.onTargetAlone_facts hx hlatched
    refine ⟨s.onTargetAlone k.val x, congrArg Host.Outcome.next ?_, rfl, hself, hcage, hothers⟩
    rw [hx]
    dsimp only
    rw [if_pos hphase, State.onTarget_of_alike hlatched hlines]
    exact State.finish_of_quiet (by exact htodo)
  case refine_9 =>
    intro k s hphase
    refine congrArg Host.Outcome.next ?_
    unfold State.confirmSwap
    cases hx : (s.sector k.val).swap with
    | none => rfl
    | some x => exact if_neg (phase_ne_of_phaseIs hphase hx)
  case refine_10 =>
    intro k x s hx hphase
    obtain ⟨hframe, hself, hcage, hcount, hemerg⟩ := s.confirmed_facts k.val x
    have hseq : (s.confirmed k.val x).err.seqNext = s.err.seqNext := by rw [hframe]
    have hrecord := (s.confirmed k.val x).note_recordAt 0x1002 .corrected (unitCage x.source)
      [BitVec.ofNat 64 k.val, BitVec.ofNat 64 x.source, BitVec.ofNat 64 x.target, BitVec.ofNat 64 (x.kind.rank + 1)] none
    have hends := State.confirmSwap_of_confirming hx hphase
    rw [hseq] at hrecord
    generalize s.confirmed k.val x = u at *
    exact ⟨_, congrArg Host.Outcome.next hends, State.note_las_frame hframe _ _ _ _ _, hself, hcount, hemerg,
      fun hactive => (congrArg Cage.mode hcage).trans (Cage.leave_of_active hactive x.kind),
      fun hreleased => (congrArg Cage.lit hcage).trans (Cage.leave_of_released hreleased x.kind),
      congrArg ErrRec.code hrecord, congrArg ErrRec.severity hrecord⟩
  case refine_11 =>
    intro m s htodo hmode hidle
    have hopens := State.latchOpens_of_spare hmode hidle
    have hcage := s.unlatched_cage m.val
    have hothers := fun j (hj : j ≠ m.val) => s.unlatched_cage_ne hj
    have hunlatched : s.unlatched m.val = { s with las := (s.unlatched m.val).las } := rfl
    have hkept : { (s.unlatched m.val).las with cages := s.las.cages } = s.las := rfl
    have htodo' : (s.unlatched m.val).err.todo = [] := htodo
    generalize s.unlatched m.val = u at *
    have hoff : (u.onCage m.val fun x => { x with lit := false }).cage m.val = { s.cage m.val with latchOpen := true, mode := .released, lit := false } := by
      rw [State.onCage_cage_same, hcage]
    refine ⟨_, congrArg Host.Outcome.next ((congrArg State.finish hopens).trans (State.finish_of_quiet (by exact htodo'))), ?_,
      congrArg Cage.mode hoff, congrArg Cage.latchOpen hoff, congrArg Cage.lit hoff,
      fun j hj => (State.onCage_cage_ne _ hj _).trans (hothers j hj)⟩
    rw [hunlatched, ← hkept]
    rfl
  case refine_12 =>
    intro m k s htodo hactive hfed hswap hqueue htargets hfit
    have hopens := State.latchOpens_of_source hactive hfed hswap hqueue htargets hfit
    have hsource : (s.sector k.val).source = some m.val := by
      have hfound := List.find?_some hfed
      exact beq_iff_eq.mp hfound
    have hcage := s.unlatched_cage m.val
    have hunlatched : s.unlatched m.val = { s with las := (s.unlatched m.val).las } := rfl
    have hsector : ((s.unlatched m.val).sector k.val).source = some m.val := hsource
    have htodo' : (s.unlatched m.val).err.todo = [] := htodo
    generalize s.unlatched m.val = u at *
    obtain ⟨hframe, -, hself, -, hcages⟩ := State.startSwap_facts (s := { u with las := { u.las with queue := [urgentSwap k.val m.val] } })
      (e := urgentSwap k.val m.val) (k := k.val) rfl rfl 16
    have hstarted : ((({ u with las := { u.las with queue := [urgentSwap k.val m.val] } } : State).startSwap (urgentSwap k.val m.val) 16).err.todo) = [] :=
      htodo'
    generalize State.startSwap _ (urgentSwap k.val m.val) 16 = t at *
    have hcage' : t.cage m.val = u.cage m.val := congrArg (fun c : Tbl Cage => Tbl.look ({} : Cage) c m.val) hcages
    rw [hcage] at hcage'
    exact ⟨t, congrArg Host.Outcome.next ((congrArg State.finish hopens).trans (State.finish_of_quiet hstarted)), congrArg Cage.mode hcage',
      (congrArg Cage.lit hcage' :), (congrArg Sector.source hself).trans hsector, congrArg Sector.swap hself, State.las_frame hunlatched hframe⟩
  case refine_13 =>
    intro m s hseated hruns hmode
    have hcage : (s.onCage m.val fun x => { x with latchOpen := false }).cage m.val = { s.cage m.val with latchOpen := false } :=
      State.onCage_cage_same s m.val _
    obtain ⟨hframe, hcages⟩ := (s.onCage m.val fun x => { x with latchOpen := false }).acceptStart_facts m.val
    rw [hcage] at hcages
    refine ⟨(s.onCage m.val fun x => { x with latchOpen := false }).acceptStart m.val, congrArg Host.Outcome.next ?_,
      (congrArg Cage.mode hcages).trans (if_pos ⟨hruns, hseated, rfl⟩), congrArg Cage.latchOpen hcages, hframe⟩
    rw [hmode]
  case refine_14 =>
    intro m s hmode
    refine congrArg Host.Outcome.next ?_
    cases hm : (s.cage m.val).mode with
    | released => simp [hm] at hmode
    | empty => simp [hm] at hmode
    | accepting => rfl
    | rejected => rfl
    | standby => rfl
    | active => rfl
    | out => rfl

end Sys2Proof.Machine
end

section
/-! SUPPORT. O55: the host port's loss is announced to the heads of other packages, which sends cells. -/

namespace Sys2Proof.Machine

/-! ## A notification to another package is an operation -/

theorem State.sendMsg_ops_ne_nil (s : State) (i : Issuer) (d p m : Nat) (b : List Byte) : (s.sendMsg i d p m b).fab.ops ≠ [] := by
  unfold State.sendMsg
  dsimp only
  intro h
  rw [State.launchAll_ops] at h
  exact List.append_ne_nil_of_right_ne_nil _ (List.cons_ne_nil _ _) h

theorem State.sealTo_remote (s : State) (k : Nat) (m : List Byte) : (s.sealTo k m).kcp.remote = s.kcp.remote := by
  unfold State.sealTo
  dsimp only
  split
  · rfl
  · split
    · rfl
    · exact ite_kept (π := fun a => a.kcp.remote) rfl rfl

/-- A notification that the head of one other package subscribed to leaves as an operation. -/
theorem State.sendNotification_ops_ne_nil {s : State} {n : Notification} {key : Nat} {r : RemoteSlot} (hremote : s.kcp.remote = [(key, r)])
    (hsub : r.subs.getLsbD (n.opcode.toNat - 0x80) = true) : (s.sendNotification n).fab.ops ≠ [] := by
  have hsealed : ((List.range 8).foldl (fun a k => if (a.session k).subs.getLsbD (n.opcode.toNat - 0x80) then a.sealTo k (s.notifyMessage n) else a)
      s).kcp.remote = s.kcp.remote :=
    foldl_kept (π := fun a => a.kcp.remote) (fun a k => ite_kept (π := fun a => a.kcp.remote) (a.sealTo_remote k _) rfl) _ s
  unfold State.sendNotification
  dsimp only
  rw [hsealed, hremote, List.foldl_cons, List.foldl_nil]
  dsimp only
  rw [if_pos hsub]
  exact State.sendMsg_ops_ne_nil _ _ _ _ _ _

theorem State.notify_ops_ne_nil {s : State} {o : W16} {p : List Byte} {key : Nat} {r : RemoteSlot} (hremote : s.kcp.remote = [(key, r)])
    (hsub : r.subs.getLsbD (o.toNat - 0x80) = true) : (s.notify o p).fab.ops ≠ [] := by
  have hadd : (s.addNotification o p).2.fab.ops ≠ [] := by
    unfold State.addNotification
    exact State.sendNotification_ops_ne_nil (by exact hremote) hsub
  unfold State.notify
  split
  · next u e =>
    rw [e] at hadd
    exact hadd
  · next u e =>
    rw [e] at hadd
    exact hadd

/-! ## The counterexample -/

/-- The host port is UP on lanes without a signal, and package 1's head is subscribed to the records of units. -/
def watchedPort : State :=
  { ({} : State) with board := { ({} : Board) with rails := true }, clk := { ({} : Clock) with dieLock := 256 },
                      eth := { ({} : Ethernet) with mode := .up, speed := 1 }, kcp := { ({} : State).kcp with remote := [(8, { subs := 2 })] } }

/-- The host port of watchedPort, down. -/
def fallenPort : State := { watchedPort with eth := { watchedPort.eth with mode := .down, speed := 0, retraining := false } }

theorem watchedPort_falls : exec (.ethLaneChange 0 false) watchedPort = .next (fallenPort.record 0x0601 .unit unitHost).finish := by
  have hsettle : watchedPort.ethSettle = fallenPort.record 0x0601 .unit unitHost := rfl
  exact congrArg (fun s : State => Host.Outcome.next s.finish) hsettle

theorem fallenPort_sends : (fallenPort.record 0x0601 .unit unitHost).finish.fab.ops ≠ [] := by
  rw [State.record_unit_plain rfl, State.finish_of_quiet (State.announce_unit_todo fallenPort rfl), State.announce_unit rfl rfl]
  exact State.notify_ops_ne_nil (key := 8) (r := { subs := 2 }) rfl (by decide)

/-- Refutes O55: the record of the host port's fall leaves as a message to the head of another package that subscribed to it, so the fabric
is not as it was. -/
theorem not_hostPortAndQueuePairs : ¬ Obligations.HostPortAndQueuePairs := by
  unfold Obligations.HostPortAndQueuePairs
  intro h
  obtain ⟨-, -, -, -, -, -, hlane, -⟩ := h
  obtain ⟨t, hexec, hfab, -⟩ := hlane 0 false { watchedPort.eth with signal := bvSet watchedPort.eth.signal 0 false } watchedPort rfl rfl rfl rfl rfl
  have ht : t = (fallenPort.record 0x0601 .unit unitHost).finish := Host.Outcome.next.inj (hexec.symm.trans watchedPort_falls)
  refine fallenPort_sends ?_
  rw [← ht, hfab]
  rfl

end Sys2Proof.Machine
end
